-- ==== Sys2Proof/Word.lean ====
section
/-! DEFINITION. The word types of the model (little-endian bytes, 32-bit registers, 64-bit scalars; R8, R402). -/

namespace Sys2Proof

/-- One byte of memory (R8). -/
abbrev Byte := BitVec 8

/-- A register, an FP32 encoding, one accumulator word. -/
abbrev W32 := BitVec 32

/-- A scalar register, a mark base, a module address as software holds it. -/
abbrev W64 := BitVec 64

/-- A host or module memory cell: address and byte, as the host interface writes it. -/
abbrev Cells := List (Nat × BitVec 8)

end Sys2Proof
end

