-- ==== Sys2Proof/Syntax.lean ====
section
/-! DEFINITION. The commands of the block: one constructor of `Instr` for every row of spec/opcode_table.json, with the row's operands. -/

namespace Sys2Proof

/-- The three streams of an array (R255). -/
inductive Stream where
  | f | b | u
  deriving DecidableEq, Repr

/-- F, B, U as 0, 1, 2: the order of R363 and the users bit of R210. -/
def Stream.idx : Stream → Nat
  | .f => 0
  | .b => 1
  | .u => 2

/-- The fields every instruction word has (R283), with the array and stream whose head it is. -/
structure Head where
  arr : Nat
  stream : Stream
  mod : BitVec 8
  p : BitVec 32
  delta : BitVec 16
  deriving DecidableEq, Repr

/-- Body format R (R284). -/
structure BodyR where
  rd : BitVec 5
  rs1 : BitVec 5
  rs2 : BitVec 5
  imm : BitVec 32
  deriving DecidableEq, Repr

/-- Body format B (R284). -/
structure BodyB where
  rs1 : BitVec 5
  rs2 : BitVec 5
  target : BitVec 32
  deriving DecidableEq, Repr

/-- Short reference SREF (R285). -/
structure SRef where
  ab : BitVec 4
  ofs : BitVec 24
  deriving DecidableEq, Repr

/-- Address reference AREF (R285). -/
structure ARef where
  ab : BitVec 4
  ofs : BitVec 48
  deriving DecidableEq, Repr

/-- Operand reference ORef (R285). -/
structure ORef where
  ab : BitVec 4
  format : BitVec 5
  kind : BitVec 2
  mxAxis : Bool
  colZero : Bool
  ofs : BitVec 48
  deriving DecidableEq, Repr

/-- Whether an AREF has all bits zero: it names nothing where its record allows none (R285). -/
def ARef.isNone (r : ARef) : Bool := r.ab == 0#4 && r.ofs == 0#48

/-- Whether an ORef has all bits zero (R285). -/
def ORef.isNone (r : ORef) : Bool :=
  r.ab == 0#4 && r.ofs == 0#48 && r.format == 0#5 && r.kind == 0#2 && !r.mxAxis && !r.colZero

/-- Body format P (R284). -/
structure BodyP where
  wt : BitVec 16
  accBase : BitVec 6
  dw32 : Bool
  accInit : Bool
  fused : Bool
  emit : Bool
  first : Bool
  recRef : SRef
  deriving DecidableEq, Repr

/-- Record of RCALL (R295). -/
structure RcallRec where
  code : BitVec 32
  count : BitVec 16
  delta : BitVec 32
  stepReg : BitVec 5
  deriving DecidableEq, Repr

/-- Record of MMF and MMT (R297). -/
structure ProdRec where
  x : ORef
  xStride : BitVec 32
  m : BitVec 32
  wDir : ARef
  wPay : ARef
  r0 : BitVec 16
  r1 : BitVec 16
  j0 : BitVec 16
  j1 : BitVec 16
  segCount : BitVec 32
  outStride : BitVec 32
  out : ORef
  wFmt : BitVec 5
  sr : Bool
  idxReg : BitVec 5
  seedReg : BitVec 5
  idxPitch : BitVec 32
  deriving DecidableEq, Repr

/-- Record of MMG (R298). -/
structure MmgRec where
  x : ORef
  xStride : BitVec 32
  m : BitVec 32
  posDir : ARef
  posPay : ARef
  r0 : BitVec 16
  r1 : BitVec 16
  j0 : BitVec 16
  j1 : BitVec 16
  segCount : BitVec 32
  dyStride : BitVec 32
  dy : ORef
  posFmt : BitVec 5
  grad : ARef
  frz : ARef
  deriving DecidableEq, Repr

/-- Record of MMG.CAND (R298, last column). -/
structure CandRec where
  x : ORef
  xStride : BitVec 32
  m : BitVec 32
  list : ARef
  count : BitVec 16
  dyStride : BitVec 32
  dy : ORef
  outBase : ARef
  deriving DecidableEq, Repr

/-- Record of RED (R299). -/
structure RedRec where
  src : ORef
  srcStride : BitVec 32
  e : BitVec 32
  c : BitVec 7
  idxBase : BitVec 32
  outStride : BitVec 32
  sr : Bool
  idxReg : BitVec 5
  seedReg : BitVec 5
  out : ORef
  out2 : ORef
  idxPitch : BitVec 32
  deriving DecidableEq, Repr

/-- Record of the vector instructions (R300). -/
structure VecRec where
  a : ORef
  aStride : BitVec 32
  b : ORef
  bStride : BitVec 32
  c : ORef
  cStride : BitVec 32
  d : ORef
  dStride : BitVec 32
  rows : BitVec 32
  cols : BitVec 32
  slot : BitVec 4
  sr : Bool
  saveIn : Bool
  idxReg : BitVec 5
  seedReg : BitVec 5
  idxPitch : BitVec 32
  deriving DecidableEq, Repr

/-- Record of the DMA instructions (R302). -/
structure DmaRec where
  src : ORef
  srcPay : ARef
  dst : ORef
  dstPay : ARef
  mask : ARef
  r0 : BitVec 16
  r1 : BitVec 16
  j0 : BitVec 16
  j1 : BitVec 16
  stride : BitVec 32
  len : BitVec 32
  positions : BitVec 32
  vtag : BitVec 32
  deriving DecidableEq, Repr

/-- Record of REGROW.M (R304). -/
structure RegrowRec where
  table : ARef
  count : BitVec 16
  g : BitVec 32
  deriving DecidableEq, Repr

/-- Record of UNRM (R304). -/
structure UnrmRec where
  e0 : BitVec 32
  e1 : BitVec 32
  frz : ARef
  deriving DecidableEq, Repr

/-- Record of UPD (R304). -/
structure UpdRec where
  e0 : BitVec 32
  e1 : BitVec 32
  desc : ARef
  frz : ARef
  deriving DecidableEq, Repr

/-- Record of CTX.APPEND and CTX.ADV (R304). -/
structure CtxRec where
  store : ARef
  seq : BitVec 32
  block : BitVec 16
  src : ORef
  srcStride : BitVec 32
  n : BitVec 32
  deriving DecidableEq, Repr

/-- Record of PSTAGE (R304). -/
structure PstageRec where
  obj : ARef
  tick : BitVec 32
  deriving DecidableEq, Repr

/-- Record of RSEND and RRECV (R306). -/
structure RingRec where
  buf : ORef
  len : BitVec 32
  ctx : BitVec 16
  port : BitVec 8
  add : Bool
  tag : BitVec 32
  deriving DecidableEq, Repr

/-- Record of DIG.H (R308). -/
structure DigHRec where
  src : ARef
  len : BitVec 64
  dst : ARef
  ctx : ARef
  deriving DecidableEq, Repr

/-- Record of DIG.PROV (R308). -/
structure DigProvRec where
  prog : ARef
  weights : ARef
  inputs : ARef
  dst : ARef
  deriving DecidableEq, Repr

/-- Body format W (R307): `reg` is rd of WCREQ and rs1 of WCSET. -/
structure BodyW where
  counter : BitVec 8
  reg : BitVec 5
  n : BitVec 16
  tag : BitVec 32
  deriving DecidableEq, Repr

/-- A link frame as it arrives at a port (R317). `crcOk` is the outcome of the receiver's CRC-32C check over the bytes on the fibre, which also fails after an uncorrectable FEC codeword (R320); `aux` and `tag` are as the type gives them. -/
structure Frame where
  port : Nat
  vc : Nat
  linkSeq : Nat
  ackSeq : Nat
  crcOk : Bool
  dst : Nat
  src : Nat
  dstCtx : Nat
  srcCtx : Nat
  tag : BitVec 32
  offset : Nat
  aux : BitVec 32
  payload : List (BitVec 8)
  deriving DecidableEq, Repr

/-- Contents of a phase frame, a hold message or a rate announcement (R239). -/
structure PhaseInfo where
  period : Nat
  tick : Nat
  rate : Nat
  hold : Nat
  holdStart : Nat
  holdEnd : Nat
  rateNext : Nat
  rateAt : Nat
  masterPrio : Nat
  masterAddr : Nat
  todS : Nat
  todNs : Nat
  deriving DecidableEq, Repr

/-- A PTP data set as an Announce message carries it (R253). -/
structure PtpSet where
  priority1 : Nat
  clockClass : Nat
  accuracy : Nat
  variance : Nat
  priority2 : Nat
  identity : Nat
  deriving DecidableEq, Repr

/-- The PTP messages a grandmaster port can receive (R253). -/
inductive PtpMsg where
  | announce (domain : Nat) (ds : PtpSet)
  | delayReq (domain : Nat) (seq : Nat) (source : Nat)
  | other
  deriving DecidableEq, Repr

/-- What a PCIe link has trained to (R375, HST_LINK); width 0 is a link that is down. -/
structure LinkTrain where
  flit : Bool
  width : Nat
  gen : Nat
  deriving DecidableEq, Repr

/-- The resets of the PCIe function, PERST# among them (R379, R446). -/
inductive FnReset where
  | linkDown | hotReset | flr | perst
  deriving DecidableEq, Repr

/-- The two requesters of BAR0 (R403). -/
inductive Requester where
  | host | sage
  deriving DecidableEq, Repr

/-- A write access of the register bus: 4 or 8 bytes with a bit for each byte that is enabled (R402). -/
inductive BusWrite where
  | word (enables : BitVec 4) (v : BitVec 32)
  | double (enables : BitVec 8) (v : BitVec 64)
  deriving DecidableEq, Repr

/-- Header fields of a command packet that its command still needs (R380). -/
structure CmdHdr where
  irq : Bool
  tag : BitVec 32
  replyAddr : Nat
  deriving DecidableEq, Repr

/-- What a patrol-scrub read of a block finds (R218, R429). -/
inductive ScrubResult where
  | clean
  | corrected (symbols : Nat)
  | uncorrectable
  deriving DecidableEq, Repr

/-- The commands: one constructor per row of the table, in the table's order. -/
inductive Instr where
  -- control and scalar instructions
  | nop (h : Head)
  | endStream (h : Head)
  | stepb (h : Head) (b : BodyB)
  | rcall (h : Head) (rec : SRef) (r : RcallRec)
  | setbase (h : Head) (b : BodyR)
  | setver (h : Head) (b : BodyR)
  | br (h : Head) (b : BodyB)
  | beq (h : Head) (b : BodyB)
  | bne (h : Head) (b : BodyB)
  | bltu (h : Head) (b : BodyB)
  | blt (h : Head) (b : BodyB)
  | sadd (h : Head) (b : BodyR)
  | ssub (h : Head) (b : BodyR)
  | smul (h : Head) (b : BodyR)
  | sand (h : Head) (b : BodyR)
  | sor (h : Head) (b : BodyR)
  | sxor (h : Head) (b : BodyR)
  | sshl (h : Head) (b : BodyR)
  | sshr (h : Head) (b : BodyR)
  | ssra (h : Head) (b : BodyR)
  | sli (h : Head) (b : BodyR)
  | slih (h : Head) (b : BodyR)
  | sld (h : Head) (b : BodyR)
  | sldRegisterWritten (arr slot : Nat)
  | sst (h : Head) (b : BodyR)
  -- products
  | mmf (h : Head) (b : BodyP) (r : ProdRec)
  | mmt (h : Head) (b : BodyP) (r : ProdRec)
  | mmg (h : Head) (b : BodyP) (r : MmgRec)
  | mmgCand (h : Head) (b : BodyP) (r : CandRec)
  | preloadEnd (arr slot : Nat)
  | segmentEnd (arr slot : Nat)
  | totalsFinal (arr slot : Nat)
  | ftqEntry (arr : Nat)
  | gbAddition (arr : Nat)
  | redSum (h : Head) (b : BodyP) (r : RedRec)
  | redMax (h : Head) (b : BodyP) (r : RedRec)
  | redMin (h : Head) (b : BodyP) (r : RedRec)
  | redRetire (arr slot : Nat)
  -- vector engine
  | vadd (h : Head) (b : BodyP) (r : VecRec)
  | vsub (h : Head) (b : BodyP) (r : VecRec)
  | vmul (h : Head) (b : BodyP) (r : VecRec)
  | vfma (h : Head) (b : BodyP) (r : VecRec)
  | vmax (h : Head) (b : BodyP) (r : VecRec)
  | vmin (h : Head) (b : BodyP) (r : VecRec)
  | vabs (h : Head) (b : BodyP) (r : VecRec)
  | vneg (h : Head) (b : BodyP) (r : VecRec)
  | vcvt (h : Head) (b : BodyP) (r : VecRec)
  | vfn (h : Head) (b : BodyP) (r : VecRec)
  | vder (h : Head) (b : BodyP) (r : VecRec)
  | vectorPassStart (arr : Nat)
  | vectorWriteLanded (arr slot : Nat)
  | drain (arr : Nat)
  | queueOverflow (arr : Nat)
  | vtload (h : Head) (half : Bool) (slot : BitVec 4) (image : SRef)
  -- DMA and codec
  | dloadC (h : Head) (rec : SRef) (r : DmaRec)
  | dloadD (h : Head) (rec : SRef) (r : DmaRec)
  | dloadT (h : Head) (rec : SRef) (r : DmaRec)
  | dbuild (h : Head) (rec : SRef) (r : DmaRec)
  | dcopy (h : Head) (rec : SRef) (r : DmaRec)
  | dadd (h : Head) (rec : SRef) (r : DmaRec)
  | dfill (h : Head) (rec : SRef) (r : DmaRec)
  | descriptorFetch (arr : Nat) (stream : Stream)
  | codecTile (arr : Nat)
  | descriptorComplete (arr : Nat)
  -- mask engine
  | mbind (h : Head) (bind : SRef)
  | mdec (h : Head) (wt : BitVec 16) (count : BitVec 9) (table : SRef)
  | pruneG (h : Head) (wt : BitVec 16) (t : BitVec 5)
  | pruneL (h : Head) (wt : BitVec 16) (hmin : BitVec 5) (d : BitVec 32)
  | regrowM (h : Head) (wt : BitVec 16) (rec : SRef) (r : RegrowRec)
  | regrowR (h : Head) (wt : BitVec 16) (seedReg : BitVec 5) (g : BitVec 32)
  | mcommit (h : Head) (wt : BitVec 16) (tag : BitVec 32)
  | mcommitAdopt (h : Head) (wt : BitVec 16) (tag : BitVec 32)
  | maskEngineStart
  | maskOpComplete
  -- update unit
  | unrm (h : Head) (wt : BitVec 16) (rec : SRef) (r : UnrmRec)
  | unrmFin (h : Head)
  | uchk (h : Head)
  | uchkVerdict (arr slot : Nat)
  | uverOpen (h : Head) (wt : BitVec 16) (tag : BitVec 32)
  | upd (h : Head) (wt : BitVec 16) (rec : SRef) (r : UpdRec)
  | updTile (arr : Nat)
  | deferTimeout (arr : Nat)
  | uverClose (h : Head) (wt : BitVec 16)
  | uverCloseRetire (arr slot : Nat)
  -- context store and placement
  | ctxAppend (h : Head) (rec : SRef) (r : CtxRec)
  | ctxAdv (h : Head) (rec : SRef) (r : CtxRec)
  | pstage (h : Head) (rec : SRef) (r : PstageRec)
  | placementTick
  | stagingComplete (window obj : Nat)
  | stageHoldTimeout (arr : Nat) (stream : Stream)
  -- ring, work counters, Dill instructions
  | rsend (h : Head) (rec : SRef) (r : RingRec)
  | rrecv (h : Head) (rec : SRef) (r : RingRec)
  | wcreq (h : Head) (b : BodyW)
  | wcset (h : Head) (b : BodyW)
  | workCounterRequest (counter : Nat)
  | digH (h : Head) (rec : SRef) (r : DigHRec)
  | digProv (h : Head) (rec : SRef) (r : DigProvRec)
  | dillEngineStart
  -- time, steps, hardware
  | periodBoundary
  | phaseHoldLimit
  | moduleStepBoundary
  | selftestComplete (pos : Nat) (passed : Bool)
  | holdoverTimeout
  | masterLostTimeout
  | controllerWindow (watts : Nat) (temps : List Int)
  | junctionOvertemp
  | leakDetected
  | railFault
  | inputOutOfRange
  | bodyWithdrawn
  | powerOn
  | rstNPulse
  | boot (failed : List Nat) (l : LinkTrain)
  | oscStable
  | linkReset (c : FnReset) (l : LinkTrain)
  | secondBoundary
  | ptpMessage (m : PtpMsg)
  | ptpSyncTimer (announce : Bool)
  -- ring frames and link events
  | dataFrame (f : Frame)
  | addingUnitApply (ctx : Nat)
  | armFrame (f : Frame)
  | doneFrame (f : Frame)
  | linkFrame (f : Frame)
  | openFrame (f : Frame)
  | closeFrame (f : Frame)
  | phaseFrame (f : Frame) (i : PhaseInfo)
  | holdOn (f : Frame)
  | holdOff (f : Frame)
  | rateMessage (f : Frame)
  | beaconFrame (f : Frame)
  | beaconHoldExpiry (subject cls : Nat)
  | rebindFrame (f : Frame)
  | trainFrame (port farAddr : Nat) (lanes : BitVec 18)
  | normFrame (f : Frame)
  | creditFrame (f : Frame)
  | frameForward (typ : Nat) (f : Frame)
  | ackTimer (port : Nat)
  | replayTimeout (port : Nat)
  | laneFailure (port lane : Nat) (lockLost : Bool) (corrected uncorrectable : Nat)
  | lightLoss (port : Nat)
  | breakTimeout (port : Nat)
  | ctxTimeout (ctx : Nat)
  | openTimeout (ctx : Nat)
  -- background engines
  | journalBlockCopy (addr : Nat) (step : Nat)
  | refillCopyBlock
  | packageCopyBlock (correctable : Bool)
  | crcScrub
  | rateWindowEnd
  | autoRecovery (steps readyTicks : List Nat) (allSage : Bool)
  | fwActivation
  | fwHealthTimeout
  -- Sage commands
  | sealWrite (slot : Nat) (body : List (BitVec 8)) (sealWord : BitVec 32)
  | identify (c : CmdHdr)
  | openCmd (c : CmdHdr) (hostMax hostMin : BitVec 16) (faultMode : BitVec 8) (takeover : Bool) (owner : BitVec 64)
  | close (c : CmdHdr)
  | loadImage (c : CmdHdr) (addr len : BitVec 64)
  | patch (c : CmdHdr) (region : BitVec 16) (base : BitVec 64)
  | commitImage (c : CmdHdr)
  | unload (c : CmdHdr)
  | start (c : CmdHdr) (t0 : BitVec 64) (s0 : BitVec 48) (jobId : BitVec 32) (members : BitVec 64)
  | hold (c : CmdHdr) (sh : BitVec 48)
  | resume (c : CmdHdr) (mode variant : BitVec 8) (step : BitVec 48) (tr : BitVec 64)
  | stop (c : CmdHdr)
  | snapshot (c : CmdHdr) (region : BitVec 16)
  | restore (c : CmdHdr) (region : BitVec 16)
  | joinRing (c : CmdHdr) (addr : BitVec 16) (xn yn : BitVec 8)
  | pair (c : CmdHdr) (twin : BitVec 16)
  | leaveRing (c : CmdHdr)
  | fwLoad (c : CmdHdr) (addr len : BitVec 64)
  | fwActivate (c : CmdHdr) (commitSvn : Bool) (step : BitVec 48)
  | attest (c : CmdHdr) (nonce : BitVec 256)
  | eventQueue (c : CmdHdr) (addr : BitVec 64) (entries : BitVec 32)
  | faultClear (c : CmdHdr) (clearCounters clearBeacons : Bool)
  -- BAR4 and registers
  | bar4Access (write poisoned : Bool) (offset : Nat) (data : List (BitVec 8))
  | registerWrite (q : Requester) (offset : Nat) (w : BusWrite)
  | slLowRead (q : Requester) (offset : Nat)
  | glbStrobe (v : BitVec 32)
  | strobeCommit (group blk : Nat)
  | idleOnlyCommit (group blk : Nat)
  | fltEqTail (v : BitVec 32)
  | thySnapCtrl (v : BitVec 32)
  | thyTodCtrl (q : Requester) (compl : Bool) (v : BitVec 32)
  | thyPrio (q : Requester) (compl : Bool) (v : BitVec 32)
  | thyRateCap (q : Requester) (compl : Bool) (v : BitVec 32)
  | tirCopyCtrl (q : Requester) (compl : Bool) (v : BitVec 32)
  | rngBayCtrl (q : Requester) (compl : Bool) (v : BitVec 32)
  | mirFence (q : Requester) (compl : Bool) (v : BitVec 32)
  | detCtrl (q : Requester) (compl : Bool) (v : BitVec 32)
  | glbCrcCtrl (q : Requester) (compl : Bool) (v : BitVec 32)
  | glbCfgCrcRef (q : Requester) (compl : Bool) (v : BitVec 32)
  | secRevoke (q : Requester) (compl : Bool) (v : BitVec 32)
  | secPolicy (q : Requester) (compl : Bool) (v : BitVec 32)
  | secReset (q : Requester) (compl : Bool) (v : BitVec 32)
  | calSave (q : Requester) (compl : Bool) (v : BitVec 32)
  | pwrLimit (q : Requester) (compl : Bool) (v : BitVec 32)
  -- later rows of the table
  | passReadEnd (arr : Nat)
  | vtloadRetire (arr slot : Nat)
  | unrmRetire (arr slot : Nat)
  | ctxAppendRetire (arr slot : Nat)
  | digestWritten (engine : Nat)
  | holdMessage (f : Frame) (i : PhaseInfo)
  | portTrainTimeout (port : Nat)
  | patrolScrub (block : Nat) (r : ScrubResult)
  deriving DecidableEq, Repr

end Sys2Proof
end

