-- ==== Sys2Proof/Decode.lean ====
section
/-! DEFINITION. Decoding of table words: spec/opcode_table.json gives no row of this block any bits. -/

namespace Sys2Proof

/-- The command a word spells by the table's bits: the table gives no row bits, so none. -/
def decodeTableWord (_nbits _w : Nat) : Option Instr := none

end Sys2Proof
end

