-- ==== Sys2Proof/Machine/Digest.lean ====
section
/-! DEFINITION. CRC-32C (R380), SHA-256 (R308, R373), the RSA-3072 check of R453 and the ECDSA signature of R463. -/

namespace Sys2Proof.Machine

/-- A value as `n` little-endian bytes (R8). -/
def leBytes (n v : Nat) : List Byte := (List.range n).map (fun i => BitVec.ofNat 8 (v / 2 ^ (8 * i)))

/-- The little-endian number of a byte list (R8). -/
def leNat (bs : List Byte) : Nat := bs.foldr (fun b a => b.toNat + 256 * a) 0

/-- The big-endian number of a byte list. -/
def beNat (bs : List Byte) : Nat := bs.foldl (fun a b => 256 * a + b.toNat) 0

/-- A value as `n` big-endian bytes. -/
def beBytes (n v : Nat) : List Byte := (leBytes n v).reverse

/-! ### CRC-32C (R380) -/

/-- One bit step of the reflected Castagnoli polynomial. -/
def crcBit (c : W32) : W32 := if c &&& 1#32 == 1#32 then (c >>> 1) ^^^ 0x82F63B78#32 else c >>> 1

/-- One byte enters the CRC. -/
def crcByte (c : W32) (b : Byte) : W32 :=
  crcBit (crcBit (crcBit (crcBit (crcBit (crcBit (crcBit (crcBit (c ^^^ b.zeroExtend 32))))))))

/-- CRC-32C with initial value and final XOR of all ones (R380). -/
def crc32c (bs : List Byte) : W32 := (bs.foldl crcByte 0xFFFFFFFF#32) ^^^ 0xFFFFFFFF#32

/-! ### SHA-256 (FIPS 180-4, named by R308 and R373) -/

/-- Round constants of FIPS 180-4. -/
def shaK : List W32 :=
  [0x428A2F98#32, 0x71374491#32, 0xB5C0FBCF#32, 0xE9B5DBA5#32, 0x3956C25B#32, 0x59F111F1#32, 0x923F82A4#32, 0xAB1C5ED5#32] ++
  [0xD807AA98#32, 0x12835B01#32, 0x243185BE#32, 0x550C7DC3#32, 0x72BE5D74#32, 0x80DEB1FE#32, 0x9BDC06A7#32, 0xC19BF174#32] ++
  [0xE49B69C1#32, 0xEFBE4786#32, 0x0FC19DC6#32, 0x240CA1CC#32, 0x2DE92C6F#32, 0x4A7484AA#32, 0x5CB0A9DC#32, 0x76F988DA#32] ++
  [0x983E5152#32, 0xA831C66D#32, 0xB00327C8#32, 0xBF597FC7#32, 0xC6E00BF3#32, 0xD5A79147#32, 0x06CA6351#32, 0x14292967#32] ++
  [0x27B70A85#32, 0x2E1B2138#32, 0x4D2C6DFC#32, 0x53380D13#32, 0x650A7354#32, 0x766A0ABB#32, 0x81C2C92E#32, 0x92722C85#32] ++
  [0xA2BFE8A1#32, 0xA81A664B#32, 0xC24B8B70#32, 0xC76C51A3#32, 0xD192E819#32, 0xD6990624#32, 0xF40E3585#32, 0x106AA070#32] ++
  [0x19A4C116#32, 0x1E376C08#32, 0x2748774C#32, 0x34B0BCB5#32, 0x391C0CB3#32, 0x4ED8AA4A#32, 0x5B9CCA4F#32, 0x682E6FF3#32] ++
  [0x748F82EE#32, 0x78A5636F#32, 0x84C87814#32, 0x8CC70208#32, 0x90BEFFFA#32, 0xA4506CEB#32, 0xBEF9A3F7#32, 0xC67178F2#32]

/-- Initial hash value of FIPS 180-4. -/
def shaInit : List W32 := [0x6A09E667#32, 0xBB67AE85#32, 0x3C6EF372#32, 0xA54FF53A#32, 0x510E527F#32, 0x9B05688C#32, 0x1F83D9AB#32, 0x5BE0CD19#32]

/-- The next schedule word from the last sixteen, newest first. -/
def shaExtend (w : List W32) : W32 :=
  let s1 := fun x : W32 => x.rotateRight 17 ^^^ x.rotateRight 19 ^^^ (x >>> 10)
  let s0 := fun x : W32 => x.rotateRight 7 ^^^ x.rotateRight 18 ^^^ (x >>> 3)
  s1 (w.getD 1 0) + w.getD 6 0 + s0 (w.getD 14 0) + w.getD 15 0

/-- `n` more schedule words in front of `w` (newest first). -/
def shaSchedule : Nat → List W32 → List W32
  | 0, w => w
  | n + 1, w => shaSchedule n (shaExtend w :: w)

/-- Working variables a to h of the compression function. -/
structure ShaVars where
  a : W32
  b : W32
  c : W32
  d : W32
  e : W32
  f : W32
  g : W32
  h : W32
  deriving DecidableEq, Repr

/-- One compression round with constant plus schedule word `kw`. -/
def shaRound (v : ShaVars) (kw : W32) : ShaVars :=
  let t1 := v.h + (v.e.rotateRight 6 ^^^ v.e.rotateRight 11 ^^^ v.e.rotateRight 25)
    + ((v.e &&& v.f) ^^^ (~~~v.e &&& v.g)) + kw
  let t2 := (v.a.rotateRight 2 ^^^ v.a.rotateRight 13 ^^^ v.a.rotateRight 22)
    + ((v.a &&& v.b) ^^^ (v.a &&& v.c) ^^^ (v.b &&& v.c))
  ⟨t1 + t2, v.a, v.b, v.c, v.d + t1, v.e, v.f, v.g⟩

/-- One 64-byte block enters the hash state of eight words. -/
def shaBlock (h : List W32) (blk : List Byte) : List W32 :=
  let w0 := (List.range 16).map (fun i => BitVec.ofNat 32 (beNat ((blk.drop (4 * i)).take 4)))
  let w := (shaSchedule 48 w0.reverse).reverse
  let v := (List.zipWith (· + ·) shaK w).foldl shaRound
    ⟨h.getD 0 0, h.getD 1 0, h.getD 2 0, h.getD 3 0, h.getD 4 0, h.getD 5 0, h.getD 6 0, h.getD 7 0⟩
  List.zipWith (· + ·) h [v.a, v.b, v.c, v.d, v.e, v.f, v.g, v.h]

/-- `n` whole blocks of `bs` enter the state. -/
def shaBlocks : Nat → List W32 → List Byte → List W32
  | 0, h, _ => h
  | n + 1, h, bs => shaBlocks n (shaBlock h (bs.take 64)) (bs.drop 64)

/-- The padding of a message of `total` bytes, `tail` of them not yet hashed. -/
def shaPad (total : Nat) : List Byte :=
  let z := (55 + 64 - total % 64) % 64
  0x80#8 :: List.replicate z 0#8 ++ beBytes 8 (8 * total)

/-- Finishes a hash whose state `h` holds `done` bytes, with the last bytes `bs` (R308). -/
def shaFinish (h : List W32) (done : Nat) (bs : List Byte) : List Byte :=
  let msg := bs ++ shaPad (done + bs.length)
  (shaBlocks (msg.length / 64) h msg).flatMap (fun w => beBytes 4 w.toNat)

/-- SHA-256 of a byte list. -/
def sha256 (bs : List Byte) : List Byte := shaFinish shaInit 0 bs

/-- HMAC-SHA-256 (RFC 2104), used by RFC 5869 and RFC 6979. -/
def hmac (key msg : List Byte) : List Byte :=
  let k := (if key.length > 64 then sha256 key else key)
  let k := k ++ List.replicate (64 - k.length) 0#8
  sha256 (k.map (· ^^^ 0x5C#8) ++ sha256 (k.map (· ^^^ 0x36#8) ++ msg))

/-- HKDF-SHA-256 (RFC 5869) of one 32-byte output block, with the salt that RFC 5869 takes where none is given, 32 zero bytes (R463). -/
def hkdf32 (ikm info : List Byte) : List Byte := hmac (hmac (List.replicate 32 0#8) ikm) (info ++ [1#8])

/-! ### RSA-3072 PKCS #1 v1.5 (R453) -/

/-- b^e mod n, one exponent bit per step. -/
def powModFrom (n : Nat) : Nat → Nat → Nat → Nat → Nat
  | 0, _, _, acc => acc
  | k + 1, b, e, acc =>
    powModFrom n k (b * b % n) (e / 2) (if e % 2 == 1 then acc * b % n else acc)

/-- b^e mod n for an exponent of at most `k` bits. -/
def powMod (k b e n : Nat) : Nat := powModFrom n k (b % n) e (1 % n)

/-- The DigestInfo prefix of SHA-256 in PKCS #1 v1.5. -/
def digestInfo : List Byte :=
  [0x30, 0x31, 0x30, 0x0D, 0x06, 0x09, 0x60, 0x86, 0x48, 0x01] ++
  [0x65, 0x03, 0x04, 0x02, 0x01, 0x05, 0x00, 0x04, 0x20]

/-- The encoded message of 384 bytes for a digest. -/
def pkcs1 (digest : List Byte) : List Byte :=
  [0x00#8, 0x01#8] ++ List.replicate 330 0xFF#8 ++ [0x00#8] ++ digestInfo ++ digest

/-- Whether the 776-byte block `blk` verifies over `body` (R453). -/
def rsaVerify (body blk : List Byte) : Bool :=
  let n := beNat (blk.take 384)
  let e := beNat ((blk.drop 384).take 4)
  let z := (blk.drop 388).take 4
  let s := beNat ((blk.drop 392).take 384)
  blk.length == 776 && e == 65537 && z.all (· == 0#8) && n != 0 && decide (s < n) &&
    powMod 17 s 65537 n == beNat (pkcs1 (sha256 body))

/-- The key hash of a signature block: SHA-256 of its bytes 0 to 387 (R454). -/
def keyHash (blk : List Byte) : Nat := beNat (sha256 (blk.take 388))

/-! ### ECDSA on P-256 with RFC 6979 nonces (R463, R464) -/

/-- Field prime of P-256. -/
def p256P : Nat := 0xFFFFFFFF00000001000000000000000000000000FFFFFFFFFFFFFFFFFFFFFFFF

/-- Group order of P-256. -/
def p256N : Nat := 0xFFFFFFFF00000000FFFFFFFFFFFFFFFFBCE6FAADA7179E84F3B9CAC2FC632551

/-- Base point of P-256. -/
def p256G : Option (Nat × Nat) :=
  some (0x6B17D1F2E12C4247F8BCE6E563A440F277037D812DEB33A0F4A13945D898C296,
    0x4FE342E2FE1A7F9B8EE7EB4A7C0F9E162BCE33576B315ECECBB6406837BF51F5)

/-- Modular inverse by Fermat, for a prime modulus of at most 256 bits. -/
def invMod (a n : Nat) : Nat := powMod 256 a (n - 2) n

/-- Sum of two points of P-256; `none` is the point at infinity. -/
def ecAdd : Option (Nat × Nat) → Option (Nat × Nat) → Option (Nat × Nat)
  | none, q => q
  | p, none => p
  | some (x1, y1), some (x2, y2) =>
    let p := p256P
    if x1 == x2 && (y1 + y2) % p == 0 then none
    else
      let l := if x1 == x2
        then (3 * x1 * x1 + (p - 3)) * invMod (2 * y1) p % p
        else (y2 + p - y1) * invMod (x2 + p - x1) p % p
      let x3 := (l * l + 2 * p - x1 - x2) % p
      some (x3, (l * (x1 + p - x3) + p - y1) % p)

/-- k · q over `n` scalar bits. -/
def ecMulFrom : Nat → Nat → Option (Nat × Nat) → Option (Nat × Nat) → Option (Nat × Nat)
  | 0, _, _, acc => acc
  | n + 1, k, q, acc => ecMulFrom n (k / 2) (ecAdd q q) (if k % 2 == 1 then ecAdd acc q else acc)

/-- RFC 6979 candidates: the first K in range, within `n` tries. -/
def rfc6979Try : Nat → List Byte → List Byte → Nat
  | 0, _, _ => 0
  | n + 1, k, v =>
    let v := hmac k v
    let t := beNat v
    if 0 < t && t < p256N then t
    else
      let k := hmac k (v ++ [0#8])
      rfc6979Try n k (hmac k v)

/-- The deterministic nonce of RFC 6979 for private scalar `d` and hash `h`. -/
def rfc6979 (d : Nat) (h : List Byte) : Nat :=
  let x := beBytes 32 d ++ beBytes 32 (beNat h % p256N)
  let v := List.replicate 32 0x01#8
  let k := hmac (List.replicate 32 0#8) (v ++ [0#8] ++ x)
  let v := hmac k v
  let k := hmac k (v ++ [1#8] ++ x)
  rfc6979Try 16 k (hmac k v)

/-- ECDSA signature r ‖ s of a 32-byte hash, 64 bytes (R464). -/
def ecdsaSign (d : Nat) (h : List Byte) : List Byte :=
  let k := rfc6979 d h
  let r := match ecMulFrom 256 k p256G none with
    | some (x, _) => x % p256N
    | none => 0
  let s := invMod k p256N * (beNat h + r * d) % p256N
  beBytes 32 r ++ beBytes 32 s

end Sys2Proof.Machine
end

