-- ==== Sys2Proof/Config.lean ====
section
/-! DEFINITION. What the spec leaves open (free values, no body, log 1) and the part numbers of one module (log 3). -/

namespace Sys2Proof

/-- The two grades of R3. -/
inductive Grade where
  | a | b
  deriving DecidableEq, Repr

/-- The two steppings of R5. -/
inductive Stepping where
  | a1 | b0
  deriving DecidableEq, Repr

/-- Active array count of a grade (R3). -/
def Grade.arrays : Grade → Nat
  | .a => 64
  | .b => 56

/-- Far-tier slots in use, C of R215. -/
def Grade.farSlots : Grade → Nat
  | .a => 48
  | .b => 36

/-- Far-tier bytes (R206: 1,536 GiB or 1,152 GiB). -/
def Grade.farBytes : Grade → Nat
  | .a => 1536 * 2 ^ 30
  | .b => 1152 * 2 ^ 30

/-- Maximum module power in watts (R3). -/
def Grade.maxWatts : Grade → Nat
  | .a => 2000
  | .b => 1750

/-- Byte whose value the spec leaves undefined (R64, R136, R321, R340, R428); the counter in State makes each use fresh. -/
opaque Config.freeByte : Nat → BitVec 8

/-- A 32-bit value the spec leaves undefined or does not state. -/
opaque Config.freeWord : Nat → BitVec 32

/-- The identity scalar of R463 where the 32 derived bytes are no private key of P-256: the spec states none (log 3). -/
opaque Config.identityScalar : Nat → Nat

/-- Bytes of every readable OTP word in ascending OTP address, then of the effective calibration table (R464): no rule gives the OTP's layout, so they are a free function of the facts both hold. -/
opaque Config.otpImage : List Nat → List (BitVec 8)

/-- The device secret of R463, a value no party can read. -/
opaque Config.deviceSecret : Nat

end Sys2Proof
end

