-- ==== Sys2Proof/Machine/Factory.lean ====
section
/-! DEFINITION. The factory tables of the module: latencies of each stepping and depths (R365, R366). -/

namespace Sys2Proof.Machine

/-- The factory latency table of the A1 stepping (R365). -/
def factoryA1 : List (Nat × Nat) :=
  [(0x01, 24), (0x02, 56), (0x03, 8), (0x04, 12), (0x05, 32), (0x06, 40), (0x07, 96), (0x08, 16),
   (0x10, 12), (0x11, 8), (0x12, 6), (0x13, 24)] ++
  [(0x18, 48), (0x19, 64), (0x1A, 48), (0x1B, 56), (0x1C, 80), (0x20, 48), (0x21, 10), (0x22, 16), (0x23, 8),
   (0x24, 40), (0x25, 8), (0x28, 48), (0x29, 40)] ++
  [(0x30, 1), (0x31, 8), (0x32, 6), (0x33, 4), (0x34, 24), (0x35, 32), (0x36, 8), (0x37, 16), (0x38, 24), (0x39, 28)]

/-- The factory latency table of the B0 stepping (R365). -/
def factoryB0 : List (Nat × Nat) :=
  [(0x01, 20), (0x02, 44), (0x03, 8), (0x04, 10), (0x05, 32), (0x06, 36), (0x07, 64), (0x08, 12),
   (0x10, 10), (0x11, 6), (0x12, 4), (0x13, 20)] ++
  [(0x18, 40), (0x19, 48), (0x1A, 40), (0x1B, 44), (0x1C, 64), (0x20, 40), (0x21, 8), (0x22, 12), (0x23, 8),
   (0x24, 32), (0x25, 8), (0x28, 40), (0x29, 36)] ++
  [(0x30, 1), (0x31, 6), (0x32, 5), (0x33, 3), (0x34, 20), (0x35, 28), (0x36, 8), (0x37, 12), (0x38, 20), (0x39, 24)]

/-- The factory table of a stepping. -/
def factoryTable : Stepping → List (Nat × Nat)
  | .a1 => factoryA1
  | .b0 => factoryB0

/-- The depth table (R366). -/
def depthTable : List (Nat × Nat) :=
  [(0x100, 8), (0x101, 32), (0x102, 64), (0x103, 16), (0x104, 64), (0x105, 64), (0x106, 16), (0x107, 1024),
   (0x108, 256), (0x109, 8192), (0x10A, 64), (0x10B, 8192), (0x10C, 16), (0x10D, 512), (0x10E, 64)]

end Sys2Proof.Machine
end

