-- ==== Sys2Proof/Machine/Float.lean ====
section
/-! DEFINITION. The eleven number formats: bit layouts, exact products and sums, rounding, conversion, stochastic rounding, MX blocks and DW32 totals (R19 to R40, R99, R101, R107). -/

namespace Sys2Proof.Machine

/-- The formats of R19, in code order. -/
inductive Fmt where
  | fp32 | fp16 | bf16 | e4m3 | e5m2 | mxfp8 | e3m2 | e2m3 | e2m1 | int8 | dw32
  deriving DecidableEq, Repr

/-- The format a 5-bit code names; codes 11 to 31 are reserved (R19, R20). -/
def Fmt.ofCode : Nat → Option Fmt
  | 0 => some .fp32 | 1 => some .fp16 | 2 => some .bf16 | 3 => some .e4m3
  | 4 => some .e5m2 | 5 => some .mxfp8 | 6 => some .e3m2 | 7 => some .e2m3
  | 8 => some .e2m1 | 9 => some .int8 | 10 => some .dw32 | _ => none

/-- The code of a format (R19). -/
def Fmt.code : Fmt → Nat
  | .fp32 => 0 | .fp16 => 1 | .bf16 => 2 | .e4m3 => 3 | .e5m2 => 4 | .mxfp8 => 5
  | .e3m2 => 6 | .e2m3 => 7 | .e2m1 => 8 | .int8 => 9 | .dw32 => 10

/-- Element width in bits (R19). -/
def Fmt.bits : Fmt → Nat
  | .fp32 => 32 | .fp16 | .bf16 => 16 | .e3m2 | .e2m3 => 6 | .e2m1 => 4 | .dw32 => 64
  | .e4m3 | .e5m2 | .mxfp8 | .int8 => 8

/-- Block-scaled formats (R19). -/
def Fmt.mx : Fmt → Bool
  | .mxfp8 | .e3m2 | .e2m3 | .e2m1 => true
  | _ => false

/-- A value as R21 and R22 read an encoding: exact, with the sign of zero kept. `fin n m e` is (−1)^n · m · 2^e. -/
inductive FVal where
  | nan
  | inf (neg : Bool)
  | fin (neg : Bool) (m : Nat) (e : Int)
  deriving DecidableEq, Repr

namespace FVal

/-- +0. -/
def zero : FVal := .fin false 0 0

/-- Exact integer value. -/
def ofInt (i : Int) : FVal := .fin (i < 0) i.natAbs 0

/-- The value with its sign bit flipped; a NaN stays a NaN. -/
def negate : FVal → FVal
  | .nan => .nan
  | .inf n => .inf (!n)
  | .fin n m e => .fin (!n) m e

/-- Magnitude. -/
def abs : FVal → FVal
  | .nan => .nan
  | .inf _ => .inf false
  | .fin _ m e => .fin false m e

/-- Whether the value is zero of either sign. -/
def isZero : FVal → Bool
  | .fin _ m _ => m == 0
  | _ => false

/-- Whether the value is finite. -/
def isFinite : FVal → Bool
  | .fin .. => true
  | _ => false

/-- Sign bit; a NaN has sign 0 (R22). -/
def neg : FVal → Bool
  | .nan => false
  | .inf n => n
  | .fin n _ _ => n

/-- Exact product; non-finite operands under R36. -/
def mul : FVal → FVal → FVal
  | .nan, _ => .nan
  | _, .nan => .nan
  | .inf a, .inf b => .inf (a != b)
  | .inf a, .fin b m _ => if m == 0 then .nan else .inf (a != b)
  | .fin b m _, .inf a => if m == 0 then .nan else .inf (a != b)
  | .fin a m e, .fin b n f => .fin (a != b) (m * n) (e + f)

/-- m · 2^(e − q) as a natural number, for q ≤ e. -/
def align (m : Nat) (e q : Int) : Nat := m * 2 ^ (e - q).toNat

/-- Signed magnitude as an integer. -/
def signed (neg : Bool) (m : Nat) : Int := if neg then -(m : Int) else (m : Int)

/-- Exact sum; opposite infinities give NaN (R36), zero signs follow round-to-nearest (R23). -/
def add : FVal → FVal → FVal
  | .nan, _ => .nan
  | _, .nan => .nan
  | .inf a, .inf b => if a == b then .inf a else .nan
  | .inf a, .fin .. => .inf a
  | .fin .., .inf b => .inf b
  | .fin a m e, .fin b n f =>
    let q := min e f
    let s := signed a (align m e q) + signed b (align n f q)
    if s == 0 then .fin (if m == 0 && n == 0 then a && b else false) 0 q
    else .fin (s < 0) s.natAbs q

/-- Exact difference. -/
def sub (a b : FVal) : FVal := add a (negate b)

/-- −1, 0 or 1 as the finite or infinite `a` compares with `b`; `none` when either is a NaN. Zeros compare equal. -/
def cmp (a b : FVal) : Option Int :=
  match a, b with
  | .nan, _ => none
  | _, .nan => none
  | .inf x, .inf y => some (if x == y then 0 else if x then -1 else 1)
  | .inf x, .fin .. => some (if x then -1 else 1)
  | .fin .., .inf y => some (if y then 1 else -1)
  | .fin x m e, .fin y n f =>
    let q := min e f
    let d := signed x (align m e q) - signed y (align n f q)
    some (if d < 0 then -1 else if d == 0 then 0 else 1)

/-- a < b; false when either is a NaN. -/
def lt (a b : FVal) : Bool := cmp a b == some (-1)

/-- a ≤ b; false when either is a NaN. -/
def le (a b : FVal) : Bool := cmp a b == some (-1) || cmp a b == some 0

/-- Floor of a finite value as an integer; 0 for a non-finite one. -/
def floor : FVal → Int
  | .fin n m e =>
    if 0 ≤ e then signed n (m * 2 ^ e.toNat)
    else signed n m / (2 ^ (-e).toNat : Nat)
  | _ => 0

end FVal

/-- Layout of a floating-point element format (R21): exponent and fraction widths, bias, whether the top exponent encodes infinities and NaNs, and the largest finite significand. -/
structure Layout where
  ebits : Nat
  fbits : Nat
  bias : Int
  ieee : Bool
  maxM : Nat
  maxQ : Int
  deriving DecidableEq, Repr

/-- The layouts of R21; INT8 and DW32 have none. -/
def Fmt.layout : Fmt → Layout
  | .fp16 => ⟨5, 10, 15, true, 2 ^ 11 - 1, 5⟩
  | .bf16 => ⟨8, 7, 127, true, 2 ^ 8 - 1, 120⟩
  | .e4m3 | .mxfp8 => ⟨4, 3, 7, false, 14, 5⟩
  | .e5m2 => ⟨5, 2, 15, true, 7, 13⟩
  | .e3m2 => ⟨3, 2, 3, false, 7, 2⟩
  | .e2m3 => ⟨2, 3, 1, false, 15, -1⟩
  | .e2m1 => ⟨2, 1, 1, false, 3, 1⟩
  | .fp32 | .int8 | .dw32 => ⟨8, 23, 127, true, 2 ^ 24 - 1, 104⟩

/-- Exponent of one unit in the last place of a subnormal value. -/
def Layout.minQ (l : Layout) : Int := 1 - l.bias - l.fbits

/-- Decodes the encoding `w` of one element (R21, R22, R27). An FP32 word stands for DW32's hi. -/
def Fmt.decode (f : Fmt) (w : Nat) : FVal :=
  match f with
  | .int8 => FVal.ofInt (if w % 256 < 128 then (w % 256 : Nat) else (w % 256 : Nat) - 256)
  | _ =>
    let l := f.layout
    let frac := w % 2 ^ l.fbits
    let ex := w / 2 ^ l.fbits % 2 ^ l.ebits
    let s := w / 2 ^ (l.fbits + l.ebits) % 2 == 1
    let top := 2 ^ l.ebits - 1
    if l.ieee && ex == top then (if frac == 0 then .inf s else .nan)
    else if (f == .e4m3 || f == .mxfp8) && ex == top && frac == 7 then .nan
    else if ex == 0 then .fin s frac l.minQ
    else .fin s (2 ^ l.fbits + frac) ((ex : Int) - l.bias - l.fbits)

/-- The canonical NaN a unit writes (R22). MX element formats mark a NaN block by its scale. -/
def Fmt.canonicalNaN : Fmt → Nat
  | .fp16 => 0x7E00 | .bf16 => 0x7FC0 | .e4m3 | .mxfp8 => 0x7F | .e5m2 => 0x7E
  | .fp32 | .dw32 => 0x7FC00000
  | .e3m2 | .e2m3 | .e2m1 | .int8 => 0

/-- Encodes a value that the layout can represent exactly: significand `m` at exponent `q`. -/
def Layout.encodeFin (l : Layout) (s : Bool) (m : Nat) (q : Int) : Nat :=
  let (m, q) := if m == 2 ^ (l.fbits + 1) then (2 ^ l.fbits, q + 1) else (m, q)
  let sg := if s then 2 ^ (l.fbits + l.ebits) else 0
  if m < 2 ^ l.fbits then sg + m
  else sg + (q + l.fbits + l.bias).toNat * 2 ^ l.fbits + (m - 2 ^ l.fbits)

/-- How a conversion rounds: R32, or R38 with its random word. -/
inductive Rounding where
  | rne
  | stochastic (r : Nat)
  deriving DecidableEq, Repr

/-- Bits of m; 0 for 0. -/
def bitLength (m : Nat) : Nat := if m == 0 then 0 else Nat.log2 m + 1

/-- The significand and exponent of m · 2^e rounded to the layout's precision, before saturation (R32, R38). -/
def Layout.roundMag (l : Layout) (rd : Rounding) (m : Nat) (e : Int) : Nat × Int :=
  let q := max (e + bitLength m - 1 - l.fbits) l.minQ
  if q ≤ e then (FVal.align m e q, q)
  else
    let sh := (q - e).toNat
    let t := m / 2 ^ sh
    let rem := m % 2 ^ sh
    match rd with
    | .rne =>
      let half := 2 ^ (sh - 1)
      if rem > half || (rem == half && t % 2 == 1) then (t + 1, q) else (t, q)
    | .stochastic r =>
      let d := if sh ≤ 32 then rem * 2 ^ (32 - sh) else rem / 2 ^ (sh - 32)
      if d + r ≥ 2 ^ 32 then (t + 1, q) else (t, q)

/-- Whether m · 2^q exceeds the layout's largest finite value. -/
def Layout.tooBig (l : Layout) (m : Nat) (q : Int) : Bool :=
  let z := min q l.maxQ
  FVal.align m q z > FVal.align l.maxM l.maxQ z

/-- Encoding of the infinity of sign `s`. -/
def Layout.infinity (l : Layout) (s : Bool) : Nat :=
  (if s then 2 ^ (l.fbits + l.ebits) else 0) + (2 ^ l.ebits - 1) * 2 ^ l.fbits

/-- Converts an exact value to an element of a non-MX format, or of an MX element format after scaling; the flag says that the conversion saturated (R32 to R35). -/
def Fmt.encode (f : Fmt) (rd : Rounding) (x : FVal) : Nat × Bool :=
  match f with
  | .int8 =>
    match x with
    | .nan => (0, true)
    | .inf s => (if s then 128 else 127, true)
    | .fin s m e =>
      let r := if 0 ≤ e then m * 2 ^ e.toNat
        else
          let sh := (-e).toNat
          let t := m / 2 ^ sh
          let rem := m % 2 ^ sh
          let half := 2 ^ (sh - 1)
          if rem > half || (rem == half && t % 2 == 1) then t + 1 else t
      if s then (if r > 128 then (128, true) else ((256 - r) % 256, false))
      else (if r > 127 then (127, true) else (r, false))
  | _ =>
    let l := f.layout
    match x with
    | .nan => (f.canonicalNaN, false)
    | .inf s => if l.ieee then (l.infinity s, false) else (f.canonicalNaN, false)
    | .fin s m e =>
      if m == 0 then (l.encodeFin s 0 l.minQ, false)
      else
        let (t, q) := l.roundMag rd m e
        if l.tooBig t q then (l.encodeFin s l.maxM l.maxQ, true) else (l.encodeFin s t q, false)

/-- FP32 word of a value rounded to nearest, ties to even, with saturation (R32, R33, R101, R166). -/
def rne32 (x : FVal) : W32 × Bool :=
  let (w, s) := Fmt.fp32.encode .rne x
  (BitVec.ofNat 32 w, s)

/-- Value of an FP32 word. -/
def val32 (w : W32) : FVal := Fmt.fp32.decode w.toNat

/-- FP32 sum with one rounding. -/
def f32add (a b : W32) : W32 × Bool := rne32 ((val32 a).add (val32 b))

/-- FP32 difference with one rounding. -/
def f32sub (a b : W32) : W32 × Bool := rne32 ((val32 a).sub (val32 b))

/-- FP32 product with one rounding. -/
def f32mul (a b : W32) : W32 × Bool := rne32 ((val32 a).mul (val32 b))

/-- FP32 fused multiply-add, one rounding (R167). -/
def f32fma (a b c : W32) : W32 × Bool := rne32 (((val32 a).mul (val32 b)).add (val32 c))

/-- FP32 quotient, correctly rounded: the quotient to 64 further bits with a sticky bit below them. -/
def f32div (a b : W32) : W32 × Bool :=
  match val32 a, val32 b with
  | .nan, _ => rne32 .nan
  | _, .nan => rne32 .nan
  | .inf _, .inf _ => rne32 .nan
  | .inf x, .fin y _ _ => rne32 (.inf (x != y))
  | .fin x _ _, .inf y => rne32 (.fin (x != y) 0 0)
  | .fin x m e, .fin y n f =>
    if n == 0 then (if m == 0 then rne32 .nan else rne32 (.inf (x != y)))
    else
      let k := 64 + bitLength n
      let q := m * 2 ^ k / n
      let st := if m * 2 ^ k % n == 0 then 0 else 1
      rne32 (.fin (x != y) (2 * q + st) (e - f - k - 1))

/-- Integer square root, one result bit per step from bit `i` down. -/
def isqrtFrom (n : Nat) : Nat → Nat → Nat
  | 0, r => r
  | i + 1, r =>
    let t := r + 2 ^ i
    isqrtFrom n i (if t * t ≤ n then t else r)

/-- Integer square root of a natural number. -/
def isqrt (n : Nat) : Nat := isqrtFrom n (bitLength n / 2 + 1) 0

/-- FP32 square root, correctly rounded; a negative value gives NaN and a zero keeps its sign. -/
def f32sqrt (a : W32) : W32 × Bool :=
  match val32 a with
  | .nan => rne32 .nan
  | .inf s => if s then rne32 .nan else rne32 (.inf false)
  | .fin s m e =>
    if m == 0 then rne32 (.fin s 0 0)
    else if s then rne32 .nan
    else
      let (m, e) := if e % 2 == 0 then (m, e) else (2 * m, e - 1)
      let n := m * 2 ^ 128
      let r := isqrt n
      let st := if r * r == n then 0 else 1
      rne32 (.fin false (2 * r + st) (e / 2 - 65))

/-- FP32 word of a natural number (R126, R197). -/
def f32ofNat (n : Nat) : W32 := (rne32 (.fin false n 0)).1

/-- 1.0 in FP32. -/
def f32one : W32 := 0x3F800000#32

/-- −x in FP32; a NaN becomes the canonical NaN (R22). -/
def f32neg (a : W32) : W32 := (rne32 (val32 a).negate).1

/-! ### Philox4x32-10 (R39) -/

/-- One Philox round on (c0, c1, c2, c3) with key (k0, k1). -/
def philoxRound (k0 k1 : Nat) (c : Nat × Nat × Nat × Nat) : Nat × Nat × Nat × Nat :=
  let p0 := 0xD2511F53 * c.1
  let p1 := 0xCD9E8D57 * c.2.2.1
  (((p1 / 2 ^ 32) ^^^ c.2.1) ^^^ k0, p1 % 2 ^ 32, ((p0 / 2 ^ 32) ^^^ c.2.2.2) ^^^ k1, p0 % 2 ^ 32)

/-- `n` rounds, the key raised by its increments between them. -/
def philoxRounds : Nat → Nat → Nat → Nat × Nat × Nat × Nat → Nat × Nat × Nat × Nat
  | 0, _, _, c => c
  | n + 1, k0, k1, c =>
    philoxRounds n ((k0 + 0x9E3779B9) % 2 ^ 32) ((k1 + 0xBB67AE85) % 2 ^ 32) (philoxRound k0 k1 c)

/-- The random word r of R39. -/
def philoxWord (seed tag step index : Nat) : Nat :=
  (philoxRounds 10 (seed % 2 ^ 32) (seed / 2 ^ 32 % 2 ^ 32)
    (index % 2 ^ 32, tag % 2 ^ 16 * 2 ^ 16 + index / 2 ^ 32 % 2 ^ 16,
      step % 2 ^ 32, step / 2 ^ 32 % 2 ^ 16)).1

/-! ### MX blocks (R24, R26, R31, R37) -/

/-- Exact value of an MX element under its block's scale byte; 0xFF marks a NaN block (R24). -/
def mxValue (f : Fmt) (w scale : Nat) : FVal :=
  if scale == 0xFF then .nan
  else match f.decode w with
    | .fin s m e => .fin s m (e + scale - 127)
    | v => v

/-- FP32 word of an element read for the vector or update unit (R31): exact but for MX elements above the FP32 range. -/
def toFP32 (f : Fmt) (w scale : Nat) : W32 :=
  (rne32 (if f.mx then mxValue f w scale else f.decode w)).1

/-- Exact value of an operand element in a product (R26, R90). -/
def operandValue (f : Fmt) (w scale : Nat) : FVal := if f.mx then mxValue f w scale else f.decode w

/-- emax of R37. -/
def Fmt.emax : Fmt → Int
  | .mxfp8 | .e4m3 => 8
  | .e3m2 => 4
  | _ => 2

/-- Exponent of the magnitude of a nonzero finite value. -/
def FVal.exponent : FVal → Int
  | .fin _ m e => e + bitLength m - 1
  | _ => 0

/-- The largest magnitude of the finite values of a list. -/
def maxAbs (xs : List FVal) : FVal :=
  xs.foldl (fun a x => if FVal.lt a x.abs then x.abs else a) FVal.zero

/-- Writes up to 32 values as one MX block: scale byte, elements, saturating elements (R37). `rd i` is the rounding of element i. -/
def mxBlock (f : Fmt) (rd : Nat → Rounding) (xs : List FVal) : Nat × List Nat × Nat :=
  if xs.any (fun x => !x.isFinite) then (0xFF, xs.map (fun _ => 0), 0)
  else
    let a := maxAbs xs
    let x := if a.isZero then (0 : Int) else max (-127) (min 127 (a.exponent - f.emax))
    let enc := xs.zipIdx.map (fun (v, i) => match v with
      | .fin s m e => f.encode (rd i) (.fin s m (e - x))
      | v => f.encode (rd i) v)
    ((x + 127).toNat, enc.map Prod.fst, (enc.filter Prod.snd).length)

/-! ### DW32 totals (R28, R99, R101, R102) -/

/-- hi and lo of a DW32 value (R28). -/
structure DW where
  hi : W32
  lo : W32
  deriving DecidableEq, Repr

/-- (+0, +0). -/
def DW.zero : DW := ⟨0, 0⟩

/-- Whether an FP32 word is +0 or −0. -/
def isZero32 (w : W32) : Bool := (val32 w).isZero

/-- The total with lo cleared when hi is zero or not finite (R28, R102). -/
def DW.norm (d : DW) : DW :=
  if isZero32 d.hi || !(val32 d.hi).isFinite then ⟨d.hi, 0⟩ else d

/-- Adds an FP32 value to a DW32 total by the steps of R99; the flag is R101's saturation. -/
def DW.add (d : DW) (x : W32) : DW × Bool :=
  let (s, o1) := f32add d.hi x
  if !(val32 s).isFinite then (⟨s, 0⟩, false)
  else if o1 then (⟨s, 0⟩, true)
  else
    let bv := (f32sub s d.hi).1
    let e := (f32add (f32sub d.hi (f32sub s bv).1).1 (f32sub x bv).1).1
    let t := (f32add d.lo e).1
    let (h, o2) := f32add s t
    if !(val32 h).isFinite then (⟨h, 0⟩, false)
    else if o2 then (⟨h, 0⟩, true)
    else (DW.norm ⟨h, (f32sub t (f32sub h s).1).1⟩, false)

/-- Sum of two DW32 values: b.hi, then b.lo (R99). -/
def DW.addDW (a b : DW) : DW × Bool :=
  let (x, s1) := a.add b.hi
  let (y, s2) := x.add b.lo
  (y, s1 || s2)

/-- Exact value hi + lo. -/
def DW.val (d : DW) : FVal := (val32 d.hi).add (val32 d.lo)

/-! ### Orders of MAX and MIN -/

/-- Rank key of R107 for MAX: larger wins; every NaN ranks equal and highest. -/
def maxRank (w : W32) : Int :=
  match val32 w with
  | .nan => 2 ^ 33
  | _ => if w.toNat < 2 ^ 31 then (w.toNat : Int) else (2 ^ 31 : Int) - 1 - w.toNat

/-- Rank key of R107 for MIN: larger wins. -/
def minRank (w : W32) : Int :=
  match val32 w with
  | .nan => 2 ^ 33
  | _ => -(maxRank w)

/-- VMAX and VMIN of R167: −0 below +0, a NaN gives the canonical NaN. -/
def f32max (a b : W32) : W32 :=
  match val32 a, val32 b with
  | .nan, _ => BitVec.ofNat 32 Fmt.fp32.canonicalNaN
  | _, .nan => BitVec.ofNat 32 Fmt.fp32.canonicalNaN
  | _, _ => if maxRank a < maxRank b then b else a

/-- VMIN of R167. -/
def f32min (a b : W32) : W32 :=
  match val32 a, val32 b with
  | .nan, _ => BitVec.ofNat 32 Fmt.fp32.canonicalNaN
  | _, .nan => BitVec.ofNat 32 Fmt.fp32.canonicalNaN
  | _, _ => if maxRank b < maxRank a then b else a

/-- VABS of R167. -/
def f32abs (a : W32) : W32 := (rne32 (val32 a).abs).1

/-- The FP32 canonical NaN for any NaN, the word itself otherwise (R22, R107). -/
def canon32 (w : W32) : W32 :=
  match val32 w with
  | .nan => BitVec.ofNat 32 Fmt.fp32.canonicalNaN
  | _ => w

end Sys2Proof.Machine
end

