-- ==== Sys2Proof/Machine/State.lean ====
section
/-! DEFINITION. The state of the module: everything the spec names, as plain data, and the state after reset. -/

namespace Sys2Proof.Machine

/-! ### Outcomes -/

/-- Faults of the step function. Raised by: no meaning of this model; the module's own faults are records in the state (R431). Safe: a stop would allow fewer runs. -/
inductive Fault where
  /-- The step function met a state its rules exclude. Raised by no meaning; safe. -/
  | impossible
  deriving DecidableEq, Repr

/-- Refusals of the step function. -/
inductive Refusal where
  /-- The command has no meaning in the model yet. Raised by an arm of exec only; safe. -/
  | notModelled (mnemonic : String)
  deriving DecidableEq, Repr

/-! ### Device: OTP and firmware store (R447) -/

/-- One calibration entry of the OTP (R466). -/
structure CalEntry where
  id : Nat
  f : Int
  lo : Int
  hi : Int
  deriving DecidableEq, Repr

/-- A firmware slot of the store, with the result of its last signature verification (R453, R457). -/
structure FwSlot where
  present : Bool
  verified : Bool
  keyHash : Nat
  svn : Nat
  version : Nat
  ifMax : Nat
  ifMin : Nat
  imageHash : Nat
  deriving DecidableEq, Repr

/-- What persists over a module reset (R447) and what the factory fixed (R3, R5, R13). -/
structure Device where
  grade : Grade
  stepping : Stepping
  serial : Nat
  factoryMap : List Nat
  subst : List (Nat × Nat × Nat)
  pkgSubst : List (Nat × Nat)
  fwKeys : List (Option Nat)
  progKeys : List (Option Nat)
  fwRevoked : List Bool
  progRevoked : List Bool
  svnFuses : Nat
  requireSignedFuse : Bool
  otpReadable : Bool
  cert : List Byte
  calib : List CalEntry
  slotA : FwSlot
  slotB : FwSlot
  activeB : Bool
  savedOverlays : List (Nat × Int)
  deriving DecidableEq, Repr

/-! ### Regions and images -/

/-- One entry of the region table (R210). -/
structure Region where
  base : Nat
  size : Nat
  kind : Nat
  users : Nat
  access : Nat
  array : Nat
  deriving DecidableEq, Repr

/-- A relocation record (R398). -/
structure Reloc where
  site : Nat
  holder : Nat
  target : Nat
  kind : Nat
  deriving DecidableEq, Repr

/-- A patch record (R280). -/
structure PatchRec where
  site : Nat
  region : Nat
  bitLo : Nat
  width : Nat
  a : Int
  b : Int
  c : Int
  d : Nat
  deriving DecidableEq, Repr

/-- Initial context of one stream (R255, R397 section 8). -/
structure StreamInit where
  region : Nat
  entry : Nat
  s : List W64
  ab : List W64
  ver : W32
  deriving DecidableEq, Repr

/-- Context record of one logical array (R397 section 8). -/
structure CtxRecord where
  f : StreamInit
  b : StreamInit
  u : StreamInit
  qF : Nat
  qB : Nat
  qU : Nat
  deriving DecidableEq, Repr

/-- The determinism declaration (R364). -/
structure Decl where
  stepping : Nat
  lat : List (Nat × Nat)
  depth : List (Nat × Nat)
  digestAddr : Nat
  deriving DecidableEq, Repr

/-- One record of the ring context table (R326). -/
structure CtxDecl where
  index : Nat
  partner : Nat
  partnerCtx : Nat
  port : Nat
  anyOrder : Bool
  deriving DecidableEq, Repr

/-- The pairing descriptor (R343). -/
structure PairDesc where
  paired : Bool
  journal : Bool
  journalRegion : Nat
  list : List Nat
  standby : List (Nat × Nat)
  degraded : List Nat
  agree : Nat
  deriving DecidableEq, Repr

/-- A program image as LOAD_IMAGE has read and checked it (R397, R399): region images and context records as patched, before relocation. -/
structure Image where
  hostAddr : Nat
  len : Nat
  sha : Nat
  pForm : Bool
  n : Nat
  regions : List Region
  images : List (Nat × List Byte)
  relocs : List Reloc
  decl : Decl
  ctxTable : List CtxDecl
  pairing : Option PairDesc
  contexts : List (List Byte)
  digest : List Byte
  deriving DecidableEq, Repr

/-! ### Streams and in-flight operations -/

/-- What ARR_STRM_STATUS shows (register table of the streams chapter). -/
inductive StrmState where
  | idle | running | held | ended | faulted
  deriving DecidableEq, Repr

/-- Why the head of a stream waits. -/
inductive Hold where
  | mark | order | arbitration | slot | dmaq | sendq | acc | maskq | version | table | sreg
  | staging | skew | dillq | gb | ctx | penalty | step | journal
  deriving DecidableEq, Repr

/-- Whether the wait is a hold of the instruction by a rule, not the wait for its mark, a resource or its turn (R114, R243, R257, R260). -/
def Hold.holds : Hold → Bool
  | .mark | .order | .arbitration | .slot | .dmaq | .penalty => false
  | .sendq | .acc | .maskq | .version | .table | .sreg | .staging | .skew | .dillq | .gb | .ctx | .step | .journal => true

/-- An instruction at the head of its stream that has not issued; `wants` are the objects that it waits to have staged, each with its array (R232), `units` the accumulator units it names (R114), `counted` the kinds of hold already counted for it, and `seen` the last cycle in which it was tested and did not issue (R257). -/
structure HeadInfo where
  opcode : Nat
  mark : Nat
  due : Nat
  hold : Hold
  since : Nat
  sinceTick : Nat
  wants : List (Nat × Nat)
  late : Bool
  units : List Nat
  counted : List Hold
  seen : Nat
  deriving DecidableEq, Repr

/-- A recompute in progress (R142). -/
structure Recompute where
  code : Nat
  count : Nat
  ret : Nat
  delta : Int
  step : Nat
  deriving DecidableEq, Repr

/-- One stream context (R255) with its issue state. `failed` marks a stream whose head instruction has faulted (R427). -/
structure StreamCtx where
  st : StrmState
  pc : Nat
  sregs : List W64
  abs : List W64
  ver : W32
  base : Nat
  step : Nat
  recompute : Option Recompute
  codeRegion : Option Nat
  slotLo : Nat
  slotN : Nat
  head : Option HeadInfo
  notBefore : Nat
  fusedMade : Nat
  fusedClaimed : Nat
  fusedEntered : Nat
  uchkStep : Option Nat
  stepbDone : Bool
  failed : Bool
  deriving DecidableEq, Repr

/-- One stationary tile as the cells hold it: per line, the (position, value, place) of its occupied slots in slot order, and the places of one line (R91). -/
structure CellTile where
  col : Nat
  terms : List (List (Nat × FVal × Nat))
  places : Nat
  deriving DecidableEq, Repr

/-- One segment of a product's plan: block of rows; column set, entry index or candidate; tile-row and tile-column; first and last of its set. An `empty` one stands for a set with every tile-row absent (R71). -/
structure Seg where
  m : Nat
  set : Nat
  r : Nat
  col : Nat
  first : Bool
  last : Bool
  empty : Bool
  deriving DecidableEq, Repr

/-- The runs of one tile-column of the column set: places passed so far, and per output element the open run with its index in the slot sequence (R92, R93). -/
structure RunCol where
  places : Nat
  runs : List (Option (Nat × W32))
  deriving DecidableEq, Repr

/-- Totals on the pipeline (R76): cycle in which they become final, set number, and for an MMG the entry and its slot values (`none` where frozen). -/
structure FinalTotals where
  at_ : Nat
  setNo : Nat
  entry : Nat
  values : List (Option W32)
  deriving DecidableEq, Repr

/-- The three product kinds and the candidate form (R67, R89). -/
inductive ProdKind where
  | mmf | mmt | mmg | cand
  deriving DecidableEq, Repr

/-- A product in flight (R67 to R89). Operand addresses are resolved (R288). `nSets` and `cols` give the sets of one block of rows; `addLeft` the entries not yet added (R86); `held` the stationary X tiles of an MMG as the cells hold them, one for each preloaded segment (R84); `pos` the positions of the MMG's current tile; `waited` the tiles whose wait of R79 the current preload has counted. -/
structure Product where
  kind : ProdKind
  nSets : Nat
  nCols : Nat
  rho : Nat
  run : Nat
  runLen : Nat
  cap : Nat
  q : Nat
  xAddr : Nat
  xStride : Nat
  xFmt : Nat
  xAxis : Bool
  yAddr : Nat
  yStride : Nat
  yFmt : Nat
  yAxis : Bool
  dir : Nat
  pay : Nat
  wFmt : Nat
  r0 : Nat
  j0 : Nat
  j1 : Nat
  m : Nat
  accBase : Nat
  dw32 : Bool
  accInit : Bool
  fused : Bool
  first : Bool
  grad : Nat
  frz : Option Nat
  out : Nat
  outFmt : Nat
  outStride : Nat
  outAxis : Bool
  sr : Bool
  idxBase : Nat
  idxPitch : Nat
  seed : Nat
  cands : List (Nat × Nat × Nat)
  plan : List Seg
  cells : List (List CellTile)
  held : List (List (List FVal))
  pos : List CellTile
  runs : List RunCol
  setNo : Nat
  finals : List FinalTotals
  tilesOut : Nat
  addLeft : List Nat
  preAt : Nat
  segAt : Nat
  waited : List Nat
  deriving DecidableEq, Repr

/-- A reduction in flight (R105). -/
structure RedOp where
  kind : Nat
  src : Nat
  srcStride : Nat
  srcFmt : Nat
  srcAxis : Bool
  e : Nat
  col : Nat
  idxBase : Nat
  runLen : Nat
  accBase : Nat
  dw32 : Bool
  accInit : Bool
  emit : Bool
  fused : Bool
  out : Nat
  outFmt : Nat
  outStride : Nat
  outAxis : Bool
  out2 : Nat
  out2Stride : Nat
  sr : Bool
  sIdx : Nat
  idxPitch : Nat
  seed : Nat
  deriving DecidableEq, Repr

/-- A resolved vector operand (R164, R165). -/
structure VOperand where
  kind : Nat
  addr : Nat
  fmt : Nat
  stride : Nat
  colZero : Bool
  axis : Bool
  scalar : W32
  deriving DecidableEq, Repr

/-- A vector instruction in flight (R164 to R172). `started` passes have begun. -/
structure VecOp where
  opcode : Nat
  a : VOperand
  b : VOperand
  c : VOperand
  d : VOperand
  rows : Nat
  cols : Nat
  slot : Nat
  sr : Bool
  saveIn : Bool
  idxBase : Nat
  idxPitch : Nat
  seed : Nat
  claim : Nat
  started : Nat
  readyAt : Nat
  deriving DecidableEq, Repr

/-- What an in-flight slot holds. `got` of an SLD is the value it has read where a later store of its stream has landed since (R292). -/
inductive OpBody where
  | prod (p : Product)
  | red (r : RedOp)
  | vec (v : VecOp)
  | vtload (half : Bool) (slot addr : Nat) (image : List W32)
  | sld (rd : Nat) (addr : Nat) (got : Option W64)
  | sst (addr : Nat) (v : W64)
  | wcreq (counter rd : Nat)
  | unrm (wt e0 e1 : Nat) (frz : Option Nat)
  | unrmFin (done : Bool)
  | uchk
  | uverOpen (wt tag : Nat) (done : Bool)
  | upd (wt e0 e1 next desc : Nat) (frz : Option Nat) (pending : Nat)
  | uverClose (wt : Nat)
  | ctxAppend (entry block head src srcStride n : Nat)
  | ctxAdv (entry n : Nat) (done : Bool)
  | digH (src len dst : Nat) (ctx : Option Nat) (first last : Bool)
  | digProv (prog weights inputs dst : Nat)
  deriving DecidableEq, Repr

/-- One in-flight slot (R258, R259). `objs` are the managed objects it reads or writes (R231). -/
structure Op where
  slot : Nat
  stream : Stream
  opcode : Nat
  pc : Nat
  mark : Nat
  due : Nat
  step : Nat
  wt : Nat
  ver : W32
  sreg : Option Nat
  table : Option Nat
  seq : Nat
  units : List Nat
  objs : List Nat
  readyAt : Nat
  late : Bool
  body : OpBody
  deriving DecidableEq, Repr

/-! ### Accumulator, queue, vector engine -/

/-- A final tile on its way into the queue, or an entry of it (R173); `op` is the issue number of its producer. -/
structure QEntry where
  stream : Stream
  slot : Nat
  op : Nat
  fused : Bool
  index : Bool
  tile : List W32
  tsw : W32
  addr : Nat
  fmt : Nat
  stride : Nat
  axis : Bool
  sr : Bool
  idx : Nat
  idxPitch : Nat
  seed : Nat
  due : Nat
  step : Nat
  last : Bool
  stalled : Bool
  seqNo : Nat
  readyAt : Nat
  deriving DecidableEq, Repr

/-- A pass or drain that is reading since cycle `start` (R171). `need` are the bytes that it takes from the scratchpad's read port in each cycle, `rate` those that it gives to the write port (R72, R172, R207). -/
structure Pass where
  isDrain : Bool
  slot : Nat
  pass : Nat
  fromQueue : Bool
  lastPass : Bool
  writes : List (Nat × List Byte)
  start : Nat
  endAt : Nat
  need : Nat
  rate : Nat
  latency : Nat
  due : Nat
  step : Nat
  deriving DecidableEq, Repr

/-- A write that has not landed (R172): from cycle `start` until it lands it gives `rate` bytes a cycle to the write port. -/
structure Landing where
  isDrain : Bool
  slot : Nat
  lastPass : Bool
  writes : List (Nat × List Byte)
  start : Nat
  at_ : Nat
  rate : Nat
  due : Nat
  step : Nat
  deriving DecidableEq, Repr

/-- One half of a function table (R181). -/
structure TableHalf where
  mode : Nat
  sym : Nat
  n : Nat
  lo : W32
  invW : W32
  aLo : W32
  bLo : W32
  aHi : W32
  bHi : W32
  segs : List (W32 × W32 × W32)
  deriving DecidableEq, Repr

/-- A function table slot (R180). -/
structure TableSlot where
  fwd : Option TableHalf
  der : Option TableHalf
  deriving DecidableEq, Repr

/-- A deferred update tile (R200); `op` is the issue number of its UPD. -/
structure Deferred where
  op : Nat
  wt : Nat
  entry : Nat
  since : Nat
  sinceCycle : Nat
  deriving DecidableEq, Repr

/-- The tile the update unit works on (R201, R205); `op` is the issue number of its UPD. -/
structure UpdCur where
  op : Nat
  wt : Nat
  entry : Nat
  endAt : Nat
  deriving DecidableEq, Repr

/-! ### DMA and codec -/

/-- The DMA operations (R302). -/
inductive DmaKind where
  | loadC | loadD | loadT | build (whole : Bool) | copy | add | fill
  deriving DecidableEq, Repr

/-- A descriptor queue entry, references resolved (R302). -/
structure Desc where
  kind : DmaKind
  arr : Nat
  stream : Stream
  opcode : Nat
  pc : Nat
  mark : Nat
  due : Nat
  step : Nat
  late : Bool
  seq : Nat
  misaligned : Bool
  src : Nat
  srcFmt : Nat
  srcKind : Nat
  srcAxis : Bool
  srcZero : Bool
  srcPay : Nat
  dst : Nat
  dstFmt : Nat
  dstKind : Nat
  dstAxis : Bool
  dstZero : Bool
  dstPay : Nat
  mask : Nat
  r0 : Nat
  r1 : Nat
  j0 : Nat
  j1 : Nat
  stride : Nat
  len : Nat
  positions : Nat
  vtag : Nat
  objs : List Nat
  deriving DecidableEq, Repr

/-- A tile a codec lane still has to write: entry, tile-row and tile-column of its source directory, whether it is present, source (for a BUILD, mask tile) and destination address. -/
structure LaneTile where
  e : Nat
  r : Nat
  col : Nat
  present : Bool
  src : Nat
  dst : Nat
  deriving DecidableEq, Repr

/-- A codec lane at work (R61, R62, R78). `waiting`: it waits for another lane's tile or directory (R65); `wrote`: the ranges of its destination written so far (R64). -/
structure Lane where
  desc : Desc
  fetched : Bool
  waiting : Bool
  tiles : List LaneTile
  readyAt : Nat
  wrote : List (Nat × Nat)
  deriving DecidableEq, Repr

/-- The final totals of one MMG tile that wait for the gradient-buffer adder (R85, R86): slot of the MMG, directory entry, values of its slots (`none` where frozen). -/
structure GbAdd where
  slot : Nat
  entry : Nat
  values : List (Option W32)
  finalAt : Nat
  deriving DecidableEq, Repr

/-! ### One array -/

/-- Everything one array holds (R12 and the array chapters). `freedUnits` are the accumulator units released in cycle `unitFreed` (R114); `issueSeq` numbers issues in order (R159); `lost` are the UPDs and UNRMs that have faulted and so never retire (R190, R191, R203). -/
structure ArrayState where
  f : StreamCtx
  b : StreamCtx
  u : StreamCtx
  accRegions : List (Stream × Nat × Nat)
  ops : List Op
  acc : List (Nat × W32)
  tsw : List W32
  waiting : List QEntry
  queue : List QEntry
  xferAt : Nat
  fullCycles : Nat
  overflowed : Bool
  lastIssue : Option Nat
  unitFreed : Nat
  freedUnits : List Nat
  pass : Option Pass
  landings : List Landing
  tables : List TableSlot
  norm : DW
  normFinal : Bool
  verdictDone : Bool
  updCur : Option UpdCur
  normAt : Nat
  deferred : List Deferred
  queueF : List Desc
  queueB : List Desc
  queueU : List Desc
  lane : Option Lane
  gbWaiting : List GbAdd
  gbFree : Nat
  issueSeq : Nat
  lost : List Op
  stopped : Bool
  deriving DecidableEq, Repr

/-! ### Mask engine -/

/-- Weight states of R118. -/
inductive WState where
  | idle | open_ | committed | faulted
  deriving DecidableEq, Repr

/-- States of a working-copy buffer (R149). -/
inductive BufState where
  | free | ready | writing
  deriving DecidableEq, Repr

/-- One version buffer: state, tag, mask generation of its tiles. -/
structure VBuf where
  st : BufState
  tag : W32
  gen : Nat
  deriving DecidableEq, Repr

/-- The decision of MDEC with what the report keeps of it (R126, R137). -/
structure Decision where
  pReq : Nat
  gReq : Nat
  flags : Nat
  rho : W32
  fq : Nat
  ntgt : Nat
  deriving DecidableEq, Repr

/-- One entry of the weight table (R115, R118). `curB` says that mask buffer B is the current one. -/
structure Weight where
  partR0 : Nat
  partR1 : Nat
  owner : Bool
  dw32 : Bool
  stochastic : Bool
  maskA : Nat
  maskB : Nat
  wc0 : Nat
  wc1 : Nat
  master : Nat
  moment1 : Nat
  moment2 : Nat
  grad : Nat
  extra : Nat
  seed : Nat
  ctrl : Nat
  st : WState
  gen0 : Nat
  gen : Nat
  gradGen : Nat
  curB : Bool
  decision : Option Decision
  pReq : Nat
  pDone : Nat
  gReq : Nat
  gDone : Nat
  nonfinite : Bool
  v0 : VBuf
  v1 : VBuf
  deriving DecidableEq, Repr

/-- The mask instructions as the engine's queue holds them (R132, R304). `none` counts select the decision. -/
inductive MaskKind where
  | bind (addr : Nat)
  | mdec (wt count table : Nat)
  | pruneG (wt t : Nat)
  | pruneL (wt h : Nat) (d : Option Nat)
  | regrowM (wt table count : Nat) (g : Option Nat)
  | regrowR (wt seed : Nat) (g : Option Nat)
  | commit (wt tag : Nat)
  | adopt (wt tag : Nat)
  deriving DecidableEq, Repr

/-- An entry of the mask queue: issued in cycle `at_`; `objs` are the managed objects it reads or writes (R231), and `stalled` says that its wait for a codec lane has been counted (R131). -/
structure MaskOp where
  kind : MaskKind
  arr : Nat
  opcode : Nat
  pc : Nat
  mark : Nat
  due : Nat
  step : Nat
  late : Bool
  at_ : Nat
  objs : List Nat
  stalled : Bool
  deriving DecidableEq, Repr

/-- A version regeneration that waits for in-flight users of the buffer's old version (R153). -/
structure VerWait where
  wt : Nat
  second : Bool
  tag : W32
  since : Nat
  deriving DecidableEq, Repr

/-! ### Tiers and placement -/

/-- A package copy in progress (R219, R220). -/
structure PkgCopy where
  slot : Nat
  source : Nat
  target : Nat
  ptr : Nat
  deriving DecidableEq, Repr

/-- A placement record (R229). For an object the key is its address and `paged` is false, `hints` giving the hint tick of each array that has set one; for a context stream the key is the first page of the block, and `page` is the last page used. -/
structure PlRecord where
  key : Nat
  arr : Nat
  paged : Bool
  page : Nat
  l0 : Nat
  l1 : Nat
  uses : Nat
  hints : List (Nat × Nat)
  deriving DecidableEq, Repr

/-- An object staged, or being staged, in a window (R226, R227). -/
structure Staged where
  obj : Nat
  arr : Nat
  frames : List Nat
  arriving : Bool
  dirty : Bool
  deriving DecidableEq, Repr

/-- A priority request (R230). -/
structure PlRequest where
  obj : Nat
  arr : Nat
  deriving DecidableEq, Repr

/-! ### Work counters and Dill -/

/-- A request at a work counter (R270). -/
structure WcRequest where
  requester : Nat
  arr : Nat
  stream : Stream
  slot : Nat
  rd : Nat
  n : Nat
  tag : Nat
  at_ : Nat
  deriving DecidableEq, Repr

/-- A log entry (R270): tag, requester, grant. -/
structure WcLog where
  tag : Nat
  requester : Nat
  grant : Nat
  deriving DecidableEq, Repr

/-- A waiting WCSET (R276). -/
structure WcSetReq where
  value : Nat
  tag : Nat
  readyAt : Nat
  deriving DecidableEq, Repr

/-- One shared work counter (R270). `logged` is the number of entries its log has ever taken: the log position of R350. -/
structure WorkCounter where
  value : Nat
  e : Nat
  arriving : List WcRequest
  table : List WcRequest
  log : List WcLog
  sets : List WcSetReq
  logged : Nat
  deriving DecidableEq, Repr

/-- A Dill queue entry (R309). -/
structure DillReq where
  arr : Nat
  slot : Nat
  at_ : Nat
  deriving DecidableEq, Repr

/-! ### Ring -/

/-- A frame a port sends or has sent (R317, R318). -/
structure OutFrame where
  typ : Nat
  dst : Nat
  src : Nat
  dstCtx : Nat
  srcCtx : Nat
  tag : W32
  offset : Nat
  aux : W32
  vc : Nat
  payload : List Byte
  phase : Option PhaseInfo
  deriving DecidableEq, Repr

/-- A frame as a port has put it on the fibre: link_seq, ack_seq, frame (R317). -/
structure WireFrame where
  seq : Nat
  ack : Nat
  frame : OutFrame
  deriving DecidableEq, Repr

/-- Port states of RNG_P_STATUS. -/
inductive PortState where
  | down | training | up | failed
  deriving DecidableEq, Repr

/-- One ring or mirror port (R312 to R320). `outQ` waits for credit, `replay` for acknowledgement; `wire` is what the port has sent; `seen` says that `far` has been a far end. -/
structure Port where
  st : PortState
  far : Nat
  spanned : Nat
  lanes : Nat
  bad : Nat
  delay : Nat
  outQ : List OutFrame
  replay : List OutFrame
  sendSeq : Nat
  ackedTo : Nat
  rxSeq : Nat
  rxSinceAck : Nat
  replays : Nat
  credits : List Nat
  heldDown : Bool
  dark : Bool
  seen : Bool
  wire : List WireFrame
  deriving DecidableEq, Repr

/-- Context states of R327; FREE entries are not listed. -/
inductive CtxState where
  | declared | open_ | lost | service
  deriving DecidableEq, Repr

/-- A frame that stays in a port's receive buffer: port, channel, and the bytes of the message it brought (R323). -/
structure HeldFrame where
  port : Nat
  vc : Nat
  ofs : Nat
  len : Nat
  deriving DecidableEq, Repr

/-- A receive of a context (R321). `got` bytes have landed; `early` units wait for earlier adds and `held` are the frames whose credit they hold back (R323); `armed` says that ARM has gone out; it issued in cycle `at_`, and `objs` are the managed objects it writes (R231). -/
structure Recv where
  arr : Nat
  stream : Stream
  pc : Nat
  mark : Nat
  due : Nat
  step : Nat
  late : Bool
  tag : Nat
  len : Nat
  buf : Nat
  port : Nat
  add : Bool
  got : Nat
  seq : Nat
  early : List (Nat × List Byte)
  held : List HeldFrame
  armed : Bool
  readyAt : Nat
  at_ : Nat
  objs : List Nat
  deriving DecidableEq, Repr

/-- A send of a context (R321): `sent` while it waits for DONE; it issued in cycle `at_`, and `objs` are the managed objects it reads (R231). -/
structure Send where
  arr : Nat
  stream : Stream
  pc : Nat
  mark : Nat
  due : Nat
  step : Nat
  late : Bool
  tag : Nat
  len : Nat
  buf : Nat
  port : Nat
  sent : Bool
  readyAt : Nat
  at_ : Nat
  objs : List Nat
  deriving DecidableEq, Repr

/-- One ring stream context (R326, R327). `overdue` says that its silence had reached the bound when its messages were given up, so that it is still to be reported (R337). -/
structure CtxEntry where
  st : CtxState
  partner : Nat
  partnerCtx : Nat
  port : Nat
  anyOrder : Bool
  arms : List (Nat × Nat)
  recvs : List Recv
  sends : List Send
  lastFrame : Nat
  openSince : Nat
  overdue : Bool
  deriving DecidableEq, Repr

/-- One merge-table entry (R339): reporter bitmap as a number. -/
structure Merge where
  subject : Nat
  cls : Nat
  bitmap : Nat
  first : Nat
  lastSend : Nat
  pendingAt : Option Nat
  fromPort : Nat
  acted : Bool
  deriving DecidableEq, Repr

/-- The ring engine (R311 to R341). `heardAt` is the period of the last frame of a module that is not the master (R241), `gone` are the modules known to be lost (R313, R330), `normSat` says that the fold of the domains before has saturated (R193). -/
structure Ring where
  addr : Nat
  xn : Nat
  yn : Nat
  joined : Bool
  bayX : Bool
  bayY : Bool
  bayM : Bool
  ports : List Port
  ctxs : List (Nat × CtxEntry)
  filter : List (Nat × Nat)
  merges : List Merge
  normIn : Option DW
  normSat : Bool
  normSent : Bool
  g2 : Option DW
  g2Sat : Bool
  g2At : Nat
  members : Nat
  jobId : Nat
  domains : List Nat
  heardAt : Option Nat
  gone : List Nat
  deriving DecidableEq, Repr

/-! ### Mirror and journal -/

/-- Work-counter state of an entry record (R350). -/
structure WcRecord where
  value : Nat
  e : Nat
  logPos : Nat
  deriving DecidableEq, Repr

/-- One entry of the journal: a block, its place in the journal region, and its prior contents (R348). -/
structure JEntry where
  addr : Nat
  pos : Nat
  bytes : List Byte
  deriving DecidableEq, Repr

/-- One generation of the rollback journal (R348 to R350). -/
structure JGen where
  step : Nat
  entries : List JEntry
  streams : List (Nat × Stream × StreamCtx)
  counters : Option (List WcRecord)
  weights : Option (List (Nat × Weight) × W32)
  agreed : Bool
  deriving DecidableEq, Repr

/-- The mirror engine (R342 to R359). `jrnWait` are the (block, step) copies that writes wait for (R348); `testing` says that the self-test of R357 runs; `degraded` is the body variant in use (R352); `inbox` holds the bytes of the survivor's state record that have come (R359); `service` is the context entry of the refill (R328); `eccAt` is the period of the last ECC report of this module or its twin, `passOwn` and `passTwin` say that the twins have passed the self-test of R357; `closing` says that the refill is over and its context closes once its frames have gone out (R359). -/
structure Mirror where
  paired : Bool
  twin : Nat
  twinNo : Nat
  survivor : Bool
  fenced : Bool
  desc : Option PairDesc
  gens : List JGen
  divStep : Option Nat
  replayed : List Nat
  diverged : Bool
  testing : Bool
  jrnWait : List (Nat × Nat)
  refillPtr : Option Nat
  refillDone : Bool
  entryStep : Option Nat
  readyTick : Nat
  degraded : Bool
  inbox : List Byte
  service : Option Nat
  eccAt : Option Nat
  passOwn : Bool
  passTwin : Bool
  closing : Bool
  deriving DecidableEq, Repr

/-! ### Faults and events -/

/-- A fault record (R431). `none` values are the record's own. -/
structure FaultRec where
  code : Nat
  arr : Nat
  stream : Nat
  slot : Nat
  block : Nat
  pc : Nat
  check : Nat
  opcode : Nat
  object : Nat
  tileRow : Nat
  tileCol : Nat
  word4 : Nat
  addr : Nat
  subject : Nat
  aux : Nat
  deriving DecidableEq, Repr

/-- An event queue entry (R436). -/
structure EventEntry where
  code : Nat
  kind : Nat
  outcome : Nat
  count : Nat
  period : Nat
  subject : Nat
  origin : Nat
  detail : Nat
  deriving DecidableEq, Repr

/-- The fault and event block (R422 to R445). `waitingEntries` are the kind-1 entries of the current period, whose count is not final (R436). -/
structure Faults where
  first : Option FaultRec
  firstPeriod : Nat
  firstBus : Nat
  lastBus : Nat
  faultStreams : List (Nat × Stream)
  waitingEntries : List EventEntry
  last : Option FaultRec
  lastValid : Bool
  unacked : Bool
  stopAsked : Bool
  stopped : Bool
  beaconSent : Bool
  codesWritten : List Nat
  eqAddr : Option Nat
  eqSize : Nat
  head : Nat
  tail : Nat
  seq : Nat
  stash : List EventEntry
  handover : List EventEntry
  windowCounts : List (Nat × Nat × Nat)
  suppressed : List (Nat × Nat)
  sig1 : Option Nat
  sig2 : Option Nat
  tail1 : Bool
  tail2 : Bool
  msix : List Nat
  autoCounts : List (Nat × Nat)
  deriving DecidableEq, Repr

/-! ### Registers -/

/-- An open guarded pair (R414). -/
structure GuardPair where
  offset : Nat
  value : W32
  openedAt : Nat
  deriving DecidableEq, Repr

/-- What one requester keeps for itself (R403). -/
structure ReqState where
  sels : List (Nat × W32)
  latches : List (Nat × W32)
  pair : Option GuardPair
  lastRead : W32
  deriving DecidableEq, Repr

/-- The register file: committed values and shadows that differ from their reset value, by BAR0 offset. `strobes` are the commits requested and not finished, `pendingIdle` those that wait for an idle block, each as 256 · group + block (R410); `crcBad`: the last CRC comparison found a difference (R418), made in the period of the last scrub, `scrubbed` (R417). `raised` are the bits that hardware has set in bus cycle `raisedBus`, by offset (R406). -/
structure RegState where
  vals : List (Nat × W32)
  shadows : List (Nat × W32)
  overlays : List (Nat × Int)
  overlayShadows : List (Nat × Int)
  host : ReqState
  sage : ReqState
  strobes : List Nat
  pendingIdle : List Nat
  guardWaiting : List (Nat × W32)
  crcBad : Bool
  scrubbed : Option Nat
  raisedBus : Nat
  raised : List (Nat × W32)
  deriving DecidableEq, Repr

/-! ### Thyme -/

/-- An announced phase hold: H, E once announced, and the module that asked first (R245). -/
structure PhaseHold where
  start : Nat
  stop : Option Nat
  requester : Nat
  deriving DecidableEq, Repr

/-- A message that the grandmaster port has sent (R253): domainNumber, transport, sequence number, then what its type carries: one-step, log interval and origin time; the preciseOriginTimestamp; interval, currentUtcOffset and data set on timescale PTP; the request's sequence and port and its receipt time. -/
inductive PtpSent where
  | sync (domain transport seq : Nat) (oneStep : Bool) (interval : Int) (s ns : Nat)
  | followUp (domain transport seq : Nat) (s ns : Nat)
  | announce (domain transport seq : Nat) (interval utcOffset : Int) (ds : PtpSet)
  | delayResp (domain transport seq source : Nat) (s ns : Nat)
  deriving DecidableEq, Repr

/-- The phase and time system (R234 to R254). `carry` holds for each ring port the period of its last valid phase frame (R240); `pps` and `edges10` count the rising edges of the 1PPS and 10 MHz outputs (R254). `holds` are the announced holds not yet past, `rateNext` the announced rate steps (r, period), `levels` the modules whose hold level is on; `adopt` says that the next phase frame brings the ring's counters (R235), `lostIn` is the period in which the phase was lost (R240). -/
structure Thyme where
  cyc : Nat
  cycle : Nat
  busRem : Nat
  bus : Nat
  tick : Nat
  period : Nat
  rate : Nat
  target : Nat
  frozen : Bool
  behind : Bool
  episodeFrozen : Nat
  level : Bool
  holds : List PhaseHold
  levels : List Nat
  reqRates : List (Nat × Nat)
  rateNext : List (Nat × Nat)
  lastDown : Option Nat
  lastUp : Option Nat
  master : Bool
  masterAddr : Nat
  masterPrio : Nat
  backup : Bool
  adopt : Bool
  parent : Nat
  holdover : Bool
  sinceFrame : Nat
  sinceMaster : Nat
  lead : Nat
  powerRate : Nat
  thermalRate : Nat
  todS : Nat
  todNs : Nat
  todPending : Bool
  ptp : Nat
  ptpLog : List PtpSent
  carry : List (Option Nat)
  pps : Nat
  edges10 : Nat
  outLow : Bool
  phaseLost : Bool
  lostIn : Nat
  quiet : Bool
  deriving DecidableEq, Repr

/-! ### Host interface and Sage -/

/-- Module states of R386. -/
inductive ModState where
  | unopened | opened | loaded | ready | running | held | stopped
  deriving DecidableEq, Repr

/-- A pending command (R385) with what it waits for. -/
structure PendingCmd where
  hdr : CmdHdr
  opcode : Nat
  arg : Nat
  deriving DecidableEq, Repr

/-- A rollback or restart that has been accepted and waits until nothing is in flight (R351): whether a reply is due, mode 1, the degraded variant, step, restart tick. -/
structure Restart where
  hdr : Option CmdHdr
  rollback : Bool
  degraded : Bool
  step : Nat
  tick : Nat
  deriving DecidableEq, Repr

/-- The PCIe function (R375): what its link has trained to, the power state, the payload and read-request sizes, 10-bit tags, ECRC, and the AER status words (R378). -/
structure Pcie where
  link : LinkTrain
  d3hot : Bool
  payload : Nat
  readReq : Nat
  tag10 : Bool
  ecrcGen : Bool
  ecrcCheck : Bool
  aerCor : W32
  aerUncor : W32
  deriving DecidableEq, Repr

/-- The host interface, Sage, security and boot state. `substWaiting` are the logical arrays whose failed position (second) awaits a spare at a step boundary, `reload` says that the module may not go on before it is reloaded (R16). `msixTable` holds the words of the MSI-X table by BAR0 offset (R376). `applied` holds the calibration values in force, by id (R466). `bar4Waiting` are the host's writes that wait for journal copies (R348). -/
structure HostIf where
  st : ModState
  bootDone : Bool
  recovery : Bool
  stage : Nat
  failReason : Nat
  oscStable : Bool
  runB : Bool
  owner : Option Nat
  version : Nat
  faultMode : Nat
  slots : List (Nat × List Byte)
  visible : List Nat
  pendingCmd : Option PendingCmd
  image : Option Image
  committed : Bool
  program : List Byte
  requireSigned : Bool
  fwPending : Option (Bool × Nat)
  bar4Data : List Byte
  holdStep : Option Nat
  restart : Option Restart
  posFailed : List Nat
  posTesting : List Nat
  noSpare : Bool
  msixTable : List (Nat × W32)
  substWaiting : List (Nat × Nat)
  reload : Bool
  pcie : Pcie
  applied : List (Nat × Int)
  bar4Waiting : List (Nat × List Byte)
  deriving DecidableEq, Repr

/-- The power stage and its controllers (R474 to R477); `windowAt` is the period in which their last window ended (R476). -/
structure Power where
  on : Bool
  tripped : Bool
  trip : Nat
  overWindows : Nat
  watts : Nat
  temp : Int
  overLimit : Bool
  thermalHigh : Bool
  windowAt : Nat
  deriving DecidableEq, Repr

/-- The mask engine (R115 to R138). -/
structure MaskEngine where
  weights : List (Nat × Weight)
  queue : List MaskOp
  running : Option (MaskOp × Nat × Bool)
  verWaits : List VerWait
  deriving DecidableEq, Repr

/-- The tiers and the placement engine (R206 to R233). `bad` holds the uncorrectable far-tier ECC blocks (address div 2,048; R216, R220), `nearBad` the uncorrectable near-memory words (address div 8; R209); `soft` the correctable far-tier blocks with their symbols in error, `nearSoft` the correctable near-memory words; accumulator words lie at the model's own addresses `accAddr`. `transposed` are the tiles that a transposed load has written and nothing else since (R81). -/
structure Tiers where
  regions : List Region
  chmap : List Nat
  usedSpares : List Nat
  pkgCe : List (Nat × Nat)
  pkgUe : List (Nat × Nat)
  copy : Option PkgCopy
  copyWaiting : List Nat
  bad : List Nat
  nearBad : List Nat
  soft : List (Nat × Nat)
  nearSoft : List Nat
  transposed : List Nat
  records : List PlRecord
  requests : List PlRequest
  staged : List Staged
  deriving DecidableEq, Repr

/-- The module's step state (R262 to R267). `past` holds (s, B(s + 1)) of the steps behind the module's that a stream is still in (R263); `since` is the period in which the step began. -/
structure Steps where
  started : Bool
  step : Nat
  base : Nat
  nextBase : Option Nat
  past : List (Nat × Nat)
  since : Nat
  t0 : Nat
  verdict : Nat
  verdictSat : Bool
  clip : W32
  deriving DecidableEq, Repr

/-- The whole module. `freeCtr` and `pending` are the model's own fields. -/
structure State where
  dev : Device
  mem : Cells
  hostMem : Cells
  thy : Thyme
  stp : Steps
  arrays : List ArrayState
  mask : MaskEngine
  tiers : Tiers
  wct : List WorkCounter
  dillQ : List DillReq
  dill : List (Option (DillReq × Nat))
  ring : Ring
  mir : Mirror
  flt : Faults
  regs : RegState
  host : HostIf
  pwr : Power
  freeCtr : Nat
  pending : List Instr
  deriving DecidableEq, Repr

/-! ### Reset -/

/-- A stream context before START (log 4). -/
def StreamCtx.reset : StreamCtx where
  st := .idle
  pc := 0
  sregs := List.replicate 32 0
  abs := List.replicate 16 0
  ver := 0
  base := 0
  step := 0
  recompute := none
  codeRegion := none
  slotLo := 0
  slotN := 0
  head := none
  notBefore := 0
  fusedMade := 0
  fusedClaimed := 0
  fusedEntered := 0
  uchkStep := none
  stepbDone := false
  failed := false

/-- TSW after reset: owner 0xFF, owner_stream 3 (R103, R424). -/
def tswReset : W32 := 0x00FFC000#32

/-- An array after reset. -/
def ArrayState.reset : ArrayState where
  f := StreamCtx.reset
  b := StreamCtx.reset
  u := StreamCtx.reset
  accRegions := []
  ops := []
  acc := []
  tsw := List.replicate 64 tswReset
  waiting := []
  queue := []
  xferAt := 0
  fullCycles := 0
  overflowed := false
  lastIssue := none
  unitFreed := 0
  freedUnits := []
  pass := none
  landings := []
  tables := List.replicate 16 ⟨none, none⟩
  norm := DW.zero
  normFinal := false
  verdictDone := false
  updCur := none
  normAt := 0
  deferred := []
  queueF := []
  queueB := []
  queueU := []
  lane := none
  gbWaiting := []
  gbFree := 0
  issueSeq := 0
  lost := []
  stopped := false

/-- A port after reset: down (log 4). -/
def Port.reset : Port where
  st := .down
  far := 0
  spanned := 0
  lanes := 0
  bad := 0
  delay := 0
  outQ := []
  replay := []
  sendSeq := 0
  ackedTo := 0
  rxSeq := 0
  rxSinceAck := 0
  replays := 0
  credits := List.replicate 8 0
  heldDown := false
  dark := false
  seen := false
  wire := []

/-- A work counter after reset. -/
def WorkCounter.reset : WorkCounter :=
  ⟨0, 0, [], [], [], [], 0⟩

/-- Thyme after reset: master of a ring of one at r = 64, of priority 0 until the oscillator is stable (R234, R452, register tables). -/
def Thyme.reset : Thyme where
  cyc := 0
  cycle := 0
  busRem := 0
  bus := 0
  tick := 0
  period := 0
  rate := 64
  target := 64
  frozen := false
  behind := false
  episodeFrozen := 0
  level := false
  holds := []
  levels := []
  reqRates := []
  rateNext := []
  lastDown := none
  lastUp := none
  master := true
  masterAddr := 0
  masterPrio := 0
  backup := false
  adopt := false
  parent := 7
  holdover := false
  sinceFrame := 0
  sinceMaster := 0
  lead := 4
  powerRate := 64
  thermalRate := 64
  todS := 0
  todNs := 0
  todPending := false
  ptp := 0
  ptpLog := []
  carry := List.replicate 4 none
  pps := 0
  edges10 := 0
  outLow := false
  phaseLost := false
  lostIn := 0
  quiet := false

/-- The ring engine after reset (R311, R332). -/
def Ring.reset : Ring where
  addr := 0
  xn := 1
  yn := 1
  joined := false
  bayX := false
  bayY := false
  bayM := false
  ports := List.replicate 5 Port.reset
  ctxs := []
  filter := []
  merges := []
  normIn := none
  normSat := false
  normSent := false
  g2 := none
  g2Sat := false
  g2At := 0
  members := 0
  jobId := 0
  domains := []
  heardAt := none
  gone := []

/-- The mirror engine after reset. -/
def Mirror.reset : Mirror where
  paired := false
  twin := 0
  twinNo := 0
  survivor := false
  fenced := false
  desc := none
  gens := []
  divStep := none
  replayed := []
  diverged := false
  testing := false
  jrnWait := []
  refillPtr := none
  refillDone := false
  entryStep := none
  readyTick := 0
  degraded := false
  inbox := []
  service := none
  eccAt := none
  passOwn := false
  passTwin := false
  closing := false

/-- The fault and event block after reset. -/
def Faults.reset : Faults where
  first := none
  firstPeriod := 0
  firstBus := 0
  lastBus := 0
  faultStreams := []
  waitingEntries := []
  last := none
  lastValid := false
  unacked := false
  stopAsked := false
  stopped := false
  beaconSent := false
  codesWritten := []
  eqAddr := none
  eqSize := 0
  head := 0
  tail := 0
  seq := 0
  stash := []
  handover := []
  windowCounts := []
  suppressed := []
  sig1 := none
  sig2 := none
  tail1 := false
  tail2 := false
  msix := []
  autoCounts := []

/-- The register file after reset: every register at its table's reset value. -/
def RegState.reset : RegState where
  vals := []
  shadows := []
  overlays := []
  overlayShadows := []
  host := ⟨[], [], none, 0⟩
  sage := ⟨[], [], none, 0⟩
  strobes := []
  pendingIdle := []
  guardWaiting := []
  crcBad := false
  scrubbed := none
  raisedBus := 0
  raised := []

/-- The function after reset: the link is down, D0, 128-byte payloads, 512-byte read requests, nothing enabled (PRESUMED: the PCI Express defaults, log 91). -/
def Pcie.reset : Pcie where
  link := ⟨false, 0, 0⟩
  d3hot := false
  payload := 128
  readReq := 512
  tag10 := false
  ecrcGen := false
  ecrcCheck := false
  aerCor := 0
  aerUncor := 0

/-- Sage after reset: boot stage 0x01 (R448), no owner. -/
def HostIf.reset : HostIf where
  st := .unopened
  bootDone := false
  recovery := false
  stage := 1
  failReason := 0
  oscStable := false
  runB := false
  owner := none
  version := 0
  faultMode := 0
  slots := []
  visible := []
  pendingCmd := none
  image := none
  committed := false
  program := List.replicate 32 0
  requireSigned := false
  fwPending := none
  bar4Data := []
  holdStep := none
  restart := none
  posFailed := []
  posTesting := []
  noSpare := false
  msixTable := []
  substWaiting := []
  reload := false
  pcie := Pcie.reset
  applied := []
  bar4Waiting := []

/-- The power stage with 48 V applied. -/
def Power.reset : Power := ⟨true, false, 0, 0, 0, 0, false, false, 0⟩

/-- Channel map of a grade at reset (R215). -/
def chmapReset : Grade → List Nat
  | .a => List.range 48
  | .b => List.range 18 ++ (List.range 18).map (· + 24)

/-- The volatile state after a module reset of a device (R446): everything but OTP and firmware store. -/
def State.resetOf (d : Device) (p : List Instr) : State where
  dev := d
  mem := []
  hostMem := []
  thy := Thyme.reset
  stp := ⟨false, 0, 0, none, [], 0, 0, 0, false, f32one⟩
  arrays := List.replicate 64 ArrayState.reset
  mask := ⟨[], [], none, []⟩
  tiers := ⟨[], chmapReset d.grade, [], [], [], none, [], [], [], [], [], [], [], [], []⟩
  wct := List.replicate 16 WorkCounter.reset
  dillQ := []
  dill := List.replicate 4 none
  ring := Ring.reset
  mir := Mirror.reset
  flt := Faults.reset
  regs := RegState.reset
  host := HostIf.reset
  pwr := Power.reset
  freeCtr := 0
  pending := p

/-- A firmware slot with nothing in it. -/
def FwSlot.empty : FwSlot := ⟨false, false, 0, 0, 0, 0x0100, 0x0100, 0⟩

/-- The calibration entries of one device (R466, log 3); the latency class holds the factory table with a range of zero. -/
def calibReset : List CalEntry :=
  factoryA1.map (fun e => ⟨e.1, e.2, 0, 0⟩) ++
  (List.range 80).map (fun i => ⟨0x1000 + i, 0, -8, 8⟩) ++
  (List.range 81).map (fun i => ⟨0x2000 + i, 0, -8, 8⟩) ++
  (List.range 8).map (fun i => ⟨0x3000 + i, 0, -8, 8⟩) ++
  (List.range 136).map (fun i => ⟨0x4000 + i, 0, -8, 8⟩)

/-- The device of State.reset: one module's OTP and firmware store (DESIGN CHOICE, log 3). -/
def Device.reset : Device where
  grade := .a
  stepping := .a1
  serial := 1
  factoryMap := List.range 64 ++ List.replicate 4 0xFE
  subst := []
  pkgSubst := []
  fwKeys := [some 1, none, none, none]
  progKeys := [none, none, none, none]
  fwRevoked := List.replicate 4 false
  progRevoked := List.replicate 4 false
  svnFuses := 0
  requireSignedFuse := false
  otpReadable := true
  cert := []
  calib := calibReset
  slotA := ⟨true, true, 1, 0, 1, 0x0100, 0x0100, 0⟩
  slotB := FwSlot.empty
  activeB := false
  savedOverlays := []

/-- The machine right after reset, before its boot sequence has run (R446, R448). -/
def State.reset : State := State.resetOf Device.reset []

end Sys2Proof.Machine
end

