-- ==== Sys2Proof/Machine/Regs.lean ====
section
/-! DEFINITION. The register map: one row per 32-bit register of R419 to R425 and of the other chapters' register tables, with its access, reset value, writable bits, idle-only flag, strobe group and block (R402 to R415). -/

namespace Sys2Proof.Machine

/-- Access kinds: RO, RW, WG, W1C, direct (R412), SL low and high words, and the writable SL pair of R405. -/
inductive RegAcc where
  | ro | rw | wg | w1c | direct | sl | slHi | slw | slwHi
  deriving DecidableEq, Repr

/-- One register of the map. `wmask` holds the bits a write can change (for W1C, the bits it can clear); `blk` tells the three blocks of group 7 apart. -/
structure RegRow where
  off : Nat
  acc : RegAcc
  reset : Nat
  wmask : Nat
  idleOnly : Bool
  group : Nat
  blk : Nat
  deriving DecidableEq, Repr

/-! ### Offsets: BAR0 offsets; array registers relative to their array block, port registers to their port, work-counter registers to their counter -/

abbrev Reg.MSK_STATUS : Nat := 0xD00000
abbrev Reg.MSK_QUEUE : Nat := 0xD00004
abbrev Reg.MSK_REPORT_BASE : Nat := 0xD00008
abbrev Reg.MSK_REPORT_SIZE : Nat := 0xD00010
abbrev Reg.MSK_REPORT_HEAD : Nat := 0xD00014
abbrev Reg.MSK_REPORT_LOST : Nat := 0xD00018
abbrev Reg.MSK_SHORTFALL : Nat := 0xD0001C
abbrev Reg.MSK_COMMITS : Nat := 0xD00020
abbrev Reg.MSK_QUEUE_WAIT : Nat := 0xD00024
abbrev Reg.MSK_WT_SEL : Nat := 0xD00028
abbrev Reg.MSK_WT_STATE : Nat := 0xD0002C
abbrev Reg.MSK_WT_GEN : Nat := 0xD00030
abbrev Reg.MSK_CVT_SAT : Nat := 0xD0004C
abbrev Reg.MSK_WT_VER0 : Nat := 0xD00034
abbrev Reg.MSK_WT_VER1 : Nat := 0xD00038
abbrev Reg.MSK_WT_VSTATE : Nat := 0xD0003C
abbrev Reg.MSK_VER_WAIT : Nat := 0xD00040
abbrev Reg.MSK_VER_WAIT_CYC : Nat := 0xD00044
abbrev Reg.ARR_FTQ_STATUS : Nat := 0x600
abbrev Reg.ARR_FTQ_STALL : Nat := 0x604
abbrev Reg.ARR_FTQ_STALL_CYC : Nat := 0x608
abbrev Reg.ARR_VEC_CVT_SAT : Nat := 0x610
abbrev Reg.ARR_VEC_PORT_WAIT : Nat := 0x614
abbrev Reg.ARR_VEC_TBL_WAIT : Nat := 0x61C
abbrev Reg.ARR_VEC_TBL_VALID : Nat := 0x620
abbrev Reg.ARR_VEC_BUSY : Nat := 0x624
abbrev Reg.UPD_CTRL : Nat := 0x400
abbrev Reg.UPD_CLIP : Nat := 0x404
abbrev Reg.UPD_ABSURD : Nat := 0x408
abbrev Reg.UPD_DEFER_LIMIT : Nat := 0x40C
abbrev Reg.UPD_TCOUNT : Nat := 0x410
abbrev Reg.UPD_NORM : Nat := 0x414
abbrev Reg.UPD_VERDICT : Nat := 0x418
abbrev Reg.UPD_SUPPRESSED : Nat := 0x41C
abbrev Reg.UPD_G2 : Nat := 0x420
abbrev Reg.ARR_UPD_STATUS : Nat := 0x700
abbrev Reg.ARR_UPD_CVT_SAT : Nat := 0x704
abbrev Reg.ARR_UPD_SAT : Nat := 0x708
abbrev Reg.ARR_UPD_DEFER : Nat := 0x70C
abbrev Reg.ARR_UPD_DEFER_CYC : Nat := 0x710
abbrev Reg.ARR_UPD_GB_WAIT : Nat := 0x718
abbrev Reg.ARR_UPD_VERDICT_WAIT : Nat := 0x71C
abbrev Reg.ARR_UPD_PORT_WAIT : Nat := 0x720
abbrev Reg.ARR_UPD_NORM : Nat := 0x724
abbrev Reg.TIR_STATUS : Nat := 0x800000
abbrev Reg.TIR_FAR_CFG : Nat := 0x800004
abbrev Reg.TIR_CHMAP_SEL : Nat := 0x800008
abbrev Reg.TIR_CHMAP : Nat := 0x80000C
abbrev Reg.TIR_DERATE : Nat := 0x800010
abbrev Reg.TIR_CE_LIMIT : Nat := 0x800014
abbrev Reg.TIR_PKG_SEL : Nat := 0x800018
abbrev Reg.TIR_PKG_CE : Nat := 0x80001C
abbrev Reg.TIR_PKG_UE : Nat := 0x800024
abbrev Reg.TIR_COPY_CTRL : Nat := 0x800028
abbrev Reg.TIR_COPY_PTR : Nat := 0x80002C
abbrev Reg.TIR_COPY_RATE : Nat := 0x800034
abbrev Reg.TIR_FAR_RMW : Nat := 0x800038
abbrev Reg.TIR_POISON : Nat := 0x800040
abbrev Reg.TIR_REGION_COUNT : Nat := 0x800044
abbrev Reg.TIR_STAGE_CTRL : Nat := 0x800100
abbrev Reg.TIR_STAGE_HORIZON : Nat := 0x800104
abbrev Reg.TIR_STAGE_SHARE : Nat := 0x800108
abbrev Reg.TIR_STAGE_LIMIT : Nat := 0x80010C
abbrev Reg.TIR_STAGED : Nat := 0x800110
abbrev Reg.TIR_EVICT : Nat := 0x800118
abbrev Reg.TIR_WRITEBACK : Nat := 0x800120
abbrev Reg.TIR_STAGE_HOLD : Nat := 0x800128
abbrev Reg.TIR_STAGE_HOLD_CYC : Nat := 0x80012C
abbrev Reg.TIR_MIGRATE : Nat := 0x800134
abbrev Reg.TIR_MISS : Nat := 0x800138
abbrev Reg.TIR_RECORDS : Nat := 0x80013C
abbrev Reg.ARR_NEAR_CE : Nat := 0x800
abbrev Reg.ARR_NEAR_UE : Nat := 0x804
abbrev Reg.ARR_WIN_FRAMES : Nat := 0x808
abbrev Reg.ARR_WIN_DIRTY : Nat := 0x80C
abbrev Reg.THY_STATUS : Nat := 0xA00000
abbrev Reg.THY_ROLE : Nat := 0xA00004
abbrev Reg.THY_PRIO : Nat := 0xA00008
abbrev Reg.THY_LEAD : Nat := 0xA0000C
abbrev Reg.THY_TICK : Nat := 0xA00010
abbrev Reg.THY_PERIOD : Nat := 0xA00018
abbrev Reg.THY_RATE : Nat := 0xA00020
abbrev Reg.THY_RATE_REQ : Nat := 0xA00024
abbrev Reg.THY_RATE_CAP : Nat := 0xA00028
abbrev Reg.THY_SLEW : Nat := 0xA0002C
abbrev Reg.THY_HOLDOVER_MAX : Nat := 0xA00030
abbrev Reg.THY_HOLD_REQ : Nat := 0xA00034
abbrev Reg.THY_HOLDS : Nat := 0xA00038
abbrev Reg.THY_HELD : Nat := 0xA0003C
abbrev Reg.THY_LATE : Nat := 0xA00044
abbrev Reg.THY_HOLD_LAST : Nat := 0xA00048
abbrev Reg.THY_PARENT : Nat := 0xA0004C
abbrev Reg.THY_MASTER_CHANGE : Nat := 0xA00050
abbrev Reg.THY_SNAP_CTRL : Nat := 0xA00054
abbrev Reg.THY_SNAP_TICK : Nat := 0xA00058
abbrev Reg.THY_SNAP_PERIOD : Nat := 0xA00060
abbrev Reg.THY_SNAP_TOD_S : Nat := 0xA00068
abbrev Reg.THY_SNAP_TOD_NS : Nat := 0xA00070
abbrev Reg.THY_TOD_SET_SL : Nat := 0xA00074
abbrev Reg.THY_TOD_SET_SH : Nat := 0xA00078
abbrev Reg.THY_TOD_SET_NS : Nat := 0xA0007C
abbrev Reg.THY_TOD_CTRL : Nat := 0xA00080
abbrev Reg.THY_TOD_IGNORED : Nat := 0xA00084
abbrev Reg.THY_UTC_OFS : Nat := 0xA00088
abbrev Reg.THY_PTP_CFG : Nat := 0xA0008C
abbrev Reg.THY_PTP_QUAL : Nat := 0xA00090
abbrev Reg.THY_PTP_PRIO : Nat := 0xA00094
abbrev Reg.THY_PTP_STATUS : Nat := 0xA00098
abbrev Reg.THY_PTP_PASSIVE : Nat := 0xA0009C
abbrev Reg.THY_OUT_CTRL : Nat := 0xA000A0
abbrev Reg.STP_STEP : Nat := 0x500
abbrev Reg.STP_BASE : Nat := 0x508
abbrev Reg.STP_BOUNDARIES : Nat := 0x510
abbrev Reg.STP_SKEW_WAIT : Nat := 0x514
abbrev Reg.STP_STATUS : Nat := 0x518
abbrev Reg.WCT_VALUE : Nat := 0x0
abbrev Reg.WCT_EXPECT : Nat := 0x8
abbrev Reg.WCT_CTRL : Nat := 0xC
abbrev Reg.WCT_GRANTS : Nat := 0x10
abbrev Reg.WCT_RETRIES : Nat := 0x14
abbrev Reg.WCT_WAITING : Nat := 0x18
abbrev Reg.ARR_STRM_STATUS : Nat := 0x900
abbrev Reg.ARR_STRM_SLOTS : Nat := 0x904
abbrev Reg.ARR_STRM_QUOTA : Nat := 0x908
abbrev Reg.ARR_F_PC : Nat := 0x90C
abbrev Reg.ARR_B_PC : Nat := 0x910
abbrev Reg.ARR_U_PC : Nat := 0x914
abbrev Reg.ARR_F_BASE : Nat := 0x918
abbrev Reg.ARR_B_BASE : Nat := 0x920
abbrev Reg.ARR_U_BASE : Nat := 0x928
abbrev Reg.ARR_STRM_AHEAD : Nat := 0x930
abbrev Reg.ARR_ISSUED : Nat := 0x934
abbrev Reg.ARR_SLOT_WAIT : Nat := 0x93C
abbrev Reg.ARR_DMAQ_WAIT : Nat := 0x940
abbrev Reg.ARR_SREG_WAIT : Nat := 0x944
abbrev Reg.DIG_STATUS : Nat := 0xC00
abbrev Reg.DIG_REQUESTS : Nat := 0xC04
abbrev Reg.DIG_QUEUE_WAIT : Nat := 0xC08
abbrev Reg.RNG_STATUS : Nat := 0xB00000
abbrev Reg.RNG_ADDR : Nat := 0xB00004
abbrev Reg.RNG_SIZE : Nat := 0xB00008
abbrev Reg.RNG_BAY_STATE : Nat := 0xB0000C
abbrev Reg.RNG_BAY_CTRL : Nat := 0xB00010
abbrev Reg.RNG_BAY_CHANGES : Nat := 0xB00014
abbrev Reg.RNG_CTX_FREE : Nat := 0xB00018
abbrev Reg.RNG_CTX_OPEN : Nat := 0xB0001C
abbrev Reg.RNG_CTX_LOST : Nat := 0xB00020
abbrev Reg.RNG_CTX_SEL : Nat := 0xB00024
abbrev Reg.RNG_CTX_STATE : Nat := 0xB00028
abbrev Reg.RNG_CTX_TIMEOUT : Nat := 0xB0002C
abbrev Reg.RNG_OPEN_LIMIT : Nat := 0xB00030
abbrev Reg.RNG_FILTERED : Nat := 0xB00034
abbrev Reg.RNG_BEACON_HOLD : Nat := 0xB00038
abbrev Reg.RNG_BEACON_WINDOW : Nat := 0xB0003C
abbrev Reg.RNG_BEACON_TX : Nat := 0xB00040
abbrev Reg.RNG_BEACON_MERGED : Nat := 0xB00044
abbrev Reg.RNG_BEACON_UNMERGED : Nat := 0xB00048
abbrev Reg.RNG_LOSS_SEL : Nat := 0xB0004C
abbrev Reg.RNG_LOSS_SUBJ : Nat := 0xB00050
abbrev Reg.RNG_LOSS_COUNT : Nat := 0xB00054
abbrev Reg.RNG_DISCARD : Nat := 0xB00058
abbrev Reg.RNG_ADD_WAIT : Nat := 0xB0005C
abbrev Reg.RNG_SENDQ_WAIT : Nat := 0xB00060
abbrev Reg.RNG_P_STATUS : Nat := 0x0
abbrev Reg.RNG_P_LANES : Nat := 0x4
abbrev Reg.RNG_P_SPARES : Nat := 0x8
abbrev Reg.RNG_P_FEC_CE : Nat := 0xC
abbrev Reg.RNG_P_FEC_UE : Nat := 0x14
abbrev Reg.RNG_P_CRC : Nat := 0x18
abbrev Reg.RNG_P_REPLAY : Nat := 0x1C
abbrev Reg.RNG_P_SWAPS : Nat := 0x20
abbrev Reg.RNG_P_DELAY : Nat := 0x24
abbrev Reg.RNG_P_SENDQ : Nat := 0x28
abbrev Reg.MIR_STATUS : Nat := 0xC00000
abbrev Reg.MIR_TWIN : Nat := 0xC00004
abbrev Reg.MIR_STEP_AGREED : Nat := 0xC00008
abbrev Reg.MIR_AGREE : Nat := 0xC00010
abbrev Reg.MIR_DIVERGE : Nat := 0xC00014
abbrev Reg.MIR_REPLAYS : Nat := 0xC00018
abbrev Reg.MIR_DIV_STEP : Nat := 0xC0001C
abbrev Reg.MIR_FWD_SKIP : Nat := 0xC00024
abbrev Reg.MIR_COPY_PTR : Nat := 0xC00028
abbrev Reg.MIR_COPY_RATE : Nat := 0xC00030
abbrev Reg.MIR_JRN_USED : Nat := 0xC00034
abbrev Reg.MIR_JRN_GENS : Nat := 0xC0003C
abbrev Reg.MIR_JRN_OLDEST : Nat := 0xC00040
abbrev Reg.MIR_SELFTEST : Nat := 0xC00048
abbrev Reg.MIR_FENCE : Nat := 0xC0004C
abbrev Reg.MIR_READY_TICK : Nat := 0xC00050
abbrev Reg.DET_STATUS : Nat := 0xD00
abbrev Reg.DET_CTRL : Nat := 0xD04
abbrev Reg.DET_NONDET : Nat := 0xD08
abbrev Reg.DET_ND_WCT : Nat := 0xD10
abbrev Reg.DET_ND_RING : Nat := 0xD14
abbrev Reg.DET_STRICT_REFUSED : Nat := 0xD18
abbrev Reg.DET_LAT_SEL : Nat := 0xD1C
abbrev Reg.DET_LAT_FACTORY : Nat := 0xD20
abbrev Reg.DET_LAT_DECLARED : Nat := 0xD24
abbrev Reg.DET_LAT_OVERRUN : Nat := 0xD28
abbrev Reg.DET_DECL_STEPPING : Nat := 0xD2C
abbrev Reg.DET_MISMATCH_ID : Nat := 0xD30
abbrev Reg.DET_MISMATCH_VAL : Nat := 0xD34
abbrev Reg.DET_PROG_DIGEST0 : Nat := 0xD40
abbrev Reg.DET_PROG_DIGEST1 : Nat := 0xD44
abbrev Reg.DET_PROG_DIGEST2 : Nat := 0xD48
abbrev Reg.DET_PROG_DIGEST3 : Nat := 0xD4C
abbrev Reg.DET_PROG_DIGEST4 : Nat := 0xD50
abbrev Reg.DET_PROG_DIGEST5 : Nat := 0xD54
abbrev Reg.DET_PROG_DIGEST6 : Nat := 0xD58
abbrev Reg.DET_PROG_DIGEST7 : Nat := 0xD5C
abbrev Reg.HST_STATE : Nat := 0x300
abbrev Reg.HST_BAR4_BASE : Nat := 0x304
abbrev Reg.HST_SEAL_ERR : Nat := 0x308
abbrev Reg.HST_BUSY_WRITE : Nat := 0x30C
abbrev Reg.HST_CMDS : Nat := 0x310
abbrev Reg.HST_PENDING : Nat := 0x314
abbrev Reg.HST_LINK : Nat := 0x318
abbrev Reg.HST_LINK_DOWN : Nat := 0x31C
abbrev Reg.HST_OWNER : Nat := 0x320
abbrev Reg.GLB_ID : Nat := 0x0
abbrev Reg.GLB_REV : Nat := 0x4
abbrev Reg.GLB_SERIAL : Nat := 0x8
abbrev Reg.GLB_IFVER : Nat := 0x10
abbrev Reg.GLB_CAP_ARRAYS : Nat := 0x14
abbrev Reg.GLB_CAP_FORMATS : Nat := 0x18
abbrev Reg.GLB_CAP_SPARSE : Nat := 0x1C
abbrev Reg.GLB_CAP_RING : Nat := 0x20
abbrev Reg.GLB_CAP_MEM : Nat := 0x24
abbrev Reg.GLB_CAP_LIMITS : Nat := 0x28
abbrev Reg.GLB_SPARE_SEL : Nat := 0x2C
abbrev Reg.GLB_SPARE_MAP : Nat := 0x30
abbrev Reg.GLB_STROBE : Nat := 0x100
abbrev Reg.GLB_STROBE_STATUS : Nat := 0x104
abbrev Reg.GLB_STROBE_CONFLICT_ADDR : Nat := 0x108
abbrev Reg.GLB_STROBE_CONFLICTS : Nat := 0x10C
abbrev Reg.GLB_CRC_CTRL : Nat := 0x110
abbrev Reg.GLB_CFG_CRC_REF : Nat := 0x114
abbrev Reg.GLB_CFG_CRC : Nat := 0x118
abbrev Reg.GLB_CRC_STATUS : Nat := 0x11C
abbrev Reg.GLB_CRC_SCRUBS : Nat := 0x120
abbrev Reg.GLB_GUARD_STATUS : Nat := 0x124
abbrev Reg.GLB_GUARD_ADDR : Nat := 0x128
abbrev Reg.GLB_GUARD_ERRS : Nat := 0x12C
abbrev Reg.GLB_GUARD_OPEN : Nat := 0x130
abbrev Reg.FLT_STATUS : Nat := 0xF00000
abbrev Reg.FLT_FIRST : Nat := 0xF00004
abbrev Reg.FLT_FIRST_PERIOD : Nat := 0xF00008
abbrev Reg.FLT_REC0 : Nat := 0xF00010
abbrev Reg.FLT_REC1 : Nat := 0xF00014
abbrev Reg.FLT_REC2 : Nat := 0xF00018
abbrev Reg.FLT_REC3 : Nat := 0xF0001C
abbrev Reg.FLT_REC4 : Nat := 0xF00020
abbrev Reg.FLT_REC5 : Nat := 0xF00024
abbrev Reg.FLT_REC6 : Nat := 0xF00028
abbrev Reg.FLT_REC7 : Nat := 0xF0002C
abbrev Reg.FLT_LAST : Nat := 0xF00030
abbrev Reg.FLT_COUNT : Nat := 0xF00034
abbrev Reg.FLT_EVENTS : Nat := 0xF00038
abbrev Reg.FLT_EVENTS_LOST : Nat := 0xF0003C
abbrev Reg.FLT_MODE : Nat := 0xF00040
abbrev Reg.FLT_EQ_HEAD : Nat := 0xF00044
abbrev Reg.FLT_EQ_TAIL : Nat := 0xF00048
abbrev Reg.ARR_STATUS : Nat := 0x0
abbrev Reg.ARR_ACC_SAT : Nat := 0x10
abbrev Reg.ARR_ACC_HAZARD : Nat := 0x14
abbrev Reg.ARR_ACC_HAZARD_CYC : Nat := 0x18
abbrev Reg.ARR_GB_SAT : Nat := 0x20
abbrev Reg.ARR_TSW0 : Nat := 0x100
abbrev Reg.DMA_STATUS : Nat := 0x600000
abbrev Reg.DMA_CODEC_WAIT : Nat := 0x600004
abbrev Reg.DMA_MASKED_DROP : Nat := 0x600008
abbrev Reg.DMA_LANE_SEL : Nat := 0x600010
abbrev Reg.DMA_LANE : Nat := 0x600014
abbrev Reg.FLT_EQ_SIZE : Nat := 0xF0004C
abbrev Reg.FLT_EVENTS_SUPPRESSED : Nat := 0xF00050
abbrev Reg.FLT_RATE : Nat := 0xF00054
abbrev Reg.FLT_IRQ_GAP : Nat := 0xF00058
abbrev Reg.FLT_AUTO_CTRL : Nat := 0xF0005C
abbrev Reg.FLT_AUTO_COUNT : Nat := 0xF00060
abbrev Reg.FLT_EQ_SEQ : Nat := 0xF00064
abbrev Reg.SEC_STATUS : Nat := 0xE00000
abbrev Reg.SEC_BOOT_STAGE : Nat := 0xE00004
abbrev Reg.SEC_FW_SLOT : Nat := 0xE00008
abbrev Reg.SEC_FW_VERSION : Nat := 0xE0000C
abbrev Reg.SEC_FW_SVN : Nat := 0xE00014
abbrev Reg.SEC_KEY_STATE : Nat := 0xE00018
abbrev Reg.SEC_REVOKE : Nat := 0xE0001C
abbrev Reg.SEC_POLICY : Nat := 0xE00020
abbrev Reg.SEC_SESSION_KEY0 : Nat := 0xE00024
abbrev Reg.SEC_SESSION_KEY1 : Nat := 0xE00028
abbrev Reg.SEC_SESSION_KEY2 : Nat := 0xE0002C
abbrev Reg.SEC_SESSION_KEY3 : Nat := 0xE00030
abbrev Reg.SEC_SESSION_KEY4 : Nat := 0xE00034
abbrev Reg.SEC_SESSION_KEY5 : Nat := 0xE00038
abbrev Reg.SEC_SESSION_KEY6 : Nat := 0xE0003C
abbrev Reg.SEC_SESSION_KEY7 : Nat := 0xE00040
abbrev Reg.SEC_RESET : Nat := 0xE00044
abbrev Reg.SEC_CERT_LEN : Nat := 0xE00048
abbrev Reg.CAL_SEL : Nat := 0xE00100
abbrev Reg.CAL_FACTORY : Nat := 0xE00104
abbrev Reg.CAL_RANGE : Nat := 0xE00108
abbrev Reg.CAL_USER : Nat := 0xE0010C
abbrev Reg.CAL_EFFECTIVE : Nat := 0xE00110
abbrev Reg.CAL_CLAMPED : Nat := 0xE00114
abbrev Reg.CAL_SAVE : Nat := 0xE00118
abbrev Reg.CAL_COUNT : Nat := 0xE0011C
abbrev Reg.SEC_CERT : Nat := 0xE01000
abbrev Reg.PWR_STATUS : Nat := 0x200
abbrev Reg.PWR_LIMIT : Nat := 0x204
abbrev Reg.PWR_INPUT : Nat := 0x208
abbrev Reg.PWR_TJ_MAX : Nat := 0x20C
abbrev Reg.PWR_TJ_THROTTLE : Nat := 0x210
abbrev Reg.PWR_COOLANT : Nat := 0x214
abbrev Reg.PWR_FLOW : Nat := 0x218
abbrev Reg.PWR_TRIP : Nat := 0x21C
abbrev Reg.PWR_THROTTLED : Nat := 0x220

/-- Registers of the global block (part). -/
def regsGlobal0 : List RegRow :=
  [⟨0x0, .ro, 0x4D427220, 0x0, false, 0, 0⟩,
   ⟨0x4, .ro, 0x0, 0x0, false, 0, 0⟩,
   ⟨0x8, .sl, 0x0, 0x0, false, 0, 0⟩,
   ⟨0xC, .slHi, 0x0, 0x0, false, 0, 0⟩,
   ⟨0x10, .ro, 0x1000100, 0x0, false, 0, 0⟩,
   ⟨0x14, .ro, 0x0, 0x0, false, 0, 0⟩,
   ⟨0x18, .ro, 0x7FF, 0x0, false, 0, 0⟩,
   ⟨0x1C, .ro, 0x100107, 0x0, false, 0, 0⟩,
   ⟨0x20, .ro, 0x20000540, 0x0, false, 0, 0⟩,
   ⟨0x24, .ro, 0x6003002, 0x0, false, 0, 0⟩,
   ⟨0x28, .ro, 0x40007D0, 0x0, false, 0, 0⟩,
   ⟨0x2C, .direct, 0x0, 0x7F, false, 0, 0⟩,
   ⟨0x30, .ro, 0x0, 0x0, false, 0, 0⟩,
   ⟨0x100, .direct, 0x0, 0xFF, false, 0, 0⟩,
   ⟨0x104, .w1c, 0x0, 0x1, false, 0, 0⟩,
   ⟨0x108, .ro, 0x0, 0x0, false, 0, 0⟩,
   ⟨0x10C, .ro, 0x0, 0x0, false, 0, 0⟩,
   ⟨0x110, .wg, 0x0, 0x1, false, 0, 0⟩,
   ⟨0x114, .wg, 0x0, 0xFFFFFFFF, false, 0, 0⟩,
   ⟨0x118, .ro, 0x0, 0x0, false, 0, 0⟩,
   ⟨0x11C, .w1c, 0x2, 0x4, false, 0, 0⟩,
   ⟨0x120, .ro, 0x0, 0x0, false, 0, 0⟩,
   ⟨0x124, .w1c, 0x0, 0x1, false, 0, 0⟩,
   ⟨0x128, .ro, 0x0, 0x0, false, 0, 0⟩]

/-- Registers of the global block (part). -/
def regsGlobal1 : List RegRow :=
  [⟨0x12C, .ro, 0x0, 0x0, false, 0, 0⟩,
   ⟨0x130, .ro, 0x0, 0x0, false, 0, 0⟩,
   ⟨0x200, .w1c, 0x0, 0x4, false, 0, 0⟩,
   ⟨0x204, .wg, 0x7D0, 0xFFFF, false, 0, 0⟩,
   ⟨0x208, .ro, 0x0, 0x0, false, 0, 0⟩,
   ⟨0x20C, .ro, 0x0, 0x0, false, 0, 0⟩,
   ⟨0x210, .rw, 0x5F0, 0xFFFF, false, 0, 0⟩,
   ⟨0x214, .ro, 0x0, 0x0, false, 0, 0⟩,
   ⟨0x218, .ro, 0x0, 0x0, false, 0, 0⟩,
   ⟨0x21C, .ro, 0x0, 0x0, false, 0, 0⟩,
   ⟨0x220, .ro, 0x0, 0x0, false, 0, 0⟩,
   ⟨0x300, .ro, 0x0, 0x0, false, 0, 0⟩,
   ⟨0x304, .rw, 0x0, 0x3FFFF, false, 0, 0⟩,
   ⟨0x308, .ro, 0x0, 0x0, false, 0, 0⟩,
   ⟨0x30C, .ro, 0x0, 0x0, false, 0, 0⟩,
   ⟨0x310, .ro, 0x0, 0x0, false, 0, 0⟩,
   ⟨0x314, .ro, 0x0, 0x0, false, 0, 0⟩,
   ⟨0x318, .ro, 0x0, 0x0, false, 0, 0⟩,
   ⟨0x31C, .ro, 0x0, 0x0, false, 0, 0⟩,
   ⟨0x320, .sl, 0x0, 0x0, false, 0, 0⟩,
   ⟨0x324, .slHi, 0x0, 0x0, false, 0, 0⟩,
   ⟨0x400, .rw, 0x0, 0x3, true, 0, 0⟩,
   ⟨0x404, .rw, 0x0, 0xFFFFFFFF, false, 0, 0⟩,
   ⟨0x408, .rw, 0x7F800000, 0xFFFFFFFF, false, 0, 0⟩]

/-- Registers of the global block (part). -/
def regsGlobal2 : List RegRow :=
  [⟨0x40C, .rw, 0x2000, 0xFFFFFFFF, false, 0, 0⟩,
   ⟨0x410, .rw, 0x0, 0xFFFFFFFF, true, 0, 0⟩,
   ⟨0x414, .ro, 0x0, 0x0, false, 0, 0⟩,
   ⟨0x418, .ro, 0x0, 0x0, false, 0, 0⟩,
   ⟨0x41C, .ro, 0x0, 0x0, false, 0, 0⟩,
   ⟨0x420, .sl, 0x0, 0x0, false, 0, 0⟩,
   ⟨0x424, .slHi, 0x0, 0x0, false, 0, 0⟩,
   ⟨0x500, .sl, 0x0, 0x0, false, 0, 0⟩,
   ⟨0x504, .slHi, 0x0, 0x0, false, 0, 0⟩,
   ⟨0x508, .sl, 0x0, 0x0, false, 0, 0⟩,
   ⟨0x50C, .slHi, 0x0, 0x0, false, 0, 0⟩,
   ⟨0x510, .ro, 0x0, 0x0, false, 0, 0⟩,
   ⟨0x514, .ro, 0x0, 0x0, false, 0, 0⟩,
   ⟨0x518, .ro, 0x0, 0x0, false, 0, 0⟩,
   ⟨0xC00, .ro, 0x0, 0x0, false, 0, 0⟩,
   ⟨0xC04, .ro, 0x0, 0x0, false, 0, 0⟩,
   ⟨0xC08, .ro, 0x0, 0x0, false, 0, 0⟩,
   ⟨0xD00, .w1c, 0x0, 0x6, false, 0, 0⟩,
   ⟨0xD04, .wg, 0x0, 0x1, true, 0, 0⟩,
   ⟨0xD08, .sl, 0x0, 0x0, false, 0, 0⟩,
   ⟨0xD0C, .slHi, 0x0, 0x0, false, 0, 0⟩,
   ⟨0xD10, .ro, 0x0, 0x0, false, 0, 0⟩,
   ⟨0xD14, .ro, 0x0, 0x0, false, 0, 0⟩,
   ⟨0xD18, .ro, 0x0, 0x0, false, 0, 0⟩]

/-- Registers of the global block (part). -/
def regsGlobal3 : List RegRow :=
  [⟨0xD1C, .direct, 0x0, 0xFFFF, false, 0, 0⟩,
   ⟨0xD20, .ro, 0x0, 0x0, false, 0, 0⟩,
   ⟨0xD24, .ro, 0x0, 0x0, false, 0, 0⟩,
   ⟨0xD28, .ro, 0x0, 0x0, false, 0, 0⟩,
   ⟨0xD2C, .ro, 0x0, 0x0, false, 0, 0⟩,
   ⟨0xD30, .ro, 0x0, 0x0, false, 0, 0⟩,
   ⟨0xD34, .ro, 0x0, 0x0, false, 0, 0⟩,
   ⟨0xD40, .ro, 0x0, 0x0, false, 0, 0⟩,
   ⟨0xD44, .ro, 0x0, 0x0, false, 0, 0⟩,
   ⟨0xD48, .ro, 0x0, 0x0, false, 0, 0⟩,
   ⟨0xD4C, .ro, 0x0, 0x0, false, 0, 0⟩,
   ⟨0xD50, .ro, 0x0, 0x0, false, 0, 0⟩,
   ⟨0xD54, .ro, 0x0, 0x0, false, 0, 0⟩,
   ⟨0xD58, .ro, 0x0, 0x0, false, 0, 0⟩,
   ⟨0xD5C, .ro, 0x0, 0x0, false, 0, 0⟩]

/-- Registers of the global block. -/
def regsGlobal : List RegRow := regsGlobal0 ++ regsGlobal1 ++ regsGlobal2 ++ regsGlobal3

/-- Registers of one work counter, relative to 0x0600 + 0x20 c (part). -/
def regsCounter0 : List RegRow :=
  [⟨0x0, .sl, 0x0, 0x0, false, 0, 0⟩,
   ⟨0x4, .slHi, 0x0, 0x0, false, 0, 0⟩,
   ⟨0x8, .ro, 0x0, 0x0, false, 0, 0⟩,
   ⟨0xC, .rw, 0x0, 0x1, true, 0, 0⟩,
   ⟨0x10, .ro, 0x0, 0x0, false, 0, 0⟩,
   ⟨0x14, .ro, 0x0, 0x0, false, 0, 0⟩,
   ⟨0x18, .ro, 0x0, 0x0, false, 0, 0⟩]

/-- Registers of one work counter, relative to 0x0600 + 0x20 c. -/
def regsCounter : List RegRow := regsCounter0

/-- Registers of one array block (part). -/
def regsArray0 : List RegRow :=
  [⟨0x0, .w1c, 0x0, 0xF, false, 1, 0⟩,
   ⟨0x10, .ro, 0x0, 0x0, false, 1, 0⟩,
   ⟨0x14, .ro, 0x0, 0x0, false, 1, 0⟩,
   ⟨0x18, .sl, 0x0, 0x0, false, 1, 0⟩,
   ⟨0x1C, .slHi, 0x0, 0x0, false, 1, 0⟩,
   ⟨0x20, .ro, 0x0, 0x0, false, 1, 0⟩,
   ⟨0x100, .ro, 0xFFC000, 0x0, false, 1, 0⟩,
   ⟨0x104, .ro, 0xFFC000, 0x0, false, 1, 0⟩,
   ⟨0x108, .ro, 0xFFC000, 0x0, false, 1, 0⟩,
   ⟨0x10C, .ro, 0xFFC000, 0x0, false, 1, 0⟩,
   ⟨0x110, .ro, 0xFFC000, 0x0, false, 1, 0⟩,
   ⟨0x114, .ro, 0xFFC000, 0x0, false, 1, 0⟩,
   ⟨0x118, .ro, 0xFFC000, 0x0, false, 1, 0⟩,
   ⟨0x11C, .ro, 0xFFC000, 0x0, false, 1, 0⟩,
   ⟨0x120, .ro, 0xFFC000, 0x0, false, 1, 0⟩,
   ⟨0x124, .ro, 0xFFC000, 0x0, false, 1, 0⟩,
   ⟨0x128, .ro, 0xFFC000, 0x0, false, 1, 0⟩,
   ⟨0x12C, .ro, 0xFFC000, 0x0, false, 1, 0⟩,
   ⟨0x130, .ro, 0xFFC000, 0x0, false, 1, 0⟩,
   ⟨0x134, .ro, 0xFFC000, 0x0, false, 1, 0⟩,
   ⟨0x138, .ro, 0xFFC000, 0x0, false, 1, 0⟩,
   ⟨0x13C, .ro, 0xFFC000, 0x0, false, 1, 0⟩,
   ⟨0x140, .ro, 0xFFC000, 0x0, false, 1, 0⟩,
   ⟨0x144, .ro, 0xFFC000, 0x0, false, 1, 0⟩]

/-- Registers of one array block (part). -/
def regsArray1 : List RegRow :=
  [⟨0x148, .ro, 0xFFC000, 0x0, false, 1, 0⟩,
   ⟨0x14C, .ro, 0xFFC000, 0x0, false, 1, 0⟩,
   ⟨0x150, .ro, 0xFFC000, 0x0, false, 1, 0⟩,
   ⟨0x154, .ro, 0xFFC000, 0x0, false, 1, 0⟩,
   ⟨0x158, .ro, 0xFFC000, 0x0, false, 1, 0⟩,
   ⟨0x15C, .ro, 0xFFC000, 0x0, false, 1, 0⟩,
   ⟨0x160, .ro, 0xFFC000, 0x0, false, 1, 0⟩,
   ⟨0x164, .ro, 0xFFC000, 0x0, false, 1, 0⟩,
   ⟨0x168, .ro, 0xFFC000, 0x0, false, 1, 0⟩,
   ⟨0x16C, .ro, 0xFFC000, 0x0, false, 1, 0⟩,
   ⟨0x170, .ro, 0xFFC000, 0x0, false, 1, 0⟩,
   ⟨0x174, .ro, 0xFFC000, 0x0, false, 1, 0⟩,
   ⟨0x178, .ro, 0xFFC000, 0x0, false, 1, 0⟩,
   ⟨0x17C, .ro, 0xFFC000, 0x0, false, 1, 0⟩,
   ⟨0x180, .ro, 0xFFC000, 0x0, false, 1, 0⟩,
   ⟨0x184, .ro, 0xFFC000, 0x0, false, 1, 0⟩,
   ⟨0x188, .ro, 0xFFC000, 0x0, false, 1, 0⟩,
   ⟨0x18C, .ro, 0xFFC000, 0x0, false, 1, 0⟩,
   ⟨0x190, .ro, 0xFFC000, 0x0, false, 1, 0⟩,
   ⟨0x194, .ro, 0xFFC000, 0x0, false, 1, 0⟩,
   ⟨0x198, .ro, 0xFFC000, 0x0, false, 1, 0⟩,
   ⟨0x19C, .ro, 0xFFC000, 0x0, false, 1, 0⟩,
   ⟨0x1A0, .ro, 0xFFC000, 0x0, false, 1, 0⟩,
   ⟨0x1A4, .ro, 0xFFC000, 0x0, false, 1, 0⟩]

/-- Registers of one array block (part). -/
def regsArray2 : List RegRow :=
  [⟨0x1A8, .ro, 0xFFC000, 0x0, false, 1, 0⟩,
   ⟨0x1AC, .ro, 0xFFC000, 0x0, false, 1, 0⟩,
   ⟨0x1B0, .ro, 0xFFC000, 0x0, false, 1, 0⟩,
   ⟨0x1B4, .ro, 0xFFC000, 0x0, false, 1, 0⟩,
   ⟨0x1B8, .ro, 0xFFC000, 0x0, false, 1, 0⟩,
   ⟨0x1BC, .ro, 0xFFC000, 0x0, false, 1, 0⟩,
   ⟨0x1C0, .ro, 0xFFC000, 0x0, false, 1, 0⟩,
   ⟨0x1C4, .ro, 0xFFC000, 0x0, false, 1, 0⟩,
   ⟨0x1C8, .ro, 0xFFC000, 0x0, false, 1, 0⟩,
   ⟨0x1CC, .ro, 0xFFC000, 0x0, false, 1, 0⟩,
   ⟨0x1D0, .ro, 0xFFC000, 0x0, false, 1, 0⟩,
   ⟨0x1D4, .ro, 0xFFC000, 0x0, false, 1, 0⟩,
   ⟨0x1D8, .ro, 0xFFC000, 0x0, false, 1, 0⟩,
   ⟨0x1DC, .ro, 0xFFC000, 0x0, false, 1, 0⟩,
   ⟨0x1E0, .ro, 0xFFC000, 0x0, false, 1, 0⟩,
   ⟨0x1E4, .ro, 0xFFC000, 0x0, false, 1, 0⟩,
   ⟨0x1E8, .ro, 0xFFC000, 0x0, false, 1, 0⟩,
   ⟨0x1EC, .ro, 0xFFC000, 0x0, false, 1, 0⟩,
   ⟨0x1F0, .ro, 0xFFC000, 0x0, false, 1, 0⟩,
   ⟨0x1F4, .ro, 0xFFC000, 0x0, false, 1, 0⟩,
   ⟨0x1F8, .ro, 0xFFC000, 0x0, false, 1, 0⟩,
   ⟨0x1FC, .ro, 0xFFC000, 0x0, false, 1, 0⟩,
   ⟨0x600, .ro, 0x0, 0x0, false, 1, 0⟩,
   ⟨0x604, .ro, 0x0, 0x0, false, 1, 0⟩]

/-- Registers of one array block (part). -/
def regsArray3 : List RegRow :=
  [⟨0x608, .sl, 0x0, 0x0, false, 1, 0⟩,
   ⟨0x60C, .slHi, 0x0, 0x0, false, 1, 0⟩,
   ⟨0x610, .ro, 0x0, 0x0, false, 1, 0⟩,
   ⟨0x614, .sl, 0x0, 0x0, false, 1, 0⟩,
   ⟨0x618, .slHi, 0x0, 0x0, false, 1, 0⟩,
   ⟨0x61C, .ro, 0x0, 0x0, false, 1, 0⟩,
   ⟨0x620, .ro, 0x0, 0x0, false, 1, 0⟩,
   ⟨0x624, .ro, 0x0, 0x0, false, 1, 0⟩,
   ⟨0x700, .ro, 0x0, 0x0, false, 1, 0⟩,
   ⟨0x704, .ro, 0x0, 0x0, false, 1, 0⟩,
   ⟨0x708, .ro, 0x0, 0x0, false, 1, 0⟩,
   ⟨0x70C, .ro, 0x0, 0x0, false, 1, 0⟩,
   ⟨0x710, .sl, 0x0, 0x0, false, 1, 0⟩,
   ⟨0x714, .slHi, 0x0, 0x0, false, 1, 0⟩,
   ⟨0x718, .ro, 0x0, 0x0, false, 1, 0⟩,
   ⟨0x71C, .ro, 0x0, 0x0, false, 1, 0⟩,
   ⟨0x720, .ro, 0x0, 0x0, false, 1, 0⟩,
   ⟨0x724, .sl, 0x0, 0x0, false, 1, 0⟩,
   ⟨0x728, .slHi, 0x0, 0x0, false, 1, 0⟩,
   ⟨0x800, .ro, 0x0, 0x0, false, 1, 0⟩,
   ⟨0x804, .ro, 0x0, 0x0, false, 1, 0⟩,
   ⟨0x808, .ro, 0x0, 0x0, false, 1, 0⟩,
   ⟨0x80C, .ro, 0x0, 0x0, false, 1, 0⟩,
   ⟨0x900, .ro, 0x0, 0x0, false, 1, 0⟩]

/-- Registers of one array block (part). -/
def regsArray4 : List RegRow :=
  [⟨0x904, .ro, 0x0, 0x0, false, 1, 0⟩,
   ⟨0x908, .ro, 0x0, 0x0, false, 1, 0⟩,
   ⟨0x90C, .ro, 0x0, 0x0, false, 1, 0⟩,
   ⟨0x910, .ro, 0x0, 0x0, false, 1, 0⟩,
   ⟨0x914, .ro, 0x0, 0x0, false, 1, 0⟩,
   ⟨0x918, .sl, 0x0, 0x0, false, 1, 0⟩,
   ⟨0x91C, .slHi, 0x0, 0x0, false, 1, 0⟩,
   ⟨0x920, .sl, 0x0, 0x0, false, 1, 0⟩,
   ⟨0x924, .slHi, 0x0, 0x0, false, 1, 0⟩,
   ⟨0x928, .sl, 0x0, 0x0, false, 1, 0⟩,
   ⟨0x92C, .slHi, 0x0, 0x0, false, 1, 0⟩,
   ⟨0x930, .ro, 0x0, 0x0, false, 1, 0⟩,
   ⟨0x934, .sl, 0x0, 0x0, false, 1, 0⟩,
   ⟨0x938, .slHi, 0x0, 0x0, false, 1, 0⟩,
   ⟨0x93C, .ro, 0x0, 0x0, false, 1, 0⟩,
   ⟨0x940, .ro, 0x0, 0x0, false, 1, 0⟩,
   ⟨0x944, .ro, 0x0, 0x0, false, 1, 0⟩]

/-- Registers of one array block. -/
def regsArray : List RegRow := regsArray0 ++ regsArray1 ++ regsArray2 ++ regsArray3 ++ regsArray4

/-- Registers of the DMA and codec block (part). -/
def regsDma0 : List RegRow :=
  [⟨0x600000, .w1c, 0x0, 0x2, false, 2, 0⟩,
   ⟨0x600004, .ro, 0x0, 0x0, false, 2, 0⟩,
   ⟨0x600008, .sl, 0x0, 0x0, false, 2, 0⟩,
   ⟨0x60000C, .slHi, 0x0, 0x0, false, 2, 0⟩,
   ⟨0x600010, .direct, 0x0, 0x7F, false, 2, 0⟩,
   ⟨0x600014, .ro, 0x0, 0x0, false, 2, 0⟩]

/-- Registers of the DMA and codec block. -/
def regsDma : List RegRow := regsDma0

/-- Registers of the tier and placement block (part). -/
def regsTiers0 : List RegRow :=
  [⟨0x800000, .w1c, 0x0, 0x1E, false, 3, 0⟩,
   ⟨0x800004, .ro, 0x230, 0x0, false, 3, 0⟩,
   ⟨0x800008, .direct, 0x0, 0x3F, false, 3, 0⟩,
   ⟨0x80000C, .ro, 0x0, 0x0, false, 3, 0⟩,
   ⟨0x800010, .ro, 0xF209, 0x0, false, 3, 0⟩,
   ⟨0x800014, .rw, 0x1000, 0xFFFFFFFF, false, 3, 0⟩,
   ⟨0x800018, .direct, 0x0, 0x3F, false, 3, 0⟩,
   ⟨0x80001C, .sl, 0x0, 0x0, false, 3, 0⟩,
   ⟨0x800020, .slHi, 0x0, 0x0, false, 3, 0⟩,
   ⟨0x800024, .ro, 0x0, 0x0, false, 3, 0⟩,
   ⟨0x800028, .wg, 0x0, 0x8000003F, false, 3, 0⟩,
   ⟨0x80002C, .sl, 0x0, 0x0, false, 3, 0⟩,
   ⟨0x800030, .slHi, 0x0, 0x0, false, 3, 0⟩,
   ⟨0x800034, .rw, 0x1000, 0xFFFFFFFF, false, 3, 0⟩,
   ⟨0x800038, .sl, 0x0, 0x0, false, 3, 0⟩,
   ⟨0x80003C, .slHi, 0x0, 0x0, false, 3, 0⟩,
   ⟨0x800040, .ro, 0x0, 0x0, false, 3, 0⟩,
   ⟨0x800044, .ro, 0x0, 0x0, false, 3, 0⟩,
   ⟨0x800100, .rw, 0x1, 0x1, false, 3, 0⟩,
   ⟨0x800104, .rw, 0x200, 0xFFFFFFFF, false, 3, 0⟩,
   ⟨0x800108, .rw, 0x10000, 0xFFFFFFFF, false, 3, 0⟩,
   ⟨0x80010C, .rw, 0x2000, 0xFFFFFFFF, false, 3, 0⟩,
   ⟨0x800110, .sl, 0x0, 0x0, false, 3, 0⟩,
   ⟨0x800114, .slHi, 0x0, 0x0, false, 3, 0⟩]

/-- Registers of the tier and placement block (part). -/
def regsTiers1 : List RegRow :=
  [⟨0x800118, .sl, 0x0, 0x0, false, 3, 0⟩,
   ⟨0x80011C, .slHi, 0x0, 0x0, false, 3, 0⟩,
   ⟨0x800120, .sl, 0x0, 0x0, false, 3, 0⟩,
   ⟨0x800124, .slHi, 0x0, 0x0, false, 3, 0⟩,
   ⟨0x800128, .ro, 0x0, 0x0, false, 3, 0⟩,
   ⟨0x80012C, .sl, 0x0, 0x0, false, 3, 0⟩,
   ⟨0x800130, .slHi, 0x0, 0x0, false, 3, 0⟩,
   ⟨0x800134, .ro, 0x0, 0x0, false, 3, 0⟩,
   ⟨0x800138, .ro, 0x0, 0x0, false, 3, 0⟩,
   ⟨0x80013C, .ro, 0x0, 0x0, false, 3, 0⟩]

/-- Registers of the tier and placement block. -/
def regsTiers : List RegRow := regsTiers0 ++ regsTiers1

/-- Registers of the Thyme block (part). -/
def regsThyme0 : List RegRow :=
  [⟨0xA00000, .w1c, 0x8, 0x30, false, 4, 0⟩,
   ⟨0xA00004, .ro, 0x1, 0x0, false, 4, 0⟩,
   ⟨0xA00008, .wg, 0x80, 0xFF, false, 4, 0⟩,
   ⟨0xA0000C, .ro, 0x4, 0x0, false, 4, 0⟩,
   ⟨0xA00010, .sl, 0x0, 0x0, false, 4, 0⟩,
   ⟨0xA00014, .slHi, 0x0, 0x0, false, 4, 0⟩,
   ⟨0xA00018, .sl, 0x0, 0x0, false, 4, 0⟩,
   ⟨0xA0001C, .slHi, 0x0, 0x0, false, 4, 0⟩,
   ⟨0xA00020, .ro, 0x400040, 0x0, false, 4, 0⟩,
   ⟨0xA00024, .ro, 0x40, 0x0, false, 4, 0⟩,
   ⟨0xA00028, .wg, 0x40, 0x7F, false, 4, 0⟩,
   ⟨0xA0002C, .rw, 0x20000004, 0xFFFFFFFF, false, 4, 0⟩,
   ⟨0xA00030, .rw, 0x7D2B75, 0xFFFFFFFF, false, 4, 0⟩,
   ⟨0xA00034, .ro, 0x0, 0x0, false, 4, 0⟩,
   ⟨0xA00038, .ro, 0x0, 0x0, false, 4, 0⟩,
   ⟨0xA0003C, .sl, 0x0, 0x0, false, 4, 0⟩,
   ⟨0xA00040, .slHi, 0x0, 0x0, false, 4, 0⟩,
   ⟨0xA00044, .ro, 0x0, 0x0, false, 4, 0⟩,
   ⟨0xA00048, .ro, 0x0, 0x0, false, 4, 0⟩,
   ⟨0xA0004C, .ro, 0x7, 0x0, false, 4, 0⟩,
   ⟨0xA00050, .ro, 0x0, 0x0, false, 4, 0⟩,
   ⟨0xA00054, .rw, 0x0, 0x1, false, 4, 0⟩,
   ⟨0xA00058, .sl, 0x0, 0x0, false, 4, 0⟩,
   ⟨0xA0005C, .slHi, 0x0, 0x0, false, 4, 0⟩]

/-- Registers of the Thyme block (part). -/
def regsThyme1 : List RegRow :=
  [⟨0xA00060, .sl, 0x0, 0x0, false, 4, 0⟩,
   ⟨0xA00064, .slHi, 0x0, 0x0, false, 4, 0⟩,
   ⟨0xA00068, .sl, 0x0, 0x0, false, 4, 0⟩,
   ⟨0xA0006C, .slHi, 0x0, 0x0, false, 4, 0⟩,
   ⟨0xA00070, .ro, 0x0, 0x0, false, 4, 0⟩,
   ⟨0xA00074, .rw, 0x0, 0xFFFFFFFF, false, 4, 0⟩,
   ⟨0xA00078, .rw, 0x0, 0xFFFF, false, 4, 0⟩,
   ⟨0xA0007C, .rw, 0x0, 0xFFFFFFFF, false, 4, 0⟩,
   ⟨0xA00080, .wg, 0x0, 0x1, false, 4, 0⟩,
   ⟨0xA00084, .ro, 0x0, 0x0, false, 4, 0⟩,
   ⟨0xA00088, .rw, 0x25, 0xFFFF, false, 4, 0⟩,
   ⟨0xA0008C, .rw, 0x0, 0x8380FFFF, true, 4, 0⟩,
   ⟨0xA00090, .rw, 0xF8FEFFFF, 0xFFFFFFFF, false, 4, 0⟩,
   ⟨0xA00094, .rw, 0x8080, 0xFFFF, false, 4, 0⟩,
   ⟨0xA00098, .ro, 0x0, 0x0, false, 4, 0⟩,
   ⟨0xA0009C, .ro, 0x0, 0x0, false, 4, 0⟩,
   ⟨0xA000A0, .rw, 0x3, 0x3, false, 4, 0⟩]

/-- Registers of the Thyme block. -/
def regsThyme : List RegRow := regsThyme0 ++ regsThyme1

/-- Registers of the ring block (part). -/
def regsRing0 : List RegRow :=
  [⟨0xB00000, .w1c, 0x0, 0x78, false, 5, 0⟩,
   ⟨0xB00004, .ro, 0x0, 0x0, false, 5, 0⟩,
   ⟨0xB00008, .ro, 0x101, 0x0, false, 5, 0⟩,
   ⟨0xB0000C, .ro, 0x0, 0x0, false, 5, 0⟩,
   ⟨0xB00010, .wg, 0x0, 0x7, false, 5, 0⟩,
   ⟨0xB00014, .ro, 0x0, 0x0, false, 5, 0⟩,
   ⟨0xB00018, .ro, 0x2000, 0x0, false, 5, 0⟩,
   ⟨0xB0001C, .ro, 0x0, 0x0, false, 5, 0⟩,
   ⟨0xB00020, .ro, 0x0, 0x0, false, 5, 0⟩,
   ⟨0xB00024, .direct, 0x0, 0x1FFF, false, 5, 0⟩,
   ⟨0xB00028, .ro, 0x0, 0x0, false, 5, 0⟩,
   ⟨0xB0002C, .rw, 0x2000, 0xFFFFFFFF, false, 5, 0⟩,
   ⟨0xB00030, .rw, 0x100000, 0xFFFFFFFF, false, 5, 0⟩,
   ⟨0xB00034, .ro, 0x0, 0x0, false, 5, 0⟩,
   ⟨0xB00038, .rw, 0x8, 0xFFFFFFFF, false, 5, 0⟩,
   ⟨0xB0003C, .rw, 0x400, 0xFFFFFFFF, false, 5, 0⟩,
   ⟨0xB00040, .ro, 0x0, 0x0, false, 5, 0⟩,
   ⟨0xB00044, .ro, 0x0, 0x0, false, 5, 0⟩,
   ⟨0xB00048, .ro, 0x0, 0x0, false, 5, 0⟩,
   ⟨0xB0004C, .direct, 0x0, 0x3F, false, 5, 0⟩,
   ⟨0xB00050, .ro, 0x0, 0x0, false, 5, 0⟩,
   ⟨0xB00054, .ro, 0x0, 0x0, false, 5, 0⟩,
   ⟨0xB00058, .ro, 0x0, 0x0, false, 5, 0⟩,
   ⟨0xB0005C, .ro, 0x0, 0x0, false, 5, 0⟩]

/-- Registers of the ring block (part). -/
def regsRing1 : List RegRow :=
  [⟨0xB00060, .ro, 0x0, 0x0, false, 5, 0⟩]

/-- Registers of the ring block. -/
def regsRing : List RegRow := regsRing0 ++ regsRing1

/-- Registers of one ring or mirror port, relative to its base (part). -/
def regsPort0 : List RegRow :=
  [⟨0x0, .ro, 0x0, 0x0, false, 5, 0⟩,
   ⟨0x4, .ro, 0x0, 0x0, false, 5, 0⟩,
   ⟨0x8, .ro, 0x0, 0x0, false, 5, 0⟩,
   ⟨0xC, .sl, 0x0, 0x0, false, 5, 0⟩,
   ⟨0x10, .slHi, 0x0, 0x0, false, 5, 0⟩,
   ⟨0x14, .ro, 0x0, 0x0, false, 5, 0⟩,
   ⟨0x18, .ro, 0x0, 0x0, false, 5, 0⟩,
   ⟨0x1C, .ro, 0x0, 0x0, false, 5, 0⟩,
   ⟨0x20, .ro, 0x0, 0x0, false, 5, 0⟩,
   ⟨0x24, .ro, 0x0, 0x0, false, 5, 0⟩,
   ⟨0x28, .ro, 0x0, 0x0, false, 5, 0⟩]

/-- Registers of one ring or mirror port, relative to its base. -/
def regsPort : List RegRow := regsPort0

/-- Registers of the mirror block (part). -/
def regsMirror0 : List RegRow :=
  [⟨0xC00000, .w1c, 0x0, 0x70, false, 6, 0⟩,
   ⟨0xC00004, .ro, 0x0, 0x0, false, 6, 0⟩,
   ⟨0xC00008, .sl, 0x0, 0x0, false, 6, 0⟩,
   ⟨0xC0000C, .slHi, 0x0, 0x0, false, 6, 0⟩,
   ⟨0xC00010, .ro, 0x0, 0x0, false, 6, 0⟩,
   ⟨0xC00014, .ro, 0x0, 0x0, false, 6, 0⟩,
   ⟨0xC00018, .ro, 0x0, 0x0, false, 6, 0⟩,
   ⟨0xC0001C, .sl, 0x0, 0x0, false, 6, 0⟩,
   ⟨0xC00020, .slHi, 0x0, 0x0, false, 6, 0⟩,
   ⟨0xC00024, .ro, 0x0, 0x0, false, 6, 0⟩,
   ⟨0xC00028, .sl, 0x0, 0x0, false, 6, 0⟩,
   ⟨0xC0002C, .slHi, 0x0, 0x0, false, 6, 0⟩,
   ⟨0xC00030, .rw, 0x10000, 0xFFFFFFFF, false, 6, 0⟩,
   ⟨0xC00034, .sl, 0x0, 0x0, false, 6, 0⟩,
   ⟨0xC00038, .slHi, 0x0, 0x0, false, 6, 0⟩,
   ⟨0xC0003C, .ro, 0x0, 0x0, false, 6, 0⟩,
   ⟨0xC00040, .sl, 0x0, 0x0, false, 6, 0⟩,
   ⟨0xC00044, .slHi, 0x0, 0x0, false, 6, 0⟩,
   ⟨0xC00048, .ro, 0x0, 0x0, false, 6, 0⟩,
   ⟨0xC0004C, .wg, 0x0, 0x1, false, 6, 0⟩,
   ⟨0xC00050, .sl, 0x0, 0x0, false, 6, 0⟩,
   ⟨0xC00054, .slHi, 0x0, 0x0, false, 6, 0⟩]

/-- Registers of the mirror block. -/
def regsMirror : List RegRow := regsMirror0

/-- Registers of the mask engine block (part). -/
def regsMask0 : List RegRow :=
  [⟨0xD00000, .w1c, 0x0, 0x6, false, 7, 0⟩,
   ⟨0xD00004, .ro, 0x0, 0x0, false, 7, 0⟩,
   ⟨0xD00008, .slw, 0x0, 0xFFFFFFFF, false, 7, 0⟩,
   ⟨0xD0000C, .slwHi, 0x0, 0xFFFFFFFF, false, 7, 0⟩,
   ⟨0xD00010, .rw, 0x0, 0xFFFFFFFF, true, 7, 0⟩,
   ⟨0xD00014, .ro, 0x0, 0x0, false, 7, 0⟩,
   ⟨0xD00018, .ro, 0x0, 0x0, false, 7, 0⟩,
   ⟨0xD0001C, .ro, 0x0, 0x0, false, 7, 0⟩,
   ⟨0xD00020, .ro, 0x0, 0x0, false, 7, 0⟩,
   ⟨0xD00024, .ro, 0x0, 0x0, false, 7, 0⟩,
   ⟨0xD00028, .direct, 0x0, 0xFFFF, false, 7, 0⟩,
   ⟨0xD0002C, .ro, 0x0, 0x0, false, 7, 0⟩,
   ⟨0xD00030, .ro, 0x0, 0x0, false, 7, 0⟩,
   ⟨0xD00034, .ro, 0x0, 0x0, false, 7, 0⟩,
   ⟨0xD00038, .ro, 0x0, 0x0, false, 7, 0⟩,
   ⟨0xD0003C, .ro, 0x0, 0x0, false, 7, 0⟩,
   ⟨0xD00040, .ro, 0x0, 0x0, false, 7, 0⟩,
   ⟨0xD00044, .sl, 0x0, 0x0, false, 7, 0⟩,
   ⟨0xD00048, .slHi, 0x0, 0x0, false, 7, 0⟩,
   ⟨0xD0004C, .ro, 0x0, 0x0, false, 7, 0⟩]

/-- Registers of the mask engine block. -/
def regsMask : List RegRow := regsMask0

/-- Registers of the security and calibration block (part). -/
def regsSec0 : List RegRow :=
  [⟨0xE00000, .w1c, 0x0, 0x18, false, 7, 1⟩,
   ⟨0xE00004, .ro, 0x1, 0x0, false, 7, 1⟩,
   ⟨0xE00008, .ro, 0x0, 0x0, false, 7, 1⟩,
   ⟨0xE0000C, .sl, 0x0, 0x0, false, 7, 1⟩,
   ⟨0xE00010, .slHi, 0x0, 0x0, false, 7, 1⟩,
   ⟨0xE00014, .ro, 0x0, 0x0, false, 7, 1⟩,
   ⟨0xE00018, .ro, 0x0, 0x0, false, 7, 1⟩,
   ⟨0xE0001C, .wg, 0x0, 0xFF, false, 7, 1⟩,
   ⟨0xE00020, .wg, 0x0, 0x1, true, 7, 1⟩,
   ⟨0xE00024, .rw, 0x0, 0xFFFFFFFF, false, 7, 1⟩,
   ⟨0xE00028, .rw, 0x0, 0xFFFFFFFF, false, 7, 1⟩,
   ⟨0xE0002C, .rw, 0x0, 0xFFFFFFFF, false, 7, 1⟩,
   ⟨0xE00030, .rw, 0x0, 0xFFFFFFFF, false, 7, 1⟩,
   ⟨0xE00034, .rw, 0x0, 0xFFFFFFFF, false, 7, 1⟩,
   ⟨0xE00038, .rw, 0x0, 0xFFFFFFFF, false, 7, 1⟩,
   ⟨0xE0003C, .rw, 0x0, 0xFFFFFFFF, false, 7, 1⟩,
   ⟨0xE00040, .rw, 0x0, 0xFFFFFFFF, false, 7, 1⟩,
   ⟨0xE00044, .wg, 0x0, 0x1, false, 7, 1⟩,
   ⟨0xE00048, .ro, 0x0, 0x0, false, 7, 1⟩,
   ⟨0xE00100, .direct, 0x0, 0xFFFF, false, 7, 1⟩,
   ⟨0xE00104, .ro, 0x0, 0x0, false, 7, 1⟩,
   ⟨0xE00108, .ro, 0x0, 0x0, false, 7, 1⟩,
   ⟨0xE0010C, .rw, 0x0, 0xFFFF, false, 7, 1⟩,
   ⟨0xE00110, .ro, 0x0, 0x0, false, 7, 1⟩]

/-- Registers of the security and calibration block (part). -/
def regsSec1 : List RegRow :=
  [⟨0xE00114, .ro, 0x0, 0x0, false, 7, 1⟩,
   ⟨0xE00118, .wg, 0x0, 0x1, false, 7, 1⟩,
   ⟨0xE0011C, .ro, 0x0, 0x0, false, 7, 1⟩]

/-- Registers of the security and calibration block. -/
def regsSec : List RegRow := regsSec0 ++ regsSec1

/-- Registers of the fault and event block (part). -/
def regsFault0 : List RegRow :=
  [⟨0xF00000, .w1c, 0x0, 0x7, false, 7, 2⟩,
   ⟨0xF00004, .ro, 0x0, 0x0, false, 7, 2⟩,
   ⟨0xF00008, .sl, 0x0, 0x0, false, 7, 2⟩,
   ⟨0xF0000C, .slHi, 0x0, 0x0, false, 7, 2⟩,
   ⟨0xF00010, .ro, 0x0, 0x0, false, 7, 2⟩,
   ⟨0xF00014, .ro, 0x0, 0x0, false, 7, 2⟩,
   ⟨0xF00018, .ro, 0x0, 0x0, false, 7, 2⟩,
   ⟨0xF0001C, .ro, 0x0, 0x0, false, 7, 2⟩,
   ⟨0xF00020, .ro, 0x0, 0x0, false, 7, 2⟩,
   ⟨0xF00024, .ro, 0x0, 0x0, false, 7, 2⟩,
   ⟨0xF00028, .ro, 0x0, 0x0, false, 7, 2⟩,
   ⟨0xF0002C, .ro, 0x0, 0x0, false, 7, 2⟩,
   ⟨0xF00030, .ro, 0x0, 0x0, false, 7, 2⟩,
   ⟨0xF00034, .ro, 0x0, 0x0, false, 7, 2⟩,
   ⟨0xF00038, .ro, 0x0, 0x0, false, 7, 2⟩,
   ⟨0xF0003C, .ro, 0x0, 0x0, false, 7, 2⟩,
   ⟨0xF00040, .ro, 0x0, 0x0, false, 7, 2⟩,
   ⟨0xF00044, .ro, 0x0, 0x0, false, 7, 2⟩,
   ⟨0xF00048, .direct, 0x0, 0xFFFFFFFF, false, 7, 2⟩,
   ⟨0xF0004C, .ro, 0x0, 0x0, false, 7, 2⟩,
   ⟨0xF00050, .ro, 0x0, 0x0, false, 7, 2⟩,
   ⟨0xF00054, .rw, 0x10, 0xFFFF, false, 7, 2⟩,
   ⟨0xF00058, .rw, 0x1000, 0xFFFFFFFF, false, 7, 2⟩,
   ⟨0xF0005C, .rw, 0x10000002, 0xFFFF00FF, false, 7, 2⟩]

/-- Registers of the fault and event block (part). -/
def regsFault1 : List RegRow :=
  [⟨0xF00060, .ro, 0x0, 0x0, false, 7, 2⟩,
   ⟨0xF00064, .ro, 0x0, 0x0, false, 7, 2⟩]

/-- Registers of the fault and event block. -/
def regsFault : List RegRow := regsFault0 ++ regsFault1

/-- Base of the array block of physical position p (R419). -/
def arrBase (p : Nat) : Nat := 0x100000 + p * 0x10000

/-- Base of the registers of port p of the ring block. -/
def portBase (p : Nat) : Nat := 0xB00100 + p * 0x40

/-- Base of the registers of work counter c. -/
def wctBase (c : Nat) : Nat := 0x600 + 0x20 * c

/-- The row of a list with this offset. -/
def findRow (rs : List RegRow) (off : Nat) : Option RegRow := rs.find? (fun r => r.off == off)

/-- The map row of a BAR0 offset; `none` where no register lies (R402). The row keeps the relative offset of repeated blocks. -/
def regRow (off : Nat) : Option RegRow :=
  if 0x600 ≤ off && off < 0x800 then findRow regsCounter ((off - 0x600) % 0x20)
  else if off < 0x100000 then findRow regsGlobal off
  else if off < 0x540000 then findRow regsArray ((off - 0x100000) % 0x10000)
  else if 0xB00100 ≤ off && off < 0xB00240 then findRow regsPort ((off - 0xB00100) % 0x40)
  else if off < 0x800000 then findRow regsDma off
  else if off < 0xA00000 then findRow regsTiers off
  else if off < 0xB00000 then findRow regsThyme off
  else if off < 0xC00000 then findRow regsRing off
  else if off < 0xD00000 then findRow regsMirror off
  else if off < 0xE00000 then findRow regsMask off
  else if off < 0xF00000 then findRow regsSec off
  else findRow regsFault off

/-- The reset value of a register as its table gives it; PWR_LIMIT resets to the grade's maximum (R420, R476). -/
def regReset (g : Grade) (off : Nat) : Nat :=
  if off == Reg.PWR_LIMIT then g.maxWatts
  else match regRow off with
    | some r => r.reset
    | none => 0

end Sys2Proof.Machine
end

