-- ==== Sys2Proof/Machine/Ops.lean ====
section
/-! DEFINITION. Named operations over memory, registers, regions, frames, faults and events. Every family builds on these. -/

namespace Sys2Proof.Machine

/-! ### Sparse tables in canonical form: keys strictly rising, no entry at the default -/

/-- Value at key `a`; `d` where the list has none. -/
def kvGet {β : Type} (d : β) : List (Nat × β) → Nat → β
  | [], _ => d
  | (k, v) :: r, a => if k = a then v else kvGet d r a

/-- Sets key `a`, keeping the canonical form; setting the default removes the entry. -/
def kvSet {β : Type} [DecidableEq β] (d : β) : List (Nat × β) → Nat → β → List (Nat × β)
  | [], a, v => if v = d then [] else [(a, v)]
  | (k, w) :: r, a, v =>
    if a < k then (if v = d then (k, w) :: r else (a, v) :: (k, w) :: r)
    else if a = k then (if v = d then r else (a, v) :: r)
    else (k, w) :: kvSet d r a v

/-- The canonical form of a sparse memory. -/
abbrev Memory.wf (m : Cells) : Prop := m.Pairwise (fun x y => x.1 < y.1) ∧ ∀ c ∈ m, c.2 ≠ 0#8

/-- One byte of memory; an unlisted byte reads 0 (R448: boot fills memory with zero). -/
def memByte (m : Cells) (a : Nat) : Byte := kvGet 0#8 m a

/-- Writes one byte. -/
def memSet (m : Cells) (a : Nat) (b : Byte) : Cells := kvSet 0#8 m a b

/-- Writes bytes from address `a` up. -/
def memPut : Cells → Nat → List Byte → Cells
  | m, _, [] => m
  | m, a, b :: r => memPut (memSet m a b) (a + 1) r

/-- Removes the listed bytes of [a, a + n): they then read 0. -/
def memClear (m : Cells) (a n : Nat) : Cells := m.filter (fun c => !(a ≤ c.1 && c.1 < a + n))

/-- The listed bytes of [a, a + n). -/
def memSlice (m : Cells) (a n : Nat) : Cells := m.filter (fun c => a ≤ c.1 && c.1 < a + n)

/-- The `n` bytes from `a` of a slice in canonical form. -/
def readFrom : Nat → Nat → Cells → List Byte
  | 0, _, _ => []
  | n + 1, a, [] => 0#8 :: readFrom n (a + 1) []
  | n + 1, a, (k, v) :: r => if k = a then v :: readFrom n (a + 1) r else 0#8 :: readFrom n (a + 1) ((k, v) :: r)

/-- The `n` bytes from address `a`. -/
def memGet (m : Cells) (a n : Nat) : List Byte := readFrom n a (memSlice m a n)

/-- Little-endian number in the `n` bytes from `a` (R8). -/
def memNat (m : Cells) (a n : Nat) : Nat := leNat (memGet m a n)

/-- Copies `n` bytes from `src` to `dst`, the source read whole first. -/
def memCopy (m : Cells) (src dst n : Nat) : Cells :=
  (memSlice m src n).foldl (fun m c => memSet m (dst + (c.1 - src)) c.2) (memClear m dst n)

/-! ### Bit fields -/

/-- Bits [hi:lo] of a natural number. -/
def bits (v hi lo : Nat) : Nat := v / 2 ^ lo % 2 ^ (hi + 1 - lo)

/-- Bit `i` of a natural number as 0 or 1. -/
def bit (v i : Nat) : Nat := v / 2 ^ i % 2

/-- 1 for true. -/
def bnat (b : Bool) : Nat := if b then 1 else 0

/-- Whether two byte ranges meet. -/
def meets (x y : Nat × Nat) : Bool := x.1 < y.1 + y.2 && y.1 < x.1 + x.2

/-- Ceiling division. -/
def cdiv (a b : Nat) : Nat := (a + b - 1) / b

/-- A 64-bit natural number. -/
def nat64 (v : Nat) : Nat := v % 2 ^ 64

/-! ### Arrays and streams -/

/-- The array of a logical number. -/
def State.arr (s : State) (n : Nat) : ArrayState := s.arrays.getD n ArrayState.reset

/-- Changes one array. -/
def State.modArr (s : State) (n : Nat) (f : ArrayState → ArrayState) : State :=
  { s with arrays := s.arrays.modify n f }

/-- One stream context of an array. -/
def ArrayState.ctx (a : ArrayState) : Stream → StreamCtx
  | .f => a.f
  | .b => a.b
  | .u => a.u

/-- Changes one stream context of an array. -/
def ArrayState.modCtx (a : ArrayState) (st : Stream) (g : StreamCtx → StreamCtx) : ArrayState :=
  match st with
  | .f => { a with f := g a.f }
  | .b => { a with b := g a.b }
  | .u => { a with u := g a.u }

/-- One stream context of the module. -/
def State.ctx (s : State) (n : Nat) (st : Stream) : StreamCtx := (s.arr n).ctx st

/-- Changes one stream context of the module. -/
def State.modCtx (s : State) (n : Nat) (st : Stream) (g : StreamCtx → StreamCtx) : State :=
  s.modArr n (fun a => a.modCtx st g)

/-- The three streams in their order (R363). -/
def allStreams : List Stream := [.f, .b, .u]

/-- The descriptor queue of a stream (R261). -/
def ArrayState.dmaq (a : ArrayState) : Stream → List Desc
  | .f => a.queueF
  | .b => a.queueB
  | .u => a.queueU

/-- Changes the descriptor queue of a stream. -/
def ArrayState.modDmaq (a : ArrayState) (st : Stream) (g : List Desc → List Desc) : ArrayState :=
  match st with
  | .f => { a with queueF := g a.queueF }
  | .b => { a with queueB := g a.queueB }
  | .u => { a with queueU := g a.queueU }

/-- Number of arrays the loaded program runs on (R4, R279), or the grade's count. -/
def State.nArrays (s : State) : Nat :=
  match s.host.image with
  | some i => i.n
  | none => s.dev.grade.arrays

/-- The effective spare map: the factory map with the substitution records applied, failed spares marked (R13 to R16). -/
def spareMap (d : Device) (failed : List Nat) : List Nat :=
  let m := d.subst.foldl (fun (m : List Nat) r => (m.set r.1 0xFD).set r.2.2 r.2.1) d.factoryMap
  failed.foldl (fun m p => m.set p 0xFD) m

/-- The spare-map entry of a physical position. -/
def State.mapEntry (s : State) (p : Nat) : Nat := (spareMap s.dev s.host.posFailed).getD p 0xFF

/-- Physical position of a logical array (R14): while it waits for a spare, the one that has failed (R16); 68 when none carries it. -/
def State.posOf (s : State) (n : Nat) : Nat :=
  match s.host.substWaiting.find? (fun w => w.1 == n) with
  | some w => w.2
  | none => (spareMap s.dev s.host.posFailed).findIdx (· == n)

/-! ### Register values -/

/-- Reset value of a register as a word. -/
def State.regDefault (s : State) (off : Nat) : W32 := BitVec.ofNat 32 (regReset s.dev.grade off)

/-- Committed, sticky or counter value of a register. -/
def State.reg (s : State) (off : Nat) : W32 := kvGet (s.regDefault off) s.regs.vals off

/-- Sets a register value. -/
def State.setReg (s : State) (off : Nat) (v : W32) : State :=
  { s with regs := { s.regs with vals := kvSet (s.regDefault off) s.regs.vals off v } }

/-- Register value as a natural number. -/
def State.regN (s : State) (off : Nat) : Nat := (s.reg off).toNat

/-- The bits of a register that hardware has set in the present bus cycle: a write in that cycle does not clear them (R406). -/
def State.raisedNow (s : State) (off : Nat) : W32 := if s.regs.raisedBus == s.thy.bus then kvGet 0#32 s.regs.raised off else 0

/-- Remembers that hardware sets bits of a register in the present bus cycle (R406). -/
def State.noteRaised (s : State) (off mask : Nat) : State :=
  let old := if s.regs.raisedBus == s.thy.bus then s.regs.raised else []
  { s with regs := { s.regs with raisedBus := s.thy.bus, raised := kvSet 0#32 old off (s.raisedNow off ||| BitVec.ofNat 32 mask) } }

/-- Sets bits of a register: hardware's side of a W1C or status bit (R406). -/
def State.setBits (s : State) (off mask : Nat) : State :=
  (s.noteRaised off mask).setReg off (s.reg off ||| BitVec.ofNat 32 mask)

/-- Adds to a 32-bit counter, modulo 2³² (R407). -/
def State.bump (s : State) (off n : Nat) : State :=
  if n = 0 then s else s.setReg off (s.reg off + BitVec.ofNat 32 n)

/-- Sets an RW register from hardware or Sage: committed value and shadow (log 38). -/
def State.setRw (s : State) (off : Nat) (v : W32) : State :=
  let t := s.setReg off v
  { t with regs := { t.regs with shadows := kvSet (t.regDefault off) t.regs.shadows off v } }

/-- Value of an SL pair. -/
def State.reg64 (s : State) (off : Nat) : Nat := s.regN off + 2 ^ 32 * s.regN (off + 4)

/-- Sets an SL pair. -/
def State.setReg64 (s : State) (off v : Nat) : State :=
  (s.setReg off (BitVec.ofNat 32 v)).setReg (off + 4) (BitVec.ofNat 32 (v / 2 ^ 32))

/-- Adds to a 64-bit counter, modulo 2⁶⁴ (R407). -/
def State.bump64 (s : State) (off n : Nat) : State :=
  if n = 0 then s else s.setReg64 off (nat64 (s.reg64 off + n))

/-- BAR0 offset of a register of a logical array's block. -/
def State.arrReg (s : State) (n rel : Nat) : Nat := arrBase (s.posOf n) + rel

/-- Adds to an array counter. -/
def State.bumpArr (s : State) (n rel k : Nat) : State := s.bump (s.arrReg n rel) k

/-- Adds to a 64-bit array counter. -/
def State.bumpArr64 (s : State) (n rel k : Nat) : State := s.bump64 (s.arrReg n rel) k

/-- Sets sticky bits of an array's ARR_STATUS. -/
def State.setArrBits (s : State) (n rel mask : Nat) : State := s.setBits (s.arrReg n rel) mask

/-! ### Free values -/

/-- A fresh free word (log 1). -/
def State.freeWord (s : State) : W32 := Config.freeWord s.freeCtr

/-- The free words used up. -/
def State.used (s : State) (n : Nat) : State := { s with freeCtr := s.freeCtr + n }

/-- `n` fresh free bytes. -/
def State.freeBytes (s : State) (n : Nat) : List Byte :=
  (List.range n).map (fun i => Config.freeByte (s.freeCtr + i))

/-! ### Address space and regions (R206, R210, R212) -/

/-- Base of the scratchpad slices. -/
def scratchBase : Nat := 0x100000000000

/-- Base of the gradient-buffer slices. -/
def gradBase : Nat := 0x110000000000

/-- Size of a slice. -/
def sliceSize : Nat := 0x2000000

/-- Whether an address lies in the far tier of the module. -/
def State.isFar (s : State) (a : Nat) : Bool := a < s.dev.grade.farBytes

/-- Logical array whose scratchpad slice holds an address. -/
def scratchOf (a : Nat) : Option Nat :=
  if scratchBase ≤ a && a < scratchBase + 256 * sliceSize then some ((a - scratchBase) / sliceSize) else none

/-- Logical array whose gradient-buffer slice holds an address. -/
def gradOf (a : Nat) : Option Nat :=
  if gradBase ≤ a && a < gradBase + 256 * sliceSize then some ((a - gradBase) / sliceSize) else none

/-- The three kinds of access of R210. -/
inductive Access where
  | read | write | add
  deriving DecidableEq, Repr

/-- Access bit of R210. -/
def Access.bit : Access → Nat
  | .read => 0
  | .write => 1
  | .add => 2

/-- Users bits of ring and mirror receives, and of the host (R210). -/
def ringUser : Nat := 3

/-- Users bit of the host. -/
def hostUser : Nat := 4

/-- Whether a region permits an access of [a, a + n) (R212). `win`: the accessor may write state windows. -/
def Region.permits (r : Region) (a n user : Nat) (acc : Access) (win : Bool) : Bool :=
  r.kind != 6 && r.base ≤ a && a + n ≤ r.base + r.size && r.users.testBit user && r.access.testBit acc.bit &&
    (match r.kind with
      | 1 => acc == .read
      | 2 => acc == .read || win
      | _ => true)

/-- Whether an address is one an array may name as its own operand: outside every slice, or in its own (R12, R164). -/
def ownSlice (arr a : Nat) : Bool := ((scratchOf a).orElse (fun _ => gradOf a)).all (· == arr)

/-- Whether every byte of [a, a + n) lies in one region that permits the access (R212). -/
def State.allowed (s : State) (a n user : Nat) (acc : Access) (win : Bool) : Bool :=
  n == 0 || s.tiers.regions.any (fun r => r.permits a n user acc win)

/-- Index of the first region that holds address `a`; 0 when none does. -/
def State.regionIdx (s : State) (a : Nat) : Nat :=
  let i := s.tiers.regions.findIdx (fun r => r.kind != 6 && r.base ≤ a && a < r.base + r.size)
  if i < s.tiers.regions.length then i else 0

/-- The region of an address, any kind but 6. -/
def State.regionAt (s : State) (a : Nat) : Option Region :=
  s.tiers.regions.find? (fun r => r.kind != 6 && r.base ≤ a && a < r.base + r.size)

/-- First uncorrectable ECC block or word in [a, a + n) as the memory there holds it, with the fault code (R209, R216). -/
def State.eccAt (s : State) (a n : Nat) : Option (Nat × Nat) :=
  if n == 0 then none
  else if s.isFar a then
    (s.tiers.bad.find? (fun b => b * 2048 < a + n && a < b * 2048 + 2048)).map (fun b => (0x51, b * 2048))
  else
    (s.tiers.nearBad.find? (fun w => w * 8 < a + n && a < w * 8 + 8)).map (fun w => (0x50, w * 8))

/-- The model's own address of an accumulator word, above every module address: accumulator memory carries the code of R209 but has no address. -/
def accAddr (arr unit word : Nat) : Nat := 2 ^ 48 + ((arr * 64 + unit) * 16384 + word) * 4

/-- Byte range of accumulator units, at the model's own addresses. -/
def accRanges (arr : Nat) (us : List Nat) : List (Nat × Nat) := us.map (fun u => (accAddr arr u 0, 65536))

/-- Array whose accumulator memory holds an address of `accAddr`. -/
def accOf (a : Nat) : Option Nat := if 2 ^ 48 ≤ a then some ((a - 2 ^ 48) / 4194304) else none

/-- Bytes of module memory. -/
def State.get (s : State) (a n : Nat) : List Byte := memGet s.mem a n

/-- Little-endian number in module memory. -/
def State.getN (s : State) (a n : Nat) : Nat := memNat s.mem a n

/-! ### Current time -/

/-- Π as the host reads it. -/
def State.period (s : State) : Nat := s.thy.period

/-- T. -/
def State.tick (s : State) : Nat := s.thy.tick

/-- Absolute core cycle. -/
def State.cycle (s : State) : Nat := s.thy.cycle

/-- The module is powered. -/
def State.powered (s : State) : Bool := s.pwr.on && !s.pwr.tripped

/-! ### Frames -/

/-- Bytes of a receive that have arrived: those that have landed and the early units (R323). -/
def Recv.arrived (r : Recv) : Nat := r.got + (r.early.map (fun u => u.2.length)).sum

/-- Whether a part of [a, a + n) of an adding receive is still to be added: it has not arrived, or its unit came early and waits (R323). -/
def Recv.owes (r : Recv) (a n : Nat) : Bool :=
  (r.buf + r.arrived < a + n && a < r.buf + r.len) || r.early.any (fun u => r.buf + u.1 < a + n && a < r.buf + u.1 + u.2.length)

/-- Class of a frame type (R318). -/
def typeClass (typ : Nat) : Nat :=
  if typ == 0 then 3
  else if typ == 8 then 1
  else if typ == 1 || typ == 2 || typ == 4 || typ == 5 || typ == 9 || typ == 11 then 2
  else 0

/-- LINK, TRAIN and CREDIT frames serve one hop: they take no sequence number and no credit (log 31). -/
def linkLocal (typ : Nat) : Bool := typ == 3 || typ == 10 || typ == 12

/-- A payload as whole units of 32 bytes (R317); zeros fill the last one (DESIGN CHOICE, log 31). -/
def padUnits (bs : List Byte) : List Byte := bs ++ List.replicate ((32 - bs.length % 32) % 32) 0#8

/-- The payload of a phase frame or an announcement: the fields of R239 in the order of its table, the first lowest (DESIGN CHOICE, log 31). -/
def phaseBytes (i : PhaseInfo) : List Byte :=
  leBytes 64 ([(i.period, 64), (i.tick, 64), (i.rate, 7), (i.hold, 2), (i.holdStart, 64), (i.holdEnd, 64), (i.rateNext, 7), (i.rateAt, 64),
    (i.masterPrio * 65536 + i.masterAddr, 24), (i.todNs + i.todS * 2 ^ 32, 80)].foldr (fun f n => f.1 % 2 ^ f.2 + 2 ^ f.2 * n) 0)

/-- Payload of a frame on the fibre: 0 to 16 units of 32 bytes (R317). -/
def OutFrame.body (f : OutFrame) : List Byte :=
  match f.phase with
  | some i => phaseBytes i
  | none => padUnits f.payload

/-- The units field of a header (R317). -/
def OutFrame.units (f : OutFrame) : Nat := f.body.length / 32

/-- The 32-byte header of a frame on the fibre (R317). -/
def WireFrame.header (w : WireFrame) : List Byte :=
  let f := w.frame
  leBytes 1 (f.typ * 16 + typeClass f.typ * 4 + f.vc * 2) ++ leBytes 1 f.units ++ leBytes 2 w.seq ++ leBytes 2 w.ack ++ leBytes 2 0 ++
    leBytes 2 f.dst ++ leBytes 2 f.src ++ leBytes 2 f.dstCtx ++ leBytes 2 f.srcCtx ++ leBytes 4 f.tag.toNat ++ leBytes 4 f.offset ++
    leBytes 4 f.aux.toNat ++ leBytes 4 0

/-- All bytes of a frame on the fibre: header, payload, and the trailer with its CRC-32C over both (R317). -/
def WireFrame.bytes (w : WireFrame) : List Byte :=
  let b := w.header ++ w.frame.body
  b ++ leBytes 4 (crc32c b).toNat ++ leBytes 4 0

/-- Credit index of a class and channel. -/
def creditIdx (cls vc : Nat) : Nat := 2 * cls + vc

/-- The frame a port may send next: link-local ones first, then by class, against credit and replay room (R319, R320). -/
def Port.nextFrame (q : Port) : Option OutFrame :=
  match q.outQ.find? (fun f => linkLocal f.typ) with
  | some f => some f
  | none =>
    if 512 ≤ q.replay.length then none
    else [0, 1, 2, 3].findSome? (fun c => q.outQ.find? (fun f => typeClass f.typ == c && 0 < q.credits.getD (creditIdx c f.vc) 0))

/-- Puts a frame on the fibre, with the acknowledgement it carries. -/
def Port.put (q : Port) (f : OutFrame) : Port :=
  let w := q.wire ++ [⟨q.sendSeq, q.rxSeq, f⟩]
  if linkLocal f.typ then { q with outQ := q.outQ.erase f, wire := w, rxSinceAck := 0 }
  else
    let i := creditIdx (typeClass f.typ) f.vc
    { q with outQ := q.outQ.erase f, wire := w, rxSinceAck := 0, replay := q.replay ++ [f], sendSeq := (q.sendSeq + 1) % 65536,
             credits := q.credits.modify i (· - 1) }

/-- Sends what can be sent; `fuel` bounds the number of frames. -/
def Port.pump : Nat → Port → Port
  | 0, q => q
  | fuel + 1, q =>
    if q.st != .up then q
    else match q.nextFrame with
      | some f => Port.pump fuel (q.put f)
      | none => q

/-- Sends all that a port can send now. -/
def Port.pumped (q : Port) : Port := q.pump q.outQ.length

/-- Changes a port. -/
def State.modPort (s : State) (p : Nat) (g : Port → Port) : State :=
  { s with ring := { s.ring with ports := s.ring.ports.modify p g } }

/-- A port. -/
def State.port (s : State) (p : Nat) : Port := s.ring.ports.getD p Port.reset

/-- Address of the neighbour position of a ring port (R312). -/
def State.neighbour (s : State) (p : Nat) : Nat :=
  let x := s.ring.addr / 256
  let y := s.ring.addr % 256
  let xn := s.ring.xn
  let yn := s.ring.yn
  match p with
  | 0 => (x + 1) % xn * 256 + y
  | 1 => (x + xn - 1) % xn * 256 + y
  | 2 => x * 256 + (y + 1) % yn
  | _ => x * 256 + (y + yn - 1) % yn

/-- Other end of a ring hop: the last one seen, else the neighbour. -/
def State.farEnd (s : State) (p : Nat) : Nat := if (s.port p).seen then (s.port p).far else s.neighbour p

/-- Positions from this module to the far end of a ring hop. -/
def State.hopLength (s : State) (p : Nat) : Nat := if (s.port p).seen then (s.port p).spanned + 1 else 1

/-- Whether a ring port's hop crosses the wrap link between positions n − 1 and 0 of its dimension, itself or beyond bypassed positions (R313). -/
def State.wrapHop (s : State) (p : Nat) : Bool :=
  let x := s.ring.addr / 256
  let y := s.ring.addr % 256
  let d := s.hopLength p
  (p == 0 && s.ring.xn ≤ x + d) || (p == 1 && x < d) || (p == 2 && s.ring.yn ≤ y + d) || (p == 3 && y < d)

/-- Hands a frame to a port, which queues it while it trains and drops it when its hop is down (R313, R319, R336). -/
def State.sendFrame (s : State) (p : Nat) (f : OutFrame) : State :=
  let f := if s.wrapHop p then { f with vc := 1 } else f
  s.modPort p (fun q =>
    if q.heldDown || q.st == .down || q.st == .failed then q else ({ q with outQ := q.outQ ++ [f] } : Port).pumped)

/-- A frame without payload. -/
def ctlFrame (typ dst src dstCtx srcCtx : Nat) (tag : W32) (offset : Nat) (aux : W32) : OutFrame :=
  ⟨typ, dst, src, dstCtx, srcCtx, tag, offset, aux, 0, [], none⟩

/-- Clamps to a range. -/
def clampInt (u lo hi : Int) : Int := max lo (min hi u)

/-- The calibration entry of an id. -/
def Device.cal? (d : Device) (id : Nat) : Option CalEntry := d.calib.find? (fun c => c.id == id)

/-- The effective value of a calibration entry under the committed overlays (R467). -/
def State.effective (s : State) (c : CalEntry) : Int := c.f + clampInt (kvGet (0 : Int) s.regs.overlays c.id) c.lo c.hi

/-- The effective values of the entries of a kind are in force from now on (R466). -/
def State.applyCal (s : State) (p : Nat → Bool) : State :=
  { s with host := { s.host with
      applied := (s.dev.calib.filter (fun c => p c.id)).foldl (fun (m : List (Nat × Int)) c => kvSet 0 m c.id (s.effective c)) s.host.applied } }

/-- Puts a port into training: the laser bias of its lanes takes effect (R466), and it sends a TRAIN frame with this end's ring address and lane map (R315). Every lane that is good stands in aux[17:0]; one frame goes out on entering training and one in answer to each frame met there (DESIGN CHOICE, log 31). -/
def State.trainPort (s : State) (p : Nat) : State :=
  let total := if p == 4 then 9 else 18
  let s := s.applyCal (fun id => 0x2000 + 18 * p ≤ id && id < 0x2000 + 18 * p + total)
  s.modPort p (fun q =>
    let good := (List.range total).foldl (fun n i => if q.bad.testBit i then n else n + 2 ^ i) 0
    { q with st := .training, wire := q.wire ++ [⟨q.sendSeq, q.rxSeq, ctlFrame 10 q.far s.ring.addr 0 0 0 0 (BitVec.ofNat 32 good)⟩] })

/-- Gives back buffer credit for frames of a class and channel (R319): aux[31:16] their number, aux[2:1] the class, aux[0] the channel (DESIGN CHOICE, log 31). -/
def State.giveCredit (s : State) (p cls vc n : Nat) : State :=
  s.sendFrame p (ctlFrame 12 (s.port p).far s.ring.addr 0 0 0 0 (BitVec.ofNat 32 (n * 65536 + cls * 2 + vc)))

/-- Gives back what the early units of a receive have held back (R323). -/
def State.releaseHeld (s : State) (r : Recv) : State := r.held.foldl (fun (s : State) h => s.giveCredit h.port 3 h.vc 1) s

/-- Sends a frame on every ring port but `but` (R339). -/
def State.flood (s : State) (but : Nat) (f : OutFrame) : State :=
  ([0, 1, 2, 3].filter (· != but)).foldl (fun s p => s.sendFrame p f) s

/-- Whether a hop carries traffic: not broken and not failed (R316, R336). -/
def State.hopOk (s : State) (p : Nat) : Bool := !(s.port p).heldDown && (s.port p).st != .failed

/-- The broken hops of this module's X or Y ring that its merge table knows, each from its − end to its + end: the module at each end reports the break and its lower end is the subject, so the reporters on the subject's ring are the ends (DEDUCED from R336, R337 and R339, log 92). -/
def State.brokenHops (s : State) (xdim : Bool) : List (Nat × Nat) :=
  let co := fun (a : Nat) => if xdim then (a / 256, a % 256) else (a % 256, a / 256)
  let n := if xdim then s.ring.xn else s.ring.yn
  let row := (co s.ring.addr).2
  s.ring.merges.flatMap (fun e =>
    let c := (co e.subject).1
    if e.cls != 0x70 || (co e.subject).2 != row then []
    else
      ((List.range n).filter (fun k => k != c && e.bitmap.testBit (if xdim then k * 64 + row else row * 64 + k))).map (fun k =>
        if 2 * ((k + n - c) % n) ≤ n then (c, k) else (k, c)))

/-- Port of the shorter direction of one dimension, + on ties; after a break, the direction that avoids the broken hop (R313, R336). Of its own hops the module knows the state itself; a broken hop between two others lies on a path that runs past its near end. -/
def State.pick (s : State) (xdim : Bool) (a d n : Nat) : Nat :=
  let plus := if xdim then 0 else 2
  let minus := if xdim then 1 else 3
  let fwd := (d + n - a) % n
  let cuts := (s.brokenHops xdim).filter (fun e => e.1 != a && e.2 != a)
  let okPlus := s.hopOk plus && cuts.all (fun e => fwd ≤ (e.1 + n - a) % n)
  let okMinus := s.hopOk minus && cuts.all (fun e => n - fwd ≤ (a + n - e.2) % n)
  if fwd ≤ n - fwd then (if okPlus || !okMinus then plus else minus) else if okMinus || !okPlus then minus else plus

/-- First port of the dimension-ordered route (R313). -/
def State.route (s : State) (dst : Nat) : Nat :=
  let x := s.ring.addr / 256
  let y := s.ring.addr % 256
  if dst / 256 != x then s.pick true x (dst / 256) s.ring.xn else s.pick false y (dst % 256) s.ring.yn

/-- Whether the next hop on a port passes the destination coordinate: it is bypassed (R313). A frame that would have to turn at a bypassed position ends there too (DESIGN CHOICE, log 92). -/
def State.passes (s : State) (p dst : Nat) : Bool :=
  let q := s.port p
  let d := fun (a b n : Nat) => if p % 2 == 0 then (b + n - a) % n else (a + n - b) % n
  let dist := if p < 2 then d (s.ring.addr / 256) (dst / 256) s.ring.xn else d (s.ring.addr % 256) (dst % 256) s.ring.yn
  q.seen && dist ≤ q.spanned

/-- Whether a module is known to be lost (R313, R337): since a report of its loss, until it opens a context or trains a hop here, or the job goes on with every member (DEDUCED, log 92). -/
def State.knownLost (s : State) (a : Nat) : Bool := s.ring.gone.contains a

/-- A module is back (R313). -/
def State.isBack (s : State) (a : Nat) : State := { s with ring := { s.ring with gone := s.ring.gone.filter (· != a) } }

/-- Whether this module is the last before a destination that is bypassed or lost (R313). -/
def State.deadEnd (s : State) (p dst : Nat) : Bool := s.passes p dst || (s.knownLost dst && s.farEnd p == dst)

/-- Sends a routed frame, or discards it at the last module before a bypassed or lost destination (R313). -/
def State.sendRouted (s : State) (dst : Nat) (f : OutFrame) : State :=
  let p := s.route dst
  if s.deadEnd p dst then s.bump Reg.RNG_DISCARD 1 else s.sendFrame p f

/-- Sends a frame of this module: on the mirror port to the twin when `mirror`, otherwise along R313. -/
def State.sendTo (s : State) (mirror : Bool) (dst : Nat) (f : OutFrame) : State :=
  if mirror then s.sendFrame 4 f else s.sendRouted dst f

/-- Changes the Thyme block. -/
def State.modThy (s : State) (g : Thyme → Thyme) : State := { s with thy := g s.thy }

/-! ### The Thyme master (R245, R249, R250) -/

/-- Contents of a phase frame or an announcement sent now (R239). -/
def Thyme.info (t : Thyme) : PhaseInfo :=
  let h := t.holds.getLast?
  { period := t.period
    tick := t.tick
    rate := t.rate
    hold := match h with
      | none => 0
      | some k => if k.stop.isSome then 3 else if k.start ≤ t.period then 2 else 1
    holdStart := (h.map PhaseHold.start).getD 0
    holdEnd := (h.bind PhaseHold.stop).getD (2 ^ 64 - 1)
    rateNext := (t.rateNext.getLast?.map Prod.fst).getD 0
    rateAt := (t.rateNext.getLast?.map Prod.snd).getD 0
    masterPrio := t.masterPrio
    masterAddr := t.masterAddr
    todS := t.todS
    todNs := t.todNs }

/-- Sends a phase frame (type 6) or an announcement (type 7) on ports, with the contents of `i`. -/
def State.sendPhase (s : State) (typ : Nat) (ports : List Nat) (i : PhaseInfo) : State :=
  ports.foldl (fun (s : State) p => s.sendFrame p { ctlFrame typ 0xFFFF s.ring.addr 0 0 0 0 0 with phase := some i }) s

/-- The master announces a change at once to every module (R245, R250). -/
def State.announce (s : State) : State := s.sendPhase 7 [0, 1, 2, 3, 4] s.thy.info

/-- HOLD_ON at the master in the current period (R245). -/
def State.masterHoldOn (s : State) (src : Nat) : State :=
  let p := s.thy.period
  let lam := s.thy.lead
  let s := s.modThy (fun t => { t with levels := if t.levels.contains src then t.levels else t.levels ++ [src] })
  let opened := fun (h : Nat) => (s.modThy (fun t => { t with holds := t.holds ++ [⟨h, none, src⟩] })).announce
  match s.thy.holds.getLast? with
  | none => opened (p + lam)
  | some k => match k.stop with
    | none => s
    | some e =>
      if e ≤ p + lam then opened (max (p + lam) e)
      else (s.modThy (fun t => { t with holds := t.holds.dropLast ++ [{ k with stop := none }] })).announce

/-- HOLD_OFF at the master in the current period (R245). -/
def State.masterHoldOff (s : State) (src : Nat) : State :=
  let p := s.thy.period
  let s := s.modThy (fun t => { t with levels := t.levels.filter (· != src) })
  match s.thy.levels, s.thy.holds.getLast? with
  | [], some k =>
    if k.stop.isSome then s
    else (s.modThy (fun t => { t with holds := t.holds.dropLast ++ [{ k with stop := some (max (k.start + 1) (p + t.lead)) }] })).announce
  | _, _ => s

/-- The master moves r one step towards its target when the slew limits allow it (R250). -/
def State.masterRate (s : State) : State :=
  let t := s.thy
  let p := t.period
  let cur := (t.rateNext.getLast?.map Prod.fst).getD t.rate
  let slew := s.regN Reg.THY_SLEW
  let free := fun (last : Option Nat) n => last.all (fun k => k + max 1 n ≤ p)
  if t.target < cur && free t.lastDown (slew % 65536) then
    (s.modThy (fun t => { t with rateNext := t.rateNext ++ [(cur - 1, p + t.lead)], lastDown := some p })).announce
  else if cur < t.target && free t.lastUp (slew / 65536) then
    (s.modThy (fun t => { t with rateNext := t.rateNext ++ [(cur + 1, p + t.lead)], lastUp := some p })).announce
  else s

/-- The target is the lowest of the requested rates; a step follows when one is due (R249). -/
def State.retarget (s : State) (reqs : List (Nat × Nat)) : State :=
  (s.modThy (fun t => { t with reqRates := reqs, target := reqs.foldl (fun m e => min m e.2) 64 })).masterRate

/-- RATE(r_req) of a member at the master (R249). -/
def State.masterRequest (s : State) (src r : Nat) : State := s.retarget ((src, r) :: s.thy.reqRates.filter (fun e => e.1 != src))

/-- A module that leaves the ring, as its PARTNER_LOST report shows, is dropped from the master's target (R249). -/
def State.dropMember (s : State) (a : Nat) : State :=
  if s.thy.master && s.thy.reqRates.any (fun e => e.1 == a) then s.retarget (s.thy.reqRates.filter (fun e => e.1 != a)) else s

/-- What a report tells about its subject, whether or not the merge table gains by it: a module that PARTNER_LOST names is gone (R249, R313). -/
def State.tellsLoss (s : State) (subject cls : Nat) : State :=
  if cls == 0x71 then ({ s with ring := { s.ring with gone := (subject :: s.ring.gone).eraseDups } }).dropMember subject else s

/-- A hold or rate message to the master, which handles its own at once (R245, R249): aux carries the rate. Kinds: 0 HOLD_OFF, 1 HOLD_ON, 2 RATE. -/
def State.thymeMsg (s : State) (kind v : Nat) : State :=
  if s.thy.master then
    if kind == 0 then s.masterHoldOff s.ring.addr
    else if kind == 1 then s.masterHoldOn s.ring.addr
    else s.masterRequest s.ring.addr v
  else s.sendTo false s.thy.masterAddr (ctlFrame 7 s.thy.masterAddr s.ring.addr 0 0 (BitVec.ofNat 32 kind) 0 (BitVec.ofNat 32 v))

/-! ### Events (R436 to R439) -/

/-- The 32 bytes of an event queue entry (R436). -/
def eventBytes (e : EventEntry) (reporter seq : Nat) : List Byte :=
  leBytes 1 e.code ++ leBytes 1 e.kind ++ leBytes 1 e.outcome ++ [0#8] ++ leBytes 4 e.count ++ leBytes 8 e.period ++
  leBytes 2 e.subject ++ leBytes 2 reporter ++ leBytes 4 e.origin ++ leBytes 4 e.detail ++ leBytes 4 seq

/-- Signals an MSI-X vector (R438): one that is masked by its gap is not sent and not kept. -/
def State.signalEvents (s : State) (v : Nat) : State :=
  let (last, tail) := if v == 1 then (s.flt.sig1, s.flt.tail1) else (s.flt.sig2, s.flt.tail2)
  let due := match last with
    | none => true
    | some p => tail || s.period ≥ p + s.regN Reg.FLT_IRQ_GAP
  if due then
    let f := if v == 1 then { s.flt with sig1 := some s.period, tail1 := false }
      else { s.flt with sig2 := some s.period, tail2 := false }
    { s with flt := { f with msix := f.msix ++ [v] } }
  else s

/-- An entry that cannot be written is lost (R437). -/
def State.loseEntry (s : State) : State := (s.bump Reg.FLT_EVENTS_LOST 1).setBits Reg.FLT_STATUS 4

/-- The PCIe link is up: replies and event entries reach host memory (R379, R437). -/
def State.hostLink (s : State) : Bool := s.host.pcie.link.width != 0

/-- An activation is under way: its boundary has been taken, or the module does not run (R459). -/
def State.activating (s : State) : Option Bool :=
  match s.host.fwPending with
  | some (commit, k) => if s.host.st != .running || k ≤ s.stp.step then some commit else none
  | none => none

/-- Whether an entry of a kind can be written, or kept while no queue exists; nothing is written over a link that is down (R379, R436, R437; log 97). -/
def State.entryFits (s : State) (kind : Nat) : Bool :=
  if s.flt.eqAddr.isNone then s.flt.stash.length < 64
  else if !s.hostLink then false
  else
    let n := s.flt.eqSize
    let free := n - 1 - (s.flt.head + n - s.flt.tail) % n
    free > 8 || (free ≥ 1 && kind != 0)

/-- Writes an entry to the host's queue, keeps it before the queue exists or during a firmware handover, or loses it (R436, R437, R460). -/
def State.writeEntry (s : State) (e : EventEntry) : State :=
  if s.activating.isSome then { s with flt := { s.flt with handover := s.flt.handover ++ [e] } }
  else if !s.entryFits e.kind then s.loseEntry
  else match s.flt.eqAddr with
  | none => { s with flt := { s.flt with stash := s.flt.stash ++ [e] } }
  | some base =>
    let seq := (s.flt.seq + 1) % 2 ^ 32
    let s := { s with
      hostMem := memPut s.hostMem (base + 32 * s.flt.head) (eventBytes e s.ring.addr seq)
      flt := { s.flt with head := (s.flt.head + 1) % s.flt.eqSize, seq := seq } }
    s.signalEvents (if e.kind == 1 then 2 else 1)

/-- A handover has ended: the entries held meanwhile are written (R460). -/
def State.endHandover (s : State) : State :=
  s.flt.handover.foldl (fun (s : State) e => s.writeEntry e) { s with flt := { s.flt with handover := [] } }

/-- Counts a posted event (R422). -/
def State.countEvent (s : State) : State := (s.bump Reg.FLT_EVENTS 1).setBits Reg.FLT_STATUS 2

/-- Entries of a (code, subject) written in the window. -/
def windowCount (l : List (Nat × Nat × Nat)) (code subject : Nat) : Nat :=
  match l.find? (fun e => e.1 == code && e.2.1 == subject) with
  | some e => e.2.2
  | none => 0

/-- Posts an event of kind 0 under the rate limit of R439: only written entries use up the window. -/
def State.postEvent (s : State) (code outcome subject detail : Nat) : State :=
  let s := s.countEvent
  let c := windowCount s.flt.windowCounts code subject
  if code != 0xA5 && c ≥ s.regN Reg.FLT_RATE % 65536 then
    let s := s.bump Reg.FLT_EVENTS_SUPPRESSED 1
    { s with flt := { s.flt with suppressed := kvSet 0 s.flt.suppressed code (kvGet 0 s.flt.suppressed code + 1) } }
  else
    let ws := (code, subject, c + 1) :: s.flt.windowCounts.filter (fun e => !(e.1 == code && e.2.1 == subject))
    let s := if s.entryFits 0 then { s with flt := { s.flt with windowCounts := ws } } else s
    s.writeEntry ⟨code, 0, outcome, 1, s.period, subject, 0, detail⟩

/-- Posts an event about this module. -/
def State.event (s : State) (code detail : Nat) : State := s.postEvent code 0 s.ring.addr detail

/-! ### Reports and beacons (R337 to R341, R355) -/

/-- Whether an address is a member of the started job (R392): bitmaps are indexed by x · 64 + y. -/
def State.isMember (s : State) (a : Nat) : Bool := s.ring.members.testBit (a / 256 * 64 + a % 256)

/-- Number of set bits of a bitmap of `n` bits. -/
def popcount : Nat → Nat → Nat
  | 0, _ => 0
  | n + 1, v => v % 2 + popcount n (v / 2)

/-- Whether a context has a message outstanding. -/
def CtxEntry.busy (c : CtxEntry) : Bool := !c.recvs.isEmpty || !c.sends.isEmpty

/-- Whether an OPEN context with a message outstanding has been silent for RNG_CTX_TIMEOUT periods, now or when its messages were given up (R337). -/
def State.isSilent (s : State) (c : CtxEntry) : Bool :=
  c.st == .open_ && (c.overdue || (c.busy && c.lastFrame + s.regN Reg.RNG_CTX_TIMEOUT ≤ s.period))

/-- Retires the sends and receives of contexts whose partner is `subject`; receive buffers become free values, the credit that early frames held back returns, and DATA frames that still wait are dropped (R340). A context whose silence is due is still to be reported (R337). -/
def State.releasePartner (s : State) (subject : Nat) : State :=
  let rs := s.ring.ctxs.flatMap (fun c => if c.2.partner == subject then c.2.recvs else [])
  let s := rs.foldl (fun (s : State) r => ({ s with mem := memPut s.mem r.buf (s.freeBytes r.len), freeCtr := s.freeCtr + r.len }).releaseHeld r) s
  let keep := fun (f : OutFrame) => !(f.typ == 0 && f.dst == subject && f.src == s.ring.addr)
  { s with ring := { s.ring with
      ctxs := s.ring.ctxs.map (fun c => (c.1, if c.2.partner == subject then { c.2 with recvs := [], sends := [], overdue := s.isSilent c.2 } else c.2))
      ports := s.ring.ports.map (fun q => { q with outQ := q.outQ.filter keep }) } }

/-- The survivor's REBIND frames: one to the partner of each standby entry's own context (R355). The tag names the lost subject and its survivor, aux the number of pairs in the payload: twin's entry, then the survivor's, 16 bits each (DESIGN CHOICE, log 31). -/
def State.sendRebinds (s : State) (lost : Nat) : State :=
  match s.mir.desc with
  | none => s
  | some d => d.standby.foldl (fun s e =>
      match s.ring.ctxs.find? (fun c => c.1 == e.1) with
      | none => s
      | some c => s.sendTo false c.2.partner
          { ctlFrame 9 c.2.partner s.ring.addr c.2.partnerCtx e.1 (BitVec.ofNat 32 (lost * 65536 + s.ring.addr)) 0 1 with
            payload := padUnits (leBytes 2 e.2 ++ leBytes 2 e.1) }) s

/-- The twin is lost: this module becomes the survivor (R355). -/
def State.twinLost (s : State) : State :=
  if s.mir.paired && !s.mir.survivor then
    let s := { s with mir := { s.mir with survivor := true } }
    let s := (s.setBits Reg.MIR_STATUS 0x20).postEvent 0x81 0 s.ring.addr 0
    s.sendRebinds s.mir.twin
  else s

/-- Turns this module's hold level off and asks for no further hold (R340, R248). -/
def State.holdOff (s : State) : State :=
  let s := if s.thy.level then s.thymeMsg 0 0 else s
  s.modThy (fun t => { t with level := false, quiet := true })

/-- Ring address of the domain's twin 0. -/
def State.twin0 (s : State) : Nat := if s.mir.twinNo == 0 then s.ring.addr else s.mir.twin

/-- Whether either twin has reported an ECC fault in the present step (R357). -/
def State.eccReported (s : State) : Bool := s.mir.eccAt.any (fun p => s.stp.since ≤ p)

/-- Outcome in an entry about a merge entry of class MIRROR_DIVERGENCE (R357, R436): a twin knows whether its domain diverges again after the replay; a module outside the pair writes 1 (DESIGN CHOICE, log 100). -/
def State.divergenceOutcome (s : State) (subject : Nat) : Nat :=
  if !s.mir.paired || subject != s.twin0 then 1
  else if s.eccReported then 0
  else if s.mir.divStep.any (fun k => s.mir.replayed.contains k) then 3 else 1

/-- Step in an entry about a merge entry (R436): the one that diverged, where this twin has compared it, else this module's own (DESIGN CHOICE, log 100). -/
def State.incidentStep (s : State) (e : Merge) : Nat :=
  (if e.cls == 0x80 && s.mir.diverged && e.subject == s.twin0 then s.mir.divStep.getD s.stp.step else s.stp.step) % 2 ^ 32

/-- The kind-2 entry of a merge entry (R436, R440). -/
def State.mergeEntry (s : State) (e : Merge) : EventEntry :=
  ⟨e.cls, 2, if e.cls == 0x80 then s.divergenceOutcome e.subject else 0, popcount 4096 e.bitmap, e.first, e.subject, 0,
   if e.cls == 0x80 || e.cls == 0x90 || e.cls == 0x91 then s.incidentStep e else 0⟩

/-- Acts on a merge-table entry whose subject is a member of the job (R340, R341, R440): the master drops the subject's hold level as its HOLD_OFF would (R245). -/
def State.actOn (s : State) (e : Merge) : State :=
  let s := { s with flt := { s.flt with stopAsked := true } }
  let s := (s.releasePartner e.subject).holdOff
  let s := if s.thy.master && s.thy.levels.contains e.subject then s.masterHoldOff e.subject else s
  if e.subject == s.ring.addr then s
  else s.countEvent.writeEntry (s.mergeEntry e)

/-- Whether an entry says that this module's twin is lost (R353). -/
def State.losesTwin (s : State) (e : Merge) : Bool :=
  s.mir.paired && !s.mir.survivor && e.subject == s.mir.twin && e.subject != s.ring.addr &&
    (e.cls == 0x71 || e.cls == 0x50 || e.cls == 0x51 || e.cls == 0x52)

/-- The beacon frame of an entry (R339). -/
def State.beaconOf (s : State) (e : Merge) : OutFrame :=
  { ctlFrame 8 0xFFFF s.ring.addr 0 0 (BitVec.ofNat 32 (e.subject * 65536 + e.cls * 256)) (popcount 4096 e.bitmap) (BitVec.ofNat 32 e.first) with
    payload := leBytes 512 e.bitmap }

/-- Room for a new merge entry: the table after a replacement (R339), none when no entry qualifies. -/
def State.mergeRoom (s : State) : Option (List Merge) :=
  if s.ring.merges.length < 64 then some s.ring.merges
  else
    let i := s.ring.merges.findIdx (fun e => e.lastSend + s.regN Reg.RNG_BEACON_WINDOW < s.period)
    if i < s.ring.merges.length then some (s.ring.merges.eraseIdx i) else none

/-- An ECC report of this module or its twin is remembered with its period (R357). -/
def State.noteEcc (s : State) (subject cls : Nat) : State :=
  if (cls == 0x50 || cls == 0x51) && (subject == s.ring.addr || (s.mir.paired && subject == s.mir.twin)) then
    { s with mir := { s.mir with eccAt := some s.period } }
  else s

/-- Enters a report or a received beacon into the merge table (R339), with the entry that is new in it. `from_` is the arrival port, 5 for a local report. `acted` marks the entries of the present stop: a local report about an entry from before marks it again. -/
def State.enterBeacon (s : State) (subject cls bitmap first from_ : Nat) : State × Option Merge :=
  match s.ring.merges.find? (fun e => e.subject == subject && e.cls == cls) with
  | some e =>
    let bm := e.bitmap ||| bitmap
    let gained := bm != e.bitmap
    let e' := { e with
      bitmap := bm
      first := min e.first first
      pendingAt := if gained then some (s.period + s.regN Reg.RNG_BEACON_HOLD) else e.pendingAt
      fromPort := if gained then from_ else e.fromPort
      acted := e.acted || (from_ == 5 && s.isMember subject) }
    let s := { s with ring := { s.ring with merges := s.ring.merges.map (fun (x : Merge) => if x.subject == subject && x.cls == cls then e' else x) } }
    let s := if gained || from_ == 5 then s.noteEcc subject cls else s
    (s.bump Reg.RNG_BEACON_MERGED 1, none)
  | none =>
    match s.mergeRoom with
    | none =>
      let s := (s.bump Reg.RNG_BEACON_UNMERGED 1).setBits Reg.RNG_STATUS 0x40
      (s.flood from_ (s.beaconOf ⟨subject, cls, bitmap, first, 0, none, from_, false⟩), none)
    | some ms =>
      let e : Merge := ⟨subject, cls, bitmap, first, s.period, some (s.period + s.regN Reg.RNG_BEACON_HOLD), from_, s.isMember subject⟩
      (({ s with ring := { s.ring with merges := ms ++ [e] } }).noteEcc subject cls, some e)

/-- What a new entry brings about besides its merge: one about a member of the job acts (R340). -/
def State.entryActs (x : State × Option Merge) : State :=
  match x.2 with
  | none => x.1
  | some e => if e.acted then x.1.actOn e else x.1

/-- A report of this module that enters no earlier pair of the filter (R338, R339). -/
def State.enterReport (s : State) (subject cls : Nat) : State × Option Merge :=
  let s := if cls == 0x71 then s.setBits Reg.RNG_STATUS 8 else if cls == 0x70 then s.setBits Reg.RNG_STATUS 0x10 else s
  if s.ring.filter.contains (subject, cls) then (s.bump Reg.RNG_FILTERED 1, none)
  else
    let s := { s with ring := { s.ring with filter := s.ring.filter ++ [(subject, cls)] } }
    s.enterBeacon subject cls (2 ^ (s.ring.addr / 256 * 64 + s.ring.addr % 256)) s.period 5

/-- A new entry takes its effect; one that says that the twin is lost makes this module report it and survive, whatever the job's member map (R353, R355). -/
def State.settleEntry (x : State × Option Merge) : State :=
  let s := State.entryActs x
  match x.2 with
  | none => s
  | some e =>
    if !x.1.losesTwin e then s
    else (if e.fromPort == 5 then s else State.entryActs ((s.tellsLoss e.subject 0x71).enterReport e.subject 0x71)).twinLost

/-- Merges a report or a received beacon into the merge table (R339). -/
def State.mergeBeacon (s : State) (subject cls bitmap first from_ : Nat) : State :=
  State.settleEntry ((s.tellsLoss subject cls).enterBeacon subject cls bitmap first from_)

/-- Forms a local report; the filter collapses repeats (R337, R338). -/
def State.report (s : State) (subject cls : Nat) : State :=
  State.settleEntry ((s.tellsLoss subject cls).enterReport subject cls)

/-! ### Faults (R422, R423, R426, R427, R431) -/

/-- The frozen periods of the episode have reached 64: PHASE_HOLD_LIMIT is due at this boundary, and no STATE_TIMEOUT or QUEUE_OVERFLOW beside it (R248). -/
def State.limitDue (s : State) : Bool := 64 ≤ s.thy.episodeFrozen && !s.thy.quiet

/-- Whether a bound in ticks may raise its fault now: not after R340 has acted, and not beside PHASE_HOLD_LIMIT (R248, R340). -/
def State.mayTimeOut (s : State) : Bool := !s.thy.quiet && !s.limitDue

/-- A fault record with every field at its "none" value (R431). -/
def FaultRec.of (code block : Nat) : FaultRec :=
  ⟨code, 0xFF, 3, 0, block, 0xFFFFFFFF, 0, 0, 0xFFFF, 0xFFFF, 0xFFFF, 0, 0, 0, 0⟩

/-- Word 0 of a record, the layout of FLT_FIRST (R422). -/
def FaultRec.word0 (r : FaultRec) : Nat :=
  2 ^ 31 + r.slot % 32 * 2 ^ 26 + r.stream * 2 ^ 24 + r.arr % 256 * 2 ^ 16 + r.block % 256 * 2 ^ 8 + r.code

/-- The eight words of a record (R431). -/
def FaultRec.words (r : FaultRec) : List Nat :=
  [r.word0, r.pc, r.check * 2 ^ 24 + r.opcode * 2 ^ 16 + r.object % 65536, r.tileRow * 65536 + r.tileCol % 65536,
   r.word4, r.addr % 2 ^ 32, r.addr / 2 ^ 32 % 2 ^ 32, r.subject * 65536 + r.aux % 65536]

/-- Whether record `x` comes before `y` among faults of one bus cycle (R423). -/
def FaultRec.before (x y : FaultRec) : Bool :=
  x.code < y.code || (x.code == y.code && (x.arr < y.arr || (x.arr == y.arr && x.stream < y.stream)))

/-- Detail of a kind-1 entry (R436). -/
def State.faultDetail (s : State) (r : FaultRec) : Nat :=
  if r.code == 0x10 then r.aux
  else if r.code == 0x80 || r.code == 0x90 || r.code == 0x91 then s.stp.step % 2 ^ 32
  else 0

/-- The kind-1 entry of the period, or one more fault of a code already waiting (R436, R437). The record of a divergence carries its outcome in aux (log 100). -/
def State.faultEntry (s : State) (r : FaultRec) : State :=
  if s.flt.codesWritten.contains r.code then
    { s with flt := { s.flt with waitingEntries := s.flt.waitingEntries.map (fun e =>
        if e.code == r.code then { e with count := e.count + 1 } else e) } }
  else
    { s with flt := { s.flt with
        codesWritten := s.flt.codesWritten ++ [r.code]
        waitingEntries := s.flt.waitingEntries ++ [⟨r.code, 1, if r.code == 0x80 then r.aux else 0, 1, s.period, s.ring.addr, r.word0, s.faultDetail r⟩] } }

/-- Channel of a far-tier address (R215). -/
def State.channelOf (s : State) (a : Nat) : Nat :=
  s.tiers.chmap.getD (a / 4096 % s.dev.grade.farSlots) 0

/-- The unused spare channels (R11, R219). -/
def State.spares (s : State) : List Nat := [48, 49].filter (fun c => !s.tiers.usedSpares.contains c)

/-- Starts the substitution of a package if a spare is free and none runs; else it waits, or spares_exhausted is set (R219, R222). -/
def State.startCopy (s : State) (channel : Nat) : State :=
  let slot := s.tiers.chmap.findIdx (· == channel)
  if s.tiers.chmap.length ≤ slot then s
  else match s.tiers.copy with
    | some c =>
      if c.source == channel || s.tiers.copyWaiting.contains slot then s
      else { s with tiers := { s.tiers with copyWaiting := s.tiers.copyWaiting ++ [slot] } }
    | none =>
      match s.spares with
      | [] => s.setBits Reg.TIR_STATUS 0x10
      | t :: rest =>
        let s := ({ s with tiers := { s.tiers with copy := some ⟨slot, channel, t, 0⟩, usedSpares := s.tiers.usedSpares ++ [t] } }).setReg64 Reg.TIR_COPY_PTR 0
        if rest.isEmpty then (s.setBits Reg.TIR_STATUS 0x10).event 0xA2 1 else s

/-- Starts self-test of the position of a logical array (R16, R209). -/
def State.selfTest (s : State) (n : Nat) : State :=
  let p := s.posOf n
  if s.host.posTesting.contains p then s else { s with host := { s.host with posTesting := s.host.posTesting ++ [p] } }

/-- Array that a near-memory word belongs to. -/
def nearOwner (a dflt : Nat) : Nat := ((scratchOf a).orElse (fun _ => (gradOf a).orElse (fun _ => accOf a))).getD dflt

/-- The aux field of a fault record about an address, of array `n` where the address names none (R431). -/
def State.faultAux (s : State) (n code a : Nat) : Nat :=
  if code == 0x50 then s.posOf (nearOwner a n) else if code == 0x51 then s.channelOf a else if code == 0x10 then s.regionIdx a else 0

/-- Corrected symbols of a package: over the limit, Sage starts its substitution (R216, R219). -/
def State.countCorrected (s : State) (c symbols : Nat) : State :=
  let n := kvGet 0 s.tiers.pkgCe c + symbols
  let s := { s with tiers := { s.tiers with pkgCe := kvSet 0 s.tiers.pkgCe c (nat64 n) } }
  if s.regN Reg.TIR_CE_LIMIT < n then (s.setBits Reg.TIR_STATUS 4).startCopy c else s

/-- A far-tier read corrects a block: the correction is written back and counted (R216). -/
def State.correctBlock (s : State) (b : Nat × Nat) : State :=
  { s with tiers := { s.tiers with soft := s.tiers.soft.erase b } }.countCorrected (s.channelOf (b.1 * 2048)) b.2

/-- A near-memory read corrects a word: the correction is written back and counted (R209). -/
def State.correctWord (s : State) (w : Nat) : State :=
  { s with tiers := { s.tiers with nearSoft := s.tiers.nearSoft.erase w } }.bumpArr (nearOwner (w * 8) 0) Reg.ARR_NEAR_CE 1

/-- What a read of [a, a + n) corrects on its way (R209, R216). -/
def State.correctAt (s : State) (a n : Nat) : State :=
  if n == 0 then s
  else if s.isFar a then (s.tiers.soft.filter (fun b => b.1 * 2048 < a + n && a < b.1 * 2048 + 2048)).foldl (fun (s : State) b => s.correctBlock b) s
  else (s.tiers.nearSoft.filter (fun w => w * 8 < a + n && a < w * 8 + 8)).foldl (fun (s : State) w => s.correctWord w) s

/-- What an uncorrectable block or word does beside its fault: counters, self-test, substitution (R16, R209, R216, R219). -/
def State.eccEffects (s : State) (r : FaultRec) : State :=
  if r.code == 0x50 then
    let n := nearOwner r.addr r.arr
    (s.bumpArr n Reg.ARR_NEAR_UE 1).selfTest n
  else if r.code == 0x51 then
    let c := s.channelOf r.addr
    let s := { s with tiers := { s.tiers with pkgUe := kvSet 0 s.tiers.pkgUe c (kvGet 0 s.tiers.pkgUe c + 1) } }
    (s.setBits Reg.TIR_STATUS 2).startCopy c
  else s

/-- Records a fault; in RUNNING the module is to stop (R427, R429, R430). -/
def State.recordFault (s : State) (r : FaultRec) : State :=
  let s := s.eccEffects r
  let s := (s.bump Reg.FLT_COUNT 1).setBits Reg.FLT_STATUS 1
  let newFirst := match s.flt.first with
    | none => true
    | some f => s.flt.firstBus == s.thy.bus && r.before f
  let newLast := match s.flt.last with
    | none => true
    | some l => !(s.flt.lastBus == s.thy.bus && r.before l)
  let f := s.flt
  let f := if newFirst then { f with first := some r, firstPeriod := s.period, firstBus := s.thy.bus } else f
  let f := if newLast then { f with last := some r, lastValid := true, lastBus := s.thy.bus } else f
  let f := { f with
    unacked := true
    faultStreams := if r.stream < 3 then f.faultStreams ++ [(r.arr, if r.stream == 0 then .f else if r.stream == 1 then .b else .u)] else f.faultStreams }
  let s := ({ s with flt := f }).faultEntry r
  if s.host.st == .running then { s with flt := { s.flt with stopAsked := true } } else s

/-- Subject of the report of a fault: the record's own for codes 0x70 to 0x81, otherwise this module (R337, R347). -/
def State.reportSubject (s : State) (r : FaultRec) : Nat := if 0x70 ≤ r.code && r.code ≤ 0x81 then r.subject else s.ring.addr

/-- Records a fault; the first one in RUNNING forms a STOP report (R427). -/
def State.raise (s : State) (r : FaultRec) : State :=
  let s := s.recordFault r
  if s.host.st == .running && !s.flt.beaconSent then
    ({ s with flt := { s.flt with beaconSent := true } }).report (s.reportSubject r) r.code
  else s

/-- A module-level fault of a block, with no instruction behind it. -/
def State.raiseCode (s : State) (code block : Nat) : State := s.raise (FaultRec.of code block)

/-- Adds one to the non-determinism counter and a detail counter (R370). -/
def State.nondet (s : State) (reg : Nat) : State :=
  ((s.bump64 Reg.DET_NONDET 1).bump reg 1).setBits Reg.DET_STATUS 4

end Sys2Proof.Machine
end

