-- ==== Sys2Proof/Machine/Encoding.lean ====
section
/-! DEFINITION. Instruction words and parameter records as they stand in a code region: fields, reference forms, body formats, records, and the opcode map (R283 to R287, R289, R291, R295 to R308). -/

namespace Sys2Proof.Machine

/-! ### Fields -/

/-- Little-endian field of `n` bytes at offset `o`. -/
def fld (bs : List Byte) (o n : Nat) : Nat := leNat ((bs.drop o).take n)

/-- Bits [lo + n − 1 : lo] of a word as a bit vector. -/
def wordBits (w lo n : Nat) : BitVec n := BitVec.ofNat n (w / 2 ^ lo)

/-- Bit `i` of a word. -/
def wordBit (w i : Nat) : Bool := w.testBit i

/-- A field of `n` bits, the lowest of byte `o` of a record. -/
def recBits (bs : List Byte) (o n : Nat) : BitVec n := BitVec.ofNat n (fld bs o ((n + 7) / 8))

/-! ### Reference forms (R285) -/

/-- SREF in the low 28 bits. -/
def SRef.ofWord (w : Nat) : SRef := ⟨wordBits w 24 4, wordBits w 0 24⟩

/-- AREF of 64 bits; bits [59:48] are reserved and ignored (R7). -/
def ARef.ofWord (w : Nat) : ARef := ⟨wordBits w 60 4, wordBits w 0 48⟩

/-- ORef of 64 bits; bits [59:57] are reserved and ignored. -/
def ORef.ofWord (w : Nat) : ORef := ⟨wordBits w 60 4, wordBits w 52 5, wordBits w 50 2, wordBit w 49, wordBit w 48, wordBits w 0 48⟩

/-- AREF at byte `o` of a record. -/
def recAref (bs : List Byte) (o : Nat) : ARef := ARef.ofWord (fld bs o 8)

/-- ORef at byte `o` of a record. -/
def recOref (bs : List Byte) (o : Nat) : ORef := ORef.ofWord (fld bs o 8)

/-! ### Body formats (R284, R301, R304, R307) -/

/-- Format R. -/
def BodyR.ofWord (w : Nat) : BodyR := ⟨wordBits w 59 5, wordBits w 54 5, wordBits w 49 5, wordBits w 0 32⟩

/-- Format B. -/
def BodyB.ofWord (w : Nat) : BodyB := ⟨wordBits w 59 5, wordBits w 54 5, wordBits w 0 32⟩

/-- Format P. -/
def BodyP.ofWord (w : Nat) : BodyP :=
  ⟨wordBits w 48 16, wordBits w 42 6, wordBit w 41, wordBit w 40, wordBit w 39, wordBit w 38, wordBit w 37, SRef.ofWord w⟩

/-- Format W. -/
def BodyW.ofWord (w : Nat) : BodyW := ⟨wordBits w 56 8, wordBits w 51 5, wordBits w 32 16, wordBits w 0 32⟩

/-! ### Parameter records (R295 to R308) -/

/-- R295. -/
def RcallRec.ofBytes (r : List Byte) : RcallRec := ⟨recBits r 0 32, recBits r 4 16, recBits r 8 32, recBits r 12 5⟩

/-- R297. -/
def ProdRec.ofBytes (r : List Byte) : ProdRec where
  x := recOref r 0
  xStride := recBits r 8 32
  m := recBits r 12 32
  wDir := recAref r 16
  wPay := recAref r 24
  r0 := recBits r 32 16
  r1 := recBits r 34 16
  j0 := recBits r 36 16
  j1 := recBits r 38 16
  segCount := recBits r 40 32
  outStride := recBits r 44 32
  out := recOref r 48
  wFmt := recBits r 56 5
  sr := (fld r 57 1).testBit 0
  idxReg := recBits r 58 5
  seedReg := recBits r 59 5
  idxPitch := recBits r 60 32

/-- R298, MMG. -/
def MmgRec.ofBytes (r : List Byte) : MmgRec where
  x := recOref r 0
  xStride := recBits r 8 32
  m := recBits r 12 32
  posDir := recAref r 16
  posPay := recAref r 24
  r0 := recBits r 32 16
  r1 := recBits r 34 16
  j0 := recBits r 36 16
  j1 := recBits r 38 16
  segCount := recBits r 40 32
  dyStride := recBits r 44 32
  dy := recOref r 48
  posFmt := recBits r 56 5
  grad := recAref r 64
  frz := recAref r 72

/-- R298, MMG.CAND. -/
def CandRec.ofBytes (r : List Byte) : CandRec where
  x := recOref r 0
  xStride := recBits r 8 32
  m := recBits r 12 32
  list := recAref r 16
  count := recBits r 24 16
  dyStride := recBits r 44 32
  dy := recOref r 48
  outBase := recAref r 64

/-- R299. -/
def RedRec.ofBytes (r : List Byte) : RedRec where
  src := recOref r 0
  srcStride := recBits r 8 32
  e := recBits r 12 32
  c := recBits r 16 7
  idxBase := recBits r 20 32
  outStride := recBits r 24 32
  sr := (fld r 28 1).testBit 0
  idxReg := recBits r 29 5
  seedReg := recBits r 30 5
  out := recOref r 32
  out2 := recOref r 40
  idxPitch := recBits r 48 32

/-- R300. -/
def VecRec.ofBytes (r : List Byte) : VecRec where
  a := recOref r 0
  aStride := recBits r 8 32
  b := recOref r 12
  bStride := recBits r 20 32
  c := recOref r 24
  cStride := recBits r 32 32
  d := recOref r 36
  dStride := recBits r 44 32
  rows := recBits r 48 32
  cols := recBits r 52 32
  slot := recBits r 56 4
  sr := (fld r 57 1).testBit 0
  saveIn := (fld r 57 1).testBit 1
  idxReg := recBits r 58 5
  seedReg := recBits r 59 5
  idxPitch := recBits r 60 32

/-- R302. -/
def DmaRec.ofBytes (r : List Byte) : DmaRec where
  src := recOref r 0
  srcPay := recAref r 8
  dst := recOref r 16
  dstPay := recAref r 24
  mask := recAref r 32
  r0 := recBits r 40 16
  r1 := recBits r 42 16
  j0 := recBits r 44 16
  j1 := recBits r 46 16
  stride := recBits r 48 32
  len := recBits r 52 32
  positions := recBits r 56 32
  vtag := recBits r 60 32

/-- R304, REGROW.M. -/
def RegrowRec.ofBytes (r : List Byte) : RegrowRec := ⟨recAref r 0, recBits r 8 16, recBits r 12 32⟩

/-- R304, UNRM. -/
def UnrmRec.ofBytes (r : List Byte) : UnrmRec := ⟨recBits r 0 32, recBits r 4 32, recAref r 16⟩

/-- R304, UPD. -/
def UpdRec.ofBytes (r : List Byte) : UpdRec := ⟨recBits r 0 32, recBits r 4 32, recAref r 8, recAref r 16⟩

/-- R304, CTX.APPEND and CTX.ADV. -/
def CtxRec.ofBytes (r : List Byte) : CtxRec :=
  ⟨recAref r 0, recBits r 8 32, recBits r 12 16, recOref r 16, recBits r 24 32, recBits r 28 32⟩

/-- R304, PSTAGE. -/
def PstageRec.ofBytes (r : List Byte) : PstageRec := ⟨recAref r 0, recBits r 8 32⟩

/-- R306. -/
def RingRec.ofBytes (r : List Byte) : RingRec :=
  ⟨recOref r 0, recBits r 8 32, recBits r 12 16, recBits r 14 8, (fld r 15 1).testBit 0, recBits r 16 32⟩

/-- R308, DIG.H. -/
def DigHRec.ofBytes (r : List Byte) : DigHRec := ⟨recAref r 0, recBits r 8 64, recAref r 16, recAref r 24⟩

/-- R308, DIG.PROV. -/
def DigProvRec.ofBytes (r : List Byte) : DigProvRec := ⟨recAref r 0, recAref r 8, recAref r 16, recAref r 24⟩

/-! ### The opcode map (R291) -/

/-- Opcode of a word: bits [127:120] (R283). -/
def opcodeOf (w : Nat) : Nat := w / 2 ^ 120 % 256

/-- Whether the opcode map holds an opcode (R291). -/
def opcodeKnown (op : Nat) : Bool :=
  op ≤ 0x05 || (0x08 ≤ op && op ≤ 0x0C) || (0x10 ≤ op && op ≤ 0x1C) || (0x20 ≤ op && op ≤ 0x23) || (0x28 ≤ op && op ≤ 0x2A) ||
    (0x30 ≤ op && op ≤ 0x3A) || op == 0x3F || (0x40 ≤ op && op ≤ 0x46) || (0x50 ≤ op && op ≤ 0x56) || (0x60 ≤ op && op ≤ 0x65) ||
    (0x70 ≤ op && op ≤ 0x72) || op == 0x80 || op == 0x81 || op == 0x90 || op == 0x91 || op == 0x98 || op == 0x99

/-- Length of the parameter record of an opcode; 0 where it has none (R287). -/
def recordLen (op : Nat) : Nat :=
  if op == 0x22 || op == 0x23 then 128
  else if op == 0x03 || op == 0x20 || op == 0x21 || (0x28 ≤ op && op ≤ 0x2A) || (0x30 ≤ op && op ≤ 0x3A) || (0x40 ≤ op && op ≤ 0x46) ||
    op == 0x54 || op == 0x60 || op == 0x64 || (0x70 ≤ op && op ≤ 0x72) || op == 0x80 || op == 0x81 || op == 0x98 || op == 0x99 then 64
  else 0

/-- The scalar, branch and control instructions of a word. -/
def decodeControl (h : Head) (op w : Nat) : Option Instr :=
  let b := BodyR.ofWord w
  let t := BodyB.ofWord w
  match op with
  | 0x00 => some (.nop h)
  | 0x01 => some (.endStream h)
  | 0x02 => some (.stepb h t)
  | 0x04 => some (.setbase h b)
  | 0x05 => some (.setver h b)
  | 0x08 => some (.br h t)
  | 0x09 => some (.beq h t)
  | 0x0A => some (.bne h t)
  | 0x0B => some (.bltu h t)
  | 0x0C => some (.blt h t)
  | 0x10 => some (.sadd h b)
  | 0x11 => some (.ssub h b)
  | 0x12 => some (.smul h b)
  | 0x13 => some (.sand h b)
  | 0x14 => some (.sor h b)
  | 0x15 => some (.sxor h b)
  | 0x16 => some (.sshl h b)
  | 0x17 => some (.sshr h b)
  | 0x18 => some (.ssra h b)
  | 0x19 => some (.sli h b)
  | 0x1A => some (.slih h b)
  | 0x1B => some (.sld h b)
  | 0x1C => some (.sst h b)
  | _ => none

/-- The array instructions of a word and its record: products, reductions, vector instructions, VTLOAD. -/
def decodeArray (h : Head) (op w : Nat) (r : List Byte) : Option Instr :=
  let b := BodyP.ofWord w
  match op with
  | 0x20 => some (.mmf h b (ProdRec.ofBytes r))
  | 0x21 => some (.mmt h b (ProdRec.ofBytes r))
  | 0x22 => some (.mmg h b (MmgRec.ofBytes r))
  | 0x23 => some (.mmgCand h b (CandRec.ofBytes r))
  | 0x28 => some (.redSum h b (RedRec.ofBytes r))
  | 0x29 => some (.redMax h b (RedRec.ofBytes r))
  | 0x2A => some (.redMin h b (RedRec.ofBytes r))
  | 0x30 => some (.vadd h b (VecRec.ofBytes r))
  | 0x31 => some (.vsub h b (VecRec.ofBytes r))
  | 0x32 => some (.vmul h b (VecRec.ofBytes r))
  | 0x33 => some (.vfma h b (VecRec.ofBytes r))
  | 0x34 => some (.vmax h b (VecRec.ofBytes r))
  | 0x35 => some (.vmin h b (VecRec.ofBytes r))
  | 0x36 => some (.vabs h b (VecRec.ofBytes r))
  | 0x37 => some (.vneg h b (VecRec.ofBytes r))
  | 0x38 => some (.vcvt h b (VecRec.ofBytes r))
  | 0x39 => some (.vfn h b (VecRec.ofBytes r))
  | 0x3A => some (.vder h b (VecRec.ofBytes r))
  | 0x3F => some (.vtload h (wordBit w 36) (wordBits w 32 4) (SRef.ofWord w))
  | _ => none

/-- The module's instructions of a word and its record: DMA, masks, update, context, ring, counters, digests. -/
def decodeModule (h : Head) (op w : Nat) (r : List Byte) : Option Instr :=
  let ref := SRef.ofWord w
  let wt : BitVec 16 := wordBits w 48 16
  let t5 : BitVec 5 := wordBits w 32 5
  let d : BitVec 32 := wordBits w 0 32
  match op with
  | 0x03 => some (.rcall h ref (RcallRec.ofBytes r))
  | 0x40 => some (.dloadC h ref (DmaRec.ofBytes r))
  | 0x41 => some (.dloadD h ref (DmaRec.ofBytes r))
  | 0x42 => some (.dloadT h ref (DmaRec.ofBytes r))
  | 0x43 => some (.dbuild h ref (DmaRec.ofBytes r))
  | 0x44 => some (.dcopy h ref (DmaRec.ofBytes r))
  | 0x45 => some (.dadd h ref (DmaRec.ofBytes r))
  | 0x46 => some (.dfill h ref (DmaRec.ofBytes r))
  | 0x50 => some (.mbind h ref)
  | 0x51 => some (.mdec h wt (wordBits w 39 9) ref)
  | 0x52 => some (.pruneG h wt t5)
  | 0x53 => some (.pruneL h wt t5 d)
  | 0x54 => some (.regrowM h wt ref (RegrowRec.ofBytes r))
  | 0x55 => some (.regrowR h wt t5 d)
  | 0x56 => some (if h.mod.getLsbD 0 then .mcommitAdopt h wt d else .mcommit h wt d)
  | 0x60 => some (.unrm h wt ref (UnrmRec.ofBytes r))
  | 0x61 => some (.unrmFin h)
  | 0x62 => some (.uchk h)
  | 0x63 => some (.uverOpen h wt d)
  | 0x64 => some (.upd h wt ref (UpdRec.ofBytes r))
  | 0x65 => some (.uverClose h wt)
  | 0x70 => some (.ctxAppend h ref (CtxRec.ofBytes r))
  | 0x71 => some (.ctxAdv h ref (CtxRec.ofBytes r))
  | 0x72 => some (.pstage h ref (PstageRec.ofBytes r))
  | 0x80 => some (.rsend h ref (RingRec.ofBytes r))
  | 0x81 => some (.rrecv h ref (RingRec.ofBytes r))
  | 0x90 => some (.wcreq h (BodyW.ofWord w))
  | 0x91 => some (.wcset h (BodyW.ofWord w))
  | 0x98 => some (.digH h ref (DigHRec.ofBytes r))
  | 0x99 => some (.digProv h ref (DigProvRec.ofBytes r))
  | _ => none

/-- The command that a 128-bit instruction word with its parameter record stands for, at the head of stream `st` of array `n`; none for an opcode outside the map (R283, R291). -/
def decodeWord (n : Nat) (st : Stream) (w : Nat) (r : List Byte) : Option Instr :=
  let h : Head := ⟨n, st, wordBits w 112 8, wordBits w 80 32, wordBits w 64 16⟩
  let op := opcodeOf w
  (decodeControl h op w).orElse (fun _ => (decodeArray h op w r).orElse (fun _ => decodeModule h op w r))

/-- The command that the bytes at an address stand for: the word there and, where its opcode has a record, the record at its SREF, read against the stream's base registers (R283, R287). -/
def State.wordAt (s : State) (n : Nat) (st : Stream) (a : Nat) : Option Instr :=
  let w := memNat s.mem a 16
  let ref := SRef.ofWord w
  let at_ := nat64 (((s.ctx n st).abs.getD ref.ab.toNat 0#64).toNat + 32 * ref.ofs.toNat)
  decodeWord n st w (memGet s.mem at_ (recordLen (opcodeOf w)))

end Sys2Proof.Machine
end

