-- ==== Sys2Proof/Machine/Latency.lean ====
section
/-! DEFINITION. Declared latencies and depths (R365, R366, R368): the loaded binary's declared values, or the factory table when none is loaded. -/

namespace Sys2Proof.Machine

/-- Value of an id in a table. -/
def tableGet (t : List (Nat × Nat)) (id : Nat) : Option Nat := (t.find? (fun e => e.1 == id)).map Prod.snd

/-- Factory latency of an id. -/
def State.factoryLat (s : State) (id : Nat) : Nat := (tableGet (factoryTable s.dev.stepping) id).getD 0

/-- The latency the module runs at: the declared one when a binary is loaded (R368). -/
def State.lat (s : State) (id : Nat) : Nat :=
  match s.host.image with
  | some i => (tableGet i.decl.lat id).getD (s.factoryLat id)
  | none => s.factoryLat id

end Sys2Proof.Machine
end

