-- ==== Sys2Proof/Machine/Issue.lean ====
section
/-! DEFINITION. Issue of an instruction at the head of its stream: fetch, marks, decode, holds, resources, issue checks, retirement (R243, R255 to R260, R268, R269, R287 to R290). -/

namespace Sys2Proof.Machine

/-! ### What is in flight -/

/-- Whether a final tile or queue entry is to be drained (R174). -/
def QEntry.drains (q : QEntry) : Bool := !q.fused || q.index

/-- Due ticks of the operations in flight in one array: slots, descriptors, the codec lane, and products until their last drain has written (R243). -/
def ArrayState.dues (a : ArrayState) : List Nat :=
  a.ops.map (·.due) ++ a.queueF.map (·.due) ++ a.queueB.map (·.due) ++ a.queueU.map (·.due) ++
    a.lane.toList.map (·.desc.due) ++ ((a.waiting ++ a.queue).filter QEntry.drains).map (·.due) ++
    a.pass.toList.map (·.due) ++ a.landings.map (·.due)

/-- Due ticks of every operation of the module in flight (R243): arrays, mask queue, ring messages. -/
def State.dues (s : State) : List Nat :=
  s.arrays.flatMap ArrayState.dues ++ s.mask.queue.map (·.due) ++ s.mask.running.toList.map (·.1.due) ++
    s.ring.ctxs.flatMap (fun c => c.2.recvs.map (·.due) ++ c.2.sends.map (·.due))

/-- Whether nothing is in flight in one array. -/
def ArrayState.quiet (a : ArrayState) : Bool :=
  a.ops.isEmpty && a.queueF.isEmpty && a.queueB.isEmpty && a.queueU.isEmpty && a.lane.isNone && a.landings.isEmpty &&
    a.pass.isNone && (a.waiting ++ a.queue).all (fun q => !q.drains)

/-- Whether no operation of the module is in flight. -/
def State.nothingInFlight (s : State) : Bool :=
  s.arrays.all ArrayState.quiet && s.mask.queue.isEmpty && s.mask.running.isNone &&
    s.ring.ctxs.all (fun c => c.2.recvs.isEmpty && c.2.sends.isEmpty)

/-- Marks of the heads of the module other than one stream's (condition 3 of R243). -/
def State.otherHeads (s : State) (n : Nat) (st : Stream) : List Nat :=
  s.arrays.zipIdx.flatMap (fun (a, i) => allStreams.flatMap (fun t =>
    if i == n && t == st then [] else ((a.ctx t).head.toList.map (·.mark))))

/-- The three conditions of R243 for an effective mark `m`. -/
def State.marksHold (s : State) (n : Nat) (st : Stream) (m : Nat) : Bool :=
  m ≤ s.tick && s.dues.all (fun d => m ≤ d) && (s.otherHeads n st).all (fun x => m ≤ x)

/-! ### Stream context helpers -/

/-- Step number of an instruction of a stream (R266). -/
def StreamCtx.curStep (c : StreamCtx) : Nat :=
  match c.recompute with
  | some r => r.step
  | none => c.step

/-- Scalar register value. -/
def StreamCtx.sreg (c : StreamCtx) (r : Nat) : W64 := c.sregs.getD r 0#64

/-- Sets a scalar register. -/
def StreamCtx.setSreg (c : StreamCtx) (r : Nat) (v : W64) : StreamCtx := { c with sregs := c.sregs.set r v }

/-- Base register value. -/
def StreamCtx.base_ (c : StreamCtx) (r : Nat) : W64 := c.abs.getD r 0#64

/-- Effective mark before its range check (R242, R268): base + P, plus Δ under the recompute flag. -/
def StreamCtx.mark (c : StreamCtx) (p : BitVec 32) : Int :=
  (c.base : Int) + (p.toNat : Int) + (match c.recompute with
    | some r => r.delta
    | none => 0)

/-- Whether the effective mark can be formed (R269). -/
def StreamCtx.markOk (c : StreamCtx) (p : BitVec 32) : Bool := 0 ≤ c.mark p && c.mark p < 2 ^ 64

/-- Address of an AREF (R285), modulo 2⁶⁴. -/
def StreamCtx.aref (c : StreamCtx) (r : ARef) : Nat := nat64 ((c.base_ r.ab.toNat).toNat + r.ofs.toNat)

/-- Address of an ORef of a kind that forms one. -/
def StreamCtx.oref (c : StreamCtx) (r : ORef) : Nat := nat64 ((c.base_ r.ab.toNat).toNat + r.ofs.toNat)

/-- Address of an SREF: offset in units of 32 bytes. -/
def StreamCtx.sref (c : StreamCtx) (r : SRef) : Nat := nat64 ((c.base_ r.ab.toNat).toNat + 32 * r.ofs.toNat)

/-- Index of the region a stream is fetched from: its code region, or the F stream's under the recompute flag (R142, R256). -/
def State.fetchIdx (s : State) (n : Nat) (st : Stream) : Option Nat :=
  if (s.ctx n st).recompute.isSome then (s.arr n).f.codeRegion else (s.ctx n st).codeRegion

/-- The region the sequencer fetches from (R256): F's code region under the recompute flag. -/
def State.fetchRegion (s : State) (n : Nat) (st : Stream) : Option Region :=
  match s.fetchIdx n st with
  | some i => s.tiers.regions[i]?
  | none => none

/-! ### Issue -/

/-- What a class tells the issue operation about an instruction. `decodeBad`: the check field of a decode fault that another rule states (R164, R166, R174); `wants`: (object, array) stagings to request while it is held (R232); `copies`: journal blocks its store waits for (R348); `units`: what it competes for, the accumulator units of R114 or the port of a message (R321); `formatRows`: the rows of the class's issue checks that test a format code or its role, which are raised at decode (R20). -/
structure IssueInfo where
  opcode : Nat
  streams : List Stream
  modOk : Bool
  noRecompute : Bool
  regsOk : Bool
  sregs : List Nat
  needSlot : Bool
  record : Option (SRef × Nat)
  hold : Option Hold
  check : Option FaultRec
  target : Option Nat
  object : Nat
  decodeBad : Option Nat
  wants : List (Nat × Nat)
  copies : List Nat
  units : List Nat
  formatRows : List Nat
  deriving DecidableEq, Repr

/-- An instruction that takes no slot, reads no record and has nothing to check. -/
def IssueInfo.simple (opcode : Nat) (sregs : List Nat) : IssueInfo :=
  ⟨opcode, allStreams, true, false, true, sregs, false, none, none, none, none, 0xFFFF, none, [], [], [], []⟩

/-- A fault record of an instruction that did not issue (R431): block 0x01, its stream, pc and opcode. -/
def State.issueFault (s : State) (h : Head) (opcode object code check addr : Nat) : FaultRec :=
  { FaultRec.of code 1 with
    arr := h.arr
    stream := h.stream.idx
    pc := (s.ctx h.arr h.stream).pc
    check := check
    opcode := opcode
    object := object
    addr := addr
    aux := s.faultAux h.arr code addr }

/-- Whether a stream can have a head at all: RUNNING, not stopped, its array active, the stream running, the phase not lost before this period (R240). -/
def State.streamLive (s : State) (n : Nat) (st : Stream) : Bool :=
  s.host.st == .running && s.stp.started && !s.flt.stopped && n < s.nArrays && n < s.arrays.length &&
    !(s.arr n).stopped && (s.ctx n st).st == .running && !(s.ctx n st).failed && !(s.thy.phaseLost && s.thy.lostIn < s.period)

/-- The pc lies in the permitted region, and so does the record (R256, R287). -/
def State.fetchOk (s : State) (h : Head) (i : IssueInfo) : Bool :=
  let c := s.ctx h.arr h.stream
  match s.fetchRegion h.arr h.stream with
  | none => false
  | some r =>
    c.pc + 16 ≤ r.size &&
    (match i.record with
      | none => true
      | some (ref, len) => r.base ≤ c.sref ref && c.sref ref + len ≤ r.base + r.size && c.sref ref % 32 == 0)

/-- The bytes an instruction is fetched from: its word at the pc and its record (R256, R287). -/
def State.fetchSpans (s : State) (h : Head) (i : IssueInfo) : List (Nat × Nat) :=
  let c := s.ctx h.arr h.stream
  match s.fetchRegion h.arr h.stream with
  | none => []
  | some r => (r.base + c.pc, 16) :: i.record.toList.map (fun x => (c.sref x.1, x.2))

/-- First uncorrectable block or word that the fetch meets, with its fault code (R209, R216). -/
def State.fetchBad (s : State) (h : Head) (i : IssueInfo) : Option (Nat × Nat) := (s.fetchSpans h i).findSome? (fun x => s.eccAt x.1 x.2)

/-- What fetching an instruction that issues corrects on its way (R209, R216). -/
def State.fetched (s : State) (h : Head) (i : IssueInfo) : State :=
  (s.fetchSpans h i).foldl (fun (s : State) x => s.correctAt x.1 x.2) s

/-- Whether the word at the pc carries an opcode of the map (R283, R291). The command gives the instruction; the word in memory decides row 1 of R290 alone (DESIGN CHOICE, log 75). -/
def State.opcodeOk (s : State) (n : Nat) (st : Stream) : Bool :=
  match s.fetchRegion n st with
  | some r => opcodeKnown (memByte s.mem (r.base + (s.ctx n st).pc + 15)).toNat
  | none => false

/-- Row of R290 that fails, if any, or the check of a decode fault that another rule states. -/
def State.decodeRow (s : State) (h : Head) (i : IssueInfo) : Option Nat :=
  if !s.opcodeOk h.arr h.stream then some 1
  else if !i.streams.contains h.stream then some 2
  else if !i.modOk then some 3
  else if i.noRecompute && (s.ctx h.arr h.stream).recompute.isSome then some 4
  else if !i.regsOk then some 5
  else i.decodeBad

/-- A format fault of the class's checks, where it is the first that fails: it is raised at decode, before any hold (R20). -/
def IssueInfo.formatFault (i : IssueInfo) : Option FaultRec :=
  i.check.filter (fun r => r.code == 0x24 && i.formatRows.contains r.check)

/-- The fault that decode raises, if any (R20, R290). -/
def State.decodeFault (s : State) (h : Head) (i : IssueInfo) : Option FaultRec :=
  match s.decodeRow h i with
  | some row => some (s.issueFault h i.opcode i.object 0x24 row 0)
  | none => i.formatFault

/-- Whether an in-flight SLD or WCREQ of the stream still writes one of the registers (R288). -/
def State.sregHeld (s : State) (h : Head) (rs : List Nat) : Bool :=
  (s.arr h.arr).ops.any (fun o => o.stream == h.stream && (match o.sreg with
    | some r => rs.contains r
    | none => false))

/-- Lowest free slot of a stream's range (R259). -/
def ArrayState.freeSlot (a : ArrayState) (st : Stream) : Option Nat :=
  ((List.range (a.ctx st).slotN).map (· + (a.ctx st).slotLo)).find? (fun k => a.ops.all (fun o => o.slot != k))

/-- Holds of the step rules (R264, R393). -/
def State.stepHold (s : State) (h : Head) : Option Hold :=
  let c := s.ctx h.arr h.stream
  if s.host.holdStep.any (fun k => k ≤ c.step) then some .step
  else if h.stream == .u && c.stepbDone then some .skew
  else none

/-- Units that an operation of the array owns, or released in this very cycle (R113, R114). -/
def ArrayState.heldUnits (a : ArrayState) (now : Nat) : List Nat :=
  a.ops.flatMap (·.units) ++ (if a.unitFreed == now then a.freedUnits else [])

/-- Whether an instruction that names these units is held (R114). -/
def ArrayState.unitsHeld (a : ArrayState) (now : Nat) (us : List Nat) : Bool := us.any (fun u => (a.heldUnits now).contains u)

/-- Whether the hold recorded for a head may have ended: so as far as the state tells, and so for every hold it does not tell about. -/
def State.mayIssue (s : State) (n : Nat) (st : Stream) (hi : HeadInfo) : Bool :=
  let a := s.arr n
  match hi.hold with
  | .penalty => (a.ctx st).notBefore ≤ s.cycle
  | .acc => !a.unitsHeld s.cycle hi.units
  | .slot => (a.freeSlot st).isSome
  | .sreg => a.ops.all (fun o => o.stream != st || o.sreg.isNone)
  | .staging => hi.wants.all (fun w => s.tiers.staged.any (fun x => x.obj == w.1 && x.arr == w.2 && !x.arriving))
  | .skew => !(a.ctx st).stepbDone
  | _ => true

/-- Whether a known head of an earlier stream of the order F, B, U of the array, with an equal mark, is to issue first: its hold may have ended and it has not been tested in this cycle (R257, R363). -/
def State.yields (s : State) (h : Head) (m : Nat) : Bool :=
  allStreams.any (fun t => t.idx < h.stream.idx && s.streamLive h.arr t && (match (s.ctx h.arr t).head with
    | some hi => hi.mark == m && (hi.hold == .arbitration || hi.seen != s.cycle) && s.mayIssue h.arr t hi
    | none => false))

/-- Number of the heads of lower-numbered arrays that wait for an entry of the same queue and have not been tested in this cycle: they take its next entries first (R363). -/
def State.ahead (s : State) (h : Head) (k : Hold) (us : List Nat) : Nat :=
  ((List.range h.arr).flatMap (fun n => allStreams.filter (fun t => s.streamLive n t && (s.ctx n t).head.any (fun hi =>
    hi.hold == k && hi.units == us && hi.seen != s.cycle)))).length

/-- Whether the target of a taken branch leaves the range of a recompute (R144). -/
def StreamCtx.leavesRange (c : StreamCtx) (target : Nat) : Bool :=
  match c.recompute with
  | none => false
  | some r => target < r.code || r.code + 16 * r.count < target

/-- What happens to an instruction at the head of its stream in this cycle. -/
inductive Verdict where
  | absent
  | hold (k : Hold)
  | fault (r : FaultRec)
  | go (slot : Nat)
  deriving DecidableEq, Repr

/-- First byte of a fetch that lies outside the region fetched from: of the word at the pc, else of the record; a misaligned record's own first byte; 0 without a region (R256, R287, R431). -/
def State.fetchOutside (s : State) (h : Head) (i : IssueInfo) : Nat :=
  let c := s.ctx h.arr h.stream
  match s.fetchRegion h.arr h.stream with
  | none => 0
  | some r =>
    if r.size < c.pc + 16 then r.base + max c.pc r.size
    else match i.record with
      | none => 0
      | some (ref, _) => if r.base ≤ c.sref ref && c.sref ref < r.base + r.size && c.sref ref % 32 == 0 then r.base + r.size else c.sref ref

/-- The fault that a fetch raises, if any: outside the region, which the record names, or on an uncorrectable block or word (R209, R216, R256, R287, R431). -/
def State.fetchFault (s : State) (h : Head) (i : IssueInfo) : Option FaultRec :=
  if !s.fetchOk h i then
    some { s.issueFault h i.opcode i.object 0x10 0 (s.fetchOutside h i) with aux := (s.fetchIdx h.arr h.stream).getD 0 }
  else (s.fetchBad h i).map (fun x => s.issueFault h i.opcode i.object x.1 0 x.2)

/-- Decides issue: fetch, mark, R243, penalty, decode, holds, resource, arbitration, issue checks, in that order. -/
def State.verdict (s : State) (h : Head) (i : IssueInfo) : Verdict :=
  let c := s.ctx h.arr h.stream
  let m := (c.mark h.p).toNat
  if !s.streamLive h.arr h.stream then .absent
  else if s.cycle < c.notBefore then .hold .penalty
  else match s.fetchFault h i with
  | some r => .fault r
  | none =>
  if !c.markOk h.p then .fault (s.issueFault h i.opcode i.object 0x24 0 0)
  else if !s.marksHold h.arr h.stream m then .hold .mark
  else match s.decodeFault h i with
    | some r => .fault r
    | none => match s.stepHold h with
      | some k => .hold k
      | none =>
        if s.sregHeld h i.sregs then .hold .sreg
        else match i.hold with
          | some k => .hold k
          | none =>
            match (if i.needSlot then (s.arr h.arr).freeSlot h.stream else some 0) with
            | none => .hold .slot
            | some slot =>
              if (s.arr h.arr).lastIssue == some s.cycle || s.yields h m then .hold .arbitration
              else if (match i.target with
                  | some t => c.leavesRange t
                  | none => false) then .fault (s.issueFault h i.opcode i.object 0x24 0 0)
              else match i.check with
                | some r => .fault r
                | none => .go slot

/-- Counter that counts holds of a kind, once per held instruction. -/
def State.holdCounter (s : State) (h : Head) : Hold → Option Nat
  | .acc => some (s.arrReg h.arr Reg.ARR_ACC_HAZARD)
  | .gb => some (s.arrReg h.arr Reg.ARR_UPD_GB_WAIT)
  | .table => some (s.arrReg h.arr Reg.ARR_VEC_TBL_WAIT)
  | .maskq => some Reg.MSK_QUEUE_WAIT
  | .staging => some Reg.TIR_STAGE_HOLD
  | .skew => some Reg.STP_SKEW_WAIT
  | .dillq => some Reg.DIG_QUEUE_WAIT
  | _ => none

/-- A priority request for an object in an array's window (R200, R230, R232). -/
def State.askStage (s : State) (obj arr : Nat) : State :=
  if s.tiers.requests.contains ⟨obj, arr⟩ then s
  else { s with tiers := { s.tiers with requests := s.tiers.requests ++ [⟨obj, arr⟩] } }

/-- A write waits for the journal copies of its blocks (R348). -/
def State.askJournal (s : State) (step : Nat) (bs : List Nat) : State :=
  { s with mir := { s.mir with jrnWait := s.mir.jrnWait ++ (bs.filter (fun b => !s.mir.jrnWait.contains (b, step))).map (fun b => (b, step)) } }

/-- Whether a recorded head is this instruction. -/
def HeadInfo.is (x : HeadInfo) (opcode m : Nat) : Bool := x.opcode == opcode && x.mark == m

/-- The recorded head of a stream, where it is this instruction. -/
def State.knownHead (s : State) (h : Head) (opcode m : Nat) : Option HeadInfo :=
  (s.ctx h.arr h.stream).head.filter (fun x => x.is opcode m)

/-- Records the head of a stream. -/
def State.setHead (s : State) (h : Head) (x : Option HeadInfo) : State := s.modCtx h.arr h.stream (fun c => { c with head := x })

/-- What a hold asks for: stagings, each one that is neither made nor under way, for as long as the hold lasts (R232), journal copies (R348). -/
def State.askFor (s : State) (h : Head) (i : IssueInfo) (k : Hold) : State :=
  match k with
  | .staging => (i.wants.filter (fun w => s.tiers.staged.all (fun x => x.obj != w.1 || x.arr != w.2))).foldl (fun (s : State) (w : Nat × Nat) => s.askStage w.1 w.2) s
  | .journal => s.askJournal (s.ctx h.arr h.stream).curStep i.copies
  | _ => s

/-- Counts a hold of an instruction, once for each kind (R114, R132, R153, R183, R264, R309). -/
def State.countHold (s : State) (h : Head) (k : Hold) (counted : List Hold) : State :=
  match s.holdCounter h k with
  | some r => if counted.contains k then s else s.bump r 1
  | none => s

/-- The instruction waits at the head of its stream; a hold is counted when it begins. -/
def State.holdHead (s : State) (h : Head) (i : IssueInfo) (k : Hold) : State :=
  let m := ((s.ctx h.arr h.stream).mark h.p).toNat
  match s.knownHead h i.opcode m with
  | some x =>
    if x.hold == k then (s.askFor h i k).setHead h (some { x with wants := i.wants, seen := s.cycle })
    else ((s.countHold h k x.counted).askFor h i k).setHead h
      (some { x with hold := k, since := s.cycle, sinceTick := s.tick, wants := i.wants, units := i.units,
                     counted := if x.counted.contains k then x.counted else x.counted ++ [k], seen := s.cycle })
  | none => ((s.countHold h k []).askFor h i k).setHead h
      (some ⟨i.opcode, m, m + h.delta.toNat, k, s.cycle, s.tick, i.wants, false, i.units, [k], s.cycle⟩)

/-- Effective mark as a natural number; meaningful where `markOk`. -/
def State.markOf (s : State) (h : Head) : Nat := ((s.ctx h.arr h.stream).mark h.p).toNat

/-- Whether the pc has left the code region: no instruction stands there (R256). -/
def State.pcOutside (s : State) (h : Head) : Bool :=
  (s.fetchRegion h.arr h.stream).all (fun r => r.size < (s.ctx h.arr h.stream).pc + 16)

/-- The instruction faults and does not issue: it stays the head of its stream, which issues nothing further (R257, R427). -/
def State.faultHead (s : State) (h : Head) (r : FaultRec) : State :=
  let m := s.markOf h
  let late := (s.knownHead h r.opcode m).any (·.late)
  let hi : HeadInfo := ⟨r.opcode, m, m + h.delta.toNat, .step, s.cycle, s.tick, [], late, [], [], s.cycle⟩
  (s.modCtx h.arr h.stream (fun c => { c with failed := true, head := if c.markOk h.p && !s.pcOutside h then some hi else none })).raise r

/-- The pc after an instruction: the branch penalty follows every move, and a recompute ends at the end of its range (R142, R293). -/
def StreamCtx.movePc (c : StreamCtx) (target : Option Nat) (now penalty : Nat) : StreamCtx :=
  let npc := target.getD (c.pc + 16)
  match c.recompute with
  | some r =>
    if npc == r.code + 16 * r.count then { c with pc := r.ret, recompute := none, notBefore := now + penalty }
    else { c with pc := npc, notBefore := if target.isSome then now + penalty else now + 1 }
  | none => { c with pc := npc, notBefore := if target.isSome then now + penalty else now + 1 }

/-- The common effect of issue: the head is free, the pc moves, the array has issued in this cycle. -/
def State.issued (s : State) (h : Head) (i : IssueInfo) : State :=
  let pen := s.lat 0x33
  let s := s.modArr h.arr (fun a =>
    { a.modCtx h.stream (fun c => { c.movePc i.target s.cycle pen with head := none }) with lastIssue := some s.cycle, issueSeq := a.issueSeq + 1 })
  s.bumpArr64 h.arr Reg.ARR_ISSUED 1

/-- Issue of one instruction: `act slot` is its own effect, given the slot it takes and the state before issue's common effect is the argument of `info`. -/
def issue (h : Head) (i : IssueInfo) (act : Nat → State → State) (s : State) : Host.Outcome State Fault Refusal :=
  match s.verdict h i with
  | .absent => .next s
  | .hold k => .next (s.holdHead h i k)
  | .fault r => .next (s.faultHead h r)
  | .go slot => .next (act slot ((s.fetched h i).issued h i))

/-- The instruction became past due while it waited at the head: it is not counted again (R244). -/
def State.headLate (s : State) (h : Head) : Bool := (s.ctx h.arr h.stream).head.any (·.late)

/-- A new in-flight operation of the instruction: `s` is the state before issue. -/
def State.newOp (s : State) (h : Head) (opcode slot wt readyAt : Nat) (body : OpBody) : Op :=
  let c := s.ctx h.arr h.stream
  { slot := slot, stream := h.stream, opcode := opcode, pc := c.pc, mark := s.markOf h, due := s.markOf h + h.delta.toNat,
    step := c.curStep, wt := wt, ver := c.ver, sreg := none, table := none, seq := (s.arr h.arr).issueSeq, units := [], objs := [], readyAt := readyAt,
    late := s.headLate h, body := body }

/-- Adds an operation to an array. -/
def State.addOp (s : State) (n : Nat) (o : Op) : State := s.modArr n (fun a => { a with ops := a.ops ++ [o] })

/-- The operation in a slot. -/
def State.op? (s : State) (n slot : Nat) : Option Op := (s.arr n).ops.find? (fun o => o.slot == slot)

/-- Replaces the operation of a slot. -/
def State.setOp (s : State) (n : Nat) (o : Op) : State :=
  s.modArr n (fun a => { a with ops := a.ops.map (fun x => if x.slot == o.slot then o else x) })

/-- Takes an operation out of its slot: it retires. -/
def State.dropOp (s : State) (n slot : Nat) : State :=
  s.modArr n (fun a => { a with ops := a.ops.filter (fun x => x.slot != slot) })

/-- A fault record of an operation in flight (R431); an accumulator word has no address. -/
def State.opFault (s : State) (o : Op) (n code check addr : Nat) : FaultRec :=
  { FaultRec.of code 1 with
    arr := n, stream := o.stream.idx, slot := o.slot, pc := o.pc, check := check, opcode := o.opcode, object := o.wt,
    addr := if (accOf addr).isSome then 0 else addr,
    aux := s.faultAux n code addr }

end Sys2Proof.Machine
end

