-- ==== Sys2Proof/Machine/Flags.lean ====
section
/-! DEFINITION. Accumulator memory: tile status words, ownership, reading and writing units, undefined contents (R71, R75, R103, R104, R110 to R114). -/

namespace Sys2Proof.Machine

/-! ### The tile status word (R103) -/

/-- A TSW from its fields; `flags` are bits [3:0] without sat, which follows from them. -/
def tswOf (dfn : Bool) (fmt kind owner stream flags : Nat) : W32 :=
  let f := flags / 2 * 2
  BitVec.ofNat 32 (bnat dfn * 2 ^ 31 + fmt * 2 ^ 26 + kind * 2 ^ 24 + owner * 2 ^ 16 + stream * 2 ^ 14 + f + bnat (f / 2 % 4 != 0))

/-- Field `defined`. -/
def tswDefined (w : W32) : Bool := bit w.toNat 31 == 1

/-- Field `total_format`. -/
def tswFormat (w : W32) : Nat := bits w.toNat 30 26

/-- Field `kind`. -/
def tswKind (w : W32) : Nat := bits w.toNat 25 24

/-- Field `owner`; 0xFF when free. -/
def tswOwner (w : W32) : Nat := bits w.toNat 23 16

/-- Bits [3:0]. -/
def tswFlags (w : W32) : Nat := bits w.toNat 3 0

/-- The TSW of a unit. -/
def ArrayState.tswAt (a : ArrayState) (u : Nat) : W32 := a.tsw.getD u tswReset

/-- Sets the TSW of a tile's units: an upper unit reads as a copy of the lower (R103). -/
def ArrayState.setTsw (a : ArrayState) (u : Nat) (two : Bool) (w : W32) : ArrayState :=
  let t := a.tsw.set u w
  { a with tsw := if two then t.set (u + 1) w else t }

/-- Flags raised in a tile: sat_run 2, sat_total 4, nonfinite 8; its values are then defined (R101 to R104). -/
def ArrayState.flagTile (a : ArrayState) (u : Nat) (two : Bool) (flags : Nat) : ArrayState :=
  let w := a.tswAt u
  a.setTsw u two (tswOf true (tswFormat w) (tswKind w) (tswOwner w) (bits w.toNat 15 14) (tswFlags w ||| flags))

/-! ### Units -/

/-- The 16,384 words of a unit. -/
def ArrayState.unit (a : ArrayState) (u : Nat) : List W32 :=
  (List.range 16384).map (fun i => kvGet 0#32 a.acc (u * 16384 + i))

/-- Writes the words of a unit, keeping the sparse form. -/
def ArrayState.setUnit (a : ArrayState) (u : Nat) (ws : List W32) : ArrayState :=
  let mine := (ws.zipIdx.filter (fun (w, _) => w != 0#32)).map (fun (w, i) => (u * 16384 + i, w))
  { a with acc := a.acc.filter (fun e => e.1 < u * 16384) ++ mine ++ a.acc.filter (fun e => (u + 1) * 16384 ≤ e.1) }

/-- Issue takes ownership of the tiles: format, kind, owner; acc_init = 0 clears the flags (R104, R113). -/
def ArrayState.own (a : ArrayState) (tiles : List Nat) (two : Bool) (fmt kind slot : Nat) (st : Stream) (accInit : Bool) : ArrayState :=
  tiles.foldl (fun (a : ArrayState) u =>
    let w := a.tswAt u
    a.setTsw u two (tswOf (tswDefined w) fmt kind slot st.idx (if accInit then tswFlags w else 0))) a

/-- Releases the units of an operation (R113, R114). -/
def ArrayState.release (a : ArrayState) (now : Nat) (us : List Nat) : ArrayState :=
  let t := us.foldl (fun (t : List W32) u =>
    let w := t.getD u tswReset
    t.set u (tswOf (tswDefined w) (tswFormat w) (tswKind w) 0xFF 3 (tswFlags w))) a.tsw
  { a with tsw := t, unitFreed := now, freedUnits := if a.unitFreed == now then a.freedUnits ++ us else us }

/-- 16,384 fresh free words. -/
def State.freeUnit (s : State) : List W32 := (List.range 16384).map (fun i => Config.freeWord (s.freeCtr + i))

/-- The contents of units become undefined: free values (R71, R75, R113). -/
def State.undefUnits (s : State) (n : Nat) (us : List Nat) : State :=
  us.foldl (fun (s : State) u => (s.modArr n (fun a => a.setUnit u s.freeUnit)).used 16384) s

/-- The units of a faulted operation: undefined contents, defined = 0, released (R75, R113). -/
def State.spoilUnits (s : State) (n : Nat) (us : List Nat) : State :=
  let s := s.undefUnits n us
  s.modArr n (fun a =>
    let t := us.foldl (fun (t : List W32) u =>
      let w := t.getD u tswReset
      t.set u (tswOf false (tswFormat w) (tswKind w) 0xFF 3 (tswFlags w))) a.tsw
    ({ a with tsw := t } : ArrayState).release s.cycle us)

/-- Retires an operation: out of its slot, its units released. -/
def State.retireOp (s : State) (n : Nat) (o : Op) : State :=
  (s.dropOp n o.slot).modArr n (fun a => if o.units.isEmpty then a else a.release s.cycle o.units)

/-- Counters and sticky bits of a tile that becomes final (R104). -/
def State.countFinal (s : State) (n u : Nat) : State :=
  let f := tswFlags ((s.arr n).tswAt u)
  let s := if f % 2 == 1 then (s.bumpArr n Reg.ARR_ACC_SAT 1).setArrBits n Reg.ARR_STATUS 1 else s
  if f / 8 % 2 == 1 then s.setArrBits n Reg.ARR_STATUS 2 else s

/-- First row of R112 that the named units fail, with its fault code. Conditions 4 and 5 test the status word of both units of a two-unit tile, whose upper one a single tile may have taken since (DESIGN CHOICE, log 104). -/
def ArrayState.accCheck (a : ArrayState) (st : Stream) (base count : Nat) (two accInit : Bool) (fmt kind : Nat) : Option Nat :=
  let us := (List.range count).map (· + base)
  if base + count > 64 then some 0x11
  else if two && base % 2 == 1 then some 0x11
  else if us.any (fun u => !a.accRegions.any (fun r => r.1 == st && r.2.1 ≤ u && u < r.2.1 + r.2.2)) then some 0x11
  else if accInit && us.any (fun u => !tswDefined (a.tswAt u)) then some 0x11
  else if accInit && us.any (fun u => tswFormat (a.tswAt u) != fmt || tswKind (a.tswAt u) != kind) then some 0x24
  else none

end Sys2Proof.Machine
end

