-- ==== Sys2Proof/Machine/Records.lean ====
section
/-! DEFINITION. Entry records of the rollback journal (R349, R350). -/

namespace Sys2Proof.Machine

/-- The loaded binary keeps a journal (R343). -/
def State.journaling (s : State) : Bool := s.mir.desc.any (·.journal)

/-- An empty generation of a step. -/
def JGen.new (step : Nat) : JGen := ⟨step, [], [], none, none, false⟩

/-- Changes the generation of a step, which begins empty. -/
def State.modGen (s : State) (step : Nat) (g : JGen → JGen) : State :=
  let gens := if s.mir.gens.any (fun x => x.step == step) then s.mir.gens else s.mir.gens ++ [JGen.new step]
  { s with mir := { s.mir with gens := gens.map (fun x => if x.step == step then g x else x) } }

/-- Captures a stream's entry record for the step it is in (R350). -/
def State.captureStream (s : State) (n : Nat) (st : Stream) : State :=
  if !s.journaling then s
  else
    let c := s.ctx n st
    s.modGen c.step (fun g => { g with streams := g.streams.filter (fun e => !(e.1 == n && e.2.1 == st)) ++ [(n, st, c)] })

/-- Captures the work counters at the first STEPB into a step (R350). -/
def State.captureCounters (s : State) (step : Nat) : State :=
  if !s.journaling then s
  else s.modGen step (fun g => match g.counters with
    | some _ => g
    | none => { g with counters := some (s.wct.map (fun c => ⟨c.value, c.e, c.logged⟩)) })

/-- Captures the weight table, the version and mask states and UPD_TCOUNT at the boundary into a step (R350). -/
def State.captureWeights (s : State) (step : Nat) : State :=
  if !s.journaling then s
  else s.modGen step (fun g => { g with weights := some (s.mask.weights, s.reg Reg.UPD_TCOUNT) })

/-- A generation is complete when all its entry records exist (R350). -/
def State.genComplete (s : State) (g : JGen) : Bool :=
  g.counters.isSome && g.weights.isSome &&
    (List.range s.nArrays).all (fun n => allStreams.all (fun st => g.streams.any (fun e => e.1 == n && e.2.1 == st)))

/-- The complete generation of a step, if the module holds one (R351). -/
def State.gen? (s : State) (step : Nat) : Option JGen :=
  s.mir.gens.find? (fun g => g.step == step && s.genComplete g)

end Sys2Proof.Machine
end

