-- ==== Sys2Proof/Machine/Control.lean ====
section
/-! DEFINITION. Control and scalar instructions (R262 to R264, R267, R291 to R294, R142, R144, R150). -/

namespace Sys2Proof.Machine

/-- Sign-extended 32-bit immediate (R292). -/
def sext64 (imm : BitVec 32) : W64 := imm.signExtend 64

/-- NOP: retires at issue (R291). -/
def execNop (h : Head) (s : State) : Host.Outcome State Fault Refusal :=
  issue h (IssueInfo.simple 0x00 []) (fun _ t => t) s

/-- END: stops its stream (R267); illegal under the recompute flag (R262). -/
def execEndStream (h : Head) (s : State) : Host.Outcome State Fault Refusal :=
  issue h { IssueInfo.simple 0x01 [] with noRecompute := true }
    (fun _ t => t.modCtx h.arr h.stream (fun c => { c with st := .ended })) s

/-- A STEPB that would take F or B past STP_STEP + 1 is held (R264). -/
def State.stepbHold (s : State) (h : Head) : Option Hold :=
  if h.stream != .u && (s.ctx h.arr h.stream).step ≥ s.stp.step + 1 then some .skew else none

/-- The mark that the earlier STEPBs of a step carried, if any has issued: that of the module's own step, or of a step the module has left while a stream is still in it (R263). -/
def State.stepbMark (s : State) (step : Nat) : Option Nat := if step == s.stp.step then s.stp.nextBase else tableGet s.stp.past step

/-- Every STEPB of one step carries the same effective mark (R263). -/
def State.stepbCheck (s : State) (h : Head) : Option FaultRec :=
  match s.stepbMark (s.ctx h.arr h.stream).step with
  | some b => if b == s.markOf h then none else some (s.issueFault h 0x02 0xFFFF 0x22 0 0)
  | none => none

/-- The effect of a STEPB with effective mark `m` on its stream (R262, R264). -/
def StreamCtx.stepped (c : StreamCtx) (st : Stream) (m : Nat) : StreamCtx :=
  { c with base := m, step := c.step + 1, stepbDone := st == .u }

/-- STEPB (R262 to R264), with the entry record of the new step (R350). -/
def execStepb (h : Head) (b : BodyB) (s : State) : Host.Outcome State Fault Refusal :=
  let m := s.markOf h
  issue h { IssueInfo.simple 0x02 [] with
      noRecompute := true
      hold := s.stepbHold h
      check := s.stepbCheck h
      target := some b.target.toNat }
    (fun _ t =>
      let t := t.modCtx h.arr h.stream (fun c => c.stepped h.stream m)
      let t := if (s.ctx h.arr h.stream).step == s.stp.step then { t with stp := { t.stp with nextBase := some m } } else t
      (t.captureStream h.arr h.stream).captureCounters (t.ctx h.arr h.stream).step) s

/-- Issue checks of RCALL (R144). -/
def State.rcallCheck (s : State) (h : Head) (r : RcallRec) : Option FaultRec :=
  let size := match (s.arr h.arr).f.codeRegion with
    | some i => (s.tiers.regions[i]?.map (·.size)).getD 0
    | none => 0
  if r.count == 0#16 then some (s.issueFault h 0x03 0xFFFF 0x24 0 0)
  else if r.code.toNat % 16 != 0 || size < r.code.toNat + 16 * r.count.toNat then some (s.issueFault h 0x03 0xFFFF 0x10 0 0)
  else none

/-- RCALL: sets the recompute flag and moves the pc into the F-stream code (R142, R144, R268). The step is read from step_reg at issue (log 6). -/
def execRcall (h : Head) (ref : SRef) (r : RcallRec) (s : State) : Host.Outcome State Fault Refusal :=
  let c := s.ctx h.arr h.stream
  issue h { IssueInfo.simple 0x03 [r.stepReg.toNat] with
      streams := [.b]
      noRecompute := true
      record := some (ref, 64)
      check := s.rcallCheck h r
      target := some r.code.toNat }
    (fun _ t => t.modCtx h.arr h.stream (fun d => { d with
      recompute := (some ⟨r.code.toNat, r.count.toNat, c.pc + 16, r.delta.toInt, (c.sreg r.stepReg.toNat).toNat % 2 ^ 48⟩ : Option Recompute) })) s

/-- SETBASE (R294). -/
def execSetbase (h : Head) (b : BodyR) (s : State) : Host.Outcome State Fault Refusal :=
  let c := s.ctx h.arr h.stream
  let fromBase := h.mod.getLsbD 0
  let src := if fromBase then c.base_ (b.rs1.toNat % 16) else c.sreg b.rs1.toNat
  issue h { IssueInfo.simple 0x04 (if fromBase then [] else [b.rs1.toNat]) with
      regsOk := b.rd.toNat < 16 && (!fromBase || b.rs1.toNat < 16) }
    (fun _ t => t.modCtx h.arr h.stream (fun d => { d with abs := d.abs.set b.rd.toNat (src + sext64 b.imm) })) s

/-- SETVER (R150, R294). -/
def execSetver (h : Head) (b : BodyR) (s : State) : Host.Outcome State Fault Refusal :=
  let c := s.ctx h.arr h.stream
  let fromReg := h.mod.getLsbD 0
  let v : W32 := if fromReg then (c.sreg b.rs1.toNat).truncate 32 else b.imm
  issue h (IssueInfo.simple 0x05 (if fromReg then [b.rs1.toNat] else []))
    (fun _ t => t.modCtx h.arr h.stream (fun d => { d with ver := v })) s

/-- A branch on a condition: the target is taken or the pc advances (R293). -/
def branch (opcode : Nat) (h : Head) (b : BodyB) (regs : List Nat) (taken : Bool) (s : State) : Host.Outcome State Fault Refusal :=
  issue h { IssueInfo.simple opcode regs with target := if taken then some b.target.toNat else none } (fun _ t => t) s

/-- The two compared registers of a branch. -/
def State.compared (s : State) (h : Head) (b : BodyB) : W64 × W64 :=
  let c := s.ctx h.arr h.stream
  (c.sreg b.rs1.toNat, c.sreg b.rs2.toNat)

/-- BR (R293). -/
def execBr (h : Head) (b : BodyB) (s : State) : Host.Outcome State Fault Refusal := branch 0x08 h b [] true s

/-- BEQ (R293). -/
def execBeq (h : Head) (b : BodyB) (s : State) : Host.Outcome State Fault Refusal :=
  branch 0x09 h b [b.rs1.toNat, b.rs2.toNat] ((s.compared h b).1 == (s.compared h b).2) s

/-- BNE (R293). -/
def execBne (h : Head) (b : BodyB) (s : State) : Host.Outcome State Fault Refusal :=
  branch 0x0A h b [b.rs1.toNat, b.rs2.toNat] ((s.compared h b).1 != (s.compared h b).2) s

/-- BLTU: unsigned (R293). -/
def execBltu (h : Head) (b : BodyB) (s : State) : Host.Outcome State Fault Refusal :=
  branch 0x0B h b [b.rs1.toNat, b.rs2.toNat] ((s.compared h b).1.ult (s.compared h b).2) s

/-- BLT: signed (R293). -/
def execBlt (h : Head) (b : BodyB) (s : State) : Host.Outcome State Fault Refusal :=
  branch 0x0C h b [b.rs1.toNat, b.rs2.toNat] ((s.compared h b).1.slt (s.compared h b).2) s

/-- Writes a scalar result; the next instruction may use it after the declared latency (R310). -/
def State.writeScalar (s : State) (h : Head) (rd : Nat) (v : W64) : State :=
  let now := s.cycle + s.lat 0x30
  s.modCtx h.arr h.stream (fun c => { c.setSreg rd v with notBefore := max c.notBefore now })

/-- The operand x of R292: s[rs2], or the sign-extended immediate with mod[0] = 1. -/
def State.aluX (s : State) (h : Head) (b : BodyR) : W64 :=
  if h.mod.getLsbD 0 then sext64 b.imm else (s.ctx h.arr h.stream).sreg b.rs2.toNat

/-- rd ← s[rs1] op x (R292). -/
def alu (opcode : Nat) (f : W64 → W64 → W64) (h : Head) (b : BodyR) (s : State) : Host.Outcome State Fault Refusal :=
  let v := f ((s.ctx h.arr h.stream).sreg b.rs1.toNat) (s.aluX h b)
  issue h (IssueInfo.simple opcode ([b.rd.toNat, b.rs1.toNat] ++ if h.mod.getLsbD 0 then [] else [b.rs2.toNat]))
    (fun _ t => t.writeScalar h b.rd.toNat v) s

/-- SADD (R292). -/
def execSadd (h : Head) (b : BodyR) (s : State) : Host.Outcome State Fault Refusal := alu 0x10 (· + ·) h b s

/-- SSUB (R292). -/
def execSsub (h : Head) (b : BodyR) (s : State) : Host.Outcome State Fault Refusal := alu 0x11 (· - ·) h b s

/-- SMUL: low 64 bits (R292). -/
def execSmul (h : Head) (b : BodyR) (s : State) : Host.Outcome State Fault Refusal := alu 0x12 (· * ·) h b s

/-- SAND (R292). -/
def execSand (h : Head) (b : BodyR) (s : State) : Host.Outcome State Fault Refusal := alu 0x13 (· &&& ·) h b s

/-- SOR (R292). -/
def execSor (h : Head) (b : BodyR) (s : State) : Host.Outcome State Fault Refusal := alu 0x14 (· ||| ·) h b s

/-- SXOR (R292). -/
def execSxor (h : Head) (b : BodyR) (s : State) : Host.Outcome State Fault Refusal := alu 0x15 (· ^^^ ·) h b s

/-- SSHL: by x[5:0] (R292). -/
def execSshl (h : Head) (b : BodyR) (s : State) : Host.Outcome State Fault Refusal :=
  alu 0x16 (fun a x => a <<< (x.toNat % 64)) h b s

/-- SSHR: logical (R292). -/
def execSshr (h : Head) (b : BodyR) (s : State) : Host.Outcome State Fault Refusal :=
  alu 0x17 (fun a x => a >>> (x.toNat % 64)) h b s

/-- SSRA: arithmetic (R292). -/
def execSsra (h : Head) (b : BodyR) (s : State) : Host.Outcome State Fault Refusal :=
  alu 0x18 (fun a x => a.sshiftRight (x.toNat % 64)) h b s

/-- SLI (R292). -/
def execSli (h : Head) (b : BodyR) (s : State) : Host.Outcome State Fault Refusal :=
  issue h (IssueInfo.simple 0x19 [b.rd.toNat]) (fun _ t => t.writeScalar h b.rd.toNat (sext64 b.imm)) s

/-- The value SLIH writes: bits [63:32] from imm, [31:0] kept. -/
def slihValue (old : W64) (imm : BitVec 32) : W64 := imm ++ old.truncate 32

/-- SLIH (R292). -/
def execSlih (h : Head) (b : BodyR) (s : State) : Host.Outcome State Fault Refusal :=
  issue h (IssueInfo.simple 0x1A [b.rd.toNat])
    (fun _ t => t.writeScalar h b.rd.toNat (slihValue ((s.ctx h.arr h.stream).sreg b.rd.toNat) b.imm)) s

end Sys2Proof.Machine
end

