-- ==== Sys2Proof/Machine/Tiles.lean ====
section
/-! DEFINITION. Tiles and directories: layouts, sizes, structural checks and building (R41 to R62, R80, R81). -/

namespace Sys2Proof.Machine

/-! ### Sizes (R52, R55) -/

/-- Bytes of `n` packed values of a format. -/
def valueBytes (f : Fmt) (n : Nat) : Nat := n * f.bits / 8

/-- Bytes of the scale plane of a tile: 512 for an MX format. -/
def scaleBytes (f : Fmt) : Nat := if f.mx then 512 else 0

/-- C(f, k) of R52. -/
def compressedSize (f : Fmt) (k : Nat) : Nat := 544 + 512 * k + valueBytes f (1024 * k) + scaleBytes f

/-- D(f) of R52. -/
def denseSize (f : Fmt) : Nat := 32 + valueBytes f 16384 + scaleBytes f

/-- Whether R52 stores the tiles of a format and cap dense. -/
def storedDense (f : Fmt) (k : Nat) : Bool := compressedSize f k ≥ denseSize f

/-- Size of the form R52 gives. -/
def formSize (f : Fmt) (k : Nat) : Nat := if storedDense f k then denseSize f else compressedSize f k

/-- Size of a mask tile (R53). -/
def maskTileSize : Nat := 2080

/-- Bytes of a directory with R tile-rows and T entries, rounded up to 32 (R55). -/
def dirSize (r t : Nat) : Nat := cdiv (32 + 8 * cdiv (r + 1) 2 + 8 * t) 32 * 32

/-- Width in bytes of a per-slot plane value (R117). -/
def planeWidth (dw : Bool) : Nat := if dw then 8 else 4

/-! ### Headers (R45, R54) -/

/-- A tile header. -/
structure TileHdr where
  version : Nat
  form : Nat
  format : Nat
  capK : Nat
  capN : Nat
  group : Nat
  bytes : Nat
  gen : Nat
  tag : Nat
  deriving DecidableEq, Repr

/-- Word 0 fields shared by tile and directory headers: caps and group code. -/
def capsOf (w : Nat) : Nat × Nat × Nat := (bits w 14 9, bits w 8 3, bits w 2 1)

/-- The header of the tile at an address. -/
def tileHdr (m : Cells) (a : Nat) : TileHdr :=
  let w := memNat m a 4
  ⟨bits w 31 24, bits w 23 20, bits w 19 15, bits w 14 9, bits w 8 3, bits w 2 1, memNat m (a + 4) 4, memNat m (a + 8) 4, memNat m (a + 12) 4⟩

/-- The 32 bytes of a tile header (R45). -/
def tileHdrBytes (form format k k' bytes gen tag : Nat) : List Byte :=
  leBytes 4 (0x01000000 + form * 2 ^ 20 + format * 2 ^ 15 + k * 2 ^ 9 + k' * 2 ^ 3) ++ leBytes 4 bytes ++ leBytes 4 gen ++ leBytes 4 tag ++
  List.replicate 16 0#8

/-- A directory header, with the address it lies at. -/
structure Dir where
  base : Nat
  version : Nat
  complete : Bool
  format : Nat
  capK : Nat
  capN : Nat
  group : Nat
  maskDir : Bool
  cols : Nat
  rows : Nat
  present : Nat
  gen : Nat
  deriving DecidableEq, Repr

/-- The directory header at an address. -/
def dirAt (m : Cells) (a : Nat) : Dir :=
  let w := memNat m a 4
  let v := memNat m (a + 4) 4
  ⟨a, bits w 31 24, bit w 23 == 1, bits w 19 15, bits w 14 9, bits w 8 3, bits w 2 1, bit w 0 == 1, v / 65536, v % 65536, memNat m (a + 8) 4, memNat m (a + 12) 4⟩

/-- The 32 bytes of a directory header (R54). -/
def Dir.bytes (d : Dir) : List Byte :=
  leBytes 4 (d.version * 2 ^ 24 + bnat d.complete * 2 ^ 23 + d.format * 2 ^ 15 + d.capK * 2 ^ 9 + d.capN * 2 ^ 3 + d.group * 2 + bnat d.maskDir) ++
  leBytes 4 (d.cols * 65536 + d.rows) ++ leBytes 4 d.present ++ leBytes 4 d.gen ++ List.replicate 16 0#8

/-- Size of a directory (R55). -/
def Dir.size (d : Dir) : Nat := dirSize d.rows d.present

/-- Payload base of an operand named by one address (R286). -/
def Dir.payload (d : Dir) : Nat := d.base + d.size

/-- rowptr[i]. -/
def Dir.rowptr (d : Dir) (m : Cells) (i : Nat) : Nat := memNat m (d.base + 32 + 4 * i) 4

/-- Entry e: tile-column and payload offset in bytes. -/
def Dir.entry (d : Dir) (m : Cells) (e : Nat) : Nat × Nat :=
  let w := memNat m (d.base + 32 + 8 * cdiv (d.rows + 1) 2 + 8 * e) 8
  (w % 65536, w / 2 ^ 24 * 32)

/-- A present tile: entry index, tile-row, tile-column, payload offset. -/
structure TileRef where
  e : Nat
  r : Nat
  col : Nat
  ofs : Nat
  deriving DecidableEq, Repr

/-- The entries of tile-row r; bounded by the entry count of the header. -/
def Dir.row (d : Dir) (m : Cells) (r : Nat) : List TileRef :=
  let lo := d.rowptr m r
  let hi := min (d.rowptr m (r + 1)) d.present
  (List.range (hi - lo)).map (fun i => let (c, o) := d.entry m (lo + i); ⟨lo + i, r, c, o⟩)

/-- The present tiles of tile-rows r0 to r1, in entry order. -/
def Dir.tiles (d : Dir) (m : Cells) (r0 r1 : Nat) : List TileRef :=
  (List.range (r1 + 1 - r0)).flatMap (fun i => d.row m (r0 + i))

/-- The present tiles of a range of tile-rows and tile-columns. -/
def Dir.range (d : Dir) (m : Cells) (r0 r1 j0 j1 : Nat) : List TileRef :=
  (d.tiles m r0 r1).filter (fun t => j0 ≤ t.col && t.col ≤ j1)

/-- Format of a directory's tiles, FP32 where the code is reserved. -/
def Dir.fmt (d : Dir) : Fmt := (Fmt.ofCode d.format).getD .fp32

/-- Whether a value directory's tiles take the dense form of R52. -/
def Dir.dense (d : Dir) : Bool := storedDense d.fmt d.capK

/-- Size of one tile of the directory. -/
def Dir.tileBytes (d : Dir) : Nat := if d.maskDir then maskTileSize else formSize d.fmt d.capK

/-- The bytes of the rowptr and entry arrays for per-row entry counts and columns packed with one tile size (R57). The word between the arrays, where there is one, is written as zero, and the bytes after the last entry are not written: the spec says neither (R55; DESIGN CHOICE, log 86). -/
def dirArrays (rows : List (List Nat)) (tileBytes : Nat) : List Byte :=
  let ptrs := rows.foldl (fun (acc : List Nat) r => acc ++ [acc.getLastD 0 + r.length]) [0]
  let pb := ptrs.flatMap (leBytes 4)
  let pad := List.replicate (8 * cdiv (rows.length + 1) 2 - pb.length) 0#8
  pb ++ pad ++ (rows.flatten.zipIdx.flatMap (fun (c, e) => leBytes 8 (e * tileBytes / 32 * 2 ^ 24 + c)))

/-! ### Packing (R25, R48) -/

/-- The two nibbles of each byte, low first. -/
def nibbles (bs : List Byte) : List Nat := bs.flatMap (fun b => [b.toNat % 16, b.toNat / 16])

/-- Splits a list into `n` pieces of length `k`. -/
def chunks {α : Type} : Nat → Nat → List α → List (List α)
  | 0, _, _ => []
  | n + 1, k, l => l.take k :: chunks n k (l.drop k)

/-- Unpacks `n` values of `w` bits (R25; little-endian elements otherwise). -/
def unpack (w n : Nat) (bs : List Byte) : List Nat :=
  if w == 4 then (nibbles bs).take n
  else if w == 6 then ((chunks (n / 4) 3 bs).flatMap (fun c => let v := leNat c; [v % 64, v / 64 % 64, v / 4096 % 64, v / 262144 % 64]))
  else (chunks n (w / 8) bs).map leNat

/-- Packs nibbles. -/
def packNibbles (ns : List Nat) : List Byte := (chunks (ns.length / 2) 2 ns).map (fun c => BitVec.ofNat 8 (c.getD 0 0 + 16 * c.getD 1 0))

/-- Packs values of `w` bits. -/
def pack (w : Nat) (vs : List Nat) : List Byte :=
  if w == 4 then packNibbles vs
  else if w == 6 then (chunks (vs.length / 4) 4 vs).flatMap (fun c => leBytes 3 (c.getD 0 0 + 64 * c.getD 1 0 + 4096 * c.getD 2 0 + 262144 * c.getD 3 0))
  else vs.flatMap (leBytes (w / 8))

/-! ### Tile contents -/

/-- One group of a compressed tile as stored: its count, and offset and value of every slot. -/
structure RawGroup where
  count : Nat
  slots : List (Nat × Nat)
  deriving DecidableEq, Repr

/-- The 1,024 groups of a compressed tile of cap k (R47, R48). -/
def rawGroups (m : Cells) (a : Nat) (f : Fmt) (k : Nat) : List RawGroup :=
  let occ := nibbles (memGet m (a + 32) 512)
  let offs := nibbles (memGet m (a + 544) (512 * k))
  let vals := unpack f.bits (1024 * k) (memGet m (a + 544 + 512 * k) (valueBytes f (1024 * k)))
  (occ.zip (chunks 1024 k (offs.zip vals))).map (fun (c, ss) => ⟨c, ss⟩)

/-- The 16,384 value encodings of a dense tile in line order (R51). -/
def denseValues (m : Cells) (a : Nat) (f : Fmt) : List Nat := unpack f.bits 16384 (memGet m (a + 32) (valueBytes f 16384))

/-- The groups of a dense tile: 16 encodings each. -/
def denseGroups (m : Cells) (a : Nat) (f : Fmt) : List (List Nat) := chunks 1024 16 (denseValues m a f)

/-- The bitmap lines of a mask tile, one number of 128 bits per line (R53). -/
def maskLines (m : Cells) (a : Nat) : List Nat := (chunks 128 16 (memGet m (a + 32) 2048)).map leNat

/-- Set positions of group g of a mask line. -/
def maskGroup (line g : Nat) : List Nat := (List.range 16).filter (fun o => line.testBit (16 * g + o))

/-- Whether an encoding is +0 or −0. -/
def zeroEnc (f : Fmt) (w : Nat) : Bool :=
  match f with
  | .dw32 => (val32 (BitVec.ofNat 32 w)).isZero && (val32 (BitVec.ofNat 32 (w / 2 ^ 32))).isZero
  | _ => (f.decode w).isZero

/-- Occupied slots of every group of a value tile: in-group offset and encoding. A dense tile occupies every position (R70, R91). -/
def tileSlots (m : Cells) (a : Nat) : List (List (Nat × Nat)) :=
  let h := tileHdr m a
  let f := (Fmt.ofCode h.format).getD .fp32
  if h.form == 1 then (denseGroups m a f).map (fun g => g.zipIdx.map (fun (v, o) => (o, v)))
  else (rawGroups m a f h.capK).map (fun g => g.slots.take g.count)

/-- Scale bytes of a value tile; empty when its format has none (R50). -/
def tileScales (m : Cells) (a : Nat) : List Nat :=
  let h := tileHdr m a
  let f := (Fmt.ofCode h.format).getD .fp32
  if f.mx then
    let ofs := if h.form == 1 then 32 + valueBytes f 16384 else 544 + 512 * h.capK + valueBytes f (1024 * h.capK)
    (memGet m (a + ofs) 512).map (·.toNat)
  else []

/-- Mask positions of every group of a tile of either source of R84: offsets in slot order. -/
def tilePositions (m : Cells) (a : Nat) (mask : Bool) (k : Nat) : List (List Nat) :=
  if mask then (maskLines m a).flatMap (fun l => (List.range 8).map (maskGroup l))
  else
    let occ := nibbles (memGet m (a + 32) 512)
    let offs := nibbles (memGet m (a + 544) (512 * k))
    (occ.zip (chunks 1024 k offs)).map (fun (c, os) => os.take c)

/-! ### Structural checks of a tile (R62, R63) -/

/-- A failed tile check: fault code, row of R62, word 4 of the fault record (R431). -/
structure TileFault where
  code : Nat
  row : Nat
  word4 : Nat
  deriving DecidableEq, Repr

/-- Word 4 for a group. -/
def groupWord (idx slot : Nat) : Nat := idx / 8 * 2 ^ 24 + idx * 2 ^ 14 + slot * 2 ^ 10

/-- Word 4 for a cross-group q of position i. -/
def crossWord (q i : Nat) : Nat := 2 ^ 31 + i * 2 ^ 24 + (q * 128 + i) * 2 ^ 14

/-- Rows 1 to 4 of R62. `fmt`, `maskDir`, `dk`, `dn`: format, kind and caps of the directory. -/
def headerCheck (h : TileHdr) (fmt : Nat) (maskDir : Bool) (dk dn : Nat) : Option TileFault :=
  let f := (Fmt.ofCode h.format).getD .fp32
  if h.version != 1 || h.form > 2 || h.format > 10 || h.group != 0 || h.capK < 1 || h.capK > 16 || h.capN < 1 || h.capN > 16 then some ⟨0x24, 1, 0⟩
  else if h.format != fmt || (h.form == 2) != maskDir then some ⟨0x24, 2, 0⟩
  else if h.capK > dk || h.capN > dn then some ⟨0x20, 3, 0⟩
  else if maskDir then (if h.bytes != maskTileSize then some ⟨0x23, 4, 0⟩ else none)
  else if (h.form == 1) != storedDense f h.capK || h.bytes != formSize f h.capK then some ⟨0x23, 4, 0⟩
  else none

/-- First slot from which the offsets of a group fail to ascend. -/
def firstDescent : Nat → List Nat → Option Nat
  | i, x :: y :: r => if x < y then firstDescent (i + 1) (y :: r) else some (i + 1)
  | _, _ => none

/-- Rows 5 and 6 of R62 for one group of a compressed tile. -/
def rawGroupCheck (capK cap : Nat) (g : RawGroup) (idx : Nat) : Option TileFault :=
  if g.count > capK || g.count > cap then some ⟨0x20, 5, groupWord idx 0⟩
  else match firstDescent 0 ((g.slots.take g.count).map Prod.fst) with
    | some i => some ⟨0x22, 6, groupWord idx i⟩
    | none =>
      let rest := g.slots.drop g.count
      let bad := rest.findIdx (fun s => s.1 != 0 || s.2 != 0)
      if bad < rest.length then some ⟨0x22, 6, groupWord idx (g.count + bad)⟩ else none

/-- Row 7 of R62 for the occupied count of one group of a dense or mask tile. -/
def countCheck (capK cap n idx : Nat) : Option TileFault :=
  if n > capK || n > cap then some ⟨0x20, 7, groupWord idx 0⟩ else none

/-- First failure over a list. -/
def firstFault {α : Type} (f : α → Nat → Option TileFault) : Nat → List α → Option TileFault
  | _, [] => none
  | i, x :: r => match f x i with
    | some e => some e
    | none => firstFault f (i + 1) r

/-- Row 8 of R62 over lines given as occupancy bitmaps: each cross-group in ascending position, then q. -/
def crossCheck (lines : List Nat) (capN cap : Nat) : Option TileFault :=
  let qs := chunks 8 16 lines
  (List.range 128).findSome? (fun i => qs.zipIdx.findSome? (fun (ls, q) =>
    let n := (ls.filter (fun l => l.testBit i)).length
    if n > capN || n > cap then some ⟨0x20, 8, crossWord q i⟩ else none))

/-- Bitmap of one line from the occupied offsets of its eight groups. -/
def lineBitmap (gs : List (List Nat)) : Nat :=
  gs.zipIdx.foldl (fun b (os, g) => os.foldl (fun b o => b ||| 2 ^ (16 * g + o)) b) 0

/-- Occupancy bitmaps of the 128 lines from the offsets of the 1,024 groups. -/
def lineBitmaps (gs : List (List Nat)) : List Nat := (chunks 128 8 gs).map lineBitmap

/-- Checks a tile under R62. `cap`, `capX`: the caps it is checked against; `cross`: whether row 8 applies (R75). -/
def tileCheck (m : Cells) (a fmt : Nat) (maskDir : Bool) (dk dn cap capX : Nat) (cross : Bool) : Option TileFault :=
  let h := tileHdr m a
  match headerCheck h fmt maskDir dk dn with
  | some e => some e
  | none =>
    let f := (Fmt.ofCode h.format).getD .fp32
    let (groups, occ) :=
      if maskDir then
        let gs := tilePositions m a true 0
        (firstFault (fun g i => countCheck h.capK cap g.length i) 0 gs, gs)
      else if h.form == 1 then
        let gs := (denseGroups m a f).map (fun g => (g.zipIdx.filter (fun (v, _) => !zeroEnc f v)).map Prod.snd)
        (firstFault (fun g i => countCheck h.capK cap g.length i) 0 gs, gs)
      else
        let raw := rawGroups m a f h.capK
        (firstFault (rawGroupCheck h.capK cap) 0 raw, raw.map (fun g => (g.slots.take g.count).map Prod.fst))
    match groups with
    | some e => some e
    | none => if cross then crossCheck (lineBitmaps occ) h.capN capX else none

/-! ### Structural checks of a directory (R61 rows 3, 7 to 10) -/

/-- Row 3: versions, group code and caps. -/
def Dir.row3 (d : Dir) : Bool :=
  d.version == 1 && d.group == 0 && 1 ≤ d.capK && d.capK ≤ 16 && 1 ≤ d.capN && d.capN ≤ 16

/-- Whether a list of numbers strictly ascends. -/
def strictAsc : List Nat → Bool
  | x :: y :: r => x < y && strictAsc (y :: r)
  | _ => true

/-- Whether a list of numbers does not decrease. -/
def nonDec : List Nat → Bool
  | x :: y :: r => x ≤ y && nonDec (y :: r)
  | _ => true

/-- Rows 7 to 10 over the rowptr entries r0 to r1 + 1 and the entries they bound. -/
def Dir.rows7to10 (d : Dir) (m : Cells) (r0 r1 : Nat) : Option (Nat × Nat) :=
  let ptrs := (List.range (r1 + 2 - r0)).map (fun i => d.rowptr m (r0 + i))
  if d.rowptr m 0 != 0 || !nonDec ptrs then some (7, 0x22)
  else if ptrs.any (· > d.present) then some (8, 0x21)
  else
    let rows := (List.range (r1 + 1 - r0)).map (fun i => (d.row m (r0 + i)).map (·.col))
    if rows.any (fun cs => !strictAsc cs) then some (9, 0x22)
    else if rows.any (fun cs => cs.any (· ≥ d.cols)) then some (10, 0x21)
    else none

/-- Whether two directories have the same R, C, T, rowptr and tile_col (R115). -/
def Dir.sameStructure (d e : Dir) (m : Cells) : Bool :=
  d.rows == e.rows && d.cols == e.cols && d.present == e.present &&
  (List.range (d.rows + 1)).all (fun i => d.rowptr m i == e.rowptr m i) &&
  (List.range d.present).all (fun i => (d.entry m i).1 == (e.entry m i).1)

/-! ### Building tiles -/

/-- The planes of a compressed tile after its header, from the occupied slots of its groups (R47 to R50). -/
def compressedPlanes (f : Fmt) (k : Nat) (groups : List (List (Nat × Nat))) (scales : List Nat) : List Byte :=
  let padded := groups.map (fun g => g ++ List.replicate (k - g.length) (0, 0))
  packNibbles (groups.map List.length) ++ packNibbles (padded.flatten.map Prod.fst) ++ pack f.bits (padded.flatten.map Prod.snd) ++
  (if f.mx then scales.map (BitVec.ofNat 8) else [])

/-- The planes of a dense tile after its header (R51). -/
def densePlanes (f : Fmt) (vals scales : List Nat) : List Byte :=
  pack f.bits vals ++ (if f.mx then scales.map (BitVec.ofNat 8) else [])

/-- 16 encodings of a group with only the given slots set. -/
def expandGroup (g : List (Nat × Nat)) : List Nat :=
  (List.range 16).map (fun o => match g.find? (fun s => s.1 == o) with
    | some s => s.2
    | none => 0)

/-- A whole value tile in the form of R52 from the occupied slots of its groups. -/
def buildTile (f : Fmt) (k k' gen tag : Nat) (groups : List (List (Nat × Nat))) (scales : List Nat) : List Byte :=
  if storedDense f k then tileHdrBytes 1 f.code k k' (denseSize f) gen tag ++ densePlanes f (groups.flatMap expandGroup) scales
  else tileHdrBytes 0 f.code k k' (compressedSize f k) gen tag ++ compressedPlanes f k groups scales

/-- Groups of the transposed tile: line i of the result holds the positions ℓ of the source whose line ℓ holds position i (R44, R80). `slots` are lines of groups. -/
def transposeGroups (groups : List (List (Nat × Nat))) : List (List (Nat × Nat)) :=
  let lines := (chunks 128 8 groups).map (fun gs => gs.zipIdx.flatMap (fun (ss, g) => ss.map (fun s => (16 * g + s.1, s.2))))
  (List.range 128).flatMap (fun i =>
    let line := lines.zipIdx.filterMap (fun (l, n) => (l.find? (fun s => s.1 == i)).map (fun s => (n, s.2)))
    (List.range 8).map (fun g => (line.filter (fun s => s.1 / 16 == g)).map (fun s => (s.1 % 16, s.2))))

/-- The bytes of a mask tile from its 128 line bitmaps (R53). -/
def maskTileBytes (k k' gen : Nat) (lines : List Nat) : List Byte :=
  tileHdrBytes 2 0 k k' maskTileSize gen 0 ++ lines.flatMap (leBytes 16)

end Sys2Proof.Machine
end

