-- ==== Sys2Proof/Machine/Store.lean ====
section
/-! DEFINITION. Managed objects, staged copies, writes to module memory and the rollback journal's hold on them (R117, R216, R217, R223 to R228, R348, R349, R358). -/

namespace Sys2Proof.Machine

/-! ### Bindings and planes (R115, R117) -/

/-- The current mask directory of a weight. -/
def Weight.curMask (w : Weight) : Nat := if w.curB then w.maskB else w.maskA

/-- The other mask directory of a weight. -/
def Weight.otherMask (w : Weight) : Nat := if w.curB then w.maskA else w.maskB

/-- Directory A as it lies in memory: its structure and caps are those of every buffer (R115). -/
def Weight.dir (w : Weight) (m : Cells) : Dir := dirAt m w.maskA

/-- Slots of one tile: 1,024 · k. -/
def Weight.slots (w : Weight) (m : Cells) : Nat := 1024 * (w.dir m).capK

/-- The per-slot planes of a weight with their widths: master, moments, extra (R117). -/
def Weight.planes (w : Weight) : List (Nat × Nat) :=
  if w.owner then
    [(w.master, planeWidth w.dw32), (w.moment1, 4), (w.moment2, 4)] ++ (if w.extra != 0 then [(w.extra, 4)] else [])
  else []

/-- The weight of an index, if bound. -/
def State.weight? (s : State) (wt : Nat) : Option Weight := (s.mask.weights.find? (fun e => e.1 == wt)).map Prod.snd

/-- Changes a weight entry. -/
def State.modWeight (s : State) (wt : Nat) (g : Weight → Weight) : State :=
  { s with mask := { s.mask with weights := s.mask.weights.map (fun (e : Nat × Weight) => if e.1 == wt then (e.1, g e.2) else e) } }

/-! ### The context store (R223, R224) -/

/-- A sequence entry, with the address it lies at. -/
structure SeqEntry where
  at_ : Nat
  seqId : Nat
  blocks : Nat
  arrays : Nat
  entryBytes : Nat
  stateBytes : Nat
  pageSteps : Nat
  capPages : Nat
  base : Nat
  head : Nat
  flags : Nat
  shardCount : Nat
  shardIndex : Nat
  deriving DecidableEq, Repr

/-- The sequence entry at an address. -/
def seqAt (m : Cells) (a : Nat) : SeqEntry :=
  let sh := memNat m (a + 44) 4
  ⟨a, memNat m a 4, memNat m (a + 4) 2, memNat m (a + 6) 2, memNat m (a + 8) 4, memNat m (a + 12) 4, memNat m (a + 16) 4,
   memNat m (a + 20) 4, memNat m (a + 24) 8, memNat m (a + 32) 8, memNat m (a + 40) 4, sh / 65536, sh % 65536⟩

/-- Whether the header of a store is one: version 0x01 and 1 to 65,536 entries (R223). -/
def storeHeaderOk (m : Cells) (store : Nat) : Bool := memNat m store 4 == 1 && 1 ≤ memNat m (store + 4) 4 && memNat m (store + 4) 4 ≤ 65536

/-- Count of sequence entries of a store. -/
def storeCount (m : Cells) (store : Nat) : Nat := memNat m (store + 4) 4

/-- Sequence entry i of a store. -/
def storeSeq (m : Cells) (store i : Nat) : SeqEntry := seqAt m (store + 64 + 64 * i)

/-- page_bytes. -/
def SeqEntry.pageBytes (e : SeqEntry) : Nat := e.pageSteps * e.entryBytes

/-- Address of page p of block b (R224). -/
def SeqEntry.pageAddr (e : SeqEntry) (b p : Nat) : Nat := e.base + (b * e.capPages + p) * e.pageBytes

/-- Address of the recurrent states. -/
def SeqEntry.stateBase (e : SeqEntry) : Nat := e.base + e.blocks * e.capPages * e.pageBytes

/-- The wrap and mirror flags. -/
def SeqEntry.wrap (e : SeqEntry) : Bool := e.flags.testBit 0

/-- Whether forwarding to the twin is asked for. -/
def SeqEntry.mirror (e : SeqEntry) : Bool := e.flags.testBit 1

/-- Local page of time step t, when it lies on this module; `none` otherwise (R224). -/
def SeqEntry.localPage (e : SeqEntry) (t : Nat) : Option Nat :=
  let p := t / e.pageSteps
  if p % e.shardCount != e.shardIndex then none
  else
    let l := p / e.shardCount
    some (if e.wrap then l % e.capPages else l)

/-- Address of step t of block b; `none` off this module. -/
def SeqEntry.stepAddr (e : SeqEntry) (b t : Nat) : Option Nat :=
  (e.localPage t).map (fun p => e.pageAddr b p + t % e.pageSteps * e.entryBytes)

/-- Whether every field of the entry is in range (R223). -/
def SeqEntry.fieldsOk (e : SeqEntry) (r : Region) (nArr : Nat) : Bool :=
  1 ≤ e.blocks && e.blocks ≤ 4096 && e.arrays == nArr && e.entryBytes % 32 == 0 && e.entryBytes != 0 && e.stateBytes % 32 == 0 &&
    [128, 256, 512, 1024].contains e.pageSteps && 1 ≤ e.capPages && 1 ≤ e.shardCount && e.shardCount ≤ 4096 &&
    e.shardIndex < e.shardCount && r.base ≤ e.base && e.stateBase + e.blocks * e.stateBytes ≤ r.base + r.size

/-! ### Managed objects (R226) -/

/-- A managed object: its address, its pieces of memory in order, its home array, and for a context page its record key and page (R229). -/
structure ObjInfo where
  obj : Nat
  pieces : List (Nat × Nat)
  home : Nat
  page : Option (Nat × Nat)
  deriving DecidableEq, Repr

/-- Size of an object in bytes. -/
def ObjInfo.size (o : ObjInfo) : Nat := (o.pieces.map Prod.snd).sum

/-- Frames the object needs (R227). -/
def ObjInfo.frames (o : ObjInfo) : Nat := cdiv o.size 8192

/-- The state tile of entry e of a weight. -/
def Weight.tileObj (w : Weight) (m : Cells) (e : Nat) : ObjInfo :=
  let n := w.slots m
  ⟨w.master + e * n * planeWidth w.dw32, w.planes.map (fun (b, wd) => (b + e * n * wd, n * wd)), 0, none⟩

/-- Whether a weight's tiles are managed objects: owner with a far-tier master. -/
def State.managed (s : State) (w : Weight) : Bool := w.owner && s.isFar w.master

/-- The state tile that holds an address. -/
def State.stateTileAt (s : State) (a : Nat) : Option ObjInfo :=
  s.mask.weights.findSome? (fun (_, w) =>
    if !s.managed w then none
    else
      let n := w.slots s.mem
      w.planes.findSome? (fun (b, wd) =>
        if b ≤ a && a < b + (w.dir s.mem).present * n * wd then some (w.tileObj s.mem ((a - b) / (n * wd))) else none))

/-- The object of a sequence that holds an address. -/
def SeqEntry.objAt (e : SeqEntry) (a : Nat) : Option ObjInfo :=
  let pb := e.pageBytes
  if e.base ≤ a && a < e.stateBase && pb != 0 then
    let q := (a - e.base) / pb
    let p := q % e.capPages
    some ⟨e.base + q * pb, [(e.base + q * pb, pb)], p % e.arrays, some (e.pageAddr (q / e.capPages) 0, p)⟩
  else if e.stateBase ≤ a && a < e.stateBase + e.blocks * e.stateBytes then
    let b := (a - e.stateBase) / e.stateBytes
    some ⟨e.stateBase + b * e.stateBytes, [(e.stateBase + b * e.stateBytes, e.stateBytes)], b % e.arrays, none⟩
  else none

/-- The context object that holds an address. -/
def State.ctxObjAt (s : State) (a : Nat) : Option ObjInfo :=
  match s.regionAt a with
  | some r =>
    if r.kind != 3 then none
    else (List.range (storeCount s.mem r.base)).findSome? (fun i => (storeSeq s.mem r.base i).objAt a)
  | none => none

/-- The managed object that holds an address. -/
def State.objAt (s : State) (a : Nat) : Option ObjInfo :=
  if !s.isFar a then none
  else match s.stateTileAt a with
    | some o => some o
    | none => s.ctxObjAt a

/-- The objects that [a, a + n) touches, walking from object to object; `fuel` bounds their number. -/
def State.objsIn (s : State) : Nat → Nat → Nat → List ObjInfo
  | 0, _, _ => []
  | fuel + 1, a, n =>
    if n = 0 then []
    else match s.objAt a with
      | none => []
      | some o =>
        let e := match o.pieces.find? (fun p => p.1 ≤ a && a < p.1 + p.2) with
          | some p => p.1 + p.2
          | none => a + n
        o :: s.objsIn fuel e (a + n - e)

/-! ### State windows and staged copies (R227, R228) -/

/-- The state window of an array. -/
def State.window (s : State) (n : Nat) : Option Region :=
  s.tiers.regions.find? (fun r => r.kind == 2 && scratchOf r.base == some n)

/-- The staged entry of an object in an array's window. -/
def State.staged? (s : State) (n obj : Nat) : Option Staged :=
  s.tiers.staged.find? (fun t => t.arr == n && t.obj == obj)

/-- Whether an object is staged (fully arrived) in an array's window. -/
def State.isStaged (s : State) (n obj : Nat) : Bool := (s.staged? n obj).any (fun t => !t.arriving)

/-- Window address of byte `o` of a staged object. -/
def State.winAddr (s : State) (t : Staged) (o : Nat) : Nat :=
  ((s.window t.arr).map (·.base)).getD 0 + t.frames.getD (o / 8192) 0 * 8192 + o % 8192

/-- Offset in the object of byte `a` of its pieces. -/
def pieceOfs (ps : List (Nat × Nat)) (a : Nat) : Option Nat :=
  (ps.foldl (fun (acc : Nat × Option Nat) p =>
    (acc.1 + p.2, if p.1 ≤ a && a < p.1 + p.2 then some (acc.1 + (a - p.1)) else acc.2)) (0, none)).2

/-- Writes the bytes that fall into a staged object to its copy. -/
def State.copyInto (s : State) (t : Staged) (o : ObjInfo) (m : Cells) (a : Nat) (bs : List Byte) : Cells :=
  bs.zipIdx.foldl (fun m (b, i) => match pieceOfs o.pieces (a + i) with
    | some ofs => memSet m (s.winAddr t ofs) b
    | none => m) m

/-- Brings every arrived staged copy up to date with a write of [a, a + n). -/
def State.intoWindows (s : State) (a : Nat) (bs : List Byte) : State :=
  s.tiers.staged.foldl (fun s t =>
    if t.arriving then s
    else match s.objAt t.obj with
      | none => s
      | some o =>
        if o.pieces.any (fun p => p.1 < a + bs.length && a < p.1 + p.2) then { s with mem := s.copyInto t o s.mem a bs } else s) s

/-! ### Reads (R209, R216, R228) -/

/-- Where byte `o` of a staged object up to its `n`-th next lies in the window, frame by frame. -/
def State.winPieces (s : State) (t : Staged) (o n : Nat) : List (Nat × Nat) :=
  if n = 0 then []
  else (List.range ((o + n - 1) / 8192 + 1 - o / 8192)).map (fun i =>
    let lo := max o ((o / 8192 + i) * 8192)
    (s.winAddr t lo, min (o + n) ((o / 8192 + i + 1) * 8192) - lo))

/-- The parts of [a, a + n) that an arrived copy holds, each with the place of its first byte in the object. -/
def ObjInfo.overlaps (o : ObjInfo) (a n : Nat) : List (Nat × Nat × Nat) :=
  o.pieces.filterMap (fun p =>
    let lo := max a p.1
    let hi := min (a + n) (p.1 + p.2)
    if lo < hi then (pieceOfs o.pieces lo).map (fun ofs => (lo, hi - lo, ofs)) else none)

/-- Ranges without the bytes of [lo, lo + k). -/
def cutRange (rs : List (Nat × Nat)) (lo k : Nat) : List (Nat × Nat) :=
  (rs.flatMap (fun (a, n) => [(a, min (a + n) lo - a), (max a (lo + k), a + n - max a (lo + k))])).filter (fun r => r.2 != 0)

/-- The memory that an access to [a, a + n) reaches: an array's own staged copy of an object, else any staged copy, else the bytes themselves (R228). `own` is the accessing array, 64 for none. -/
def State.reached (s : State) (own a n : Nat) : List (Nat × Nat) :=
  let ts := s.tiers.staged.filter (fun t => !t.arriving)
  if !s.isFar a || ts.isEmpty then [(a, n)]
  else
    let ts := ts.filter (fun t => t.arr == own) ++ ts.filter (fun t => t.arr != own)
    let acc := ts.foldl (fun (acc : List (Nat × Nat) × List (Nat × Nat)) t => match s.objAt t.obj with
      | none => acc
      | some o => (o.overlaps a n).foldl (fun (acc : List (Nat × Nat) × List (Nat × Nat)) x =>
          if acc.1.any (fun r => r.1 ≤ x.1 && x.1 < r.1 + r.2) then (cutRange acc.1 x.1 x.2.1, acc.2 ++ s.winPieces t x.2.2 x.2.1) else acc) acc)
      ([(a, n)], [])
    acc.1 ++ acc.2

/-- First uncorrectable block or word that an access to [a, a + n) meets, with the fault code (R209, R216, R228). -/
def State.eccBad (s : State) (a n : Nat) (own : Nat := 64) : Option (Nat × Nat) :=
  if n == 0 then none else (s.reached own a n).findSome? (fun r => s.eccAt r.1 r.2)

/-- First uncorrectable block or word in a list of ranges. -/
def State.eccRanges (s : State) (rs : List (Nat × Nat)) (own : Nat := 64) : Option (Nat × Nat) := rs.findSome? (fun (a, n) => s.eccBad a n own)

/-- What reading ranges corrects on its way (R209, R216). -/
def State.corrected (s : State) (rs : List (Nat × Nat)) (own : Nat := 64) : State :=
  if s.tiers.soft.isEmpty && s.tiers.nearSoft.isEmpty then s
  else (rs.flatMap (fun (a, n) => s.reached own a n)).foldl (fun (s : State) r => s.correctAt r.1 r.2) s

/-! ### Writes (R209, R216, R217, R220, R358) -/

/-- Far-tier blocks of 2 KiB that a write covers only in part (R217). -/
def partialBlocks (a n : Nat) : Nat :=
  if n = 0 then 0 else ((a + n - 1) / 2048 + 1 - a / 2048) - ((a + n) / 2048 - cdiv a 2048)

/-- A whole write replaces an uncorrectable or correctable block or word, and a tile whose first byte is written is no transposed one any more (R81, R220). -/
def State.healed (s : State) (a n : Nat) : State :=
  { s with tiers := { s.tiers with
      bad := s.tiers.bad.filter (fun b => !(a ≤ b * 2048 && b * 2048 + 2048 ≤ a + n))
      nearBad := s.tiers.nearBad.filter (fun w => !(a ≤ w * 8 && w * 8 + 8 ≤ a + n))
      soft := s.tiers.soft.filter (fun b => !(a ≤ b.1 * 2048 && b.1 * 2048 + 2048 ≤ a + n))
      nearSoft := s.tiers.nearSoft.filter (fun w => !(a ≤ w * 8 && w * 8 + 8 ≤ a + n))
      transposed := s.tiers.transposed.filter (fun t => !(a ≤ t && t < a + n)) } }

/-- Forwarded writes name no context: dst_ctx 0xFFFF on the mirror port. The tag holds the step's low 32 bits and src_ctx the 16 above; offset and aux[15:0] the address in units of 32 bytes; aux[31] is 0 for a write and 1 for an advance of the entry there; aux[25:16] is the number of bytes of the payload that count, which zeros fill to whole units (log 30). -/
def forwardCtx : Nat := 0xFFFF

/-- The context that the frames of a refill name: its SERVICE entry, the same at both ends (R328, R358; DESIGN CHOICE, log 30). -/
def State.refillCtx (s : State) : Nat := s.mir.service.getD forwardCtx

/-- A forwarding frame. -/
def State.forwardFrame (s : State) (ctx : Nat) (advance : Bool) (step a : Nat) (bs : List Byte) : OutFrame :=
  { ctlFrame 0 s.mir.twin s.ring.addr ctx (step / 2 ^ 32 % 2 ^ 16) (BitVec.ofNat 32 step) (a / 32 % 2 ^ 32) (BitVec.ofNat 32 (a / 2 ^ 37 % 2 ^ 16 + 2 ^ 16 * bs.length + 2 ^ 31 * bnat advance)) with
    payload := padUnits bs }

/-- The step that a forwarding frame names (log 30). -/
def OutFrame.step (f : OutFrame) : Nat := f.tag.toNat + 2 ^ 32 * f.srcCtx

/-- Forwards bytes to the twin in frames of up to 512 bytes (R317, R345, R358). -/
def State.forwardBytes (s : State) (ctx step a : Nat) (bs : List Byte) : State :=
  (chunks (cdiv bs.length 512) 512 bs).zipIdx.foldl (fun (s : State) (x : List Byte × Nat) =>
    s.sendFrame 4 (s.forwardFrame ctx false step (a + 512 * x.2) x.1)) s

/-- During a refill and until the restart that ends it, a write below the pointer to a region it moves also goes to the twin, whole 32-byte units at a time (R358). -/
def State.refillForward (s : State) (a n : Nat) : State :=
  match s.mir.refillPtr with
  | some p =>
    if s.isFar a && a < p && s.tiers.regions.any (fun r => r.kind != 4 && r.kind != 6 && r.base ≤ a && a < r.base + r.size) then
      let lo := a / 32 * 32
      s.forwardBytes s.refillCtx s.stp.step lo (s.get lo (cdiv (a + n) 32 * 32 - lo))
    else s
  | none => s

/-- The bytes of a write that land: in memory, the block and word codes, the staged copies and the twin under refill. -/
def State.putPlain (s : State) (a : Nat) (bs : List Byte) : State :=
  if bs.isEmpty then s
  else
    let s := { s with mem := memPut s.mem a bs }
    let s := if s.isFar a then s.bump64 Reg.TIR_FAR_RMW (partialBlocks a bs.length) else s
    ((s.healed a bs.length).intoWindows a bs).refillForward a bs.length

/-- Blocks of 2 KiB that a far-tier write covers only in part, which are read and merged (R217). -/
def State.mergedBlocks (s : State) (a n : Nat) : List Nat :=
  if s.isFar a && n != 0 then
    ([a / 2048, (a + n - 1) / 2048].eraseDups).filter (fun b => !(a ≤ b * 2048 && b * 2048 + 2048 ≤ a + n))
  else []

/-- Those of them that do not correct: a staged object's bytes are read from its copy. -/
def State.unmergeable (s : State) (a n : Nat) : List Nat := (s.mergedBlocks a n).filter (fun b => (s.eccBad (b * 2048) 2048).isSome)

/-- First uncorrectable block or word that merging a list of writes meets, with the fault code (R216, R217). -/
def State.mergeBad (s : State) (ws : List (Nat × Nat)) : Option (Nat × Nat) :=
  s.eccRanges (ws.flatMap (fun w => (s.mergedBlocks w.1 w.2).map (fun b => (b * 2048, 2048))))

/-- A write to module memory. A partial write reads its blocks: one that corrects is counted, one that does not is left as it is and faults, as the memory that holds its bytes does (R209, R216, R217; log 78). -/
def State.putMem (s : State) (a : Nat) (bs : List Byte) : State :=
  let n := bs.length
  let s := s.corrected ((s.mergedBlocks a n).map (fun b => (b * 2048, 2048)))
  match s.unmergeable a n with
  | [] => s.putPlain a bs
  | b :: r =>
    let lo := if (b :: r).contains (a / 2048) then max a ((a / 2048 + 1) * 2048) else a
    let hi := if (b :: r).contains ((a + n - 1) / 2048) then min (a + n) ((a + n - 1) / 2048 * 2048) else a + n
    let (code, bad) := (s.mergeBad [(a, n)]).getD (0x51, b * 2048)
    (s.putPlain lo ((bs.drop (lo - a)).take (hi - lo))).raise { FaultRec.of code 8 with addr := bad, aux := s.faultAux 0xFF code bad }

/-- Several writes in order. -/
def State.putAll (s : State) (ws : List (Nat × List Byte)) : State := ws.foldl (fun s w => s.putMem w.1 w.2) s

/-- `n` bytes of zero. -/
def zeros (n : Nat) : List Byte := List.replicate n 0#8

/-! ### The rollback journal (R348, R349) -/

/-- Bytes of a directory and its payload packed without gaps. -/
def dirSpan (m : Cells) (a : Nat) : Nat := (dirAt m a).size + (dirAt m a).present * (dirAt m a).tileBytes

/-- Journaled ranges of one weight (R348). -/
def Weight.ranges (w : Weight) (m : Cells) : List (Nat × Nat) :=
  [w.maskA, w.maskB, w.wc0, w.wc1].map (fun a => (a, dirSpan m a)) ++
    w.planes.map (fun (b, wd) => (b, (w.dir m).present * w.slots m * wd))

/-- The journaled ranges of the module (R348). -/
def State.journalRanges (s : State) : List (Nat × Nat) :=
  s.mask.weights.flatMap (fun e => e.2.ranges s.mem) ++
    (s.tiers.regions.filter (fun r => r.kind == 3)).map (fun r => (r.base, r.size)) ++
    (match s.mir.desc with
      | some d => d.list.filterMap (fun i => (s.tiers.regions[i]?).map (fun r => (r.base, r.size)))
      | none => [])

/-- 2 KiB blocks of journaled ranges that a write touches. -/
def State.journalBlocks (s : State) (ws : List (Nat × Nat)) : List Nat :=
  if !s.journaling then []
  else
    let rs := s.journalRanges
    (ws.flatMap (fun (a, n) =>
      if n = 0 then []
      else ((List.range ((a + n - 1) / 2048 + 1 - a / 2048)).map (fun i => (a / 2048 + i) * 2048)).filter (fun b =>
        rs.any (fun r => max r.1 (max a b) < min (r.1 + r.2) (min (a + n) (b + 2048)))))).eraseDups

/-- Whether the generation of a step holds a block. -/
def State.hasBlock (s : State) (step b : Nat) : Bool := s.mir.gens.any (fun g => g.step == step && g.entries.any (fun e => e.addr == b))

/-- Blocks of the writes whose prior contents the generation still lacks. -/
def State.lacking (s : State) (step : Nat) (ws : List (Nat × Nat)) : List Nat :=
  (s.journalBlocks ws).filter (fun b => !s.hasBlock step b)

/-- Runs a writing effect once every journaled block of its writes has been copied; until then it asks for the copies. -/
def State.journaled (s : State) (step : Nat) (ws : List (Nat × Nat)) (act : State → State) : State :=
  match s.lacking step ws with
  | [] => act s
  | bs => s.askJournal step bs

/-- The spans of a list of writes. -/
def spans (ws : List (Nat × List Byte)) : List (Nat × Nat) := ws.map (fun w => (w.1, w.2.length))

/-! ### Use records (R229) -/

/-- The record with the oldest last use, the lowest key among equals. -/
def oldestRecord (rs : List PlRecord) : Option PlRecord :=
  rs.foldl (fun acc r => match acc with
    | none => some r
    | some b => if r.l1 < b.l1 || (r.l1 == b.l1 && r.key < b.key) then some r else some b) none

/-- Adds a record, replacing the oldest when the cache of 65,536 is full. -/
def addRecord (rs : List PlRecord) (r : PlRecord) : List PlRecord :=
  if rs.length < 65536 then rs ++ [r]
  else match oldestRecord rs with
    | none => rs
    | some o => rs.erase o ++ [r]

/-- Whether a record is that of an object for an array: a state tile or hint by its address, a context stream by its block and array. -/
def PlRecord.isFor (r : PlRecord) (o : ObjInfo) (n : Nat) : Bool :=
  match o.page with
  | some (k, _) => r.paged && r.key == k && r.arr == n
  | none => !r.paged && r.key == o.obj

/-- A use of an object by an array at the current tick; it clears the object's hints. Uses of state tiles and of context pages are recorded; a recurrent state keeps no use (R229). -/
def State.recordUse (s : State) (n : Nat) (o : ObjInfo) : State :=
  let rs := s.tiers.records.map (fun (r : PlRecord) => if !r.paged && r.key == o.obj then { r with hints := [] } else r)
  let rs := if o.page.isNone && (s.stateTileAt o.obj).isNone then rs
    else if rs.any (fun r => r.isFor o n) then
      rs.map (fun (r : PlRecord) => if r.isFor o n then
        { r with arr := n, l0 := r.l1, l1 := s.tick, uses := min 2 (r.uses + 1), page := (o.page.map Prod.snd).getD 0 } else r)
    else addRecord rs ⟨(o.page.map Prod.fst).getD o.obj, n, o.page.isSome, (o.page.map Prod.snd).getD 0, s.tick, s.tick, 1, []⟩
  { s with tiers := { s.tiers with records := rs } }

/-- Objects of the context store under the operand ranges of an instruction (R228). -/
def State.operandObjs (s : State) (rs : List (Nat × Nat)) : List ObjInfo :=
  (rs.flatMap (fun (a, n) => if s.isFar a then (s.objsIn 4096 a n).filter (fun o => (s.ctxObjAt o.obj).isSome) else [])).eraseDups

/-- Every managed object under ranges that an instruction reads (R229, R231). -/
def State.readObjs (s : State) (rs : List (Nat × Nat)) : List ObjInfo :=
  (rs.flatMap (fun (a, n) => if s.isFar a then s.objsIn 4096 a n else [])).eraseDups

/-- The uses of objects by an array, at the issue of an instruction that reads them (R229). -/
def State.recordUses (s : State) (n : Nat) (os : List ObjInfo) : State := os.foldl (fun (s : State) o => s.recordUse n o) s

/-- The objects among them that are not staged in the array's own window (R232). -/
def State.unstaged (s : State) (n : Nat) (os : List ObjInfo) : List (Nat × Nat) :=
  (os.filter (fun o => !s.isStaged n o.obj)).map (fun o => (o.obj, n))

/-- Address of SLD and SST: ab[rs1[3:0]] + imm, the immediate zero-extended (log 7). -/
def State.sAddr (s : State) (h : Head) (b : BodyR) : Nat :=
  nat64 (((s.ctx h.arr h.stream).base_ (b.rs1.toNat % 16)).toNat + b.imm.toNat)

/-- Region check of SLD and SST: 8 bytes at a multiple of 8, in no other array's slice (R12, R212, R285, R292; log 77). -/
def State.sCheck (s : State) (h : Head) (opcode a : Nat) (acc : Access) : Option FaultRec :=
  if a % 8 == 0 && ownSlice h.arr a && s.allowed a 8 h.stream.idx acc false then none
  else some (s.issueFault h opcode 0xFFFF 0x10 0 a)

/-- SLD: issues a load; the register is written by SLD_REGISTER_WRITTEN (R288, R292, R310). The load is a use of the object it reads, and pins it (R229, R231). -/
def execSld (h : Head) (b : BodyR) (s : State) : Host.Outcome State Fault Refusal :=
  let a := s.sAddr h b
  issue h { IssueInfo.simple 0x1B [b.rd.toNat] with
      regsOk := b.rs1.toNat < 16
      needSlot := true
      check := s.sCheck h 0x1B a .read }
    (fun slot t =>
      let objs := s.readObjs [(a, 8)]
      (t.recordUses h.arr objs).addOp h.arr
        { s.newOp h 0x1B slot 0xFFFF (s.cycle + s.lat 0x31) (.sld b.rd.toNat a none) with
          sreg := some b.rd.toNat, objs := objs.map (·.obj) }) s

/-- What issue needs to know of an SST; a store into a journaled block that has no entry yet waits for the copy (R348). -/
def State.sstInfo (s : State) (h : Head) (b : BodyR) : IssueInfo :=
  let lack := s.lacking (s.ctx h.arr h.stream).curStep [(s.sAddr h b, 8)]
  { IssueInfo.simple 0x1C [b.rs2.toNat] with
    regsOk := b.rs1.toNat < 16
    needSlot := true
    hold := if lack.isEmpty then none else some .journal
    check := s.sCheck h 0x1C (s.sAddr h b) .write
    copies := lack }

/-- SST (R292): the store is on its way; it lands, and its slot frees, when its latency has passed (R310); until then it pins the object it writes (R231). -/
def execSst (h : Head) (b : BodyR) (s : State) : Host.Outcome State Fault Refusal :=
  let a := s.sAddr h b
  let v := (s.ctx h.arr h.stream).sreg b.rs2.toNat
  issue h (s.sstInfo h b) (fun slot t => t.addOp h.arr { s.newOp h 0x1C slot 0xFFFF (s.cycle + s.lat 0x32) (.sst a v) with objs := (s.readObjs [(a, 8)]).map (·.obj) }) s

/-- The stores of a stream that are on their way and were issued before number `seq`, in issue order. -/
def ArrayState.earlierStores (a : ArrayState) (st : Stream) (seq : Nat) : List (Nat × W64) :=
  a.ops.filterMap (fun o => match o.body with
    | .sst x v => if o.stream == st && o.seq < seq then some (x, v) else none
    | _ => none)

/-- The 8 bytes at an address as a load of the stream meets them: behind the stores the stream issued before it (R292). -/
def State.loadWord (s : State) (arr : Nat) (o : Op) (a : Nat) : W64 :=
  BitVec.ofNat 64 (memNat (((s.arr arr).earlierStores o.stream o.seq).foldl (fun m x => memPut m x.1 (leBytes 8 x.2.toNat)) (s.get a 8 |> memPut [] a)) a 8)

/-- The loads of a stream that were issued before a store have read before it lands (R292). -/
def State.readBefore (s : State) (arr : Nat) (o : Op) : State :=
  s.modArr arr (fun a => { a with ops := a.ops.map (fun x => match x.body with
    | .sld rd ad none => if x.stream == o.stream && x.seq < o.seq then { x with body := .sld rd ad (some (s.loadWord arr x ad)) } else x
    | _ => x) })

/-- A store lands: one indivisible write (R292, R310). -/
def State.landStore (s : State) (arr : Nat) (o : Op) : State :=
  match o.body with
  | .sst a v => (s.readBefore arr o).putMem a (leBytes 8 v.toNat)
  | _ => s

/-- SLD_REGISTER_WRITTEN: the loaded value lands in its register and the slot is free (R288). An uncorrectable word faults (R209, R216). -/
def execSldRegisterWritten (arr slot : Nat) (s : State) : Host.Outcome State Fault Refusal :=
  match s.op? arr slot with
  | some o =>
    match o.body with
    | .sld rd a got =>
      if s.cycle < o.readyAt then .next s
      else
        let t := s.corrected [(a, 8)] arr
        match s.eccBad a 8 arr with
        | some (code, bad) => .next ((t.dropOp arr slot).raise (t.opFault o arr code 0 bad))
        | none => .next ((t.dropOp arr slot).modCtx arr o.stream (fun c => c.setSreg rd (got.getD (s.loadWord arr o a))))
    | _ => .next s
  | none => .next s

end Sys2Proof.Machine
end

