-- ==== Sys2Proof/Machine/Operands.lean ====
section
/-! DEFINITION. Dense operands of the arrays: layout, extents, region checks, reading a 128 × 128 tile and writing one with conversion (R31 to R40, R50, R51, R165, R166, R169, R176, R212, R285). -/

namespace Sys2Proof.Machine

/-- Bytes of a headerless MX tile: 128 lines and the scale plane (R165). -/
def headerlessSize (f : Fmt) : Nat := valueBytes f 16384 + scaleBytes f

/-- Rows and columns of a list of rows exchanged. -/
def transposeRows {α : Type} (d : α) (n : Nat) (rows : List (List α)) : List (List α) :=
  (List.range n).map (fun i => rows.map (fun r => r.getD i d))

/-- Encodings and scale bytes of the tile (ti, tj) of a dense operand, row by row. An MX tile holds lines along its block axis (R165, log 20). -/
def rawTile (m : Cells) (addr stride : Nat) (f : Fmt) (axis : Bool) (ti tj : Nat) : List (List (Nat × Nat)) :=
  if f.mx then
    let base := addr + 128 * ti * stride + tj * headerlessSize f
    let lines := (chunks 128 (valueBytes f 128) (memGet m base (valueBytes f 16384))).map (unpack f.bits 128)
    let sc := (memGet m (base + valueBytes f 16384) 512).map (·.toNat)
    let ls := lines.zipIdx.map (fun (l, n) => l.zipIdx.map (fun (w, i) => (w, sc.getD (4 * n + i / 32) 0)))
    if axis then transposeRows (0, 0) 128 ls else ls
  else
    (List.range 128).map (fun i =>
      (unpack f.bits 128 (memGet m (addr + (128 * ti + i) * stride + valueBytes f (128 * tj)) (valueBytes f 128))).map (fun w => (w, 0)))

/-- Exact values of a tile, as a product reads them (R26, R90). -/
def valueTile (m : Cells) (addr stride : Nat) (f : Fmt) (axis : Bool) (ti tj : Nat) : List (List FVal) :=
  (rawTile m addr stride f axis ti tj).map (fun r => r.map (fun (w, e) => operandValue f w e))

/-- FP32 words of a tile, as the vector engine reads them (R31, R166). -/
def wordTile (m : Cells) (addr stride : Nat) (f : Fmt) (axis : Bool) (ti tj : Nat) : List (List W32) :=
  (rawTile m addr stride f axis ti tj).map (fun r => r.map (fun (w, e) => toFP32 f w e))

/-- MX elements of a tile that exceed the FP32 range: reading them as FP32 words saturates (R31, R33). -/
def tileInSats (m : Cells) (addr stride : Nat) (f : Fmt) (axis : Bool) (ti tj : Nat) : Nat :=
  if f.mx then ((rawTile m addr stride f axis ti tj).map (fun r => (r.filter (fun (w, e) => (rne32 (mxValue f w e)).2)).length)).sum else 0

/-- Byte ranges of one tile of a dense operand. -/
def tileRanges (addr stride : Nat) (f : Fmt) (ti tj : Nat) : List (Nat × Nat) :=
  if f.mx then [(addr + 128 * ti * stride + tj * headerlessSize f, headerlessSize f)]
  else (List.range 128).map (fun i => (addr + (128 * ti + i) * stride + valueBytes f (128 * tj), valueBytes f 128))

/-- Bytes from the base of a dense operand to its end. -/
def operandSpan (f : Fmt) (stride rows cols : Nat) : Nat :=
  if f.mx then (rows / 128 - 1) * 128 * stride + cols / 128 * headerlessSize f
  else (rows - 1) * stride + valueBytes f cols

/-- Bytes of a streamed 128 × 128 tile with its scale plane (R70). -/
def streamedBytes (f : Fmt) : Nat := headerlessSize f

/-- Whether an operand is aligned and lies in a region that permits the access (R212, R285). -/
def State.operandOk (s : State) (st : Stream) (acc : Access) (a n : Nat) : Bool := a % 32 == 0 && s.allowed a n st.idx acc false

/-- First byte of an access that no permitting region holds: the end of the region its first byte lies in, or the first byte itself (R431). -/
def State.firstOutside (s : State) (user : Nat) (acc : Access) (a : Nat) : Nat :=
  match s.tiers.regions.find? (fun r => r.permits a 1 user acc false) with
  | some r => if a % 32 == 0 then r.base + r.size else a
  | none => a

/-- An operand of an array's own instruction, which lies in no other array's slice (R12; log 77). -/
def State.ownOk (s : State) (h : Head) (acc : Access) (a n : Nat) : Bool := ownSlice h.arr a && s.operandOk h.stream acc a n

/-- First byte that is not permitted of the first operand of a list that is not: the first byte itself in another array's slice, else the first outside its region. -/
def State.badOperand (s : State) (h : Head) (rs : List (Access × Nat × Nat)) : Option Nat :=
  (rs.find? (fun (acc, a, n) => !s.ownOk h acc a n)).map (fun r =>
    if ownSlice h.arr r.2.1 then s.firstOutside h.stream.idx r.1 r.2.1 else r.2.1)

/-- Whether an address is one a vector instruction, a reduction or a VTLOAD may name: in its array's scratchpad slice, or to read, in a context store, whose staged copy it then reads (R105, R164, R181, R228; log 77). -/
def State.inPad (s : State) (arr : Nat) (acc : Access) (a : Nat) : Bool :=
  scratchOf a == some arr || (acc == .read && s.isFar a && (s.regionAt a).any (fun r => r.kind == 3))

/-- An operand of those instructions that is permitted. -/
def State.padOk (s : State) (h : Head) (acc : Access) (a n : Nat) : Bool := s.inPad h.arr acc a && s.operandOk h.stream acc a n

/-- First byte that is not permitted of the first of their operands that is not. -/
def State.badPad (s : State) (h : Head) (rs : List (Access × Nat × Nat)) : Option Nat :=
  (rs.find? (fun (acc, a, n) => !s.padOk h acc a n)).map (fun r =>
    if s.inPad h.arr r.1 r.2.1 then s.firstOutside h.stream.idx r.1 r.2.1 else r.2.1)

/-! ### Tiles of the mask engine (R65, R119, R128, R131) -/

/-- Address of a tile of a directory in its own payload (R286). -/
def entryAddr (m : Cells) (dir e : Nat) : Nat := (dirAt m dir).payload + ((dirAt m dir).entry m e).2

/-- The buffer of a weight: wc_0, or wc_1 when `second`. -/
def Weight.buf (w : Weight) (second : Bool) : VBuf := if second then w.v1 else w.v0

/-- The directory address of a buffer. -/
def Weight.bufAddr (w : Weight) (second : Bool) : Nat := if second then w.wc1 else w.wc0

/-- The buffer in state `st` with a tag, wc_0 first. -/
def Weight.bufWith (w : Weight) (st : BufState) (tag : W32) : Option Bool :=
  if w.v0.st == st && w.v0.tag == tag then some false
  else if w.v1.st == st && w.v1.tag == tag then some true
  else none

/-- Present tiles of a weight's part, in entry order (R116). -/
def Weight.part (w : Weight) (m : Cells) : List TileRef := (w.dir m).tiles m w.partR0 w.partR1

/-- The weight a mask operation names. -/
def MaskKind.wt : MaskKind → Nat
  | .bind _ => 0xFFFF
  | .mdec w _ _ => w
  | .pruneG w _ => w
  | .pruneL w _ _ => w
  | .regrowM w _ _ _ => w
  | .regrowR w _ _ => w
  | .commit w _ => w
  | .adopt w _ => w

/-- The mask operation whose time runs: the engine is at work on every tile it reads or writes from its start to its end (DESIGN CHOICE, log 79). -/
def State.maskAtWork (s : State) : Option (MaskOp × Weight) :=
  match s.mask.running with
  | some (op, at_, false) => if s.cycle < at_ then (s.weight? op.kind.wt).map (fun w => (op, w)) else none
  | _ => none

/-- The tiles that the engine writes while its time runs: those of the pending mask, or the regenerated working copy. -/
def State.maskWrites (s : State) : List (Nat × Nat) :=
  match s.maskAtWork with
  | none => []
  | some (op, w) =>
    match op.kind with
    | .pruneG _ _ | .pruneL _ _ _ | .regrowM _ _ _ _ | .regrowR _ _ _ => (w.part s.mem).map (fun t => (entryAddr s.mem w.otherMask t.e, maskTileSize))
    | .commit _ tag =>
      let wc := w.bufAddr ((w.bufWith .writing (BitVec.ofNat 32 tag)).getD false)
      (w.part s.mem).map (fun t => (entryAddr s.mem wc t.e, (dirAt s.mem wc).tileBytes))
    | .bind _ | .mdec _ _ _ | .adopt _ _ => []

/-- The tiles that it reads: the masks of the weight's part. -/
def State.maskTileReads (s : State) : List (Nat × Nat) :=
  match s.maskAtWork with
  | none => []
  | some (_, w) => (w.part s.mem).flatMap (fun t =>
      [(entryAddr s.mem w.curMask t.e, maskTileSize), (entryAddr s.mem w.otherMask t.e, maskTileSize)])

/-! ### Writing tiles (R37, R166, R176) -/

/-- How the elements of a result are rounded: stochastic with tag 2, or to nearest (R40, R166). -/
structure RoundBy where
  sr : Bool
  seed : Nat
  step : Nat
  idx : Nat
  pitch : Nat
  deriving DecidableEq, Repr

/-- Rounding of the element at row i and column j of the region. -/
def RoundBy.at_ (r : RoundBy) (f : Fmt) (i j : Nat) : Rounding :=
  if r.sr && f != .int8 then .stochastic (philoxWord r.seed 2 r.step ((r.idx + i * r.pitch + j) % 2 ^ 48)) else .rne

/-- The writes of the tile (ti, tj) of a result region, and how many values saturated (R33, R37, R166). -/
def tileWrites (addr stride : Nat) (f : Fmt) (axis : Bool) (rb : RoundBy) (ti tj : Nat) (rows : List (List W32)) :
    List (Nat × List Byte) × Nat :=
  if f.mx then
    let lines := (if axis then transposeRows 0 128 rows else rows).map (fun l => l.map val32)
    let rd := fun (n i : Nat) => if axis then rb.at_ f (128 * ti + i) (128 * tj + n) else rb.at_ f (128 * ti + n) (128 * tj + i)
    let blocks := lines.zipIdx.map (fun (l, n) =>
      (chunks 4 32 l).zipIdx.map (fun (b, q) => mxBlock f (fun i => rd n (32 * q + i)) b))
    let bytes := blocks.flatMap (fun bs => pack f.bits (bs.flatMap (fun b => b.2.1)))
    let scales := blocks.flatMap (fun bs => bs.map (fun b => BitVec.ofNat 8 b.1))
    ([(addr + 128 * ti * stride + tj * headerlessSize f, bytes ++ scales)], (blocks.flatten.map (fun b => b.2.2)).sum)
  else
    let enc := rows.zipIdx.map (fun (r, i) => r.zipIdx.map (fun (w, j) => f.encode (rb.at_ f (128 * ti + i) (128 * tj + j)) (val32 w)))
    (enc.zipIdx.map (fun (r, i) => (addr + (128 * ti + i) * stride + valueBytes f (128 * tj), pack f.bits (r.map Prod.fst))),
     (enc.map (fun r => (r.filter Prod.snd).length)).sum)

/-- The writes of a tile of 32-bit integers at rows `stride` bytes apart: an index plane (R176). -/
def indexWrites (addr stride : Nat) (rows : List (List W32)) : List (Nat × List Byte) :=
  rows.zipIdx.map (fun (r, i) => (addr + i * stride, r.flatMap (fun w => leBytes 4 w.toNat)))

/-- 128 rows of 128 words from 16,384 words. -/
def asRows (ws : List W32) : List (List W32) := chunks 128 128 ws

end Sys2Proof.Machine
end

