-- ==== Sys2Proof/Machine/Products.lean ====
section
/-! DEFINITION. MMF, MMT, MMG and MMG.CAND: issue checks, preloads, segments, runs and totals, gradient-buffer additions (R67 to R101, R151 to R159, R177). -/

namespace Sys2Proof.Machine

/-! ### Rates (R30, R69) -/

/-- q, 1/ρ and ⌈2/P⌉ of a rate class. -/
structure Rate where
  q : Nat
  rho : Nat
  cand : Nat
  deriving DecidableEq, Repr

/-- 6-bit and 4-bit MX formats. -/
def Fmt.narrow : Fmt → Bool
  | .e3m2 | .e2m3 | .e2m1 => true
  | _ => false

/-- The six formats of R30's third row. -/
def Fmt.small : Fmt → Bool
  | .e4m3 | .e5m2 | .mxfp8 | .e3m2 | .e2m3 | .e2m1 => true
  | _ => false

/-- FP16 and BF16. -/
def Fmt.half : Fmt → Bool
  | .fp16 | .bf16 => true
  | _ => false

/-- The rate class of an operand pair and run code; none when R30 does not allow them. -/
def rateOf (a b : Fmt) (run : Nat) : Option Rate :=
  if a.narrow && b.narrow then (if run == 0 then some ⟨2, 1, 1⟩ else if run == 1 then some ⟨4, 1, 1⟩ else none)
  else if a.small && b.small then (if run == 0 then some ⟨1, 1, 2⟩ else if run == 1 then some ⟨2, 1, 1⟩ else none)
  else if a.half && b.half then (if run == 0 then some ⟨1, 2, 4⟩ else if run == 1 then some ⟨2, 2, 2⟩ else none)
  else if a == .int8 && b == .int8 then (if run == 2 then some ⟨1, 1, 2⟩ else none)
  else if a == .fp32 && b == .fp32 then (if run == 0 then some ⟨1, 16, 32⟩ else none)
  else none

/-- Run length of R92. -/
def runLen (code : Nat) : Nat := 32 * 2 ^ code

/-! ### Runs and totals of one element (R93, R96 to R102) -/

/-- An output element while its terms arrive: total, open run with its index, flags of R103. -/
structure Elem where
  hi : W32
  lo : W32
  run : Option (Nat × W32)
  flags : Nat
  deriving DecidableEq, Repr

/-- nonfinite for a word that is an infinity or a NaN. -/
def nonfiniteFlag (w : W32) : Nat := if (val32 w).isFinite then 0 else 8

/-- A value rounded to the run format (0 FP32, 1 FP16, 2 INT32), held as an FP32 word, with the flags of R101 and R102. -/
def runRound (run : Nat) (x : FVal) : W32 × Nat :=
  let (w, sat) :=
    if run == 1 then
      let (e, s) := Fmt.fp16.encode .rne x
      (toFP32 .fp16 e 0, s)
    else if run == 2 then ((rne32 (FVal.ofInt x.floor)).1, false)
    else rne32 x
  (w, (if sat then 2 else 0) ||| nonfiniteFlag w)

/-- Promotes the open run into the total (R96, R98, R99). -/
def Elem.promote (e : Elem) (dw : Bool) : Elem :=
  match e.run with
  | none => e
  | some (_, x) =>
    if dw then
      let (t, sat) := (⟨e.hi, e.lo⟩ : DW).add x
      ⟨t.hi, t.lo, none, e.flags ||| (if sat then 4 else 0) ||| nonfiniteFlag t.hi⟩
    else
      let (t, sat) := f32add e.hi x
      ⟨t, e.lo, none, e.flags ||| (if sat then 4 else 0) ||| nonfiniteFlag t⟩

/-- One term enters at a place of the slot sequence: it opens a run or is added to the open one (R92, R93). -/
def Elem.term (run len : Nat) (dw : Bool) (e : Elem) (t : Nat × FVal) : Elem :=
  let k := t.1 / len
  let e := match e.run with
    | some (i, _) => if i == k then e else e.promote dw
    | none => e
  let (w, f) := match e.run with
    | some (_, x) => runRound run ((val32 x).add t.2)
    | none => runRound run t.2
  { e with run := some (k, w), flags := e.flags ||| f }

/-- A list of terms in slot-sequence order. -/
def Elem.terms (run len : Nat) (dw : Bool) (e : Elem) (ts : List (Nat × FVal)) : Elem := ts.foldl (Elem.term run len dw) e

/-- OR of the flags of elements. -/
def flagsOf (es : List Elem) : Nat := es.foldl (fun f e => f ||| e.flags) 0

/-! ### Plans (R71, R85, R89) -/

/-- Present tiles of a product's range. -/
def Product.present (p : Product) (m : Cells) (r1 : Nat) : List TileRef := (dirAt m p.dir).range m p.r0 r1 p.j0 p.j1

/-- Marks first and last of a set; a set with no tile-row is one empty segment. -/
def setSegs (m set : Nat) (rows : List Nat) : List Seg :=
  if rows.isEmpty then [⟨m, set, 0, 0, true, true, true⟩]
  else rows.zipIdx.map (fun (r, i) => ⟨m, set, r, 0, i == 0, i + 1 == rows.length, false⟩)

/-- Tile-rows of a column set in which some tile is present. -/
def setRows (tiles : List TileRef) (r0 r1 j0 q set : Nat) : List Nat :=
  ((List.range (r1 + 1 - r0)).map (· + r0)).filter (fun r => tiles.any (fun t => t.r == r && (t.col - j0) / q == set))

/-- Segments of one block of 128 rows of an MMF or MMT. -/
def blockSegs (tiles : List TileRef) (r0 r1 j0 q nSets m : Nat) : List Seg :=
  (List.range nSets).flatMap (fun x => setSegs m x (setRows tiles r0 r1 j0 q x))

/-- Segments of an MMG: tiles in entry order, blocks of rows inside. -/
def mmgSegs (tiles : List TileRef) (blocks : Nat) : List Seg :=
  tiles.flatMap (fun t => (List.range blocks).map (fun m => ⟨m, t.e, t.r, t.col, m == 0, m + 1 == blocks, false⟩))

/-- Segments of an MMG.CAND: blocks of rows, candidates inside. -/
def candSegs (cands : List (Nat × Nat × Nat)) (blocks : Nat) : List Seg :=
  (List.range blocks).flatMap (fun m => cands.zipIdx.map (fun (c, i) =>
    ⟨m, i, c.1, c.2.1, m == 0 && i == 0, m + 1 == blocks && i + 1 == cands.length, false⟩))

/-! ### Durations (R70, R73, R85, R89) -/

/-- Row and block maps of a freeze-table entry (R87). -/
def freezeMaps (m : Cells) (p : Product) (e : Nat) : Nat × Nat :=
  match p.frz with
  | some a => (memNat m (a + 32 * e) 16, memNat m (a + 32 * e + 16) 8)
  | none => (0, 0)

/-- Whether group (16u to 16u + 15, g) counts as frozen in a_u. -/
def groupFrozen (rowMap blockMap u g : Nat) : Bool :=
  blockMap.testBit (8 * u + g) || (List.range 16).all (fun i => rowMap.testBit (16 * g + i))

/-- Whether position i of line n is frozen (R87). -/
def posFrozen (rowMap blockMap n i : Nat) : Bool := rowMap.testBit i || blockMap.testBit (n / 16 * 8 + i / 16)

/-- Σ over u of ⌈k̂ · a_u / 8⌉. -/
def freezeCycles (rowMap blockMap khat : Nat) : Nat :=
  ((List.range 8).map (fun u => cdiv (khat * ((List.range 8).filter (fun g => !groupFrozen rowMap blockMap u g)).length) 8)).sum

/-- Scale bytes that a 128 × 16 slice touches. -/
def sliceScales (f : Fmt) (axis : Bool) : Nat := if f.mx then (if axis then 64 else 128) else 0

/-- Format of a code, FP32 when reserved. -/
def fmtOf (c : Nat) : Fmt := (Fmt.ofCode c).getD .fp32

/-- Duration of a segment. -/
def Product.segTime (p : Product) (m : Cells) (g : Seg) : Nat :=
  let khat := max p.cap 2
  match p.kind with
  | .mmf | .mmt => max (8 * khat * p.rho) (cdiv (streamedBytes (fmtOf p.xFmt)) 1024)
  | .mmg =>
    let (r, b) := freezeMaps m p g.set
    max (freezeCycles r b khat * p.rho) (cdiv (streamedBytes (fmtOf p.yFmt)) 1024)
  | .cand =>
    let sx := valueBytes (fmtOf p.xFmt) 2048 + sliceScales (fmtOf p.xFmt) p.xAxis
    let sy := valueBytes (fmtOf p.yFmt) 2048 + sliceScales (fmtOf p.yFmt) p.yAxis
    max (cdiv (sx + sy) 1024) p.rho

/-- Stationary tiles of a segment of an MMF or MMT. -/
def Product.segTiles (p : Product) (m : Cells) (g : Seg) : List TileRef :=
  ((dirAt m p.dir).row m g.r).filter (fun t => p.j0 ≤ t.col && t.col ≤ p.j1 && (t.col - p.j0) / p.q == g.set)

/-- Cycles of a preload, ⌈B / 1,024⌉ (R73, R85). -/
def Product.preTime (p : Product) (m : Cells) (g : Seg) : Nat :=
  match p.kind with
  | .mmf | .mmt => cdiv ((p.segTiles m g).map (fun t => (tileHdr m (p.pay + t.ofs)).bytes)).sum 1024
  | _ =>
    let d := dirAt m p.dir
    let pos := if !g.first then 0 else if d.maskDir then maskTileSize else 512 + 512 * d.capK
    cdiv (streamedBytes (fmtOf p.xFmt) + pos) 1024

/-- The segment whose preload comes next. -/
def Product.nextPre (p : Product) : Option Seg := (p.plan.filter (fun g => !g.empty))[p.cells.length]?

/-! ### Accumulator tiles of a set (R71) -/

/-- Units of one tile. -/
def Product.uw (p : Product) : Nat := if p.dw32 then 2 else 1

/-- Lower unit of tile t of the half that set number n uses. -/
def Product.unitOf (p : Product) (n t : Nat) : Nat := p.accBase + (n % 2 * p.q + t) * p.uw

/-- Tile-columns of column set x. -/
def Product.setCols (p : Product) (x : Nat) : Nat := min p.q (p.nCols - p.q * x)

/-- Tiles of sets 0 to n. -/
def Product.tilesThrough (p : Product) (n : Nat) : Nat := n / p.nSets * p.nCols + min ((n % p.nSets + 1) * p.q) p.nCols

/-- Whether the half of set number n is free: the tiles of the set before last have entered the queue (R178). -/
def Product.halfFree (p : Product) (n : Nat) : Bool :=
  match p.kind with
  | .mmf | .mmt => n < 2 || p.tilesThrough (n - 2) ≤ p.tilesOut
  | _ => true

/-- An accumulator tile as elements, with the open runs of its column. -/
def tileElems (a : ArrayState) (u : Nat) (dw : Bool) (runs : List (Option (Nat × W32))) : List Elem :=
  let lo := if dw then a.unit (u + 1) else List.replicate 16384 0#32
  ((a.unit u).zip (lo.zip runs)).map (fun (h, l, r) => ⟨h, l, r, 0⟩)

/-- Writes elements back to a tile, with their flags. -/
def ArrayState.putElems (a : ArrayState) (u : Nat) (dw : Bool) (es : List Elem) : ArrayState :=
  let a := a.setUnit u (es.map (·.hi))
  let a := if dw then a.setUnit (u + 1) (es.map (·.lo)) else a
  a.flagTile u dw (flagsOf es)

/-- A column with no run open. -/
def RunCol.fresh : RunCol := ⟨0, List.replicate 16384 none⟩

/-- Zero totals for the tiles of a set when acc_init = 0 (R97). A tile that no set takes is not written: the spec does not say what it holds, and here it keeps its words and its defined bit (DESIGN CHOICE, log 80). -/
def Product.startSet (p : Product) (a : ArrayState) (n set : Nat) : ArrayState :=
  if p.accInit then a
  else (List.range (p.setCols set)).foldl (fun (a : ArrayState) t =>
    let a := a.setUnit (p.unitOf n t) []
    if p.dw32 then a.setUnit (p.unitOf n t + 1) [] else a) a

/-- Units that stand for the missing tile-columns of a short set: their contents are undefined (R71). -/
def Product.missingUnits (p : Product) (n set : Nat) : List Nat :=
  match p.kind with
  | .mmf | .mmt => (List.range (p.q - p.setCols set)).flatMap (fun t => (List.range p.uw).map (· + p.unitOf n (p.setCols set + t)))
  | _ => []

/-- The sets at the front of the plan in which every tile-row is absent: their totals become final after the pipeline (R71). Answers the product, the array and the units left undefined. -/
def Product.skipEmpty (a : ArrayState) (pipeAt : Nat) : Nat → Product → Product × ArrayState × List Nat
  | 0, p => (p, a, [])
  | n + 1, p =>
    match p.plan with
    | [] => (p, a, [])
    | g :: rest =>
      if g.empty && p.halfFree p.setNo then
        let a := p.startSet a p.setNo g.set
        let a := (List.range (p.setCols g.set)).foldl (fun (a : ArrayState) t => a.flagTile (p.unitOf p.setNo t) p.dw32 0) a
        let r := Product.skipEmpty a pipeAt n { p with plan := rest, setNo := p.setNo + 1, finals := p.finals ++ [⟨pipeAt, p.setNo, 0, []⟩] }
        (r.1, r.2.1, p.missingUnits p.setNo g.set ++ r.2.2)
      else (p, a, [])

/-- Skips the empty sets at the front of a product's plan in its array. -/
def State.skipSets (s : State) (n : Nat) (p : Product) (pipeAt : Nat) : Product × State :=
  let (p, a, us) := Product.skipEmpty (s.arr n) pipeAt p.plan.length p
  (p, (s.modArr n (fun _ => a)).undefUnits n us)

/-! ### Issue checks (R74, R112, R151) -/

/-- A failed issue check: fault code, row, address. -/
structure CheckFail where
  code : Nat
  row : Nat
  addr : Nat
  deriving DecidableEq, Repr

/-- First failure of a list of checks in order. -/
def firstFail : List (Option CheckFail) → Option CheckFail
  | [] => none
  | some c :: _ => some c
  | none :: r => firstFail r

/-- A check: the failure when the condition holds. -/
def failIf (b : Bool) (code row : Nat) : Option CheckFail := if b then some ⟨code, row, 0⟩ else none

/-- What an MMF, MMT or MMG names, resolved (R297, R298). `x` is the streamed operand of MMF and MMT and the stationary X of MMG; `y` is dY of MMG. -/
structure ProdArgs where
  kind : ProdKind
  opcode : Nat
  x : ORef
  xStride : Nat
  m : Nat
  dir : Nat
  pay : Nat
  r0 : Nat
  r1 : Nat
  j0 : Nat
  j1 : Nat
  segCount : Nat
  fmt : Nat
  y : Option ORef
  yStride : Nat
  out : Option ORef
  outStride : Nat
  grad : Nat
  frz : Option Nat
  deriving DecidableEq, Repr

/-- The run code of a product's mod byte (R296). -/
def runCode (h : Head) : Nat := bits h.mod.toNat 3 2

/-- The mnemonic's cap (R296). -/
def capCode (h : Head) : Nat := bits h.mod.toNat 7 4 + 1

/-- Formats of the pair: x with the named format for MMF and MMT, x with dY for MMG. -/
def ProdArgs.pair (a : ProdArgs) : Option (Fmt × Fmt) :=
  match Fmt.ofCode a.x.format.toNat, Fmt.ofCode (match a.y with
    | some y => y.format.toNat
    | none => a.fmt) with
  | some f, some g => some (f, g)
  | _, _ => none

/-- The rate of the operand pair, none when R30 does not allow it. -/
def ProdArgs.rate (a : ProdArgs) (run : Nat) : Option Rate :=
  match a.pair with
  | some (f, g) => rateOf f g run
  | none => none

/-- Whether a format code is one the vector engine may write (R29). -/
def vecOut (c : Nat) : Bool := c < 10

/-- Units an MMF, MMT or MMG names (R111). -/
def ProdArgs.unitCount (a : ProdArgs) (b : BodyP) (r : Rate) : Nat :=
  match a.kind with
  | .mmf | .mmt => 2 * r.q * (if b.dw32 then 2 else 1)
  | .mmg => 2
  | .cand => 1

/-- Column sets of the range. -/
def ProdArgs.nSets (a : ProdArgs) (q : Nat) : Nat := cdiv (a.j1 + 1 - a.j0) q

/-- Operand ranges with their accesses (row 10 of R74). A payload or plane address off its alignment fails with no present tile too (R285). -/
def State.prodRanges (s : State) (h : Head) (a : ProdArgs) : List (Access × Nat × Nat) :=
  let c := s.ctx h.arr h.stream
  let d := dirAt s.mem a.dir
  let tiles := d.range s.mem a.r0 a.r1 a.j0 a.j1
  let x := (Access.read, c.oref a.x, operandSpan (fmtOf a.x.format.toNat) a.xStride a.m (128 * (a.r1 + 1 - a.r0)))
  let base := fun (acc : Access) (x : Nat) => if x % 32 == 0 then [] else [(acc, x, 0)]
  let dir := [(Access.read, a.dir, d.size)] ++ base .read a.pay ++ tiles.map (fun t => (Access.read, a.pay + t.ofs, d.tileBytes))
  match a.kind with
  | .mmf | .mmt => [x] ++ dir ++ (match a.out with
      | some o => [(Access.write, c.oref o, operandSpan (fmtOf o.format.toNat) a.outStride a.m (128 * (a.j1 + 1 - a.j0)))]
      | none => [])
  | _ =>
    [x] ++ (match a.y with
      | some y => [(Access.read, c.oref y, operandSpan (fmtOf y.format.toNat) a.yStride a.m (128 * (a.j1 + 1 - a.j0)))]
      | none => []) ++ dir ++ base .add a.grad ++ tiles.map (fun t => (Access.add, a.grad + t.e * 4096 * d.capK, 4096 * d.capK)) ++
    (match a.frz with
      | some f => [(Access.read, f, 32 * d.present)]
      | none => [])

/-- Segments per block of 128 rows, from the directory (row 8 of R74). -/
def ProdArgs.segments (a : ProdArgs) (m : Cells) (q : Nat) : Nat :=
  let tiles := (dirAt m a.dir).range m a.r0 a.r1 a.j0 a.j1
  if a.kind == .mmg then tiles.length
  else ((blockSegs tiles a.r0 a.r1 a.j0 q (a.nSets q) 0).filter (fun g => !g.empty)).length

/-- The checks of R74 with those of R112, in order. -/
def State.prodCheck (s : State) (h : Head) (b : BodyP) (a : ProdArgs) : Option CheckFail :=
  let d := dirAt s.mem a.dir
  let isG := a.kind == .mmg
  let run := runCode h
  let rate := (a.rate run).getD ⟨1, 1, 1⟩
  let cap := capCode h
  let dense := d.dense && !d.maskDir
  let outBad := match a.out with
    | some o => o.kind != 0#2 || !vecOut o.format.toNat
    | none => false
  firstFail [
    failIf (a.m == 0 || a.m % 128 != 0) 0x23 1,
    failIf ((a.rate run).isNone || a.x.kind != 0#2 || a.y.any (fun y => y.kind != 0#2) || outBad ||
      (isG && (run != 0 || b.dw32 || b.accInit))) 0x24 2,
    failIf (d.version != 1 || d.group != 0) 0x24 3,
    failIf (if isG && d.maskDir then false else d.format != a.fmt || (isG && dense)) 0x24 4,
    failIf (!d.complete) 0x23 5,
    failIf (a.r1 < a.r0 || a.j1 < a.j0 || d.rows ≤ a.r1 || d.cols ≤ a.j1) 0x21 6,
    failIf (d.capK > cap || (if isG then d.capN > cap else dense && cap < 16)) 0x20 7,
    failIf (a.segments s.mem rate.q != a.segCount) 0x23 8,
    ((s.arr h.arr).accCheck h.stream b.accBase.toNat (a.unitCount b rate) b.dw32 (b.accInit && !isG) (if b.dw32 then 10 else 0) 0).map
      (fun c => ⟨c, 9, 0⟩),
    (s.badOperand h (s.prodRanges h a)).map (fun x => ⟨0x10, 10, x⟩)]

/-- The version buffer of a weight that holds a tag, if one is ready with it (R149). -/
def Weight.held (w : Weight) (tag : W32) : Option VBuf :=
  if w.v0.st == .ready && w.v0.tag == tag then some w.v0
  else if w.v1.st == .ready && w.v1.tag == tag then some w.v1
  else none

/-- The checks of R151. -/
def State.versionCheck (s : State) (h : Head) (b : BodyP) (isG : Bool) : Option CheckFail :=
  if b.wt == 0xFFFF#16 then none
  else match s.weight? b.wt.toNat with
    | none => some ⟨0x21, 1, 0⟩
    | some w =>
      match w.held (s.ctx h.arr h.stream).ver with
      | none => some ⟨0x30, 2, 0⟩
      | some v => failIf (isG && v.gen != w.gradGen) 0x30 3

/-- A version that waits to be regenerated holds every instruction that names it (R153). -/
def State.versionHeld (s : State) (h : Head) (wt : BitVec 16) : Bool :=
  wt != 0xFFFF#16 && s.mask.verWaits.any (fun v => v.wt == wt.toNat && v.tag == (s.ctx h.arr h.stream).ver)

/-- Entries of a weight with a deferred or running update, with the base of their gradient plane (R202). -/
def State.updatingPlanes (s : State) : List (Nat × Nat) :=
  s.arrays.flatMap (fun a =>
    let entries := a.deferred.map (fun d => (d.wt, d.entry)) ++ a.updCur.toList.map (fun c => (c.wt, c.entry))
    entries.filterMap (fun (wt, e) => (s.weight? wt).map (fun w => (w.grad + e * 4096 * (w.dir s.mem).capK, 4096 * (w.dir s.mem).capK))))

/-- An MMG that would add into such a plane is held (R202). -/
def State.gbHeld (s : State) (a : ProdArgs) : Bool :=
  a.kind == .mmg && (let d := dirAt s.mem a.dir
    let up := s.updatingPlanes
    !up.isEmpty && (d.range s.mem a.r0 a.r1 a.j0 a.j1).any (fun t =>
      up.any (fun (x, n) => x < a.grad + (t.e + 1) * 4096 * d.capK && a.grad + t.e * 4096 * d.capK < x + n)))

/-- The record of a failed issue check. -/
def State.checkFault (s : State) (h : Head) (opcode object : Nat) (c : CheckFail) : FaultRec :=
  s.issueFault h opcode object c.code c.row c.addr

/-- fused out_mode is legal only in an F stream or under the recompute flag (R174). -/
def State.fusedOk (s : State) (h : Head) (fused : Bool) : Bool :=
  !fused || h.stream == .f || (h.stream == .b && (s.ctx h.arr h.stream).recompute.isSome)

/-- An access by the array's own window is needed but the array has none (R227). -/
def State.windowCheck (s : State) (n : Nat) (wants : List (Nat × Nat)) (row : Nat) : Option CheckFail :=
  failIf (!wants.isEmpty && (s.window n).isNone) 0x10 row

/-- What issue needs to know of an MMF, MMT or MMG. -/
def State.prodInfo (s : State) (h : Head) (b : BodyP) (a : ProdArgs) (regs : List Nat) : IssueInfo :=
  let rate := (a.rate (runCode h)).getD ⟨1, 1, 1⟩
  let us := (List.range (a.unitCount b rate)).map (· + b.accBase.toNat)
  let isG := a.kind == .mmg
  let wants := s.unstaged h.arr (s.operandObjs ((s.prodRanges h a).map Prod.snd))
  { IssueInfo.simple a.opcode regs with
    streams := if a.kind == .mmf then allStreams else [.b]
    modOk := runCode h != 3 && h.mod.toNat % 4 != 3
    decodeBad := if isG || s.fusedOk h b.fused then none else some 0
    formatRows := [2]
    needSlot := true
    record := some (b.recRef, if isG then 128 else 64)
    hold :=
      if (s.arr h.arr).unitsHeld s.cycle us then some .acc
      else if s.versionHeld h b.wt then some .version
      else if s.gbHeld a then some .gb
      else if !wants.isEmpty && (s.window h.arr).isSome then some .staging
      else none
    units := us
    check := (firstFail [s.prodCheck h b a, s.versionCheck h b isG, s.windowCheck h.arr wants 10]).map
      (s.checkFault h a.opcode b.wt.toNat)
    object := b.wt.toNat
    wants := wants }

/-- The product an issued instruction starts (R288: every address and register is read now). -/
def State.mkProduct (s : State) (h : Head) (b : BodyP) (a : ProdArgs) (sr : Bool) (idx pitch seed : Nat) : Product :=
  let c := s.ctx h.arr h.stream
  let rate := (a.rate (runCode h)).getD ⟨1, 1, 1⟩
  let d := dirAt s.mem a.dir
  let tiles := d.range s.mem a.r0 a.r1 a.j0 a.j1
  let blocks := a.m / 128
  let isG := a.kind == .mmg
  { kind := a.kind, nSets := a.nSets rate.q, nCols := a.j1 + 1 - a.j0, rho := rate.rho, run := runCode h,
    runLen := runLen (h.mod.toNat % 4), cap := capCode h, q := if isG then 1 else rate.q,
    xAddr := c.oref a.x, xStride := a.xStride, xFmt := a.x.format.toNat, xAxis := a.x.mxAxis,
    yAddr := (a.y.map c.oref).getD 0, yStride := a.yStride, yFmt := (a.y.map (·.format.toNat)).getD 0, yAxis := a.y.any (·.mxAxis),
    dir := a.dir, pay := a.pay, wFmt := a.fmt, r0 := a.r0, j0 := a.j0, j1 := a.j1, m := a.m, accBase := b.accBase.toNat,
    dw32 := b.dw32 && !isG, accInit := b.accInit && !isG, fused := b.fused && !isG, first := b.first, grad := a.grad, frz := a.frz,
    out := (a.out.map c.oref).getD 0, outFmt := (a.out.map (·.format.toNat)).getD 0, outStride := a.outStride, outAxis := a.out.any (·.mxAxis),
    sr := sr, idxBase := idx, idxPitch := pitch, seed := seed, cands := [],
    plan := if isG then mmgSegs tiles blocks
      else (List.range blocks).flatMap (blockSegs tiles a.r0 a.r1 a.j0 rate.q (a.nSets rate.q)),
    cells := [], held := [], pos := [], runs := [], setNo := 0, finals := [], tilesOut := 0,
    addLeft := if isG then tiles.map (·.e) else [], preAt := 0, segAt := s.cycle, waited := [] }

/-- The effect of issuing a product: ownership, the plan, its first preload, the fused entries it will produce (R73, R113, R175). -/
def State.startProduct (s0 s : State) (h : Head) (b : BodyP) (a : ProdArgs) (p : Product) (slot : Nat) : State :=
  let now := s0.cycle
  let rate := (a.rate (runCode h)).getD ⟨1, 1, 1⟩
  let us := (List.range (a.unitCount b rate)).map (· + b.accBase.toNat)
  let tiles := if p.dw32 then us.filter (fun u => u % 2 == 0) else us
  let fixed := s0.lat 0x01
  let preAt := match p.nextPre with
    | some g => now + fixed + p.preTime s0.mem g
    | none => now + fixed
  let objs := s0.operandObjs ((s0.prodRanges h a).map Prod.snd)
  let s := s.modArr h.arr (fun x => x.own tiles p.dw32 (if p.dw32 then 10 else 0) 0 slot h.stream p.accInit)
  let (p, s) := s.skipSets h.arr { p with preAt := preAt } (now + fixed + s0.lat 0x02)
  let s := if p.fused then s.modCtx h.arr h.stream (fun c => { c with fusedMade := c.fusedMade + a.m / 128 * p.nCols }) else s
  let s := s.recordUses h.arr objs
  s.addOp h.arr { s0.newOp h a.opcode slot b.wt.toNat (now + 1) (.prod p) with units := us, objs := objs.map (·.obj) }

/-- Arguments of MMF and MMT from the record of R297. -/
def State.mmArgs (s : State) (kind : ProdKind) (opcode : Nat) (h : Head) (b : BodyP) (r : ProdRec) : ProdArgs :=
  let c := s.ctx h.arr h.stream
  ⟨kind, opcode, r.x, r.xStride.toNat, r.m.toNat, c.aref r.wDir, c.aref r.wPay, r.r0.toNat, r.r1.toNat, r.j0.toNat, r.j1.toNat,
   r.segCount.toNat, r.wFmt.toNat, none, 0, if b.fused then none else some r.out, r.outStride.toNat, 0, none⟩

/-- MMF and MMT share issue (R67, R71). -/
def State.issueMM (s : State) (kind : ProdKind) (opcode : Nat) (h : Head) (b : BodyP) (r : ProdRec) : Host.Outcome State Fault Refusal :=
  let c := s.ctx h.arr h.stream
  let a := s.mmArgs kind opcode h b r
  let p := s.mkProduct h b a r.sr ((c.sreg r.idxReg.toNat).toNat % 2 ^ 48) r.idxPitch.toNat (c.sreg r.seedReg.toNat).toNat
  issue h (s.prodInfo h b a (if b.fused || !r.sr then [] else [r.idxReg.toNat, r.seedReg.toNat])) (fun slot t => s.startProduct t h b a p slot) s

/-- MMF: Y = X·W (R67, R71, R297). -/
def execMmf (h : Head) (b : BodyP) (r : ProdRec) (s : State) : Host.Outcome State Fault Refusal := s.issueMM .mmf 0x20 h b r

/-- MMT: dX = dY·Wᵀ on a transposed destination (R67, R81). -/
def execMmt (h : Head) (b : BodyP) (r : ProdRec) (s : State) : Host.Outcome State Fault Refusal := s.issueMM .mmt 0x21 h b r

/-- Arguments of MMG from the record of R298. -/
def State.mmgArgs (s : State) (h : Head) (r : MmgRec) : ProdArgs :=
  let c := s.ctx h.arr h.stream
  ⟨.mmg, 0x22, r.x, r.xStride.toNat, r.m.toNat, c.aref r.posDir, c.aref r.posPay, r.r0.toNat, r.r1.toNat, r.j0.toNat, r.j1.toNat,
   r.segCount.toNat, r.posFmt.toNat, some r.dy, r.dyStride.toNat, none, 0, c.aref r.grad, if r.frz.isNone then none else some (c.aref r.frz)⟩

/-- MMG: dW = Xᵀ·dY at mask positions, added into the gradient buffer (R84 to R87). -/
def execMmg (h : Head) (b : BodyP) (r : MmgRec) (s : State) : Host.Outcome State Fault Refusal :=
  let a := s.mmgArgs h r
  issue h (s.prodInfo h b a []) (fun slot t => s.startProduct t h b a (s.mkProduct h b a false 0 0 0) slot) s

/-! ### MMG.CAND (R89) -/

/-- The candidate entries of a list: tile-row, tile-column, block. -/
def candList (m : Cells) (a n : Nat) : List (Nat × Nat × Nat) :=
  (List.range n).map (fun i => let w := memNat m (a + 8 * i) 8; (bits w 63 48, bits w 47 32, bits w 31 26))

/-- Tile-rows and tile-columns of the weight a MMG.CAND names; with no weight named, the ranges of its operands bound nothing (log 21). -/
def State.candExtent (s : State) (wt : BitVec 16) : Option (Nat × Nat) :=
  (s.weight? wt.toNat).map (fun w => ((w.dir s.mem).rows, (w.dir s.mem).cols))

/-- Operand ranges of a MMG.CAND. -/
def State.candRanges (s : State) (h : Head) (r : CandRec) (cs : List (Nat × Nat × Nat)) : List (Access × Nat × Nat) :=
  let c := s.ctx h.arr h.stream
  let rows := (cs.map (·.1)).foldl max 0
  let cols := (cs.map (·.2.1)).foldl max 0
  [(.read, c.oref r.x, operandSpan (fmtOf r.x.format.toNat) r.xStride.toNat r.m.toNat (128 * (rows + 1))),
   (.read, c.oref r.dy, operandSpan (fmtOf r.dy.format.toNat) r.dyStride.toNat r.m.toNat (128 * (cols + 1))),
   (.read, c.aref r.list, 8 * r.count.toNat), (.write, c.aref r.outBase, 1024 * r.count.toNat)]

/-- Issue checks of MMG.CAND: those of R74 that apply, with R89's own. -/
def State.candCheck (s : State) (h : Head) (b : BodyP) (r : CandRec) (cs : List (Nat × Nat × Nat)) : Option CheckFail :=
  let rate := match Fmt.ofCode r.x.format.toNat, Fmt.ofCode r.dy.format.toNat with
    | some f, some g => rateOf f g 0
    | _, _ => none
  firstFail [
    failIf (r.m.toNat == 0 || r.m.toNat % 128 != 0) 0x23 1,
    failIf (rate.isNone || runCode h != 0 || b.dw32 || b.accInit || r.x.kind != 0#2 || r.dy.kind != 0#2) 0x24 2,
    failIf (r.count.toNat < 1 || 64 < r.count.toNat) 0x23 0,
    failIf (match s.candExtent b.wt with
      | some (rr, cc) => cs.any (fun c => rr ≤ c.1 || cc ≤ c.2.1)
      | none => false) 0x21 0,
    ((s.arr h.arr).accCheck h.stream b.accBase.toNat 1 false false 0 0).map (fun c => ⟨c, 9, 0⟩),
    (s.badOperand h (s.candRanges h r cs)).map (fun x => ⟨0x10, 10, x⟩)]

/-- The operation density of a MMG.CAND, one term a cycle where its formats have no rate. -/
def candRate (r : CandRec) : Rate :=
  ((match Fmt.ofCode r.x.format.toNat, Fmt.ofCode r.dy.format.toNat with
    | some f, some g => rateOf f g 0
    | _, _ => none).getD ⟨1, 1, 1⟩)

/-- The candidates a MMG.CAND names, read at issue. -/
def State.candsOf (s : State) (h : Head) (r : CandRec) : List (Nat × Nat × Nat) :=
  candList s.mem ((s.ctx h.arr h.stream).aref r.list) r.count.toNat

/-- What issue needs to know of a MMG.CAND. -/
def State.candInfo (s : State) (h : Head) (b : BodyP) (r : CandRec) : IssueInfo :=
  let cs := s.candsOf h r
  let us := [b.accBase.toNat]
  let wants := s.unstaged h.arr (s.operandObjs ((s.candRanges h r cs).map Prod.snd))
  { IssueInfo.simple 0x23 [] with
    streams := [.b]
    modOk := runCode h != 3 && h.mod.toNat % 4 != 3
    formatRows := [2]
    needSlot := true
    record := some (b.recRef, 128)
    hold :=
      if (s.arr h.arr).unitsHeld s.cycle us then some .acc
      else if s.versionHeld h b.wt then some .version
      else if !wants.isEmpty && (s.window h.arr).isSome then some .staging
      else none
    units := us
    check := (firstFail [s.candCheck h b r cs, s.versionCheck h b false, s.windowCheck h.arr wants 10]).map (s.checkFault h 0x23 b.wt.toNat)
    object := b.wt.toNat
    wants := wants }

/-- The product an issued MMG.CAND starts. -/
def State.mkCand (s : State) (h : Head) (b : BodyP) (r : CandRec) : Product :=
  let c := s.ctx h.arr h.stream
  { kind := .cand, nSets := 1, nCols := 1, rho := (candRate r).cand, run := 0, runLen := runLen (h.mod.toNat % 4), cap := 1, q := 1,
    xAddr := c.oref r.x, xStride := r.xStride.toNat, xFmt := r.x.format.toNat, xAxis := r.x.mxAxis,
    yAddr := c.oref r.dy, yStride := r.dyStride.toNat, yFmt := r.dy.format.toNat, yAxis := r.dy.mxAxis,
    dir := 0, pay := 0, wFmt := 0, r0 := 0, j0 := 0, j1 := 0, m := r.m.toNat, accBase := b.accBase.toNat,
    dw32 := false, accInit := false, fused := false, first := false, grad := c.aref r.outBase, frz := none,
    out := 0, outFmt := 0, outStride := 0, outAxis := false, sr := false, idxBase := 0, idxPitch := 0, seed := 0,
    cands := s.candsOf h r, plan := candSegs (s.candsOf h r) (r.m.toNat / 128), cells := [], held := [], pos := [], runs := [RunCol.fresh], setNo := 0, finals := [],
    tilesOut := 0, addLeft := [], preAt := 0, segAt := s.cycle, waited := [] }

/-- MMG.CAND: dense gradients over a list of candidate blocks (R89, R298). -/
def execMmgCand (h : Head) (b : BodyP) (r : CandRec) (s : State) : Host.Outcome State Fault Refusal :=
  let us := [b.accBase.toNat]
  let objs := s.operandObjs ((s.candRanges h r (s.candsOf h r)).map Prod.snd)
  issue h (s.candInfo h b r)
    (fun slot t =>
      let t := t.modArr h.arr (fun x => (x.own us false 0 0 slot h.stream false).setUnit b.accBase.toNat [])
      let t := t.recordUses h.arr objs
      t.addOp h.arr { s.newOp h 0x23 slot b.wt.toNat (s.cycle + 1) (.prod (s.mkCand h b r)) with units := us, objs := objs.map (·.obj) }) s

/-! ### Faults after issue (R75) -/

/-- A product faults: tiles in the queue and the one on the transfer path stay, its units are undefined and released. -/
def State.productFault (s : State) (n : Nat) (o : Op) (r : FaultRec) : State :=
  let a := s.arr n
  let keep := a.queue.length < 8
  let w := a.waiting.zipIdx.filterMap (fun (q, i) => if q.op == o.seq && !(keep && i == 0) then none else some q)
  let s := s.modArr n (fun a => { a with waiting := w, gbWaiting := a.gbWaiting.filter (fun g => g.slot != o.slot) })
  ((s.dropOp n o.slot).spoilUnits n o.units).raise r

/-- The tile that a codec lane is at, unless it waits (R65). -/
def Lane.at_ (l : Lane) : Option LaneTile := if l.fetched && !l.waiting then l.tiles.head? else none

/-- Whether a codec lane or the mask engine is writing a tile that meets a range (R65, R79, R131). -/
def State.tileWritten (s : State) (r : Nat × Nat) : Bool :=
  s.arrays.any (fun a => a.lane.any (fun l => l.at_.any (fun x => r.1 ≤ x.dst && x.dst < r.1 + r.2))) || s.maskWrites.any (meets r)

/-! ### PRELOAD_END (R73, R75, R79, R151) -/

/-- The check of one preloaded tile: rows of R62 and the version tag. -/
def Product.tileFault (p : Product) (m : Cells) (o : Op) (t : TileRef) : Option TileFault :=
  let d := dirAt m p.dir
  let isG := p.kind == .mmg
  match tileCheck m (p.pay + t.ofs) d.format d.maskDir d.capK d.capN p.cap p.cap isG with
  | some e => some e
  | none =>
    if o.wt != 0xFFFF && !d.maskDir && (tileHdr m (p.pay + t.ofs)).tag != o.ver.toNat then some ⟨0x30, 0, 0⟩ else none

/-- Scale bytes of a stationary tile as the product takes them: a transposed destination keeps its source's plane (R50, R81). -/
def stationaryScale (kind : ProdKind) (sc : List Nat) (line i : Nat) : Nat :=
  if kind == .mmt then sc.getD (i * 4 + line / 32) 0 else sc.getD (line * 4 + i / 32) 0

/-- Whether a product names a stationary tile whose values no rule gives: for an MX format, an MMT one that no transposed load has written, another product one that a transposed load has (R81); a mask tile, which no check of R74 refuses where w_fmt is the mask directory's format code, and which has no values (DESIGN CHOICE, log 101). -/
def State.wrongKind (s : State) (kind : ProdKind) (a : Nat) : Bool :=
  (tileHdr s.mem a).form == 2 || ((fmtOf (tileHdr s.mem a).format).mx && (kind == .mmt) != s.tiers.transposed.contains a)

/-- A stationary tile in the cells: terms of each line in slot order, at their places (R91). `wrong`: the free words its values are where no rule gives them; a mask tile occupies the positions of its bitmap (DESIGN CHOICE, log 101). -/
def loadCell (m : Cells) (kind : ProdKind) (a cap col : Nat) (wrong : Option Nat) : CellTile :=
  let f := fmtOf (tileHdr m a).format
  let sc := tileScales m a
  let slots := if (tileHdr m a).form == 2 then (tilePositions m a true 0).map (fun os => os.map (fun o => (o, 0))) else tileSlots m a
  let lines := (chunks 128 8 slots).zipIdx.map (fun (gs, l) =>
    gs.zipIdx.flatMap (fun (ss, g) => ss.zipIdx.map (fun ((o, v), i) =>
      (16 * g + o, match wrong with
        | some c => val32 (Config.freeWord (c + 128 * l + 16 * g + o))
        | none => operandValue f v (stationaryScale kind sc l (16 * g + o)), g * cap + i))))
  ⟨col, lines, 8 * cap⟩

/-- The stationary tiles of a segment in the cells; each one of the wrong kind takes 16,384 free words. -/
def State.loadCells (s : State) (p : Product) : List TileRef → List CellTile × State
  | [] => ([], s)
  | t :: r =>
    let a := p.pay + t.ofs
    let w := s.wrongKind p.kind a
    let c := loadCell s.mem p.kind a p.cap t.col (if w then some s.freeCtr else none)
    let x := (if w then s.used 16384 else s).loadCells p r
    (c :: x.1, x.2)

/-- The positions of an MMG tile: per line, (position, +0, slot index) (R84, R86). `k` is the directory's cap, which sets the offset plane and the slot numbers, for a tile whose own header gives a lower cap too (DESIGN CHOICE, log 102). -/
def loadPositions (m : Cells) (a : Nat) (mask : Bool) (k : Nat) : CellTile :=
  let lines := (chunks 128 8 (tilePositions m a mask k)).zipIdx.map (fun (gs, l) =>
    gs.zipIdx.flatMap (fun (os, g) => os.zipIdx.map (fun (o, i) => (16 * g + o, FVal.zero, (l * 8 + g) * k + i))))
  ⟨0, lines, 0⟩

/-- The tile references that a preload reads from the directory's payload. -/
def Product.preTiles (p : Product) (m : Cells) (g : Seg) : List TileRef :=
  match p.kind with
  | .mmf | .mmt => p.segTiles m g
  | _ => if g.first then ((dirAt m p.dir).row m g.r).filter (fun t => t.e == g.set) else []

/-- Byte ranges of the tiles that a preload brings into the cells: the stationary tiles or position data of its segment, and for an MMG the X tile (R84, R85). Of a value tile that gives positions the whole is read, since row 6 of R62 tests its values (DESIGN CHOICE, log 102). -/
def Product.preRanges (p : Product) (m : Cells) (g : Seg) : List (Nat × Nat) :=
  (p.preTiles m g).map (fun t => (p.pay + t.ofs, (dirAt m p.dir).tileBytes)) ++
    (if p.kind == .mmg then tileRanges p.xAddr p.xStride (fmtOf p.xFmt) g.m (g.r - p.r0) else [])

/-- The cells after a preload: the segment's stationary tiles, or its X tile and positions (R84, R85). -/
def State.preload (s : State) (p : Product) (g : Seg) : Product × State :=
  let d := dirAt s.mem p.dir
  let ts := p.preTiles s.mem g
  let seg := if p.cells.isEmpty then max p.segAt s.cycle else p.segAt
  if p.kind == .mmg then
    ({ p with cells := p.cells ++ [ts.map (fun t => loadPositions s.mem (p.pay + t.ofs) d.maskDir d.capK)]
              held := p.held ++ [valueTile s.mem p.xAddr p.xStride (fmtOf p.xFmt) p.xAxis g.m (g.r - p.r0)], waited := [], segAt := seg }, s)
  else
    let x := s.loadCells p ts
    ({ p with cells := p.cells ++ [x.1], waited := [], segAt := seg }, x.2)

/-- The tiles of a preload with their bytes as R73 and R85 count them. -/
def Product.preSizes (p : Product) (m : Cells) (g : Seg) : List (Nat × Nat) :=
  let d := dirAt m p.dir
  (p.preTiles m g).map (fun t => (p.pay + t.ofs, match p.kind with
    | .mmf | .mmt => (tileHdr m (p.pay + t.ofs)).bytes
    | _ => if d.maskDir then maskTileSize else 512 + 512 * d.capK))

/-- The tiles that a preload has reached in cycle `now`: after the fixed latency its bytes pass at 1,024 a cycle, the X tile of an MMG first. A tile that has been reached is being read until the preload ends (DESIGN CHOICE, log 79). -/
def Product.reached (p : Product) (m : Cells) (g : Seg) (now : Nat) : List (Nat × Nat) :=
  let ts := p.preSizes m g
  let before := if p.kind == .mmg then streamedBytes (fmtOf p.xFmt) else 0
  let passed := 1024 * (p.preTime m g + 1 - (p.preAt - now))
  (ts.zipIdx.filter (fun (_, i) => before + ((ts.take i).map Prod.snd).sum < passed)).map Prod.fst

/-- The tile that is being written among those a preload has reached, if any (R79, R131). -/
def State.preloadWait (s : State) (p : Product) (g : Seg) : Option Nat :=
  ((p.reached s.mem g s.cycle).find? (fun r => s.tileWritten r)).map Prod.fst

/-- Whether a preload has reached a tile that meets a range and does not wait for it (R65, R79). -/
def State.preloadReads (s : State) (r : Nat × Nat) : Bool :=
  s.arrays.any (fun a => a.ops.any (fun o => match o.body with
    | .prod p => p.kind != .cand && p.nextPre.any (fun g => (p.reached s.mem g s.cycle).any (fun t => meets r t && !p.waited.contains t.1))
    | _ => false))

/-- PRELOAD_END: a stationary preload ends and its tiles are checked before any segment reads them. It waits for a tile that is being written, and counts the wait once a tile (R79, log 79). A preload of several tiles ends for all of them at once, and a fault of any is raised then (DESIGN CHOICE, log 79). -/
def execPreloadEnd (arr slot : Nat) (s : State) : Host.Outcome State Fault Refusal :=
  match s.op? arr slot with
  | some o =>
    match o.body with
    | .prod p =>
      match p.nextPre with
      | none => .next s
      | some g =>
        if s.cycle < p.preAt || p.kind == .cand then .next s
        else match s.preloadWait p g with
          | some t =>
            if p.waited.contains t then .next s
            else .next ((s.bump Reg.DMA_CODEC_WAIT 1).setOp arr { o with body := .prod { p with waited := p.waited ++ [t] } })
          | none =>
            match (p.preTiles s.mem g).findSome? (fun t => (p.tileFault s.mem o t).map (fun e => (t, e))) with
            | some (t, e) =>
              .next (s.productFault arr o { s.opFault o arr e.code e.row 0 with tileRow := t.r, tileCol := t.col })
            | none =>
              let c := s.corrected (p.preRanges s.mem g) arr
              match s.eccRanges (p.preRanges s.mem g) arr with
              | some (code, bad) => .next (c.productFault arr o (c.opFault o arr code 0 bad))
              | none =>
                let x := c.preload p g
                let p2 := match x.1.nextPre with
                  | some g' => { x.1 with preAt := s.cycle + x.1.preTime s.mem g' }
                  | none => x.1
                .next (x.2.setOp arr { o with body := .prod p2 })
    | _ => .next s
  | none => .next s

/-! ### SEGMENT_END (R71, R85, R89 to R97) -/

/-- One segment of an MMF or MMT on one tile-column: the elements after their terms of this tile. -/
def mmColumn (p : Product) (x : List (List FVal)) (ct : CellTile) (base : Nat) (es : List Elem) : List Elem :=
  es.zipIdx.map (fun (e, idx) =>
    let row := x.getD (idx / 128) []
    let ts := (ct.terms.getD (idx % 128) []).map (fun (i, w, pl) => (base + pl, (row.getD i .zero).mul w))
    e.terms p.run p.runLen p.dw32 ts)

/-- The totals of a segment of an MMF or MMT. -/
def Product.mmSegment (p : Product) (m : Cells) (a : ArrayState) (g : Seg) (cell : List CellTile) : Product × ArrayState :=
  let a := if g.first then p.startSet a p.setNo g.set else a
  let p := if g.first then { p with runs := List.replicate p.q RunCol.fresh } else p
  let x := valueTile m p.xAddr p.xStride (fmtOf p.xFmt) p.xAxis g.m (g.r - p.r0)
  cell.foldl (fun (acc : Product × ArrayState) ct =>
    let t := (ct.col - p.j0) % p.q
    let u := p.unitOf p.setNo t
    let rc := acc.1.runs.getD t RunCol.fresh
    let es := mmColumn p x ct rc.places (tileElems acc.2 u p.dw32 rc.runs)
    ({ acc.1 with runs := acc.1.runs.set t ⟨rc.places + ct.places, es.map (·.run)⟩ }, acc.2.putElems u p.dw32 es)) (p, a)

/-- Promotes the last runs of the tiles of a set (R96). -/
def Product.closeSet (p : Product) (a : ArrayState) (tiles : Nat) : ArrayState :=
  (List.range tiles).foldl (fun (a : ArrayState) t =>
    let u := p.unitOf p.setNo t
    let es := (tileElems a u p.dw32 ((p.runs.getD t RunCol.fresh).runs)).map (fun e => e.promote p.dw32)
    a.putElems u p.dw32 es) a

/-- Terms of the slots of an MMG tile for one block of rows: slot index and its 128 terms, one a row; a frozen slot has its terms too, and only its total is discarded (R84, R87, R91). -/
def mmgTerms (base : Nat) (x y : List (List FVal)) (pos : List CellTile) : List (Nat × List (Nat × FVal)) :=
  let xr := transposeRows FVal.zero 128 x
  let yr := transposeRows FVal.zero 128 y
  pos.flatMap (fun ct => ct.terms.zipIdx.flatMap (fun (ts, n) => ts.map (fun (i, _, j) =>
    (j, ((xr.getD i []).zip (yr.getD n [])).zipIdx.map (fun ((a, b), m) => (base + m, a.mul b))))))

/-- Applies terms to the elements they belong to. -/
def applyTerms (p : Product) (ts : List (Nat × List (Nat × FVal))) (es : List Elem) : List Elem :=
  ts.foldl (fun es (j, t) => es.modify j (fun e => e.terms p.run p.runLen p.dw32 t)) es

/-- The totals of a segment of an MMG: the X tile that the cells hold against the streamed lines of dY (R84). -/
def Product.mmgSegment (p : Product) (m : Cells) (a : ArrayState) (g : Seg) (cell : List CellTile) : Product × ArrayState :=
  let u := p.accBase + p.setNo % 2
  let a := if g.first then a.setUnit u [] else a
  let p := if g.first then { p with runs := [RunCol.fresh], pos := cell } else p
  let x := p.held.headD []
  let y := valueTile m p.yAddr p.yStride (fmtOf p.yFmt) p.yAxis g.m (g.col - p.j0)
  let es := applyTerms p (mmgTerms (128 * g.m) x y p.pos) (tileElems a u false ((p.runs.headD RunCol.fresh).runs))
  ({ p with runs := [⟨128 * (g.m + 1), es.map (·.run)⟩] }, a.putElems u false es)

/-- The totals of one candidate for one block of rows. -/
def Product.candSegment (p : Product) (m : Cells) (a : ArrayState) (g : Seg) : Product × ArrayState :=
  let c := p.cands.getD g.set (0, 0, 0)
  let u := c.2.2 / 8
  let gr := c.2.2 % 8
  let xr := transposeRows FVal.zero 128 (valueTile m p.xAddr p.xStride (fmtOf p.xFmt) p.xAxis g.m g.r)
  let yr := transposeRows FVal.zero 128 (valueTile m p.yAddr p.yStride (fmtOf p.yFmt) p.yAxis g.m g.col)
  let ts := (List.range 256).map (fun v =>
    (256 * g.set + v, ((xr.getD (16 * gr + v % 16) []).zip (yr.getD (16 * u + v / 16) [])).zipIdx.map (fun ((a, b), i) => (128 * g.m + i, a.mul b))))
  let es := applyTerms p ts (tileElems a p.accBase false ((p.runs.headD RunCol.fresh).runs))
  ({ p with runs := [⟨128 * (g.m + 1), es.map (·.run)⟩] }, a.putElems p.accBase false es)

/-- Slot values of an MMG tile when its total is final, `none` where frozen (R86, R87). -/
def Product.slotValues (p : Product) (m : Cells) (a : ArrayState) (g : Seg) : List (Option W32) :=
  let (rm, bm) := freezeMaps m p g.set
  let k := (dirAt m p.dir).capK
  let w := a.unit (p.accBase + p.setNo % 2)
  let frozen := p.pos.flatMap (fun ct => ct.terms.zipIdx.flatMap (fun (ts, n) => ts.filterMap (fun (i, _, j) =>
    if posFrozen rm bm n i then some j else none)))
  (List.range (1024 * k)).map (fun j => if frozen.contains j then none else some (w.getD j 0))

/-- Byte ranges of the 128 × 16 slice g of one tile of a dense operand, with the scale bytes it touches (R89). -/
def sliceRanges (addr stride : Nat) (f : Fmt) (axis : Bool) (ti tj g : Nat) : List (Nat × Nat) :=
  if f.mx then
    let base := addr + 128 * ti * stride + tj * headerlessSize f
    let sc := base + valueBytes f 16384
    if axis then [(base + 16 * g * valueBytes f 128, 16 * valueBytes f 128), (sc + 64 * g, 64)]
    else (List.range 128).flatMap (fun l => [(base + l * valueBytes f 128 + valueBytes f (16 * g), valueBytes f 16), (sc + 4 * l + g / 2, 1)])
  else (List.range 128).map (fun i => (addr + (128 * ti + i) * stride + valueBytes f (128 * tj + 16 * g), valueBytes f 16))

/-- Byte ranges that a segment reads while it streams. -/
def Product.segRanges (p : Product) (g : Seg) : List (Nat × Nat) :=
  match p.kind with
  | .mmf | .mmt => tileRanges p.xAddr p.xStride (fmtOf p.xFmt) g.m (g.r - p.r0)
  | .mmg => tileRanges p.yAddr p.yStride (fmtOf p.yFmt) g.m (g.col - p.j0)
  | .cand =>
    let b := (p.cands.getD g.set (0, 0, 0)).2.2
    sliceRanges p.xAddr p.xStride (fmtOf p.xFmt) p.xAxis g.m g.r (b % 8) ++ sliceRanges p.yAddr p.yStride (fmtOf p.yFmt) p.yAxis g.m g.col (b / 8)

/-- Accumulator units that a segment reads: totals that earlier segments or an earlier owner have left (R97, R209). -/
def Product.accReads (p : Product) (g : Seg) : List Nat :=
  if g.first && !p.accInit then []
  else match p.kind with
    | .mmf | .mmt => (List.range (p.setCols g.set * p.uw)).map (· + p.unitOf p.setNo 0)
    | .mmg => [p.accBase + p.setNo % 2]
    | .cand => [p.accBase]

/-- Everything a segment reads. -/
def Product.segReads (p : Product) (arr : Nat) (g : Seg) : List (Nat × Nat) := p.segRanges g ++ accRanges arr (p.accReads g)

/-- Whether the segment at the front of the plan can end in this cycle. -/
def Product.segReady (p : Product) (m : Cells) (now : Nat) (g : Seg) : Bool :=
  !g.empty && (p.kind == .cand || !p.cells.isEmpty) && p.halfFree p.setNo && p.segAt + p.segTime m g ≤ now

/-- Accumulator units that a segment writes without reading them first. -/
def Product.accWrites (p : Product) (g : Seg) : List Nat :=
  if !g.first || p.accInit then []
  else match p.kind with
    | .mmf | .mmt => (List.range (p.setCols g.set * p.uw)).map (· + p.unitOf p.setNo 0)
    | .mmg => [p.accBase + p.setNo % 2]
    | .cand => [p.accBase]

/-- The end of a segment: its terms enter their runs; the last of a set puts the totals on the pipeline. -/
def State.endSegment (s : State) (arr : Nat) (o : Op) (p : Product) (g : Seg) (rest : List Seg) : State :=
  let cell := p.cells.headD []
  let s := (p.accWrites g).foldl (fun (s : State) u => s.healed (accAddr arr u 0) 65536) s
  let a := s.arr arr
  let (p, a) := match p.kind with
    | .mmf | .mmt => p.mmSegment s.mem a g cell
    | .mmg => p.mmgSegment s.mem a g cell
    | .cand => p.candSegment s.mem a g
  let p := { p with plan := rest, cells := p.cells.drop 1, held := p.held.drop 1, segAt := s.cycle }
  let pipeAt := s.cycle + s.lat 0x02
  if !g.last then (s.modArr arr (fun _ => a)).setOp arr { o with body := .prod p }
  else
    let tiles := match p.kind with
      | .mmf | .mmt => p.setCols g.set
      | _ => 1
    let a := match p.kind with
      | .mmg => p.closeSet a 1
      | _ => p.closeSet a tiles
    let vals := if p.kind == .mmg then p.slotValues s.mem a g else []
    let s := (s.modArr arr (fun _ => a)).undefUnits arr (p.missingUnits p.setNo g.set)
    let (p, s) := s.skipSets arr { p with setNo := p.setNo + 1, finals := p.finals ++ [⟨pipeAt, p.setNo, g.set, vals⟩] } pipeAt
    s.setOp arr { o with body := .prod p }

/-- SEGMENT_END: a product segment ends and the next segment of the column set may begin. -/
def execSegmentEnd (arr slot : Nat) (s : State) : Host.Outcome State Fault Refusal :=
  match s.op? arr slot with
  | some o =>
    match o.body with
    | .prod p =>
      match p.plan with
      | [] => .next s
      | g :: rest =>
        if !p.segReady s.mem s.cycle g then .next s
        else
          let c := s.corrected (p.segReads arr g) arr
          match s.eccRanges (p.segReads arr g) arr with
          | some (code, bad) => .next (c.productFault arr o (c.opFault o arr code 0 bad))
          | none => .next (c.endSegment arr o p g rest)
    | _ => .next s
  | none => .next s

/-! ### TOTALS_FINAL (R71, R86, R89, R100, R104, R177) -/

/-- Puts final tiles among those that wait: by the cycle in which they became final, then F, B, U (R177). -/
def insertWaiting (w : List QEntry) (qs : List QEntry) : List QEntry :=
  qs.foldl (fun w q =>
    let before := w.takeWhile (fun x => x.readyAt < q.readyAt || (x.readyAt == q.readyAt && x.stream.idx ≤ q.stream.idx))
    before ++ [q] ++ w.drop before.length) w

/-- A tile that waits for a free entry is counted once (R178). -/
def State.countStall (s : State) (n : Nat) : State :=
  let a := s.arr n
  match a.waiting with
  | q :: r =>
    if a.queue.length == 8 && !q.stalled then
      (s.modArr n (fun a => { a with waiting := { q with stalled := true } :: r })).bumpArr n Reg.ARR_FTQ_STALL 1
    else s
  | [] => s

/-- Final tiles join the waiting list; an idle transfer path starts at once (R173, R177). -/
def State.enqueueFinal (s : State) (n : Nat) (qs : List QEntry) : State :=
  let idle := (s.arr n).waiting.isEmpty
  let s := s.modArr n (fun a => { a with waiting := insertWaiting a.waiting qs, xferAt := if idle then s.cycle + s.lat 0x03 else a.xferAt })
  s.countStall n

/-- The queue entries of the final totals of a set of an MMF or MMT (R100, R173, R176). -/
def Product.entries (p : Product) (o : Op) (a : ArrayState) (now : Nat) (f : FinalTotals) : List QEntry :=
  let m := f.setNo / p.nSets
  let set := f.setNo % p.nSets
  let f' := fmtOf p.outFmt
  (List.range (p.setCols set)).map (fun t =>
    let c := p.q * set + t
    let u := p.unitOf f.setNo t
    { stream := o.stream, slot := o.slot, op := o.seq, fused := p.fused, index := false, tile := a.unit u, tsw := a.tswAt u,
      addr := p.out + (if f'.mx then 128 * m * p.outStride + c * headerlessSize f' else 128 * m * p.outStride + valueBytes f' (128 * c)),
      fmt := p.outFmt, stride := p.outStride, axis := p.outAxis, sr := p.sr,
      idx := p.idxBase + 128 * m * p.idxPitch + 128 * c, idxPitch := p.idxPitch, seed := p.seed, due := o.due, step := o.step,
      last := p.tilesThrough f.setNo == p.m / 128 * p.nCols && t + 1 == p.setCols set, stalled := false, seqNo := 0, readyAt := now })

/-- The results of a MMG.CAND: candidate c as 256 FP32 values at out_base + 1,024c (R89). -/
def Product.candWrites (p : Product) (a : ArrayState) : List (Nat × List Byte) :=
  let w := a.unit p.accBase
  (List.range p.cands.length).map (fun c => (p.grad + 1024 * c, (List.range 256).flatMap (fun v => leBytes 4 (w.getD (256 * c + v) 0).toNat)))

/-- Accumulator words that leaving totals are read from (R209). -/
def Product.totalReads (p : Product) (arr : Nat) (f : FinalTotals) : List (Nat × Nat) :=
  accRanges arr (match p.kind with
    | .mmf | .mmt => (List.range (p.setCols (f.setNo % p.nSets) * p.uw)).map (· + p.unitOf f.setNo 0)
    | .mmg => [p.accBase + f.setNo % 2]
    | .cand => [p.accBase])

/-- TOTALS_FINAL: a column set's totals become final after the pipeline latency and wait for the queue, for the adder, or are written out. -/
def execTotalsFinal (arr slot : Nat) (s : State) : Host.Outcome State Fault Refusal :=
  match s.op? arr slot with
  | some o =>
    match o.body with
    | .prod p =>
      match p.finals with
      | [] => .next s
      | f :: rest =>
        if s.cycle < f.at_ then .next s
        else
          let o' := { o with body := .prod { p with finals := rest } }
          let s' := s.corrected (p.totalReads arr f) arr
          match s.eccRanges (p.totalReads arr f) arr with
          | some (code, bad) => .next (s'.productFault arr o (s'.opFault o arr code 0 bad))
          | none =>
          let s := s'
          match p.kind with
          | .mmf | .mmt =>
            let tiles := (List.range (p.setCols (f.setNo % p.nSets))).map (p.unitOf f.setNo)
            let s := tiles.foldl (fun (s : State) u => s.countFinal arr u) (s.setOp arr o')
            .next (s.enqueueFinal arr (p.entries o (s.arr arr) s.cycle f))
          | .mmg =>
            let s := (s.setOp arr o').countFinal arr (p.accBase + f.setNo % 2)
            .next (s.modArr arr (fun a => { a with gbWaiting := a.gbWaiting ++ [⟨o.slot, f.entry, f.values, s.cycle⟩] }))
          | .cand =>
            let ws := p.candWrites (s.arr arr)
            .next (s.journaled o.step (spans ws) (fun s => ((s.countFinal arr p.accBase).putAll ws).retireOp arr o))
    | _ => .next s
  | none => .next s

/-! ### FTQ_ENTRY (R77, R173, R177, R178) -/

/-- After a tile has entered, the half it leaves may let the next set begin. -/
def State.tileEntered (s : State) (n : Nat) (q : QEntry) : State :=
  match (s.op? n q.slot).filter (fun o => o.seq == q.op) with
  | some o =>
    match o.body with
    | .prod p =>
      if q.last then s.retireOp n o
      else
        let blocked := !p.halfFree p.setNo
        let p := { p with tilesOut := p.tilesOut + 1 }
        let freed := blocked && p.halfFree p.setNo
        let p := if freed then { p with segAt := max p.segAt s.cycle } else p
        let (p, s) := if freed then s.skipSets n p (s.cycle + s.lat 0x02) else (p, s)
        s.setOp n { o with body := .prod p }
    | .red _ => if q.last then s.retireOp n o else s
    | _ => s
  | none => s

/-- FTQ_ENTRY: a final tile enters a free entry of the finished-tile queue, possibly retiring its product. -/
def execFtqEntry (arr : Nat) (s : State) : Host.Outcome State Fault Refusal :=
  let a := s.arr arr
  match a.waiting with
  | [] => .next s
  | q :: rest =>
    if 8 ≤ a.queue.length || s.cycle < a.xferAt then .next s
    else
      let fusedValue := q.fused && !q.index
      let q' := { q with seqNo := (a.ctx q.stream).fusedEntered, readyAt := s.cycle }
      let s := s.modArr arr (fun a =>
        let a : ArrayState := { a with waiting := rest, queue := a.queue ++ [q'], xferAt := s.cycle + s.lat 0x03, fullCycles := 0 }
        if fusedValue then a.modCtx q.stream (fun c => { c with fusedEntered := c.fusedEntered + 1 }) else a)
      .next ((s.tileEntered arr q).countStall arr)

/-! ### GB_ADDITION (R86, R156 to R159) -/

/-- Adding operations of one array still in flight that were issued before number `seq` and touch [a, a + n): DADD descriptors and adding receives (R159, R323). -/
def State.earlierAdds (s : State) (arr seq a n : Nat) : Bool :=
  let x := s.arr arr
  let ds := x.queueF ++ x.queueB ++ x.queueU ++ x.lane.toList.map (·.desc)
  ds.any (fun d => d.kind == .add && d.seq < seq && d.dst < a + n && a < d.dst + d.len) ||
    s.ring.ctxs.any (fun c => c.2.recvs.any (fun r => r.add && r.arr == arr && r.seq < seq && r.owes a n))

/-- The sum of the adder: new value, saturated, non-finite (R156). -/
def gbAdd (p x : W32) : W32 × Bool × Bool :=
  let (r, sat) := f32add p x
  (r, sat, !(val32 r).isFinite)

/-- Adds words into FP32 elements from an address up, `none` leaving an element alone; `first` starts from +0 (R157). -/
def State.addWords (s : State) (arr a : Nat) (first : Bool) (xs : List (Option W32)) : State :=
  let res := xs.zipIdx.map (fun (x, i) =>
    let old := BitVec.ofNat 32 (s.getN (a + 4 * i) 4)
    match x with
    | some x => gbAdd (if first then 0 else old) x
    | none => (old, false, false))
  let sats := (res.filter (fun r => r.2.1)).length
  let s := s.putMem a (res.flatMap (fun r => leBytes 4 r.1.toNat))
  let s := s.bumpArr arr Reg.ARR_GB_SAT sats
  let s := if sats != 0 then s.setArrBits arr Reg.ARR_STATUS 4 else s
  if res.any (fun r => r.2.2) then s.setArrBits arr Reg.ARR_STATUS 8 else s

/-- The MMG of an array whose addition comes next: the earliest issued that still has entries to add (R159). -/
def ArrayState.addingMmg (a : ArrayState) : Option (Op × Product) :=
  a.ops.findSome? (fun o => match o.body with
    | .prod p => if p.kind == .mmg && !p.addLeft.isEmpty then some (o, p) else none
    | _ => none)

/-- The addition of one MMG tile, and what follows it. -/
def State.applyMmg (s : State) (arr : Nat) (o : Op) (p : Product) (e : Nat) (rest : List Nat) (g : GbAdd) : State :=
  let k := (dirAt s.mem p.dir).capK
  let s := s.addWords arr (p.grad + e * 4096 * k) p.first g.values
  let s := s.modArr arr (fun a => { a with gbWaiting := a.gbWaiting.erase g, gbFree := s.cycle })
  if rest.isEmpty then s.retireOp arr o else s.setOp arr { o with body := .prod { p with addLeft := rest } }

/-- GB_ADDITION: an MMG tile total is added into its gradient-buffer plane; the last addition retires the MMG. The fixed latency counts from the cycle in which the total is final, also where the adder is still busy then, and the addition ends 2k cycles after the adder is free at the earliest (DESIGN CHOICE, log 103). -/
def execGbAddition (arr : Nat) (s : State) : Host.Outcome State Fault Refusal :=
  let a := s.arr arr
  match a.addingMmg with
  | none => .next s
  | some (o, p) =>
    match p.addLeft with
    | [] => .next s
    | e :: rest =>
      match a.gbWaiting.find? (fun g => g.slot == o.slot && g.entry == e) with
      | none => .next s
      | some g =>
        let k := (dirAt s.mem p.dir).capK
        let plane := p.grad + e * 4096 * k
        if s.cycle < max (g.finalAt + s.lat 0x04) a.gbFree + 2 * k || s.earlierAdds arr o.seq plane (4096 * k) then .next s
        else
          let c := s.corrected [(plane, 4096 * k)]
          match s.eccBad plane (4096 * k) with
          | some (code, bad) => .next (c.productFault arr o (c.opFault o arr code 0 bad))
          | none => .next (c.journaled o.step [(plane, 4096 * k)] (fun s => s.applyMmg arr o p e rest g))

end Sys2Proof.Machine
end

