-- ==== Sys2Proof/Machine/Dma.lean ====
section
/-! DEFINITION. DMA descriptors and the codec: queueing, descriptor fetch with its checks, tiles, completion (R58 to R66, R78 to R82, R159, R162, R302, R303). -/

namespace Sys2Proof.Machine

/-! ### Issue (R290, R302) -/

/-- Descriptors that a stream's queue holds (R261). -/
def dmaqDepth : Nat := 64

/-- Whether the operation is a codec path (R61) rather than a plain transfer (R303). -/
def DmaKind.codec : DmaKind → Bool
  | .loadC | .loadD | .loadT | .build _ => true
  | .copy | .add | .fill => false

/-- Whether the operation is a BUILD. -/
def DmaKind.isBuild : DmaKind → Bool
  | .build _ => true
  | _ => false

/-- The ORefs a descriptor of this kind uses (R302). -/
def DmaKind.orefs (k : DmaKind) (r : DmaRec) : List ORef :=
  match k with
  | .fill => [r.dst]
  | _ => [r.src, r.dst]

/-- The AREFs a descriptor of this kind uses (R302). -/
def DmaKind.arefs (k : DmaKind) (r : DmaRec) : List ARef :=
  match k with
  | .loadC | .loadT => [r.srcPay, r.dstPay]
  | .loadD => [r.srcPay]
  | .build _ => [r.dstPay, r.mask]
  | _ => []

/-- The queue entry of a DMA instruction, its references resolved at issue (R288, R302). -/
def State.mkDesc (s : State) (h : Head) (kind : DmaKind) (opcode : Nat) (r : DmaRec) : Desc :=
  let c := s.ctx h.arr h.stream
  let m := s.markOf h
  { kind := kind, arr := h.arr, stream := h.stream, opcode := opcode, pc := c.pc, mark := m, due := m + h.delta.toNat,
    step := c.curStep, late := s.headLate h, seq := (s.arr h.arr).issueSeq,
    misaligned := (kind.orefs r).any (fun o => c.oref o % 32 != 0) || (kind.arefs r).any (fun a => c.aref a % 32 != 0),
    src := c.oref r.src, srcFmt := r.src.format.toNat, srcKind := r.src.kind.toNat, srcAxis := r.src.mxAxis, srcZero := r.src.colZero,
    srcPay := c.aref r.srcPay, dst := c.oref r.dst, dstFmt := r.dst.format.toNat, dstKind := r.dst.kind.toNat, dstAxis := r.dst.mxAxis,
    dstZero := r.dst.colZero, dstPay := c.aref r.dstPay, mask := c.aref r.mask, r0 := r.r0.toNat, r1 := r.r1.toNat, j0 := r.j0.toNat,
    j1 := r.j1.toNat, stride := r.stride.toNat, len := r.len.toNat, positions := r.positions.toNat, vtag := r.vtag.toNat, objs := [] }

/-- Whether an ORef that the operation uses has a kind other than 0 (R285, R302). -/
def Desc.badKind (d : Desc) : Bool := (d.kind != .fill && d.srcKind != 0) || d.dstKind != 0

/-- Entries of a stream's queue in use: a descriptor holds its entry until it retires, on the lane too (R258). -/
def ArrayState.dmaqUsed (a : ArrayState) (st : Stream) : Nat := (a.dmaq st).length + (if a.lane.any (fun l => l.desc.stream == st) then 1 else 0)

/-- What issue needs to know of a DMA instruction: a free entry of the stream's queue (R258, R260). -/
def State.dmaInfo (s : State) (h : Head) (opcode : Nat) (ref : SRef) : IssueInfo :=
  { IssueInfo.simple opcode [] with
    record := some (ref, 64)
    hold := if dmaqDepth ≤ (s.arr h.arr).dmaqUsed h.stream then some .dmaq else none }

/-! ### What a descriptor names -/

/-- The tile format of a descriptor. -/
def Desc.fmt (d : Desc) : Fmt := fmtOf d.srcFmt

/-- The directory that gives a descriptor its structure: the source, or the mask directory of a BUILD (R57, R61). -/
def Desc.srcDir (d : Desc) (m : Cells) : Dir := dirAt m (if d.kind.isBuild then d.mask else d.src)

/-- The destination directory. -/
def Desc.dstDir (d : Desc) (m : Cells) : Dir := dirAt m d.dst

/-- The tile-rows a descriptor covers: a whole BUILD covers all (R58). -/
def Desc.rowRange (d : Desc) (m : Cells) : Nat × Nat :=
  match d.kind with
  | .build true => (0, (d.srcDir m).rows - 1)
  | _ => (d.r0, d.r1)

/-- The present tiles a descriptor covers, in entry order; a BUILD takes every tile-column. -/
def Desc.refs (d : Desc) (m : Cells) : List TileRef :=
  let (r0, r1) := d.rowRange m
  if d.kind.isBuild then (d.srcDir m).tiles m r0 r1 else (d.srcDir m).range m r0 r1 d.j0 d.j1

/-- Payload base of the source tiles: that of the descriptor, or the mask directory's own (R286). -/
def Desc.payload (d : Desc) (m : Cells) : Nat := if d.kind.isBuild then (d.srcDir m).payload else d.srcPay

/-- Size of a destination tile in the directory's terms, and so the distance between packed tiles: a source tile whose own caps lie below the directory's is smaller and leaves a gap (DESIGN CHOICE, log 49). -/
def Desc.dstTile (d : Desc) (m : Cells) : Nat :=
  let sd := d.srcDir m
  match d.kind with
  | .loadC => sd.tileBytes
  | .loadT => if sd.maskDir then maskTileSize else formSize d.fmt sd.capN
  | .build _ => formSize d.fmt sd.capK
  | _ => denseSize d.fmt

/-- Tile positions of the range (R60). -/
def Desc.positionsOf (d : Desc) : Nat := (d.r1 + 1 - d.r0) * (d.j1 + 1 - d.j0)

/-- The tiles the lane writes, in order: entry order; destination entry order for a transposed load; row-major positions for a DENSE load (R57, R60, R80, R302). -/
def Desc.laneTiles (d : Desc) (m : Cells) : List LaneTile :=
  let ts := d.refs m
  let pay := d.payload m
  let w := d.dstTile m
  match d.kind with
  | .loadC => ts.zipIdx.map (fun (t, i) => ⟨t.e, t.r, t.col, true, pay + t.ofs, d.dstPay + i * w⟩)
  | .loadT =>
    ((List.range (d.j1 + 1 - d.j0)).flatMap (fun j => ts.filter (fun t => t.col == d.j0 + j))).zipIdx.map (fun (t, i) =>
      ⟨t.e, t.r, t.col, true, pay + t.ofs, d.dstPay + i * w⟩)
  | .loadD =>
    (List.range (d.r1 + 1 - d.r0)).flatMap (fun i => (List.range (d.j1 + 1 - d.j0)).map (fun j =>
      let at_ := d.dst + (i * (d.j1 + 1 - d.j0) + j) * w
      match ts.find? (fun t => t.r == d.r0 + i && t.col == d.j0 + j) with
      | some t => ⟨t.e, t.r, t.col, true, pay + t.ofs, at_⟩
      | none => ⟨0, d.r0 + i, d.j0 + j, false, 0, at_⟩))
  | .build _ => ts.map (fun t => ⟨t.e, t.r, t.col, true, pay + t.ofs, d.dstPay + t.e * w⟩)
  | _ => []

/-- Bytes of the directory a descriptor writes: header, rowptr array and entries (R57, R60, R80). -/
def Desc.dstDirSize (d : Desc) (m : Cells) : Nat :=
  match d.kind with
  | .loadT => dirSize (d.j1 + 1 - d.j0) (d.refs m).length
  | .build _ => dirSize (d.srcDir m).rows (d.srcDir m).present
  | _ => dirSize (d.r1 + 1 - d.r0) (d.refs m).length

/-- Byte ranges of module memory that a descriptor reads as data: what it copies or adds, the source tiles of a load, the dense source of a BUILD. -/
def Desc.dataRanges (d : Desc) (m : Cells) : List (Nat × Nat) :=
  match d.kind with
  | .copy | .add => [(d.src, d.len)]
  | .fill => []
  | .build _ => [(d.src, operandSpan d.fmt d.stride d.len d.positions)]
  | _ => (d.refs m).map (fun t => (d.payload m + t.ofs, (d.srcDir m).tileBytes))

/-- Byte ranges of module memory that a descriptor writes as data, as far as they are known at issue. -/
def Desc.dataWrites (d : Desc) (m : Cells) : List (Nat × Nat) :=
  match d.kind with
  | .copy | .add | .fill => [(d.dst, d.len)]
  | .loadD => [(d.dst, d.positionsOf * d.dstTile m)]
  | .loadC | .loadT => [(d.dst, d.dstDirSize m), (d.dstPay, (d.refs m).length * d.dstTile m)]
  | .build true => [(d.dst, d.dstDirSize m), (d.dstPay, (d.srcDir m).present * d.dstTile m)]
  | .build false => (d.refs m).map (fun t => (d.dstPay + t.e * d.dstTile m, d.dstTile m))

/-- DMA instructions share issue: the record enters the stream's queue, its use of the managed objects it reads is recorded, and it pins those it reads or writes (R229, R231). -/
def State.issueDma (s : State) (kind : DmaKind) (opcode : Nat) (h : Head) (ref : SRef) (r : DmaRec) : Host.Outcome State Fault Refusal :=
  let d := s.mkDesc h kind opcode r
  let objs := s.readObjs (d.dataRanges s.mem)
  issue h (s.dmaInfo h opcode ref) (fun _ t =>
    (t.recordUses h.arr objs).modArr h.arr (fun a =>
      a.modDmaq h.stream (fun q => q ++ [{ d with objs := (objs ++ s.readObjs (d.dataWrites s.mem)).map (·.obj) }]))) s

/-- DLOAD.C: queues a COMPRESSED load (R60, R302). -/
def execDloadC (h : Head) (ref : SRef) (r : DmaRec) (s : State) : Host.Outcome State Fault Refusal := s.issueDma .loadC 0x40 h ref r

/-- DLOAD.D: queues a DENSE load (R60, R302). -/
def execDloadD (h : Head) (ref : SRef) (r : DmaRec) (s : State) : Host.Outcome State Fault Refusal := s.issueDma .loadD 0x41 h ref r

/-- DLOAD.T: queues a transposed load (R80, R302). -/
def execDloadT (h : Head) (ref : SRef) (r : DmaRec) (s : State) : Host.Outcome State Fault Refusal := s.issueDma .loadT 0x42 h ref r

/-- DBUILD: queues a whole (mod[0] = 1) or range BUILD (R58, R302). -/
def execDbuild (h : Head) (ref : SRef) (r : DmaRec) (s : State) : Host.Outcome State Fault Refusal :=
  s.issueDma (.build (h.mod.getLsbD 0)) 0x43 h ref r

/-- DCOPY: queues a byte copy (R302, R303). -/
def execDcopy (h : Head) (ref : SRef) (r : DmaRec) (s : State) : Host.Outcome State Fault Refusal := s.issueDma .copy 0x44 h ref r

/-- DADD: queues an adding transfer (R159, R302, R303). -/
def execDadd (h : Head) (ref : SRef) (r : DmaRec) (s : State) : Host.Outcome State Fault Refusal := s.issueDma .add 0x45 h ref r

/-- DFILL: queues a zero fill (R302, R303). -/
def execDfill (h : Head) (ref : SRef) (r : DmaRec) (s : State) : Host.Outcome State Fault Refusal := s.issueDma .fill 0x46 h ref r

/-! ### Checks at descriptor fetch (R61, R62, R185, R212, R303) -/

/-- Whether [a, a + n) touches a ready working-copy buffer of an owner binding, read-only to the DMA engine (R185). -/
def State.wcProtected (s : State) (a n : Nat) : Bool :=
  s.mask.weights.any (fun (_, w) => w.owner && [(w.v0, w.wc0), (w.v1, w.wc1)].any (fun (v, b) =>
    v.st == .ready && b < a + n && a < b + dirSpan s.mem b))

/-- Whether a range BUILD's destination is complete with the structure the mask directory requires (R58). -/
def Desc.rangeFits (d : Desc) (m : Cells) : Bool :=
  let sd := d.srcDir m
  let dd := d.dstDir m
  dd.complete && dd.rows == sd.rows && dd.cols == sd.cols && dd.present == sd.present && dd.format == d.srcFmt && !dd.maskDir &&
    dd.capK == sd.capK && dd.capN == sd.capN && dd.gen == sd.gen

/-- Byte ranges a codec descriptor touches, with their accesses, and the tile of those that are one tile's (row 11 of R61, R63). -/
def Desc.claims (d : Desc) (m : Cells) : List ((Access × Nat × Nat) × Option TileRef) :=
  let sd := d.srcDir m
  let ts := d.refs m
  let whole := fun (acc : Access) (a n : Nat) => ((acc, a, n), (none : Option TileRef))
  let src := whole .read sd.base sd.size :: ts.map (fun t => ((Access.read, d.payload m + t.ofs, sd.tileBytes), some t))
  src ++ (match d.kind with
    | .loadC | .loadT => [whole .write d.dst (d.dstDirSize m), whole .write d.dstPay (ts.length * d.dstTile m)]
    | .loadD => [whole .write d.dst (d.positionsOf * d.dstTile m)]
    | .build true =>
      [whole .read d.src (operandSpan d.fmt d.stride d.len d.positions), whole .write d.dst (d.dstDirSize m),
       whole .write d.dstPay (sd.present * d.dstTile m)]
    | .build false =>
      [whole .read d.src (operandSpan d.fmt d.stride d.len d.positions), whole .write d.dst sd.size] ++
      ts.map (fun t => ((Access.write, d.dstPay + t.e * d.dstTile m, d.dstTile m), some t))
    | _ => [])

/-- The ranges alone. -/
def Desc.ranges (d : Desc) (m : Cells) : List (Access × Nat × Nat) := (d.claims m).map Prod.fst

/-- First byte of a range that a descriptor may not access: outside a region that permits it, or in a working copy that is read-only to the DMA engine (R185, R212). -/
def State.claimBad (s : State) (d : Desc) (r : Access × Nat × Nat) : Option Nat :=
  if r.1 != .read && s.wcProtected r.2.1 r.2.2 then some r.2.1
  else if s.allowed r.2.1 r.2.2 d.stream.idx r.1 false then none
  else some (s.firstOutside d.stream.idx r.1 r.2.1)

/-- Region check of a descriptor: alignment, then each range in order (R185, R212, R285). -/
def State.descRegion (s : State) (d : Desc) (rs : List (Access × Nat × Nat)) : Option Nat :=
  if d.misaligned then some d.dst else rs.findSome? (s.claimBad d)

/-- The conditions of R61 in order, with those of R62's closing text after row 6. For what the rows leave open of a BUILD: row 3 tests the mask directory alone; a range BUILD whose destination does not fit (R58) faults with check 0, after row 6 and after the test of the dense source's extent, which bears check 0 too (DESIGN CHOICE, log 105). -/
def State.codecCheck (s : State) (d : Desc) : Option CheckFail :=
  let m := s.mem
  let sd := d.srcDir m
  let b := d.kind.isBuild
  let range := d.kind == .build false
  let (r0, r1) := d.rowRange m
  firstFail [
    failIf (b && (d.len % 128 != 0 || d.positions % 128 != 0)) 0x23 1,
    failIf (11 ≤ d.srcFmt || 11 ≤ d.dstFmt || d.badKind || (b && d.srcFmt != d.dstFmt)) 0x24 2,
    failIf (!sd.row3) 0x24 3,
    failIf (if b then !sd.maskDir || (range && (d.dstDir m).format != d.srcFmt) else sd.format != d.srcFmt) 0x24 4,
    failIf (!sd.complete) 0x23 5,
    failIf (if b then range && (d.r1 < d.r0 || sd.rows ≤ d.r1) else d.r1 < d.r0 || d.j1 < d.j0 || sd.rows ≤ d.r1 || sd.cols ≤ d.j1) 0x21 6,
    failIf (b && (d.len != 128 * sd.cols || d.positions != 128 * sd.rows)) 0x23 0,
    failIf (range && !d.rangeFits m) 0x23 0,
    (sd.rows7to10 m r0 r1).map (fun (row, code) => ⟨code, row, 0⟩),
    (s.descRegion d (d.ranges m)).map (fun a => ⟨0x10, 11, a⟩)]

/-- Whether an address lies in a region of a gradient-buffer slice that permits adding (row 2 of R303). -/
def State.addable (s : State) (d : Desc) : Bool :=
  (gradOf d.dst).isSome && s.tiers.regions.any (fun r => r.permits d.dst 1 d.stream.idx .add false)

/-- The conditions of R303 in order, with the reserved format codes of R20. -/
def State.moveCheck (s : State) (d : Desc) : Option CheckFail :=
  let acc := if d.kind == .add then Access.add else .write
  firstFail [
    failIf (d.len == 0 || d.len % 32 != 0) 0x23 1,
    failIf ((d.kind != .fill && 11 ≤ d.srcFmt) || 11 ≤ d.dstFmt || d.badKind || (d.kind == .add && (d.srcFmt != 0 || !s.addable d))) 0x24 2,
    (s.descRegion d ((if d.kind == .fill then [] else [(Access.read, d.src, d.len)]) ++ [(acc, d.dst, d.len)])).map (fun a => ⟨0x10, 3, a⟩)]

/-- The checks of a descriptor. -/
def State.descCheck (s : State) (d : Desc) : Option CheckFail := if d.kind.codec then s.codecCheck d else s.moveCheck d

/-! ### Faults (R63, R64, R431) -/

/-- The record of a descriptor's fault: block 0x06, the stream that issued it, slot 0. -/
def State.descFault (s : State) (d : Desc) (code check addr : Nat) : FaultRec :=
  { FaultRec.of code 6 with
    arr := d.arr, stream := d.stream.idx, pc := d.pc, check := check, opcode := d.opcode, addr := addr,
    aux := s.faultAux d.arr code addr }

/-- Directory entry e of a range BUILD's destination. -/
def Desc.entryAt (d : Desc) (m : Cells) (e : Nat) : Nat := d.dst + 32 + 8 * cdiv ((d.dstDir m).rows + 1) 2 + 8 * e

/-- The entries and tiles of the tile-rows r0 to r1 of a range BUILD's destination, where it has the structure that R58 asks for. -/
def Desc.rowParts (d : Desc) (m : Cells) : List (Nat × Nat) :=
  if d.rangeFits m && d.r0 ≤ d.r1 && d.r1 < (d.srcDir m).rows then
    (d.refs m).flatMap (fun t => [(d.entryAt m t.e, 8), (d.dstPay + t.e * d.dstTile m, d.dstTile m)])
  else []

/-- Destination bytes that a codec fault leaves undefined: of a range BUILD its tile-rows, wherever they may be written; else all that the descriptor has written, but the 32 bytes of a directory header, which stays the one written with complete = 0 so that a later load fails under condition 5 (R64; log 84). -/
def State.spoilt (s : State) (l : Lane) : List (Nat × Nat) :=
  let d := l.desc
  if !d.kind.codec then []
  else if d.kind == .build false then (d.rowParts s.mem).filter (fun r => !d.misaligned && (s.claimBad d (.write, r.1, r.2)).isNone)
  else l.wrote.map (fun r => if r.1 == d.dst && d.kind != .loadD then (r.1 + 32, r.2 - 32) else r)

/-- The undefined bytes of a faulted descriptor: free values (R64). -/
def State.spoilLane (s : State) (l : Lane) : State :=
  (s.spoilt l).foldl (fun (s : State) r => (s.putMem r.1 (s.freeBytes r.2)).used r.2) s

/-- A descriptor faults: it leaves its lane, its stream does not pass it, and the fault is recorded; descriptors already queued run to their end (R64, R427). -/
def State.stopLane (s : State) (n : Nat) (l : Lane) (r : FaultRec) : State :=
  let s := (s.spoilLane l).modArr n (fun a => { a with lane := none })
  ((s.modCtx n l.desc.stream (fun c => { c with failed := true })).setBits Reg.DMA_STATUS 2).raise r

/-- The byte with the complete bit of a directory header, cleared. -/
def State.incomplete (s : State) (a : Nat) : List (Nat × List Byte) := [(a + 2, [memByte s.mem (a + 2) &&& 0x7F#8])]

/-- What a load or whole BUILD writes that faults before its directory pass: the complete bit of its destination, where its header may be written, is 0 (R64; log 84). -/
def State.closeDst (s : State) (d : Desc) : List (Nat × List Byte) :=
  match d.kind with
  | .loadC | .loadT | .build true => if d.misaligned || (s.claimBad d (.write, d.dst, 32)).isSome then [] else s.incomplete d.dst
  | _ => []

/-! ### DESCRIPTOR_FETCH (R61, R65, R78, R82) -/

/-- Fixed latency of a descriptor's path. -/
def State.descFixed (s : State) : DmaKind → Nat
  | .loadC | .loadD => s.lat 0x05
  | .build _ => s.lat 0x06
  | .loadT => s.lat 0x07
  | _ => s.lat 0x34

/-- Present tiles of the tile-row range as the rowptr entries give them, whatever its tile-columns; 0 when a check fails before those entries are read (R61). -/
def State.descTiles (s : State) (d : Desc) : Nat :=
  let sd := d.srcDir s.mem
  let (r0, r1) := d.rowRange s.mem
  let n := sd.rowptr s.mem (r1 + 1) - sd.rowptr s.mem r0
  match s.codecCheck d with
  | some c => if c.row ≤ 6 then 0 else n
  | none => n

/-- Cycles from the start on the lane to the end of the directory term (R61). An inverted range has R' = 0 here (DESIGN CHOICE, log 105). -/
def State.fetchTime (s : State) (d : Desc) : Nat :=
  let t := s.descTiles d
  s.descFixed d.kind + (match d.kind with
    | .loadC => cdiv t 8 + cdiv (d.r1 + 1 - d.r0 + 1) 16
    | .loadD | .build _ => cdiv t 8
    | .loadT => cdiv t 4 + cdiv (d.j1 + 1 - d.j0 + 1) 8
    | _ => 0)

/-- Whether another lane holds the destination directory that this load names: a whole BUILD from start to end (R65). -/
def State.dirHeld (s : State) (d : Desc) : Bool :=
  !d.kind.isBuild && d.kind.codec && s.arrays.any (fun a => a.lane.any (fun l => l.desc.kind == .build true && l.desc.dst == d.src))

/-- Entry counts per row of the destination directory, as tile-columns. -/
def Desc.dstRows (d : Desc) (m : Cells) : List (List Nat) :=
  let ts := d.refs m
  match d.kind with
  | .loadT => (List.range (d.j1 + 1 - d.j0)).map (fun j => (ts.filter (fun t => t.col == d.j0 + j)).map (fun t => t.r - d.r0))
  | .loadC => (List.range (d.r1 + 1 - d.r0)).map (fun i => (ts.filter (fun t => t.r == d.r0 + i)).map (fun t => t.col - d.j0))
  | _ => (List.range (d.srcDir m).rows).map (fun i => (ts.filter (fun t => t.r == i)).map (·.col))

/-- The destination directory header with complete = 0. -/
def Desc.dstHeader (d : Desc) (m : Cells) : Dir :=
  let sd := d.srcDir m
  match d.kind with
  | .loadT => { sd with base := d.dst, complete := false, capK := sd.capN, capN := sd.capK, rows := d.j1 + 1 - d.j0, cols := d.r1 + 1 - d.r0, present := (d.refs m).length }
  | .loadC => { sd with base := d.dst, complete := false, rows := d.r1 + 1 - d.r0, cols := d.j1 + 1 - d.j0, present := (d.refs m).length }
  | _ => { sd with base := d.dst, complete := false, format := d.srcFmt, maskDir := false }

/-- What the directory pass writes: header, rowptr and entries of a new directory, or the entries a range BUILD rewrites (R57, R58, R60, R80). -/
def Desc.dirWrites (d : Desc) (m : Cells) : List (Nat × List Byte) :=
  match d.kind with
  | .loadC | .loadT | .build true => [(d.dst, (d.dstHeader m).bytes ++ dirArrays (d.dstRows m) (d.dstTile m))]
  | .build false =>
    (d.refs m).map (fun t => (d.entryAt m t.e, leBytes 8 (t.e * d.dstTile m / 32 * 2 ^ 24 + t.col)))
  | _ => []

/-- Cycles of one tile on its path (R78, R82). -/
def Desc.tileTime (d : Desc) (m : Cells) (t : LaneTile) : Nat :=
  match d.kind with
  | .loadC => cdiv (tileHdr m t.src).bytes 1024
  | .loadT => cdiv (formSize d.fmt (tileHdr m t.src).capN) 512
  | .build _ => cdiv (headerlessSize d.fmt) 1024
  | _ => cdiv (denseSize d.fmt) 1024

/-- Whether another is at work on the tile that a lane reaches: a BUILD writing what a load reads, a load reading what a BUILD writes, a preload that has reached what it writes, or the mask engine (R65, R79, R131). -/
def State.tileHeld (s : State) (d : Desc) (t : LaneTile) : Bool :=
  let out := (t.dst, d.dstTile s.mem)
  let inn := (t.src, if t.present then (tileHdr s.mem t.src).bytes else 0)
  s.arrays.any (fun a => a.lane.any (fun l => l.desc.kind.codec && l.desc.kind.isBuild != d.kind.isBuild && l.at_.any (fun x =>
    x.present && t.present && (if d.kind.isBuild then x.src == t.dst else x.dst == t.src)))) ||
  s.preloadReads out || s.maskWrites.any (fun r => meets r out || meets r inn) || s.maskTileReads.any (meets out)

/-- Checks of the tile a lane has reached (R62). Of a range BUILD the mask tile comes first, with all its rows, then the header of the destination tile (DESIGN CHOICE, log 105). -/
def Desc.tileFault (d : Desc) (m : Cells) (t : LaneTile) : Option TileFault :=
  if !t.present then none
  else
    let sd := d.srcDir m
    if d.kind.isBuild then
      match tileCheck m t.src sd.format true sd.capK sd.capN sd.capK sd.capN true with
      | some e => some e
      | none =>
        if d.kind == .build false then headerCheck (tileHdr m t.dst) d.srcFmt false (d.dstDir m).capK (d.dstDir m).capN else none
    else
      let h := tileHdr m t.src
      tileCheck m t.src sd.format sd.maskDir sd.capK sd.capN h.capK h.capN true

/-- The codec is at a tile: the checks of R62 come before any byte of the resulting tile, then the tile takes its time. -/
def State.startTile (s : State) (n : Nat) (l : Lane) (t : LaneTile) : State :=
  match l.desc.tileFault s.mem t with
  | some e => s.stopLane n l { s.descFault l.desc e.code e.row (l.desc.srcDir s.mem).base with tileRow := t.r, tileCol := t.col, word4 := e.word4 }
  | none => s.modArr n (fun a => { a with lane := some { l with waiting := false, readyAt := s.cycle + l.desc.tileTime s.mem t } })

/-- The lane reaches its next tile, or its last write. A wait is counted when it begins. -/
def State.reach (s : State) (n : Nat) (l : Lane) : State :=
  match l.tiles with
  | [] => s.modArr n (fun a => { a with lane := some { l with waiting := false, readyAt := s.cycle } })
  | t :: _ =>
    if s.tileHeld l.desc t then (s.bump Reg.DMA_CODEC_WAIT 1).modArr n (fun a => { a with lane := some { l with waiting := true } })
    else s.startTile n l t

/-- Cycles from the end of the fixed latency to the retirement of a plain transfer (R303). -/
def State.moveTime (s : State) (d : Desc) : Nat := cdiv d.len 1024 + (if d.kind == .add then s.lat 0x04 else 0)

/-- A load waits for the whole BUILD that holds its directory; the wait is counted when it begins (R65). -/
def State.waitDir (s : State) (n : Nat) (l : Lane) : State :=
  (s.bump Reg.DMA_CODEC_WAIT 1).modArr n (fun a => { a with lane := some { l with waiting := true } })

/-- The lane reads the descriptor's directory: its fixed latency and directory term begin (R61). -/
def State.beginFetch (s : State) (n : Nat) (l : Lane) : State :=
  s.modArr n (fun a => { a with lane := some { l with waiting := false, readyAt := s.cycle + s.fetchTime l.desc } })

/-- The entry at which row 9 or 10 of R61 fails. -/
def Dir.badEntry (d : Dir) (m : Cells) (r0 r1 row : Nat) : Option TileRef :=
  (List.range (r1 + 1 - r0)).findSome? (fun i =>
    let ts := d.row m (r0 + i)
    if row == 9 then ((ts.zip (ts.drop 1)).find? (fun (x, y) => y.col ≤ x.col)).map Prod.snd
    else ts.find? (fun t => d.cols ≤ t.col))

/-- The tile at which a check at descriptor fetch fails: rows 9 and 10 at an entry, row 11 at the first range that fails, where that is one tile's (R63). -/
def State.checkTile (s : State) (d : Desc) (row : Nat) : Option TileRef :=
  if !d.kind.codec then none
  else if row == 9 || row == 10 then (d.srcDir s.mem).badEntry s.mem (d.rowRange s.mem).1 (d.rowRange s.mem).2 row
  else if row == 11 && !d.misaligned then ((d.claims s.mem).find? (fun c => (s.claimBad d c.1).isSome)).bind Prod.snd
  else none

/-- The record of a failed check at descriptor fetch (R63). -/
def State.checkRec (s : State) (d : Desc) (c : CheckFail) : FaultRec :=
  let r := s.descFault d c.code c.row (if c.addr == 0 then (d.srcDir s.mem).base else c.addr)
  match s.checkTile d c.row with
  | some t => { r with tileRow := t.r, tileCol := t.col }
  | none => r

/-- The directories a descriptor reads at fetch: its source, and of a range BUILD the header of its destination (R58, R61). -/
def Desc.dirReads (d : Desc) (m : Cells) : List (Nat × Nat) :=
  ((d.srcDir m).base, (d.srcDir m).size) :: (if d.kind == .build false then [(d.dst, 32)] else [])

/-- A descriptor faults at its fetch: its destination is no complete one (R64). -/
def State.failFetch (s : State) (n : Nat) (l : Lane) (r : FaultRec) : State :=
  let ws := s.closeDst l.desc
  s.journaled l.desc.step (spans ws) (fun s => (s.putAll ws).stopLane n l r)

/-- The end of the directory term: checks, and the directory pass. -/
def State.endFetch (s : State) (n : Nat) (l : Lane) : State :=
  let d := l.desc
  match s.descCheck d with
  | some c => s.failFetch n l (s.checkRec d c)
  | none =>
    if !d.kind.codec then s.modArr n (fun a => { a with lane := some { l with fetched := true, readyAt := s.cycle + s.moveTime d } })
    else
      let rs := d.dirReads s.mem
      let c := s.corrected rs
      match s.eccRanges rs with
      | some (code, bad) => c.failFetch n l (c.descFault d code 0 bad)
      | none =>
        let ws := d.dirWrites s.mem
        let l := { l with fetched := true, tiles := d.laneTiles s.mem, wrote := spans ws }
        c.journaled d.step (spans ws) (fun s => (s.putAll ws).reach n l)

/-- Takes the next descriptor of a stream onto the free lane. -/
def State.takeDesc (s : State) (n : Nat) (st : Stream) : State :=
  match (s.arr n).dmaq st with
  | [] => s
  | d :: rest =>
    let l : Lane := ⟨d, false, false, [], 0, []⟩
    let s := s.modArr n (fun a => a.modDmaq st (fun _ => rest))
    if s.dirHeld d then s.waitDir n l else s.beginFetch n l

/-- DESCRIPTOR_FETCH: a free codec lane takes the stream's next descriptor and reads its directory, once no whole BUILD holds it; when the directory term has ended, the structural checks run (R61, R65). -/
def execDescriptorFetch (arr : Nat) (stream : Stream) (s : State) : Host.Outcome State Fault Refusal :=
  match (s.arr arr).lane with
  | none => .next (s.takeDesc arr stream)
  | some l =>
    if l.fetched || l.desc.stream != stream then .next s
    else if l.waiting then .next (if s.dirHeld l.desc then s else s.beginFetch arr l)
    else if s.cycle < l.readyAt then .next s
    else .next (if s.dirHeld l.desc then s.waitDir arr l else s.endFetch arr l)

/-! ### CODEC_TILE (R58 to R66, R80, R81) -/

/-- Byte ranges the codec reads for a tile; a range BUILD reads the header at its destination too (R62). -/
def Desc.tileReads (d : Desc) (m : Cells) (t : LaneTile) : List (Nat × Nat) :=
  if !t.present then []
  else (t.src, (tileHdr m t.src).bytes) :: (if d.kind.isBuild then tileRanges d.src d.stride d.fmt t.col t.r else []) ++
    (if d.kind == .build false then [(t.dst, 32)] else [])

/-- The slots of a tile without the values that a compressed form of a dense source does not keep (R80). -/
def keepNonzero (f : Fmt) (gs : List (List (Nat × Nat))) : List (List (Nat × Nat)) := gs.map (fun g => g.filter (fun s => !zeroEnc f s.2))

/-- The header of a DENSE load's tile (R60). -/
def Desc.denseHdr (d : Desc) (m : Cells) (t : LaneTile) : List Byte :=
  let sd := d.srcDir m
  if t.present then
    let h := tileHdr m t.src
    tileHdrBytes 1 h.format h.capK h.capN (denseSize d.fmt) h.gen h.tag
  else tileHdrBytes 1 sd.format sd.capK sd.capN (denseSize d.fmt) sd.gen 0

/-- The bytes of a DENSE load's tile (R60). -/
def Desc.denseTile (d : Desc) (m : Cells) (t : LaneTile) : List Byte :=
  d.denseHdr m t ++
    (if t.present then densePlanes d.fmt ((tileSlots m t.src).flatMap expandGroup) (tileScales m t.src) else zeros (denseSize d.fmt - 32))

/-- The bytes of a transposed load's tile (R44, R80, R81). -/
def Desc.transposedTile (d : Desc) (m : Cells) (t : LaneTile) : List Byte :=
  let f := d.fmt
  let h := tileHdr m t.src
  let gs := if h.form == 1 && !storedDense f h.capN then keepNonzero f (tileSlots m t.src) else tileSlots m t.src
  buildTile f h.capN h.capK h.gen h.tag (transposeGroups gs) (tileScales m t.src)

/-- The bytes of a BUILD's tile and the values dropped outside the mask (R58, R59). A zero encoding counts as zero in a block whose scale makes it a NaN too (DESIGN CHOICE, log 85). -/
def Desc.builtTile (d : Desc) (m : Cells) (t : LaneTile) : List Byte × Nat :=
  let f := d.fmt
  let sd := d.srcDir m
  let raw := rawTile m d.src d.stride f false t.col t.r
  let vals := raw.map (fun l => l.map Prod.fst)
  let scales := raw.flatMap (fun l => (List.range 4).map (fun b => (l.getD (32 * b) (0, 0)).2))
  let pos := tilePositions m t.src true 0
  let groups := pos.zipIdx.map (fun (os, n) => os.map (fun o => (o, (vals.getD (n / 8) []).getD (16 * (n % 8) + o) 0)))
  let drops := (pos.zipIdx.map (fun (os, n) =>
    ((List.range 16).filter (fun o => !os.contains o && !zeroEnc f ((vals.getD (n / 8) []).getD (16 * (n % 8) + o) 0))).length)).sum
  (buildTile f sd.capK sd.capN sd.gen d.vtag groups scales, drops)

/-- The bytes a lane writes for a tile, and its drops. A mask tile has no values to expand or transpose: a DENSE load gives it its header and free planes, a transposed load free bytes (log 22). -/
def State.tileOut (s : State) (d : Desc) (t : LaneTile) : List Byte × Nat :=
  match d.kind with
  | .loadC => (s.get t.src (tileHdr s.mem t.src).bytes, 0)
  | .loadD => (if t.present && (tileHdr s.mem t.src).form == 2 then d.denseHdr s.mem t ++ s.freeBytes (denseSize d.fmt - 32) else d.denseTile s.mem t, 0)
  | .loadT => (if (tileHdr s.mem t.src).form == 2 then s.freeBytes maskTileSize else d.transposedTile s.mem t, 0)
  | .build _ => d.builtTile s.mem t
  | _ => ([], 0)

/-- A tile that a transposed load has written is one of a transposed destination (R81); a COMPRESSED load of such a tile makes none, a DCOPY does (DESIGN CHOICE, log 106). -/
def State.tagTile (s : State) (d : Desc) (a : Nat) : State :=
  if d.kind == .loadT then { s with tiers := { s.tiers with transposed := s.tiers.transposed ++ [a] } } else s

/-- Copied tiles of a transposed destination are still that (DESIGN CHOICE, log 106). -/
def State.copyTags (s : State) (ts : List Nat) (src dst n : Nat) : State :=
  { s with tiers := { s.tiers with transposed := s.tiers.transposed ++ (ts.filter (fun t => src ≤ t && t < src + n)).map (fun t => dst + (t - src)) } }

/-- Writes a checked tile and goes on to the next. -/
def State.writeTile (s : State) (n : Nat) (l : Lane) (t : LaneTile) (rest : List LaneTile) : State :=
  let (bs, drops) := s.tileOut l.desc t
  s.journaled l.desc.step [(t.dst, bs.length)] (fun s =>
    let s := (((s.putMem t.dst bs).bump64 Reg.DMA_MASKED_DROP drops).used bs.length).tagTile l.desc t.dst
    s.reach n { l with tiles := rest, wrote := l.wrote ++ [(t.dst, bs.length)] })

/-- CODEC_TILE: a tile's time on the lane has passed and it is written, or the wait for another lane at work on it has ended; the checks of R62 come when the codec reaches a tile (R62, R65). -/
def execCodecTile (arr : Nat) (s : State) : Host.Outcome State Fault Refusal :=
  match (s.arr arr).lane with
  | none => .next s
  | some l =>
    match l.tiles with
    | [] => .next s
    | t :: rest =>
      if !l.fetched then .next s
      else if l.waiting then
        if s.tileHeld l.desc t then .next s
        else .next (s.startTile arr l t)
      else if s.cycle < l.readyAt then .next s
      else
        let c := s.corrected (l.desc.tileReads s.mem t)
        match s.eccRanges (l.desc.tileReads s.mem t) with
        | some (code, bad) => .next (c.stopLane arr l { c.descFault l.desc code 0 bad with tileRow := t.r, tileCol := t.col })
        | none => .next (c.writeTile arr l t rest)

/-! ### DESCRIPTOR_COMPLETE (R58, R60, R80, R159, R303) -/

/-- MMGs of the array issued before number `seq` that still have entries to add into [a, a + n) (R159). -/
def State.earlierMmgs (s : State) (arr seq a n : Nat) : Bool :=
  (s.arr arr).ops.any (fun o => match o.body with
    | .prod p =>
      let k := (dirAt s.mem p.dir).capK
      p.kind == .mmg && o.seq < seq && p.addLeft.any (fun e => p.grad + e * 4096 * k < a + n && a < p.grad + (e + 1) * 4096 * k)
    | _ => false)

/-- The header word of the destination directory with complete set. -/
def Desc.completeWrites (d : Desc) (m : Cells) : List (Nat × List Byte) :=
  match d.kind with
  | .loadC | .loadT | .build true => [(d.dst, leBytes 4 (memNat m d.dst 4 ||| 2 ^ 23))]
  | _ => []

/-- What a plain transfer does to memory; DADD adds through the adder of the slice's array. -/
def State.moved (s : State) (d : Desc) : State :=
  match d.kind with
  | .copy => (s.putMem d.dst (s.get d.src d.len)).copyTags s.tiers.transposed d.src d.dst d.len
  | .fill => s.putMem d.dst (zeros d.len)
  | .add => s.addWords ((gradOf d.dst).getD d.arr) d.dst false
      ((List.range (d.len / 4)).map (fun i => some (BitVec.ofNat 32 (s.getN (d.src + 4 * i) 4))))
  | _ => s.putAll (d.completeWrites s.mem)

/-- Ranges a descriptor's last step writes. -/
def Desc.lastSpans (d : Desc) (m : Cells) : List (Nat × Nat) :=
  if d.kind.codec then spans (d.completeWrites m) else [(d.dst, d.len)]

/-- Ranges a plain transfer reads. -/
def Desc.moveReads (d : Desc) : List (Nat × Nat) :=
  match d.kind with
  | .copy => [(d.src, d.len)]
  | .add => [(d.src, d.len), (d.dst, d.len)]
  | _ => []

/-- DESCRIPTOR_COMPLETE: the last write of a descriptor lands, the complete bit is set where it applies, and the lane is free. -/
def execDescriptorComplete (arr : Nat) (s : State) : Host.Outcome State Fault Refusal :=
  match (s.arr arr).lane with
  | none => .next s
  | some l =>
    let d := l.desc
    if !l.fetched || !l.tiles.isEmpty || s.cycle < l.readyAt then .next s
    else if d.kind == .add && (s.earlierMmgs arr d.seq d.dst d.len || s.earlierAdds arr d.seq d.dst d.len) then .next s
    else
      let c := s.corrected d.moveReads
      match s.eccRanges d.moveReads with
      | some (code, bad) => .next (c.stopLane arr l (c.descFault d code 0 bad))
      | none => .next (c.journaled d.step (d.lastSpans s.mem) (fun s => (s.moved d).modArr arr (fun a => { a with lane := none })))

end Sys2Proof.Machine
end

