-- ==== Sys2Proof/Machine/Regen.lean ====
section
/-! DEFINITION. Per-slot planes, positions and regeneration of working copies, shared by the mask engine and the update unit (R39, R40, R117, R153, R185, R186). -/

namespace Sys2Proof.Machine

/-! ### Ranking (R121) -/

/-- Merges two sorted lists; `fuel` bounds the result's length. -/
def mergeFrom {α : Type} (le : α → α → Bool) : Nat → List α → List α → List α
  | 0, _, _ => []
  | _ + 1, [], ys => ys
  | _ + 1, xs, [] => xs
  | n + 1, x :: xs, y :: ys => if le x y then x :: mergeFrom le n xs (y :: ys) else y :: mergeFrom le n (x :: xs) ys

/-- Merge sort with `fuel` levels of halving. -/
def sortFrom {α : Type} (le : α → α → Bool) : Nat → List α → List α
  | 0, xs => xs
  | n + 1, xs =>
    if xs.length ≤ 1 then xs
    else mergeFrom le xs.length (sortFrom le n (xs.take (xs.length / 2))) (sortFrom le n (xs.drop (xs.length / 2)))

/-- Stable sort of a list. -/
def sortBy {α : Type} (le : α → α → Bool) (xs : List α) : List α := sortFrom le (Nat.log2 xs.length + 2) xs

/-! ### Planes and positions (R48, R117) -/

/-- The `n` values of width `w` of one tile of a plane. -/
def planeTile (m : Cells) (base e n w : Nat) : List Nat := (chunks n w (memGet m (base + e * n * w) (n * w))).map leNat

/-- Mask positions of every group of tile e of a mask directory. -/
def maskOf (m : Cells) (dir e : Nat) : List (List Nat) := tilePositions m (entryAddr m dir e) true 0

/-- Linear dense index of a position (R39): group n = 8ℓ + g, offset o, of tile (r, col) in a weight of `cols` tile-columns. -/
def denseIndex (r col cols n o : Nat) : Nat := (128 * r + 16 * (n % 8) + o) * (128 * cols) + 128 * col + n / 8

/-- Index of an offset among the slots of a group. -/
def slotOf (os : List Nat) (o : Nat) : Option Nat := if os.contains o then some (os.findIdx (· == o)) else none

/-- Exact value of a master slot (R186). -/
def masterVal (dw : Bool) (v : Nat) : FVal :=
  if dw then
    let hi := BitVec.ofNat 32 v
    let lo := BitVec.ofNat 32 (v / 2 ^ 32)
    if isZero32 lo then val32 hi else (⟨hi, lo⟩ : DW).val
  else val32 (BitVec.ofNat 32 v)

/-! ### Regeneration (R186) -/

/-- What a regeneration needs beside its tile: format and caps of the working copy, rounding, seed, tag, generation. -/
structure RegenArgs where
  fmt : Fmt
  k : Nat
  k' : Nat
  stochastic : Bool
  seed : Nat
  tag : Nat
  gen : Nat
  deriving DecidableEq, Repr

/-- The arguments of a weight's working-copy buffer at address `wc` for a version tag and mask generation. -/
def Weight.regenArgs (w : Weight) (m : Cells) (wc tag gen : Nat) : RegenArgs :=
  let d := dirAt m wc
  ⟨d.fmt, d.capK, d.capN, w.stochastic, w.seed, tag, gen⟩

/-- Rounding of the position with a dense index. -/
def RegenArgs.rd (a : RegenArgs) (index : Nat) : Rounding :=
  if a.stochastic then .stochastic (philoxWord a.seed 1 a.tag (index % 2 ^ 48)) else .rne

/-- One line of a regenerated tile: encodings of its 128 positions, scale bytes of its four blocks, saturations. `vals` gives the masters of the mask positions. -/
def RegenArgs.line (a : RegenArgs) (idx : Nat → Nat) (vals : List (Nat × FVal)) : List (Nat × Nat) × List Nat × Nat :=
  if a.fmt.mx then
    let dense := (List.range 128).map (fun i => match vals.find? (fun v => v.1 == i) with
      | some v => v.2
      | none => FVal.zero)
    let bs := (chunks 4 32 dense).zipIdx.map (fun (b, q) => mxBlock a.fmt (fun i => a.rd (idx (32 * q + i))) b)
    let enc := bs.flatMap (fun b => b.2.1)
    (vals.map (fun v => (v.1, enc.getD v.1 0)), bs.map (fun b => b.1), (bs.map (fun b => b.2.2)).sum)
  else
    let enc := vals.map (fun v => (v.1, a.fmt.encode (a.rd (idx v.1)) v.2))
    (enc.map (fun e => (e.1, e.2.1)), [], (enc.filter (fun e => e.2.2)).length)

/-- The bytes of a regenerated working-copy tile of tile (r, col) and its saturating conversions. `mask` are the positions of the 1,024 groups, `masters` the values of their slots under cap `km`. -/
def RegenArgs.tile (a : RegenArgs) (r col cols km : Nat) (mask : List (List Nat)) (masters : List FVal) : List Byte × Nat :=
  let lines : List (List (Nat × Nat) × List Nat × Nat) := (chunks 128 8 mask).zipIdx.map (fun ((gs : List (List Nat)), l) =>
    let vals := gs.zipIdx.flatMap (fun ((os : List Nat), g) => os.zipIdx.map (fun (o, i) => (16 * g + o, masters.getD ((8 * l + g) * km + i) FVal.zero)))
    a.line (fun i => denseIndex r col cols (8 * l + i / 16) (i % 16)) vals)
  let groups := lines.flatMap (fun l => (List.range 8).map (fun g => (l.1.filter (fun v => v.1 / 16 == g)).map (fun v => (v.1 % 16, v.2))))
  (buildTile a.fmt a.k a.k' a.gen a.tag groups (lines.flatMap (fun l => l.2.1)), (lines.map (fun l => l.2.2)).sum)

/-! ### Version buffers (R149, R153) -/

/-- Changes a buffer. -/
def Weight.modBuf (w : Weight) (second : Bool) (g : VBuf → VBuf) : Weight := if second then { w with v1 := g w.v1 } else { w with v0 := g w.v0 }

/-- Whether an in-flight instruction names a version of a weight: products do (R151, R153). -/
def Op.names (o : Op) (wt : Nat) (tag : W32) : Bool :=
  o.wt == wt && o.ver == tag && (match o.body with
    | .prod _ => true
    | _ => false)

/-- Whether an in-flight product names a version of a weight (R153). -/
def State.namesVersion (s : State) (wt : Nat) (tag : W32) : Bool := s.arrays.any (fun a => a.ops.any (fun o => o.names wt tag))

/-- bits [31:0] of a step number plus one: the tag of the version written in the step (R189). -/
def nextTag (step : Nat) : W32 := BitVec.ofNat 32 (step + 1)

end Sys2Proof.Machine
end

