-- ==== Sys2Proof/Machine/Mask.lean ====
section
/-! DEFINITION. The mask engine: MBIND, MDEC, PRUNE, REGROW, MCOMMIT, its queue and reports (R115 to R138, R152, R154, R304). -/

namespace Sys2Proof.Machine

/-! ### The binding record (R115, R154) -/

/-- A binding record as it lies in memory, with whether its reserved bits are zero. -/
structure BindRec where
  wt : Nat
  reserved : Bool
  w : Weight
  deriving DecidableEq, Repr

/-- The binding record at an address. -/
def bindAt (m : Cells) (a : Nat) : BindRec :=
  let f := memNat m (a + 6) 1
  let q := fun (o : Nat) => memNat m (a + o) 8
  let v : VBuf := ⟨.free, 0, 0⟩
  ⟨memNat m a 2, f < 8 && memNat m (a + 7) 1 == 0 && memNat m (a + 96) 32 == 0,
   { partR0 := memNat m (a + 2) 2, partR1 := memNat m (a + 4) 2, owner := bit f 0 == 1, dw32 := bit f 1 == 1, stochastic := bit f 2 == 1,
     maskA := q 8, maskB := q 16, wc0 := q 24, wc1 := q 32, master := q 40, moment1 := q 48, moment2 := q 56, grad := q 64, extra := q 72,
     seed := q 80, ctrl := q 88, st := .idle, gen0 := (dirAt m (q 8)).gen, gen := (dirAt m (q 8)).gen, gradGen := (dirAt m (q 8)).gen,
     curB := false, decision := none, pReq := 0, pDone := 0, gReq := 0, gDone := 0, nonfinite := false, v0 := v, v1 := v }⟩

/-- The conditions of R115 that fault with FORMAT_CODE. -/
def BindRec.bad (b : BindRec) (m : Cells) : Bool :=
  let w := b.w
  let a := dirAt m w.maskA
  let mb := dirAt m w.maskB
  let c0 := dirAt m w.wc0
  let c1 := dirAt m w.wc1
  !b.reserved || (!w.owner && (w.master != 0 || w.moment1 != 0 || w.moment2 != 0)) ||
    (w.owner && (w.master == 0 || w.moment1 == 0 || w.moment2 == 0)) || w.grad == 0 ||
    !a.sameStructure mb m || !a.sameStructure c0 m || !a.sameStructure c1 m ||
    !mb.maskDir || mb.capK != a.capK || mb.capN != a.capN || mb.group != a.group ||
    c0.format != c1.format || c0.capK != c1.capK || c0.capN != c1.capN || c0.capK != a.capK || c0.capN != a.capN || 9 ≤ c0.format

/-- Byte ranges of a directory and of all its tiles. -/
def dirReads (m : Cells) (a : Nat) : List (Nat × Nat) :=
  let d := dirAt m a
  (a, d.size) :: (d.tiles m 0 (d.rows - 1)).map (fun t => (d.payload + t.ofs, d.tileBytes))

/-- The per-slot planes a binding names: those of an owner, and a further plane of a binding without one (R115). -/
def Weight.boundPlanes (w : Weight) : List (Nat × Nat) := w.planes ++ (if !w.owner && w.extra != 0 then [(w.extra, 4)] else [])

/-- The buffers and planes of a binding, each as the ranges that one region must hold: a directory with every tile its entries name, or a plane (row 7 of R135). -/
def Weight.bindRanges (w : Weight) (m : Cells) : List (List (Nat × Nat)) :=
  let d := dirAt m w.maskA
  [w.maskA, w.maskB, w.wc0, w.wc1].map (dirReads m) ++ w.boundPlanes.map (fun (b, wd) => [(b, d.present * 1024 * d.capK * wd)])

/-- Whether ranges lie wholly in one region of kind 0 with users bit 2, the read and write access bits, and for gradient planes the add bit, set (R115). -/
def State.bindable (s : State) (rs : List (Nat × Nat)) (add : Bool) : Bool :=
  s.tiers.regions.any (fun r => r.kind == 0 && rs.all (fun x => r.base ≤ x.1 && x.1 + x.2 ≤ r.base + r.size) &&
    r.users.testBit 2 && r.access.testBit 0 && r.access.testBit 1 && (!add || r.access.testBit 2))

/-! ### Faults of mask operations (R135, R136) -/

/-- A failed check: code, row, address, tile and word 4 of the record; word 4 is zero for a fault that is no codec fault (R63, R431). -/
structure MaskFail where
  code : Nat
  row : Nat
  addr : Nat
  tileRow : Nat
  tileCol : Nat
  word4 : Nat
  deriving DecidableEq, Repr

/-- A check without a tile. -/
def mfail (b : Bool) (code row : Nat) : Option MaskFail := if b then some ⟨code, row, 0, 0xFFFF, 0xFFFF, 0⟩ else none

/-- First failure of a list of checks in order. -/
def firstMask (l : List (Option MaskFail)) : Option MaskFail := l.findSome? id

/-- A failure of rows 7 to 10 of R61 in a whole directory, with the entry that rows 9 and 10 name (R63). -/
def Dir.orderFail (d : Dir) (m : Cells) : Option MaskFail :=
  (d.rows7to10 m 0 (d.rows - 1)).map (fun (row, code) =>
    match (if row == 9 || row == 10 then d.badEntry m 0 (d.rows - 1) row else none) with
    | some t => ⟨code, row, d.base, t.r, t.col, 0⟩
    | none => ⟨code, row, d.base, 0xFFFF, 0xFFFF, 0⟩)

/-- Row 11 of R61 for a mask directory: the directory and every tile its entries name lie where the U stream may read. -/
def State.maskExtent (s : State) (d : Dir) : Option MaskFail :=
  ((dirReads s.mem d.base).find? (fun r => !s.operandOk .u .read r.1 r.2)).map (fun r => ⟨0x10, 11, s.firstOutside Stream.u.idx .read r.1, 0xFFFF, 0xFFFF, 0⟩)

/-- Structural checks of a whole mask directory and its tiles, as a codec load would make them (R61, R62, R120, R130). `complete`: whether condition 5 of R61 applies. -/
def State.maskStructure (s : State) (a : Nat) (complete : Bool) : Option MaskFail :=
  let m := s.mem
  let d := dirAt m a
  firstMask [
    mfail (!d.row3) 0x24 3,
    mfail (!d.maskDir || d.format != 0) 0x24 4,
    mfail (complete && !d.complete) 0x23 5,
    d.orderFail m,
    s.maskExtent d,
    (d.tiles m 0 (d.rows - 1)).findSome? (fun t =>
      let h := tileHdr m (d.payload + t.ofs)
      (tileCheck m (d.payload + t.ofs) d.format true d.capK d.capN h.capK h.capN true).map (fun e => ⟨e.code, e.row, a, t.r, t.col, e.word4⟩))]

/-- Whether the record, each buffer and each plane of a binding lie where MBIND may use them (row 7 of R135). -/
def State.bindPlaced (s : State) (arr a : Nat) : Bool :=
  let w := (bindAt s.mem a).w
  let d := dirAt s.mem w.maskA
  let rs := w.bindRanges s.mem
  scratchOf a == some arr && s.operandOk .u .read a 128 && rs.flatten.all (fun r => r.1 % 32 == 0) && rs.all (fun r => s.bindable r false) &&
    w.grad % 32 == 0 && s.bindable [(w.grad, d.present * 4096 * d.capK)] true

/-- Checks of MBIND, whose record lies in the issuing array's own scratchpad slice (R115, R118, R120, R135). -/
def State.bindCheck (s : State) (arr a : Nat) : Option MaskFail :=
  let b := bindAt s.mem a
  let d := dirAt s.mem b.w.maskA
  let st := (s.weight? b.wt).map (·.st)
  firstMask [
    mfail (1024 ≤ b.wt || b.w.partR1 < b.w.partR0 || d.rows ≤ b.w.partR1) 0x21 1,
    mfail (st == some .open_ || st == some .committed || d.gen == 0) 0x30 2,
    mfail (b.bad s.mem) 0x24 3,
    s.maskStructure b.w.maskA true,
    mfail (!s.bindPlaced arr a) 0x10 7]

/-! ### Candidates (R124, R126) -/

/-- Lists of a candidate table: list address, out_base, count. -/
def candTable (m : Cells) (a n : Nat) : List (Nat × Nat × Nat) :=
  (List.range n).map (fun i => (memNat m (a + 16 * i) 8, memNat m (a + 16 * i + 8) 6, memNat m (a + 16 * i + 14) 2))

/-- A candidate position: tile-row, tile-column, group, offset, gradient. -/
structure Cand where
  r : Nat
  col : Nat
  n : Nat
  o : Nat
  g : W32
  deriving DecidableEq, Repr

/-- The 256 candidates of entry i of a list. -/
def listCands (m : Cells) (list out i : Nat) : List Cand :=
  let (r, col, blk) := (candList m (list + 8 * i) 1).headD (0, 0, 0)
  (List.range 256).map (fun v => ⟨r, col, (16 * (blk / 8) + v / 16) * 8 + blk % 8, v % 16, BitVec.ofNat 32 (memNat m (out + 1024 * i + 4 * v) 4)⟩)

/-- All candidates of a table, in table order. -/
def tableCands (m : Cells) (a n : Nat) : List Cand :=
  (candTable m a n).flatMap (fun (l, o, c) => (List.range c).flatMap (listCands m l o))

/-- Values of a candidate table: 256 per list entry. -/
def candValues (m : Cells) (a n : Nat) : Nat := 256 * ((candTable m a n).map (fun e => e.2.2)).sum

/-- Rows 3, 6 and 7 of R135 for a candidate table. -/
def State.tableCheck (s : State) (w : Weight) (a n : Nat) : List (Option MaskFail) :=
  let t := candTable s.mem a n
  [mfail (t.any (fun e => e.2.2 < 1 || 64 < e.2.2)) 0x24 3,
   mfail (t.any (fun e => (candList s.mem e.1 e.2.2).any (fun c => c.1 < w.partR0 || w.partR1 < c.1))) 0x21 6,
   mfail (!s.operandOk .u .read a (16 * n) || t.any (fun e => !s.operandOk .u .read e.1 (8 * e.2.2) || !s.operandOk .u .read e.2.1 (1024 * e.2.2))) 0x10 7]

/-! ### The controller descriptor (R126) -/

/-- A controller descriptor. -/
structure Ctrl where
  count : Nat
  f0 : W32
  fLo : W32
  fHi : W32
  rhoCap : W32
  dMin : Nat
  dMax : Nat
  pMax : Nat
  gMax : Nat
  traj : List (Nat × Nat)
  deriving DecidableEq, Repr

/-- The descriptor at an address. -/
def ctrlAt (m : Cells) (a : Nat) : Ctrl :=
  let n := memNat m a 2
  let f := fun (o : Nat) => BitVec.ofNat 32 (memNat m (a + o) 4)
  ⟨n, f 4, f 8, f 12, f 16, memNat m (a + 20) 2, memNat m (a + 22) 2, memNat m (a + 24) 4, memNat m (a + 28) 4,
   (List.range n).map (fun i => (memNat m (a + 64 + 8 * i) 4, memNat m (a + 68 + 8 * i) 2))⟩

/-- Whether a field of the descriptor is out of range; reserved fields are ignored (R7), and f0 has no range. -/
def Ctrl.bad (c : Ctrl) : Bool :=
  c.count < 1 || 64 < c.count || !FVal.le FVal.zero (val32 c.fLo) || !FVal.le (val32 c.fLo) (val32 c.fHi) ||
    !FVal.le (val32 c.fHi) (FVal.ofInt 1) || !FVal.lt FVal.zero (val32 c.rhoCap) || c.dMax < c.dMin

/-- The trajectory density at u mask updates. -/
def Ctrl.density (c : Ctrl) (u : Nat) : Nat :=
  let first := c.traj.headD (0, 0)
  let last := c.traj.getLastD (0, 0)
  if u ≤ first.1 then first.2
  else if last.1 ≤ u then last.2
  else match (c.traj.zip (c.traj.drop 1)).find? (fun p => p.1.1 ≤ u && u < p.2.1) with
    | some (x, y) => ((x.2 : Int) + ((y.2 : Int) - (x.2 : Int)) * ((u : Int) - (x.1 : Int)) / ((y.1 : Int) - (x.1 : Int))).toNat
    | none => last.2

/-! ### What an operation reads (R131, R209, R216, R229) -/

/-- Byte ranges of a candidate table, its lists and their values. -/
def tableReads (m : Cells) (a n : Nat) : List (Nat × Nat) :=
  (a, 16 * n) :: (candTable m a n).flatMap (fun e => [(e.1, 8 * e.2.2), (e.2.1, 1024 * e.2.2)])

/-- Byte ranges a mask operation reads. -/
def State.maskReads (s : State) (k : MaskKind) : List (Nat × Nat) :=
  match k with
  | .bind a =>
    let w := (bindAt s.mem a).w
    (a, 128) :: dirReads s.mem w.maskA ++ [w.maskB, w.wc0, w.wc1].map (fun d => (d, (dirAt s.mem d).size))
  | _ =>
    match s.weight? k.wt with
    | none => []
    | some w =>
      let n := w.slots s.mem
      let part := w.part s.mem
      let masks := part.flatMap (fun t => [(entryAddr s.mem w.curMask t.e, maskTileSize), (entryAddr s.mem w.otherMask t.e, maskTileSize)])
      let planes := fun (l : List (Nat × Nat)) => part.flatMap (fun t => l.map (fun p => (p.1 + t.e * n * p.2, n * p.2)))
      match k with
      | .bind _ => []
      | .mdec _ c t => (w.ctrl, 64 + 8 * (ctrlAt s.mem w.ctrl).count) :: (if c == 0 then [] else tableReads s.mem t c) ++ masks ++ planes [(w.grad, 4)]
      | .pruneG _ _ | .pruneL _ _ _ => masks ++ planes [(w.master, planeWidth w.dw32)]
      | .regrowM _ t c _ => tableReads s.mem t c ++ masks
      | .regrowR _ _ _ => masks
      | .adopt _ _ => dirReads s.mem w.otherMask ++ masks
      | .commit _ _ => masks ++ planes w.planes

/-- The managed objects a mask operation uses: what it reads of them, and the state tiles of its part where it reads masters (R229, R231). -/
def State.maskObjs (s : State) (k : MaskKind) : List ObjInfo := s.readObjs (s.maskReads k)

/-! ### Issue (R132, R304) -/

/-- Entries of the module's mask queue; the running operation keeps its entry until it retires (R132). -/
def maskqDepth : Nat := 16

/-- What issue needs to know of a mask instruction: an entry of the queue, after those that lower-numbered arrays take first (R132, R363). -/
def State.maskInfo (s : State) (h : Head) (opcode : Nat) (regs : List Nat) (wt : Nat) : IssueInfo :=
  { IssueInfo.simple opcode regs with
    streams := [.u]
    hold := if maskqDepth ≤ s.mask.queue.length + (if s.mask.running.isSome then 1 else 0) + s.ahead h .maskq [] then some .maskq else none
    object := wt }

/-- Enters an operation behind all others but those that higher logical arrays issued in its own cycle (R132, R363). -/
def insertMask (op : MaskOp) (q : List MaskOp) : List MaskOp :=
  let later := fun (x : MaskOp) => x.at_ == op.at_ && op.arr < x.arr
  q.filter (fun x => !later x) ++ [op] ++ q.filter later

/-- The module's queue takes an operation. -/
def State.queueMask (s : State) (op : MaskOp) : State := { s with mask := { s.mask with queue := insertMask op s.mask.queue } }

/-- Mask instructions share issue: they enter the module's queue, and their use of managed objects is recorded (R132, R229, R231). -/
def State.issueMask (s : State) (opcode : Nat) (h : Head) (i : IssueInfo) (k : MaskKind) : Host.Outcome State Fault Refusal :=
  let c := s.ctx h.arr h.stream
  let m := s.markOf h
  let objs := s.maskObjs k
  let op : MaskOp := ⟨k, h.arr, opcode, c.pc, m, m + h.delta.toNat, c.curStep, s.headLate h, s.cycle, objs.map (·.obj), false⟩
  issue h i (fun _ t => (t.recordUses h.arr objs).queueMask op) s

/-- MBIND (R115, R304). -/
def execMbind (h : Head) (bind : SRef) (s : State) : Host.Outcome State Fault Refusal :=
  s.issueMask 0x50 h (s.maskInfo h 0x50 [] 0xFFFF) (.bind ((s.ctx h.arr h.stream).sref bind))

/-- MDEC (R126, R304). -/
def execMdec (h : Head) (wt : BitVec 16) (count : BitVec 9) (table : SRef) (s : State) : Host.Outcome State Fault Refusal :=
  s.issueMask 0x51 h (s.maskInfo h 0x51 [] wt.toNat) (.mdec wt.toNat count.toNat ((s.ctx h.arr h.stream).sref table))

/-- PRUNE.G (R122, R304). -/
def execPruneG (h : Head) (wt : BitVec 16) (t : BitVec 5) (s : State) : Host.Outcome State Fault Refusal :=
  s.issueMask 0x52 h (s.maskInfo h 0x52 [] wt.toNat) (.pruneG wt.toNat t.toNat)

/-- PRUNE.L: D is the immediate, or MDEC's decision with mod[0] = 1 (R122, R304). -/
def execPruneL (h : Head) (wt : BitVec 16) (hmin : BitVec 5) (d : BitVec 32) (s : State) : Host.Outcome State Fault Refusal :=
  s.issueMask 0x53 h (s.maskInfo h 0x53 [] wt.toNat) (.pruneL wt.toNat hmin.toNat (if h.mod.getLsbD 0 then none else some d.toNat))

/-- REGROW.M (R124, R304). -/
def execRegrowM (h : Head) (wt : BitVec 16) (ref : SRef) (r : RegrowRec) (s : State) : Host.Outcome State Fault Refusal :=
  s.issueMask 0x54 h { s.maskInfo h 0x54 [] wt.toNat with record := some (ref, 64) }
    (.regrowM wt.toNat ((s.ctx h.arr h.stream).aref r.table) r.count.toNat (if h.mod.getLsbD 0 then none else some r.g.toNat))

/-- REGROW.R: the seed is read from its scalar register at issue (R123, R304). -/
def execRegrowR (h : Head) (wt : BitVec 16) (seedReg : BitVec 5) (g : BitVec 32) (s : State) : Host.Outcome State Fault Refusal :=
  s.issueMask 0x55 h (s.maskInfo h 0x55 [seedReg.toNat] wt.toNat)
    (.regrowR wt.toNat ((s.ctx h.arr h.stream).sreg seedReg.toNat).toNat (if h.mod.getLsbD 0 then none else some g.toNat))

/-- MCOMMIT of a local mask (R128, R304). -/
def execMcommit (h : Head) (wt : BitVec 16) (tag : BitVec 32) (s : State) : Host.Outcome State Fault Refusal :=
  s.issueMask 0x56 h (s.maskInfo h 0x56 [] wt.toNat) (.commit wt.toNat tag.toNat)

/-- MCOMMIT with the adopt flag (R130, R304). -/
def execMcommitAdopt (h : Head) (wt : BitVec 16) (tag : BitVec 32) (s : State) : Host.Outcome State Fault Refusal :=
  s.issueMask 0x56 h (s.maskInfo h 0x56 [] wt.toNat) (.adopt wt.toNat tag.toNat)

/-! ### Checks at the head of the queue (R116, R118, R128, R130, R135) -/

/-- Row 2 of R135 for PRUNE, REGROW and MDEC: an owner, in IDLE or OPEN. -/
def Weight.editable (w : Weight) : Bool := w.owner && (w.st == .idle || w.st == .open_)

/-- Row 2 of R135 for an MCOMMIT: state, owner, tag, generation, buffer. -/
def Weight.committable (w : Weight) (m : Cells) (adopt : Bool) (tag step : Nat) : Bool :=
  tag == (nextTag step).toNat && w.gen < 0xFFFFFFFF &&
    (if adopt then !w.owner && w.st == .idle && (dirAt m w.otherMask).gen == w.gen + 1
     else w.owner && w.st == .open_ && ((w.bufWith .ready (BitVec.ofNat 32 tag)).isSome || (w.bufWith .writing (BitVec.ofNat 32 tag)).isSome))

/-- The checks of a mask operation, in R135's order. -/
def State.maskCheck (s : State) (op : MaskOp) : Option MaskFail :=
  match op.kind with
  | .bind a => s.bindCheck op.arr a
  | k =>
    if 1024 ≤ k.wt then mfail true 0x21 1
    else match s.weight? k.wt with
      | none => mfail true 0x30 2
      | some w =>
        match k with
        | .bind _ => none
        | .mdec _ n t =>
          let c := ctrlAt s.mem w.ctrl
          let ts := if n == 0 then [] else s.tableCheck w t n
          firstMask ([mfail (!w.editable) 0x30 2, mfail (w.ctrl == 0 || 256 < n || c.bad) 0x24 3, (ts[0]?).join,
            mfail (!strictAsc (c.traj.map Prod.fst)) 0x22 4] ++ ts.drop 1 ++ [mfail (!s.operandOk .u .read w.ctrl (64 + 8 * c.count)) 0x10 7])
        | .pruneG _ t => firstMask [mfail (!w.editable) 0x30 2, mfail (16 < t) 0x24 3]
        | .pruneL _ h _ => firstMask [mfail (!w.editable) 0x30 2, mfail (16 < h) 0x24 3]
        | .regrowM _ t n _ => firstMask ([mfail (!w.editable) 0x30 2, mfail (n < 1 || 256 < n) 0x24 3] ++ s.tableCheck w t n)
        | .regrowR _ _ _ => mfail (!w.editable) 0x30 2
        | .commit _ tag => mfail (!w.committable s.mem false tag op.step) 0x30 2
        | .adopt _ tag => firstMask [mfail (!w.committable s.mem true tag op.step) 0x30 2, s.maskStructure w.otherMask false]

/-- The state of the weight after a fault: PRUNE, REGROW and MDEC discard the pending buffer and the decision while it is IDLE or OPEN (R116, R136). -/
def State.discard (s : State) (k : MaskKind) : State :=
  match k with
  | .mdec _ _ _ | .pruneG _ _ | .pruneL _ _ _ | .regrowM _ _ _ _ | .regrowR _ _ _ =>
    s.modWeight k.wt (fun w => if w.editable then { w with st := .idle, decision := none } else w)
  | _ => s

/-- A mask operation faults: block 0x0D; its stream issues nothing further. -/
def State.maskFault (s : State) (op : MaskOp) (f : MaskFail) : State :=
  let s := ((s.discard op.kind).setBits Reg.MSK_STATUS 2).modCtx op.arr .u (fun c => { c with failed := true })
  s.raise { FaultRec.of f.code 0xD with
    arr := op.arr, stream := 2, pc := op.pc, check := f.row, opcode := op.opcode, object := op.kind.wt, tileRow := f.tileRow, tileCol := f.tileCol,
    word4 := f.word4, addr := f.addr,
    aux := s.faultAux op.arr f.code f.addr }

/-! ### Times (R133, R134) -/

/-- Whether the operation opens the weight (R119). -/
def State.opens (s : State) (k : MaskKind) : Bool :=
  match k with
  | .pruneG _ _ | .pruneL _ _ _ | .regrowM _ _ _ _ | .regrowR _ _ _ => (s.weight? k.wt).any (fun w => w.st == .idle)
  | _ => false

/-- Cycles of an operation (R133). -/
def State.maskTime (s : State) (k : MaskKind) : Nat :=
  let w := (s.weight? k.wt).getD (bindAt s.mem (match k with
    | .bind a => a
    | _ => 0)).w
  let cap := (w.dir s.mem).capK
  let t := (w.part s.mem).length
  let bm := 1024 * cap * planeWidth w.dw32
  let copy := if s.opens k then 3 * t else 0
  match k with
  | .bind _ => s.lat 0x18 + 3 * t
  | .mdec _ n a => s.lat 0x19 + cdiv (4 * candValues s.mem a n) 1024 + t * cdiv (4096 * cap) 1024 + 3 * t
  | .pruneG _ _ => s.lat 0x1A + t * (cdiv (2080 + bm) 1024 + 3) + copy
  | .pruneL _ _ _ => s.lat 0x1A + 5 * t * cdiv (2080 + bm) 1024 + 3 * t + copy
  | .regrowM _ a n _ => s.lat 0x1B + 5 * cdiv (4 * candValues s.mem a n) 1024 + 6 * t + copy
  | .regrowR _ _ _ => s.lat 0x1B + 320 * t + 6 * t + copy
  | .commit _ _ =>
    let planes := (w.planes.map (fun p => cdiv (2 * 1024 * cap * p.2) 1024)).sum
    s.lat 0x1C + t * (6 + planes + cdiv (dirAt s.mem w.wc0).tileBytes 1024 + cdiv (4096 * cap) 1024)
  | .adopt _ _ => s.lat 0x1C + t * (3 + cdiv (4096 * cap) 1024)

/-! ### MASK_ENGINE_START (R119, R132, R135) -/

/-- The writes that open a pending generation: every tile of the current buffer copied with the new generation, and the other directory's header (R119). -/
def Weight.openWrites (w : Weight) (m : Cells) : List (Nat × List Byte) :=
  let d := dirAt m w.curMask
  let g := leBytes 4 (w.gen + 1)
  (List.range d.present).map (fun e =>
    let b := memGet m (entryAddr m w.curMask e) maskTileSize
    (entryAddr m w.otherMask e, b.take 8 ++ g ++ b.drop 12)) ++
  [(w.otherMask, leBytes 4 (memNat m w.otherMask 4 &&& 0xFF7FFFFF)), (w.otherMask + 12, g)]

/-- Opens a weight: state, counts of the update (R118, R119, R137). -/
def State.openWeight (s : State) (wt : Nat) (w : Weight) : State :=
  (s.putAll (w.openWrites s.mem)).modWeight wt (fun w => { w with st := .open_, pReq := 0, pDone := 0, gReq := 0, gDone := 0, nonfinite := false })

/-- The operation at the head of the queue starts. -/
def State.startMask (s : State) (op : MaskOp) (rest : List MaskOp) (waiting : Bool) : State :=
  let t := s.maskTime op.kind
  { s with mask := { s.mask with queue := rest, running := some ({ op with stalled := false }, s.cycle + t, waiting) } }

/-- Whether a codec lane is at work on a tile or directory that the operation reads or writes, or a preload has reached a tile that it writes: a lane reads what the operation writes, or writes what the operation reads (R65, R79, R131). One that waits for the operation does not hold it up. -/
def State.maskHeld (s : State) (reads writes : List (Nat × Nat)) : Bool :=
  s.arrays.any (fun a => a.lane.any (fun l =>
    (l.desc.kind == .build true && reads.any (meets (l.desc.dst, 32))) ||
    (l.desc.kind.codec && l.at_.any (fun x =>
      (x.present && writes.any (meets (x.src, (l.desc.srcDir s.mem).tileBytes))) || reads.any (meets (x.dst, l.desc.dstTile s.mem)))))) ||
  writes.any s.preloadReads

/-- The tiles that the opening of a pending generation copies (R119). -/
def Weight.openReads (w : Weight) (m : Cells) : List (Nat × Nat) :=
  (List.range (dirAt m w.curMask).present).map (fun e => (entryAddr m w.curMask e, maskTileSize))

/-- An operation that opens its weight starts: once no codec lane or preload is at work on the tiles of the copy, each such wait counted, and unless it meets an uncorrectable block or word (R65, R119, R131, R136). -/
def State.startOpening (s : State) (op : MaskOp) (rest : List MaskOp) (w : Weight) : State :=
  let reads := w.openReads s.mem
  let writes := spans (w.openWrites s.mem)
  if s.maskHeld reads writes then
    if op.stalled then s
    else (({ s with mask := { s.mask with queue := { op with stalled := true } :: rest } } : State)).bump Reg.DMA_CODEC_WAIT 1
  else
    let c := s.corrected reads
    match (s.eccRanges reads).orElse (fun _ => s.mergeBad writes) with
    | some (code, bad) => ({ c with mask := { c.mask with queue := rest } }).maskFault op ⟨code, 0, bad, 0xFFFF, 0xFFFF, 0⟩
    | none => c.journaled op.step writes (fun t => (t.startMask op rest false).openWeight op.kind.wt w)

/-- MASK_ENGINE_START: the free mask engine takes the next queued operation and checks it; PRUNE and REGROW open an IDLE weight (R119, R132, R135). -/
def execMaskEngineStart (s : State) : Host.Outcome State Fault Refusal :=
  match s.mask.running, s.mask.queue with
  | none, op :: rest =>
    match s.maskCheck op with
    | some f => .next (({ s with mask := { s.mask with queue := rest } }).maskFault op f)
    | none =>
      match op.kind, s.weight? op.kind.wt with
      | .commit _ _, _ => .next (s.startMask op rest true)
      | k, some w =>
        if s.opens k then .next (s.startOpening op rest w)
        else .next (s.startMask op rest false)
      | _, none => .next (s.startMask op rest false)
  | _, _ => .next s

/-! ### Selections (R121 to R124) -/

/-- The masks of a part under one buffer: tile and positions of its groups. -/
abbrev PartMask := List (TileRef × List (List Nat))

/-- The masks of a weight's part in one buffer. -/
def Weight.masks (w : Weight) (m : Cells) (dir : Nat) : PartMask := (w.part m).map (fun t => (t, maskOf m dir t.e))

/-- Positions of a part's masks. -/
def PartMask.count (p : PartMask) : Nat := (p.map (fun t => (t.2.map List.length).sum)).sum

/-- A ranked position: key, dense index, index of the tile in the part, group, offset. -/
structure Ranked where
  key : Nat
  index : Nat
  ti : Nat
  n : Nat
  o : Nat
  deriving DecidableEq, Repr

/-- Ascending key, lower index first among equals. -/
def Ranked.asc (x y : Ranked) : Bool := x.key < y.key || (x.key == y.key && x.index ≤ y.index)

/-- Descending key, lower index first among equals. -/
def Ranked.desc (x y : Ranked) : Bool := y.key < x.key || (x.key == y.key && x.index ≤ y.index)

/-- The PRUNE key of an offset: its master's magnitude bits, 0 where it is not in the current mask. -/
def pruneKey (masters : List Nat) (k n : Nat) (cur : List Nat) (o : Nat) : Nat :=
  match slotOf cur o with
  | some i => masters.getD (n * k + i) 0 % 2 ^ 31
  | none => 0

/-- Ranked positions of the pending masks of a part under the PRUNE key. -/
def Weight.pruneRanks (w : Weight) (m : Cells) (pend : PartMask) : List Ranked :=
  let d := w.dir m
  pend.zipIdx.flatMap (fun ((t, gs), ti) =>
    let masters := planeTile m w.master t.e (1024 * d.capK) (planeWidth w.dw32)
    let cur := maskOf m w.curMask t.e
    gs.zipIdx.flatMap (fun (os, n) => os.map (fun o => ⟨pruneKey masters d.capK n (cur.getD n []) o, denseIndex t.r t.col d.cols n o, ti, n, o⟩)))

/-- Removes offset o from group n of tile ti. -/
def PartMask.remove (p : PartMask) (ti n o : Nat) : PartMask := p.modify ti (fun t => (t.1, t.2.modify n (fun os => os.filter (· != o))))

/-- Offsets of group n of tile ti. -/
def PartMask.group (p : PartMask) (ti n : Nat) : List Nat := ((p.map Prod.snd).getD ti []).getD n []

/-- Removes, in ranked order, positions whose group keeps more than `least`, until `limit` are gone: the masks and the number removed (R122). -/
def PartMask.prune (p : PartMask) (least limit : Nat) (xs : List Ranked) : PartMask × Nat :=
  xs.foldl (fun (a : PartMask × Nat) x =>
    if a.2 < limit && least < (a.1.group x.ti x.n).length then (a.1.remove x.ti x.n x.o, a.2 + 1) else a) (p, 0)

/-- Adds an offset to a group, in ascending order. -/
def insertOffset (o : Nat) (os : List Nat) : List Nat := os.filter (· < o) ++ [o] ++ os.filter (o < ·)

/-- Positions of the cross-group of a position: the 16 lines around line n div 8 that hold it. -/
def crossCount (gs : List (List Nat)) (n o : Nat) : Nat :=
  ((List.range 16).filter (fun i => (gs.getD ((n / 128 * 16 + i) * 8 + n % 8) []).contains o)).length

/-- Greedy regrowth along a ranked list under both caps, to `limit` additions (R123). -/
def PartMask.regrow (p : PartMask) (k k' limit : Nat) (xs : List Ranked) : PartMask × Nat :=
  xs.foldl (fun (a : PartMask × Nat) x =>
    let gs := (a.1.map Prod.snd).getD x.ti []
    let g := gs.getD x.n []
    if a.2 < limit && !g.contains x.o && g.length < k && crossCount gs x.n x.o < k' then
      (a.1.modify x.ti (fun t => (t.1, t.2.modify x.n (insertOffset x.o))), a.2 + 1)
    else a) (p, 0)

/-- Whether a position is in neither mask (R123). -/
def eligible (cur pend : PartMask) (ti n o : Nat) : Bool := !(cur.group ti n).contains o && !(pend.group ti n).contains o

/-- Index of the part's tile at (r, col). -/
def PartMask.tileAt (p : PartMask) (r col : Nat) : Option Nat :=
  let i := p.findIdx (fun t => t.1.r == r && t.1.col == col)
  if i < p.length then some i else none

/-- Ranked finite eligible candidates of a table (R121, R124). -/
def rankCands (cols : Nat) (cur pend : PartMask) (cs : List Cand) : List Ranked :=
  cs.filterMap (fun c => match pend.tileAt c.r c.col with
    | none => none
    | some ti => if eligible cur pend ti c.n c.o && (val32 c.g).isFinite then
        some ⟨c.g.toNat % 2 ^ 31, denseIndex c.r c.col cols c.n c.o, ti, c.n, c.o⟩ else none)

/-- Whether a candidate of the table is excluded because its value is not finite (R121). -/
def anyNonfinite (cs : List Cand) : Bool := cs.any (fun c => !(val32 c.g).isFinite)

/-- Every eligible position of a part under the REGROW.R key (R121, R124). -/
def rankAll (cols seed step : Nat) (cur pend : PartMask) : List Ranked :=
  pend.zipIdx.flatMap (fun ((t, _), ti) => (List.range 1024).flatMap (fun n => (List.range 16).filterMap (fun o =>
    if eligible cur pend ti n o then
      let i := denseIndex t.r t.col cols n o
      some ⟨philoxWord seed 3 step (i % 2 ^ 48), i, ti, n, o⟩
    else none)))

/-- The writes of a part's masks into a buffer. -/
def PartMask.writes (p : PartMask) (m : Cells) (dir : Nat) : List (Nat × List Byte) :=
  p.map (fun t => (entryAddr m dir t.1.e + 32, (lineBitmaps t.2).flatMap (leBytes 16)))

/-! ### MDEC (R126) -/

/-- Sum of RNE(g·g) in a DW32, in order (R126). -/
def squareSum (gs : List W32) : DW := gs.foldl (fun d g => (d.add (f32mul g g).1).1) DW.zero

/-- Candidates at their first appearance, eligible and finite, by ascending index (R126). A position whose first appearance is not finite counts as none, whatever a later one holds (DESIGN CHOICE, log 87). -/
def firstCands (cols : Nat) (cur pend : PartMask) (cs : List Cand) : List (Nat × W32) :=
  let firsts := cs.foldl (fun (a : List Cand) c => if a.any (fun x => x.r == c.r && x.col == c.col && x.n == c.n && x.o == c.o) then a else a ++ [c]) []
  sortBy (fun x y => x.1 ≤ y.1) (firsts.filterMap (fun c => match pend.tileAt c.r c.col with
    | none => none
    | some ti => if eligible cur pend ti c.n c.o && (val32 c.g).isFinite then some (denseIndex c.r c.col cols c.n c.o, c.g) else none))

/-- Finite gradient-buffer values at the current mask's positions, by ascending index. -/
def Weight.maskGrads (w : Weight) (m : Cells) (cur : PartMask) : List (Nat × W32) :=
  let d := w.dir m
  sortBy (fun x y => x.1 ≤ y.1) (cur.flatMap (fun (t, gs) =>
    let g := planeTile m w.grad t.e (1024 * d.capK) 4
    gs.zipIdx.flatMap (fun (os, n) => os.zipIdx.filterMap (fun (o, i) =>
      let v := BitVec.ofNat 32 (g.getD (n * d.capK + i) 0)
      if (val32 v).isFinite then some (denseIndex t.r t.col d.cols n o, v) else none))))

/-- The decision of MDEC. A churn fraction that is not finite has no floor: f_q is then the free value `free` (log 1). -/
def Weight.decide_ (w : Weight) (m : Cells) (table n free : Nat) : Decision :=
  let d := w.dir m
  let c := ctrlAt m w.ctrl
  let cur := w.masks m w.curMask
  let pend := if w.st == .open_ then w.masks m w.otherMask else cur
  let t := cur.length
  let npos := 16384 * t
  let ncap := 1024 * min d.capK d.capN * t
  let raw := npos * c.density (w.gen - w.gen0) / 65536
  let lo := npos * c.dMin / 65536
  let hi := npos * c.dMax / 65536
  let cl := min (max raw lo) hi
  let ntgt := min cl ncap
  let ncur := cur.count
  let cs := firstCands d.cols cur pend (tableCands m table n)
  let ms := w.maskGrads m cur
  let a := (f32div (squareSum (cs.map Prod.snd)).hi (f32ofNat cs.length)).1
  let b := (f32div (squareSum (ms.map Prod.snd)).hi (f32ofNat ms.length)).1
  let one := cs.isEmpty || ms.isEmpty || isZero32 b
  let rho := if one then f32one else (f32div a b).1
  let f := f32min (f32max (f32mul c.f0 (f32min rho c.rhoCap)).1 c.fLo) c.fHi
  let fq := if (val32 f).isFinite then ((val32 f).mul (FVal.ofInt 65536)).floor.toNat else free
  let churn := ncur * fq / 65536
  let delta : Int := (ntgt : Int) - (ncur : Int)
  let g0 := ((churn : Int) + max 0 delta).toNat
  let g := min g0 c.gMax
  let p0 := (max 0 ((g : Int) - delta)).toNat
  let p := min p0 c.pMax
  ⟨p, g, bnat (cl != raw) + 2 * bnat (ntgt != cl) + 4 * bnat (g != g0) + 8 * bnat (p != p0) + 16 * bnat one, rho, fq, ntgt⟩

/-! ### MCOMMIT (R128) -/

/-- A plane tile of new slots: kept positions take their old slot's value, others zero (step 3 of R128). -/
def remap (old : List Nat) (k : Nat) (cur pend : List (List Nat)) : List Nat :=
  (pend.zip cur).zipIdx.flatMap (fun ((ps, cs), n) =>
    ps.map (fun o => match slotOf cs o with
      | some i => old.getD (n * k + i) 0
      | none => 0) ++ List.replicate (k - ps.length) 0)

/-- Writes of steps 3 to 5 for one tile, with the saturations of step 4. -/
def Weight.commitTile (w : Weight) (m : Cells) (wc tag : Nat) (t : TileRef) : List (Nat × List Byte) × Nat :=
  let d := w.dir m
  let n := 1024 * d.capK
  let cur := maskOf m w.curMask t.e
  let pend := maskOf m w.otherMask t.e
  let planes := w.planes.map (fun (b, wd) => (b + t.e * n * wd, wd, remap (planeTile m b t.e n wd) d.capK cur pend))
  let masters := ((planes.headD (0, 4, [])).2.2).map (masterVal w.dw32)
  let (tile, sat) := (w.regenArgs m wc tag (w.gen + 1)).tile t.r t.col d.cols d.capK pend masters
  (planes.map (fun (a, wd, vs) => (a, vs.flatMap (leBytes wd))) ++ [(entryAddr m wc t.e, tile), (w.grad + t.e * 4096 * d.capK, zeros (4096 * d.capK))], sat)

/-- Whether step 1 of R128 is over: no update of the weight in flight, its buffer ready with the tag. -/
def State.commitReady (s : State) (wt tag : Nat) : Bool :=
  s.arrays.all (fun a => a.deferred.all (fun d => d.wt != wt) && a.ops.all (fun o => match o.body with
    | .upd w _ _ _ _ _ _ => w != wt
    | .uverOpen w _ _ => w != wt
    | .uverClose w => w != wt
    | _ => true)) &&
  (s.weight? wt).any (fun w => (w.bufWith .ready (BitVec.ofNat 32 tag)).isSome)

/-- Step 2 of R128: dirty staged tiles of the part are written back and their staged copies are invalidated (R231). -/
def State.unstageWeight (s : State) (w : Weight) : State :=
  let objs := (w.part s.mem).map (fun t => (w.tileObj s.mem t.e).obj)
  let mine := s.tiers.staged.filter (fun t => objs.contains t.obj)
  let s := s.bump64 Reg.TIR_WRITEBACK (mine.filter (·.dirty)).length
  { s with tiers := { s.tiers with staged := s.tiers.staged.filter (fun t => !objs.contains t.obj) } }

/-! ### Reports (R137, R138) -/

/-- Whether the report ring exists. -/
def State.reportRing (s : State) : Bool :=
  let n := s.regN Reg.MSK_REPORT_SIZE
  let b := s.reg64 Reg.MSK_REPORT_BASE
  [16, 32, 64, 128, 256, 512, 1024, 2048, 4096, 8192, 16384, 32768, 65536].contains n && b % 64 == 0 &&
    s.tiers.regions.any (fun r => r.permits b (64 * n) 2 .write false && r.permits b (64 * n) hostUser .read false)

/-- The 64 bytes of a report record. Flag bit 8 is set exactly when no decision stands, so not when an operation gave its own count beside one (DESIGN CHOICE, log 88). -/
def Weight.report (w : Weight) (wt : Nat) (adopt : Bool) (step before after : Nat) : List Byte :=
  let d := w.decision
  let flags := (d.map (·.flags)).getD 0 + 32 * bnat (w.gDone < w.gReq) + 64 * bnat w.nonfinite + 128 * bnat (w.pDone < w.pReq) +
    256 * bnat (d.isNone && !adopt) + 512 * bnat adopt
  leBytes 2 wt ++ leBytes 2 flags ++ leBytes 4 (w.gen + 1) ++ leBytes 8 step ++ leBytes 8 before ++ leBytes 8 ((d.map (·.ntgt)).getD 0) ++
    leBytes 8 after ++ leBytes 4 ((d.map (·.rho.toNat)).getD 0) ++ leBytes 4 ((d.map (·.fq)).getD 0) ++ leBytes 4 w.pReq ++ leBytes 4 w.pDone ++
    leBytes 4 w.gReq ++ leBytes 4 w.gDone

/-- Writes a record into the ring, or discards it. -/
def State.putReport (s : State) (rec_ : List Byte) : State :=
  let head := s.regN Reg.MSK_REPORT_HEAD
  let n := s.regN Reg.MSK_REPORT_SIZE
  let s1 := if s.reportRing then
      let s := s.putMem (s.reg64 Reg.MSK_REPORT_BASE + 64 * (head % n)) rec_
      if n ≤ head then (s.bump Reg.MSK_REPORT_LOST 1).setBits Reg.MSK_STATUS 4 else s
    else (s.bump Reg.MSK_REPORT_LOST 1).setBits Reg.MSK_STATUS 4
  (s1.bump Reg.MSK_REPORT_HEAD 1).bump Reg.MSK_COMMITS 1

/-! ### MASK_OP_COMPLETE (R121 to R133) -/

/-- A result of a mask operation: memory writes, then the change of the weight table and counters. -/
structure MaskResult where
  writes : List (Nat × List Byte)
  after : State → State

/-- Puts an entry into the weight table at its index. -/
def putWeight : List (Nat × Weight) → Nat → Weight → List (Nat × Weight)
  | [], k, w => [(k, w)]
  | (j, x) :: r, k, w => if k < j then (k, w) :: (j, x) :: r else if k = j then (k, w) :: r else (j, x) :: putWeight r k w

/-- MBIND enters the weight: wc_0 ready with its first tile's tag, wc_1 free (R115, R118, R154). -/
def State.bindResult (s : State) (op : MaskOp) (a : Nat) : MaskResult :=
  let b := bindAt s.mem a
  let d := dirAt s.mem b.w.wc0
  let h := tileHdr s.mem (d.payload + (d.entry s.mem 0).2)
  let v : VBuf := if d.present == 0 then ⟨.ready, BitVec.ofNat 32 op.step, b.w.gen⟩ else ⟨.ready, BitVec.ofNat 32 h.tag, h.gen⟩
  ⟨[], fun t => { t with mask := { t.mask with weights := putWeight t.mask.weights b.wt { b.w with v0 := v } } }⟩

/-- The count of a PRUNE.L or REGROW that takes MDEC's decision; with no decision the spec states none: a free value (log 23). -/
def State.takeCount (s : State) (imm decided : Option Nat) : Nat := (imm.orElse (fun _ => decided)).getD s.freeWord.toNat

/-- What a mask operation does when it completes (R122 to R130). -/
def State.maskResult (s : State) (op : MaskOp) : MaskResult :=
  let m := s.mem
  match op.kind with
  | .bind a => s.bindResult op a
  | k =>
    match s.weight? k.wt with
    | none => ⟨[], id⟩
    | some w =>
      let d := w.dir m
      let cur := w.masks m w.curMask
      let pend := w.masks m w.otherMask
      match k with
      | .bind _ => ⟨[], id⟩
      | .mdec wt n t =>
        let dec := w.decide_ m t n s.freeWord.toNat
        ⟨[], fun s => (s.used 1).modWeight wt (fun w => { w with decision := some dec })⟩
      | .pruneG wt t =>
        let (p, n) := pend.prune t (16384 * pend.length) (sortBy Ranked.asc (w.pruneRanks m pend))
        ⟨p.writes m w.otherMask, fun s => s.modWeight wt (fun w => { w with pReq := w.pReq + n, pDone := w.pDone + n })⟩
      | .pruneL wt h imm =>
        let lim := s.takeCount imm (w.decision.map (·.pReq))
        let (p, n) := pend.prune h lim (sortBy Ranked.asc (w.pruneRanks m pend))
        ⟨p.writes m w.otherMask, fun s => (s.used 1).modWeight wt (fun w => { w with pReq := w.pReq + lim, pDone := w.pDone + n })⟩
      | .regrowM wt t c imm =>
        let lim := s.takeCount imm (w.decision.map (·.gReq))
        let cs := tableCands m t c
        let (p, n) := pend.regrow d.capK d.capN lim (sortBy Ranked.desc (rankCands d.cols cur pend cs))
        ⟨p.writes m w.otherMask, fun s => (s.used 1).modWeight wt (fun w =>
          { w with gReq := w.gReq + lim, gDone := w.gDone + n, nonfinite := w.nonfinite || anyNonfinite cs })⟩
      | .regrowR wt seed imm =>
        let lim := s.takeCount imm (w.decision.map (·.gReq))
        let (p, n) := pend.regrow d.capK d.capN lim (sortBy Ranked.desc (rankAll d.cols seed s.stp.step cur pend))
        ⟨p.writes m w.otherMask, fun s => (s.used 1).modWeight wt (fun w => { w with gReq := w.gReq + lim, gDone := w.gDone + n })⟩
      | .commit wt tag =>
        let b := (w.bufWith .writing (BitVec.ofNat 32 tag)).getD false
        let ts := (w.part m).map (w.commitTile m (w.bufAddr b) tag)
        ⟨ts.flatMap Prod.fst ++ [(w.otherMask, leBytes 4 (memNat m w.otherMask 4 ||| 2 ^ 23))], fun s =>
          let s := (s.bump Reg.MSK_CVT_SAT (ts.map Prod.snd).sum).modWeight wt (fun w =>
            { w.modBuf b (fun v => { v with st := .ready, gen := w.gen + 1 }) with st := .committed, gradGen := w.gen + 1 })
          let s := if w.pDone < w.pReq || w.gDone < w.gReq then s.bump Reg.MSK_SHORTFALL 1 else s
          s.putReport (w.report wt false (s.stp.step + 1) cur.count pend.count)⟩
      | .adopt wt _ =>
        ⟨(w.part m).map (fun t => (w.grad + t.e * 4096 * d.capK, zeros (4096 * d.capK))) ++ [(w.otherMask, leBytes 4 (memNat m w.otherMask 4 ||| 2 ^ 23))],
          fun s => (s.modWeight wt (fun w => { w with st := .committed, gradGen := w.gen + 1 })).putReport
            (({ w with decision := none, pReq := 0, pDone := 0, gReq := 0, gDone := 0, nonfinite := false } : Weight).report wt true (s.stp.step + 1) cur.count pend.count)⟩

/-- An MCOMMIT that meets an uncorrectable word has begun step 3: its planes, the gradient planes among them, are undefined and the weight is FAULTED (R115, R136). -/
def State.spoilWeight (s : State) (k : MaskKind) : State :=
  match k, s.weight? k.wt with
  | .commit wt _, some w =>
    let n := w.slots s.mem
    let rs := (w.part s.mem).flatMap (fun t => (w.planes ++ [(w.grad, 4)]).map (fun (p : Nat × Nat) => (p.1 + t.e * n * p.2, n * p.2)))
    (rs.foldl (fun (s : State) r => (s.putMem r.1 (s.freeBytes r.2)).used r.2) s).modWeight wt (fun w => { w with st := .faulted })
  | _, _ => s

/-- The engine is idle: its operation has left it. -/
def State.endMask (s : State) : State := { s with mask := { s.mask with running := none } }

/-- Whether a stopped module has no update of the weight left that could end an MCOMMIT's wait (R128, R203). -/
def State.commitLost (s : State) (wt : Nat) : Bool :=
  s.flt.stopped && s.arrays.all (fun a => a.ops.all (fun o => match o.body with
    | .upd w _ _ _ _ _ _ => w != wt
    | .uverClose w => w != wt
    | _ => true))

/-- An MCOMMIT that waits begins when its wait is over: staged copies of its tiles are dropped and the buffer it regenerates is writing (R128, R149). A stopped module whose update has failed ends the wait with STATE_TIMEOUT (R203). -/
def State.beginCommit (s : State) (op : MaskOp) (wt tag : Nat) : State :=
  if s.commitReady wt tag then
    match s.weight? wt with
    | some w =>
      let b := (w.bufWith .ready (BitVec.ofNat 32 tag)).getD false
      let t := (s.unstageWeight w).modWeight wt (fun w => w.modBuf b (fun v => { v with st := .writing }))
      { t with mask := { t.mask with running := some (op, s.cycle + s.maskTime op.kind, false) } }
    | none => s
  else if s.commitLost wt then s.endMask.maskFault op ⟨0x31, 0, 0, 0xFFFF, 0xFFFF, 0⟩
  else s

/-- The wait of an operation for a codec lane, counted once (R65, R131). -/
def State.stallMask (s : State) (op : MaskOp) (at_ : Nat) : State :=
  if op.stalled then s
  else (({ s with mask := { s.mask with running := some ({ op with stalled := true }, at_, false) } } : State)).bump Reg.DMA_CODEC_WAIT 1

/-- The time of an operation is over: its reads and the blocks that its writes merge into are checked and corrected, and its writes land all at once (R131, R136, R209, R216, R217). -/
def State.finishMask (s : State) (op : MaskOp) (at_ : Nat) : State :=
  let reads := s.maskReads op.kind
  let res := s.maskResult op
  if s.maskHeld reads (spans res.writes) then s.stallMask op at_
  else
    let c := s.corrected reads
    match (s.eccRanges reads).orElse (fun _ => s.mergeBad (spans res.writes)) with
    | some (code, bad) => (c.endMask.spoilWeight op.kind).maskFault op ⟨code, 0, bad, 0xFFFF, 0xFFFF, 0⟩
    | none => c.journaled op.step (spans res.writes) (fun s => res.after (s.putAll res.writes).endMask)

/-- MASK_OP_COMPLETE: the running operation finishes and retires; an MCOMMIT whose wait is over begins (R128, R132, R133). -/
def execMaskOpComplete (s : State) : Host.Outcome State Fault Refusal :=
  match s.mask.running with
  | none => .next s
  | some (op, at_, waiting) =>
    match waiting, op.kind with
    | true, .commit wt tag => .next (s.beginCommit op wt tag)
    | _, _ => if s.cycle < at_ then .next s else .next (s.finishMask op at_)

end Sys2Proof.Machine
end

