-- ==== Sys2Proof/Machine/Reduce.lean ====
section
/-! DEFINITION. RED.SUM, RED.MAX and RED.MIN (R105 to R109, R299). -/

namespace Sys2Proof.Machine

/-- Opcode of a reduction kind: 0 SUM, 1 MAX, 2 MIN. -/
def redOpcode (kind : Nat) : Nat := 0x28 + kind

/-- Units of a reduction's tile (R111). -/
def redUnits (kind : Nat) (b : BodyP) : Nat := if kind != 0 || b.dw32 then 2 else 1

/-- Total format of a reduction's tile (R103). -/
def redFormat (kind : Nat) (b : BodyP) : Nat := if kind == 0 && b.dw32 then 10 else 0

/-- Operand ranges of a reduction with their accesses. -/
def State.redRanges (s : State) (h : Head) (kind : Nat) (b : BodyP) (r : RedRec) : List (Access × Nat × Nat) :=
  let c := s.ctx h.arr h.stream
  [(Access.read, c.oref r.src, operandSpan (fmtOf r.src.format.toNat) r.srcStride.toNat 128 r.e.toNat)] ++
  (if b.emit && !b.fused then [(Access.write, c.oref r.out, operandSpan (fmtOf r.out.format.toNat) r.outStride.toNat 128 128)] else []) ++
  (if b.emit && kind != 0 then [(Access.write, c.oref r.out2, operandSpan .fp32 r.outStride.toNat 128 128)] else [])

/-- Issue checks of RED (R105, R112, R296, R299). -/
def State.redCheck (s : State) (h : Head) (kind : Nat) (b : BodyP) (r : RedRec) : Option CheckFail :=
  firstFail [
    failIf (r.e.toNat == 0 || r.e.toNat % 128 != 0) 0x23 1,
    failIf (runCode h != 0 || 10 ≤ r.src.format.toNat || r.src.kind != 0#2 ||
      (b.emit && !b.fused && (r.out.kind != 0#2 || !vecOut r.out.format.toNat)) || (b.emit && kind != 0 && r.out2.kind != 0#2)) 0x24 2,
    ((s.arr h.arr).accCheck h.stream b.accBase.toNat (redUnits kind b) (redUnits kind b == 2) b.accInit (redFormat kind b) kind).map
      (fun c => ⟨c, 9, 0⟩),
    (s.badPad h (s.redRanges h kind b r)).map (fun x => ⟨0x10, 10, x⟩)]

/-- The reduction an issued RED starts. -/
def State.mkRed (s : State) (h : Head) (kind : Nat) (b : BodyP) (r : RedRec) : RedOp :=
  let c := s.ctx h.arr h.stream
  { kind := kind, src := c.oref r.src, srcStride := r.srcStride.toNat, srcFmt := r.src.format.toNat, srcAxis := r.src.mxAxis, e := r.e.toNat,
    col := r.c.toNat, idxBase := r.idxBase.toNat, runLen := runLen (h.mod.toNat % 4), accBase := b.accBase.toNat, dw32 := kind == 0 && b.dw32,
    accInit := b.accInit, emit := b.emit, fused := b.fused, out := c.oref r.out, outFmt := r.out.format.toNat, outStride := r.outStride.toNat,
    outAxis := r.out.mxAxis, out2 := c.oref r.out2, out2Stride := r.outStride.toNat, sr := r.sr,
    sIdx := (c.sreg r.idxReg.toNat).toNat % 2 ^ 48, idxPitch := r.idxPitch.toNat, seed := (c.sreg r.seedReg.toNat).toNat }

/-- What issue needs to know of a RED. -/
def State.redInfo (s : State) (h : Head) (kind : Nat) (b : BodyP) (r : RedRec) : IssueInfo :=
  let us := (List.range (redUnits kind b)).map (· + b.accBase.toNat)
  let wants := s.unstaged h.arr (s.operandObjs ((s.redRanges h kind b r).map Prod.snd))
  { IssueInfo.simple (redOpcode kind) (if b.emit && !b.fused && r.sr then [r.idxReg.toNat, r.seedReg.toNat] else []) with
    modOk := runCode h != 3 && h.mod.toNat % 4 != 3
    decodeBad := if s.fusedOk h (b.emit && b.fused) && !(b.emit && b.fused && kind != 0) then none else some 0
    formatRows := [2]
    needSlot := true
    record := some (b.recRef, 64)
    hold := if (s.arr h.arr).unitsHeld s.cycle us then some .acc
      else if !wants.isEmpty && (s.window h.arr).isSome then some .staging else none
    units := us
    check := (firstFail [s.redCheck h kind b r, s.windowCheck h.arr wants 10]).map (s.checkFault h (redOpcode kind) 0xFFFF)
    wants := wants }

/-- The effect of issuing a RED: ownership, starting values when RED.SUM takes a fresh tile, its fused entry (R97, R108, R113, R175). -/
def State.startRed (s0 s : State) (h : Head) (kind : Nat) (b : BodyP) (r : RedRec) (slot : Nat) : State :=
  let p := s0.mkRed h kind b r
  let us := (List.range (redUnits kind b)).map (· + b.accBase.toNat)
  let two := redUnits kind b == 2
  let objs := s0.operandObjs ((s0.redRanges h kind b r).map Prod.snd)
  let s := s.modArr h.arr (fun a =>
    let a := a.own [b.accBase.toNat] two (redFormat kind b) kind slot h.stream b.accInit
    if kind == 0 && !b.accInit then us.foldl (fun (a : ArrayState) u => a.setUnit u []) a else a)
  let s := if b.emit && b.fused then s.modCtx h.arr h.stream (fun c => { c with fusedMade := c.fusedMade + 1 }) else s
  let s := s.recordUses h.arr objs
  s.addOp h.arr { s0.newOp h (redOpcode kind) slot 0xFFFF (s0.cycle + s0.lat 0x08 + p.e) (.red p) with units := us, objs := objs.map (·.obj) }

/-- The three reductions share issue. -/
def State.issueRed (s : State) (h : Head) (kind : Nat) (b : BodyP) (r : RedRec) : Host.Outcome State Fault Refusal :=
  issue h (s.redInfo h kind b r) (fun slot t => s.startRed t h kind b r slot) s

/-- RED.SUM (R106). -/
def execRedSum (h : Head) (b : BodyP) (r : RedRec) (s : State) : Host.Outcome State Fault Refusal := s.issueRed h 0 b r

/-- RED.MAX (R107, R108). -/
def execRedMax (h : Head) (b : BodyP) (r : RedRec) (s : State) : Host.Outcome State Fault Refusal := s.issueRed h 1 b r

/-- RED.MIN (R107, R108). -/
def execRedMin (h : Head) (b : BodyP) (r : RedRec) (s : State) : Host.Outcome State Fault Refusal := s.issueRed h 2 b r

/-- The FP32 words of the 128 source rows, along E. -/
def RedOp.rows (p : RedOp) (m : Cells) : List (List W32) :=
  let tiles := (List.range (p.e / 128)).map (fun j => wordTile m p.src p.srcStride (fmtOf p.srcFmt) p.srcAxis 0 j)
  (List.range 128).map (fun i => tiles.flatMap (fun t => t.getD i []))

/-- Elements of the source whose conversion to FP32 saturates (R31, R105). -/
def RedOp.inSats (p : RedOp) (m : Cells) : Nat :=
  ((List.range (p.e / 128)).map (fun j => tileInSats m p.src p.srcStride (fmtOf p.srcFmt) p.srcAxis 0 j)).sum

/-- One sum: the element with the row's terms, its last run promoted (R106). -/
def RedOp.sumRow (p : RedOp) (hi lo : W32) (row : List W32) : Elem :=
  (Elem.terms 0 p.runLen p.dw32 ⟨hi, lo, none, 0⟩ (row.zipIdx.map (fun (w, e) => (e, val32 w)))).promote p.dw32

/-- Rank of a word in a reduction's order (R107). -/
def redRank (kind : Nat) (w : W32) : Int := if kind == 1 then maxRank w else minRank w

/-- The better of two candidates: higher rank, then lower index (R107). Indices are the 32-bit words that a tile stores: where idx_base + e passes 2³² the spec names no order, and the wrapped words are compared (DESIGN CHOICE, log 82). -/
def redBetter (kind : Nat) (x y : W32 × Nat) : W32 × Nat :=
  if redRank kind x.1 < redRank kind y.1 || (redRank kind x.1 == redRank kind y.1 && y.2 < x.2) then y else x

/-- The starting pair of a fresh column (R108). -/
def redStart (kind : Nat) : W32 × Nat := (if kind == 1 then 0xFF800000#32 else 0x7F800000#32, 0xFFFFFFFF)

/-- The winner of a row against a starting pair, its value canonical when a NaN (R107, R108). -/
def RedOp.winRow (p : RedOp) (start : W32 × Nat) (row : List W32) : W32 × Nat :=
  let w := row.zipIdx.foldl (fun b (w, e) => redBetter p.kind b (w, (p.idxBase + e) % 2 ^ 32)) start
  (canon32 w.1, w.2)

/-- The tile after the reduction, with the flags raised (R106 to R108). -/
def RedOp.apply (p : RedOp) (m : Cells) (a : ArrayState) : ArrayState :=
  let lo := a.unit p.accBase
  let hi := if p.kind != 0 || p.dw32 then a.unit (p.accBase + 1) else []
  let idx := fun i => i * 128 + p.col
  if p.kind == 0 then
    let es := (p.rows m).zipIdx.map (fun (r, i) => p.sumRow (lo.getD (idx i) 0) (hi.getD (idx i) 0) r)
    let a := a.setUnit p.accBase (es.zipIdx.foldl (fun l (e, i) => l.set (idx i) e.hi) lo)
    let a := if p.dw32 then a.setUnit (p.accBase + 1) (es.zipIdx.foldl (fun l (e, i) => l.set (idx i) e.lo) hi) else a
    a.flagTile p.accBase p.dw32 (flagsOf es)
  else
    let ws := (p.rows m).zipIdx.map (fun (r, i) =>
      p.winRow (if p.accInit then (lo.getD (idx i) 0, (hi.getD (idx i) 0).toNat) else redStart p.kind) r)
    let a := a.setUnit p.accBase (ws.zipIdx.foldl (fun l (w, i) => l.set (idx i) w.1) lo)
    let a := a.setUnit (p.accBase + 1) (ws.zipIdx.foldl (fun l (w, i) => l.set (idx i) (BitVec.ofNat 32 w.2)) hi)
    a.flagTile p.accBase true (if ws.any (fun w => !(val32 w.1).isFinite) then 8 else 0)

/-- The queue entries of an emitting reduction: the value plane, then the index plane of MAX and MIN (R109, R174). -/
def RedOp.entries (p : RedOp) (o : Op) (a : ArrayState) (now : Nat) : List QEntry :=
  let e : QEntry :=
    { stream := o.stream, slot := o.slot, op := o.seq, fused := p.fused, index := false, tile := a.unit p.accBase, tsw := a.tswAt p.accBase,
      addr := p.out, fmt := p.outFmt, stride := p.outStride, axis := p.outAxis, sr := p.sr, idx := p.sIdx, idxPitch := p.idxPitch, seed := p.seed,
      due := o.due, step := o.step, last := p.kind == 0, stalled := false, seqNo := 0, readyAt := now }
  if p.kind == 0 then [e]
  else [e, { e with fused := false, index := true, tile := a.unit (p.accBase + 1), addr := p.out2, stride := p.out2Stride, sr := false, last := true }]

/-- Byte ranges a reduction reads: its source rows, and its tile where it starts from it or sends it on (R97, R109, R209). -/
def RedOp.reads (p : RedOp) (arr : Nat) (units : List Nat) : List (Nat × Nat) :=
  (List.range (p.e / 128)).flatMap (fun j => tileRanges p.src p.srcStride (fmtOf p.srcFmt) 0 j) ++
    (if p.accInit || p.emit then accRanges arr units else [])

/-- RED_RETIRE: a reduction finishes reading its elements and retires, or emits its tile and retires when the last entry is in the queue. Its tile becomes final now, with emit = 0 too (DESIGN CHOICE, log 83). A source element above the FP32 range saturates and counts with the vector engine, whose formats the source has (R31, R33, R105; DESIGN CHOICE, log 83). -/
def execRedRetire (arr slot : Nat) (s : State) : Host.Outcome State Fault Refusal :=
  match s.op? arr slot with
  | some o =>
    match o.body with
    | .red p =>
      if s.cycle < o.readyAt || (s.arr arr).waiting.any (fun q => q.op == o.seq) then .next s
      else
        let c := s.corrected (p.reads arr o.units) arr
        match s.eccRanges (p.reads arr o.units) arr with
        | some (code, bad) => .next (((c.dropOp arr slot).spoilUnits arr o.units).raise (c.opFault o arr code 0 bad))
        | none =>
          let t := ((c.bumpArr arr Reg.ARR_VEC_CVT_SAT (p.inSats c.mem)).modArr arr (p.apply c.mem)).countFinal arr p.accBase
          if p.emit then
            .next (t.enqueueFinal arr (p.entries o (t.arr arr) s.cycle))
          else .next (t.retireOp arr o)
    | _ => .next s
  | none => .next s

end Sys2Proof.Machine
end

