-- ==== Sys2Proof/Machine/Vector.lean ====
section
/-! DEFINITION. The vector engine: element-wise instructions, passes, drains, function tables, queue overflow (R146 to R148, R164 to R184). -/

namespace Sys2Proof.Machine

/-! ### Function tables (R180 to R183) -/

/-- Bit [31:24] and further fields of a table image; none when a field has a value that R181 does not list. -/
def parseTable (ws : List W32) : Option TableHalf :=
  let w0 := (ws.getD 0 0).toNat
  let mode := bits w0 23 22
  let sym := bits w0 21 20
  let n := bits w0 8 0
  let lo := ws.getD 1 0
  let inv := ws.getD 2 0
  let eLo := bits lo.toNat 7 0
  let log2m := bits inv.toNat 2 0
  let uniform := mode == 0 && (val32 inv).isFinite && !(val32 inv).neg && !isZero32 inv
  let expo := mode == 1 && sym < 3 && (eLo < 128 || 130 ≤ eLo) && log2m ≤ 6 && 2 ^ log2m ≤ n
  if bits w0 31 24 == 1 && [16, 32, 64, 128, 256].contains n && (uniform || expo) then
    some ⟨mode, sym, n, lo, inv, ws.getD 3 0, ws.getD 4 0, ws.getD 5 0, ws.getD 6 0,
      (List.range n).map (fun i => (ws.getD (8 + 4 * i) 0, ws.getD (9 + 4 * i) 0, ws.getD (10 + 4 * i) 0))⟩
  else none

/-- An FP32 result with the number of its saturations so far. -/
abbrev Sat := W32 × Nat

/-- Counts a saturation. -/
def satAdd (n : Nat) (r : W32 × Bool) : Sat := (r.1, n + bnat r.2)

/-- a + b · x for the out-of-range regions; a slope of zero gives the constant (R182). -/
def tableOut (a b x : W32) : Sat :=
  if isZero32 b then (a, 0)
  else
    let p := satAdd 0 (f32mul b x)
    satAdd p.2 (f32add a p.1)

/-- c2 · f + c1, times f, plus c0 (R182). -/
def tableIn (t : TableHalf) (i : Nat) (f : W32) : Sat :=
  let (c0, c1, c2) := t.segs.getD i (0, 0, 0)
  let y := satAdd 0 (f32mul c2 f)
  let y := satAdd y.2 (f32add y.1 c1)
  let y := satAdd y.2 (f32mul y.1 f)
  satAdd y.2 (f32add y.1 c0)

/-- Uniform mode of R182. -/
def tableUniform (t : TableHalf) (x : W32) : Sat :=
  let (dx, s1) := f32sub x t.lo
  let below := FVal.lt (val32 dx) FVal.zero
  if below then
    let r := tableOut t.aLo t.bLo x
    (r.1, r.2 + bnat s1)
  else
    let (u, s2) := f32mul dx t.invW
    let n := bnat s1 + bnat s2
    let v := val32 u
    if v == .inf false || FVal.le (FVal.ofInt t.n) v then
      let r := tableOut t.aHi t.bHi x
      (r.1, r.2 + n)
    else
      let i := v.floor.toNat
      let r := tableIn t i (rne32 (v.sub (FVal.ofInt i))).1
      (r.1, r.2 + n)

/-- Exponent mode of R182: in range on the magnitude v of x, out of range on x itself (log 76). -/
def tableExponent (t : TableHalf) (x : W32) : Sat :=
  let s := x.toNat / 2 ^ 31 == 1
  let v := BitVec.ofNat 32 (x.toNat % 2 ^ 31)
  let ex : Nat := v.toNat / 2 ^ 23
  let eLo : Int := if bits t.lo.toNat 7 0 < 128 then (bits t.lo.toNat 7 0 : Int) else (bits t.lo.toNat 7 0 : Int) - 256
  let lm := bits t.invW.toNat 2 0
  let e : Int := (ex : Int) - 127
  let i : Int := (e - eLo) * ((2 ^ lm : Nat) : Int) + ((v.toNat % 2 ^ 23 / 2 ^ (23 - lm) : Nat) : Int)
  let y :=
    if s && t.sym == 0 then tableOut t.aLo t.bLo x
    else if ex == 0 then tableOut t.aLo t.bLo x
    else if ex == 255 then tableOut t.aHi t.bHi x
    else if e < eLo then tableOut t.aLo t.bLo x
    else if (t.n : Int) ≤ i then tableOut t.aHi t.bHi x
    else tableIn t i.toNat (rne32 (.fin false (v.toNat % 2 ^ (23 - lm)) (-((23 - lm : Nat) : Int)))).1
  if s && t.sym == 1 then (f32neg y.1, y.2) else y

/-- f(x) from a table half (R182). -/
def tableEval (t : TableHalf) (x : W32) : Sat :=
  match val32 x with
  | .nan => (canon32 x, 0)
  | _ => if t.mode == 0 then tableUniform t x else tableExponent t x

/-! ### Operations (R146, R167) -/

/-- Sources an operation reads: a only, a and b, or a, b and c (R167). -/
def vecSources (opcode : Nat) : Nat :=
  if opcode == 0x33 then 3 else if opcode ≤ 0x35 || opcode == 0x3A then 2 else 1

/-- Whether an operation allows 16-bit mode (R167). -/
def vec16 (opcode : Nat) : Bool := opcode != 0x33 && opcode < 0x39

/-- One element of an operation, with its saturations (R166, R167, R182, R146). `t` is the half the operation uses. -/
def vecElem (opcode : Nat) (t : Option TableHalf) (a b c : W32) : Sat :=
  match opcode with
  | 0x30 => satAdd 0 (f32add a b)
  | 0x31 => satAdd 0 (f32sub a b)
  | 0x32 => satAdd 0 (f32mul a b)
  | 0x33 => satAdd 0 (f32fma a b c)
  | 0x34 => (f32max a b, 0)
  | 0x35 => (f32min a b, 0)
  | 0x36 => (f32abs a, 0)
  | 0x37 => (f32neg a, 0)
  | 0x38 => (a, 0)
  | 0x39 => (t.map (fun t => tableEval t a)).getD (a, 0)
  | _ =>
    let y := (t.map (fun t => tableEval t b)).getD (b, 0)
    satAdd y.2 (f32mul a y.1)

/-! ### Issue (R164 to R169, R174, R175, R184) -/

/-- Whether the ORef of a scratchpad source or destination is a stride-zero MX operand (R169). -/
def mxStrideZero (r : ORef) (stride : BitVec 32) : Bool :=
  ((fmtOf r.format.toNat).mx && r.kind == 0#2) && (r.colZero || stride == 0#32)

/-- The sources of a vector instruction that it reads: ORef, stride, and whether it is a. -/
def vecRefs (opcode : Nat) (r : VecRec) : List (ORef × BitVec 32 × Bool) :=
  [(r.a, r.aStride, true), (r.b, r.bStride, false), (r.c, r.cStride, false)].take (vecSources opcode)

/-- Bytes from the base of a scratchpad source to its end, under the strides of R169. -/
def sourceSpan (r : ORef) (stride rows cols : Nat) : Nat :=
  let f := fmtOf r.format.toNat
  if f.mx then operandSpan f stride rows cols
  else (if stride == 0 then 0 else (rows - 1) * stride) + (if r.colZero then f.bits / 8 else valueBytes f cols)

/-- Scratchpad ranges of a vector instruction with their accesses. -/
def State.vecRanges (s : State) (h : Head) (opcode : Nat) (r : VecRec) : List (Access × Nat × Nat) :=
  let c := s.ctx h.arr h.stream
  let rows := r.rows.toNat
  let cols := r.cols.toNat
  (vecRefs opcode r).filterMap (fun (x, st, _) => if x.kind == 0#2 then some (Access.read, c.oref x, sourceSpan x st.toNat rows cols) else none) ++
  [(Access.write, c.oref r.d, operandSpan (fmtOf r.d.format.toNat) r.dStride.toNat rows cols)] ++
  (if r.saveIn then [(Access.write, c.oref r.c, operandSpan .fp32 r.cStride.toNat rows cols)] else [])

/-- Passes of a vector instruction (R165). -/
def vecPasses (r : VecRec) : Nat := r.rows.toNat / 128 * (r.cols.toNat / 128)

/-- Whether the instruction takes its input from the queue. -/
def vecFused (r : VecRec) : Bool := r.a.kind == 1#2

/-- Whether the table half that VFN or VDER needs is loaded (R180). -/
def ArrayState.tableHalf (a : ArrayState) (opcode slot : Nat) : Option TableHalf :=
  let t := a.tables.getD slot ⟨none, none⟩
  if opcode == 0x39 then t.fwd else if opcode == 0x3A then t.der else none

/-- Whether a format code, a kind or a role of a vector instruction is not legal (row 1 of R184, as far as R20 raises it at decode). -/
def vecCodesBad (opcode : Nat) (r : VecRec) : Bool :=
  (vecRefs opcode r).any (fun (x, _, isA) =>
    x.kind == 3#2 || (x.kind != 2#2 && x.kind != 1#2 && 11 ≤ x.format.toNat) || (if isA then x.kind == 2#2 else x.kind == 1#2)) ||
  !vecOut r.d.format.toNat || r.d.kind != 0#2 || (r.saveIn && (opcode == 0x33 || r.c.kind != 0#2))

/-- Whether an operand in an MX format has a stride of zero: that faults at issue (R169). -/
def vecStridesBad (opcode : Nat) (r : VecRec) : Bool :=
  (vecRefs opcode r).any (fun (x, st, _) => mxStrideZero x st) || mxStrideZero r.d r.dStride

/-- Issue checks of a vector instruction (R184). -/
def State.vecCheck (s : State) (h : Head) (opcode : Nat) (r : VecRec) : Option CheckFail :=
  let c := s.ctx h.arr h.stream
  firstFail [
    failIf (vecCodesBad opcode r || vecStridesBad opcode r) 0x24 1,
    failIf (!s.fusedOk h (vecFused r)) 0x24 2,
    failIf (r.rows.toNat == 0 || r.rows.toNat % 128 != 0 || r.cols.toNat == 0 || r.cols.toNat % 128 != 0 ||
      ((vecFused r) && c.fusedMade < c.fusedClaimed + vecPasses r)) 0x23 3,
    failIf ((opcode == 0x39 || opcode == 0x3A) && ((s.arr h.arr).tableHalf opcode r.slot.toNat).isNone) 0x24 4,
    (s.badPad h (s.vecRanges h opcode r)).map (fun x => ⟨0x10, 5, x⟩)]

/-- Whether a VTLOAD of a table slot is in flight (R183). -/
def ArrayState.tableLoading (a : ArrayState) (slot : Nat) : Bool :=
  a.ops.any (fun o => o.table == some slot && (match o.body with
    | .vtload .. => true
    | _ => false))

/-- A resolved source. -/
def StreamCtx.vsource (c : StreamCtx) (x : ORef) (stride : BitVec 32) : VOperand :=
  ⟨x.kind.toNat, if x.kind == 2#2 then 0 else c.oref x, x.format.toNat, stride.toNat, x.colZero, x.mxAxis,
   if x.kind == 2#2 then (c.sreg (x.ofs.toNat % 32)).truncate 32 else 0⟩

/-- Scalar registers a vector instruction reads. -/
def vecRegs (opcode : Nat) (r : VecRec) : List Nat :=
  ((vecRefs opcode r).filter (fun x => x.1.kind == 2#2)).map (fun x => x.1.ofs.toNat % 32) ++
  (if r.sr then [r.idxReg.toNat, r.seedReg.toNat] else [])

/-- What issue needs to know of a vector instruction. -/
def State.vecInfo (s : State) (h : Head) (opcode : Nat) (b : BodyP) (r : VecRec) : IssueInfo :=
  let wants := s.unstaged h.arr (s.operandObjs ((s.vecRanges h opcode r).map Prod.snd))
  let table := opcode == 0x39 || opcode == 0x3A
  { IssueInfo.simple opcode (vecRegs opcode r) with
    formatRows := if vecCodesBad opcode r then [1, 2] else [2]
    needSlot := true
    record := some (b.recRef, 64)
    hold := if table && (s.arr h.arr).tableLoading r.slot.toNat then some .table
      else if !wants.isEmpty && (s.window h.arr).isSome then some .staging else none
    check := (firstFail [s.vecCheck h opcode r, s.windowCheck h.arr wants 5]).map (s.checkFault h opcode 0xFFFF)
    wants := wants }

/-- The effect of issuing a vector instruction: its slot, its claim on fused entries (R175), its uses. -/
def State.startVec (s0 s : State) (h : Head) (opcode : Nat) (r : VecRec) (slot : Nat) : State :=
  let c := s0.ctx h.arr h.stream
  let objs := s0.operandObjs ((s0.vecRanges h opcode r).map Prod.snd)
  let fused := (vecFused r)
  let v : VecOp :=
    { opcode := opcode, a := c.vsource r.a r.aStride, b := c.vsource r.b r.bStride, c := c.vsource r.c r.cStride,
      d := c.vsource r.d r.dStride, rows := r.rows.toNat, cols := r.cols.toNat, slot := r.slot.toNat, sr := r.sr, saveIn := r.saveIn,
      idxBase := (c.sreg r.idxReg.toNat).toNat % 2 ^ 48, idxPitch := r.idxPitch.toNat, seed := (c.sreg r.seedReg.toNat).toNat,
      claim := c.fusedClaimed, started := 0, readyAt := if fused then s0.cycle else s0.cycle + s0.lat 0x10 }
  let s := if fused then s.modCtx h.arr h.stream (fun c => { c with fusedClaimed := c.fusedClaimed + vecPasses r }) else s
  let s := s.recordUses h.arr objs
  s.addOp h.arr { s0.newOp h opcode slot 0xFFFF 0 (.vec v) with
    table := if opcode == 0x39 || opcode == 0x3A then some r.slot.toNat else none, objs := objs.map (·.obj) }

/-- The vector instructions share issue. -/
def State.issueVec (s : State) (opcode : Nat) (h : Head) (b : BodyP) (r : VecRec) : Host.Outcome State Fault Refusal :=
  issue h (s.vecInfo h opcode b r) (fun slot t => s.startVec t h opcode r slot) s

/-- VADD (R167). -/
def execVadd (h : Head) (b : BodyP) (r : VecRec) (s : State) : Host.Outcome State Fault Refusal := s.issueVec 0x30 h b r

/-- VSUB (R167). -/
def execVsub (h : Head) (b : BodyP) (r : VecRec) (s : State) : Host.Outcome State Fault Refusal := s.issueVec 0x31 h b r

/-- VMUL (R167). -/
def execVmul (h : Head) (b : BodyP) (r : VecRec) (s : State) : Host.Outcome State Fault Refusal := s.issueVec 0x32 h b r

/-- VFMA (R167). -/
def execVfma (h : Head) (b : BodyP) (r : VecRec) (s : State) : Host.Outcome State Fault Refusal := s.issueVec 0x33 h b r

/-- VMAX (R167). -/
def execVmax (h : Head) (b : BodyP) (r : VecRec) (s : State) : Host.Outcome State Fault Refusal := s.issueVec 0x34 h b r

/-- VMIN (R167). -/
def execVmin (h : Head) (b : BodyP) (r : VecRec) (s : State) : Host.Outcome State Fault Refusal := s.issueVec 0x35 h b r

/-- VABS (R167). -/
def execVabs (h : Head) (b : BodyP) (r : VecRec) (s : State) : Host.Outcome State Fault Refusal := s.issueVec 0x36 h b r

/-- VNEG (R167). -/
def execVneg (h : Head) (b : BodyP) (r : VecRec) (s : State) : Host.Outcome State Fault Refusal := s.issueVec 0x37 h b r

/-- VCVT (R167). -/
def execVcvt (h : Head) (b : BodyP) (r : VecRec) (s : State) : Host.Outcome State Fault Refusal := s.issueVec 0x38 h b r

/-- VFN (R167, R182). -/
def execVfn (h : Head) (b : BodyP) (r : VecRec) (s : State) : Host.Outcome State Fault Refusal := s.issueVec 0x39 h b r

/-- VDER (R146, R147). -/
def execVder (h : Head) (b : BodyP) (r : VecRec) (s : State) : Host.Outcome State Fault Refusal := s.issueVec 0x3A h b r

/-! ### Passes (R165, R168 to R172) -/

/-- Whether a source comes from the scratchpad. -/
def VOperand.inPad (o : VOperand) : Bool := o.kind == 0

/-- The words of one tile of a source (R165, R169). -/
def VOperand.words (o : VOperand) (m : Cells) (q : List W32) (ti tj : Nat) : List W32 :=
  if o.kind == 2 then List.replicate 16384 o.scalar
  else if o.kind == 1 then q
  else
    let f := fmtOf o.fmt
    if f.mx || (o.stride != 0 && !o.colZero) then (wordTile m o.addr o.stride f o.axis ti tj).flatten
    else
      let w := f.bits / 8
      let at_ := fun (i j : Nat) => o.addr + (if o.stride == 0 then 0 else (128 * ti + i) * o.stride) + (if o.colZero then 0 else (128 * tj + j) * w)
      (List.range 128).flatMap (fun i => (List.range 128).map (fun j => toFP32 f (memNat m (at_ i j) w) 0))

/-- Elements of one tile of a source whose conversion to FP32 saturates (R31, R33). -/
def VOperand.inSats (o : VOperand) (m : Cells) (ti tj : Nat) : Nat :=
  if o.kind != 0 then 0 else tileInSats m o.addr o.stride (fmtOf o.fmt) o.axis ti tj

/-- Byte ranges of one tile of a scratchpad source. -/
def VOperand.ranges (o : VOperand) (ti tj : Nat) : List (Nat × Nat) :=
  if o.kind != 0 then []
  else
    let f := fmtOf o.fmt
    if f.mx || (o.stride != 0 && !o.colZero) then tileRanges o.addr o.stride f ti tj
    else
      let w := f.bits / 8
      let row := fun (i : Nat) => o.addr + (if o.stride == 0 then 0 else (128 * ti + i) * o.stride) + (if o.colZero then 0 else 128 * tj * w)
      let n := if o.colZero then w else 128 * w
      if o.stride == 0 then [(row 0, n)] else (List.range 128).map (fun i => (row i, n))

/-- Bytes that a pass reads of a source (R169). -/
def VOperand.passBytes (o : VOperand) : Nat :=
  if o.kind != 0 then 0
  else
    let f := fmtOf o.fmt
    if f.mx then headerlessSize f
    else (if o.stride == 0 then 1 else 128) * (if o.colZero then 1 else 128) * (f.bits / 8)

/-- The sources the operation reads. -/
def VecOp.sources (v : VecOp) : List VOperand := [v.a, v.b, v.c].take (vecSources v.opcode)

/-- Tile of pass k. -/
def VecOp.tile (v : VecOp) (k : Nat) : Nat × Nat := (k / (v.cols / 128), k % (v.cols / 128))

/-- Passes of the instruction. -/
def VecOp.passes (v : VecOp) : Nat := v.rows / 128 * (v.cols / 128)

/-- Whether the operation runs in 16-bit mode (R168). -/
def VecOp.mode16 (v : VecOp) : Bool :=
  vec16 v.opcode && !v.saveIn && v.a.kind != 1 && (fmtOf v.d.fmt).half && v.sources.all (fun o => o.kind != 0 || (fmtOf o.fmt).half)

/-- t_pass (R170). -/
def VecOp.passTime (v : VecOp) : Nat :=
  let rb := (v.sources.map VOperand.passBytes).sum
  let wb := headerlessSize (fmtOf v.d.fmt) + (if v.saveIn then 65536 else 0)
  max (16384 / (if v.mode16 then 512 else 256)) (max (cdiv rb 2048) (max (cdiv wb 2048) (if v.a.kind == 1 then 64 else 0)))

/-- The results of one pass: writes and saturations of inputs, operation and outputs (R31, R33, R146, R148, R166). -/
def VecOp.compute (v : VecOp) (m : Cells) (a : ArrayState) (q : List W32) (step k : Nat) : List (Nat × List Byte) × Nat :=
  let (ti, tj) := v.tile k
  let t := a.tableHalf v.opcode v.slot
  let x := v.a.words m q ti tj
  let y := if 2 ≤ vecSources v.opcode then v.b.words m q ti tj else []
  let z := if vecSources v.opcode == 3 then v.c.words m q ti tj else []
  let res := x.zipIdx.map (fun (w, i) => vecElem v.opcode t w (y.getD i 0) (z.getD i 0))
  let (ws, sat) := tileWrites v.d.addr v.d.stride (fmtOf v.d.fmt) v.d.axis ⟨v.sr, v.seed, step, v.idxBase, v.idxPitch⟩ ti tj (asRows (res.map Prod.fst))
  let save := if v.saveIn then (tileWrites v.c.addr v.c.stride .fp32 false ⟨false, 0, 0, 0, 0⟩ ti tj (asRows x)).1 else []
  (ws ++ save, (v.sources.map (fun o => o.inSats m ti tj)).sum + sat + (res.map Prod.snd).sum)

/-- Whether two byte ranges share a 32-byte unit (R172). -/
def shareUnit (x y : Nat × Nat) : Bool := x.1 / 32 < (y.1 + y.2 + 31) / 32 && y.1 / 32 < (x.1 + x.2 + 31) / 32

/-- Whether the next pass of an operation must wait for a write that has not landed (R172). -/
def ArrayState.mustWait (a : ArrayState) (v : VecOp) : Bool :=
  let (ti, tj) := v.tile v.started
  let rs := v.sources.flatMap (fun o => o.ranges ti tj)
  a.landings.any (fun l => l.writes.any (fun w => rs.any (fun r => shareUnit r (w.1, w.2.length))))

/-- The queue entry that feeds the next pass of a fused operation (R175). -/
def ArrayState.feeding (a : ArrayState) (st : Stream) (v : VecOp) : Option QEntry :=
  a.queue.find? (fun q => q.stream == st && q.fused && !q.index && q.seqNo == v.claim + v.started)

/-- A pass or drain the engine could start: (cycle it became ready, rank among equals, entry or operation). -/
inductive PassChoice where
  | drain (at_ : Nat) (q : QEntry)
  | op (at_ : Nat) (o : Op) (v : VecOp)
  deriving DecidableEq, Repr

/-- The cycle in which a choice became ready. -/
def PassChoice.at_ : PassChoice → Nat
  | .drain a _ => a
  | .op a _ _ => a

/-- The passes that are ready, drains first in entry order, then operations in issue order (R171). -/
def ArrayState.readyPasses (a : ArrayState) : List PassChoice :=
  (a.queue.filter QEntry.drains).map (fun q => PassChoice.drain q.readyAt q) ++
  a.ops.filterMap (fun o => match o.body with
    | .vec v =>
      if v.passes ≤ v.started || a.mustWait v then none
      else if v.a.kind == 1 then (a.feeding o.stream v).map (fun q => PassChoice.op (max v.readyAt q.readyAt) o v)
      else some (.op v.readyAt o v)
    | _ => none)

/-- The earliest ready pass; the list's order decides among equals (R171). -/
def earliestPass (cs : List PassChoice) : Option PassChoice :=
  cs.foldl (fun b c => match b with
    | none => some c
    | some x => if c.at_ < x.at_ then some c else some x) none

/-- The writes of a drain (R176). -/
def QEntry.drainWrites (q : QEntry) : List (Nat × List Byte) × Nat :=
  if q.index then (indexWrites q.addr q.stride (asRows q.tile), 0)
  else
    let f := fmtOf q.fmt
    if f.mx then
      let (ws, n) := tileWrites q.addr q.stride f q.axis ⟨q.sr, q.seed, q.step, q.idx, q.idxPitch⟩ 0 0 (asRows q.tile)
      (ws, n)
    else tileWrites q.addr q.stride f q.axis ⟨q.sr, q.seed, q.step, q.idx, q.idxPitch⟩ 0 0 (asRows q.tile)

/-- Whether a product streams an operand through the read port in a cycle: 1 KiB in each of the first cycles of its segment (R72). -/
def Product.streams (p : Product) (m : Cells) (now : Nat) : Bool :=
  match p.plan with
  | [] => false
  | g :: _ =>
    let bytes := match p.kind with
      | .mmf | .mmt => streamedBytes (fmtOf p.xFmt)
      | _ => streamedBytes (fmtOf p.yFmt)
    !g.empty && (p.kind == .cand || !p.cells.isEmpty) && p.halfFree p.setNo && p.segAt ≤ now &&
      now < p.segAt + min (p.segTime m g) (cdiv bytes 1024)

/-- Whether a product preloads through the read port in a cycle: 1 KiB in each of the last cycles before the preload ends (R72, R73). -/
def Product.preloads (p : Product) (m : Cells) (now : Nat) : Bool :=
  match p.nextPre with
  | some g => p.kind != .cand && now < p.preAt && p.preAt ≤ now + p.preTime m g
  | none => false

/-- Bytes a cycle that a pass takes from the scratchpad's read port: its sources, spread evenly over its time (R170, R172; DESIGN CHOICE, log 81). -/
def VecOp.need (v : VecOp) : Nat := cdiv (v.sources.map VOperand.passBytes).sum v.passTime

/-- Bytes a cycle that writes give to the write port over `n` cycles (R207; log 81). -/
def writeRate (ws : List (Nat × List Byte)) (n : Nat) : Nat := cdiv (ws.map (fun w => w.2.length)).sum n

/-- The span of a full queue ends when a read of an entry starts (R179). -/
def ArrayState.readStarts (a : ArrayState) (p : Pass) : ArrayState :=
  { a with pass := some p, fullCycles := if p.fromQueue then 0 else a.fullCycles }

/-- Starts a pass of an operation; each cycle in which it loses the read port makes it a cycle longer (R170, R172). -/
def State.startPass (s : State) (arr : Nat) (o : Op) (v : VecOp) : State :=
  let a := s.arr arr
  let q := (((a.feeding o.stream v).map (·.tile)).getD [])
  let (ti, tj) := v.tile v.started
  let rs := v.sources.flatMap (fun x => x.ranges ti tj)
  let c := s.corrected rs arr
  match s.eccRanges rs arr with
  | some (code, bad) => (c.dropOp arr o.slot).raise (c.opFault o arr code 0 bad)
  | none =>
    let (ws, sat) := v.compute c.mem a q o.step v.started
    let table := v.opcode == 0x39 || v.opcode == 0x3A
    let p : Pass :=
      { isDrain := false, slot := o.slot, pass := v.started, fromQueue := v.a.kind == 1, lastPass := v.started + 1 == v.passes,
        writes := ws, start := s.cycle, endAt := s.cycle + v.passTime, need := v.need, rate := writeRate ws v.passTime, latency := s.lat 0x11 + (if table then s.lat 0x12 else 0), due := o.due, step := o.step }
    ((c.setOp arr { o with body := .vec { v with started := v.started + 1 } }).bumpArr arr Reg.ARR_VEC_CVT_SAT sat).modArr arr (fun a => a.readStarts p)

/-- Starts a drain: 64 cycles (R176). -/
def State.startDrain (s : State) (arr : Nat) (q : QEntry) : State :=
  let (ws, sat) := q.drainWrites
  let p : Pass :=
    { isDrain := true, slot := q.slot, pass := 0, fromQueue := true, lastPass := true, writes := ws, start := s.cycle, endAt := s.cycle + 64,
      need := 0, rate := writeRate ws 64,
      latency := s.lat 0x11, due := q.due, step := q.step }
  (s.modArr arr (fun a => a.readStarts p)).bumpArr arr Reg.ARR_VEC_CVT_SAT sat

/-- VECTOR_PASS_START: the free engine starts the earliest ready pass (R171). -/
def execVectorPassStart (arr : Nat) (s : State) : Host.Outcome State Fault Refusal :=
  let a := s.arr arr
  match a.pass with
  | some _ => .next s
  | none =>
    match earliestPass (a.readyPasses.filter (fun c => c.at_ ≤ s.cycle)) with
    | none => .next s
    | some (.drain _ q) => .next (s.startDrain arr q)
    | some (.op _ o v) => .next (s.startPass arr o v)

/-- The entry that a running pass reads. -/
def ArrayState.readEntry (a : ArrayState) (p : Pass) : Option QEntry :=
  if p.isDrain then a.queue.find? QEntry.drains
  else match a.ops.find? (fun o => o.slot == p.slot) with
    | some o => match o.body with
      | .vec v => a.queue.find? (fun q => q.stream == o.stream && q.fused && !q.index && q.seqNo == v.claim + p.pass)
      | _ => none
    | none => none

/-- PASS_READ_END: the read of a pass or drain ends; its queue entry leaves, and the next pass of the instruction becomes ready. -/
def execPassReadEnd (arr : Nat) (s : State) : Host.Outcome State Fault Refusal :=
  let a := s.arr arr
  match a.pass with
  | none => .next s
  | some p =>
    if s.cycle < p.endAt then .next s
    else
      let l : Landing := ⟨p.isDrain, p.slot, p.lastPass, p.writes, p.start + p.latency, s.cycle + p.latency, p.rate, p.due, p.step⟩
      let a := if p.fromQueue then
          match a.readEntry p with
          | some q => { a with
              queue := a.queue.erase q
              fullCycles := 0
              xferAt := if a.queue.length == 8 && !a.waiting.isEmpty then s.cycle + s.lat 0x03 else a.xferAt }
          | none => a
        else a
      let ops := if p.isDrain then a.ops else a.ops.map (fun (o : Op) => if o.slot == p.slot then
          match o.body with
          | .vec v => { o with body := .vec { v with readyAt := s.cycle } }
          | _ => o
        else o)
      .next (s.modArr arr (fun _ => { a with pass := none, landings := a.landings ++ [l], ops := ops }))

/-- A landed write lets the passes that waited for it become ready now (R171, R172). -/
def ArrayState.wake (a : ArrayState) (now : Nat) (l : Landing) : ArrayState :=
  { a with
    landings := a.landings.erase l
    ops := a.ops.map (fun (o : Op) => match o.body with
      | .vec v =>
        let (ti, tj) := v.tile v.started
        let rs := v.sources.flatMap (fun x => x.ranges ti tj)
        if l.writes.any (fun w => rs.any (fun r => shareUnit r (w.1, w.2.length))) then
          { o with body := .vec { v with readyAt := max v.readyAt now } } else o
      | _ => o) }

/-- The writes of a landing reach memory. -/
def State.land (s : State) (arr : Nat) (l : Landing) : State := (s.putAll l.writes).modArr arr (fun a => a.wake s.cycle l)

/-- VECTOR_WRITE_LANDED: a pass's last write lands; the last pass retires the instruction (R170). -/
def execVectorWriteLanded (arr slot : Nat) (s : State) : Host.Outcome State Fault Refusal :=
  match (s.arr arr).landings.find? (fun l => !l.isDrain && l.slot == slot) with
  | none => .next s
  | some l =>
    if s.cycle < l.at_ then .next s
    else .next (s.journaled l.step (spans l.writes) (fun s =>
      let s := s.land arr l
      if l.lastPass then s.dropOp arr slot else s))

/-- DRAIN: a drain-mode entry that has been read is written out (R176). -/
def execDrain (arr : Nat) (s : State) : Host.Outcome State Fault Refusal :=
  match (s.arr arr).landings.find? (fun l => l.isDrain) with
  | none => .next s
  | some l =>
    if s.cycle < l.at_ then .next s
    else .next (s.journaled l.step (spans l.writes) (fun s => s.land arr l))

/-- QUEUE_OVERFLOW: the queue has held 8 entries for 4,096 cycles without a read; the array issues nothing more and the fault waits for the boundary (R179). -/
def execQueueOverflow (arr : Nat) (s : State) : Host.Outcome State Fault Refusal :=
  let a := s.arr arr
  if a.queue.length == 8 && 4096 ≤ a.fullCycles && !a.overflowed && !a.stopped then
    .next (s.modArr arr (fun a => { a with overflowed := true, stopped := true }))
  else .next s

/-! ### VTLOAD (R181, R183, R301) -/

/-- Address of a VTLOAD image. -/
def State.tableAddr (s : State) (h : Head) (image : SRef) : Nat := (s.ctx h.arr h.stream).sref image

/-- Bytes of the image, from its own segment count. -/
def State.tableBytes (s : State) (a : Nat) : Nat := 32 + 16 * bits (s.getN a 4) 8 0

/-- Whether a derivative half matches the slot's forward half (R181). -/
def derMatches (t : TableHalf) (slot : TableSlot) : Bool :=
  match slot.fwd with
  | some f => f.mode == t.mode && f.n == t.n && f.sym == t.sym && f.lo == t.lo && f.invW == t.invW
  | none => false

/-- Words of an image. -/
def State.tableWords (s : State) (a : Nat) : List W32 :=
  (chunks (s.tableBytes a / 4) 4 (s.get a (s.tableBytes a))).map (fun b => BitVec.ofNat 32 (leNat b))

/-- Issue checks of VTLOAD (R181, R183, R184). -/
def State.vtloadCheck (s : State) (h : Head) (half : Bool) (slot a : Nat) : Option CheckFail :=
  let ws := s.tableWords a
  let ok := match parseTable ws with
    | some t => !half || derMatches t ((s.arr h.arr).tables.getD slot ⟨none, none⟩)
    | none => false
  firstFail [failIf (!ok) 0x24 1, failIf (!s.padOk h .read a (s.tableBytes a)) 0x10 5]

/-- VTLOAD: loads a half of a function table slot (R183, R301). -/
def execVtload (h : Head) (half : Bool) (slot : BitVec 4) (image : SRef) (s : State) : Host.Outcome State Fault Refusal :=
  let a := s.tableAddr h image
  let n := slot.toNat
  let ws := s.tableWords a
  issue h { IssueInfo.simple 0x3F [] with
      needSlot := true
      hold := if (s.arr h.arr).ops.any (fun o => o.table == some n) then some .table else none
      check := (s.vtloadCheck h half n a).map (fun c => s.checkFault h 0x3F 0xFFFF { c with addr := a }) }
    (fun k t =>
      let objs := s.readObjs [(a, s.tableBytes a)]
      (t.recordUses h.arr objs).addOp h.arr { s.newOp h 0x3F k 0xFFFF (s.cycle + s.lat 0x13 + cdiv (s.tableBytes a) 1024) (.vtload half n a ws) with
        table := some n, objs := objs.map (·.obj) }) s

/-- A table slot with a half loaded: loading a forward half clears the derivative half (R181). -/
def TableSlot.load (t : TableSlot) (half : Bool) (x : Option TableHalf) : TableSlot :=
  if half then { t with der := x } else ⟨x, none⟩

/-- VTLOAD_RETIRE: the half is loaded; instructions held on the slot are released. An uncorrectable word of the image faults and loads nothing (R184, R209). -/
def execVtloadRetire (arr slot : Nat) (s : State) : Host.Outcome State Fault Refusal :=
  match s.op? arr slot with
  | some o =>
    match o.body with
    | .vtload half n a ws =>
      if s.cycle < o.readyAt then .next s
      else
        let c := s.corrected [(a, 4 * ws.length)] arr
        match s.eccBad a (4 * ws.length) arr with
        | some (code, bad) => .next ((c.dropOp arr slot).raise (c.opFault o arr code 0 bad))
        | none => .next ((c.dropOp arr slot).modArr arr (fun a => { a with tables := a.tables.modify n (fun t => t.load half (parseTable ws)) }))
    | _ => .next s
  | none => .next s

end Sys2Proof.Machine
end

