-- ==== Sys2Proof/Machine/Update.lean ====
section
/-! DEFINITION. The update unit: UNRM, UCHK, versions, UPD and its tiles (R149, R153, R185 to R205, R304). -/

namespace Sys2Proof.Machine

/-! ### Optimiser descriptors (R196) -/

/-- An optimiser descriptor. -/
structure OptDesc where
  variant : Nat
  biasCorr : Bool
  count : Nat
  beta1 : W32
  omb1 : W32
  beta2 : W32
  omb2 : W32
  eps : W32
  wd : W32
  lrPeak : W32
  tWarm : Nat
  sched : List (Nat × W32)
  deriving DecidableEq, Repr

/-- The descriptor at an address. -/
def optAt (m : Cells) (a : Nat) : OptDesc :=
  let f := fun (o : Nat) => BitVec.ofNat 32 (memNat m (a + o) 4)
  let n := memNat m (a + 2) 2
  ⟨memNat m a 1, bit (memNat m (a + 1) 1) 0 == 1, n, f 4, f 8, f 12, f 16, f 20, f 24, f 28,
   memNat m (a + 32) 4, (List.range n).map (fun i => (memNat m (a + 64 + 8 * i) 4, f (68 + 8 * i)))⟩

/-- A value in [0, 1). -/
def unitHalf (w : W32) : Bool := FVal.le FVal.zero (val32 w) && FVal.lt (val32 w) (FVal.ofInt 1)

/-- A value in (0, 1]. -/
def unitPos (w : W32) : Bool := FVal.lt FVal.zero (val32 w) && FVal.le (val32 w) (FVal.ofInt 1)

/-- Finite and not negative. -/
def nonneg (w : W32) : Bool := (val32 w).isFinite && FVal.le FVal.zero (val32 w)

/-- Whether a field lies outside the ranges of R196; reserved flag bits and bytes are ignored (R7). -/
def OptDesc.bad (d : OptDesc) (extra : Nat) : Bool :=
  1 < d.variant || d.count < 1 || 256 < d.count || !unitHalf d.beta1 || !unitPos d.omb1 || !unitHalf d.beta2 || !unitPos d.omb2 ||
    !(nonneg d.eps && !isZero32 d.eps) || !nonneg d.wd || !nonneg d.lrPeak || d.sched.any (fun e => !nonneg e.2) || (d.variant == 1 && extra == 0)

/-! ### Operations that never retire (R190, R191, R203) -/

/-- An operation faults in flight: it leaves its slot, and what waits for its retirement knows that it will not come. -/
def State.loseOp (s : State) (n : Nat) (o : Op) : State :=
  (s.dropOp n o.slot).modArr n (fun a => { a with lost := a.lost ++ [o] })

/-! ### Issue checks (R204) -/

/-- What issue needs to know of an update-unit instruction: U stream, one slot (R188). -/
def State.updInfo (s : State) (h : Head) (opcode : Nat) (wt : Nat) (check : Option CheckFail) : IssueInfo :=
  { IssueInfo.simple opcode [] with
    streams := [.u]
    needSlot := true
    check := check.map (s.checkFault h opcode wt)
    object := wt }

/-- Row 1 of R204 for a weight index alone. -/
def State.unbound (s : State) (wt : Nat) : Bool := 1024 ≤ wt || (s.weight? wt).isNone

/-- Row 1 of R204 with an entry range. -/
def State.badEntries (s : State) (wt e0 e1 : Nat) : Bool :=
  s.unbound wt || e1 < e0 || (match s.weight? wt with
    | some w => (w.dir s.mem).present ≤ e1
    | none => true)

/-- COMMITTED or FAULTED: every update instruction on such a weight is stale. -/
def Weight.closed (w : Weight) : Bool := w.st == .committed || w.st == .faulted

/-- A condition on the bound weight. -/
def State.onWeight (s : State) (wt : Nat) (p : Weight → Bool) : Bool := (s.weight? wt).any p

/-- Whether the array has issued its UNRM.FIN of the step (R191). -/
def ArrayState.finIssued (a : ArrayState) : Bool :=
  a.normFinal || a.ops.any (fun o => match o.body with
    | .unrmFin _ => true
    | _ => false)

/-- Ranges of the planes of entries e0 to e1. -/
def Weight.planeRanges (w : Weight) (m : Cells) (e0 e1 : Nat) : List (Nat × Nat) :=
  let n := w.slots m
  w.planes.map (fun p => (p.1 + e0 * n * p.2, (e1 + 1 - e0) * n * p.2))

/-- Whether a range is permitted to the update unit of an array, which works in no other array's slice (R12, R212; log 77). -/
def State.updOk (s : State) (arr : Nat) (acc : Access) (a n : Nat) : Bool := ownSlice arr a && s.allowed a n 2 acc true

/-- Row 5 for a freeze table. -/
def State.frzBad (s : State) (arr : Nat) (w : Weight) (frz : Option Nat) : Bool :=
  frz.any (fun f => f % 32 != 0 || !s.updOk arr .read f (32 * (w.dir s.mem).present))

/-! ### UNRM and UNRM.FIN (R191, R205) -/

/-- Issue checks of UNRM. -/
def State.unrmCheck (s : State) (h : Head) (wt e0 e1 : Nat) (frz : Option Nat) : Option CheckFail :=
  firstFail [
    failIf (s.badEntries wt e0 e1) 0x21 1,
    failIf (s.onWeight wt (fun w => !w.owner || w.closed)) 0x30 2,
    failIf (s.arr h.arr).finIssued 0x22 4,
    failIf (s.onWeight wt (fun w => s.frzBad h.arr w frz || !s.updOk h.arr .read (w.grad + e0 * 4 * w.slots s.mem) ((e1 + 1 - e0) * 4 * w.slots s.mem))) 0x10 5]

/-- Resolves an optional AREF. -/
def StreamCtx.optRef (c : StreamCtx) (r : ARef) : Option Nat := if r.isNone then none else some (c.aref r)

/-- Cycles of an update-unit tile of cap k (R205). -/
def updTileTime (k : Nat) (mx : Bool) : Nat := 16 * k + (if mx then 8 else 0)

/-- UNRM: takes its place on the norm path (R191, R205). -/
def execUnrm (h : Head) (wt : BitVec 16) (ref : SRef) (r : UnrmRec) (s : State) : Host.Outcome State Fault Refusal :=
  let n := wt.toNat
  let frz := (s.ctx h.arr h.stream).optRef r.frz
  let k := match s.weight? n with
    | some w => (w.dir s.mem).capK
    | none => 0
  let start := max (s.cycle + s.lat 0x22) (s.arr h.arr).normAt
  let done := start + (r.e1.toNat + 1 - r.e0.toNat) * updTileTime k false
  issue h { s.updInfo h 0x60 n (s.unrmCheck h n r.e0.toNat r.e1.toNat frz) with record := some (ref, 64) }
    (fun slot t => (t.modArr h.arr (fun a => { a with normAt := done })).addOp h.arr
      (s.newOp h 0x60 slot n done (.unrm n r.e0.toNat r.e1.toNat frz))) s

/-- Row and block maps of an optional freeze table's entry (R87). -/
def frzMaps (m : Cells) (frz : Option Nat) (e : Nat) : Nat × Nat :=
  match frz with
  | some a => (memNat m (a + 32 * e) 16, memNat m (a + 32 * e + 16) 8)
  | none => (0, 0)

/-- The used, unfrozen slots of a tile in ascending slot index: slot, group, offset. -/
def liveSlots (m : Cells) (frz : Option Nat) (e k : Nat) (mask : List (List Nat)) : List (Nat × Nat × Nat) :=
  let (rm, bm) := frzMaps m frz e
  mask.zipIdx.flatMap (fun (os, n) => os.zipIdx.filterMap (fun (o, i) =>
    if posFrozen rm bm (n / 8) (16 * (n % 8) + o) then none else some (n * k + i, n, o)))

/-- The norm partial after entries e0 to e1 (R99, R191). -/
def Weight.normSum (w : Weight) (m : Cells) (frz : Option Nat) (e0 e1 : Nat) (d : DW) : DW :=
  let k := (w.dir m).capK
  (List.range (e1 + 1 - e0)).foldl (fun (d : DW) i =>
    let g := planeTile m w.grad (e0 + i) (1024 * k) 4
    (liveSlots m frz (e0 + i) k (maskOf m w.curMask (e0 + i))).foldl (fun (d : DW) x =>
      let v := BitVec.ofNat 32 (g.getD x.1 0)
      (d.add (f32mul v v).1).1) d) d

/-- Whether an operation is an UNRM. -/
def Op.isUnrm (o : Op) : Bool := match o.body with
  | .unrm _ _ _ _ => true
  | _ => false

/-- UNRM operations of an array still in flight. -/
def ArrayState.unrms (a : ArrayState) : List Op := a.ops.filter Op.isUnrm

/-- Marks the norm partial final when a UNRM.FIN waits and no UNRM is in flight (R191). One behind a faulted UNRM, which never retires, leaves its slot with the partial not final, so that the stopping module comes to rest (R427; DESIGN CHOICE, log 89). -/
def State.markFinal (s : State) (n : Nat) : State :=
  s.modArr n (fun a =>
    if a.lost.any Op.isUnrm then { a with ops := a.ops.filter (fun o => o.body != .unrmFin false) }
    else if a.unrms.isEmpty && a.ops.any (fun o => o.body == .unrmFin false) then
      { a with
        normFinal := true
        ops := a.ops.map (fun (o : Op) => if o.body == .unrmFin false then { o with body := .unrmFin true, readyAt := s.cycle + s.lat 0x23 } else o) }
    else a)

/-- Ranges an update-unit instruction reads of one entry: gradient, mask tile and freeze entry. -/
def Weight.gradReads (w : Weight) (m : Cells) (frz : Option Nat) (e : Nat) : List (Nat × Nat) :=
  let n := w.slots m
  [(w.grad + e * 4 * n, 4 * n), (entryAddr m w.curMask e, maskTileSize)] ++ frz.toList.map (fun a => (a + 32 * e, 32))

/-- Ranges an UNRM reads. -/
def Weight.normReads (w : Weight) (m : Cells) (frz : Option Nat) (e0 e1 : Nat) : List (Nat × Nat) :=
  (List.range (e1 + 1 - e0)).flatMap (fun i => w.gradReads m frz (e0 + i))

/-- An UNRM whose time is over adds its squares, or faults on an uncorrectable word (R191, R209, R216). -/
def State.addNorm (s : State) (arr : Nat) (o : Op) (w : Weight) (e0 e1 : Nat) (frz : Option Nat) : State :=
  let rs := w.normReads s.mem frz e0 e1
  let c := s.corrected rs arr
  match s.eccRanges rs arr with
  | some (code, bad) => ((c.loseOp arr o).markFinal arr).raise (c.opFault o arr code 0 bad)
  | none => ((c.dropOp arr o.slot).modArr arr (fun a => { a with norm := w.normSum s.mem frz e0 e1 a.norm })).markFinal arr

/-- UNRM_RETIRE: an UNRM has finished its tiles: behind the array's earlier ones, its squares are in the partial, and a waiting UNRM.FIN may proceed (R191). -/
def execUnrmRetire (arr slot : Nat) (s : State) : Host.Outcome State Fault Refusal :=
  match s.op? arr slot with
  | some o =>
    match o.body with
    | .unrm wt e0 e1 frz =>
      if s.cycle < o.readyAt || (s.arr arr).unrms.any (fun x => x.seq < o.seq) then .next s
      else match s.weight? wt with
        | none => .next ((s.dropOp arr slot).markFinal arr)
        | some w => .next (s.addNorm arr o w e0 e1 frz)
    | _ => .next s
  | none => .next s

/-- UNRM.FIN: the partial becomes final once the array's earlier UNRMs have retired (R191). -/
def execUnrmFin (h : Head) (s : State) : Host.Outcome State Fault Refusal :=
  issue h (s.updInfo h 0x61 0xFFFF (failIf (s.arr h.arr).finIssued 0x22 4))
    (fun slot t => (t.addOp h.arr (s.newOp h 0x61 slot 0xFFFF (s.cycle + s.lat 0x23) (.unrmFin false))).markFinal h.arr) s

/-! ### UCHK (R193, R194) -/

/-- UCHK: waits in its slot for the global norm; the stream has issued it in this step (R193, R204). -/
def execUchk (h : Head) (s : State) : Host.Outcome State Fault Refusal :=
  let step := (s.ctx h.arr h.stream).curStep
  issue h (s.updInfo h 0x62 0xFFFF none)
    (fun slot t => (t.addOp h.arr (s.newOp h 0x62 slot 0xFFFF s.cycle .uchk)).modCtx h.arr h.stream (fun c => { c with uchkStep := some step })) s

/-- Verdict (1 APPLY, 2 SUPPRESS_NONFINITE, 3 SUPPRESS_ABSURD), clip factor and UPD_NORM for a global sum (R193). -/
def evalNorm (g2 : DW) (clip absurd : W32) : Nat × W32 × W32 :=
  if !(val32 g2.hi).isFinite then (2, f32one, canon32 g2.hi)
  else
    let norm := (f32sqrt g2.hi).1
    if FVal.lt (val32 absurd) (val32 norm) then (3, f32one, norm)
    else if FVal.lt FVal.zero (val32 clip) && FVal.lt (val32 clip) (val32 norm) then (1, (f32div clip norm).1, norm)
    else (1, f32one, norm)

/-- Records the step's verdict once for the module, with its event or fault (R193, R194). -/
def State.recordVerdict (s : State) (n : Nat) (o : Op) (g2 : DW) : State :=
  let (v, c, norm) := evalNorm g2 (s.reg Reg.UPD_CLIP) (s.reg Reg.UPD_ABSURD)
  let s := { s with stp := { s.stp with verdict := v, verdictSat := s.ring.g2Sat, clip := c } }
  let s := s.setReg Reg.UPD_NORM norm
  if v == 1 then s
  else
    let code := if v == 2 then 0x90 else 0x91
    if (s.regN Reg.UPD_CTRL).testBit (v - 2) then s.raise (s.opFault o n code 0 0)
    else (s.bump Reg.UPD_SUPPRESSED 1).event code (s.stp.step % 2 ^ 32)

/-- Whether the verdict of the step stops U streams at UCHK (R194). -/
def State.verdictStops (s : State) : Bool := 2 ≤ s.stp.verdict && (s.regN Reg.UPD_CTRL).testBit (s.stp.verdict - 2)

/-- UCHK_VERDICT: G2 has arrived; the verdict and the clip factor are recorded and the array's UPDs may start (R193, R197). -/
def execUchkVerdict (arr slot : Nat) (s : State) : Host.Outcome State Fault Refusal :=
  match s.op? arr slot, s.ring.g2 with
  | some o, some g2 =>
    match o.body with
    | .uchk =>
      if s.cycle < s.ring.g2At + s.lat 0x24 then .next s
      else
        let s := if s.stp.verdict == 0 then s.recordVerdict arr o g2 else s
        let s := (s.dropOp arr slot).modArr arr (fun a => { a with verdictDone := true })
        .next (if s.verdictStops then s.modCtx arr .u (fun c => { c with failed := true }) else s)
    | _ => .next s
  | _, _ => .next s

/-! ### Versions (R149, R153, R189, R190) -/

/-- Of two held versions, the buffer of the current one: the newer of those held when step `cur` began, which is not the one that the step has written (R149). -/
def Weight.current (w : Weight) (cur : W32) : Bool :=
  if w.v0.tag == cur + 1 then true
  else if w.v1.tag == cur + 1 then false
  else w.v0.tag.toNat ≤ w.v1.tag.toNat

/-- The buffer UVER.OPEN chooses in step `cur`: a free one, wc_0 first, or the older of two ready ones, never the current version's (R149, R189). -/
def Weight.choose (w : Weight) (cur : W32) : Option Bool :=
  if w.v0.st == .free then some false
  else if w.v1.st == .free then some true
  else
    let second := w.v1.tag.toNat < w.v0.tag.toNat
    if w.current cur == second then none else some second

/-- Checks of UVER.OPEN. -/
def State.uverOpenCheck (s : State) (h : Head) (wt : Nat) (tag : W32) : Option CheckFail :=
  let step := (s.ctx h.arr h.stream).curStep
  firstFail [
    failIf (s.unbound wt) 0x21 1,
    failIf (tag != nextTag step || s.onWeight wt (fun w => w.closed || w.v0.st == .writing || w.v1.st == .writing ||
      (w.choose (BitVec.ofNat 32 step)).isNone)) 0x30 2]

/-- The chosen buffer enters writing with its new tag. -/
def State.enterWriting (s : State) (wt : Nat) (second : Bool) (tag : W32) : State :=
  s.modWeight wt (fun w => w.modBuf second (fun v => { v with st := .writing, tag := tag }))

/-- UVER.OPEN: chooses the buffer; it waits while in-flight instructions name the old version, then enters writing (R153, R189). -/
def execUverOpen (h : Head) (wt : BitVec 16) (tag : BitVec 32) (s : State) : Host.Outcome State Fault Refusal :=
  let n := wt.toNat
  let cur : W32 := BitVec.ofNat 32 (s.ctx h.arr h.stream).curStep
  issue h (s.updInfo h 0x63 n (s.uverOpenCheck h n tag))
    (fun slot t =>
      match (s.weight? n).bind (fun w => (w.choose cur).map (fun b => (b, w.buf b))) with
      | none => t
      | some (second, v) =>
        if v.st == .ready && s.namesVersion n v.tag then
          let t := t.addOp h.arr (s.newOp h 0x63 slot n (s.cycle + s.lat 0x25) (.uverOpen n tag.toNat false))
          ({ t with mask := { t.mask with verWaits := t.mask.verWaits ++ [(⟨n, second, v.tag, s.cycle⟩ : VerWait)] } }).bump Reg.MSK_VER_WAIT 1
        else
          (t.addOp h.arr (s.newOp h 0x63 slot n (s.cycle + s.lat 0x25) (.uverOpen n tag.toNat true))).enterWriting n second tag) s

/-- A wait of R153 that is over: its buffer enters writing and its UVER.OPEN finishes. -/
def State.endVerWait (s : State) (v : VerWait) : State :=
  let tag := s.arrays.findSome? (fun a => a.ops.findSome? (fun o => match o.body with
    | .uverOpen w t false => if w == v.wt then some t else none
    | _ => none))
  match tag with
  | none => { s with mask := { s.mask with verWaits := s.mask.verWaits.erase v } }
  | some t =>
    let s := { s with
      mask := { s.mask with verWaits := s.mask.verWaits.erase v }
      arrays := s.arrays.map (fun (a : ArrayState) => { a with ops := a.ops.map (fun (o : Op) =>
        if o.body == OpBody.uverOpen v.wt t false then { o with body := OpBody.uverOpen v.wt t true, readyAt := s.cycle + s.lat 0x25 } else o) }) }
    s.enterWriting v.wt v.second (BitVec.ofNat 32 t)

/-- Ends every wait of R153 whose old version no in-flight instruction names. -/
def State.settleVersions (s : State) : State :=
  s.mask.verWaits.foldl (fun (s : State) v => if s.namesVersion v.wt v.tag then s else s.endVerWait v) s

/-- Whether an operation is a UPD of a weight issued before number `seq`. -/
def Op.updBefore (o : Op) (wt seq : Nat) : Bool :=
  o.seq < seq && (match o.body with
    | .upd w _ _ _ _ _ _ => w == wt
    | _ => false)

/-- UPDs of a weight in the U stream of an array, issued before number `seq`, still in flight (R190). -/
def ArrayState.earlierUpd (a : ArrayState) (wt seq : Nat) : Bool := a.ops.any (fun o => o.updBefore wt seq)

/-- UVER.CLOSE (R190). -/
def execUverClose (h : Head) (wt : BitVec 16) (s : State) : Host.Outcome State Fault Refusal :=
  let n := wt.toNat
  let step := (s.ctx h.arr h.stream).curStep
  let check := firstFail [
    failIf (s.unbound n) 0x21 1,
    failIf (s.onWeight n (fun w => w.closed || (w.bufWith .writing (nextTag step)).isNone)) 0x30 2]
  issue h (s.updInfo h 0x65 n check)
    (fun slot t => t.addOp h.arr (s.newOp h 0x65 slot n (s.cycle + s.lat 0x25) (.uverClose n))) s

/-- Mask generation of a regenerated or received version: the weight's, or that of its first tile for an owner = 0 binding (R186, R189). -/
def Weight.genWritten (w : Weight) (m : Cells) (second : Bool) : Nat :=
  if w.owner || (w.dir m).present == 0 then w.gen else (tileHdr m (entryAddr m (w.bufAddr second) 0)).gen

/-- UVER_CLOSE_RETIRE: every earlier UPD of the weight has retired; the writing buffer becomes ready (R149, R190). Behind a faulted UPD, which never retires, it leaves its slot and the buffer stays writing, so that the stopping module comes to rest (R203, R427; DESIGN CHOICE, log 89). -/
def execUverCloseRetire (arr slot : Nat) (s : State) : Host.Outcome State Fault Refusal :=
  match s.op? arr slot with
  | some o =>
    match o.body with
    | .uverClose wt =>
      if (s.arr arr).lost.any (fun x => x.updBefore wt o.seq) then .next (s.dropOp arr slot)
      else if s.cycle < o.readyAt || (s.arr arr).earlierUpd wt o.seq then .next s
      else .next ((s.dropOp arr slot).modWeight wt (fun w =>
        match w.bufWith .writing (nextTag o.step) with
        | some b => w.modBuf b (fun v => { v with st := .ready, gen := w.genWritten s.mem b })
        | none => w))
    | _ => .next s
  | none => .next s

/-! ### UPD (R196 to R205) -/

/-- Issue checks of UPD. -/
def State.updCheck (s : State) (h : Head) (wt e0 e1 desc : Nat) (frz : Option Nat) : Option CheckFail :=
  let c := s.ctx h.arr h.stream
  let d := optAt s.mem desc
  let range := fun (w : Weight) =>
    desc % 32 != 0 || !s.updOk h.arr .read desc (64 + 8 * d.count) || s.frzBad h.arr w frz ||
    (w.planeRanges s.mem e0 e1).any (fun p => !s.updOk h.arr .read p.1 p.2 || !s.updOk h.arr .write p.1 p.2) ||
    !s.updOk h.arr .read (w.grad + e0 * 4 * w.slots s.mem) ((e1 + 1 - e0) * 4 * w.slots s.mem) || (s.managed w && (s.window h.arr).isNone)
  firstFail [
    failIf (s.badEntries wt e0 e1) 0x21 1,
    failIf (s.onWeight wt (fun w => !w.owner || w.closed || (w.bufWith .writing (nextTag c.curStep)).isNone)) 0x30 2,
    failIf (c.uchkStep != some c.curStep || s.onWeight wt (fun w => d.bad w.extra || 9 ≤ (dirAt s.mem w.wc0).format)) 0x24 3,
    failIf (!strictAsc (d.sched.map Prod.fst)) 0x22 4,
    failIf (s.onWeight wt range) 0x10 5]

/-- UPD: takes its slot; its tiles follow on the update path (R197, R201, R205). -/
def execUpd (h : Head) (wt : BitVec 16) (ref : SRef) (r : UpdRec) (s : State) : Host.Outcome State Fault Refusal :=
  let n := wt.toNat
  let c := s.ctx h.arr h.stream
  let frz := c.optRef r.frz
  let desc := c.aref r.desc
  issue h { s.updInfo h 0x64 n (s.updCheck h n r.e0.toNat r.e1.toNat desc frz) with record := some (ref, 64) }
    (fun slot t => t.addOp h.arr (s.newOp h 0x64 slot n (s.cycle + s.lat 0x20) (.upd n r.e0.toNat r.e1.toNat r.e0.toNat desc frz 0))) s

/-! ### Scalars and the update of one slot (R197, R198) -/

/-- An FP32 literal with no saturation. -/
def lit (w : W32) : Sat := (w, 0)

/-- Sum with its saturations. -/
def sAdd (x y : Sat) : Sat := satAdd (x.2 + y.2) (f32add x.1 y.1)

/-- Difference with its saturations. -/
def sSub (x y : Sat) : Sat := satAdd (x.2 + y.2) (f32sub x.1 y.1)

/-- Product with its saturations. -/
def sMul (x y : Sat) : Sat := satAdd (x.2 + y.2) (f32mul x.1 y.1)

/-- Quotient with its saturations. -/
def sDiv (x y : Sat) : Sat := satAdd (x.2 + y.2) (f32div x.1 y.1)

/-- Square root. -/
def sSqrt (x : Sat) : Sat := satAdd x.2 (f32sqrt x.1)

/-- The schedule factor s at update t (R197). -/
def OptDesc.factor (d : OptDesc) (t : Nat) : Sat :=
  let ft := f32ofNat t
  let first := d.sched.headD (0, 0)
  let last := d.sched.getLastD (0, 0)
  if 0 < d.tWarm && t ≤ d.tWarm then sDiv (lit ft) (lit (f32ofNat d.tWarm))
  else if t ≤ first.1 then lit first.2
  else if last.1 ≤ t then lit last.2
  else match (d.sched.zip (d.sched.drop 1)).find? (fun p => p.1.1 ≤ t && t < p.2.1) with
    | some (x, y) =>
      sAdd (lit x.2) (sMul (sSub (lit y.2) (lit x.2)) (sDiv (lit (f32ofNat (t - x.1))) (lit (f32ofNat (y.1 - x.1)))))
    | none => lit last.2

/-- pow(b, e) by the loop of R197; `fuel` bounds the bits of e. -/
def powLoop : Nat → Nat → W32 → Sat → Sat
  | 0, _, _, p => p
  | n + 1, e, x, p =>
    if e == 0 then p
    else
      let p := if e % 2 == 1 then sMul p (lit x) else p
      let x2 := f32mul x x
      powLoop n (e / 2) x2.1 (p.1, p.2 + bnat x2.2)

/-- The scalars of R197. -/
structure Scalars where
  lr : W32
  bc1 : W32
  bc2 : W32
  sats : Nat
  deriving DecidableEq, Repr

/-- Scalars of a descriptor at update t. -/
def OptDesc.scalars (d : OptDesc) (t : Nat) : Scalars :=
  let lr := sMul (lit d.lrPeak) (d.factor t)
  let bc := fun (b : W32) => sDiv (lit f32one) (sSub (lit f32one) (powLoop 33 t b (lit f32one)))
  if d.biasCorr then
    let b1 := bc d.beta1
    let b2 := bc d.beta2
    ⟨lr.1, b1.1, b2.1, lr.2 + b1.2 + b2.2⟩
  else ⟨lr.1, f32one, f32one, lr.2⟩

/-- State of one slot: master (DW32 as hi + 2³²·lo), moments, extra value. -/
structure SlotState where
  w : Nat
  m : W32
  v : W32
  x : W32
  deriving DecidableEq, Repr

/-- The applied update of one slot, with its saturations (R198). -/
def OptDesc.slot (d : OptDesc) (k : Scalars) (c : W32) (dw : Bool) (g : W32) (z : SlotState) : SlotState × Nat :=
  let g1 := sMul (lit g) (lit c)
  let m1 := sAdd (sMul (lit d.beta1) (lit z.m)) (sMul (lit d.omb1) (lit g1.1))
  let v1 := sAdd (sMul (lit d.beta2) (lit z.v)) (sMul (sMul (lit d.omb2) (lit g1.1)) (lit g1.1))
  let x1 := if d.variant == 1 then f32max z.x v1.1 else z.x
  let vv := if d.variant == 1 then x1 else v1.1
  let q := sDiv (sMul (lit m1.1) (lit k.bc1)) (sAdd (sSqrt (sMul (lit vv) (lit k.bc2))) (lit d.eps))
  let u := sAdd q (sMul (lit d.wd) (lit (BitVec.ofNat 32 z.w)))
  let dl := sMul (lit k.lr) u
  let sats := g1.2 + m1.2 + v1.2 + dl.2
  if dw then
    let (r, s) := (⟨BitVec.ofNat 32 z.w, BitVec.ofNat 32 (z.w / 2 ^ 32)⟩ : DW).add (f32neg dl.1)
    (⟨r.hi.toNat + 2 ^ 32 * r.lo.toNat, m1.1, v1.1, x1⟩, sats + bnat s)
  else
    let (r, s) := f32sub (BitVec.ofNat 32 z.w) dl.1
    (⟨r.toNat, m1.1, v1.1, x1⟩, sats + bnat s)

/-- A tile's new state planes and working copy: writes, update saturations, conversion saturations (R186, R198). -/
structure TileUpdate where
  writes : List (Nat × List Byte)
  sats : Nat
  cvt : Nat
  deriving DecidableEq, Repr

/-- The update of entry e: applied, or suppressed (R194, R198). -/
def Weight.updateTile (w : Weight) (m : Cells) (d : OptDesc) (k : Scalars) (apply : Bool) (c : W32) (frz : Option Nat) (wc tag : Nat) (t : TileRef) : TileUpdate :=
  let dir := w.dir m
  let n := 1024 * dir.capK
  let wd := planeWidth w.dw32
  let mask := maskOf m w.curMask t.e
  let ms := planeTile m w.master t.e n wd
  let m1 := planeTile m w.moment1 t.e n 4
  let m2 := planeTile m w.moment2 t.e n 4
  let ex := if w.extra != 0 then planeTile m w.extra t.e n 4 else []
  let gr := planeTile m w.grad t.e n 4
  let live := (liveSlots m frz t.e dir.capK mask).map Prod.fst
  let f := fun (l : List Nat) (j : Nat) => BitVec.ofNat 32 (l.getD j 0)
  let slots := (List.range n).map (fun j =>
    let z : SlotState := ⟨ms.getD j 0, f m1 j, f m2 j, f ex j⟩
    if apply && live.contains j then d.slot k c w.dw32 (f gr j) z else (z, 0))
  let (tile, cvt) := (w.regenArgs m wc tag w.gen).tile t.r t.col dir.cols dir.capK mask (slots.map (fun z => masterVal w.dw32 z.1.w))
  let planes := if apply then
      [(w.master + t.e * n * wd, slots.flatMap (fun z => leBytes wd z.1.w)),
       (w.moment1 + t.e * n * 4, slots.flatMap (fun z => leBytes 4 z.1.m.toNat)),
       (w.moment2 + t.e * n * 4, slots.flatMap (fun z => leBytes 4 z.1.v.toNat))] ++
      (if w.extra != 0 && d.variant == 1 then [(w.extra + t.e * n * 4, slots.flatMap (fun z => leBytes 4 z.1.x.toNat))] else [])
    else []
  ⟨planes ++ [(entryAddr m wc t.e, tile)], (slots.map Prod.snd).sum, cvt⟩

/-! ### UPD_TILE, DEFER_TIMEOUT (R199 to R203) -/

/-- Whether a tile's state can be worked on: staged in the array's window, or not managed at all (R199). -/
def State.stateReady (s : State) (n wt e : Nat) : Bool :=
  match s.weight? wt with
  | some w => !s.managed w || s.isStaged n (w.tileObj s.mem e).obj
  | none => false

/-- The UPD with an issue number. -/
def ArrayState.updOp (a : ArrayState) (seq : Nat) : Option Op :=
  a.ops.find? (fun o => o.seq == seq && (match o.body with
    | .upd _ _ _ _ _ _ _ => true
    | _ => false))

/-- Changes `next` and `pending` of an UPD. -/
def Op.modUpd (o : Op) (dn : Nat) (dp : Int) : Op :=
  match o.body with
  | .upd wt e0 e1 nx desc frz p => { o with body := .upd wt e0 e1 (nx + dn) desc frz ((p : Int) + dp).toNat }
  | _ => o

/-- Cycles of a tile of a weight on the update path, without waits. -/
def State.tileTime (s : State) (w : Weight) : Nat := updTileTime (w.dir s.mem).capK (dirAt s.mem w.wc0).fmt.mx

/-- The update unit begins a tile: it is a use of the tile's state (R205, R229). Each cycle in which its reads lose the scratchpad's read port makes the tile a cycle longer. -/
def State.beginTile (s : State) (n op wt e : Nat) : State :=
  match s.weight? wt with
  | none => s
  | some w =>
    let time := s.tileTime w
    let s := if s.managed w then s.recordUse n (w.tileObj s.mem e) else s
    s.modArr n (fun a => { a with updCur := some ⟨op, wt, e, s.cycle + time⟩ })

/-- The earliest-listed deferred tile whose state is staged and whose UPD is in flight (R201). -/
def State.stagedDeferred (s : State) (n : Nat) : Option Deferred :=
  (s.arr n).deferred.find? (fun d => s.stateReady n d.wt d.entry && ((s.arr n).updOp d.op).isSome)

/-- The oldest UPD that has started and still has tiles to take (R201). -/
def State.nextUpd (s : State) (n : Nat) : Option Op :=
  (s.arr n).ops.find? (fun o => match o.body with
    | .upd _ _ e1 nx _ _ _ => nx ≤ e1 && o.readyAt ≤ s.cycle
    | _ => false)

/-- Defers a tile whose state is not staged (R200). -/
def State.deferTile (s : State) (n : Nat) (o : Op) (wt e : Nat) : State :=
  match s.weight? wt with
  | none => s
  | some w =>
    let s := (s.setOp n (o.modUpd 1 1)).modArr n (fun a => { a with deferred := a.deferred ++ [⟨o.seq, wt, e, s.tick, s.cycle⟩] })
    (s.bumpArr n Reg.ARR_UPD_DEFER 1).askStage (w.tileObj s.mem e).obj n

/-- The unit takes its next tile (R200, R201). -/
def State.takeTile (s : State) (n : Nat) : State :=
  if !(s.arr n).verdictDone then s
  else match s.stagedDeferred n with
    | some d => (s.modArr n (fun a => { a with deferred := a.deferred.erase d })).beginTile n d.op d.wt d.entry
    | none =>
      match s.nextUpd n with
      | none => s
      | some o =>
        match o.body with
        | .upd wt _ _ nx _ _ _ =>
          if s.stateReady n wt nx then (s.setOp n (o.modUpd 1 1)).beginTile n o.seq wt nx
          else if (s.arr n).deferred.length < 64 then s.deferTile n o wt nx
          else s
        | _ => s

/-- What the finished tile writes, with the UPD it belongs to. -/
def State.tileResult (s : State) (n : Nat) (c : UpdCur) : Option (Op × TileUpdate) :=
  match (s.arr n).updOp c.op, s.weight? c.wt with
  | some o, some w =>
    match o.body with
    | .upd _ _ _ _ desc frz _ =>
      let d := optAt s.mem desc
      let tag := nextTag o.step
      let b := (w.bufWith .writing tag).getD false
      ((w.dir s.mem).tiles s.mem 0 ((w.dir s.mem).rows - 1)).find? (fun t => t.e == c.entry) |>.map (fun t =>
        (o, w.updateTile s.mem d (d.scalars (s.regN Reg.UPD_TCOUNT + 1)) (s.stp.verdict == 1) s.stp.clip frz (w.bufAddr b) tag.toNat t))
    | _ => none
  | _, _ => none

/-- Saturations of an UPD's scalars, counted with its first entry (R197). -/
def State.scalarSats (s : State) (o : Op) (e : Nat) : Nat :=
  match o.body with
  | .upd _ e0 _ _ desc _ _ => if e == e0 then ((optAt s.mem desc).scalars (s.regN Reg.UPD_TCOUNT + 1)).sats else 0
  | _ => 0

/-- After its last tile an UPD retires when the write latency has passed (R205). -/
def Op.lastTile (o : Op) (at_ : Nat) : Op :=
  match o.body with
  | .upd _ _ e1 nx _ _ p => if e1 < nx && p == 0 then { o with readyAt := at_ } else o
  | _ => o

/-- Marks a staged object of an array dirty (R231). -/
def State.markDirty (s : State) (n obj : Nat) : State :=
  { s with tiers := { s.tiers with staged := s.tiers.staged.map (fun (t : Staged) => if t.arr == n && t.obj == obj then { t with dirty := true } else t) } }

/-- The finished tile's state and working copy are written, and its state is dirty until the engine has written it back (R198, R231). -/
def State.writeUpdTile (s : State) (n : Nat) (c : UpdCur) (o : Op) (u : TileUpdate) : State :=
  let sats := s.scalarSats o c.entry
  let s := s.putAll u.writes
  let s := if s.stp.verdict == 1 then (match s.weight? c.wt with
      | some w => if s.managed w then s.markDirty n (w.tileObj s.mem c.entry).obj else s
      | none => s) else s
  let s := (s.bumpArr n Reg.ARR_UPD_SAT (u.sats + sats)).bumpArr n Reg.ARR_UPD_CVT_SAT u.cvt
  let o := (o.modUpd 0 (-1)).lastTile (s.cycle + s.lat 0x21)
  (s.setOp n o).modArr n (fun a => { a with updCur := none })

/-- Ranges the unit reads for a tile: with the first one also the descriptor (R197). -/
def State.updReads (s : State) (c : UpdCur) (o : Op) : List (Nat × Nat) :=
  match s.weight? c.wt, o.body with
  | some w, .upd _ e0 _ _ desc frz _ =>
    let n := w.slots s.mem
    (if c.entry == e0 then [(desc, 64 + 8 * (optAt s.mem desc).count)] else []) ++ w.gradReads s.mem frz c.entry ++
      w.planes.map (fun p => (p.1 + c.entry * n * p.2, n * p.2))
  | _, _ => []

/-- Ranges the unit writes for a tile: its planes and its working-copy tile (R198). -/
def State.updWrites (s : State) (c : UpdCur) (o : Op) : List (Nat × Nat) :=
  match s.weight? c.wt with
  | some w =>
    let n := w.slots s.mem
    let wc := w.bufAddr ((w.bufWith .writing (nextTag o.step)).getD false)
    (entryAddr s.mem wc c.entry, (dirAt s.mem wc).tileBytes) :: w.planes.map (fun p => (p.1 + c.entry * n * p.2, n * p.2))
  | none => []

/-- The unit stops work on its tile. -/
def State.leaveTile (s : State) (n : Nat) : State := s.modArr n (fun a => { a with updCur := none })

/-- The unit has finished a tile: its reads are checked and corrected, the tile is written and the next one taken (R198, R201, R209, R216). -/
def State.endUpdTile (s : State) (arr : Nat) (c : UpdCur) (o : Op) (u : TileUpdate) : State :=
  let rs := s.updReads c o
  let t := s.corrected rs arr
  match s.eccRanges rs arr with
  | some (code, bad) => ((t.loseOp arr o).leaveTile arr).raise (t.opFault o arr code 0 bad)
  | none => t.journaled o.step (spans u.writes) (fun s => (s.writeUpdTile arr c o u).takeTile arr)

/-- UPD_TILE: the update unit writes the tile it has finished and takes its next one, deferring it when its state is not staged (R198 to R201). -/
def execUpdTile (arr : Nat) (s : State) : Host.Outcome State Fault Refusal :=
  match (s.arr arr).updCur with
  | none => .next (s.takeTile arr)
  | some c =>
    if s.cycle < c.endAt then .next s
    else match s.tileResult arr c with
      | none => .next (s.leaveTile arr)
      | some (o, u) => .next (s.endUpdTile arr c o u)

/-- A deferred tile whose wait has reached the limit (R203). -/
def State.overdueTile (s : State) (arr : Nat) : Option Deferred :=
  (s.arr arr).deferred.find? (fun d => s.mayTimeOut && d.since + s.regN Reg.UPD_DEFER_LIMIT ≤ s.tick && !s.stateReady arr d.wt d.entry &&
    ((s.arr arr).updOp d.op).isSome)

/-- DEFER_TIMEOUT: a deferred tile has waited UPD_DEFER_LIMIT ticks; its UPD faults with STATE_TIMEOUT and never retires, and its other deferred tiles stay listed (R203, R427). -/
def execDeferTimeout (arr : Nat) (s : State) : Host.Outcome State Fault Refusal :=
  match s.overdueTile arr with
  | none => .next s
  | some d =>
    match (s.arr arr).updOp d.op with
    | none => .next s
    | some o =>
      let t := s.loseOp arr o
      let t := if (t.arr arr).updCur.any (fun c => c.op == d.op) then t.leaveTile arr else t
      .next (t.raise (t.opFault o arr 0x31 0 0))

end Sys2Proof.Machine
end

