-- ==== Sys2Proof/Machine/Context.lean ====
section
/-! DEFINITION. The context store and the state-placement engine: CTX.APPEND, CTX.ADV, PSTAGE, staging, eviction and holds (R223 to R233, R304, R305, R345). -/

namespace Sys2Proof.Machine

/-! ### Context-store instructions (R225, R305) -/

/-- The context-store region that begins at an address: a far-tier region of kind 3 (R223). -/
def State.storeRegion (s : State) (a : Nat) : Option Region :=
  s.tiers.regions.find? (fun r => r.kind == 3 && r.base == a && s.isFar (r.base + r.size - 1))

/-- The sequence entry a record names. -/
def State.ctxSeq (s : State) (h : Head) (r : CtxRec) : SeqEntry :=
  storeSeq s.mem ((s.ctx h.arr h.stream).aref r.store) r.seq.toNat

/-- Destination of each time step of an append: its address, `none` where the step has no place in this store (R224). -/
def SeqEntry.appendAddrs (e : SeqEntry) (block head n : Nat) : List (Option Nat) :=
  (List.range n).map (fun i => match e.localPage (head + i) with
    | some p => if p < e.capPages then e.stepAddr block (head + i) else none
    | none => none)

/-- Bytes of the source operand: n rows of entry_bytes, a row stride apart. -/
def appendSpan (e : SeqEntry) (stride n : Nat) : Nat := (n - 1) * stride + e.entryBytes

/-- Bytes of a store that a context instruction reads at issue: the header and the sequence entry (R223). -/
def State.ctxReads (s : State) (h : Head) (r : CtxRec) : List (Nat × Nat) :=
  [((s.ctx h.arr h.stream).aref r.store, 64), ((s.ctxSeq h r).at_, 64)]

/-- Rows 1 to 4 of R305, `b` being the block of CTX.APPEND. An uncorrectable block under the header or the entry faults before the rows that test them (R209, R216). -/
def State.ctxCheck (s : State) (h : Head) (r : CtxRec) (b : Option Nat) : List (Option CheckFail) :=
  let store := (s.ctx h.arr h.stream).aref r.store
  let e := s.ctxSeq h r
  [failIf (r.n == 0#32 || r.n.toNat % 128 != 0) 0x23 1,
   (s.eccRanges (s.ctxReads h r) h.arr).map (fun x => ⟨x.1, 0, x.2⟩),
   failIf (storeCount s.mem store ≤ r.seq.toNat || b.any (fun x => e.blocks ≤ x)) 0x21 2,
   failIf ((s.storeRegion store).any (fun g => !storeHeaderOk s.mem store || !e.fieldsOk g s.nArrays)) 0x24 3,
   failIf (s.storeRegion store).isNone 0x10 4]

/-- Row 4 of R305 for the source and destinations of an append. -/
def State.appendRange (s : State) (h : Head) (r : CtxRec) : Bool :=
  let c := s.ctx h.arr h.stream
  let e := s.ctxSeq h r
  let dst := e.appendAddrs r.block.toNat e.head r.n.toNat
  !s.ownOk h .read (c.oref r.src) (appendSpan e r.srcStride.toNat r.n.toNat) ||
    dst.any (fun a => match a with
      | some a => !s.allowed a e.entryBytes h.stream.idx .write false
      | none => true)

/-- Whether a twin is present to be forwarded to (R345). -/
def State.twinPresent (s : State) : Bool := s.mir.paired && !s.mir.survivor && !s.mir.fenced

/-- Forwards when the entry asks for it; with no twin present the skip is counted (R345). -/
def State.forward (s : State) (mirror : Bool) (act : State → State) : State :=
  if !mirror then s else if s.twinPresent then act s else s.bump Reg.MIR_FWD_SKIP 1

/-- Objects of the store that an append writes (R226, R231). -/
def SeqEntry.appendObjs (e : SeqEntry) (block head n : Nat) : List Nat :=
  ((e.appendAddrs block head n).filterMap (fun a => a.bind (fun x => (e.objAt x).map (·.obj)))).eraseDups

/-- What issue needs to know of a context instruction; `bad`: its source names a reserved format code, which faults at decode (R20). -/
def State.ctxInfo (s : State) (h : Head) (opcode : Nat) (ref : SRef) (bad : Bool) (checks : List (Option CheckFail)) : IssueInfo :=
  let i := { IssueInfo.simple opcode [] with record := some (ref, 64), decodeBad := if bad then some 0 else none }
  if (s.ctx h.arr h.stream).recompute.isSome then i
  else { i with
    needSlot := true
    check := (firstFail checks).map (s.checkFault h opcode 0xFFFF) }

/-- CTX.APPEND: issues the append; under the recompute flag it retires at once (R143, R225). -/
def execCtxAppend (h : Head) (ref : SRef) (r : CtxRec) (s : State) : Host.Outcome State Fault Refusal :=
  let c := s.ctx h.arr h.stream
  let e := s.ctxSeq h r
  let n := r.n.toNat
  issue h (s.ctxInfo h 0x70 ref (11 ≤ r.src.format.toNat) (s.ctxCheck h r (some r.block.toNat) ++ [failIf (s.appendRange h r) 0x10 4]))
    (fun slot t =>
      if c.recompute.isSome then t
      else
        let objs := s.readObjs [(c.oref r.src, appendSpan e r.srcStride.toNat n)]
        ((t.corrected (s.ctxReads h r) h.arr).recordUses h.arr objs).addOp h.arr
          { s.newOp h 0x70 slot 0xFFFF (s.cycle + s.lat 0x35 + cdiv (n * e.entryBytes) 1024)
            (.ctxAppend e.at_ r.block.toNat e.head (c.oref r.src) r.srcStride.toNat n) with
          objs := (e.appendObjs r.block.toNat e.head n ++ objs.map (·.obj)).eraseDups }) s

/-- The writes of an append. -/
def State.appendWrites (s : State) (entry block head src stride n : Nat) : List (Nat × List Byte) :=
  let e := seqAt s.mem entry
  (e.appendAddrs block head n).zipIdx.filterMap (fun (a, i) => a.map (fun x => (x, s.get (src + i * stride) e.entryBytes)))

/-- Appends of an entry in one stream, issued before number `seq`, still in flight (R305). -/
def ArrayState.earlierAppend (a : ArrayState) (st : Stream) (entry seq : Nat) : Bool :=
  a.ops.any (fun o => o.stream == st && o.seq < seq && (match o.body with
    | .ctxAppend e _ _ _ _ _ => e == entry
    | _ => false))

/-- Raises the head of an entry by n, forwarded to the twin under the mirror flag (R225, R345). -/
def State.advanceHead (s : State) (step entry n : Nat) : State :=
  let e := seqAt s.mem entry
  (s.putMem (entry + 32) (leBytes 8 (e.head + n))).forward e.mirror (fun s =>
    s.sendFrame 4 (s.forwardFrame forwardCtx true step entry (leBytes 8 n)))

/-- CTX.ADVs of the array whose earlier appends have all retired raise their heads, in issue order (R305). -/
def State.settleAdvances (s : State) (n : Nat) : State :=
  (s.arr n).ops.foldl (fun (s : State) (o : Op) => match o.body with
    | .ctxAdv entry k false =>
      if (s.arr n).earlierAppend o.stream entry o.seq then s
      else (s.advanceHead o.step entry k).setOp n { o with body := .ctxAdv entry k true, readyAt := s.cycle + s.lat 0x36 }
    | _ => s) s

/-- What issue needs to know of CTX.ADV: a journaled head waits for its copy (R348). -/
def State.ctxAdvInfo (s : State) (h : Head) (ref : SRef) (r : CtxRec) : IssueInfo :=
  let lack := s.lacking (s.ctx h.arr h.stream).curStep [((s.ctxSeq h r).at_ + 32, 8)]
  let at_ := (s.ctxSeq h r).at_ + 32
  let i := s.ctxInfo h 0x71 ref false (s.ctxCheck h r none ++ [failIf (!s.allowed at_ 8 h.stream.idx .write false) 0x10 4])
  if i.needSlot && i.check.isNone && !lack.isEmpty then { i with hold := some .journal, copies := lack } else i

/-- CTX.ADV: raises the entry's head once the stream's earlier appends of the sequence have retired (R225, R305). -/
def execCtxAdv (h : Head) (ref : SRef) (r : CtxRec) (s : State) : Host.Outcome State Fault Refusal :=
  let e := s.ctxSeq h r
  issue h (s.ctxAdvInfo h ref r) (fun slot t =>
    if (s.ctx h.arr h.stream).recompute.isSome then t
    else ((t.corrected (s.ctxReads h r) h.arr).addOp h.arr (s.newOp h 0x71 slot 0xFFFF (s.cycle + s.lat 0x36) (.ctxAdv e.at_ r.n.toNat false))).settleAdvances h.arr) s

/-- An append whose time is over: its source is checked and corrected, and its bytes land everywhere (R209, R225, R345). -/
def State.endAppend (s : State) (arr : Nat) (o : Op) (entry : Nat) (src : Nat × Nat) (ws : List (Nat × List Byte)) : State :=
  let c := s.corrected [src] arr
  match s.eccBad src.1 src.2 arr with
  | some (code, bad) => ((c.dropOp arr o.slot).raise (c.opFault o arr code 0 bad)).settleAdvances arr
  | none => c.journaled o.step (spans ws) (fun s =>
      let s := (s.putAll ws).forward (seqAt s.mem entry).mirror (fun s => ws.foldl (fun (s : State) w => s.forwardBytes forwardCtx o.step w.1 w.2) s)
      (s.dropOp arr o.slot).settleAdvances arr)

/-- CTX_APPEND_RETIRE: the append's bytes reach the far tier, every staged copy and the twin; a waiting CTX.ADV may go on (R225, R305, R345). -/
def execCtxAppendRetire (arr slot : Nat) (s : State) : Host.Outcome State Fault Refusal :=
  match s.op? arr slot with
  | some o =>
    match o.body with
    | .ctxAppend entry block head src stride n =>
      if s.cycle < o.readyAt then .next s
      else .next (s.endAppend arr o entry (src, appendSpan (seqAt s.mem entry) stride n) (s.appendWrites entry block head src stride n))
    | _ => .next s
  | none => .next s

/-! ### PSTAGE (R229, R304) -/

/-- Sets an object's hint for an array, beside those of other arrays, creating a record where none exists (R229). -/
def State.setHint (s : State) (n obj tick : Nat) : State :=
  let rs := s.tiers.records
  let rs := if rs.any (fun r => !r.paged && r.key == obj) then
      rs.map (fun (r : PlRecord) => if !r.paged && r.key == obj then { r with hints := r.hints.filter (fun h => h.1 < n) ++ [(n, tick)] ++ r.hints.filter (fun h => n < h.1) } else r)
    else addRecord rs ⟨obj, n, false, 0, 0, 0, 0, [(n, tick)]⟩
  { s with tiers := { s.tiers with records := rs } }

/-- Tick a PSTAGE names: an offset from the mark base, with Δ added under the recompute flag (R304). -/
def StreamCtx.stageTick (c : StreamCtx) (t : BitVec 32) : Nat := (c.mark t).toNat

/-- PSTAGE: a hint for a registered state tile or a context object; any other address has no effect (R229, R305). -/
def execPstage (h : Head) (ref : SRef) (r : PstageRec) (s : State) : Host.Outcome State Fault Refusal :=
  let c := s.ctx h.arr h.stream
  let a := c.aref r.obj
  issue h { IssueInfo.simple 0x72 [] with record := some (ref, 64) }
    (fun _ t => match s.objAt a with
      | some o => if o.obj == a then t.setHint h.arr a (c.stageTick r.tick) else t
      | none => t) s

/-! ### PLACEMENT_TICK (R230, R231) -/

/-- A staging candidate: predicted tick (`none` for a priority request), object, array. -/
structure StageCand where
  at_ : Option Nat
  obj : Nat
  arr : Nat
  deriving DecidableEq, Repr

/-- Predicted uses of one record up to a tick (R229). `hints`: only hints count (TIR_STAGE_CTRL). -/
def State.predictions (s : State) (r : PlRecord) (limit : Nat) (hints : Bool) : List StageCand :=
  if !r.paged then
    if !r.hints.isEmpty then r.hints.map (fun (n, t) => ⟨some t, r.key, n⟩)
    else if hints || r.uses < 2 || (s.stateTileAt r.key).isNone then []
    else [⟨some (r.l1 + (r.l1 - r.l0)), r.key, r.arr⟩]
  else if hints || r.uses < 2 then []
  else
    let e? := match s.regionAt r.key with
      | some g => (List.range (storeCount s.mem g.base)).findSome? (fun i =>
          let e := storeSeq s.mem g.base i
          if (e.objAt r.key).isSome then some e else none)
      | none => none
    match e? with
    | none => []
    | some e =>
      let d := r.l1 - r.l0
      (List.range (e.capPages / e.arrays + 1)).filterMap (fun i =>
        let j := i + 1
        let p := r.page + j * e.arrays
        let p := if e.wrap then p % e.capPages else p
        if p < e.capPages && r.l1 + j * d ≤ limit then some ⟨some (r.l1 + j * d), r.key + p * e.pageBytes, r.arr⟩ else none)

/-- Order of predicted candidates: by tick, then by address. -/
def StageCand.le (x y : StageCand) : Bool :=
  x.at_.getD 0 < y.at_.getD 0 || (x.at_.getD 0 == y.at_.getD 0 && x.obj ≤ y.obj)

/-- The candidates of a tick in order: priority requests, then predictions within the horizon (R230). -/
def State.candidates (s : State) : List StageCand :=
  let limit := s.tick + s.regN Reg.TIR_STAGE_HORIZON
  let hints := !(s.regN Reg.TIR_STAGE_CTRL).testBit 0
  s.tiers.requests.map (fun q => ⟨none, q.obj, q.arr⟩) ++
    sortBy StageCand.le ((s.tiers.records.flatMap (fun r => s.predictions r limit hints)).filter (fun c => c.at_.all (· ≤ limit)))

/-- The predicted use of an object in an array, if any (R230). -/
def State.predictedUse (s : State) (obj n : Nat) : Option Nat :=
  let ts := (s.tiers.records.flatMap (fun r => s.predictions r (2 ^ 64) false)).filterMap (fun c => if c.obj == obj && c.arr == n then c.at_ else none)
  match ts with
  | [] => none
  | t :: rest => some (rest.foldl min t)

/-- Objects that an in-flight instruction, DMA descriptor, message or mask operation, or the update unit, reads or writes (R231). -/
def State.pinned (s : State) : List Nat :=
  s.ring.ctxs.flatMap (fun c => c.2.recvs.flatMap (·.objs) ++ c.2.sends.flatMap (·.objs)) ++
  s.mask.queue.flatMap (·.objs) ++ s.mask.running.toList.flatMap (·.1.objs) ++
  s.arrays.flatMap (fun a => a.ops.flatMap (·.objs) ++ (a.queueF ++ a.queueB ++ a.queueU ++ a.lane.toList.map (·.desc)).flatMap (·.objs) ++ a.updCur.toList.filterMap (fun c => (s.weight? c.wt).map (fun w => (w.tileObj s.mem c.entry).obj)))

/-- Frames of an array's window (R227). -/
def State.windowFrames (s : State) (n : Nat) : Nat := ((s.window n).map (fun r => r.size / 8192)).getD 0

/-- Frames of an array's window that hold no object. -/
def State.freeFrames (s : State) (n : Nat) : List Nat :=
  let used := (s.tiers.staged.filter (fun t => t.arr == n)).flatMap (·.frames)
  (List.range (s.windowFrames n)).filter (fun f => !used.contains f)

/-- A victim with its predicted use. -/
structure Victim where
  use : Option Nat
  staged : Staged
  deriving DecidableEq, Repr

/-- Order of victims: no prediction first, then the latest predicted, then the lowest address (R230). -/
def Victim.le (x y : Victim) : Bool :=
  match x.use, y.use with
  | none, some _ => true
  | some _, none => false
  | none, none => x.staged.obj ≤ y.staged.obj
  | some a, some b => b < a || (a == b && x.staged.obj ≤ y.staged.obj)

/-- The objects of a window that a candidate may evict, in the order they are chosen. -/
def State.victims (s : State) (c : StageCand) : List Staged :=
  let pins := s.pinned
  let vs := (s.tiers.staged.filter (fun t => t.arr == c.arr && !t.arriving && !pins.contains t.obj)).map (fun t => (⟨s.predictedUse t.obj c.arr, t⟩ : Victim))
  let vs := vs.filter (fun v => match c.at_, v.use with
    | some t, some u => t < u
    | _, _ => true)
  (sortBy Victim.le vs).map (·.staged)

/-- The least prefix of victims that frees `need` frames, if they suffice. -/
def takeVictims : Nat → List Staged → Option (List Staged)
  | need, [] => if need = 0 then some [] else none
  | need, t :: rest => if need = 0 then some [] else (takeVictims (need - t.frames.length) rest).map (t :: ·)

/-- Takes staged copies out of their windows; a dirty one is written back first (R231). -/
def State.unstage (s : State) (ts : List Staged) : State :=
  ({ s with tiers := { s.tiers with staged := s.tiers.staged.filter (fun t => !ts.contains t) } }).bump64 Reg.TIR_WRITEBACK (ts.filter (fun (t : Staged) => t.dirty)).length

/-- A state tile staged in another window: its copy there (R227, R231). -/
def State.elsewhere (s : State) (c : StageCand) : Option Staged :=
  if (s.stateTileAt c.obj).isSome then s.tiers.staged.find? (fun t => t.obj == c.obj && t.arr != c.arr) else none

/-- Begins to stage a candidate into its free frames, counting a demand no prediction had made. -/
def State.beginStage (s : State) (c : StageCand) (need : Nat) : State :=
  let fs := (s.freeFrames c.arr).take need
  let s := { s with tiers := { s.tiers with staged := s.tiers.staged ++ [(⟨c.obj, c.arr, fs, true, false⟩ : Staged)] } }
  s.bump Reg.TIR_MISS (bnat c.at_.isNone)

/-- The engine acts on one candidate (R230, R231). -/
def State.placeOne (s : State) (c : StageCand) : State :=
  if (s.staged? c.arr c.obj).isSome then s
  else match s.objAt c.obj with
    | none => s
    | some o =>
      let need := o.frames
      let moveOk := match s.elsewhere c with
        | some t => !t.arriving && !s.pinned.contains t.obj
        | none => true
      if !moveOk then s
      else
        let free := (s.freeFrames c.arr).length
        match takeVictims (need - free) (s.victims c) with
        | none => s
        | some vs =>
          if s.windowFrames c.arr < need then s
          else
            let s := match s.elsewhere c with
              | some t => (s.unstage [t]).bump Reg.TIR_MIGRATE 1
              | none => s
            ((s.unstage vs).bump64 Reg.TIR_EVICT vs.length).beginStage c need

/-- The engine writes back every dirty tile that is not pinned; its frames stay staged. It acts at ticks, so at the first one after the unit has unpinned the tile (R230, R231; DESIGN CHOICE, log 90). -/
def State.writeBackDirty (s : State) : State :=
  let pins := s.pinned
  let due := fun (t : Staged) => t.dirty && !pins.contains t.obj
  ({ s with tiers := { s.tiers with staged := s.tiers.staged.map (fun (t : Staged) => if due t then { t with dirty := false } else t) } }).bump64
    Reg.TIR_WRITEBACK (s.tiers.staged.filter due).length

/-- PLACEMENT_TICK: the engine writes back what is dirty and goes through its candidates of this tick (R230, R231). -/
def execPlacementTick (s : State) : Host.Outcome State Fault Refusal :=
  let t := s.writeBackDirty
  .next (t.candidates.foldl (fun (s : State) c => s.placeOne c) t)

/-! ### STAGING_COMPLETE (R216, R231) -/

/-- Bytes of an object as its far-tier pieces hold them. -/
def ObjInfo.bytes (o : ObjInfo) (m : Cells) : List Byte := o.pieces.flatMap (fun p => memGet m p.1 p.2)

/-- Writes an object into its frames. -/
def State.fillFrames (s : State) (t : Staged) (bs : List Byte) : State :=
  let base := ((s.window t.arr).map (·.base)).getD 0
  { s with mem := (chunks t.frames.length 8192 bs).zipIdx.foldl (fun (m : Cells) (x : List Byte × Nat) => memPut m (base + t.frames.getD x.2 0 * 8192) x.1) s.mem }

/-- Cycles deferred tiles of an object have waited, counted when its staging completes (R200). -/
def State.endDeferral (s : State) (n obj : Nat) : State :=
  (s.arr n).deferred.foldl (fun (s : State) d => match s.weight? d.wt with
    | some w => if (w.tileObj s.mem d.entry).obj == obj then s.bumpArr64 n Reg.ARR_UPD_DEFER_CYC (s.cycle - d.sinceCycle) else s
    | none => s) s

/-- STAGING_COMPLETE: the object has arrived in the window; holds and deferrals on it end. An uncorrectable block faults the staging with ECC_FAR (R216). -/
def execStagingComplete (window obj : Nat) (s : State) : Host.Outcome State Fault Refusal :=
  match s.staged? window obj, s.objAt obj with
  | some t, some o =>
    if !t.arriving then .next s
    else
      let done := { s with tiers := { s.tiers with requests := s.tiers.requests.filter (fun q => q != (⟨obj, window⟩ : PlRequest)) } }
      let done := done.corrected o.pieces
      match s.eccRanges o.pieces with
      | some (code, bad) =>
        .next ((done.unstage [t]).raise { FaultRec.of code 8 with arr := window, addr := bad, aux := s.channelOf bad })
      | none =>
        let s := { done with tiers := { done.tiers with staged := done.tiers.staged.map (fun (x : Staged) => if x == t then { x with arriving := false } else x) } }
        .next (((s.fillFrames t (o.bytes s.mem)).bump64 Reg.TIR_STAGED 1).endDeferral window obj)
  | _, _ => .next s

/-! ### STAGE_HOLD_TIMEOUT (R232) -/

/-- The head of a stream faults while it is held; it stays the head, which may still become past due (R244, R427). -/
def State.failHead (s : State) (n : Nat) (st : Stream) (hi : HeadInfo) (code addr : Nat) : State :=
  let r := { FaultRec.of code 1 with arr := n, stream := st.idx, pc := (s.ctx n st).pc, opcode := hi.opcode, addr := addr }
  (s.modCtx n st (fun c => { c with failed := true, head := some { hi with hold := .step } })).raise r

/-- STAGE_HOLD_TIMEOUT: a staging hold has lasted TIR_STAGE_LIMIT ticks and one of the objects it waits for is not staged; the instruction faults with STATE_TIMEOUT unless R340 silences it. -/
def execStageHoldTimeout (arr : Nat) (stream : Stream) (s : State) : Host.Outcome State Fault Refusal :=
  match (s.ctx arr stream).head with
  | some hi =>
    match hi.wants.find? (fun w => !s.isStaged w.2 w.1) with
    | some w =>
      if hi.hold != .staging || (s.ctx arr stream).failed || !s.mayTimeOut || s.tick < hi.sinceTick + s.regN Reg.TIR_STAGE_LIMIT then .next s
      else .next (s.failHead arr stream hi 0x31 w.1)
    | none => .next s
  | none => .next s

end Sys2Proof.Machine
end

