-- ==== Sys2Proof/Machine/Reply.lean ====
section
/-! DEFINITION. Replies of Sage and the pending command (R378, R383 to R385). -/

namespace Sys2Proof.Machine

/-- Status codes (R384). -/
abbrev Status.done : Nat := 0
abbrev Status.pending : Nat := 1
abbrev Status.refused : Nat := 2
abbrev Status.state : Nat := 3
abbrev Status.transfer : Nat := 4
abbrev Status.owner : Nat := 5

/-- The bytes of a reply: header, then result data (R383). -/
def replyBytes (c : CmdHdr) (opcode status fault period detail : Nat) (data : List Byte) : List Byte :=
  leBytes 4 c.tag.toNat ++ leBytes 2 opcode ++ leBytes 2 status ++ leBytes 1 fault ++ zeros 3 ++ leBytes 4 data.length ++
    leBytes 8 period ++ leBytes 4 detail ++ leBytes 4 (~~~c.tag).toNat ++ data

/-- Signals MSI-X vector 0 when the packet asked for it (R378, R380). -/
def State.signalReply (s : State) (c : CmdHdr) : State :=
  if c.irq then { s with flt := { s.flt with msix := s.flt.msix ++ [0] } } else s

/-- Writes a reply into host memory at an address; over a link that is down it is lost (R379). -/
def State.putReply (s : State) (c : CmdHdr) (addr opcode status fault detail : Nat) (data : List Byte) : State :=
  if !s.hostLink then s
  else ({ s with hostMem := memPut s.hostMem addr (replyBytes c opcode status fault s.period detail data) }).signalReply c

/-- An immediate reply; the command is completed (R383). -/
def State.reply (s : State) (c : CmdHdr) (opcode status fault detail : Nat) (data : List Byte) : State :=
  (s.putReply c c.replyAddr opcode status fault detail data).bump Reg.HST_CMDS 1

/-- A command carried out with no result data. -/
def State.replyDone (s : State) (c : CmdHdr) (opcode : Nat) : State := s.reply c opcode Status.done 0 0 []

/-- A refusal with its fault code. -/
def State.refuse (s : State) (c : CmdHdr) (opcode fault detail : Nat) : State := s.reply c opcode Status.refused fault detail []

/-- PENDING at reply_addr, with the command kept until its final reply (R385). -/
def State.replyPending (s : State) (c : CmdHdr) (opcode arg : Nat) : State :=
  let s := s.putReply c c.replyAddr opcode Status.pending 0 0 []
  { s with host := { s.host with pendingCmd := some ⟨c, opcode, arg⟩ } }

/-- PENDING and then the final reply of a command that Sage completes at once in the model. -/
def State.replyBoth (s : State) (c : CmdHdr) (opcode status fault detail : Nat) (data : List Byte) : State :=
  ((s.putReply c c.replyAddr opcode Status.pending 0 0 []).putReply c (c.replyAddr + 256) opcode status fault detail data).bump Reg.HST_CMDS 1

/-- The final reply of the pending command, at reply_addr + 256. -/
def State.finalReply (s : State) (status fault detail : Nat) (data : List Byte) : State :=
  match s.host.pendingCmd with
  | none => s
  | some p =>
    let s := s.putReply p.hdr (p.hdr.replyAddr + 256) p.opcode status fault detail data
    ({ s with host := { s.host with pendingCmd := none } }).bump Reg.HST_CMDS 1

/-- Whether a command of an opcode is pending. -/
def State.pendingIs (s : State) (opcode : Nat) : Bool := s.host.pendingCmd.any (fun p => p.opcode == opcode)

end Sys2Proof.Machine
end

