-- ==== Sys2Proof/Machine/Ring.lean ====
section
/-! DEFINITION. The ring engine above its links: messages, contexts, the global norm, reports and beacons, and the twin's step agreement (R306, R321 to R331, R337 to R341, R344 to R347, R353 to R357). -/

namespace Sys2Proof.Machine

/-! ### Contexts -/

/-- A context entry; `none` when it is FREE. -/
def State.ctxE? (s : State) (i : Nat) : Option CtxEntry := (s.ring.ctxs.find? (fun c => c.1 == i)).map Prod.snd

/-- Changes a context entry. -/
def State.modCtxE (s : State) (i : Nat) (g : CtxEntry → CtxEntry) : State :=
  { s with ring := { s.ring with ctxs := s.ring.ctxs.map (fun (c : Nat × CtxEntry) => if c.1 == i then (c.1, g c.2) else c) } }

/-- Adds an entry for a FREE index. -/
def State.addCtxE (s : State) (i : Nat) (e : CtxEntry) : State := { s with ring := { s.ring with ctxs := s.ring.ctxs ++ [(i, e)] } }

/-- Frees an entry. -/
def State.freeCtxE (s : State) (i : Nat) : State := { s with ring := { s.ring with ctxs := s.ring.ctxs.filter (fun c => c.1 != i) } }

/-- Send-queue entries in use on a port (R321). -/
def State.sendqUsed (s : State) (p : Nat) : Nat :=
  (s.ring.ctxs.map (fun c => (c.2.recvs.filter (fun r => r.port == p)).length + (c.2.sends.filter (fun x => x.port == p)).length)).sum

/-- Sends a frame to the partner of a context: over the mirror port where the record or the context table names it, else along R313. -/
def State.toPartner (s : State) (i : Nat) (c : CtxEntry) (port typ : Nat) (tag : W32) (offset : Nat) (aux : W32) (bs : List Byte) : State :=
  s.sendTo (port == 4) c.partner { ctlFrame typ c.partner s.ring.addr c.partnerCtx i tag offset aux with payload := bs }

/-! ### RSEND and RRECV (R306, R321 to R324, R327) -/

/-- A ring fault of an instruction: block 0x0B, the context as its object. -/
def State.ringFault (_s : State) (arr : Nat) (st : Stream) (pc opcode ctx code row addr : Nat) : FaultRec :=
  { FaultRec.of code 0x0B with arr := arr, stream := st.idx, pc := pc, opcode := opcode, object := ctx, check := row, addr := addr }

/-- The record's port names the first port of the route to the partner, or 4 for the twin (R322). -/
def State.portOk (s : State) (c : CtxEntry) (p : Nat) : Bool :=
  p == s.route c.partner && p < 4 || p == 4 && s.mir.paired && c.partner == s.mir.twin

/-- A working-copy buffer of a bound weight that [a, a + n) touches is not writing (R324). -/
def State.closedBuffer (s : State) (a n : Nat) : Bool :=
  s.mask.weights.any (fun e => [(e.2.wc0, e.2.v0), (e.2.wc1, e.2.v1)].any (fun b =>
    b.1 < a + n && a < b.1 + dirSpan s.mem b.1 && b.2.st != .writing))

/-- A reserved format code in `buf` faults at decode (R20). -/
def ringBadFormat (r : RingRec) : Option Nat := if 11 ≤ r.buf.format.toNat then some 0 else none

/-- Issue checks of RSEND and RRECV. -/
def State.ringCheck (s : State) (h : Head) (r : RingRec) (recv : Bool) : Option CheckFail :=
  let i := r.ctx.toNat
  let a := (s.ctx h.arr h.stream).oref r.buf
  let n := r.len.toNat
  let e := s.ctxE? i
  let range :=
    if recv then a % 32 != 0 || !s.allowed a n ringUser (if r.add then .add else .write) false ||
      (r.add && (r.buf.format != 0#5 || (gradOf a).isNone)) || s.closedBuffer a n
    else !s.operandOk h.stream .read a n
  firstFail [
    failIf (4 < r.port.toNat) 0x24 1,
    failIf (8192 ≤ i || (match e with
      | some c => c.st == .service
      | none => true)) 0x21 2,
    failIf (r.len == 0#32 || n % 32 != 0) 0x23 3,
    failIf range 0x10 4,
    failIf (e.any (fun c => c.st == .open_ && !s.portOk c r.port.toNat)) 0x24 0]

/-- What issue needs to know of a ring instruction. -/
def State.ringInfo (s : State) (h : Head) (ref : SRef) (r : RingRec) (recv : Bool) : IssueInfo :=
  let e := s.ctxE? r.ctx.toNat
  let opcode := if recv then 0x81 else 0x80
  { IssueInfo.simple opcode [] with
    noRecompute := recv
    record := some (ref, 64)
    decodeBad := ringBadFormat r
    units := [r.port.toNat]
    hold :=
      if e.any (fun c => c.st == .declared) then some .ctx
      else if e.any (fun c => c.st == .open_) && 256 ≤ s.sendqUsed r.port.toNat + s.ahead h .sendq [r.port.toNat] then some .sendq
      else none
    check := (s.ringCheck h r recv).map (s.checkFault h opcode r.ctx.toNat)
    object := r.ctx.toNat }

/-- Enters a message of cycle `at_` and array `arr` behind all others but those of its own cycle from higher logical arrays (R363). -/
def insertMessage {α : Type} (order : α → Nat × Nat) (x : α) (q : List α) : List α :=
  let later := fun (y : α) => (order y).1 == (order x).1 && (order x).2 < (order y).2
  q.filter (fun y => !later y) ++ [x] ++ q.filter later

/-- A message becomes outstanding on an idle context: its silence counts from now (R337, log 32). -/
def CtxEntry.touch (c : CtxEntry) (period : Nat) : CtxEntry := if c.busy then c else { c with lastFrame := period }

/-- RSEND: queues a message; on a LOST context, and under the recompute flag, it moves no data (R143, R321, R327). It uses the managed objects that it reads, and pins them until it retires (R229, R231). -/
def execRsend (h : Head) (ref : SRef) (r : RingRec) (s : State) : Host.Outcome State Fault Refusal :=
  let c := s.ctx h.arr h.stream
  let m := s.markOf h
  let objs := s.readObjs [(c.oref r.buf, r.len.toNat)]
  let x : Send := ⟨h.arr, h.stream, c.pc, m, m + h.delta.toNat, c.curStep, s.headLate h, r.tag.toNat, r.len.toNat, c.oref r.buf, r.port.toNat, false,
    s.cycle + s.lat 0x37, s.cycle, objs.map (·.obj)⟩
  if c.recompute.isSome then issue h { IssueInfo.simple 0x80 [] with record := some (ref, 64), decodeBad := ringBadFormat r } (fun _ t => t) s
  else issue h (s.ringInfo h ref r false) (fun _ t =>
    (t.recordUses h.arr (if (t.ctxE? r.ctx.toNat).any (·.st == .open_) then objs else [])).modCtxE r.ctx.toNat (fun e =>
      if e.st == .open_ then { e.touch s.period with sends := insertMessage (fun y => (y.at_, y.arr)) x e.sends } else e)) s

/-- RRECV: queues a receive, which is armed after its latency; on a LOST context it moves no data (R321, R327). -/
def execRrecv (h : Head) (ref : SRef) (r : RingRec) (s : State) : Host.Outcome State Fault Refusal :=
  let c := s.ctx h.arr h.stream
  let m := s.markOf h
  let x : Recv := ⟨h.arr, h.stream, c.pc, m, m + h.delta.toNat, c.curStep, s.headLate h, r.tag.toNat, r.len.toNat, c.oref r.buf, r.port.toNat, r.add, 0,
    (s.arr h.arr).issueSeq, [], [], false, s.cycle + s.lat 0x37, s.cycle, (s.readObjs [(c.oref r.buf, r.len.toNat)]).map (·.obj)⟩
  issue h (s.ringInfo h ref r true) (fun _ t =>
    t.modCtxE r.ctx.toNat (fun e =>
      if e.st == .open_ then { e.touch s.period with recvs := insertMessage (fun y => (y.at_, y.arr)) x e.recvs } else e)) s

/-- Sends the ARM of every receive whose latency has passed. -/
def State.armDue (s : State) (i : Nat) : State :=
  match s.ctxE? i with
  | none => s
  | some c =>
    let due := fun (r : Recv) => !r.armed && r.readyAt ≤ s.cycle
    let s1 := (c.recvs.filter due).foldl (fun (s : State) r => s.toPartner i c r.port 1 (BitVec.ofNat 32 r.tag) 0 (BitVec.ofNat 32 r.len) []) s
    s1.modCtxE i (fun e => { e with recvs := e.recvs.map (fun (r : Recv) => if due r then { r with armed := true } else r) })

/-- Takes the first unsent RSEND of a context against its first unused ARM: DATA frames go out, or the RSEND faults (R321, R322). -/
def State.sendOne (s : State) (i : Nat) (c : CtxEntry) (x : Send) (arm : Nat × Nat) (arms : List (Nat × Nat)) : State :=
  let s1 := s.modCtxE i (fun e => { e with arms := arms })
  let drop := s1.modCtxE i (fun e => { e with sends := e.sends.erase x })
  let fault := s.ringFault x.arr x.stream x.pc 0x80 i
  if arm.1 != x.tag then drop.raise (fault 0x22 0 0)
  else if arm.2 != x.len then drop.raise (fault 0x23 0 0)
  else match s.eccBad x.buf x.len with
    | some (code, bad) => drop.raise { fault code 0 bad with aux := s.faultAux x.arr code bad }
    | none =>
      let s1 := s1.corrected [(x.buf, x.len)]
      let s2 := (chunks (cdiv x.len 512) 512 (s.get x.buf x.len)).zipIdx.foldl (fun (s : State) (b : List Byte × Nat) =>
        s.toPartner i c x.port 0 (BitVec.ofNat 32 x.tag) (16 * b.2) 0 b.1) s1
      s2.modCtxE i (fun e => { e with sends := e.sends.map (fun (y : Send) => if y == x then { y with sent := true } else y) })

/-- Sends what a context can send: `fuel` bounds the number of messages. -/
def State.sendDue : Nat → Nat → State → State
  | 0, _, s => s
  | fuel + 1, i, s =>
    match s.ctxE? i with
    | none => s
    | some c =>
      match c.sends.find? (fun x => !x.sent), c.arms with
      | some x, a :: rest => if s.cycle < x.readyAt then s else State.sendDue fuel i (s.sendOne i c x a rest)
      | _, _ => s

/-- What falls due on the contexts in this cycle (R310, R321). -/
def State.settleRing (s : State) : State :=
  s.ring.ctxs.foldl (fun (s : State) (c : Nat × CtxEntry) => if c.2.busy then State.sendDue c.2.sends.length c.1 (s.armDue c.1) else s) s

/-! ### Links: receiving a frame (R317, R320) -/

/-- Acknowledged frames leave the replay buffer. -/
def Port.acked (q : Port) (ack : Nat) : Port :=
  let n := (ack + 65536 - q.ackedTo) % 65536
  if n = 0 || q.replay.length < n then q else { q with replay := q.replay.drop n, ackedTo := ack, replays := 0 }

/-- Acknowledgement frame of a port; aux bit 0 marks a negative one (R318). -/
def State.sendAck (s : State) (p : Nat) (nack : Bool) : State :=
  s.sendFrame p (ctlFrame 3 (s.port p).far s.ring.addr 0 0 0 0 (BitVec.ofNat 32 (bnat nack)))

/-- BAR0 offset of a port's register. -/
def portReg (p rel : Nat) : Nat := portBase p + rel

/-- Early frames of a context that hold back credit (R323). -/
def State.heldFrames (s : State) (i : Nat) : Nat :=
  match s.ring.ctxs.find? (fun c => c.1 == i) with
  | some c => (c.2.recvs.map (fun r => r.held.length)).sum
  | none => 0

/-- Whether a frame stays in the receive buffer: its units came early (R323). -/
def State.holdsCredit (t : State) (f : Frame) (s : State) : Bool := s.heldFrames f.dstCtx < t.heldFrames f.dstCtx

/-- A frame of a module other than the master has been heard (R241). -/
def State.hears (s : State) (f : Frame) : State :=
  if f.src == s.thy.masterAddr || f.src == s.ring.addr then s else { s with ring := { s.ring with heardAt := some s.period } }

/-- Whether a frame has been received before: its number lies up to half the number space behind the next one (R320). -/
def Port.seenBefore (q : Port) (f : Frame) : Bool :=
  let d := (q.rxSeq + 65536 - f.linkSeq) % 65536
  0 < d && d ≤ 32768

/-- Link layer of an arriving frame: CRC and sequence, acknowledgements, credit; then the frame's own effect. An out-of-sequence frame is dropped, and one that has come before is acknowledged again: go-back-N (R320). -/
def State.linkIn (s : State) (typ : Nat) (f : Frame) (k : State → State) : State :=
  let q := s.port f.port
  if 5 ≤ f.port || q.st != .up then s
  else if !f.crcOk then (s.bump (portReg f.port Reg.RNG_P_CRC) 1).sendAck f.port true
  else if f.linkSeq != q.rxSeq then
    s.modPort f.port (fun q => { q.acked f.ackSeq with rxSinceAck := q.rxSinceAck + bnat (q.seenBefore f) })
  else
    let s := (s.hears f).modPort f.port (fun q => ({ q.acked f.ackSeq with rxSeq := (q.rxSeq + 1) % 65536, rxSinceAck := q.rxSinceAck + 1 } : Port).pumped)
    let s := if 32 ≤ (s.port f.port).rxSinceAck then s.sendAck f.port false else s
    let t := k s
    if t.holdsCredit f s then t else t.giveCredit f.port (typeClass typ) f.vc 1

/-- A frame as it is sent on. -/
def frameOut (f : Frame) (typ vc : Nat) : OutFrame := ⟨typ, f.dst, f.src, f.dstCtx, f.srcCtx, f.tag, f.offset, f.aux, vc, f.payload, none⟩

/-- Sends a frame on towards its destination, or discards it (R313, R318). -/
def State.forwardOn (s : State) (typ : Nat) (f : Frame) : State :=
  let p := s.route f.dst
  let turned := f.port < 2 && 2 ≤ p
  if 13 ≤ typ || s.deadEnd p f.dst then s.bump Reg.RNG_DISCARD 1
  else s.sendFrame p (frameOut f typ (if turned then 0 else f.vc))

/-- A frame that has passed the link layer reaches this module, or goes on (R313). -/
def State.arrives (s : State) (typ : Nat) (f : Frame) (k : State → State) : State :=
  s.linkIn typ f (fun s => if f.port == 4 || f.dst == s.ring.addr then k s else s.forwardOn typ f)

/-! ### Step agreement (R347, R353 to R357) -/

/-- Ports and Bays change together: an engaged Bay puts its ports into training, THROUGH takes them down (R332, R334). -/
def State.setBays (s : State) (x y m : Bool) : State :=
  let r := s.ring
  let n := bnat (r.bayX != x) + bnat (r.bayY != y) + bnat (r.bayM != m)
  let go := fun (old new : Bool) (ps : List Nat) (s : State) =>
    if old == new then s
    else ps.foldl (fun (s : State) p =>
      let s := s.modPort p (fun q => { Port.reset with wire := q.wire })
      if new then s.trainPort p else s) s
  let s := go r.bayM m [4] (go r.bayY y [2, 3] (go r.bayX x [0, 1] s))
  ({ s with ring := { s.ring with bayX := x, bayY := y, bayM := m } }).bump Reg.RNG_BAY_CHANGES n

/-- A planned change of the Bays to (x, y, m) would interrupt a job that runs: the module's own, or one of other modules whose frames cross the X and Y hops, which no command tells: a free bit (R334; DESIGN CHOICE, log 99). -/
def State.hopsBusy (s : State) (x y m : Bool) : Bool :=
  let rings := s.ring.bayX != x || s.ring.bayY != y
  (rings || s.ring.bayM != m) && (s.host.st == .running || (rings && s.freeWord.getLsbD 0))

/-- The module fences itself; a restart that it has accepted and that still waits does not take place (R354). -/
def State.fence (s : State) : State :=
  ({ s with mir := { s.mir with fenced := true }, flt := { s.flt with stopAsked := true, stopped := true }, host := { s.host with restart := none } }).setBays false false false

/-- Discards generations whose step is agreed, or whose module is unpaired, once the boundary into step + 2 has passed (R349). -/
def State.pruneGens (s : State) : State :=
  { s with mir := { s.mir with gens := s.mir.gens.filter (fun g => !((g.agreed || !s.mir.paired || s.mir.survivor) && g.step + 2 ≤ s.stp.step)) } }

/-- The halves agree: step s is agreed, and a replayed divergence is resolved (R347, R357 outcome 2). -/
def State.agree (s : State) (step : Nat) : State :=
  let gens := s.mir.gens.map (fun (g : JGen) => if g.step == step then { g with agreed := true } else g)
  let s := ({ s with mir := { s.mir with gens := gens } }).bump Reg.MIR_AGREE 1
  let s := s.setReg64 Reg.MIR_STEP_AGREED step
  let s :=
    if s.mir.replayed.contains step then
      (({ s with mir := { s.mir with replayed := s.mir.replayed.erase step } }).bump Reg.MIR_REPLAYS 1).postEvent 0x80 2 s.ring.addr (step % 2 ^ 32)
    else s
  s.pruneGens

/-- The halves differ: report and stop; the first time the host replays, after a replay the twins test themselves (R347, R357). -/
def State.diverge (s : State) (step : Nat) : State :=
  let again := s.mir.replayed.contains step
  let ecc := s.eccReported
  let first := !ecc && !again
  let mir := { s.mir with diverged := true, divStep := if first then some step else s.mir.divStep }
  let s := ({ s with mir := mir }).setBits Reg.MIR_STATUS 0x40
  let s := s.report s.twin0 0x80
  if ecc then s
  else if again then
    let s := (s.postEvent 0x80 3 s.ring.addr (step % 2 ^ 32)).setReg Reg.MIR_SELFTEST 0
    (List.range s.nArrays).foldl (fun (s : State) n => s.selfTest n) { s with mir := { s.mir with testing := true, passOwn := false } }
  else
    ((s.bump Reg.MIR_DIVERGE 1).setReg64 Reg.MIR_DIV_STEP step).postEvent 0x80 1 s.ring.addr (step % 2 ^ 32)

/-- Compares the halves of the agreement record; an uncorrectable word or block under them faults instead (R209, R216, R347). -/
def State.compareHalves (s : State) (step agree : Nat) : State :=
  match s.eccBad agree 64 with
  | some (code, bad) => s.raise { FaultRec.of code 0x0C with addr := bad, aux := s.faultAux 0 code bad }
  | none =>
    let s := s.corrected [(agree, 64)]
    if s.get agree 32 == s.get (agree + 32) 32 then s.agree step else s.diverge step

/-- A receive on port 4 that lands in bytes 32 to 63 of the agreement record compares them. -/
def State.maybeCompare (s : State) (r : Recv) : State :=
  match s.mir.desc with
  | some d => if s.mir.paired && r.port == 4 && r.buf < d.agree + 64 && d.agree + 32 < r.buf + r.len then s.compareHalves r.step d.agree else s
  | none => s

/-! ### DATA (R321 to R323, R345) -/

/-- The receive a DATA frame is for: the first armed one of its context whose bytes have not all arrived (R321, R323). -/
def CtxEntry.current (c : CtxEntry) : Option Recv := c.recvs.find? (fun r => r.armed && r.arrived < r.len)

/-- Whether a receive is the first of its context: messages of one context land in issue order (R321). -/
def CtxEntry.isFirst (c : CtxEntry) (r : Recv) : Bool := (c.recvs.head?).any (fun x => x.arr == r.arr && x.seq == r.seq)

/-- Replaces a receive. -/
def State.setRecv (s : State) (i : Nat) (old new : Recv) : State :=
  s.modCtxE i (fun e => { e with recvs := e.recvs.map (fun (r : Recv) => if r == old then new else r) })

/-- Takes a receive out of its context; the credit that its early frames held back returns (R319, R323). -/
def State.dropRecv (s : State) (i : Nat) (r : Recv) : State := (s.modCtxE i (fun e => { e with recvs := e.recvs.erase r })).releaseHeld r

/-- Earlier adding receives of other contexts that still have to touch [a, a + n) (R323). -/
def State.earlierRecvs (s : State) (i arr seq a n : Nat) : Bool :=
  s.ring.ctxs.any (fun c => c.1 != i && c.2.recvs.any (fun r => r.add && r.arr == arr && r.seq < seq && r.owes a n))

/-- Earlier MMGs and DADDs alone: what an any_order receive still waits for (R323). -/
def State.earlierLocal (s : State) (arr seq a n : Nat) : Bool :=
  let x := s.arr arr
  let ds := x.queueF ++ x.queueB ++ x.queueU ++ x.lane.toList.map (·.desc)
  s.earlierMmgs arr seq a n || ds.any (fun d => d.kind == .add && d.seq < seq && d.dst < a + n && a < d.dst + d.len)

/-- Whether a unit of a receive may land or be added now (R321, R323). -/
def State.unitReady (s : State) (c : CtxEntry) (r : Recv) (a n : Nat) : Bool :=
  c.isFirst r && (!r.add ||
    (if c.anyOrder then !s.earlierLocal r.arr r.seq a n
     else !s.earlierMmgs r.arr r.seq a n && !s.earlierAdds r.arr r.seq a n))

/-- Adds one 32-byte unit through the adder of its slice (R156). -/
def State.addUnit (s : State) (arr a : Nat) (bs : List Byte) : State :=
  s.addWords ((gradOf a).getD arr) a false ((chunks (bs.length / 4) 4 bs).map (fun b => some (BitVec.ofNat 32 (leNat b))))

/-- Applies a unit of a receive. An added one that goes ahead of an earlier adding receive is counted as non-deterministic (R323). -/
def State.applyUnit (s : State) (i : Nat) (c : CtxEntry) (r : Recv) (a : Nat) (bs : List Byte) : State :=
  if r.add then
    let ahead := c.anyOrder && s.earlierRecvs i r.arr r.seq a bs.length
    let s := if ahead then s.nondet Reg.DET_ND_RING else s
    s.addUnit r.arr a bs
  else s.putMem a bs

/-- A receive whose bytes have all landed retires: DONE goes to the sender (R321). -/
def State.finishRecv (s : State) (i : Nat) (c : CtxEntry) (r : Recv) : State :=
  if r.got < r.len || !r.early.isEmpty then s
  else ((s.dropRecv i r).toPartner i c r.port 2 (BitVec.ofNat 32 r.tag) 0 0 []).maybeCompare r

/-- One unit of a receive arrives: applied, or kept early. -/
def State.unitIn (i : Nat) (c : CtxEntry) (x : State × Recv) (u : Nat × List Byte) : State × Recv :=
  let a := x.2.buf + u.1
  if x.1.unitReady c x.2 a u.2.length then (x.1.applyUnit i c x.2 a u.2, { x.2 with got := x.2.got + u.2.length })
  else (x.1, { x.2 with early := x.2.early ++ [u] })

/-- The payload of a DATA frame lands; behind an earlier receive of the context that still waits it stays in the port's receive buffer, as early units do (R321, R323; the buffer: DESIGN CHOICE, log 107). -/
def State.dataLands (s : State) (i : Nat) (c : CtxEntry) (r : Recv) (port vc ofs : Nat) (bs : List Byte) : State :=
  if r.add || !c.isFirst r then
    let us := (chunks (cdiv bs.length 32) 32 bs).zipIdx.map (fun (b, j) => (ofs + 32 * j, b))
    let (s', r') := us.foldl (State.unitIn i c) (s, r)
    let r' := if r.early.length < r'.early.length then { r' with held := r'.held ++ [⟨port, vc, ofs, bs.length⟩] } else r'
    (s'.setRecv i r r').finishRecv i c r'
  else
    let r' := { r with got := r.got + bs.length }
    ((s.putMem (r.buf + ofs) bs).setRecv i r r').finishRecv i c r'

/-- A frame that the receive cannot take is discarded, and the receive faults with ALLOC_OVERFLOW (R212, R322). -/
def State.discardData (s : State) (i : Nat) (r : Option Recv) (a : Nat) : State :=
  let s := s.bump Reg.RNG_DISCARD 1
  match r with
  | some r => (s.dropRecv i r).raise { s.ringFault r.arr r.stream r.pc 0x81 i 0x10 0 a with aux := s.regionIdx a }
  | none => s.raise { FaultRec.of 0x10 0x0B with object := i }

/-- The effect of a DATA frame for this module. -/
def State.dataIn (s : State) (f : Frame) : State :=
  match s.ctxE? f.dstCtx with
  | none => s.discardData f.dstCtx none 0
  | some c =>
    let r? := c.current
    let ofs := 32 * f.offset
    if c.st != .open_ then s.discardData f.dstCtx r? 0
    else match r? with
      | none => s.discardData f.dstCtx none 0
      | some r =>
        let a := r.buf + ofs
        let n := f.payload.length
        let s := s.modCtxE f.dstCtx (fun e => { e with lastFrame := s.period })
        if r.len < ofs + n then s.discardData f.dstCtx r? a
        else if !s.allowed a n ringUser (if r.add then .add else .write) false then s.discardData f.dstCtx r? a
        else match (if r.add then s.eccBad a n else none) with
          | some (code, bad) =>
            (s.dropRecv f.dstCtx r).raise { s.ringFault r.arr r.stream r.pc 0x81 f.dstCtx code 0 bad with aux := s.faultAux r.arr code bad }
          | none => (if r.add then s.corrected [(a, n)] else s).dataLands f.dstCtx c r f.port f.vc ofs f.payload

/-- Step that a forwarding frame belongs to: src_ctx holds its upper 16 bits (log 30). -/
def frameStep (f : Frame) : Nat := f.tag.toNat + 2 ^ 32 * f.srcCtx

/-- Address a forwarding frame names. -/
def forwardAddr (f : Frame) : Nat := 32 * f.offset + 2 ^ 37 * (f.aux.toNat % 65536)

/-- The bytes that a forwarding frame brings: zeros fill its last unit (R317). -/
def forwardBody (f : Frame) : List Byte := f.payload.take (f.aux.toNat / 2 ^ 16 % 1024)

/-- Both twins have passed the self-test of a second divergence: the domain is held (R357 outcome 4). How a twin learns that the other has passed is stated nowhere: a mark on the mirror port tells it (DESIGN CHOICE, log 93). -/
def State.settlePasses (s : State) : State :=
  if s.mir.passOwn && s.mir.passTwin && !s.mir.survivor then
    let s := { s with mir := { s.mir with passOwn := false, passTwin := false } }
    (s.recordFault { FaultRec.of 0x80 0x0C with subject := s.twin0, aux := 4 }).postEvent 0x80 4 s.ring.addr (s.stp.step % 2 ^ 32)
  else s

/-- A forwarded write is checked as it arrives: one that no region allows is discarded and faults (R212, R345). -/
def State.forwardedPut (s : State) (a : Nat) (bs : List Byte) : State :=
  if s.allowed a bs.length ringUser .write false then s.putMem a bs
  else (s.bump Reg.RNG_DISCARD 1).raise { FaultRec.of 0x10 0x0C with addr := a, aux := s.regionIdx a }

/-- A forwarded append or advance is applied to this module's store, a refill write lands, or a mark comes: aux bit 30 for a refilled far tier, bit 29 for the entry records, bit 27 for a passed self-test; bit 28 brings bytes of the state record (R345, R357 to R359). -/
def State.forwardIn (s : State) (f : Frame) : State :=
  let a := forwardAddr f
  if f.aux.getLsbD 30 then ({ s with mir := { s.mir with refillDone := true } }).setBits Reg.MIR_STATUS 0x10
  else if f.aux.getLsbD 29 then { s with mir := { s.mir with entryStep := some (frameStep f) } }
  else if f.aux.getLsbD 28 then { s with mir := { s.mir with inbox := s.mir.inbox ++ forwardBody f } }
  else if f.aux.getLsbD 27 then ({ s with mir := { s.mir with passTwin := true } }).settlePasses
  else if f.aux.getLsbD 31 then s.forwardedPut (a + 32) (leBytes 8 ((seqAt s.mem a).head + leNat (forwardBody f)))
  else if f.dstCtx == forwardCtx then s.forwardedPut a (forwardBody f)
  else s.putMem a (forwardBody f)

/-- Whether a frame forwards a write of the twin: on the mirror port, without a context or for a SERVICE entry (R328, R345). -/
def State.isForward (s : State) (f : Frame) : Bool :=
  f.port == 4 && (f.dstCtx == forwardCtx || (s.ctxE? f.dstCtx).any (fun c => c.st == .service))

/-- Writes that a DATA frame makes, with the step they belong to (R348). A module that is being refilled starts its journal with its first step (R359). -/
def State.dataSpans (s : State) (f : Frame) : Nat × List (Nat × Nat) :=
  if s.isForward f then
    if f.aux.getLsbD 30 || f.aux.getLsbD 29 || f.aux.getLsbD 28 || f.aux.getLsbD 27 || s.host.st == .ready then (0, []) else
    (frameStep f, [if f.aux.getLsbD 31 then (forwardAddr f + 32, 8) else (forwardAddr f, (forwardBody f).length)])
  else if f.dst != s.ring.addr && f.port != 4 then (0, [])
  else match (s.ctxE? f.dstCtx).bind CtxEntry.current with
    | some r => (r.step, [(r.buf + 32 * f.offset, f.payload.length)])
    | none => (0, [])

/-- Whether the link layer of a port takes a frame: the port is up, its CRC is good and its number is the next one (R320). -/
def State.linkAccepts (s : State) (f : Frame) : Bool :=
  f.port < 5 && (s.port f.port).st == .up && f.crcOk && f.linkSeq == (s.port f.port).rxSeq

/-- DATA_FRAME: the payload lands or is added; the last byte retires the RRECV. A journaled block is copied first; a frame that the link layer does not take asks for no copy (R320 to R323, R345, R348). -/
def execDataFrame (f : Frame) (s : State) : Host.Outcome State Fault Refusal :=
  let (step, ws) := if s.linkAccepts f then s.dataSpans f else (0, [])
  .next (s.journaled step ws (fun s => s.arrives 0 f (fun s =>
    if s.isForward f then s.forwardIn f else s.dataIn f)))

/-- The first early unit of a receive that may be applied now. -/
def State.readyUnit (s : State) (c : CtxEntry) : Option (Recv × Nat × List Byte) :=
  c.recvs.findSome? (fun r => match r.early.find? (fun u => s.unitReady c r (r.buf + u.1) u.2.length) with
    | some u => some (r, u.1, u.2)
    | none => none)

/-- ADDING_UNIT_APPLY: a unit that came early is applied once every earlier add on it has been; a unit of a plain receive lands once the messages before it have (R321, R323). -/
def execAddingUnitApply (ctx : Nat) (s : State) : Host.Outcome State Fault Refusal :=
  match s.ctxE? ctx with
  | none => .next s
  | some c =>
    match s.readyUnit c with
    | none => .next s
    | some (r, ofs, bs) =>
      match (if r.add then s.eccBad (r.buf + ofs) bs.length else none) with
      | some (code, bad) => .next ((s.dropRecv ctx r).raise { s.ringFault r.arr r.stream r.pc 0x81 ctx code 0 bad with aux := s.faultAux r.arr code bad })
      | none =>
        .next (s.journaled r.step [(r.buf + ofs, bs.length)] (fun s =>
          let left := r.early.erase (ofs, bs)
          let stays := fun (h : HeldFrame) => left.any (fun u => h.ofs ≤ u.1 && u.1 < h.ofs + h.len)
          let r' := { r with got := r.got + bs.length, early := left, held := r.held.filter stays }
          let s := (if r.add then s.corrected [(r.buf + ofs, bs.length)] else s).applyUnit ctx c r (r.buf + ofs) bs
          ((s.setRecv ctx r r').finishRecv ctx c r').releaseHeld { r with held := r.held.filter (fun h => !stays h) }))

/-! ### ARM and DONE (R321) -/

/-- A protocol frame for an OPEN context of this module. -/
def State.protoIn (s : State) (f : Frame) (k : CtxEntry → State → State) : State :=
  match s.ctxE? f.dstCtx with
  | some c => if c.st == .open_ then k c (s.modCtxE f.dstCtx (fun e => { e with lastFrame := s.period })) else s
  | none => s

/-- ARM_FRAME: the receiver is ready; the ARM pairs with the next RSEND of its context (R321). -/
def execArmFrame (f : Frame) (s : State) : Host.Outcome State Fault Refusal :=
  .next (s.arrives 1 f (fun s => s.protoIn f (fun c s =>
    State.sendDue (c.sends.length) f.dstCtx (s.modCtxE f.dstCtx (fun e => { e with arms := e.arms ++ [(f.tag.toNat, f.aux.toNat)] })))))

/-- DONE_FRAME: the message has landed; the RSEND retires (R321). -/
def execDoneFrame (f : Frame) (s : State) : Host.Outcome State Fault Refusal :=
  .next (s.arrives 2 f (fun s => s.protoIn f (fun c s =>
    match c.sends.find? (fun x => x.sent) with
    | some x => s.modCtxE f.dstCtx (fun e => { e with sends := e.sends.erase x })
    | none => s)))

/-! ### Context handshakes (R327, R328, R355, R392) -/

/-- The reply of START, once every context of the image is OPEN or LOST (R392). -/
def State.settleStart (s : State) : State :=
  if s.pendingIs 0x20 && s.ring.ctxs.all (fun c => c.2.st != .declared) then s.finalReply Status.done 0 0 [] else s

/-- An entry opens; a declared one answers the handshake. -/
def State.openEntry (s : State) (i : Nat) (c : CtxEntry) : State :=
  ((s.modCtxE i (fun e => { e with st := .open_, lastFrame := s.period })).toPartner i c c.port 4 0 0 0 []).settleStart

/-- Whether an entry is a standby entry of this survivor (R355). -/
def State.standby (s : State) (i : Nat) : Bool := s.mir.survivor && s.mir.desc.any (fun d => d.standby.any (fun e => e.1 == i))

/-- The effect of an OPEN frame for this module. A module that opens a conversation is lost no longer (R313; DEDUCED, log 92). -/
def State.openIn (s : State) (f : Frame) : State :=
  let s := s.isBack f.src
  match s.ctxE? f.dstCtx with
  | none =>
    if f.dstCtx < 8192 then
      let c : CtxEntry := ⟨.service, f.src, f.srcCtx, f.port, false, [], [], [], s.period, s.period, false⟩
      s.addCtxE f.dstCtx c
    else s
  | some c =>
    let names := c.partner == f.src && c.partnerCtx == f.srcCtx
    if c.st == .declared && s.stp.started then
      if names then s.openEntry f.dstCtx c
      else
        let s := if s.pendingIs 0x20 then s.finalReply Status.refused 0x22 0 [] else s
        s.raise { FaultRec.of 0x22 0x0B with object := f.dstCtx }
    else if c.st == .lost && s.standby f.dstCtx && names then s.modCtxE f.dstCtx (fun e => { e with st := .open_, lastFrame := s.period })
    else if names then s.modCtxE f.dstCtx (fun e => { e with lastFrame := s.period })
    else s

/-- OPEN_FRAME: a handshake opens the context; one that names another module or index is ORDER against START (R327, R392). -/
def execOpenFrame (f : Frame) (s : State) : Host.Outcome State Fault Refusal := .next (s.arrives 4 f (fun s => s.openIn f))

/-- CLOSE_FRAME: a SERVICE entry returns to FREE; a program's entries stay until their image is unloaded (R318, R327, R328). -/
def execCloseFrame (f : Frame) (s : State) : Host.Outcome State Fault Refusal :=
  .next (s.arrives 5 f (fun s => match s.ctxE? f.dstCtx with
    | some c => if c.st == .service && c.partner == f.src then s.freeCtxE f.dstCtx else s
    | none => s))

/-- LOST entries that named the lost subject name its survivor and open again (R327, R355). Entries pair the twin's index with the survivor's. -/
def State.rebind (s : State) (lost survivor : Nat) (entries : List (Nat × Nat)) : State :=
  let hit := fun (e : CtxEntry) => if e.st == .lost && e.partner == lost then entries.find? (fun x => x.1 == e.partnerCtx) else none
  let todo := s.ring.ctxs.filterMap (fun c => (hit c.2).map (fun x => (c.1, { c.2 with partner := survivor, partnerCtx := x.2 })))
  todo.foldl (fun (s : State) (x : Nat × CtxEntry) =>
    let s := s.modCtxE x.1 (fun e => { e with st := .open_, partner := survivor, partnerCtx := x.2.partnerCtx, lastFrame := s.period })
    s.toPartner x.1 x.2 x.2.port 4 0 0 0 []) s

/-- The pairs that a REBIND frame carries (log 31). -/
def rebindPairs (f : Frame) : List (Nat × Nat) :=
  (chunks (min 128 f.aux.toNat) 4 f.payload).map (fun b => (leNat (b.take 2), leNat ((b.drop 2).take 2)))

/-- REBIND_FRAME (R327, R355): tag[31:16] names the lost subject, tag[15:0] its survivor. -/
def execRebindFrame (f : Frame) (s : State) : Host.Outcome State Fault Refusal :=
  .next (s.arrives 9 f (fun s => s.rebind (f.tag.toNat / 65536) (f.tag.toNat % 65536) (rebindPairs f)))

/-- A silent context of a stopped module gives up its messages; receive buffers are undefined (R428). -/
def State.dropMessages (s : State) (i : Nat) (c : CtxEntry) : State :=
  let s := c.recvs.foldl (fun (s : State) r => ({ s with mem := memPut s.mem r.buf (s.freeBytes r.len), freeCtr := s.freeCtr + r.len }).releaseHeld r) s
  s.modCtxE i (fun e => { e with recvs := [], sends := [] })

/-- CTX_TIMEOUT: an OPEN context with an outstanding message has been silent for RNG_CTX_TIMEOUT periods: a report, and the entry becomes LOST. One whose messages the report about another context of its partner has given up is reported all the same; a silence that only comes while the module is stopped is not (R337, R338, R428). -/
def execCtxTimeout (ctx : Nat) (s : State) : Host.Outcome State Fault Refusal :=
  match s.ctxE? ctx with
  | none => .next s
  | some c =>
    if !s.isSilent c then .next s
    else if s.flt.stopped && !c.overdue then .next (s.dropMessages ctx c)
    else .next ((s.modCtxE ctx (fun e => { e with st := .lost, overdue := false })).report c.partner 0x71)

/-- OPEN_TIMEOUT: no answer to OPEN within RNG_OPEN_LIMIT periods; the context is LOST (R327). -/
def execOpenTimeout (ctx : Nat) (s : State) : Host.Outcome State Fault Refusal :=
  match s.ctxE? ctx with
  | none => .next s
  | some c =>
    if c.st != .declared || !s.stp.started || s.period < c.openSince + s.regN Reg.RNG_OPEN_LIMIT then .next s
    else .next (s.modCtxE ctx (fun e => { e with st := .lost })).settleStart

/-! ### The global norm (R192, R330) -/

/-- The module partial, once every active array has retired its UNRM.FIN (R192). -/
def State.modulePartial (s : State) : Option (DW × Bool) :=
  let as := s.arrays.take s.nArrays
  if as.all (fun a => a.normFinal && a.ops.all (fun o => match o.body with
      | .unrmFin _ => false
      | _ => true)) then
    match as with
    | [] => none
    | a :: rest => some (rest.foldl (fun (x : DW × Bool) b => let y := x.1.addDW b.norm; (y.1, x.2 || y.2)) (a.norm, false))
  else none

/-- This module's domain index (R330); domains are listed by their lower member. -/
def State.domainIdx (s : State) : Nat := s.ring.domains.findIdx (fun d => d == s.ring.addr || (s.mir.paired && d == s.mir.twin))

/-- G2 arrives: it is recorded for UCHK and in UPD_G2. -/
def State.setG2 (s : State) (g : DW) (sat : Bool) : State :=
  let s := { s with ring := { s.ring with g2 := some g, g2Sat := sat, g2At := s.cycle, normSent := true } }
  s.setReg64 Reg.UPD_G2 (g.hi.toNat + 2 ^ 32 * g.lo.toNat)

/-- Sends a NORM frame: the payload holds the sum, the tag the domain that made it, bit 31 of the tag marks the final one, and bit 0 of aux says that the fold has saturated (R193, R330; the layout: DESIGN CHOICE, log 108). -/
def State.sendNorm (s : State) (dst index : Nat) (g : DW) (sat final : Bool) : State :=
  s.sendTo (s.mir.paired && dst == s.mir.twin) dst
    { ctlFrame 11 dst s.ring.addr 0 0 (BitVec.ofNat 32 (index + 2 ^ 31 * bnat final)) 0 (BitVec.ofNat 32 (bnat sat)) with payload := leBytes 4 g.hi.toNat ++ leBytes 4 g.lo.toNat ++ zeros 24 }

/-- Addresses of the job's members (R392). -/
def State.memberAddrs (s : State) : List Nat :=
  ((List.range 4096).filter (fun i => s.ring.members.testBit i)).map (fun i => i / 64 * 256 + i % 64)

/-- Whether this module sends for its domain: unpaired, the lower twin, or a survivor (R329, R330). -/
def State.domainSpeaks (s : State) : Bool := !s.mir.paired || s.mir.survivor || s.ring.addr < s.mir.twin

/-- Where the fold goes on to: the lower member of the next domain; where that one is lost, the members that are no lower member, of which the survivor alone takes it by its domain number (R330; DEDUCED, log 44). -/
def State.normTargets (s : State) (d : Nat) : List Nat :=
  let low := s.ring.domains.getD d 0
  if s.knownLost low then
    s.memberAddrs.filter (fun a => !s.ring.domains.contains a && a != s.ring.addr && !(s.mir.paired && a == s.mir.twin) && !s.knownLost a)
  else [low]

/-- Forms and passes on the fold when the module partial and the fold of the domain before are there (R330); `normSat` says that the fold before has saturated (R193). -/
def State.settleNorm (s : State) : State :=
  if s.ring.normSent then s
  else match s.modulePartial with
    | none => s
    | some (p, sat) =>
      let d := s.domainIdx
      let n := s.ring.domains.length
      let start := if d = 0 || n ≤ 1 then some DW.zero else s.ring.normIn
      match start with
      | none => s
      | some x =>
        let (g, sat2) := x.addDW p
        let sat := sat || sat2 || (s.ring.normSat && d != 0)
        if n ≤ d + 1 then
          let s := s.setG2 g sat
          if s.domainSpeaks then
            (s.memberAddrs.filter (fun a => a != s.ring.addr)).foldl (fun (s : State) a => s.sendNorm a d g sat true) s
          else s
        else
          let s := { s with ring := { s.ring with normSent := true, g2Sat := sat } }
          if s.domainSpeaks then (s.normTargets (d + 1)).foldl (fun (s : State) a => s.sendNorm a d g sat false) s else s

/-- The effect of a NORM frame for this module: the fold of the domain before, or G2 itself (R330). -/
def State.normArrives (s : State) (index : Nat) (g : DW) (sat final : Bool) : State :=
  if final then (if s.ring.g2.isSome then s else s.setG2 g sat)
  else if index + 1 == s.domainIdx then ({ s with ring := { s.ring with normIn := some g, normSat := sat } }).settleNorm
  else s

/-- The sum a NORM frame carries. -/
def normSum (f : Frame) : DW := ⟨BitVec.ofNat 32 (leNat (f.payload.take 4)), BitVec.ofNat 32 (leNat ((f.payload.drop 4).take 4))⟩

/-- NORM_FRAME: the fold of the domain before arrives and is passed on, or G2 itself arrives (R330). -/
def execNormFrame (f : Frame) (s : State) : Host.Outcome State Fault Refusal :=
  .next (s.arrives 11 f (fun s => s.normArrives (f.tag.toNat % 2 ^ 31) (normSum f) (f.aux.getLsbD 0) (f.tag.getLsbD 31)))

/-! ### Beacons (R339, R340) -/

/-- The period whose low 32 bits a beacon carries: the one nearest to the present (DEDUCED from R339, whose entries compare first detections; log 94). -/
def State.fullPeriod (s : State) (low : Nat) : Nat :=
  let top := s.period + 2 ^ 31
  top - (top + 2 ^ 32 - low % 2 ^ 32) % 2 ^ 32

/-- BEACON_FRAME: the beacon is merged; an entry about a member of the job stops the module (R339, R340). -/
def execBeaconFrame (f : Frame) (s : State) : Host.Outcome State Fault Refusal :=
  let t := f.tag.toNat
  .next (s.linkIn 8 f (fun s => s.mergeBeacon (t / 65536) (t / 256 % 256) (leNat f.payload) (s.fullPeriod f.aux.toNat) f.port))

/-- BEACON_HOLD_EXPIRY: RNG_BEACON_HOLD periods after its last change, the merged beacon goes out (R339). -/
def execBeaconHoldExpiry (subject cls : Nat) (s : State) : Host.Outcome State Fault Refusal :=
  match s.ring.merges.find? (fun e => e.subject == subject && e.cls == cls) with
  | none => .next s
  | some e =>
    match e.pendingAt with
    | none => .next s
    | some p =>
      if s.period < p then .next s
      else
        let s := { s with ring := { s.ring with merges := s.ring.merges.map (fun (x : Merge) => if x == e then { x with pendingAt := none, lastSend := s.period } else x) } }
        .next ((s.flood e.fromPort (s.beaconOf e)).bump Reg.RNG_BEACON_TX 1)

end Sys2Proof.Machine
end

