-- ==== Sys2Proof/Machine/Counters.lean ====
section
/-! DEFINITION. Shared work counters and the Dill engines: WCREQ, WCSET, DIG.H, DIG.PROV (R270 to R277, R307 to R309, R350, R374). -/

namespace Sys2Proof.Machine

/-! ### Counters -/

/-- A work counter. -/
def State.counter (s : State) (c : Nat) : WorkCounter := s.wct.getD c WorkCounter.reset

/-- Changes a work counter. -/
def State.modCounter (s : State) (c : Nat) (g : WorkCounter → WorkCounter) : State := { s with wct := s.wct.modify c g }

/-- A counter is in elastic mode (WCT_CTRL bit 0, R275). -/
def State.elastic (s : State) (c : Nat) : Bool := (s.regN (wctBase c + Reg.WCT_CTRL)).testBit 0

/-- Requester number of an array and stream: under the recompute flag that of the F stream (R270). -/
def requesterOf (arr : Nat) (st : Stream) (recompute : Bool) : Nat := 4 * arr + (if recompute then 0 else st.idx)

/-- Issue checks of WCREQ (R271, R350). -/
def State.wcreqCheck (s : State) (h : Head) (b : BodyW) : Option CheckFail :=
  firstFail [
    failIf (16 ≤ b.counter.toNat) 0x21 0,
    failIf (b.n == 0#16 || (h.stream == .u && s.journaling)) 0x24 0]

/-- WCREQ: a request goes to the counter; its slot and register wait for the grant (R271, R288). -/
def execWcreq (h : Head) (b : BodyW) (s : State) : Host.Outcome State Fault Refusal :=
  let c := b.counter.toNat
  let rec_ := (s.ctx h.arr h.stream).recompute.isSome
  issue h { IssueInfo.simple 0x90 [b.reg.toNat] with
      needSlot := true
      check := (s.wcreqCheck h b).map (s.checkFault h 0x90 c)
      object := c }
    (fun slot t =>
      let t := t.addOp h.arr { s.newOp h 0x90 slot 0xFFFF (s.cycle + s.lat 0x28) (.wcreq c b.reg.toNat) with sreg := some b.reg.toNat }
      let q : WcRequest := ⟨requesterOf h.arr h.stream rec_, h.arr, h.stream, slot, b.reg.toNat, b.n.toNat, b.tag.toNat, s.cycle⟩
      t.modCounter c (fun w => { w with arriving := w.arriving ++ [q] })) s

/-- WCSET: waits in the counter; under the recompute flag it has no effect (R276). -/
def execWcset (h : Head) (b : BodyW) (s : State) : Host.Outcome State Fault Refusal :=
  let c := b.counter.toNat
  let x := s.ctx h.arr h.stream
  let check := failIf (16 ≤ c && x.recompute.isNone) 0x21 0
  issue h { IssueInfo.simple 0x91 [b.reg.toNat] with check := check.map (s.checkFault h 0x91 c), object := c }
    (fun _ t =>
      if x.recompute.isSome then t
      else t.modCounter c (fun w => { w with sets := w.sets ++ [(⟨(x.sreg b.reg.toNat).toNat, b.tag.toNat, s.cycle + s.lat 0x29⟩ : WcSetReq)] })) s

/-- Order in which requests reach a counter: by cycle, then logical array, then F, B, U (R272). -/
def WcRequest.before (x y : WcRequest) : Bool :=
  x.at_ < y.at_ || (x.at_ == y.at_ && (x.arr < y.arr || (x.arr == y.arr && x.stream.idx < y.stream.idx)))

/-- First of the requests that reach the counter. -/
def firstRequest : List WcRequest → Option WcRequest
  | [] => none
  | q :: rest => match firstRequest rest with
    | none => some q
    | some b => some (if b.before q then b else q)

/-- What a counter does with a request (R273, R275). -/
inductive WcVerdict where
  | retry (grant : Nat)
  | grant
  | wait
  | fault (code : Nat)
  deriving DecidableEq, Repr

/-- The decision on one request. -/
def WorkCounter.judge (w : WorkCounter) (elastic : Bool) (q : WcRequest) : WcVerdict :=
  match w.log.find? (fun l => l.tag == q.tag) with
  | some l => if l.requester == q.requester then .retry l.grant else .fault 0x22
  | none =>
    if elastic then (if 2 ^ 64 ≤ w.value + q.n then .fault 0x21 else .grant)
    else if q.tag < w.e then .fault 0x30
    else if w.e < q.tag then .wait
    else if 2 ^ 64 ≤ w.value + q.n then .fault 0x21
    else .grant

/-- A counter after a grant: value, log of 8,192 entries, and in ordered mode e (R273, R275). -/
def WorkCounter.granted (w : WorkCounter) (elastic : Bool) (q : WcRequest) : WorkCounter :=
  let log := if w.log.length < 8192 then w.log else w.log.drop 1
  { w with value := w.value + q.n, log := log ++ [⟨q.tag, q.requester, w.value⟩], logged := w.logged + 1, e := if elastic then w.e else (w.e + 1) % 2 ^ 32 }

/-- Writes a grant to its register; the WCREQ retires (R271). -/
def State.writeGrant (s : State) (q : WcRequest) (g : Nat) : State :=
  (s.dropOp q.arr q.slot).modCtx q.arr q.stream (fun c => c.setSreg q.rd (BitVec.ofNat 64 g))

/-- Takes a request out of the counter. -/
def WorkCounter.without (w : WorkCounter) (q : WcRequest) : WorkCounter :=
  { w with arriving := w.arriving.erase q, table := w.table.erase q }

/-- Handles one request (R273, R275). -/
def State.handleRequest (s : State) (c : Nat) (q : WcRequest) : State :=
  let el := s.elastic c
  let w := s.counter c
  let base := wctBase c
  match w.judge el q with
  | .retry g => ((s.modCounter c (·.without q)).bump (base + Reg.WCT_RETRIES) 1).writeGrant q g
  | .grant =>
    let s := ((s.modCounter c (fun w => (w.without q).granted el q)).bump (base + Reg.WCT_GRANTS) 1).writeGrant q w.value
    if el then s.nondet Reg.DET_ND_WCT else s
  | .wait => s.modCounter c (fun w => { w.without q with table := w.table.erase q ++ [q] })
  | .fault code =>
    let s1 := (s.modCounter c (·.without q)).dropOp q.arr q.slot
    match s.op? q.arr q.slot with
    | some o => s1.raise { s.opFault o q.arr code 0 0 with object := c }
    | none => s1

/-- The request a counter handles next: one of its table whose tag has come, else the first arriving one that its table has room for (R273, R274). -/
def State.nextRequest (s : State) (c : Nat) : Option WcRequest :=
  let w := s.counter c
  match w.table.find? (fun q => s.elastic c || q.tag == w.e) with
  | some q => some q
  | none => firstRequest (w.arriving.filter (fun q => w.table.length < 64 || w.judge (s.elastic c) q != .wait))

/-- Whether a request may be handled now: a grant is written no earlier than its declared latency (R277). -/
def State.requestDue (s : State) (q : WcRequest) : Bool := q.at_ + s.lat 0x28 ≤ s.cycle

/-- The WCSET that the counter carries out now: its table is empty (R276). -/
def State.dueSet (s : State) (c : Nat) : Option WcSetReq :=
  let w := s.counter c
  if w.table.isEmpty then (match w.sets with
    | x :: _ => if x.readyAt ≤ s.cycle then some x else none
    | [] => none)
  else none

/-- WORK_COUNTER_REQUEST: the counter handles one request, or a WCSET whose table is empty (R272 to R276). -/
def execWorkCounterRequest (counter : Nat) (s : State) : Host.Outcome State Fault Refusal :=
  match s.dueSet counter with
  | some x => .next (s.modCounter counter (fun w => { w with value := x.value, e := x.tag, log := [], sets := w.sets.drop 1 }))
  | none =>
    match s.nextRequest counter with
    | some q => .next (if s.requestDue q then s.handleRequest counter q else s)
    | none => .next s

/-! ### Dill (R308, R309, R374) -/

/-- Entries of the Dill queue in use: waiting and being served. -/
def State.dillUsed (s : State) : Nat := s.dillQ.length + (s.dill.filter Option.isSome).length

/-- Enters the Dill queue: entries of one cycle in ascending array order (R309). -/
def insertDill (q : List DillReq) (x : DillReq) : List DillReq :=
  q.filter (fun y => y.at_ < x.at_ || y.arr < x.arr) ++ [x] ++ q.filter (fun y => !(y.at_ < x.at_ || y.arr < x.arr))

/-- What issue needs to know of a DIG instruction; under the recompute flag it retires at once (R143). -/
def State.digInfo (s : State) (h : Head) (opcode : Nat) (ref : SRef) (check : Option CheckFail) : IssueInfo :=
  if (s.ctx h.arr h.stream).recompute.isSome then { IssueInfo.simple opcode [] with record := some (ref, 64) }
  else { IssueInfo.simple opcode [] with
    needSlot := true
    record := some (ref, 64)
    hold := if 16 ≤ s.dillUsed + s.ahead h .dillq [] then some .dillq else none
    check := check.map (s.checkFault h opcode 0xFFFF) }

/-- Ranges a DIG instruction reads. -/
def digReads : OpBody → List (Nat × Nat)
  | .digH src len _ ctx first _ => (src, len) :: (if first then [] else [(ctx.getD 0, 64)])
  | .digProv p w i _ => [(p, 32), (w, 32), (i, 32)]
  | _ => []

/-- Ranges a DIG instruction writes. -/
def digWrites : OpBody → List (Nat × Nat)
  | .digH _ _ dst ctx _ last => if last then [(dst, 32)] else (ctx.map (fun a => (a, 40))).toList
  | .digProv _ _ _ dst => [(dst, 32)]
  | _ => []

/-- Starts a DIG instruction: a slot and a queue entry. It uses the managed objects that it reads, and pins those that it reads or writes (R229, R231). -/
def State.startDig (s t : State) (h : Head) (opcode slot : Nat) (body : OpBody) : State :=
  if (s.ctx h.arr h.stream).recompute.isSome then t
  else
    let t := t.recordUses h.arr (s.readObjs (digReads body))
    { t.addOp h.arr { s.newOp h opcode slot 0xFFFF s.cycle body with objs := (s.readObjs (digReads body ++ digWrites body)).map (·.obj) } with
      dillQ := insertDill t.dillQ ⟨h.arr, slot, s.cycle⟩ }

/-- Issue checks of DIG.H (R308). A ctx that is none names nothing, and nothing of it is checked (R285). -/
def State.digHCheck (s : State) (h : Head) (r : DigHRec) : Option CheckFail :=
  let c := s.ctx h.arr h.stream
  let first := h.mod.getLsbD 0
  let last := h.mod.getLsbD 1
  let n := r.len.toNat
  let ok := fun (acc : Access) (a n : Nat) => s.operandOk h.stream acc a n
  let ranges := ok .read (c.aref r.src) n && (!last || ok .write (c.aref r.dst) 32) && (first || ok .read (c.aref r.ctx) 64) &&
    (last || r.ctx.isNone || ok .write (c.aref r.ctx) 64)
  firstFail [
    failIf (if last then n % 32 != 0 else n % 64 != 0) 0x23 1,
    failIf (!first && r.ctx.isNone) 0x24 2,
    failIf (!ranges) 0x10 3]

/-- DIG.H: queues a digest of a range (R308, R309). -/
def execDigH (h : Head) (ref : SRef) (r : DigHRec) (s : State) : Host.Outcome State Fault Refusal :=
  let c := s.ctx h.arr h.stream
  issue h (s.digInfo h 0x98 ref (s.digHCheck h r))
    (fun slot t => s.startDig t h 0x98 slot
      (.digH (c.aref r.src) r.len.toNat (c.aref r.dst) (if r.ctx.isNone then none else some (c.aref r.ctx)) (h.mod.getLsbD 0) (h.mod.getLsbD 1))) s

/-- Issue check of DIG.PROV. -/
def State.digProvCheck (s : State) (h : Head) (r : DigProvRec) : Option CheckFail :=
  let c := s.ctx h.arr h.stream
  failIf ([r.prog, r.weights, r.inputs].any (fun a => !s.operandOk h.stream .read (c.aref a) 32) || !s.operandOk h.stream .write (c.aref r.dst) 32) 0x10 3

/-- DIG.PROV: queues the provenance digest of the current step (R308, R374). -/
def execDigProv (h : Head) (ref : SRef) (r : DigProvRec) (s : State) : Host.Outcome State Fault Refusal :=
  let c := s.ctx h.arr h.stream
  issue h (s.digInfo h 0x99 ref (s.digProvCheck h r))
    (fun slot t => s.startDig t h 0x99 slot (.digProv (c.aref r.prog) (c.aref r.weights) (c.aref r.inputs) (c.aref r.dst))) s

/-- Cycles an engine takes for a DIG instruction from the moment it takes it (R309, R310). -/
def State.digTime (s : State) (b : OpBody) : Nat :=
  match b with
  | .digH _ len _ _ _ last => s.lat 0x38 + 2 * (if last then (len + 8) / 64 + 1 else len / 64)
  | _ => s.lat 0x39

/-- DILL_ENGINE_START: the lowest-numbered free engine takes the next queue entry (R309). -/
def execDillEngineStart (s : State) : Host.Outcome State Fault Refusal :=
  let i := s.dill.findIdx Option.isNone
  match s.dillQ with
  | [] => .next s
  | q :: rest =>
    if s.dill.length ≤ i then .next s
    else match s.op? q.arr q.slot with
      | none => .next { s with dillQ := rest }
      | some o => .next { s with dillQ := rest, dill := s.dill.set i (some (q, s.cycle + s.digTime o.body)) }

/-- Words and byte count of a chaining record (R308). -/
def chainAt (m : Cells) (a : Nat) : List W32 × Nat := ((List.range 8).map (fun i => BitVec.ofNat 32 (memNat m (a + 4 * i) 4)), memNat m (a + 32) 8)

/-- The bytes of a chaining record: words, count, and the rest left alone. -/
def chainBytes (h : List W32) (n : Nat) : List Byte := h.flatMap (fun w => leBytes 4 w.toNat) ++ leBytes 8 n

/-- What a DIG instruction writes; a chaining record that is none is not written (R285). -/
def digOutput (m : Cells) (step : Nat) : OpBody → Option (Nat × List Byte)
  | .digH src len dst ctx first last =>
    let (h, n) := if first then (shaInit, 0) else chainAt m (ctx.getD 0)
    let bs := memGet m src len
    if last then some (dst, shaFinish h n bs) else ctx.map (fun a => (a, chainBytes (shaBlocks (len / 64) h bs) (n + len)))
  | .digProv p w i dst => some (dst, sha256 (memGet m p 32 ++ memGet m w 32 ++ memGet m i 32 ++ leBytes 8 (step % 2 ^ 48)))
  | _ => none

/-- The engine, the queue entry and the slot are free; the instruction is served. -/
def State.freeDill (s : State) (e : Nat) (q : DillReq) : State := { s.dropOp q.arr q.slot with dill := s.dill.set e none }

/-- DIGEST_WRITTEN: an engine writes its digest or chaining record and frees what the instruction held (R309). -/
def execDigestWritten (engine : Nat) (s : State) : Host.Outcome State Fault Refusal :=
  match s.dill.getD engine none with
  | none => .next s
  | some (q, at_) =>
    if s.cycle < at_ then .next s
    else match s.op? q.arr q.slot with
      | none => .next (s.freeDill engine q)
      | some o =>
        match s.eccRanges (digReads o.body) with
        | some (code, bad) => .next ((s.freeDill engine q).raise (s.opFault o q.arr code 0 bad))
        | none =>
          let ws := (digOutput s.mem o.step o.body).toList
          .next (s.journaled o.step (spans ws) (fun s => (((s.corrected (digReads o.body)).putAll ws).freeDill engine q).bump Reg.DIG_REQUESTS 1))

end Sys2Proof.Machine
end

