-- ==== Sys2Proof/Machine/StateRecord.lean ====
section
/-! DEFINITION. The record of module state that SNAPSHOT writes and RESTORE loads, and that a survivor sends to its new twin (R350, R359, R395). The spec names what it holds and no layout: 64-bit little-endian words in the order below (log 41). -/

namespace Sys2Proof.Machine

/-- What a record holds: entry records, weight table, counters, UPD_TCOUNT, step, program digest, and for a twin the function tables. -/
structure StateRecord where
  step : Nat
  tcount : W32
  digest : List Byte
  streams : List (Nat × Stream × StreamCtx)
  weights : List (Nat × Weight)
  counters : List WorkCounter
  tables : List (List TableSlot)
  deriving DecidableEq, Repr

/-! ### To words -/

/-- Codes of a stream state in a record: idle, ended, any other. -/
def StrmState.recordCode : StrmState → Nat
  | .idle => 0
  | .ended => 1
  | _ => 2

/-- The stream state that a record restores. -/
def StrmState.restored : StrmState → StrmState
  | .idle => .idle
  | .ended => .ended
  | _ => .running

/-- Words of a stream's entry record. -/
def StreamCtx.words (c : StreamCtx) : List Nat :=
  [c.pc] ++ (List.range 32).map (fun i => (c.sregs.getD i 0#64).toNat) ++ (List.range 16).map (fun i => (c.abs.getD i 0#64).toNat) ++
    [c.ver.toNat, c.base, c.step, c.st.recordCode]

/-- Codes of the weight states. -/
def WState.code : WState → Nat
  | .idle => 0
  | .open_ => 1
  | .committed => 2
  | .faulted => 3

/-- Codes of the buffer states. -/
def BufState.code : BufState → Nat
  | .free => 0
  | .ready => 1
  | .writing => 2

/-- Words of a version buffer. -/
def VBuf.words (v : VBuf) : List Nat := [v.st.code, v.tag.toNat, v.gen]

/-- Words of a decision; none is all zero. -/
def decisionWords : Option Decision → List Nat
  | none => List.replicate 7 0
  | some d => [1, d.pReq, d.gReq, d.flags, d.rho.toNat, d.fq, d.ntgt]

/-- Words of a weight-table entry. -/
def Weight.words (w : Weight) : List Nat :=
  [w.partR0, w.partR1, bnat w.owner, bnat w.dw32, bnat w.stochastic, w.maskA, w.maskB, w.wc0, w.wc1, w.master, w.moment1, w.moment2, w.grad, w.extra,
   w.seed, w.ctrl, w.st.code, w.gen0, w.gen, w.gradGen, bnat w.curB, w.pReq, w.pDone, w.gReq, w.gDone, bnat w.nonfinite] ++
    decisionWords w.decision ++ w.v0.words ++ w.v1.words

/-- Words of a work counter before its log. -/
def WorkCounter.words (c : WorkCounter) : List Nat := [c.value, c.e, c.logged, c.log.length]

/-- Words of a function-table half; an absent one is a single 0. -/
def halfWords : Option TableHalf → List Nat
  | none => [0]
  | some h => [1, h.mode, h.sym, h.n, h.lo.toNat, h.invW.toNat, h.aLo.toNat, h.bLo.toNat, h.aHi.toNat, h.bHi.toNat, h.segs.length] ++
      h.segs.flatMap (fun g => [g.1.toNat, g.2.1.toNat, g.2.2.toNat])

/-- The record as words. -/
def StateRecord.words (r : StateRecord) : List Nat :=
  [r.step, r.tcount.toNat] ++ (List.range 4).map (fun i => leNat ((r.digest.drop (8 * i)).take 8)) ++
    [r.streams.length, r.weights.length, r.counters.length, r.tables.length] ++
    r.streams.flatMap (fun e => [e.1, e.2.1.idx] ++ e.2.2.words) ++ r.weights.flatMap (fun e => e.1 :: e.2.words) ++
    r.counters.flatMap (fun c => c.words ++ c.log.flatMap (fun l => [l.tag, l.requester, l.grant])) ++
    r.tables.flatMap (fun t => t.flatMap (fun x => halfWords x.fwd ++ halfWords x.der))

/-- The record as bytes. -/
def StateRecord.bytes (r : StateRecord) : List Byte := r.words.flatMap (leBytes 8)

/-! ### From words -/

/-- Word `i`. -/
def wordAt (w : List Nat) (i : Nat) : Nat := w.getD i 0

/-- A stream's entry record; it holds no head and nothing in flight. -/
def streamOf (w : List Nat) : StreamCtx :=
  { StreamCtx.reset with
    pc := wordAt w 0
    sregs := (List.range 32).map (fun i => BitVec.ofNat 64 (wordAt w (1 + i)))
    abs := (List.range 16).map (fun i => BitVec.ofNat 64 (wordAt w (33 + i)))
    ver := BitVec.ofNat 32 (wordAt w 49)
    base := wordAt w 50
    step := wordAt w 51
    st := if wordAt w 52 == 0 then .idle else if wordAt w 52 == 1 then .ended else .running }

/-- A weight state by its code. -/
def wstateOf : Nat → WState
  | 0 => .idle
  | 1 => .open_
  | 2 => .committed
  | _ => .faulted

/-- A buffer state by its code. -/
def bufStateOf : Nat → BufState
  | 0 => .free
  | 1 => .ready
  | _ => .writing

/-- A version buffer from word `i` on. -/
def vbufOf (w : List Nat) (i : Nat) : VBuf := ⟨bufStateOf (wordAt w i), BitVec.ofNat 32 (wordAt w (i + 1)), wordAt w (i + 2)⟩

/-- A weight-table entry. -/
def weightOf (w : List Nat) : Weight where
  partR0 := wordAt w 0
  partR1 := wordAt w 1
  owner := wordAt w 2 == 1
  dw32 := wordAt w 3 == 1
  stochastic := wordAt w 4 == 1
  maskA := wordAt w 5
  maskB := wordAt w 6
  wc0 := wordAt w 7
  wc1 := wordAt w 8
  master := wordAt w 9
  moment1 := wordAt w 10
  moment2 := wordAt w 11
  grad := wordAt w 12
  extra := wordAt w 13
  seed := wordAt w 14
  ctrl := wordAt w 15
  st := wstateOf (wordAt w 16)
  gen0 := wordAt w 17
  gen := wordAt w 18
  gradGen := wordAt w 19
  curB := wordAt w 20 == 1
  decision := if wordAt w 26 == 0 then none
    else some ⟨wordAt w 27, wordAt w 28, wordAt w 29, BitVec.ofNat 32 (wordAt w 30), wordAt w 31, wordAt w 32⟩
  pReq := wordAt w 21
  pDone := wordAt w 22
  gReq := wordAt w 23
  gDone := wordAt w 24
  nonfinite := wordAt w 25 == 1
  v0 := vbufOf w 33
  v1 := vbufOf w 36

/-- Takes `n` items of `k` words each. -/
def takeFixed {α : Type} (k : Nat) (f : List Nat → α) (n : Nat) (w : List Nat) : List α × List Nat :=
  ((chunks n k w).map f, w.drop (n * k))

/-- Takes `n` work counters with their logs. -/
def takeCounters : Nat → List Nat → List WorkCounter × List Nat
  | 0, w => ([], w)
  | n + 1, w =>
    let k := wordAt w 3
    let (log, rest) := takeFixed 3 (fun l => (⟨wordAt l 0, wordAt l 1, wordAt l 2⟩ : WcLog)) k (w.drop 4)
    let (cs, rest) := takeCounters n rest
    (⟨wordAt w 0, wordAt w 1, [], [], log, [], wordAt w 2⟩ :: cs, rest)

/-- Takes a function-table half. -/
def takeHalf (w : List Nat) : Option TableHalf × List Nat :=
  if wordAt w 0 == 0 then (none, w.drop 1)
  else
    let b := fun i => BitVec.ofNat 32 (wordAt w i)
    let (segs, rest) := takeFixed 3 (fun g => (BitVec.ofNat 32 (wordAt g 0), BitVec.ofNat 32 (wordAt g 1), BitVec.ofNat 32 (wordAt g 2))) (wordAt w 10) (w.drop 11)
    (some ⟨wordAt w 1, wordAt w 2, wordAt w 3, b 4, b 5, b 6, b 7, b 8, b 9, segs⟩, rest)

/-- Takes `n` table slots. -/
def takeSlots : Nat → List Nat → List TableSlot × List Nat
  | 0, w => ([], w)
  | n + 1, w =>
    let (f, w) := takeHalf w
    let (d, w) := takeHalf w
    let (ts, w) := takeSlots n w
    (⟨f, d⟩ :: ts, w)

/-- Takes the tables of `n` arrays. -/
def takeTables : Nat → List Nat → List (List TableSlot) × List Nat
  | 0, w => ([], w)
  | n + 1, w =>
    let (t, w) := takeSlots 16 w
    let (ts, w) := takeTables n w
    (t :: ts, w)

/-- A stream by its number. -/
def streamAt : Nat → Stream
  | 0 => .f
  | 1 => .b
  | _ => .u

/-- The record that words hold. -/
def recordOf (w : List Nat) : StateRecord :=
  let (streams, rest) := takeFixed 55 (fun l => (wordAt l 0, streamAt (wordAt l 1), streamOf (l.drop 2))) (wordAt w 6) (w.drop 10)
  let (weights, rest) := takeFixed 40 (fun l => (wordAt l 0, weightOf (l.drop 1))) (wordAt w 7) rest
  let (counters, rest) := takeCounters (wordAt w 8) rest
  let (tables, _) := takeTables (wordAt w 9) rest
  { step := wordAt w 0
    tcount := BitVec.ofNat 32 (wordAt w 1)
    digest := (List.range 4).flatMap (fun i => leBytes 8 (wordAt w (2 + i)))
    streams := streams
    weights := weights
    counters := counters
    tables := tables }

/-- The record that bytes hold. -/
def recordOfBytes (bs : List Byte) : StateRecord := recordOf ((chunks (bs.length / 8) 8 bs).map leNat)

/-! ### The module's record -/

/-- The entry record of a stream for the current step: the journal's where it is kept, else the stream as it stands at the boundary. -/
def State.entryCtx (s : State) (n : Nat) (st : Stream) : StreamCtx :=
  match s.mir.gens.find? (fun g => g.step == s.stp.step) with
  | some g => ((g.streams.find? (fun e => e.1 == n && e.2.1 == st)).map (fun e => e.2.2)).getD (s.ctx n st)
  | none => s.ctx n st

/-- The record of the current step (R395); `twin` adds the function tables (R359). -/
def State.stateRecord (s : State) (twin : Bool) : StateRecord where
  step := s.stp.step
  tcount := s.reg Reg.UPD_TCOUNT
  digest := s.host.program
  streams := (List.range s.nArrays).flatMap (fun n => allStreams.map (fun st => (n, st, s.entryCtx n st)))
  weights := s.mask.weights
  counters := s.wct.map (fun (c : WorkCounter) => { c with arriving := [], table := [], sets := [] })
  tables := if twin then (s.arrays.take s.nArrays).map (·.tables) else []

/-- A stream takes the values of an entry record; its region, slots and slot range are the image's. -/
def StreamCtx.load (c e : StreamCtx) : StreamCtx :=
  { c with
    st := e.st.restored
    pc := e.pc, sregs := e.sregs, abs := e.abs, ver := e.ver, base := e.base, step := e.step
    recompute := none, head := none, notBefore := 0, fusedMade := 0, fusedClaimed := 0, fusedEntered := 0
    uchkStep := none, stepbDone := false, failed := false }

/-- Loads the entry records of streams. -/
def State.loadStreams (s : State) (es : List (Nat × Stream × StreamCtx)) : State :=
  es.foldl (fun (s : State) e => s.modCtx e.1 e.2.1 (fun c => c.load e.2.2)) s

/-- Loads a record: streams, weight table, counters, UPD_TCOUNT and the step (R359, R395). -/
def State.loadRecord (s : State) (r : StateRecord) : State :=
  let s := s.loadStreams r.streams
  let s := { s with
    mask := { s.mask with weights := r.weights }
    wct := s.wct.zipIdx.map (fun (c, i) => r.counters.getD i c)
    stp := { s.stp with step := r.step, nextBase := none, past := [], verdict := 0, verdictSat := false }
    arrays := s.arrays.zipIdx.map (fun (x : ArrayState × Nat) => ({ x.1 with tables := r.tables.getD x.2 x.1.tables } : ArrayState)) }
  s.setRw Reg.UPD_TCOUNT r.tcount

end Sys2Proof.Machine
end

