-- ==== Sys2Proof/Machine/Mirror.lean ====
section
/-! DEFINITION. Background copies: the rollback journal, the refill of a twin, package substitution and the patrol scrub (R216, R218 to R222, R348, R349, R358, R429). -/

namespace Sys2Proof.Machine

/-! ### The journal (R348, R349) -/

/-- Bytes of one journal entry: a block and its tag. -/
def journalEntry : Nat := 2048 + 32

/-- Bytes of the journal in use. -/
def State.journalUsed (s : State) : Nat := (s.mir.gens.map (fun g => g.entries.length)).sum * journalEntry

/-- The journal region; one without bytes where the binary names none. -/
def State.journalPlace (s : State) : Nat × Nat :=
  match s.mir.desc.bind (fun d => s.tiers.regions[d.journalRegion]?) with
  | some r => (r.base, r.size)
  | none => (0, 0)

/-- Size of the journal region. -/
def State.journalSize (s : State) : Nat := s.journalPlace.2

/-- The lowest place of the region that holds no entry. -/
def State.journalFree (s : State) : Nat :=
  let used := s.mir.gens.flatMap (fun g => g.entries.map (·.pos))
  ((List.range (used.length + 1)).find? (fun p => !used.contains p)).getD 0

/-- The 32-byte tag of an entry: address, then generation, 8 bytes each, zeros (R348 names the two; layout DESIGN CHOICE, log 95). -/
def journalTag (addr step : Nat) : List Byte := leBytes 8 addr ++ leBytes 8 step ++ zeros 16

/-- The prior contents of a block enter the journal region and the generation's list (R348). -/
def State.enterJournal (s : State) (addr step : Nat) : State :=
  let bs := s.get addr 2048
  let pos := s.journalFree
  let s := s.modGen step (fun g => { g with entries := g.entries ++ [⟨addr, pos, bs⟩] })
  s.putMem (s.journalPlace.1 + journalEntry * pos) (bs ++ journalTag addr step)

/-- The record of a full journal: the first byte behind its region, with the region's index (R349, R431). -/
def State.journalFull (s : State) : FaultRec :=
  { FaultRec.of 0x10 0x0C with addr := s.journalPlace.1 + s.journalSize, aux := (s.mir.desc.map (·.journalRegion)).getD 0 }

/-- JOURNAL_BLOCK_COPY: the prior contents of a block that a write waits for enter the journal of the write's step; a full journal is ALLOC_OVERFLOW (R348, R349). -/
def execJournalBlockCopy (addr step : Nat) (s : State) : Host.Outcome State Fault Refusal :=
  if !s.mir.jrnWait.contains (addr, step) || s.hasBlock step addr then .next s
  else if s.journalSize < s.journalUsed + journalEntry then .next (s.raise s.journalFull)
  else
    let s := match s.eccBad addr 2048 with
      | some (code, bad) => s.raise { FaultRec.of code 0x0C with addr := bad, aux := s.faultAux 0xFF code bad }
      | none => s
    let s := (s.corrected [(addr, 2048)]).enterJournal addr step
    .next { s with mir := { s.mir with jrnWait := s.mir.jrnWait.erase (addr, step) } }

/-- The host's writes that wait land in their order, each once its blocks are copied (R348, R377); `n` bounds their number. -/
def State.landBar4 : Nat → State → State
  | 0, s => s
  | n + 1, s =>
    match s.host.bar4Waiting with
    | [] => s
    | (a, bs) :: rest =>
      match s.lacking s.stp.step [(a, bs.length)] with
      | [] => State.landBar4 n (({ s with host := { s.host with bar4Waiting := rest } } : State).putMem a bs)
      | lack => s.askJournal s.stp.step lack

/-- Every one of them that can land does. -/
def State.settleBar4 (s : State) : State := State.landBar4 s.host.bar4Waiting.length s

/-! ### Refill (R358) -/

/-- The far-tier regions a refill moves: all but those of kind 4, in ascending module address. -/
def State.refillRegions (s : State) : List Region :=
  sortBy (fun x y => x.base ≤ y.base) (s.tiers.regions.filter (fun r => r.kind != 4 && r.kind != 6 && s.isFar r.base))

/-- First block to copy at or after an address; `none` when the copy is complete. -/
def State.refillNext (s : State) (a : Nat) : Option Nat :=
  s.refillRegions.findSome? (fun r => if r.base + r.size ≤ a then none else some (max r.base (a / 2048 * 2048)))

/-- A frame of the refill that is no write: a mark, or bytes of the state record; src_ctx holds the upper 16 bits of the step (log 30). -/
def State.serviceFrame (s : State) (step aux : Nat) : OutFrame :=
  ctlFrame 0 s.mir.twin s.ring.addr s.refillCtx (step / 2 ^ 32 % 2 ^ 16) (BitVec.ofNat 32 step) 0 (BitVec.ofNat 32 aux)

/-- A frame that tells the twin that a part of the refill is complete. -/
def State.refillMark (s : State) (bit step : Nat) : State := s.sendFrame 4 (s.serviceFrame step (2 ^ bit))

/-- Whether DATA of the refill still waits in the mirror port's queue. -/
def State.refillQueued (s : State) : Bool := (s.port 4).outQ.any (fun f => f.typ == 0 && f.dstCtx == s.refillCtx)

/-- Bytes of the block at the pointer that lie in a region of the refill. -/
def State.refillBytes (s : State) (p : Nat) : Nat :=
  let e := p / 2048 * 2048 + 2048
  s.refillRegions.foldl (fun n r => if r.base ≤ p && p < r.base + r.size then max n (min e (r.base + r.size) - p) else n) 0

/-- Scratchpad regions that the rollback of the rejoin copies (R359). -/
def State.handOverRegions (s : State) : List Region := s.tiers.regions.filter (fun r => r.kind == 0 && (scratchOf r.base).isSome)

/-- Bytes that the rollback of the rejoin copies (R359). -/
def State.handOverBytes (s : State) : Nat := (s.handOverRegions.map (·.size)).sum + (s.stateRecord true).bytes.length

/-- Ticks that bytes take at the mirror port's payload rate of 200 GB/s · 512/552 and the present phase rate, rounded up (R234, R236, R314, R317; rounding and rate DESIGN CHOICE, log 39). -/
def State.payloadTicks (s : State) (n : Nat) : Nat := cdiv (n * 552 * 21 * s.thy.rate) (512 * 2000 * 16384)

/-- Past every address: where the pointer of a complete copy stands, so that every later write still goes to the twin (R358). -/
def refillEnd : Nat := 2 ^ 64

/-- The copy is complete once its last block has gone out: refill_ready, and the earliest restart tick from the bytes still to be copied at the payload rate (R358, R359). -/
def State.settleRefill (s : State) : State :=
  if s.mir.refillPtr == some refillEnd && !s.mir.refillDone && !s.refillQueued then
    let s := { s with mir := { s.mir with refillDone := true, readyTick := s.tick + s.payloadTicks s.handOverBytes } }
    (s.setBits Reg.MIR_STATUS 0x10).refillMark 30 s.stp.step
  else s

/-- Moves the pointer on, or past the last block (R358). -/
def State.refillTo (s : State) (next : Option Nat) : State :=
  match next with
  | some a => ({ s with mir := { s.mir with refillPtr := some a } }).setReg64 Reg.MIR_COPY_PTR a
  | none => ({ s with mir := { s.mir with refillPtr := some refillEnd } }).settleRefill

/-- Copies bytes to the twin; an uncorrectable block or word under them is a fault of the mirror engine (R209, R216, R358). -/
def State.copyRange (s : State) (step a n : Nat) : State :=
  match s.eccBad a n with
  | some (code, bad) => s.raise { FaultRec.of code 0x0C with addr := bad, aux := s.faultAux 0xFF code bad }
  | none => (s.corrected [(a, n)]).forwardBytes s.refillCtx step a (s.get a n)

/-- REFILL_COPY_BLOCK: the next 2 KiB block goes to the twin (R358). -/
def execRefillCopyBlock (s : State) : Host.Outcome State Fault Refusal :=
  match s.mir.refillPtr with
  | none => .next s
  | some p =>
    if s.mir.refillDone || p == refillEnd then .next s.settleRefill
    else
      let n := s.refillBytes p
      .next ((s.copyRange s.stp.step p n).refillTo (s.refillNext (p + max n 1)))

/-! ### Package substitution (R219 to R222) -/

/-- ECC blocks of a package: 32 GiB. -/
def packageBlocks : Nat := 2 ^ 24

/-- Module block (address div 2,048) of a package block behind a slot (R215). -/
def State.moduleBlock (s : State) (slot b : Nat) : Nat := ((b / 2) * s.dev.grade.farSlots + slot) * 2 + b % 2

/-- The slot is switched to its target; the next waiting slot begins (R219, R221, R435). -/
def State.switchChannel (s : State) (c : PkgCopy) : State :=
  let s := { s with
    tiers := { s.tiers with chmap := s.tiers.chmap.set c.slot c.target, copy := none }
    dev := { s.dev with pkgSubst := s.dev.pkgSubst ++ [(c.slot, c.target)] } }
  let s := (s.setBits Reg.TIR_STATUS 8).event 0xA1 (c.target * 256 + c.slot)
  match sortBy (fun (x y : Nat) => x ≤ y) s.tiers.copyWaiting with
  | [] => s
  | k :: _ => ({ s with tiers := { s.tiers with copyWaiting := s.tiers.copyWaiting.erase k } }).startCopy (s.tiers.chmap.getD k 0)

/-- PACKAGE_COPY_BLOCK: the next block goes to the target: its read corrects it and counts the correction (R216); one that does not correct is written poisoned (R220). -/
def execPackageCopyBlock (correctable : Bool) (s : State) : Host.Outcome State Fault Refusal :=
  match s.tiers.copy with
  | none => .next s
  | some c =>
    let b := s.moduleBlock c.slot c.ptr
    let poison := !correctable || s.tiers.bad.contains b
    let s := if poison then s else s.corrected [(2048 * b, 2048)]
    let s := if poison then
        ({ s with tiers := { s.tiers with bad := if s.tiers.bad.contains b then s.tiers.bad else s.tiers.bad ++ [b] } }).bump Reg.TIR_POISON 1
      else s
    if c.ptr + 1 < packageBlocks then
      .next (({ s with tiers := { s.tiers with copy := some { c with ptr := c.ptr + 1 } } }).setReg64 Reg.TIR_COPY_PTR (c.ptr + 1))
    else .next (s.switchChannel c)

/-! ### Patrol scrub (R216, R218, R219, R429) -/

/-- PATROL_SCRUB: a block of the far tier is read: clean, corrected, or recorded as ECC_FAR (R218, R429). -/
def execPatrolScrub (block : Nat) (r : ScrubResult) (s : State) : Host.Outcome State Fault Refusal :=
  let a := block * 2048
  if !s.isFar a then .next s
  else match r with
    | .clean => .next s
    | .corrected n => .next (({ s with tiers := { s.tiers with soft := s.tiers.soft.filter (fun b => b.1 != block) } }).countCorrected (s.channelOf a) n)
    | .uncorrectable =>
      let s := { s with tiers := { s.tiers with bad := if s.tiers.bad.contains block then s.tiers.bad else s.tiers.bad ++ [block] } }
      .next (s.raise { FaultRec.of 0x51 8 with addr := a, aux := s.channelOf a })

/-! ### Spare positions (R13 to R17) -/

/-- Positions marked spare. -/
def State.sparePositions (s : State) : List Nat := (List.range 68).filter (fun p => s.mapEntry p == 0xFE)

/-- The failed position of logical array `n` is replaced by the lowest spare, or no spare remains (R16, R17, R435). -/
def State.substitute (s : State) (n p : Nat) : State :=
  match s.sparePositions with
  | [] => ({ s with host := { s.host with noSpare := true } }).event 0xA2 0
  | sp :: rest =>
    let s := { s with dev := { s.dev with subst := s.dev.subst ++ [(p, n, sp)] } }
    let s := s.event 0xA0 (sp * 256 + n)
    if rest.isEmpty then s.event 0xA2 0 else s

/-- A step boundary: the logical arrays that wait are given spares in ascending order (R16, R265). -/
def State.settleSubst (s : State) : State :=
  let ws := sortBy (fun (x y : Nat × Nat) => x.1 ≤ y.1) s.host.substWaiting
  ws.foldl (fun (s : State) w => s.substitute w.1 w.2) { s with host := { s.host with substWaiting := [] } }

end Sys2Proof.Machine
end

