-- ==== Sys2Proof/Machine/Rollback.lean ====
section
/-! DEFINITION. Rollback and restart: what RESUME and automatic recovery do once nothing is in flight (R351, R352, R355, R359, R394). -/

namespace Sys2Proof.Machine

/-! ### Rollback (R351) -/

/-- Nothing in flight and nothing queued; accumulator units keep their values and tables stay. -/
def ArrayState.emptied (a : ArrayState) : ArrayState :=
  { a with
    ops := [], waiting := [], queue := [], overflowed := false, fullCycles := 0, pass := none, landings := [], updCur := none, deferred := [], lost := []
    queueF := [], queueB := [], queueU := [], lane := none, gbWaiting := [], freedUnits := [], norm := DW.zero, normFinal := false, verdictDone := false }

/-- Every accumulator unit is marked defined = 0 and free. -/
def ArrayState.undefine (a : ArrayState) : ArrayState := { a with tsw := List.replicate 64 tswReset }

/-- A context without messages. -/
def CtxEntry.bare (c : CtxEntry) : CtxEntry := { c with arms := [], recvs := [], sends := [], overdue := false }

/-- Frames of a port's send queue that belong to no message; the refill's DATA belongs to none, `keep` being its context (R358). -/
def Port.unqueued (q : Port) (keep : Option Nat) : Port :=
  { q with outQ := q.outQ.filter (fun f => (f.typ != 0 && f.typ != 1 && f.typ != 2) || (f.typ == 0 && keep == some f.dstCtx)) }

/-- Empties every queue and every message of the module, and discards every staged copy (R351). -/
def State.emptyQueues (s : State) : State :=
  { s with
    arrays := s.arrays.map (fun (a : ArrayState) => a.emptied)
    mask := { s.mask with queue := [], running := none, verWaits := [] }
    tiers := { s.tiers with staged := [], requests := [] }
    wct := s.wct.map (fun (w : WorkCounter) => { w with arriving := [], table := [], sets := [] })
    dillQ := []
    dill := List.replicate 4 none
    ring := { s.ring with
      ctxs := s.ring.ctxs.map (fun (c : Nat × CtxEntry) => (c.1, if c.2.st == .open_ then c.2.bare else c.2))
      ports := s.ring.ports.zipIdx.map (fun x => x.1.unqueued (if x.2 == 4 then s.mir.service else none))
      normIn := none, normSat := false, normSent := false, g2 := none, g2Sat := false }
    mir := { s.mir with jrnWait := [] } }

/-- Writes the journal entries of one generation back. -/
def State.unwrite (s : State) (g : JGen) : State := s.putAll (g.entries.map (fun e => (e.addr, e.bytes)))

/-- A work counter as its record holds it; log entries made after the recorded position go (R351). -/
def WorkCounter.rolled (w : WorkCounter) (r : WcRecord) : WorkCounter :=
  { w with value := r.value, e := r.e, log := w.log.take (w.log.length - (w.logged - r.logPos)), logged := r.logPos }

/-- Restores the entry records of a generation (R350, R351). -/
def State.restoreGen (s : State) (g : JGen) : State :=
  let s := s.loadStreams g.streams
  let s := match g.weights with
    | some (ws, t) => ({ s with mask := { s.mask with weights := ws } }).setRw Reg.UPD_TCOUNT t
    | none => s
  match g.counters with
  | some cs => { s with wct := s.wct.zipIdx.map (fun (x : WorkCounter × Nat) => match cs[x.2]? with
      | some r => x.1.rolled r
      | none => x.1) }
  | none => s

/-- Rollback to the start of step s_r, from a complete generation (R351). The entry records of s_r are kept: the replayed step begins with them. -/
def State.rollback (s : State) (step : Nat) (g : JGen) : State :=
  let s := s.emptyQueues
  let s := { s with arrays := s.arrays.map (fun (a : ArrayState) => a.undefine) }
  let gens := sortBy (fun (x y : JGen) => y.step ≤ x.step) (s.mir.gens.filter (fun x => step ≤ x.step))
  let s := gens.foldl (fun (s : State) x => s.unwrite x) s
  let kept := s.mir.gens.filter (fun x => x.step < step)
  let s := { s with mir := { s.mir with gens := kept ++ [{ g with entries := [], agreed := false }] } }
  s.restoreGen g

/-! ### Restart (R352, R394) -/

/-- Captures every entry record of a step: START, RESTORE, and a new twin's first step (R350, R359). -/
def State.captureAll (s : State) (step : Nat) : State :=
  let s := (List.range s.nArrays).foldl (fun (s : State) n => allStreams.foldl (fun (s : State) st => s.captureStream n st) s) s
  (s.captureCounters step).captureWeights step

/-- A stream at restart: its base is T_r, and nothing of its head is left. -/
def StreamCtx.restarted (c : StreamCtx) (tick : Nat) : StreamCtx :=
  { c with base := tick, head := none, failed := false, notBefore := 0, st := if c.st == .faulted then .running else c.st }

/-- A stream's program counter in the degraded variant (R343, R352). -/
def StreamCtx.degrade (c : StreamCtx) (d : Option PairDesc) (i : Nat) : StreamCtx :=
  match d.bind (fun d => d.degraded[i]?) with
  | some p => { c with pc := p }
  | none => c

/-- Every stream's base is T_r; with `deg` its program counter is its degraded entry. -/
def State.rebase (s : State) (tick : Nat) (deg : Bool) : State :=
  let f := fun (n : Nat) (st : Stream) (c : StreamCtx) =>
    let c := c.restarted tick
    if deg then c.degrade s.mir.desc (3 * n + st.idx) else c
  { s with
    arrays := s.arrays.zipIdx.map (fun (x : ArrayState × Nat) => { x.1 with f := f x.2 .f x.1.f, b := f x.2 .b x.1.b, u := f x.2 .u x.1.u, stopped := false })
    stp := { s.stp with started := true, base := tick, nextBase := none, past := [], since := s.period } }

/-- A frame that brings bytes of the state record. -/
def State.recordFrame (s : State) (step : Nat) (bs : List Byte) : OutFrame :=
  { s.serviceFrame step (2 ^ 28 + 2 ^ 16 * bs.length) with payload := padUnits bs }

/-- A survivor copies the rest of its state to its new twin: scratchpad regions of kind 0, the state record, and the word that it is complete (R359). -/
def State.copyToTwin (s : State) (step : Nat) : State :=
  let s := s.handOverRegions.foldl (fun (s : State) r => s.copyRange step r.base r.size) s
  let bs := (s.stateRecord true).bytes
  let s := (chunks (cdiv bs.length 512) 512 bs).foldl (fun (s : State) b => s.sendFrame 4 (s.recordFrame step b)) s
  s.refillMark 29 step

/-- The context entry of the refill closes at both ends once its DATA has gone out (R328, R359). -/
def State.settleService (s : State) : State :=
  if !s.mir.closing || s.refillQueued then s
  else
    let s := match s.mir.service with
      | some i => (match s.ctxE? i with
        | some c => (s.toPartner i c 4 5 0 0 0 []).freeCtxE i
        | none => s)
      | none => s
    { s with mir := { s.mir with service := none, closing := false } }

/-- The refill is over: the module is a survivor no more (R328, R359). -/
def State.endService (s : State) : State :=
  State.settleService { s with mir := { s.mir with refillPtr := none, refillDone := false, survivor := false, closing := true } }

/-- The step a restart names: rollback to it, the copy from the survivor, or the step as it stands. -/
def State.reachStep (s : State) (r : Restart) : State :=
  if !r.rollback then s
  else if s.host.st == .ready then
    let s := s.loadRecord (recordOfBytes s.mir.inbox)
    ({ s with mir := { s.mir with inbox := [], gens := [] } }).captureAll r.step
  else match s.gen? r.step with
    | some g =>
      let s := s.rollback r.step g
      { s with stp := { s.stp with step := r.step, verdict := 0, verdictSat := false } }
    | none => s

/-- Whether a merge entry is an incident that an automatic rollback has handled: one that stopped the job, about a module that is not gone (R443; DESIGN CHOICE, log 46). -/
def State.handled (s : State) (e : Merge) : Bool := e.acted && !s.ring.gone.contains e.subject

/-- The merge table and the report filter after a restart. RESUME leaves them to FAULT_CLEAR; an automatic rollback drops the incident it has handled, so that the same fault can stop the job again (R340, R443; DESIGN CHOICE, log 46). -/
def Ring.resumed (r : Ring) (auto : Bool) (handled : Merge → Bool) : Ring :=
  { r with
    merges := (if auto then r.merges.filter (fun e => !handled e) else r.merges).map (fun (e : Merge) => { e with acted := false })
    filter := if auto then r.filter.filter (fun x => !r.merges.any (fun e => handled e && e.subject == x.1 && e.cls == x.2)) else r.filter }

/-- The restart itself, once nothing is in flight. A survivor whose twin is refilled hands over and is one no more under the normal variant (R359). -/
def State.restartNow (s : State) (r : Restart) : State :=
  let s := s.reachStep r
  let handOver := r.rollback && !r.degraded && s.mir.survivor && s.mir.refillDone
  let s := s.settleSubst
  let s := s.rebase r.tick (r.rollback && r.degraded)
  let replayed := if r.rollback && s.mir.divStep == some r.step then (r.step :: s.mir.replayed).eraseDups else s.mir.replayed
  let s := { s with
    mir := { s.mir with
      diverged := false, replayed := replayed, passOwn := false, passTwin := false
      degraded := if r.rollback then r.degraded else s.mir.degraded }
    flt := { s.flt with stopped := false, stopAsked := false, faultStreams := [] }
    ring := { s.ring.resumed r.hdr.isNone s.handled with gone := if r.degraded then s.ring.gone else [] }
    thy := { s.thy with quiet := false, episodeFrozen := 0 }
    host := { s.host with st := .running, restart := none, holdStep := none } }
  let s := if handOver then (s.copyToTwin r.step).endService else s
  match r.hdr with
  | some c => s.replyDone c 0x22
  | none => s

/-- A restart that waits takes place once nothing is in flight (R351). Where an array has failed meanwhile it is refused, as RESUME is (R16, R17). -/
def State.settleRestart (s : State) : State :=
  match s.host.restart with
  | some r =>
    if s.host.noSpare || s.host.reload then
      let s := { s with host := { s.host with restart := none } }
      match r.hdr with
      | some c => s.refuse c 0x22 0x52 0
      | none => s
    else if s.nothingInFlight then s.restartNow r else s
  | none => s

end Sys2Proof.Machine
end

