-- ==== Sys2Proof/Machine/Ports.lean ====
section
/-! DEFINITION. The scratchpad ports: what a core cycle costs the readers and writers that lose arbitration, and the preloads that wait for a tile (R65, R72, R79, R131, R172, R205, R207; log 81). -/

namespace Sys2Proof.Machine

/-- Bytes a port of a slice moves in a cycle (R72, R207). -/
def portBytes : Nat := 2048

/-- Bytes of ranges that lie in the scratchpad slice of array `n`. -/
def sliceBytes (n : Nat) (rs : List (Nat × Nat)) : Nat := ((rs.filter (fun r => scratchOf r.1 == some n)).map Prod.snd).sum

/-- Bytes of ranges of slice `n` in each of `time` cycles, spread evenly. -/
def sliceRate (n : Nat) (rs : List (Nat × Nat)) (time : Nat) : Nat := cdiv (sliceBytes n rs) time

/-! ### Preloads -/

/-- A preload that has reached a tile which is being written waits a cycle; the wait is counted once a tile (R79, R131). -/
def State.stallPreload (s : State) (n : Nat) (o : Op) : State :=
  match o.body with
  | .prod p =>
    match p.nextPre with
    | none => s
    | some g =>
      if p.kind == .cand || p.preAt ≤ s.cycle then s
      else match s.preloadWait p g with
        | none => s
        | some t =>
          let s := if p.waited.contains t then s else s.bump Reg.DMA_CODEC_WAIT 1
          s.setOp n { o with body := .prod { p with preAt := p.preAt + 1, waited := if p.waited.contains t then p.waited else p.waited ++ [t] } }
  | _ => s

/-! ### The read port (R72, R172, R205) -/

/-- Bytes that products take in this cycle: 1 KiB for a streamed operand and 1 KiB for a preload; a product waits for no other reader (R72). -/
def State.productReads (s : State) (n : Nat) : Nat :=
  ((s.arr n).ops.map (fun o => match o.body with
    | .prod p => 1024 * bnat (p.streams s.mem s.cycle) + 1024 * bnat (p.preloads s.mem s.cycle)
    | _ => 0)).sum

/-- Bytes that the running pass takes in this cycle. -/
def ArrayState.passReads (a : ArrayState) (now : Nat) : Nat :=
  match a.pass with
  | some p => if p.start ≤ now && now < p.endAt then p.need else 0
  | none => 0

/-- The tile the update unit works on in this cycle, with its operation and the cycles it takes. -/
def State.updWorks (s : State) (n : Nat) : Option (UpdCur × Op × Nat) :=
  let a := s.arr n
  match a.updCur with
  | none => none
  | some c => if c.endAt ≤ s.cycle then none else match a.updOp c.op, s.weight? c.wt with
    | some o, some w => some (c, o, s.tileTime w)
    | _, _ => none

/-- The lane of an array, if it moves bytes in this cycle. -/
def State.laneWorks (s : State) (n : Nat) : Option Lane := (s.arr n).lane.filter (fun l => l.fetched && !l.waiting && s.cycle < l.readyAt)

/-- Ranges that a lane reads in this cycle, and those that it writes: its tile's, or its transfer's. -/
def Lane.moves (l : Lane) (m : Cells) : List (Nat × Nat) × List (Nat × Nat) :=
  match l.tiles with
  | t :: _ => (l.desc.tileReads m t, [(t.dst, l.desc.dstTile m)])
  | [] => (l.desc.moveReads, [(l.desc.dst, l.desc.len)])

/-- The running pass loses a cycle, and counts it (R172). -/
def State.passWaits (s : State) (n : Nat) : State :=
  (s.modArr n (fun a => { a with pass := a.pass.map (fun (p : Pass) => { p with endAt := p.endAt + 1 }) })).bumpArr64 n Reg.ARR_VEC_PORT_WAIT 1

/-- The update unit's tile takes a cycle more. -/
def State.updWaits (s : State) (n : Nat) : State :=
  s.modArr n (fun a => { a with updCur := a.updCur.map (fun (c : UpdCur) => { c with endAt := c.endAt + 1 }) })

/-- The lane's tile or transfer takes a cycle more. -/
def State.laneWaits (s : State) (n : Nat) : State :=
  s.modArr n (fun a => { a with lane := a.lane.map (fun (l : Lane) => { l with readyAt := l.readyAt + 1 }) })

/-! ### The write port (R207) -/

/-- Bytes that the vector engine writes in this cycle: those of its landings, and of a pass whose first results already come (R172, R207). -/
def ArrayState.vectorWrites (a : ArrayState) (now : Nat) : Nat :=
  let running := match a.pass with
    | some p => if p.start + p.latency ≤ now then p.rate else 0
    | none => 0
  running + ((a.landings.filter (fun l => l.start ≤ now && now < l.at_)).map (·.rate)).sum

/-! ### One cycle -/

/-- Who loses the ports of slice `n` in this cycle: the pass, the update unit's reads, its writes, and the lane (R72, R172, R205, R207). The reader of each rank takes all that it needs or nothing; a lane waits when nothing is left of a port that it uses (DESIGN CHOICE, log 81). -/
structure PortLosers where
  pass : Bool
  updRead : Bool
  updWrite : Bool
  lane : Bool
  deriving DecidableEq, Repr

/-- The losers of a cycle. -/
def State.portLosers (s : State) (n : Nat) : PortLosers :=
  let a := s.arr n
  let left := portBytes - s.productReads n
  let need := a.passReads s.cycle
  let pass := left < need
  let left := if pass then left else left - need
  let upd := s.updWorks n
  let uNeed := match upd with
    | some (c, o, t) => sliceRate n (s.updReads c o) t
    | none => 0
  let updRead := left < uNeed
  let left := if updRead then left else left - uNeed
  let room := portBytes - a.vectorWrites s.cycle
  let uPut := match upd with
    | some (c, o, t) => sliceRate n (s.updWrites c o) t
    | none => 0
  let updWrite := room < uPut
  let room := if updWrite then room else room - uPut
  let lane := (s.laneWorks n).any (fun l =>
    let mv := l.moves s.mem
    (left == 0 && sliceBytes n mv.1 != 0) || (room == 0 && sliceBytes n mv.2 != 0))
  ⟨pass, updRead, updWrite, lane⟩

/-- The losers of array `n` wait one cycle. -/
def State.contendArray (s : State) (n : Nat) : State :=
  if (s.arr n).quiet then s
  else
    let s := (s.arr n).ops.foldl (fun (s : State) o => s.stallPreload n o) s
    let x := s.portLosers n
    let s := if x.pass then s.passWaits n else s
    let s := if x.updRead || x.updWrite then s.updWaits n else s
    let s := if x.updRead then s.bumpArr n Reg.ARR_UPD_PORT_WAIT 1 else s
    if x.lane then s.laneWaits n else s

/-- The ports of every slice in one core cycle. -/
def State.contend (s : State) : State := (List.range s.arrays.length).foldl State.contendArray s

end Sys2Proof.Machine
end

