-- ==== Sys2Proof/Machine/Time.lean ====
section
/-! DEFINITION. The passing of core cycles inside a period: cycle, bus and time-of-day counts, the counters of waiting, and what falls due without a command (R77, R153, R178, R190, R197, R205, R234, R236, R252, R260, R323, R403, R427). -/

namespace Sys2Proof.Machine

/-- Advances the bus-cycle count by `n` core cycles: 500 MHz against 2.1 GHz × r/64 (R236, R403). The time of day keeps within its second until SECOND_BOUNDARY (R252); while `ten` says that the 10 MHz output is driven, it rises at every multiple of 100 ns (R254). -/
def Thyme.advance (t : Thyme) (n : Nat) (ten : Bool) : Thyme :=
  let tot := t.busRem + 320 * n
  let den := 21 * t.rate
  let ns := min 999999999 (t.todNs + 2 * (tot / den))
  { t with bus := t.bus + tot / den, busRem := tot % den, todNs := ns, cyc := t.cyc + n, cycle := t.cycle + n,
           edges10 := t.edges10 + (if ten then ns / 100 - t.todNs / 100 else 0) }

/-! ### Counters of waiting -/

/-- Adds `n` cycles to the wait counter of one held head; the hazard cycles end with the owner's retirement (R114). -/
def State.headWait (s : State) (a : Nat) (n : Nat) (hi : HeadInfo) : State :=
  match hi.hold with
  | .acc => if hi.units.any (fun u => (s.arr a).ops.any (fun o => o.units.contains u)) then s.bumpArr64 a Reg.ARR_ACC_HAZARD_CYC n else s
  | .slot => s.bumpArr a Reg.ARR_SLOT_WAIT n
  | .dmaq => s.bumpArr a Reg.ARR_DMAQ_WAIT n
  | .sreg => s.bumpArr a Reg.ARR_SREG_WAIT n
  | .staging => s.bump64 Reg.TIR_STAGE_HOLD_CYC n
  | .sendq => s.bump Reg.RNG_SENDQ_WAIT n
  | _ => s

/-- Of the `n` cycles from `now` on, those in which a UPD of an array waits for the verdict: from its start (R197). -/
def ArrayState.verdictWait (a : ArrayState) (now n : Nat) : Nat :=
  let starts := a.ops.filterMap (fun o => match o.body with
    | .upd _ _ _ _ _ _ _ => some (o.readyAt - now)
    | _ => none)
  if a.verdictDone then 0 else starts.foldl (fun m d => max m (n - d)) 0

/-- Wait counters of one array: its heads, its queue (R178, R179), its update unit (R197). -/
def State.arrayWaits (s : State) (i n : Nat) : State :=
  let a := s.arr i
  let full := a.queue.length == 8
  let reading := a.pass.any (·.fromQueue)
  let s := allStreams.foldl (fun (s : State) t => match (a.ctx t).head with
    | some h => s.headWait i n h
    | none => s) s
  let s := if full && !a.waiting.isEmpty then s.bumpArr64 i Reg.ARR_FTQ_STALL_CYC n else s
  let s := s.bumpArr i Reg.ARR_UPD_VERDICT_WAIT (a.verdictWait s.cycle n)
  if full && !reading then s.modArr i (fun (a : ArrayState) => { a with fullCycles := a.fullCycles + n }) else s

/-- Contexts with units that wait for earlier adds (R323). -/
def State.addWaits (s : State) : Nat := (s.ring.ctxs.filter (fun c => c.2.recvs.any (fun r => !r.early.isEmpty))).length

/-- Every wait counter of the module. -/
def State.waits (s : State) (n : Nat) : State :=
  let s := (List.range s.arrays.length).foldl (fun (s : State) a => s.arrayWaits a n) s
  let s := s.bump64 Reg.MSK_VER_WAIT_CYC (n * s.mask.verWaits.length)
  s.bump Reg.RNG_ADD_WAIT (n * s.addWaits)

/-! ### What falls due -/

/-- Operations whose effect is done and whose slot frees when their latency has passed: SST, UVER.OPEN, UNRM.FIN, CTX.ADV, a UPD whose tiles are written, an MMG with no tile to add (R88, R205, R310). -/
def Op.expires (o : Op) (now : Nat) : Bool :=
  o.readyAt ≤ now && (match o.body with
    | .sst _ _ => true
    | .unrmFin d => d
    | .uverOpen _ _ d => d
    | .ctxAdv _ _ d => d
    | .upd _ _ e1 nx _ _ p => e1 < nx && p == 0
    | .prod p => p.kind == .mmg && p.plan.isEmpty && p.finals.isEmpty && p.addLeft.isEmpty
    | _ => false)

/-- The latency of UVER.CLOSE counts from the retirement of the last UPD it waits for (R190, R205). -/
def State.closeWaits (s : State) (n : Nat) : State :=
  let a := s.arr n
  let moved := fun (o : Op) => match o.body with
    | .uverClose wt => a.earlierUpd wt o.seq
    | _ => false
  if a.ops.any moved then
    let at_ := s.cycle + s.lat 0x25
    s.modArr n (fun (a : ArrayState) => { a with ops := a.ops.map (fun (o : Op) => if moved o then { o with readyAt := at_ } else o) })
  else s

/-- Stores land and slots free whose operations are done (R310). -/
def State.expireArray (s : State) (n : Nat) : State :=
  let s := s.closeWaits n
  ((s.arr n).ops.filter (fun o => o.expires s.cycle)).foldl (fun (s : State) o => (s.landStore n o).retireOp n o) s

/-- Sage enters STOPPED once nothing of the stopped module is in flight; a pending HOLD ends (R386, R427). -/
def State.settleStop (s : State) : State :=
  if !s.flt.stopped then s
  else
    if s.nothingInFlight && (s.host.st == .running || s.host.st == .held) then
      let s := if s.pendingIs 0x21 then s.finalReply Status.state 0 0 [] else s
      { s with host := { s.host with st := .stopped, holdStep := none } }
    else s

/-- All that falls due in a cycle without a command. -/
def State.expire (s : State) : State :=
  let s := (List.range s.arrays.length).foldl (fun (s : State) n => s.expireArray n) s
  s.settleVersions.settleNorm.settleRing.settleBar4.settleRefill.settleService.settleStop.settleRestart

/-- `n` core cycles pass within a period. -/
def State.elapse (s : State) (n : Nat) : State :=
  let ten := (s.reg Reg.THY_OUT_CTRL).getLsbD 1 && !s.thy.outLow
  ((s.waits n).modThy (fun t => t.advance n ten)).expire

/-- One core cycle with its arbitration (R72, R207). -/
def State.oneCycle (s : State) : State := s.contend.elapse 1

/-- What an empty queue lets happen: one core cycle, up to the last of the period; before boot has ended the core clock does not run (log 5). -/
def State.idleCycle (s : State) : State := if s.host.bootDone && s.thy.cyc < 255 then s.oneCycle else s

end Sys2Proof.Machine
end

