-- ==== Sys2Proof/Machine/Jobs.lean ====
section
/-! DEFINITION. The counter classes of R444 and R445, and what clears them. -/

namespace Sys2Proof.Machine

/-- Job counters of an array block (R445). -/
def jobArray (o : Nat) : Bool :=
  (0x10 ≤ o && o ≤ 0x20) || (0x604 ≤ o && o ≤ 0x61C) || (0x704 ≤ o && o ≤ 0x720) || (0x934 ≤ o && o ≤ 0x944)

/-- Job counters of the global block. -/
def jobGlobal (o : Nat) : Bool :=
  [Reg.HST_SEAL_ERR, Reg.HST_BUSY_WRITE, Reg.HST_CMDS, Reg.UPD_SUPPRESSED, Reg.STP_BOUNDARIES, Reg.STP_SKEW_WAIT, Reg.DIG_REQUESTS,
   Reg.DIG_QUEUE_WAIT, Reg.DET_STRICT_REFUSED, Reg.GLB_STROBE_CONFLICTS, Reg.GLB_CRC_SCRUBS, Reg.GLB_GUARD_ERRS].contains o ||
    (0x600 ≤ o && o < 0x800 && ((o - 0x600) % 0x20 == Reg.WCT_GRANTS || (o - 0x600) % 0x20 == Reg.WCT_RETRIES))

/-- Job counters of the DMA, tier and Thyme blocks. -/
def jobMiddle (o : Nat) : Bool :=
  [Reg.DMA_CODEC_WAIT, Reg.DMA_MASKED_DROP, Reg.DMA_MASKED_DROP + 4, Reg.TIR_FAR_RMW, Reg.TIR_FAR_RMW + 4, Reg.TIR_MISS].contains o ||
    (Reg.TIR_STAGED ≤ o && o ≤ Reg.TIR_MIGRATE) || (Reg.THY_HOLD_REQ ≤ o && o ≤ Reg.THY_LATE) ||
    o == Reg.THY_TOD_IGNORED || o == Reg.THY_PTP_PASSIVE

/-- Job counters of the ring, mirror, mask and fault blocks. -/
def jobUpper (o : Nat) : Bool :=
  [Reg.RNG_BAY_CHANGES, Reg.RNG_FILTERED, Reg.RNG_BEACON_TX, Reg.RNG_BEACON_MERGED, Reg.RNG_BEACON_UNMERGED, Reg.RNG_DISCARD, Reg.RNG_ADD_WAIT,
   Reg.RNG_SENDQ_WAIT, Reg.MIR_AGREE, Reg.MIR_DIVERGE, Reg.MIR_REPLAYS, Reg.MIR_FWD_SKIP, Reg.MSK_REPORT_LOST, Reg.MSK_SHORTFALL, Reg.MSK_COMMITS,
   Reg.MSK_QUEUE_WAIT, Reg.MSK_VER_WAIT, Reg.MSK_VER_WAIT_CYC, Reg.MSK_VER_WAIT_CYC + 4, Reg.MSK_CVT_SAT,
   Reg.FLT_COUNT, Reg.FLT_EVENTS, Reg.FLT_EVENTS_LOST, Reg.FLT_EVENTS_SUPPRESSED, Reg.FLT_AUTO_COUNT].contains o ||
    (0xB00100 ≤ o && o < 0xB00240 && (o - 0xB00100) % 0x40 == Reg.RNG_P_REPLAY)

/-- Whether a register is a job counter. -/
def isJob (o : Nat) : Bool :=
  if o < 0x100000 then jobGlobal o
  else if o < 0x540000 then jobArray ((o - 0x100000) % 0x10000)
  else if o < 0xB00000 then jobMiddle o
  else jobUpper o

/-- Whether a register is a determinism counter (R372). -/
def isDetCounter (o : Nat) : Bool := o == Reg.DET_NONDET || o == Reg.DET_NONDET + 4 || o == Reg.DET_ND_WCT || o == Reg.DET_ND_RING

/-- Sets every register of a kind to its reset value. -/
def State.clearRegs (s : State) (p : Nat → Bool) : State :=
  { s with regs := { s.regs with vals := s.regs.vals.filter (fun e => !p e.1) } }

/-- Job counters go to their reset values: COMMIT_IMAGE, CLOSE, FAULT_CLEAR with clear_counters (R444). -/
def State.clearJobCounters (s : State) : State := s.clearRegs isJob

end Sys2Proof.Machine
end

