-- ==== Sys2Proof/Machine/Thyme.lean ====
section
/-! DEFINITION. Thyme: period boundaries, lateness, holds, rate steps, phase frames, mastership, time of day, PTP (R234 to R254), and the stop of R427. -/

namespace Sys2Proof.Machine

/-! ### Requested rate (R249) -/

/-- The host's cap as it takes effect: 32 to 64 (R421). -/
def State.rateCap (s : State) : Nat := min 64 (max 32 (s.regN Reg.THY_RATE_CAP % 128))

/-- r_req: the lowest of the power controller's value, the thermal controller's and the host's cap. -/
def State.rateReq (s : State) : Nat := min s.thy.powerRate (min s.thy.thermalRate s.rateCap)

/-- Changes what r_req depends on, and sends RATE when r_req changes. -/
def State.withRate (s : State) (g : State → State) : State :=
  let t := g s
  if t.rateReq == s.rateReq then t else t.thymeMsg 2 t.rateReq

/-! ### Mastership (R238, R241) -/

/-- Whether election key `a` wins against `b`: higher priority, then lower address. -/
def keyWins (a b : Nat × Nat) : Bool := b.1 < a.1 || (a.1 == b.1 && a.2 < b.2)

/-- This module's effective priority: 0 until its oscillator is stable (R452). -/
def State.prio (s : State) : Nat := if s.host.oscStable then s.regN Reg.THY_PRIO % 256 else 0

/-- This module's election key. -/
def State.key (s : State) : Nat × Nat := (s.prio, s.ring.addr)

/-- Key of the master that this module follows. -/
def State.masterKey (s : State) : Nat × Nat := (s.thy.masterPrio, s.thy.masterAddr)

/-- This module is the master from now on; it goes on from its own counters (R241) and drives its time outputs (R254). Of hold levels and requested rates it knows its own alone: the others' have gone to the master before it (R245, R249; DESIGN CHOICE, log 96). -/
def State.becomeMaster (s : State) : State :=
  let k := s.key
  let s := (s.modThy (fun t => { t with
    master := true, backup := false, masterPrio := k.1, masterAddr := k.2, parent := 7, holdover := false, outLow := false
    levels := [], reqRates := [] })).masterRequest k.2 s.rateReq
  if s.thy.level then s.masterHoldOn k.2 else s

/-- Another module is the master. Whether this one is the runner-up follows from keys that no command carries: a free value (log 33). A master that loses its office to one that joins had won against all others and is the runner-up; a module that itself joins was the master of a ring of one, which says nothing. -/
def State.followMaster (s : State) (k : Nat × Nat) (joining : Bool) : State :=
  let b := (s.thy.master && !joining) || s.freeWord.getLsbD 0
  (s.used 1).modThy (fun t => { t with master := false, backup := b, masterPrio := k.1, masterAddr := k.2, sinceMaster := 0, levels := [], reqRates := [] })

/-- A master change under R241 is counted and posted. -/
def State.countMasterChange (s : State) : State := (s.bump Reg.THY_MASTER_CHANGE 1).event 0xA3 s.thy.masterAddr

/-- OSC_STABLE and THY_PRIO: election runs when this module's effective priority rises from 0 while the master's is 0 (R238). -/
def State.prioRises (s : State) (before : Nat) : State :=
  if s.thy.master then s.modThy (fun t => { t with masterPrio := s.prio })
  else if before == 0 && s.prio != 0 && s.thy.masterPrio == 0 then s.becomeMaster
  else s

/-! ### PERIOD_BOUNDARY (R234, R243 to R248) -/

/-- Whether a period is frozen by an announced hold. -/
def Thyme.frozenAt (t : Thyme) (p : Nat) : Bool := t.holds.any (fun h => h.start ≤ p && h.stop.all (fun e => p < e))

/-- Kind-1 entries of the period that ends are written: their counts are final (R436). -/
def State.flushEntries (s : State) : State :=
  let es := s.flt.waitingEntries
  es.foldl (fun (s : State) e => s.writeEntry e) { s with flt := { s.flt with waitingEntries := [] } }

/-- THY_HOLD_LAST for a hold that has passed. -/
def PhaseHold.last (h : PhaseHold) : W32 := BitVec.ofNat 32 (h.requester % 65536 * 65536 + min 65535 (h.stop.getD 0 - h.start))

/-- The counters advance into the next period; holds and rate steps that name it take effect (R234, R245, R250). -/
def State.advancePeriod (s : State) : State :=
  let t := s.thy
  let was := t.frozenAt t.period
  let p := t.period + 1
  let past := t.holds.filter (fun h => h.stop.any (fun e => e ≤ p))
  let due := t.rateNext.filter (fun e => e.2 ≤ p)
  let s := s.bump64 Reg.THY_HELD (bnat was)
  let s := s.bump Reg.THY_HOLDS (t.holds.filter (fun h => h.start == p)).length
  let s := past.foldl (fun (s : State) h => s.setReg Reg.THY_HOLD_LAST h.last) s
  s.modThy (fun t => { t with
    cyc := 0
    period := nat64 p
    tick := if was then t.tick else nat64 (t.tick + 1)
    holds := t.holds.filter (fun h => !h.stop.any (fun e => e ≤ p))
    rate := (due.getLast?.map Prod.fst).getD t.rate
    rateNext := t.rateNext.filter (fun e => !(e.2 ≤ p))
    frozen := t.frozenAt p
    episodeFrozen := t.episodeFrozen + bnat (was && t.level)
    sinceFrame := if t.master then 0 else t.sinceFrame + 1
    sinceMaster := if t.master then 0 else t.sinceMaster + 1 })

/-- Marks the members of a list that have become past due and counts them (R244). -/
def lateMarks {α : Type} (due : α → Nat) (late : α → Bool) (set : α → α) (t : Nat) (xs : List α) : List α × Nat :=
  (xs.map (fun x => if !late x && due x < t then set x else x), (xs.filter (fun x => !late x && due x < t)).length)

/-- Products that have retired and whose drains become past due at tick `t` (R176, R243). -/
def ArrayState.lateDrains (a : ArrayState) (t : Nat) : Nat :=
  let ds := ((a.waiting ++ a.queue).filter QEntry.drains).map (fun q => (q.slot, q.due)) ++
    (a.pass.toList.filter (·.isDrain)).map (fun p => (p.slot, p.due)) ++ (a.landings.filter (·.isDrain)).map (fun l => (l.slot, l.due))
  (ds.filter (fun d => d.2 + 1 == t && !a.ops.any (fun o => o.slot == d.1 && o.due == d.2))).eraseDups.length

/-- Marks a late head. -/
def StreamCtx.lateHead (c : StreamCtx) (t : Nat) : StreamCtx × Nat :=
  match c.head with
  | some h => if !h.late && h.due < t then ({ c with head := some { h with late := true } }, 1) else (c, 0)
  | none => (c, 0)

/-- Marks what is past due in one array at tick `t`; `ticked` says that the tick has just advanced. -/
def ArrayState.markLate (a : ArrayState) (t : Nat) (ticked : Bool) : ArrayState × Nat :=
  let descs := lateMarks Desc.due Desc.late (fun d => { d with late := true }) t
  let drains := if ticked then a.lateDrains t else 0
  let (ops, n0) := lateMarks Op.due Op.late (fun o => { o with late := true }) t a.ops
  let (qf, n1) := descs a.queueF
  let (qb, n2) := descs a.queueB
  let (qu, n3) := descs a.queueU
  let lane := a.lane.map (fun l => if l.desc.due < t then { l with desc := { l.desc with late := true } } else l)
  let n4 := bnat (a.lane.any (fun l => !l.desc.late && l.desc.due < t))
  let (f, n5) := a.f.lateHead t
  let (b, n6) := a.b.lateHead t
  let (u, n7) := a.u.lateHead t
  ({ a with ops := ops, queueF := qf, queueB := qb, queueU := qu, lane := lane, f := f, b := b, u := u }, drains + n0 + n1 + n2 + n3 + n4 + n5 + n6 + n7)

/-- Marks the late messages of one context. -/
def CtxEntry.markLate (c : CtxEntry) (t : Nat) : CtxEntry × Nat :=
  let (rs, n0) := lateMarks Recv.due Recv.late (fun r => { r with late := true }) t c.recvs
  let (xs, n1) := lateMarks Send.due Send.late (fun x => { x with late := true }) t c.sends
  ({ c with recvs := rs, sends := xs }, n0 + n1)

/-- Counts in THY_LATE every operation and head that becomes past due (R244). -/
def State.countLate (s : State) (ticked : Bool) : State :=
  let t := s.thy.tick
  let as := s.arrays.map (fun a => a.markLate t ticked)
  let (q, n0) := lateMarks MaskOp.due MaskOp.late (fun o => { o with late := true }) t s.mask.queue
  let run := s.mask.running.map (fun (r : MaskOp × Nat × Bool) => if r.1.due < t then ({ r.1 with late := true }, r.2) else r)
  let n1 := bnat (s.mask.running.any (fun r => !r.1.late && r.1.due < t))
  let cs : List (Nat × CtxEntry × Nat) := s.ring.ctxs.map (fun c => (c.1, c.2.markLate t))
  let n := (as.map Prod.snd).sum + n0 + n1 + (cs.map (fun c => c.2.2)).sum
  ({ s with
    arrays := as.map Prod.fst
    mask := { s.mask with queue := q, running := run }
    ring := { s.ring with ctxs := cs.map (fun (c : Nat × CtxEntry × Nat) => (c.1, c.2.1)) } }).bump Reg.THY_LATE n

/-- The module is behind: something in flight, or a head that has not issued, has a due tick before the coming tick (R244). -/
def State.isBehind (s : State) : Bool :=
  s.dues.any (fun d => d < s.tick) || s.arrays.any (fun a => allStreams.any (fun t => (a.ctx t).head.any (fun h => h.due < s.tick)))

/-- Behind episodes: the hold level and its messages (R245). A count that has reached 64 stays until PHASE_HOLD_LIMIT is raised, though the episode ends at this boundary (R248). -/
def State.behindTest (s : State) : State :=
  let b := s.isBehind
  let s := s.modThy (fun t => { t with behind := b })
  if s.thy.quiet then s
  else if b && !s.thy.level then
    ((s.modThy (fun t => { t with level := true, episodeFrozen := if s.limitDue then t.episodeFrozen else 0 })).bump Reg.THY_HOLD_REQ 1).thymeMsg 1 0
  else if !b && s.thy.level then (s.modThy (fun t => { t with level := false })).thymeMsg 0 0
  else s

/-- QUEUE_OVERFLOW is recorded at the boundary that ends its period, unless PHASE_HOLD_LIMIT is raised there or R340 has acted (R179, R248). -/
def State.recordOverflows (s : State) : State :=
  let hits := (List.range s.arrays.length).filter (fun n => (s.arr n).overflowed)
  let skip := !s.mayTimeOut
  let s := { s with arrays := s.arrays.map (fun (a : ArrayState) => { a with overflowed := false }) }
  if skip then s
  else hits.foldl (fun (s : State) n => match (s.arr n).queue with
    | q :: _ => s.raise { FaultRec.of 0x12 1 with arr := n, stream := q.stream.idx, slot := q.slot }
    | [] => s.raise { FaultRec.of 0x12 1 with arr := n }) s

/-- The module stops: no stream issues, and streams that held a faulting instruction show it (R427). -/
def State.stopNow (s : State) : State :=
  let s := { s with flt := { s.flt with stopAsked := false, stopped := true } }
  (s.flt.faultStreams.foldl (fun (s : State) f => s.modCtx f.1 f.2 (fun c => if c.st == .running then { c with st := .faulted } else c)) s).settleStop

/-- A stop that was asked for before this boundary takes place (R340, R427). -/
def State.stopDue (s : State) (asked : Bool) : State :=
  if !asked then s
  else if s.host.st == .running || s.host.st == .held then s.stopNow
  else { s with flt := { s.flt with stopAsked := false } }

/-- Whether the parent port carries the phase. -/
def State.parentUp (s : State) : Bool := s.thy.parent < 4 && (s.port s.thy.parent).st == .up

/-- Hops from this module to an address when the first leaves by a ring port. -/
def State.hopsBy (s : State) (p dst : Nat) : Nat :=
  let ring := fun (a b n : Nat) => (b + n - a) % n
  let short := fun (a b n : Nat) => min (ring a b n) (ring b a n)
  let x := s.ring.addr / 256
  let y := s.ring.addr % 256
  let full := fun (d n : Nat) => if d == 0 then n else d
  match p with
  | 0 => full (ring x (dst / 256) s.ring.xn) s.ring.xn + short y (dst % 256) s.ring.yn
  | 1 => full (ring (dst / 256) x s.ring.xn) s.ring.xn + short y (dst % 256) s.ring.yn
  | 2 => full (ring y (dst % 256) s.ring.yn) s.ring.yn + short x (dst / 256) s.ring.xn
  | _ => full (ring (dst % 256) y s.ring.yn) s.ring.yn + short x (dst / 256) s.ring.xn

/-- The ring port of a list with the fewest hops to a master, the first among equals; 7 for none (R239). -/
def State.nearest (s : State) (ps : List Nat) (master : Nat) : Nat :=
  match ps with
  | [] => 7
  | p :: r => r.foldl (fun b q => if s.hopsBy q master < s.hopsBy b master then q else b) p

/-- The ring ports that are up, in the order of R239. -/
def State.upPorts (s : State) : List Nat := [1, 0, 3, 2].filter (fun p => (s.port p).st == .up)

/-- Parent port towards a master: fewest hops among the ports that are up, ties X−, X+, Y−, Y+ (R239). -/
def State.bestParent (s : State) (master : Nat) : Nat := s.nearest s.upPorts master

/-- The ring ports that carry valid phase frames: one has come in the last two intervals of 64 periods (R240; the span DESIGN CHOICE, log 96). -/
def State.carriers (s : State) : List Nat :=
  s.upPorts.filter (fun p => match s.thy.carry.getD p none with
    | some k => s.period ≤ k + 128
    | none => false)

/-- A member whose parent port has failed takes the next port that carries valid frames; until then, and after PHASE_LOSS, it is in holdover (R240). -/
def State.settleParent (s : State) : State :=
  if s.thy.master then s
  else
    let p := if s.parentUp then s.thy.parent else s.nearest s.carriers s.thy.masterAddr
    let h := s.thy.phaseLost || p == 7
    s.modThy (fun t => { t with parent := p, holdover := h })

/-- A port has come up, or the address has changed: the parent port is the nearest again (R239). -/
def State.reparent (s : State) : State :=
  if s.thy.master then s
  else
    let p := s.bestParent s.thy.masterAddr
    s.modThy (fun t => { t with parent := p })

/-- The master's part of a boundary: phase frames every 64th period, a rate step when one is due (R239, R250). A member looks after its parent port (R240). -/
def State.phaseDuties (s : State) : State :=
  if s.thy.master then
    let s := if s.thy.period % 64 == 0 then s.sendPhase 6 [0, 1, 2, 3, 4] s.thy.info else s
    s.masterRate
  else s.settleParent

/-- Calibration that takes effect at a period boundary: thermal-sensor offsets and array power coefficients (R466). -/
def periodCal (id : Nat) : Bool := (0x1000 ≤ id && id ≤ 0x104F) || (0x4000 ≤ id && id ≤ 0x4087)

/-- PHASE_HOLD_LIMIT: the frozen periods of an episode have reached 64: fault, HOLD_OFF, and nothing more issues (R248). -/
def execPhaseHoldLimit (s : State) : Host.Outcome State Fault Refusal :=
  if !s.limitDue then .next s
  else
    let s := (s.setBits Reg.THY_STATUS 0x10).raiseCode 0x60 0x0A
    .next (s.holdOff.stopDue (s.host.st == .running))

/-! ### MODULE_STEP_BOUNDARY (R265) -/

/-- Whether the U stream of an array has an instruction of a step that has not retired: a product retires when its last tile has entered the queue (R176, R178, R265). -/
def ArrayState.uInFlight (a : ArrayState) (step : Nat) : Bool :=
  a.ops.any (fun o => o.stream == .u && o.step == step) || a.queueU.any (fun d => d.step == step) ||
    a.lane.any (fun l => l.desc.stream == .u && l.desc.step == step)

/-- Whether both conditions of R265 hold. -/
def State.boundaryDue (s : State) : Bool :=
  let k := s.stp.step
  let as := s.arrays.take s.nArrays
  s.host.st == .running && s.stp.started && s.thy.cyc == 0 && !s.mir.diverged && !as.isEmpty &&
    as.all (fun a => a.u.stepbDone && !a.uInFlight k) &&
    s.mask.queue.all (fun o => o.step != k) && s.mask.running.all (fun r => r.1.step != k) &&
    s.ring.ctxs.all (fun c => c.2.recvs.all (fun r => r.stream != .u || r.step != k) && c.2.sends.all (fun x => x.stream != .u || x.step != k))

/-- A committed weight takes its pending mask; the version buffer of the old generation is free (R129, R149). -/
def Weight.publish (w : Weight) : Weight :=
  if w.st == .committed then
    let g := w.gen + 1
    let fix := fun (v : VBuf) => if v.gen == g % 2 ^ 32 then v else ({ v with st := .free } : VBuf)
    { w with st := .idle, curB := !w.curB, gen := g % 2 ^ 32, decision := none, pReq := 0, pDone := 0, gReq := 0, gDone := 0, nonfinite := false,
             v0 := fix w.v0, v1 := fix w.v1 }
  else w

/-- What one array resets at a step boundary (R191, R264). -/
def ArrayState.newStep (a : ArrayState) : ArrayState :=
  { a with norm := DW.zero, normFinal := false, verdictDone := false, u := { a.u with stepbDone := false } }

/-- HOLD: the boundary into s_h stops the module, and its reply follows (R393). -/
def State.reachHold (s : State) : State :=
  match s.host.holdStep with
  | some k =>
    if k ≤ s.stp.step then
      let s := { s with host := { s.host with st := .held } }
      if s.pendingIs 0x21 then s.finalReply Status.done 0 0 [] else s
    else s
  | none => s

/-- Whether a stream of an active array is still in a step or before it. -/
def State.anyIn (s : State) (step : Nat) : Bool :=
  (List.range s.nArrays).any (fun n => allStreams.any (fun st => (s.ctx n st).step ≤ step && (s.ctx n st).st == .running))

/-- The actions of R265, the substitution of spare arrays among them. -/
def State.stepBoundary (s : State) : State :=
  let applied := s.stp.verdict == 1
  let s := { s with
    stp := { s.stp with
      step := s.stp.step + 1, base := s.stp.nextBase.getD s.stp.base, nextBase := none, verdict := 0, verdictSat := false
      since := s.period
      past := (s.stp.past ++ [(s.stp.step, s.stp.nextBase.getD s.stp.base)]).filter (fun e => s.anyIn e.1) }
    mask := { s.mask with weights := s.mask.weights.map (fun (w : Nat × Weight) => (w.1, w.2.publish)) }
    arrays := s.arrays.map ArrayState.newStep
    ring := { s.ring with normIn := none, normSat := false, normSent := false, g2 := none, g2Sat := false } }
  let s := s.bump Reg.STP_BOUNDARIES 1
  let s := if applied then s.setRw Reg.UPD_TCOUNT (s.reg Reg.UPD_TCOUNT + 1) else s
  ((s.settleSubst.captureWeights s.stp.step).pruneGens).reachHold

/-- MODULE_STEP_BOUNDARY: every U stream has finished its step (R265). -/
def execModuleStepBoundary (s : State) : Host.Outcome State Fault Refusal :=
  if s.boundaryDue then .next s.stepBoundary else .next s

/-! ### Phase frames and announcements (R239 to R241, R245, R250) -/

/-- Hold information of a frame or announcement, at a member. The first requester is not carried: a free value (log 34). -/
def State.absorbHold (s : State) (i : PhaseInfo) : State :=
  let e := if i.hold == 3 then some i.holdEnd else none
  if i.hold == 0 || e.any (fun e => e ≤ s.period) then s
  else if s.thy.holds.any (fun h => h.start == i.holdStart) then
    s.modThy (fun t => { t with holds := t.holds.map (fun (h : PhaseHold) => if h.start == i.holdStart then { h with stop := e } else h) })
  else (s.used 1).modThy (fun t => { t with holds := t.holds ++ [⟨i.holdStart, e, s.freeWord.toNat % 65536⟩] })

/-- A rate step of a frame or announcement, at a member. -/
def State.absorbRate (s : State) (i : PhaseInfo) : State :=
  if i.rateAt ≤ s.period || s.thy.rateNext.contains (i.rateNext, i.rateAt) then s
  else s.modThy (fun t => { t with rateNext := t.rateNext ++ [(i.rateNext, i.rateAt)] })

/-- Both at once. -/
def State.absorb (s : State) (i : PhaseInfo) : State := (s.absorbHold i).absorbRate i

/-- The ring's counters, rate, holds and time replace this module's own (R235); rate steps of the old count bind no longer (R250). -/
def State.adopt (s : State) (i : PhaseInfo) : State :=
  (s.modThy (fun t => { t with
    period := i.period, tick := i.tick, rate := i.rate, holds := [], rateNext := [], levels := [], lastDown := none, lastUp := none, adopt := false, phaseLost := false })).absorb i

/-- PHASE_LOSS: the module issues nothing more from the next boundary (R240). -/
def State.losePhase (s : State) : State :=
  if s.thy.phaseLost then s
  else ((s.modThy (fun t => { t with phaseLost := true, lostIn := t.period, holdover := true })).setBits Reg.THY_STATUS 0x20).raiseCode 0x61 0x0A

/-- Who is the master after a frame that names `k`: this module when it wins the election of its JOIN_RING, otherwise the one named (R238, R241). A new master is a change under R241 where the old one was lost: its key wins, or two intervals of 64 periods have brought nothing of it (DEDUCED, log 33). -/
def State.elect (s : State) (k : Nat × Nat) (joining : Bool) : State :=
  if joining && keyWins s.key k then s.becomeMaster
  else if s.thy.master && !joining && keyWins s.key k then s
  else if s.masterKey == k && !s.thy.master then s.modThy (fun t => { t with sinceMaster := 0 })
  else
    let change := !joining && s.thy.masterAddr != k.2 && (keyWins s.masterKey k || 128 < s.thy.sinceMaster)
    let s := (s.followMaster k joining).reparent
    if change then s.countMasterChange else s

/-- Every fault and STOP of the module counts as acknowledged: fault in FLT_STATUS and the valid bit of FLT_LAST go, and its own reports may form again (R394, R430, R441; the report filter is log 112). -/
def State.acknowledge (s : State) : State :=
  { s.setReg Reg.FLT_STATUS (s.reg Reg.FLT_STATUS &&& 6#32) with
    flt := { s.flt with lastValid := false, unacked := false, faultStreams := [], beaconSent := false, stopAsked := false }
    ring := { s.ring with filter := s.ring.filter.filter (fun (f : Nat × Nat) => f.1 != s.ring.addr) } }

/-- FAULT_CLEAR steps 2 to 4 (R441). Bits of `arg`: 0 clear_counters, 1 clear_beacons. -/
def State.clearFaults (s : State) (arg : Nat) : State :=
  let s := s.acknowledge
  let s := { s with flt := { s.flt with first := none, firstPeriod := 0, codesWritten := [] } }
  let s := if arg.testBit 1 then { s with ring := { s.ring with merges := [], filter := [] } } else s
  if arg.testBit 0 then s.clearJobCounters else s

/-- A valid frame at a module that is not the master: the port carries phase; the parent port's frames also bring the time of day and go on at once (R239, R240, R252). -/
def State.takePhase (s : State) (port : Nat) (i : PhaseInfo) : State :=
  if s.thy.master then s
  else
    let s := (s.modThy (fun t => { t with carry := t.carry.set port (some t.period), sinceFrame := 0, outLow := false })).settleParent
    let s := s.absorb i
    if port == s.thy.parent then
      (s.modThy (fun t => { t with todS := i.todS, todNs := i.todNs })).sendPhase 6 ([0, 1, 2, 3].filter (· != port)) i
    else s

/-- Whether a frame's period, tick or rate differs from this module's (R240). -/
def State.phaseDiffers (s : State) (i : PhaseInfo) : Bool := i.period != s.thy.period || i.tick != s.thy.tick || i.rate != s.thy.rate

/-- JOIN_RING is done once the phase is the ring's (R235, R396). -/
def State.settleJoin (s : State) : State := if s.pendingIs 0x40 then s.finalReply Status.done 0 0 [] else s

/-- FAULT_CLEAR that has waited for the ring's phase goes on (R441). -/
def State.settleClear (s : State) : State :=
  match s.host.pendingCmd with
  | some p => (s.clearFaults (p.arg % 4)).finalReply Status.done 0 0 []
  | none => s

/-- The effect of a phase frame. A module that joins, or whose FAULT_CLEAR waits after PHASE_LOSS, adopts the ring's phase from the port that is nearest to the master; one that has the ring for itself has joined it with its own frame. Every other frame is compared, the master's own that come back to it among them: one that differs raises PHASE_LOSS and is only sent on (R235, R238 to R240, R396, R441). -/
def State.phaseArrives (s : State) (port : Nat) (i : PhaseInfo) : State :=
  let joining := s.thy.adopt
  let waiting := s.thy.phaseLost && s.pendingIs 0x71
  if i.masterAddr == s.ring.addr && s.thy.master then
    if joining then (s.modThy (fun t => { t with adopt := false })).settleJoin
    else if s.phaseDiffers i then s.losePhase else s
  else if joining || waiting then
    if port != s.bestParent i.masterAddr then s
    else
      let s := ((s.adopt i).elect (i.masterPrio, i.masterAddr) joining).takePhase port i
      if joining then s.settleJoin else s.settleClear
  else if s.phaseDiffers i then
    let s := s.losePhase
    if port == s.thy.parent then s.sendPhase 6 ([0, 1, 2, 3].filter (· != port)) i else s
  else (s.elect (i.masterPrio, i.masterAddr) false).takePhase port i

/-- PHASE_FRAME (R239, R240). -/
def execPhaseFrame (f : Frame) (i : PhaseInfo) (s : State) : Host.Outcome State Fault Refusal :=
  .next (s.linkIn 6 f (fun s => s.phaseArrives f.port i))

/-- HOLD_ON at the master (R245); no other module acts on it. -/
def execHoldOn (f : Frame) (s : State) : Host.Outcome State Fault Refusal :=
  .next (s.arrives 7 f (fun s => if s.thy.master then s.masterHoldOn f.src else s))

/-- HOLD_OFF at the master (R245). -/
def execHoldOff (f : Frame) (s : State) : Host.Outcome State Fault Refusal :=
  .next (s.arrives 7 f (fun s => if s.thy.master then s.masterHoldOff f.src else s))

/-- RATE_MESSAGE at the master: aux is the requested rate (R249). -/
def execRateMessage (f : Frame) (s : State) : Host.Outcome State Fault Refusal :=
  .next (s.arrives 7 f (fun s => if s.thy.master then s.masterRequest f.src f.aux.toNat else s))

/-- An announcement of the master is taken, and sent on when it is new (R239, R245, R250). -/
def State.announced (s : State) (port : Nat) (i : PhaseInfo) : State :=
  if s.thy.master then s
  else
    let t := s.absorb i
    if t.thy.holds == s.thy.holds && t.thy.rateNext == s.thy.rateNext then s else t.sendPhase 7 ([0, 1, 2, 3].filter (· != port)) i

/-- HOLD_MESSAGE: a member takes the master's announcement (R245, R250). -/
def execHoldMessage (f : Frame) (i : PhaseInfo) (s : State) : Host.Outcome State Fault Refusal :=
  .next (s.linkIn 7 f (fun s => s.announced f.port i))

/-- HOLDOVER_TIMEOUT: no valid frame for THY_HOLDOVER_MAX periods: the time outputs go low, PHASE_LOSS; a FAULT_CLEAR that has waited 1 s for frames is refused (R240, R254, R441). -/
def execHoldoverTimeout (s : State) : Host.Outcome State Fault Refusal :=
  if s.thy.master then .next s
  else
    let past := decide (s.regN Reg.THY_HOLDOVER_MAX ≤ s.thy.sinceFrame)
    let t := s.modThy (fun t => { t with outLow := t.outLow || past })
    if s.thy.phaseLost && s.pendingIs 0x71 then
      .next (match s.host.pendingCmd with
        | some p => if p.arg / 4 + 8203125 ≤ s.thy.sinceFrame then t.finalReply Status.refused 0x61 0 [] else t
        | none => t)
    else .next (if past then t.losePhase else t)

/-- Frames from modules other than the master still reach this one: one has come in the last 256 periods (R241). -/
def State.hearsOthers (s : State) : Bool := s.ring.heardAt.any (fun p => s.period < p + 256)

/-- MASTER_LOST_TIMEOUT: the backup has seen no frame of the master for 256 periods, while frames from others still reach it, and takes over (R241). -/
def execMasterLostTimeout (s : State) : Host.Outcome State Fault Refusal :=
  if s.thy.backup && !s.thy.master && !s.thy.phaseLost && 256 ≤ s.thy.sinceMaster && s.hearsOthers then .next s.becomeMaster.countMasterChange
  else .next s

/-! ### Time of day (R252, R254) and PTP (R253) -/

/-- Both time outputs rise at the second where THY_OUT_CTRL enables them and they are not held low (R254). -/
def State.secondEdges (s : State) : State :=
  let c := s.reg Reg.THY_OUT_CTRL
  if s.thy.outLow then s
  else s.modThy (fun t => { t with pps := t.pps + bnat (c.getLsbD 0), edges10 := t.edges10 + bnat (c.getLsbD 1) })

/-- The time of day at a second boundary: the value set on the master takes effect; one set before mastership was lost does not (R252). -/
def State.nextSecond (s : State) : State :=
  if s.thy.todPending && s.thy.master then
    let v := s.regN Reg.THY_TOD_SET_SL + 2 ^ 32 * (s.regN Reg.THY_TOD_SET_SH % 65536)
    s.modThy (fun t => { t with todS := v, todNs := s.regN Reg.THY_TOD_SET_NS, todPending := false })
  else s.modThy (fun t => { t with todS := (t.todS + 1) % 2 ^ 48, todNs := 0, todPending := false })

/-- SECOND_BOUNDARY: the edge of the time outputs; a time of day set on the master takes effect. A body without power keeps no time (R252, R254, R477). -/
def execSecondBoundary (s : State) : Host.Outcome State Fault Refusal := .next (if s.powered then s.secondEdges.nextSecond else s)

/-- This module's default data set (R253); its clock identity is its serial number (PRESUMED, log 35). -/
def State.ptpSet (s : State) : PtpSet :=
  let q := s.regN Reg.THY_PTP_QUAL
  let p := s.regN Reg.THY_PTP_PRIO
  ⟨p / 256 % 256, q / 2 ^ 24, q / 65536 % 256, q % 65536, p % 256, s.dev.serial⟩

/-- The data set comparison of IEEE 1588-2019 between different grandmasters: the first difference decides, lower is better. -/
def ptpBetter (a b : PtpSet) : Bool :=
  let key := fun (x : PtpSet) => [x.priority1, x.clockClass, x.accuracy, x.variance, x.priority2, x.identity]
  match ((key a).zip (key b)).find? (fun p => p.1 != p.2) with
  | some p => p.1 < p.2
  | none => false

/-- Whether THY_PTP_CFG holds values inside the ranges of R253 (R421). -/
def ptpCfgOk (c : Nat) : Bool := bits c 25 24 < 3 && bits c 15 8 < 128 && bits c 7 4 < 6 && bits c 3 0 < 7

/-- The grandmaster port is on: enabled with values in range, on the master. -/
def State.ptpOn (s : State) : Bool := s.thy.master && (s.regN Reg.THY_PTP_CFG).testBit 31 && ptpCfgOk (s.regN Reg.THY_PTP_CFG)

/-- domainNumber and transport of the port. -/
def State.ptpWhere (s : State) : Nat × Nat :=
  let c := s.regN Reg.THY_PTP_CFG
  (bits c 15 8, bits c 25 24)

/-- Adds messages to what the port has sent. -/
def State.ptpSend (s : State) (ms : List PtpSent) : State := s.modThy (fun t => { t with ptpLog := t.ptpLog ++ ms })

/-- Sequence number of the next message of a kind: those sent before, modulo 2¹⁶. -/
def State.ptpSeq (s : State) (kind : PtpSent → Bool) : Nat := (s.thy.ptpLog.filter kind).length % 65536

/-- The kinds that have a sequence of their own. -/
def PtpSent.isSync : PtpSent → Bool
  | .sync _ _ _ _ _ _ _ => true
  | _ => false

/-- Announce messages. -/
def PtpSent.isAnnounce : PtpSent → Bool
  | .announce _ _ _ _ _ _ => true
  | _ => false

/-- PTP_MESSAGE: a better clock makes the port PASSIVE; a delay request is answered with its sequence number, its port and its receipt time; every other message is ignored (R253). Port states: 0 disabled, 1 listening, 2 master, 3 passive. -/
def execPtpMessage (m : PtpMsg) (s : State) : Host.Outcome State Fault Refusal :=
  let (domain, transport) := s.ptpWhere
  if !s.ptpOn then .next s
  else match m with
    | .announce d ds =>
      if d != domain || !ptpBetter ds s.ptpSet || s.thy.ptp == 3 then .next s
      else .next ((s.modThy (fun t => { t with ptp := 3 })).bump Reg.THY_PTP_PASSIVE 1)
    | .delayReq d seq source =>
      if d != domain || s.thy.ptp != 2 then .next s else .next (s.ptpSend [.delayResp domain transport seq source s.thy.todS s.thy.todNs])
    | .other => .next s

/-- Announce: data set and currentUtcOffset from registers, timescale PTP (R253). -/
def State.ptpAnnounce (s : State) : PtpSent :=
  let (domain, transport) := s.ptpWhere
  .announce domain transport (s.ptpSeq PtpSent.isAnnounce) ((bits (s.regN Reg.THY_PTP_CFG) 3 0 : Int) - 3)
    ((s.reg Reg.THY_UTC_OFS).truncate 16).toInt s.ptpSet

/-- Sync, with its Follow_Up when two-step (R253). -/
def State.ptpSync (s : State) : List PtpSent :=
  let (domain, transport) := s.ptpWhere
  let one := (s.regN Reg.THY_PTP_CFG).testBit 23
  let seq := s.ptpSeq PtpSent.isSync
  let t := s.thy
  .sync domain transport seq one ((bits (s.regN Reg.THY_PTP_CFG) 7 4 : Int) - 4) t.todS t.todNs ::
    (if one then [] else [.followUp domain transport seq t.todS t.todNs])

/-- PTP_SYNC_TIMER: Sync or Announce is sent; a port that has heard no better clock is the master (R253). -/
def execPtpSyncTimer (announce : Bool) (s : State) : Host.Outcome State Fault Refusal :=
  if !s.ptpOn then .next (s.modThy (fun t => { t with ptp := 0 }))
  else if s.thy.ptp == 3 then .next s
  else .next ((s.modThy (fun t => { t with ptp := 2 })).ptpSend (if announce then [s.ptpAnnounce] else s.ptpSync))

end Sys2Proof.Machine
end

