-- ==== Sys2Proof/Machine/Cycles.lean ====
section
/-! DEFINITION. What the core cycles bring by themselves: the events whose cycle the rules fix, the run of a number of cycles, the end of a period, and what an empty queue lets happen (R234, R368; log 5). -/

namespace Sys2Proof.Machine

/-! ### Events -/

/-- The commands whose cycle the rules of the chapters fix by a latency or a condition of the state. -/
inductive Event where
  | preloadEnd (n slot : Nat)
  | segmentEnd (n slot : Nat)
  | totalsFinal (n slot : Nat)
  | redRetire (n slot : Nat)
  | vectorWriteLanded (n slot : Nat)
  | vtloadRetire (n slot : Nat)
  | sldRegisterWritten (n slot : Nat)
  | unrmRetire (n slot : Nat)
  | uchkVerdict (n slot : Nat)
  | uverCloseRetire (n slot : Nat)
  | ctxAppendRetire (n slot : Nat)
  | passReadEnd (n : Nat)
  | drain (n : Nat)
  | ftqEntry (n : Nat)
  | gbAddition (n : Nat)
  | vectorPassStart (n : Nat)
  | updTile (n : Nat)
  | deferTimeout (n : Nat)
  | queueOverflow (n : Nat)
  | descriptorComplete (n : Nat)
  | codecTile (n : Nat)
  | descriptorFetch (n : Nat) (st : Stream)
  | maskOpComplete
  | maskEngineStart
  | workCounterRequest (c : Nat)
  | digestWritten (e : Nat)
  | dillEngineStart
  | addingUnitApply (ctx : Nat)
  | moduleStepBoundary
  deriving DecidableEq, Repr

/-- The command of an event. -/
def Event.instr : Event → Instr
  | .preloadEnd n k => .preloadEnd n k
  | .segmentEnd n k => .segmentEnd n k
  | .totalsFinal n k => .totalsFinal n k
  | .redRetire n k => .redRetire n k
  | .vectorWriteLanded n k => .vectorWriteLanded n k
  | .vtloadRetire n k => .vtloadRetire n k
  | .sldRegisterWritten n k => .sldRegisterWritten n k
  | .unrmRetire n k => .unrmRetire n k
  | .uchkVerdict n k => .uchkVerdict n k
  | .uverCloseRetire n k => .uverCloseRetire n k
  | .ctxAppendRetire n k => .ctxAppendRetire n k
  | .passReadEnd n => .passReadEnd n
  | .drain n => .drain n
  | .ftqEntry n => .ftqEntry n
  | .gbAddition n => .gbAddition n
  | .vectorPassStart n => .vectorPassStart n
  | .updTile n => .updTile n
  | .deferTimeout n => .deferTimeout n
  | .queueOverflow n => .queueOverflow n
  | .descriptorComplete n => .descriptorComplete n
  | .codecTile n => .codecTile n
  | .descriptorFetch n st => .descriptorFetch n st
  | .maskOpComplete => .maskOpComplete
  | .maskEngineStart => .maskEngineStart
  | .workCounterRequest c => .workCounterRequest c
  | .digestWritten e => .digestWritten e
  | .dillEngineStart => .dillEngineStart
  | .addingUnitApply i => .addingUnitApply i
  | .moduleStepBoundary => .moduleStepBoundary

/-- The meaning of that command. -/
def Event.effect : Event → State → Host.Outcome State Fault Refusal
  | .preloadEnd n k => execPreloadEnd n k
  | .segmentEnd n k => execSegmentEnd n k
  | .totalsFinal n k => execTotalsFinal n k
  | .redRetire n k => execRedRetire n k
  | .vectorWriteLanded n k => execVectorWriteLanded n k
  | .vtloadRetire n k => execVtloadRetire n k
  | .sldRegisterWritten n k => execSldRegisterWritten n k
  | .unrmRetire n k => execUnrmRetire n k
  | .uchkVerdict n k => execUchkVerdict n k
  | .uverCloseRetire n k => execUverCloseRetire n k
  | .ctxAppendRetire n k => execCtxAppendRetire n k
  | .passReadEnd n => execPassReadEnd n
  | .drain n => execDrain n
  | .ftqEntry n => execFtqEntry n
  | .gbAddition n => execGbAddition n
  | .vectorPassStart n => execVectorPassStart n
  | .updTile n => execUpdTile n
  | .deferTimeout n => execDeferTimeout n
  | .queueOverflow n => execQueueOverflow n
  | .descriptorComplete n => execDescriptorComplete n
  | .codecTile n => execCodecTile n
  | .descriptorFetch n st => execDescriptorFetch n st
  | .maskOpComplete => execMaskOpComplete
  | .maskEngineStart => execMaskEngineStart
  | .workCounterRequest c => execWorkCounterRequest c
  | .digestWritten e => execDigestWritten e
  | .dillEngineStart => execDillEngineStart
  | .addingUnitApply i => execAddingUnitApply i
  | .moduleStepBoundary => execModuleStepBoundary

/-- The state after an event. -/
def Event.run (e : Event) (s : State) : State :=
  match e.effect s with
  | .next t => t
  | _ => s

/-- The events that may end something of an operation in its slot. -/
def Op.events (o : Op) (n : Nat) : List Event :=
  match o.body with
  | .prod _ => [.preloadEnd n o.slot, .segmentEnd n o.slot, .totalsFinal n o.slot]
  | .red _ => [.redRetire n o.slot]
  | .vec _ => [.vectorWriteLanded n o.slot]
  | .vtload _ _ _ _ => [.vtloadRetire n o.slot]
  | .sld _ _ _ => [.sldRegisterWritten n o.slot]
  | .unrm _ _ _ _ => [.unrmRetire n o.slot]
  | .uchk => [.uchkVerdict n o.slot]
  | .uverClose _ => [.uverCloseRetire n o.slot]
  | .ctxAppend _ _ _ _ _ _ => [.ctxAppendRetire n o.slot]
  | _ => []

/-- Whether an array has work of its own under way. -/
def ArrayState.works (a : ArrayState) : Bool :=
  !a.quiet || !a.waiting.isEmpty || !a.queue.isEmpty || !a.gbWaiting.isEmpty || a.updCur.isSome || !a.deferred.isEmpty

/-- The events of an array's queue, engines and lane. -/
def arrayEvents (n : Nat) : List Event :=
  [.passReadEnd n, .drain n, .ftqEntry n, .gbAddition n, .vectorPassStart n, .updTile n, .deferTimeout n, .queueOverflow n,
   .descriptorComplete n, .codecTile n] ++ allStreams.map (fun t => .descriptorFetch n t)

/-- A work counter with something to do. -/
def WorkCounter.works (w : WorkCounter) : Bool := !w.arriving.isEmpty || !w.table.isEmpty || !w.sets.isEmpty

/-- The events that the units with work may bring: slots first, then queues and engines, in ascending array; then the mask engine, the work counters, Dill and the ring, and the module step boundary (DESIGN CHOICE for the order within a cycle, log 5). -/
def State.events (s : State) : List Event :=
  let busy := (List.range s.arrays.length).filter (fun n => (s.arr n).works)
  busy.flatMap (fun n => (s.arr n).ops.flatMap (fun o => o.events n)) ++ busy.flatMap arrayEvents ++
    (if s.mask.running.isSome then [.maskOpComplete] else []) ++ (if s.mask.queue.isEmpty then [] else [.maskEngineStart]) ++
    ((List.range s.wct.length).filter (fun c => (s.counter c).works)).map .workCounterRequest ++
    ((List.range s.dill.length).filter (fun e => (s.dill.getD e none).isSome)).map .digestWritten ++
    (if s.dillQ.isEmpty then [] else [.dillEngineStart]) ++
    (s.ring.ctxs.filter (fun c => c.2.recvs.any (fun r => !r.early.isEmpty))).map (fun c => .addingUnitApply c.1) ++
    (if s.boundaryDue then [.moduleStepBoundary] else [])

/-- The state after the first event that is due: one that changes something. -/
def State.dueEvent (s : State) : Option State :=
  s.events.findSome? (fun e => if e.run s = s then none else some (e.run s))

/-- All that is due in the present cycle takes place; `fuel` bounds the number of events. -/
def State.settleEvents : Nat → State → State
  | 0, s => s
  | fuel + 1, s => match s.dueEvent with
    | some t => State.settleEvents fuel t
    | none => s

/-- More events than one cycle of the module can bring. -/
def eventBound : Nat := 65536

/-- Whether no cycle can bring an event: no unit has work and no message is outstanding. -/
def State.atRest (s : State) : Bool := s.events.isEmpty && s.nothingInFlight

/-- `n` core cycles of a period: in each, all that is due takes place and the ports are arbitrated (R72, R368). A module at rest only lets them pass. -/
def State.runCycles : Nat → State → State
  | 0, s => s
  | n + 1, s => if s.atRest then s.elapse (n + 1) else State.runCycles n (s.settleEvents eventBound).oneCycle

/-! ### PERIOD_BOUNDARY (R234, R243 to R248) -/

/-- The state at the end of the running period. -/
def State.periodEnd (s : State) : State := s.runCycles (256 - s.thy.cyc)

/-- PERIOD_BOUNDARY: the rest of the period's cycles pass, with all that falls due in them, and the next period begins; there are no periods before boot has ended (R234, R244, R245, R368, R427). -/
def execPeriodBoundary (s : State) : Host.Outcome State Fault Refusal :=
  if !s.host.bootDone then .next s
  else
  let s := (s.periodEnd.flushEntries).applyCal periodCal
  let asked := s.flt.stopAsked
  let before := s.tick
  let s := s.advancePeriod
  let s := (s.countLate (s.tick != before)).behindTest
  .next ((s.recordOverflows.stopDue asked).phaseDuties)

/-! ### An empty queue -/

/-- One step of an empty queue: the first event that is due takes place; with none due one core cycle passes (R368; log 5). -/
def State.idle (s : State) : State := s.dueEvent.getD s.idleCycle

end Sys2Proof.Machine
end

