-- ==== Sys2Proof/Machine/Link.lean ====
section
/-! DEFINITION. Ports and hops: acknowledgement, replay, credit, lanes, training, breaks, the loss of the mirror port, and the ends of JOIN_RING and PAIR that wait for training (R313, R315, R316, R319, R320, R333 to R337, R342, R353, R356, R396). -/

namespace Sys2Proof.Machine

/-! ### Replay (R320) -/

/-- Sends every unacknowledged frame again. -/
def Port.resend (q : Port) : Port :=
  { q with wire := q.wire ++ q.replay.zipIdx.map (fun (f, i) => ⟨(q.ackedTo + i) % 65536, q.rxSeq, f⟩) }

/-- A replay; after eight of them the port trains its lanes again. -/
def State.replayPort (s : State) (p : Nat) : State :=
  let s := (s.bump (portReg p Reg.RNG_P_REPLAY) 1).modPort p (fun q => { q.resend with replays := q.replays + 1 })
  if 8 ≤ (s.port p).replays then (s.modPort p (fun q => { q with replays := 0 })).trainPort p else s

/-- LINK_FRAME: an acknowledgement frees replay entries; a negative one replays the rest (R320). It is a frame of another module (R241). -/
def execLinkFrame (f : Frame) (s : State) : Host.Outcome State Fault Refusal :=
  if 5 ≤ f.port || (s.port f.port).st != .up then .next s
  else if !f.crcOk then .next ((s.bump (portReg f.port Reg.RNG_P_CRC) 1).sendAck f.port true)
  else
    let s := (s.hears f).modPort f.port (fun q => (q.acked f.ackSeq).pumped)
    .next (if f.aux.getLsbD 0 then s.replayPort f.port else s)

/-- CREDIT_FRAME: buffer credit for a class and channel, laid out as `giveCredit` sends it; what waits for it is sent (R319). It is a frame of another module (R241). -/
def execCreditFrame (f : Frame) (s : State) : Host.Outcome State Fault Refusal :=
  if 5 ≤ f.port || (s.port f.port).st != .up then .next s
  else if !f.crcOk then .next ((s.bump (portReg f.port Reg.RNG_P_CRC) 1).sendAck f.port true)
  else .next ((s.hears f).modPort f.port (fun q =>
    ({ q with credits := q.credits.modify (f.aux.toNat % 8) (· + f.aux.toNat / 65536) } : Port).pumped))

/-- FRAME_FORWARD: a frame for another module goes on, or is discarded; the mirror port carries no routed traffic, and of its frames only those of a reserved type end here (R312, R313, R318). -/
def execFrameForward (typ : Nat) (f : Frame) (s : State) : Host.Outcome State Fault Refusal :=
  if 5 ≤ f.port || (typ < 13 && (f.port == 4 || f.dst == s.ring.addr)) then .next s
  else .next (s.linkIn typ f (fun s => s.forwardOn typ f))

/-- ACK_TIMER: frames received are acknowledged at least every 200 ns (R320). -/
def execAckTimer (port : Nat) (s : State) : Host.Outcome State Fault Refusal :=
  let q := s.port port
  if 5 ≤ port || q.st != .up || q.rxSinceAck == 0 then .next s else .next (s.sendAck port false)

/-- REPLAY_TIMEOUT: no acknowledgement for 2 µs (R320). -/
def execReplayTimeout (port : Nat) (s : State) : Host.Outcome State Fault Refusal :=
  let q := s.port port
  if 5 ≤ port || q.st != .up || q.replay.isEmpty then .next s else .next (s.replayPort port)

/-! ### Breaks and losses (R316, R336, R337, R356) -/

/-- RING_BREAK on a port: fault, report with the lower-addressed end as its subject, and the hop is avoided (R336, R337). -/
def State.ringBreak (s : State) (p : Nat) : State :=
  let lower := min s.ring.addr (s.farEnd p)
  let s := s.modPort p (fun q => { q with heldDown := true, outQ := [] })
  let s := s.recordFault { FaultRec.of 0x70 0x0B with subject := lower, aux := p }
  let s := if s.host.st == .running then { s with flt := { s.flt with beaconSent := true } } else s
  s.report lower 0x70

/-- The mirror port has failed with no loopback: twin 1 fences itself, twin 0 is the survivor (R356). -/
def State.mirrorFailed (s : State) : State :=
  if !s.mir.paired || s.mir.survivor || s.mir.fenced then s
  else if s.mir.twinNo == 1 then s.fence
  else (s.report s.mir.twin 0x71).twinLost

/-- A port has too few good lanes (R316). -/
def State.failPort (s : State) (p : Nat) : State :=
  let s := s.modPort p (fun q => { q with st := .failed })
  if p == 4 then s.mirrorFailed else s.ringBreak p

/-- Lanes of a port and lanes it needs (R314, R316). -/
def laneCount (p : Nat) : Nat × Nat := if p == 4 then (9, 8) else (18, 16)

/-- A lane leaves use: the lowest spare takes its place and the hop trains again, or the port fails (R315, R316). -/
def State.loseLane (s : State) (port lane : Nat) : State :=
  let (total, need) := laneCount port
  let q := s.port port
  let bad := q.bad ||| 2 ^ lane
  let s := s.modPort port (fun q => { q with bad := bad })
  let good := ((List.range total).filter (fun i => !bad.testBit i)).length
  if good < need then s.failPort port
  else if !q.lanes.testBit lane then s
  else match (List.range total).find? (fun i => !bad.testBit i && !q.lanes.testBit i) with
    | some i =>
      ((s.bump (portReg port Reg.RNG_P_SWAPS) 1).modPort port (fun q => { q with lanes := (q.lanes ^^^ 2 ^ lane) ||| 2 ^ i })).trainPort port
    | none => s.failPort port

/-- LANE_FAILURE: what a lane shows within 2²⁰ codewords is counted; it leaves use when it has lost lock or shows more than 16 uncorrectable codewords (R315). -/
def execLaneFailure (port lane : Nat) (lockLost : Bool) (corrected uncorrectable : Nat) (s : State) : Host.Outcome State Fault Refusal :=
  let (total, _) := laneCount port
  let q := s.port port
  if 5 ≤ port || total ≤ lane || (q.st != .up && q.st != .training) || q.bad.testBit lane then .next s
  else
    let s := (s.bump64 (portReg port Reg.RNG_P_FEC_CE) corrected).bump (portReg port Reg.RNG_P_FEC_UE) uncorrectable
    .next (if lockLost || 16 < uncorrectable then s.loseLane port lane else s)

/-- LIGHT_LOSS: the hop loses light and trains again (R336). -/
def execLightLoss (port : Nat) (s : State) : Host.Outcome State Fault Refusal :=
  let q := s.port port
  if 5 ≤ port || (q.st != .up && q.st != .training) then .next s
  else .next ((s.modPort port (fun q => { q with dark := true })).trainPort port)

/-- BREAK_TIMEOUT: a ring hop is not up 200 ms after it lost light (R336). -/
def execBreakTimeout (port : Nat) (s : State) : Host.Outcome State Fault Refusal :=
  let q := s.port port
  if 4 ≤ port || !q.dark || q.st == .up || q.heldDown then .next s else .next (s.ringBreak port)

/-! ### JOIN_RING and PAIR end when their ports are up (R342, R396) -/

/-- A delay in ns as periods of 256 cycles at r = 64, rounded up: a period lasts 2,560/21 ns (R234, R236). -/
def nsPeriods (ns : Nat) : Nat := cdiv (ns * 21) 2560

/-- Every ring port is up: the ring is joined and λ follows from the measured delays: the largest to or from the master is at least that of a hop of this module, and otherwise free (R246, log 36); JOIN_RING ends with the phase frame that brings the ring's phase (R235, R396). -/
def State.finishJoin (s : State) : State :=
  if s.pendingIs 0x40 && !s.thy.adopt && [0, 1, 2, 3].all (fun p => (s.port p).st == .up) then
    let own := ([0, 1, 2, 3].map (fun p => nsPeriods (s.port p).delay)).foldl max 0
    let lam := min 255 (max 4 (max own (s.freeWord.toNat % 256) + 2))
    let s := (s.used 1).modThy (fun t => { t with lead := lam, adopt := true })
    { s with ring := { s.ring with joined := true, gone := [] } }
  else s

/-- The highest FREE context entry (R328). -/
def State.highestFree (s : State) : Option Nat := ((List.range 8192).reverse).find? (fun i => (s.ctxE? i).isNone)

/-- No FREE entry is left for a service of Sage (R328). -/
def State.exhausted (s : State) : State := s.setBits Reg.RNG_STATUS 0x20

/-- The refill of a new twin begins: a SERVICE entry opens, at both ends the same, and the copy starts at the lowest address (R328, R358). -/
def State.beginRefill (s : State) (twin i : Nat) : State :=
  let c : CtxEntry := ⟨.service, twin, i, 4, false, [], [], [], s.period, s.period, false⟩
  let s := (s.addCtxE i c).toPartner i c 4 4 0 0 0 []
  let s := { s with mir := { s.mir with service := some i } }
  s.refillTo (s.refillNext 0)

/-- The pair is formed (R342). -/
def State.formPair (s : State) (twin : Nat) : State :=
  let s := { s with mir := { s.mir with
    paired := true, fenced := false, twin := twin, twinNo := if s.ring.addr < twin then 0 else 1, refillDone := false, entryStep := none } }
  s.finalReply Status.done 0 0 []

/-- The mirror port is up and names the twin: the pair is formed when the twin's program digest is this one's, which no command carries: a free value (log 37). A survivor then copies its far tier, or is refused with STREAM_CONTEXT_EXHAUSTED where no entry is free for that service (R328, R342, R358). -/
def State.finishPair (s : State) (twin : Nat) : State :=
  let refused := fun (s : State) (code : Nat) => (s.setBays s.ring.bayX s.ring.bayY false).finalReply Status.refused code 0 []
  if !s.pendingIs 0x41 then s
  else if s.freeWord.getLsbD 0 then refused (s.used 1) 0x05
  else
    let s := s.used 1
    if !s.mir.survivor then s.formPair twin
    else match s.highestFree with
      | none => refused s.exhausted 0x72
      | some i => (s.formPair twin).beginRefill twin i

/-- PORT_TRAIN_TIMEOUT: a port has not trained within 1 s: JOIN_RING is refused with RING_BREAK, PAIR with TWIN_LOST, and the Bays return to THROUGH (R342, R396). -/
def execPortTrainTimeout (port : Nat) (s : State) : Host.Outcome State Fault Refusal :=
  if 5 ≤ port || (s.port port).st == .up then .next s
  else if port < 4 && s.pendingIs 0x40 then
    let old := (s.host.pendingCmd.map (·.arg)).getD 0
    let s := (s.setBays false false s.ring.bayM).finalReply Status.refused 0x70 0 []
    .next { s with ring := { s.ring with addr := old / 65536, xn := old / 256 % 256, yn := old % 256 }, thy := { s.thy with adopt := false } }
  else if port == 4 && s.pendingIs 0x41 then
    .next ((s.setBays s.ring.bayX s.ring.bayY false).finalReply Status.refused 0x81 0 [])
  else .next s

/-! ### TRAIN frames (R315, R333, R336, R337, R353) -/

/-- Distance from this module to an address along the direction of a ring port; the whole ring for its own address. -/
def State.along (s : State) (p far : Nat) : Nat :=
  let d := fun (a b n : Nat) => let k := (b + n - a) % n; if k == 0 then n else k
  let x := s.ring.addr / 256
  let y := s.ring.addr % 256
  match p with
  | 0 => d x (far / 256) s.ring.xn
  | 1 => d (far / 256) x s.ring.xn
  | 2 => d y (far % 256) s.ring.yn
  | _ => d (far % 256) y s.ring.yn

/-- The port comes up: the same far end goes on where it was and what is unacknowledged is replayed, another one begins afresh; buffer credit is granted (R315, R319, R320). The link delay is measured: a free value (log 36). A member looks for its parent port again (R239). The module at the far end is there (R313). -/
def State.portUp (s : State) (p far spanned lanes : Nat) : State :=
  let s := s.isBack far
  let delay := s.freeWord.toNat
  let old := s.port p
  let same := old.seen && old.far == far
  let s := (s.used 1).modPort p (fun q =>
    let q := { q with st := .up, far := far, spanned := spanned, lanes := lanes, delay := delay, dark := false, heldDown := false, seen := true }
    if same then q.resend
    else { q with replay := [], sendSeq := 0, ackedTo := 0, rxSeq := 0, rxSinceAck := 0, replays := 0, credits := List.replicate 8 0 })
  let s := if same then s.bump (portReg p Reg.RNG_P_REPLAY) (bnat !old.replay.isEmpty)
    else [0, 1, 2, 3].foldl (fun (s : State) c => [0, 1].foldl (fun (s : State) v => s.giveCredit p c v 64) s) s
  (s.modPort p Port.pumped).reparent

/-- A ring hop has trained: held down when it spans three or more positions; a position that was active and is now skipped is reported lost (R336, R337). -/
def State.ringTrained (s : State) (p far lanes : Nat) : State :=
  let q := s.port p
  let d := s.along p far
  let skipped := fun (s : State) => if q.seen && s.along p q.far < d then s.report q.far 0x71 else s
  if 3 ≤ d - 1 then
    if q.heldDown then s else skipped ((s.modPort p (fun q => { q with far := far, spanned := d - 1, seen := true })).ringBreak p)
  else (skipped (s.portUp p far (d - 1) lanes)).finishJoin

/-- The mirror port has trained: its own address is the loopback of a fired M Bay (R333, R353). -/
def State.mirrorTrained (s : State) (far lanes : Nat) : State :=
  if far == s.ring.addr then
    if s.mir.paired && !s.mir.survivor then (s.report s.mir.twin 0x71).twinLost else s
  else
    let want := if s.pendingIs 0x41 then (s.host.pendingCmd.map (·.arg)).getD 0 else s.mir.twin
    if far != want then s else (s.portUp 4 far 0 lanes).finishPair far

/-- TRAIN_FRAME: a port in training learns its far end, answers with its own address and lanes, and comes up on its good lanes (R315). -/
def execTrainFrame (port farAddr : Nat) (lanes : BitVec 18) (s : State) : Host.Outcome State Fault Refusal :=
  let (total, need) := laneCount port
  let q := s.port port
  if 5 ≤ port || q.st != .training then .next s
  else
    let ok := (List.range total).filter (fun i => lanes.getLsbD i && !q.bad.testBit i)
    if ok.length < need then .next s
    else
      let use := (ok.take need).foldl (fun (m i : Nat) => m ||| 2 ^ i) 0
      let s := s.trainPort port
      .next (if port == 4 then s.mirrorTrained farAddr use else s.ringTrained port farAddr use)

end Sys2Proof.Machine
end

