-- ==== Sys2Proof/Machine/Hardware.lean ====
section
/-! DEFINITION. Power, cooling, self-test, module reset and boot (R13 to R17, R221, R252, R446 to R452, R467, R471 to R477). -/

namespace Sys2Proof.Machine

/-! ### Module reset (R446, R447) -/

/-- A module reset: OTP, firmware store and host memory persist, and the oscillator's warmth where power stayed on, with which its election priority counts (R452). The command queue and the free-value counter are the model's own. -/
def State.moduleReset (s : State) (warm : Bool) (pwr : Power) : State :=
  let r := State.resetOf s.dev s.pending
  let t := { r with hostMem := s.hostMem, freeCtr := s.freeCtr, pwr := pwr, host := { r.host with oscStable := warm && s.host.oscStable } }
  { t with thy := { t.thy with masterPrio := t.prio } }

/-- The power stage trips: every rail is off and the Bays fire (R477). -/
def State.trip (s : State) (reason : Nat) : State := s.moduleReset false { Power.reset with tripped := true, trip := reason }

/-- JUNCTION_OVERTEMP (R477). -/
def execJunctionOvertemp (s : State) : Host.Outcome State Fault Refusal := .next (if s.powered then s.trip 1 else s)

/-- RAIL_FAULT (R475, R477). -/
def execRailFault (s : State) : Host.Outcome State Fault Refusal := .next (if s.powered then s.trip 3 else s)

/-- LEAK_DETECTED (R477). -/
def execLeakDetected (s : State) : Host.Outcome State Fault Refusal := .next (if s.powered then s.trip 4 else s)

/-- INPUT_OUT_OF_RANGE: the Bays fire and the module resets, with which its boot begins; a trip and its reason stay (R446, R474, R477). -/
def execInputOutOfRange (s : State) : Host.Outcome State Fault Refusal :=
  .next (if s.pwr.on then s.moduleReset false { Power.reset with tripped := s.pwr.tripped, trip := s.pwr.trip } else s)

/-- BODY_WITHDRAWN: the Bays fire before any fibre separates, and the body is off (R471, R473). -/
def execBodyWithdrawn (s : State) : Host.Outcome State Fault Refusal := .next (s.moduleReset false { Power.reset with on := false })

/-- POWER_ON: a module reset; the trip reason begins at none (R446, R482). -/
def execPowerOn (s : State) : Host.Outcome State Fault Refusal := .next (s.moduleReset false Power.reset)

/-- RST_N_PULSE: a module reset; after a trip, a power-on boot (R446, R471, R477). -/
def execRstNPulse (s : State) : Host.Outcome State Fault Refusal :=
  .next (if s.pwr.on then s.moduleReset (!s.pwr.tripped) { Power.reset with trip := s.pwr.trip } else s)

/-! ### Self-test and spare positions (R13 to R17) -/

/-- A position is marked failed. -/
def State.markFailed (s : State) (p : Nat) : State :=
  { s with host := { s.host with posFailed := if s.host.posFailed.contains p then s.host.posFailed else s.host.posFailed ++ [p] } }

/-- Whether a step is under way, inside which no substitution takes effect (R16): RUNNING, or STOPPED until RESUME, UNLOAD or CLOSE. -/
def State.insideStep (s : State) : Bool := s.host.st == .running || s.host.st == .stopped

/-- The logical array of a failed position awaits a spare. Inside a step it does so until the step boundary; there and in HELD the module must be reloaded before it goes on, because what the array held cannot be trusted; with more arrays waiting than spares, none remains (R16, R17). -/
def State.awaitSpare (s : State) (n p : Nat) : State :=
  let s := { s with host := { s.host with substWaiting := s.host.substWaiting ++ [(n, p)] } }
  if s.insideStep then
    { s with host := { s.host with reload := true, noSpare := s.host.noSpare || s.sparePositions.length < s.host.substWaiting.length } }
  else State.settleSubst { s with host := { s.host with reload := s.host.reload || s.host.st == .held } }

/-- A position fails its self-test: it is marked failed; for an active array the fault is recorded and its number awaits a spare; the last spare leaves none (R16, R435). -/
def State.positionFails (s : State) (p : Nat) : State :=
  let e := s.mapEntry p
  if e < 64 then ((s.raise { FaultRec.of 0x52 1 with arr := e, aux := p }).markFailed p).awaitSpare e p
  else if e == 0xFE then
    let s := s.markFailed p
    if s.sparePositions.isEmpty then s.event 0xA2 0 else s
  else s

/-- A mark that tells the twin that this module has passed the self-test of a second divergence (R357, log 93). -/
def State.sendPass (s : State) : State :=
  s.sendFrame 4 (ctlFrame 0 s.mir.twin s.ring.addr forwardCtx 0 (BitVec.ofNat 32 s.stp.step) 0 (BitVec.ofNat 32 (2 ^ 27)))

/-- The self-test of a second divergence has ended: a twin that fails fences itself; when both have passed, the domain is held (R357). -/
def State.endDivergenceTest (s : State) (passed : Bool) : State :=
  let s := { s with mir := { s.mir with testing := false } }
  let ok := passed && s.journalRanges.all (fun r => (s.eccBad r.1 r.2).isNone)
  if !ok then (s.setReg Reg.MIR_SELFTEST 0x100#32).fence
  else
    let s := s.setReg Reg.MIR_SELFTEST 0x101#32
    if s.mir.survivor then s else ({ s with mir := { s.mir with passOwn := true } }).sendPass.settlePasses

/-- SELFTEST_COMPLETE: the self-test of a physical position ends (R16). -/
def execSelftestComplete (pos : Nat) (passed : Bool) (s : State) : Host.Outcome State Fault Refusal :=
  if !s.host.posTesting.contains pos then .next s
  else
    let s := { s with host := { s.host with posTesting := s.host.posTesting.erase pos } }
    if passed then
      .next (if s.mir.testing && s.host.posTesting.isEmpty then s.endDivergenceTest true else s)
    else
      let s := s.positionFails pos
      .next (if s.mir.testing then s.endDivergenceTest false else s)

/-! ### Boot (R448 to R452) -/

/-- Whether a firmware slot passes R453, R454 and R450. -/
def Device.slotOk (d : Device) (f : FwSlot) : Bool :=
  f.present && f.verified && d.svnFuses ≤ f.svn &&
    ((d.fwKeys.zip d.fwRevoked).any (fun k => k.1 == some f.keyHash && !k.2))

/-- Slot A or B of the firmware store. -/
def Device.slot (d : Device) (b : Bool) : FwSlot := if b then d.slotB else d.slotA

/-- Overlays that lie outside their range (R467). -/
def Device.outOfRange (d : Device) (us : List (Nat × Int)) : Nat :=
  (us.filter (fun (u : Nat × Int) => match d.cal? u.1 with
    | some c => u.2 < c.lo || c.hi < u.2
    | none => u.2 != 0)).length

/-- Overlays take effect; those outside their range are counted (R467, R468). -/
def State.setOverlays (s : State) (us : List (Nat × Int)) : State :=
  let changed := us.filter (fun u => !s.regs.overlays.contains u)
  let n := s.dev.outOfRange changed
  let s := { s with regs := { s.regs with overlays := us, overlayShadows := us } }
  if n = 0 then s else (s.bump Reg.CAL_CLAMPED n).setBits Reg.SEC_STATUS 8

/-- Channel map built from the grade and the OTP records; spares_exhausted where both spares are in use (R221, R222). -/
def State.bootChannels (s : State) : State :=
  let t := { s with tiers := { s.tiers with
      chmap := s.dev.pkgSubst.foldl (fun (m : List Nat) (r : Nat × Nat) => m.set r.1 r.2) (chmapReset s.dev.grade)
      usedSpares := s.dev.pkgSubst.map Prod.snd } }
  if t.spares.isEmpty then t.setBits Reg.TIR_STATUS 0x10 else t

/-- Stages 0x03 to 0x0F, which end within the command that boots (DESIGN CHOICE, log 109): overlays, the calibration in force (R466), far tier and slices filled with zero, self-test, and UNOPENED. -/
def State.bootFirmware (s : State) (slotB : Bool) (failed : List Nat) : State :=
  let s := { s with mem := [], host := { s.host with runB := slotB, bootDone := true, stage := 0x0F, st := .unopened } }
  let s := (s.setOverlays s.dev.savedOverlays).bootChannels
  let s := s.applyCal (fun _ => true)
  let s := if slotB == s.dev.activeB then s else s.setBits Reg.SEC_STATUS 0x10
  let order := (sortBy (fun (x y : Nat) => s.mapEntry x ≤ s.mapEntry y) failed).eraseDups
  let s := (order.filter (fun p => s.mapEntry p == 0xFE)).foldl (fun (s : State) p => s.positionFails p) s
  (order.filter (fun p => s.mapEntry p < 64)).foldl (fun (s : State) p => s.positionFails p) s

/-- OSC_STABLE: the oscillator has reached its stability, and THY_PRIO counts (R238, R452). -/
def execOscStable (s : State) : Host.Outcome State Fault Refusal :=
  if !s.powered then .next s
  else .next (({ s with host := { s.host with oscStable := true } }).prioRises s.prio)

/-! ### The controllers (R249, R476, R477) -/

/-- PWR_LIMIT as it takes effect: 1,000 W to the grade's maximum. -/
def State.powerLimit (s : State) : Nat := min s.dev.grade.maxWatts (max 1000 (s.regN Reg.PWR_LIMIT % 65536))

/-- PWR_TJ_THROTTLE as it takes effect: 60 °C to 100 °C, in 1/16 °C. -/
def State.throttlePoint (s : State) : Int := min 1600 (max 960 (s.regN Reg.PWR_TJ_THROTTLE % 65536))

/-- The hottest effective value of the thermal sensors, `raw` being what they read (R466, R467, R476). -/
def State.hottest (s : State) (raw : List Int) : Int :=
  match raw.zipIdx.map (fun x => x.1 + kvGet 0 s.host.applied (0x1000 + x.2)) with
  | [] => 0
  | t :: rest => rest.foldl max t

/-- The running window of 8,192 periods (R476). -/
def State.ctrlWindow (s : State) : Nat := s.period / 8192

/-- One controller's step: down when over, up when under. -/
def stepRate (r : Nat) (above below : Bool) : Nat := if above then max 32 (r - 1) else if below then min 64 (r + 1) else r

/-- CONTROLLER_WINDOW: once in each window of 8,192 periods both controllers set their rates from mean power and hottest effective sensor (1/16 °C); a trip follows R477. -/
def execControllerWindow (watts : Nat) (temps : List Int) (s : State) : Host.Outcome State Fault Refusal :=
  if !s.powered || !s.host.bootDone || s.ctrlWindow == s.pwr.windowAt then .next s
  else
    let lim := s.powerLimit
    let thr := s.throttlePoint
    let temp := s.hottest temps
    let slow := s.thy.powerRate < 64 || s.thy.thermalRate < 64
    let floor := s.thy.rate == 32
    let hot := if floor && 11 * s.dev.grade.maxWatts < 10 * watts then s.pwr.overWindows + 1 else 0
    let s := (s.bump Reg.PWR_THROTTLED (bnat slow)).setReg Reg.PWR_INPUT ((s.reg Reg.PWR_INPUT &&& 0xFFFF0000#32) ||| BitVec.ofNat 32 (watts % 65536))
    let s := { s with pwr := { s.pwr with
      watts := watts, temp := temp, overWindows := hot, overLimit := lim < watts, thermalHigh := thr < temp, windowAt := s.ctrlWindow } }
    let s := if floor && lim < watts then s.setBits Reg.PWR_STATUS 4 else s
    if 1760 ≤ temp then .next (s.trip 1)
    else if 8 ≤ hot then .next (s.trip 2)
    else .next (s.withRate (fun s => s.modThy (fun t => { t with
      powerRate := stepRate t.powerRate (lim < watts) (100 * watts < 95 * lim)
      thermalRate := stepRate t.thermalRate (thr < temp) (temp < thr - 80) })))

end Sys2Proof.Machine
end

