-- ==== Sys2Proof/Machine/Readout.lean ====
section
/-! DEFINITION. What a read of a BAR0 register returns: stored values, and the fields that units compute (R14, R402 to R408, R416, R419 to R425 and the register tables of the other chapters). -/

namespace Sys2Proof.Machine

/-- A row of a read table: offset and value. -/
def tableAt (t : List (Nat × Nat)) (off : Nat) : Option Nat := (t.find? (fun e => e.1 == off)).map Prod.snd

/-- The part of a requester. -/
def State.requester (s : State) : Requester → ReqState
  | .host => s.regs.host
  | .sage => s.regs.sage

/-- Changes the part of a requester. -/
def State.modRequester (s : State) (q : Requester) (g : ReqState → ReqState) : State :=
  match q with
  | .host => { s with regs := { s.regs with host := g s.regs.host } }
  | .sage => { s with regs := { s.regs with sage := g s.regs.sage } }

/-- A requester's selector (R403). -/
def State.sel (s : State) (q : Requester) (off : Nat) : Nat := (kvGet 0#32 (s.requester q).sels off).toNat

/-- Low and high word of a 64-bit value. -/
def lo32 (v : Nat) : Nat := v % 2 ^ 32

/-- High word. -/
def hi32 (v : Nat) : Nat := v / 2 ^ 32 % 2 ^ 32

/-- The two words of an SL pair. -/
def pairAt (off v : Nat) : List (Nat × Nat) := [(off, lo32 v), (off + 4, hi32 v)]

/-- A signed 16-bit field. -/
def s16 (v : Int) : Nat := (v % 65536).toNat

/-! ### Configuration CRC (R416) -/

/-- Whether a row belongs to the configuration set: RW, WG or a writable SL pair, with R416's exceptions. -/
def RegRow.isConfig (r : RegRow) : Bool :=
  (r.acc == .rw || r.acc == .wg || r.acc == .slw || r.acc == .slwHi) &&
    !([Reg.GLB_CRC_CTRL, Reg.GLB_CFG_CRC_REF, Reg.UPD_TCOUNT, Reg.THY_SNAP_CTRL, Reg.THY_TOD_CTRL].contains r.off)

/-- The configuration set: offset and mask of its bits, in ascending offset. -/
def configSet : List (Nat × Nat) :=
  let rows := fun (base : Nat) (l : List RegRow) => (l.filter RegRow.isConfig).map (fun r => (base + r.off, r.wmask))
  let glob := rows 0 regsGlobal
  glob.filter (fun e => e.1 < 0x600) ++ (List.range 16).flatMap (fun c => rows (wctBase c) regsCounter) ++ glob.filter (fun e => 0x800 ≤ e.1) ++
    (List.range 68).flatMap (fun p => rows (arrBase p) regsArray) ++ rows 0 regsDma ++ rows 0 regsTiers ++ rows 0 regsThyme ++
    rows 0 regsRing ++ (List.range 5).flatMap (fun p => rows (portBase p) regsPort) ++ rows 0 regsMirror ++ rows 0 regsMask ++ rows 0 regsSec ++ rows 0 regsFault

/-- Every calibration id with its committed overlay, 4 bytes each, sign-extended, in ascending id (R468). -/
def State.overlayBytes (s : State) : List Byte :=
  s.dev.calib.flatMap (fun c => leBytes 4 ((kvGet (0 : Int) s.regs.overlays c.id) % 2 ^ 32).toNat)

/-- GLB_CFG_CRC: CRC-32C over the committed values of the set. -/
def State.cfgCrc (s : State) : W32 :=
  crc32c (configSet.flatMap (fun e =>
    if e.1 == Reg.CAL_USER then s.overlayBytes else leBytes 4 ((s.reg e.1 &&& BitVec.ofNat 32 e.2).toNat)))

/-! ### Array blocks -/

/-- State number of a stream in ARR_STRM_STATUS; a running stream whose head instruction is held shows 2. -/
def State.strmCode (s : State) (c : StreamCtx) : Nat :=
  match c.st with
  | .idle => 0
  | .running => if s.host.st == .held || c.head.any (fun x => x.hold.holds) then 2 else 1
  | .held => 2
  | .ended => 3
  | .faulted => 4

/-- Slots of a stream in use. -/
def ArrayState.slotsUsed (a : ArrayState) (st : Stream) : Nat := (a.ops.filter (fun o => o.stream == st)).length

/-- Three fields of six bits at 16, 8 and 0: U, B, F. -/
def threeFields (f b u : Nat) : Nat := u * 65536 + b * 256 + f

/-- Bit per table slot. -/
def slotBits (ts : List TableSlot) (p : TableSlot → Bool) : Nat :=
  (ts.zipIdx.map (fun (t, i) => if p t then 2 ^ i else 0)).sum

/-- Computed registers of the block of logical array `n`. -/
def State.arrayRows (s : State) (n : Nat) : List (Nat × Nat) :=
  let a := s.arr n
  let isUnrm := fun (o : Op) => match o.body with
    | .unrm _ _ _ _ => true
    | _ => false
  let isUpd := fun (o : Op) => match o.body with
    | .upd _ _ _ _ _ _ _ => true
    | _ => false
  let isVec := fun (o : Op) => match o.body with
    | .vec _ => true
    | _ => false
  let pins := (s.tiers.staged.filter (fun t => t.arr == n && s.pinned.contains t.obj)).map (fun t => t.frames.length)
  let dirty := (s.tiers.staged.filter (fun t => t.arr == n && t.dirty)).map (fun t => t.frames.length)
  [(Reg.ARR_FTQ_STATUS, min 15 a.waiting.length * 65536 + (a.queue.filter (·.fused)).length * 256 + a.queue.length),
   (Reg.ARR_VEC_TBL_VALID, slotBits a.tables (fun t => t.der.isSome) * 65536 + slotBits a.tables (fun t => t.fwd.isSome)),
   (Reg.ARR_VEC_BUSY, (a.ops.filter isVec).length + 256 * bnat (a.pass.any (fun p => !p.isDrain)) + 512 * bnat (a.pass.any (·.isDrain))),
   (Reg.ARR_UPD_STATUS, a.deferred.length * 256 + 4 * bnat a.normFinal + 2 * bnat (a.ops.any isUnrm) + bnat (a.ops.any isUpd)),
   (Reg.ARR_UPD_NORM, a.norm.hi.toNat), (Reg.ARR_UPD_NORM + 4, a.norm.lo.toNat),
   (Reg.ARR_WIN_FRAMES, pins.sum * 65536 + (s.freeFrames n).length), (Reg.ARR_WIN_DIRTY, dirty.sum),
   (Reg.ARR_STRM_STATUS, bnat a.b.recompute.isSome * 2 ^ 24 + threeFields (s.strmCode a.f) (s.strmCode a.b) (s.strmCode a.u)),
   (Reg.ARR_STRM_SLOTS, threeFields (a.slotsUsed .f) (a.slotsUsed .b) (a.slotsUsed .u)),
   (Reg.ARR_STRM_QUOTA, threeFields a.f.slotN a.b.slotN a.u.slotN),
   (Reg.ARR_F_PC, a.f.pc), (Reg.ARR_B_PC, a.b.pc), (Reg.ARR_U_PC, a.u.pc),
   (Reg.ARR_STRM_AHEAD, 4 * bnat a.u.stepbDone + 2 * bnat (a.b.step == s.stp.step + 1) + bnat (a.f.step == s.stp.step + 1))] ++
    pairAt Reg.ARR_F_BASE a.f.base ++ pairAt Reg.ARR_B_BASE a.b.base ++ pairAt Reg.ARR_U_BASE a.u.base

/-- A register of the block of physical position `p`; a fused-off position reads as zero (R14, R424). -/
def State.readArray (s : State) (p rel : Nat) : Nat :=
  let e := s.mapEntry p
  let stored := s.regN (arrBase p + rel)
  if e == 0xFF then 0
  else if rel == Reg.ARR_STATUS then
    e * 2 ^ 24 + 512 * bnat (s.host.posFailed.contains p) + 256 * bnat (s.host.posTesting.contains p) + stored % 256
  else if 64 ≤ e then stored
  else if Reg.ARR_TSW0 ≤ rel && rel < Reg.ARR_TSW0 + 256 then ((s.arr e).tswAt ((rel - Reg.ARR_TSW0) / 4)).toNat
  else (tableAt (s.arrayRows e) rel).getD stored

/-! ### Global block -/

/-- Whether the program has finished: every stream with code has issued END and nothing is in flight (R267). -/
def State.finished (s : State) : Bool :=
  s.stp.started && s.nothingInFlight &&
    (s.arrays.take s.nArrays).all (fun a => allStreams.all (fun t => (a.ctx t).st == .ended || ((a.ctx t).st == .idle && (a.ctx t).codeRegion.isNone)))

/-- Number of a module state (R386). -/
def ModState.code : ModState → Nat
  | .unopened => 0
  | .opened => 1
  | .loaded => 2
  | .ready => 3
  | .running => 4
  | .held => 5
  | .stopped => 6

/-- Stepping byte. -/
def Stepping.code : Stepping → Nat
  | .a1 => 0xA1
  | .b0 => 0xB0

/-- Grade byte. -/
def Grade.code : Grade → Nat
  | .a => 1
  | .b => 2

/-- Interface version 1.0, the only one supported (R391). -/
def ifVersion : Nat := 0x0100

/-- Highest and lowest interface version of the running firmware; the boot ROM's is 1.0. -/
def State.ifRange (s : State) : Nat × Nat :=
  if s.host.recovery then (0x0100, 0x0100)
  else let f := s.dev.slot s.host.runB; (f.ifMax, f.ifMin)

/-- Groups with a commit in progress, one bit each (R410). -/
def groupBits (l : List Nat) : Nat := ((List.range 8).filter (fun g => l.any (fun c => c / 256 == g))).foldl (fun m g => m ||| 2 ^ g) 0

/-- Identity, capability, strobe, CRC and guard registers (R420). GLB_SPARE_MAP reads 0 for a selection of 68 to 127, where no position is (DESIGN CHOICE, log 98). -/
def State.identRows (s : State) (q : Requester) : List (Nat × Nat) :=
  let a := s.dev.grade == .a
  let idle := groupBits s.regs.pendingIdle
  let pair := (s.requester q).pair
  [(Reg.GLB_REV, Stepping.code s.dev.stepping * 256 + Grade.code s.dev.grade),
   (Reg.GLB_IFVER, s.ifRange.1 * 65536 + s.ifRange.2),
   (Reg.GLB_CAP_ARRAYS, 68 * 2 ^ 24 + s.sparePositions.length * 256 + s.dev.grade.arrays),
   (Reg.GLB_CAP_MEM, if a then 0x06003002 else 0x04802402),
   (Reg.GLB_CAP_LIMITS, 0x04000000 + s.dev.grade.maxWatts),
   (Reg.GLB_SPARE_SEL, s.sel q Reg.GLB_SPARE_SEL),
   (Reg.GLB_SPARE_MAP, if s.sel q Reg.GLB_SPARE_SEL < 68 then s.mapEntry (s.sel q Reg.GLB_SPARE_SEL) else 0),
   (Reg.GLB_STROBE, groupBits s.regs.strobes),
   (Reg.GLB_STROBE_STATUS, bnat (idle != 0) * 65536 + idle * 256 + s.regN Reg.GLB_STROBE_STATUS % 2),
   (Reg.GLB_CFG_CRC, s.cfgCrc.toNat),
   (Reg.GLB_CRC_STATUS, s.regN Reg.GLB_CRC_STATUS / 2 % 4 * 2 + s.regN Reg.GLB_CRC_CTRL % 2),
   (Reg.GLB_GUARD_STATUS, 2 * bnat (!s.regs.guardWaiting.isEmpty) + s.regN Reg.GLB_GUARD_STATUS % 2),
   (Reg.GLB_GUARD_OPEN, match pair with
     | some p => 2 ^ 31 + p.offset
     | none => 0)] ++ pairAt Reg.GLB_SERIAL s.dev.serial

/-- HST_LINK: FLIT mode, width and generation of the link (R375). -/
def linkWord (l : LinkTrain) : Nat := bnat l.flit * 2 ^ 16 + l.width * 16 + l.gen

/-- Power, host, update, step, Dill and determinism registers. -/
def State.globalRows (s : State) (q : Requester) : List (Nat × Nat) :=
  let id := s.sel q Reg.DET_LAT_SEL
  let fac := (tableGet (factoryTable s.dev.stepping) id).orElse (fun _ => tableGet depthTable id)
  let decl := s.host.image.bind (fun i => (tableGet i.decl.lat id).orElse (fun _ => tableGet i.decl.depth id))
  [(Reg.PWR_STATUS, s.regN Reg.PWR_STATUS / 4 % 2 * 4 + 2 * bnat s.pwr.overLimit + bnat s.pwr.thermalHigh),
   (Reg.PWR_TJ_MAX, s16 s.pwr.temp), (Reg.PWR_TRIP, s.pwr.trip),
   (Reg.HST_LINK, linkWord s.host.pcie.link), (Reg.HST_STATE, s.host.version * 256 + s.host.st.code),
   (Reg.HST_PENDING, match s.host.pendingCmd with
     | some p => 2 ^ 31 + p.opcode
     | none => 0),
   (Reg.UPD_VERDICT, 4 * bnat s.stp.verdictSat + s.stp.verdict),
   (Reg.STP_STATUS, 4 * bnat s.finished + 2 * bnat (s.arrays.any (fun a => a.u.stepbDone)) + bnat s.stp.started),
   (Reg.DIG_STATUS, (s.dill.zipIdx.map (fun (d, i) => if d.isSome then 256 * 2 ^ i else 0)).sum + s.dillUsed),
   (Reg.DET_STATUS, s.regN Reg.DET_STATUS / 2 % 4 * 2 + bnat s.host.image.isSome),
   (Reg.DET_LAT_SEL, id),
   (Reg.DET_LAT_FACTORY, match fac with
     | some v => 2 ^ 31 + v
     | none => 0),
   (Reg.DET_LAT_DECLARED, decl.getD 0),
   (Reg.DET_DECL_STEPPING, match s.host.image with
     | some i => i.decl.stepping
     | none => 0)] ++
    pairAt Reg.HST_OWNER (s.host.owner.getD 0) ++ pairAt Reg.STP_STEP s.stp.step ++ pairAt Reg.STP_BASE s.stp.base ++
    (match s.host.image with
      | some i => (chunks 8 4 i.digest).zipIdx.map (fun (b, j) => (Reg.DET_PROG_DIGEST0 + 4 * j, leNat b))
      | none => [])

/-- Registers of the work counters (R270). -/
def State.counterRead (s : State) (off : Nat) : Nat :=
  let w := s.wct.getD ((off - 0x600) / 0x20) WorkCounter.reset
  match (off - 0x600) % 0x20 with
  | 0x00 => lo32 w.value
  | 0x04 => hi32 w.value
  | 0x08 => w.e
  | 0x18 => w.table.length
  | _ => s.regN off

/-! ### The other blocks -/

/-- DMA and codec (R425). -/
def State.dmaRows (s : State) (q : Requester) : List (Nat × Nat) :=
  let p := s.sel q Reg.DMA_LANE_SEL
  let queued := fun (a : ArrayState) => a.queueF.length + a.queueB.length + a.queueU.length
  let busy := s.arrays.any (fun a => a.lane.isSome || queued a != 0)
  let e := s.mapEntry p
  [(Reg.DMA_STATUS, s.regN Reg.DMA_STATUS / 2 % 2 * 2 + bnat busy), (Reg.DMA_LANE_SEL, p),
   (Reg.DMA_LANE, if p < 68 && e < 64 then 256 * bnat (s.arr e).lane.isSome + queued (s.arr e) else 0)]

/-- Tiers and placement. -/
def State.tierRows (s : State) (q : Requester) : List (Nat × Nat) :=
  let ch := s.sel q Reg.TIR_PKG_SEL
  [(Reg.TIR_STATUS, s.regN Reg.TIR_STATUS / 2 * 2 + bnat s.tiers.copy.isSome),
   (Reg.TIR_FAR_CFG, s.spares.length * 256 + s.dev.grade.farSlots),
   (Reg.TIR_CHMAP_SEL, s.sel q Reg.TIR_CHMAP_SEL), (Reg.TIR_CHMAP, s.tiers.chmap.getD (s.sel q Reg.TIR_CHMAP_SEL) 0),
   (Reg.TIR_PKG_SEL, ch), (Reg.TIR_PKG_UE, kvGet 0 s.tiers.pkgUe ch),
   (Reg.TIR_REGION_COUNT, s.tiers.regions.length), (Reg.TIR_RECORDS, s.tiers.records.length)] ++
    pairAt Reg.TIR_PKG_CE (kvGet 0 s.tiers.pkgCe ch)

/-- Thyme (R421). -/
def State.thymeRows (s : State) : List (Nat × Nat) :=
  let t := s.thy
  [(Reg.THY_STATUS, s.regN Reg.THY_STATUS / 16 % 4 * 16 + 8 * bnat t.master + 4 * bnat t.frozen + 2 * bnat t.behind + bnat t.holdover),
   (Reg.THY_ROLE, t.masterAddr * 65536 + (if t.master then 1 else if t.backup then 2 else 0)),
   (Reg.THY_LEAD, t.lead), (Reg.THY_RATE, t.target * 65536 + t.rate),
   (Reg.THY_RATE_REQ, 1024 * bnat (t.powerRate < 64 && t.powerRate == s.rateReq) + 512 * bnat (t.thermalRate < 64 && t.thermalRate == s.rateReq) +
     256 * bnat (s.rateCap < 64 && s.rateCap == s.rateReq) + s.rateReq),
   (Reg.THY_PARENT, t.parent), (Reg.THY_TOD_CTRL, bnat t.todPending), (Reg.THY_PTP_STATUS, if s.ptpOn then t.ptp else 0)] ++
    pairAt Reg.THY_TICK t.tick ++ pairAt Reg.THY_PERIOD t.period

/-- State number of a port. -/
def PortState.code : PortState → Nat
  | .down => 0
  | .training => 1
  | .up => 2
  | .failed => 3

/-- State number of a context. -/
def CtxState.code : CtxState → Nat
  | .declared => 1
  | .open_ => 2
  | .lost => 3
  | .service => 4

/-- Ring block. -/
def State.ringRows (s : State) (q : Requester) : List (Nat × Nat) :=
  let g := s.ring
  let count := fun (st : CtxState) => (g.ctxs.filter (fun c => c.2.st == st)).length
  let e := (g.ctxs.find? (fun c => c.1 == s.sel q Reg.RNG_CTX_SEL)).map Prod.snd
  let m := g.merges[s.sel q Reg.RNG_LOSS_SEL]?
  [(Reg.RNG_STATUS, s.regN Reg.RNG_STATUS / 8 * 8 + 4 * bnat s.flt.stopped + 2 * bnat (g.joined && g.bayY) + bnat (g.joined && g.bayX)),
   (Reg.RNG_ADDR, g.addr), (Reg.RNG_SIZE, g.xn * 256 + g.yn),
   (Reg.RNG_BAY_STATE, 4 * bnat g.bayM + 2 * bnat g.bayY + bnat g.bayX),
   (Reg.RNG_CTX_FREE, 8192 - g.ctxs.length), (Reg.RNG_CTX_OPEN, count .open_), (Reg.RNG_CTX_LOST, count .lost),
   (Reg.RNG_CTX_SEL, s.sel q Reg.RNG_CTX_SEL),
   (Reg.RNG_CTX_STATE, match e with
     | some c => c.partner * 65536 + c.st.code
     | none => 0),
   (Reg.RNG_LOSS_SEL, s.sel q Reg.RNG_LOSS_SEL),
   (Reg.RNG_LOSS_SUBJ, match m with
     | some m => m.subject * 65536 + 256 + m.cls
     | none => 0),
   (Reg.RNG_LOSS_COUNT, match m with
     | some m => popcount 4096 m.bitmap
     | none => 0)]

/-- Registers of one port. A hop that spans more than seven positions shows seven, the most its field holds; a port that has no lanes in use shows no spares (DESIGN CHOICE, log 98). -/
def State.portRead (s : State) (p rel : Nat) : Nat :=
  let q := s.port p
  let (total, _) := laneCount p
  match rel with
  | 0x00 => q.far * 65536 + min 7 q.spanned * 256 + q.st.code
  | 0x04 => q.lanes
  | 0x08 => if q.lanes == 0 then 0 else min 3 ((List.range total).filter (fun i => !q.bad.testBit i && !q.lanes.testBit i)).length
  | 0x24 => q.delay
  | 0x28 => s.sendqUsed p
  | _ => s.regN (portReg p rel)

/-- Mirror block. -/
def State.mirrorRows (s : State) : List (Nat × Nat) :=
  let m := s.mir
  let oldest := (m.gens.map (·.step)).foldl (fun (x : Option Nat) y => some (match x with
    | some x => min x y
    | none => y)) none
  [(Reg.MIR_STATUS, s.regN Reg.MIR_STATUS / 16 * 16 + 8 * bnat m.survivor + 4 * bnat m.fenced + 2 * m.twinNo + bnat m.paired),
   (Reg.MIR_TWIN, m.twin), (Reg.MIR_JRN_GENS, m.gens.length)] ++
    pairAt Reg.MIR_JRN_USED s.journalUsed ++ pairAt Reg.MIR_JRN_OLDEST (oldest.getD 0) ++ pairAt Reg.MIR_READY_TICK m.readyTick

/-- Mask engine. -/
def State.maskRows (s : State) (q : Requester) : List (Nat × Nat) :=
  let i := s.sel q Reg.MSK_WT_SEL
  let w := (s.mask.weights.find? (fun w => w.1 == i)).map Prod.snd
  let tag := fun (b : VBuf) => if b.st == .ready then b.tag.toNat else 0
  let users := fun (w : Weight) => (s.arrays.map (fun a => (a.ops.filter (fun o =>
    (w.v0.st == .ready && o.names i w.v0.tag) || (w.v1.st == .ready && o.names i w.v1.tag))).length)).sum
  [(Reg.MSK_STATUS, s.regN Reg.MSK_STATUS / 2 * 2 + bnat s.mask.running.isSome), (Reg.MSK_QUEUE, s.mask.queue.length + bnat s.mask.running.isSome), (Reg.MSK_WT_SEL, i)] ++
  (match w with
    | none => [(Reg.MSK_WT_STATE, 0), (Reg.MSK_WT_GEN, 0), (Reg.MSK_WT_VER0, 0), (Reg.MSK_WT_VER1, 0), (Reg.MSK_WT_VSTATE, 0)]
    | some w => [(Reg.MSK_WT_STATE, 2 ^ 31 + w.st.code), (Reg.MSK_WT_GEN, w.gen), (Reg.MSK_WT_VER0, tag w.v0), (Reg.MSK_WT_VER1, tag w.v1),
        (Reg.MSK_WT_VSTATE, users w % 65536 * 65536 + w.v1.st.code * 4 + w.v0.st.code)])

/-- Bit per slot of a key table: written, or revoked. -/
def keyBits (l : List Bool) : Nat := (l.zipIdx.map (fun (b, i) => if b then 2 ^ i else 0)).sum

/-- Security and calibration. -/
def State.secRows (s : State) (q : Requester) : List (Nat × Nat) :=
  let d := s.dev
  let f := d.slot s.host.runB
  let id := s.sel q Reg.CAL_SEL
  let c := d.cal? id
  let u := kvGet (0 : Int) s.regs.overlays id
  [(Reg.SEC_STATUS, s.regN Reg.SEC_STATUS / 8 * 8 + 4 * bnat s.host.recovery + 2 * bnat s.host.oscStable + bnat s.host.bootDone),
   (Reg.SEC_BOOT_STAGE, s.host.failReason * 256 + s.host.stage),
   (Reg.SEC_FW_SLOT, 2 * bnat s.host.fwPending.isSome + bnat s.host.runB),
   (Reg.SEC_FW_SVN, d.svnFuses * 256 + f.svn % 256),
   (Reg.SEC_KEY_STATE, keyBits d.progRevoked * 4096 + keyBits (d.progKeys.map Option.isSome) * 256 + keyBits d.fwRevoked * 16 + keyBits (d.fwKeys.map Option.isSome)),
   (Reg.SEC_POLICY, 2 * bnat d.requireSignedFuse + bnat s.host.requireSigned),
   (Reg.SEC_CERT_LEN, d.cert.length), (Reg.CAL_SEL, id), (Reg.CAL_COUNT, d.calib.length),
   (Reg.CAL_USER, s16 u)] ++
  (match c with
    | none => [(Reg.CAL_FACTORY, 0), (Reg.CAL_RANGE, 0), (Reg.CAL_EFFECTIVE, 0)]
    | some c => [(Reg.CAL_FACTORY, 2 ^ 31 + s16 c.f), (Reg.CAL_RANGE, s16 c.hi * 65536 + s16 c.lo),
        (Reg.CAL_EFFECTIVE, s16 (s.effective c))]) ++ pairAt Reg.SEC_FW_VERSION (if s.host.recovery then 0 else f.version)

/-- Fault and event block (R422, R431). -/
def State.faultRows (s : State) : List (Nat × Nat) :=
  let f := s.flt
  let ws := match f.first with
    | some r => r.words
    | none => List.replicate 8 0
  [(Reg.FLT_STATUS, bnat f.stopped * 2 ^ 31 + s.regN Reg.FLT_STATUS % 8),
   (Reg.FLT_FIRST, ws.getD 0 0),
   (Reg.FLT_LAST, match f.last with
     | some r => if f.lastValid then r.word0 else r.word0 - 2 ^ 31
     | none => 0),
   (Reg.FLT_MODE, s.host.faultMode), (Reg.FLT_EQ_HEAD, f.head), (Reg.FLT_EQ_TAIL, f.tail), (Reg.FLT_EQ_SIZE, f.eqSize), (Reg.FLT_EQ_SEQ, f.seq)] ++
    pairAt Reg.FLT_FIRST_PERIOD f.firstPeriod ++ ws.zipIdx.map (fun (w, i) => (Reg.FLT_REC0 + 4 * i, w))

/-- Whether a BAR0 offset is a word of the MSI-X table: 64 vectors of 16 bytes (R376, R378). -/
def msixOffset (off : Nat) : Bool := 0x1000000 ≤ off && off < 0x1000400 && off % 4 == 0

/-- A word of the certificate. -/
def certWord (cert : List Byte) (o : Nat) : Nat := leNat ((cert.drop o).take 4)

/-! ### A read -/

/-- Value of a register whose row exists. -/
def State.liveReg (s : State) (q : Requester) (off : Nat) : Nat :=
  let stored := s.regN off
  if off < 0x200 then (tableAt (s.identRows q) off).getD stored
  else if 0x600 ≤ off && off < 0x800 then s.counterRead off
  else if off < 0x100000 then (tableAt (s.globalRows q) off).getD stored
  else if off < 0x540000 then s.readArray ((off - 0x100000) / 0x10000) ((off - 0x100000) % 0x10000)
  else if off < 0x800000 then (tableAt (s.dmaRows q) off).getD stored
  else if off < 0xA00000 then (tableAt (s.tierRows q) off).getD stored
  else if off < 0xB00000 then (tableAt s.thymeRows off).getD stored
  else if 0xB00100 ≤ off && off < 0xB00240 then s.portRead ((off - 0xB00100) / 0x40) ((off - 0xB00100) % 0x40)
  else if off < 0xC00000 then (tableAt (s.ringRows q) off).getD stored
  else if off < 0xD00000 then (tableAt s.mirrorRows off).getD stored
  else if off < 0xE00000 then (tableAt (s.maskRows q) off).getD stored
  else if off < 0xF00000 then (tableAt (s.secRows q) off).getD stored
  else (tableAt s.faultRows off).getD stored

/-- Offset of the value register that a complement address belongs to (R414). -/
def complementOf (off : Nat) : Option Nat :=
  if off < 0x800 then none
  else match regRow (off - 0x800) with
    | some r => if r.acc == .wg && (off - 0x800 < 0x100000 || 0x800000 ≤ off) then some (off - 0x800) else none
    | none => none

/-- The committed value of a guarded register: THY_TOD_CTRL holds 1 until the time of day is set (R252, R414). -/
def State.committed (s : State) (off : Nat) : W32 := if off == Reg.THY_TOD_CTRL then BitVec.ofNat 32 (bnat s.thy.todPending) else s.reg off

/-- A read of BAR0 by a requester: the live value, the latch of an SL high word (R404), the complement of a guarded register (R414), or zero (R402). -/
def State.readReg (s : State) (q : Requester) (off : Nat) : W32 :=
  match regRow off with
  | some r =>
    if r.acc == .slHi || r.acc == .slwHi then kvGet 0#32 (s.requester q).latches off
    else BitVec.ofNat 32 (s.liveReg q off)
  | none =>
    match complementOf off with
    | some o => ~~~(s.committed o)
    | none =>
      if Reg.SEC_CERT ≤ off && off < Reg.SEC_CERT + 0x400 && off % 4 == 0 then BitVec.ofNat 32 (certWord s.dev.cert (off - Reg.SEC_CERT))
      else if msixOffset off then kvGet 0#32 s.host.msixTable off
      else 0#32

end Sys2Proof.Machine
end

