-- ==== Sys2Proof/Machine/Registers.lean ====
section
/-! DEFINITION. Writes to BAR0, strobe commits, guarded pairs, the configuration CRC, BAR4, and the event-rate window (R252, R377, R402 to R418, R436, R439). -/

namespace Sys2Proof.Machine

/-! ### Shadows and conflicts (R408, R411) -/

/-- The module answers register accesses: powered, and past the boot ROM (R449). -/
def State.barUp (s : State) : Bool := s.powered && (s.host.bootDone || s.host.recovery)

/-- Whether a commit of a group is in progress. -/
def State.strobing (s : State) (g : Nat) : Bool := s.regs.strobes.any (fun c => c / 256 == g)

/-- A write to a shadow of a group that is committing is discarded (R411). -/
def State.strobeConflict (s : State) (off : Nat) : State :=
  let s := (s.bump Reg.GLB_STROBE_CONFLICTS 1).setReg Reg.GLB_STROBE_CONFLICT_ADDR (BitVec.ofNat 32 off)
  (s.setBits Reg.GLB_STROBE_STATUS 1).postEvent 0x42 0 s.ring.addr off

/-- Shadow of a register. -/
def State.shadow (s : State) (off : Nat) : W32 := kvGet (s.regDefault off) s.regs.shadows off

/-- A write to a shadow; CAL_USER has one per calibration id (R468). -/
def State.putShadow (s : State) (q : Requester) (off : Nat) (v : W32) : State :=
  if off == Reg.CAL_USER then
    let id := s.sel q Reg.CAL_SEL
    if (s.dev.cal? id).isSome then
      { s with regs := { s.regs with overlayShadows := kvSet 0 s.regs.overlayShadows id (v.truncate 16).toInt } }
    else s
  else { s with regs := { s.regs with shadows := kvSet (s.regDefault off) s.regs.shadows off v } }

/-- Whether a write would set elastic in a WCT_CTRL while strict is set (R371). -/
def State.strictRefuses (s : State) (off : Nat) (v : W32) : Bool :=
  0x600 ≤ off && off < 0x800 && (off - 0x600) % 0x20 == Reg.WCT_CTRL && v.getLsbD 0 && (s.reg Reg.DET_CTRL).getLsbD 0

/-- A write to an RW field or writable SL word. -/
def State.writeShadow (s : State) (q : Requester) (off : Nat) (r : RegRow) (v : W32) : State :=
  if s.strobing r.group then s.strobeConflict off
  else if s.strictRefuses off v then s.bump Reg.DET_STRICT_REFUSED 1
  else s.putShadow q off (v &&& BitVec.ofNat 32 r.wmask)

/-! ### Direct registers (R412, R436) -/

/-- Blocks of a strobe group; groups 1 and 2 have one for each array of the grade (R409). -/
def State.groupBlocks (s : State) (g : Nat) : List Nat := if g == 1 || g == 2 then List.range s.dev.grade.arrays else if g == 7 then [0, 1, 2] else [0]

/-- GLB_STROBE: each named group that is not committing begins to (R410). -/
def State.strobe (s : State) (v : W32) : State :=
  let gs := (List.range 8).filter (fun g => v.getLsbD g && !s.strobing g)
  { s with regs := { s.regs with strobes := s.regs.strobes ++ gs.flatMap (fun g => (s.groupBlocks g).map (fun b => 256 * g + b)) } }

/-- FLT_EQ_TAIL: a value that would pass FLT_EQ_HEAD is discarded (R436); the next signal of each vector is free (R438). -/
def State.setTail (s : State) (v : W32) : State :=
  let n := s.flt.eqSize
  let k := v.toNat
  if s.flt.eqAddr.isNone || n ≤ k || (s.flt.head + n - s.flt.tail) % n < (k + n - s.flt.tail) % n then s
  else { s with flt := { s.flt with tail := k, tail1 := true, tail2 := true } }

/-- A selector of one requester (R403). -/
def State.setSel (s : State) (q : Requester) (off : Nat) (v : W32) : State :=
  s.modRequester q (fun r => { r with sels := kvSet 0 r.sels off v })

/-- A write to a direct register. -/
def State.writeDirect (s : State) (q : Requester) (off : Nat) (r : RegRow) (v : W32) : State :=
  if off == Reg.GLB_STROBE then s.strobe v
  else if off == Reg.FLT_EQ_TAIL then s.setTail v
  else s.setSel q off (v &&& BitVec.ofNat 32 r.wmask)

/-! ### Configuration CRC (R417, R418) -/

/-- An event that recomputes GLB_CFG_CRC also sets stale. -/
def State.crcStale (s : State) : State := s.setBits Reg.GLB_CRC_STATUS 2

/-- A comparison of the reference with GLB_CFG_CRC. -/
def State.crcCompare (s : State) : State :=
  if s.reg Reg.GLB_CFG_CRC_REF == s.cfgCrc then { s with regs := { s.regs with crcBad := false } }
  else (({ s with regs := { s.regs with crcBad := true } }).setBits Reg.GLB_CRC_STATUS 4).raiseCode 0x40 0

/-- Checking is enabled. -/
def State.crcOn (s : State) : Bool := (s.reg Reg.GLB_CRC_CTRL).getLsbD 0

/-- CRC_SCRUB: every 65,536 periods the CRC is recomputed and compared, once (R417). -/
def execCrcScrub (s : State) : Host.Outcome State Fault Refusal :=
  if s.barUp && s.crcOn && !(s.reg Reg.GLB_CRC_STATUS).getLsbD 1 && s.period % 65536 == 0 && s.regs.scrubbed != some s.period then
    let s := { s with regs := { s.regs with scrubbed := some s.period } }
    .next (s.bump Reg.GLB_CRC_SCRUBS 1).crcCompare
  else .next s

/-! ### Guarded pairs (R414, R415) -/

/-- A discarded guarded write. -/
def State.guardErr (s : State) (off : Nat) (half : Bool) : State :=
  let s := (s.bump Reg.GLB_GUARD_ERRS 1).setReg Reg.GLB_GUARD_ADDR (BitVec.ofNat 32 (bnat half * 2 ^ 31 + off))
  (s.setBits Reg.GLB_GUARD_STATUS 1).postEvent 0x41 0 s.ring.addr off

/-- One write of a guarded register: the value opens a pair, the complement completes it and `take` gives it its effect. -/
def State.guarded (s : State) (q : Requester) (off : Nat) (compl : Bool) (v : W32) (take : W32 → State → State) : State :=
  if !s.barUp then s
  else
    let pair := (s.requester q).pair
    if !compl then
      let s := if pair.isSome then s.guardErr off false else s
      s.modRequester q (fun r => { r with pair := some ⟨off, v, s.thy.bus⟩ })
    else
      let closed := s.modRequester q (fun r => { r with pair := none })
      match pair with
      | none => s.guardErr off true
      | some p =>
        if p.offset == off && v == ~~~p.value && s.thy.bus ≤ p.openedAt + 64 then
          let t := take p.value closed
          if off == Reg.GLB_CFG_CRC_REF then t else t.crcStale
        else closed.guardErr off true

/-- Stores a guarded register's value. -/
def State.takeReg (off mask : Nat) (v : W32) (s : State) : State := s.setReg off (v &&& BitVec.ofNat 32 mask)

/-- THY_TOD_CTRL: arms the set time on the master; elsewhere it is ignored and counted (R252). -/
def State.takeTod (v : W32) (s : State) : State :=
  if !s.thy.master then s.bump Reg.THY_TOD_IGNORED 1
  else if v.getLsbD 0 then s.modThy (fun t => { t with todPending := true })
  else s

/-- THY_PRIO: the election priority (R238). -/
def State.takePrio (v : W32) (s : State) : State := (State.takeReg Reg.THY_PRIO 0xFF v s).prioRises s.prio

/-- THY_RATE_CAP: the host's cap; RATE is sent when r_req changes (R249). -/
def State.takeCap (v : W32) (s : State) : State := s.withRate (State.takeReg Reg.THY_RATE_CAP 0x7F v)

/-- TIR_COPY_CTRL: starts the substitution of a channel's package (R219); in recovery no far-tier service exists (R451). -/
def State.takeCopy (v : W32) (s : State) : State :=
  let s := State.takeReg Reg.TIR_COPY_CTRL 0x3F v s
  if v.getLsbD 31 && !s.host.recovery then s.startCopy (v.toNat % 64) else s

/-- RNG_BAY_CTRL: a planned Bay change, refused while a job whose traffic crosses the hops runs (R334); in recovery no port service exists (R451). -/
def State.takeBays (v : W32) (s : State) : State :=
  let busy := s.hopsBusy (v.getLsbD 0) (v.getLsbD 1) (v.getLsbD 2)
  let s := s.used 1
  if busy || s.mir.fenced || s.host.recovery then s
  else (State.takeReg Reg.RNG_BAY_CTRL 7 v s).setBays (v.getLsbD 0) (v.getLsbD 1) (v.getLsbD 2)

/-- MIR_FENCE (R354). -/
def State.takeFence (v : W32) (s : State) : State :=
  let s := State.takeReg Reg.MIR_FENCE 1 v s
  if v.getLsbD 0 then s.fence else s

/-- No program is started (R371). -/
def State.strictIdle (s : State) : Bool := s.host.st == .unopened || s.host.st == .opened || s.host.st == .loaded || s.host.st == .ready

/-- An elastic counter or an any-order context is in use. -/
def State.choiceInUse (s : State) : Bool :=
  (List.range 16).any (fun c => s.elastic c) || s.ring.ctxs.any (fun c => c.2.anyOrder)

/-- DET_CTRL: strict, an idle-only value; it replaces one that still waits (R371, R415). -/
def State.takeStrict (v : W32) (s : State) : State :=
  let others := s.regs.guardWaiting.filter (fun (w : Nat × W32) => w.1 != Reg.DET_CTRL)
  if v.getLsbD 0 && s.choiceInUse then s.bump Reg.DET_STRICT_REFUSED 1
  else if s.strictIdle then State.takeReg Reg.DET_CTRL 1 v { s with regs := { s.regs with guardWaiting := others } }
  else { s with regs := { s.regs with guardWaiting := (Reg.DET_CTRL, v &&& 1#32) :: others } }

/-- GLB_CFG_CRC_REF: the reference; where checking is on, stale clears and the comparison is made at once (R417). -/
def State.takeRef (v : W32) (s : State) : State :=
  let s := s.setReg Reg.GLB_CFG_CRC_REF v
  if s.crcOn then (s.setReg Reg.GLB_CRC_STATUS (s.reg Reg.GLB_CRC_STATUS &&& 4#32)).crcCompare else s.crcStale

/-- Whether the revocation of slots is allowed (R455). -/
def State.mayRevoke (s : State) (v : W32) : Bool :=
  let f := s.dev.slot s.host.runB
  let left := (s.dev.fwKeys.zip s.dev.fwRevoked).zipIdx.filter (fun (k, i) => k.1.isSome && !k.2 && !v.getLsbD i)
  (s.host.st == .opened || s.host.st == .ready) && !left.isEmpty &&
    (s.dev.fwKeys.zipIdx.all (fun (k, i) => !(v.getLsbD i && k == some f.keyHash)))

/-- SEC_REVOKE: burns revoke bits, or is recorded as a discarded guarded write (R455). -/
def State.takeRevoke (v : W32) (s : State) : State :=
  if s.mayRevoke v then
    { s with dev := { s.dev with
        fwRevoked := s.dev.fwRevoked.zipIdx.map (fun (b, i) => b || v.getLsbD i)
        progRevoked := s.dev.progRevoked.zipIdx.map (fun (b, i) => b || v.getLsbD (4 + i)) } }
  else s.guardErr Reg.SEC_REVOKE true

/-- SEC_POLICY: require_signed (R456). -/
def State.takePolicy (v : W32) (s : State) : State :=
  let s := State.takeReg Reg.SEC_POLICY 1 v s
  { s with host := { s.host with requireSigned := v.getLsbD 0 } }

/-- SEC_RESET: a module reset (R446). -/
def State.takeReset (v : W32) (s : State) : State :=
  if v.getLsbD 0 then s.moduleReset true { Power.reset with trip := s.pwr.trip } else s

/-- CAL_SAVE: every committed overlay goes to the firmware store (R468). -/
def State.takeSave (v : W32) (s : State) : State :=
  if v.getLsbD 0 then { s with dev := { s.dev with savedOverlays := s.regs.overlays } } else s

/-- What a completed pair on a guarded register does. -/
def State.take (off : Nat) (v : W32) (s : State) : State :=
  if off == Reg.THY_TOD_CTRL then s.takeTod v
  else if off == Reg.THY_PRIO then s.takePrio v
  else if off == Reg.THY_RATE_CAP then s.takeCap v
  else if off == Reg.TIR_COPY_CTRL then s.takeCopy v
  else if off == Reg.RNG_BAY_CTRL then s.takeBays v
  else if off == Reg.MIR_FENCE then s.takeFence v
  else if off == Reg.DET_CTRL then s.takeStrict v
  else if off == Reg.GLB_CFG_CRC_REF then s.takeRef v
  else if off == Reg.SEC_REVOKE then s.takeRevoke v
  else if off == Reg.SEC_POLICY then s.takePolicy v
  else if off == Reg.SEC_RESET then s.takeReset v
  else if off == Reg.CAL_SAVE then s.takeSave v
  else if off == Reg.PWR_LIMIT then State.takeReg off 0xFFFF v s
  else State.takeReg off 1 v s

/-- THY_TOD_CTRL (R252). -/
def execThyTodCtrl (q : Requester) (compl : Bool) (v : BitVec 32) (s : State) : Host.Outcome State Fault Refusal :=
  .next (s.guarded q Reg.THY_TOD_CTRL compl v State.takeTod)

/-- THY_PRIO (R238). -/
def execThyPrio (q : Requester) (compl : Bool) (v : BitVec 32) (s : State) : Host.Outcome State Fault Refusal :=
  .next (s.guarded q Reg.THY_PRIO compl v State.takePrio)

/-- THY_RATE_CAP (R249). -/
def execThyRateCap (q : Requester) (compl : Bool) (v : BitVec 32) (s : State) : Host.Outcome State Fault Refusal :=
  .next (s.guarded q Reg.THY_RATE_CAP compl v State.takeCap)

/-- TIR_COPY_CTRL (R219). -/
def execTirCopyCtrl (q : Requester) (compl : Bool) (v : BitVec 32) (s : State) : Host.Outcome State Fault Refusal :=
  .next (s.guarded q Reg.TIR_COPY_CTRL compl v State.takeCopy)

/-- RNG_BAY_CTRL (R334). -/
def execRngBayCtrl (q : Requester) (compl : Bool) (v : BitVec 32) (s : State) : Host.Outcome State Fault Refusal :=
  .next (s.guarded q Reg.RNG_BAY_CTRL compl v State.takeBays)

/-- MIR_FENCE (R354). -/
def execMirFence (q : Requester) (compl : Bool) (v : BitVec 32) (s : State) : Host.Outcome State Fault Refusal :=
  .next (s.guarded q Reg.MIR_FENCE compl v State.takeFence)

/-- DET_CTRL (R371). -/
def execDetCtrl (q : Requester) (compl : Bool) (v : BitVec 32) (s : State) : Host.Outcome State Fault Refusal :=
  .next (s.guarded q Reg.DET_CTRL compl v State.takeStrict)

/-- GLB_CRC_CTRL (R417). -/
def execGlbCrcCtrl (q : Requester) (compl : Bool) (v : BitVec 32) (s : State) : Host.Outcome State Fault Refusal :=
  .next (s.guarded q Reg.GLB_CRC_CTRL compl v (State.takeReg Reg.GLB_CRC_CTRL 1))

/-- GLB_CFG_CRC_REF (R417). -/
def execGlbCfgCrcRef (q : Requester) (compl : Bool) (v : BitVec 32) (s : State) : Host.Outcome State Fault Refusal :=
  .next (s.guarded q Reg.GLB_CFG_CRC_REF compl v State.takeRef)

/-- SEC_REVOKE (R455). -/
def execSecRevoke (q : Requester) (compl : Bool) (v : BitVec 32) (s : State) : Host.Outcome State Fault Refusal :=
  .next (s.guarded q Reg.SEC_REVOKE compl v State.takeRevoke)

/-- SEC_POLICY (R456). -/
def execSecPolicy (q : Requester) (compl : Bool) (v : BitVec 32) (s : State) : Host.Outcome State Fault Refusal :=
  .next (s.guarded q Reg.SEC_POLICY compl v State.takePolicy)

/-- SEC_RESET (R446). -/
def execSecReset (q : Requester) (compl : Bool) (v : BitVec 32) (s : State) : Host.Outcome State Fault Refusal :=
  .next (s.guarded q Reg.SEC_RESET compl v State.takeReset)

/-- CAL_SAVE (R468). -/
def execCalSave (q : Requester) (compl : Bool) (v : BitVec 32) (s : State) : Host.Outcome State Fault Refusal :=
  .next (s.guarded q Reg.CAL_SAVE compl v State.takeSave)

/-- PWR_LIMIT (R476). -/
def execPwrLimit (q : Requester) (compl : Bool) (v : BitVec 32) (s : State) : Host.Outcome State Fault Refusal :=
  .next (s.guarded q Reg.PWR_LIMIT compl v (State.takeReg Reg.PWR_LIMIT 0xFFFF))

/-! ### A write to any register (R402, R405 to R408) -/

/-- A write that reaches offset `off` of BAR0. -/
def State.writeReg (s : State) (q : Requester) (off : Nat) (v : W32) : State :=
  match regRow off with
  | some r =>
    if 0x100000 ≤ off && off < 0x540000 && s.mapEntry ((off - 0x100000) / 0x10000) == 0xFF then s
    else match r.acc with
      | .ro => s
      | .sl => s
      | .slHi => s
      | .w1c => s.setReg off (s.reg off &&& ~~~(v &&& BitVec.ofNat 32 r.wmask &&& ~~~s.raisedNow off))
      | .direct => s.writeDirect q off r v
      | .rw => s.writeShadow q off r v
      | .slw => s.writeShadow q off r v
      | .slwHi => s.writeShadow q off r v
      | .wg => s.guarded q off false v (State.take off)
  | none =>
    match complementOf off with
    | some o => s.guarded q o true v (State.take o)
    | none => s

/-- One 4-byte write of the register bus; one that enables fewer than 4 bytes is discarded (R402). -/
def State.writeWord (s : State) (q : Requester) (off : Nat) (enables : BitVec 4) (v : W32) : State :=
  if !s.barUp || enables != 0xF#4 then s
  else if msixOffset off then { s with host := { s.host with msixTable := kvSet 0#32 s.host.msixTable off v } }
  else s.writeReg q off v

/-- REGISTER_WRITE: the shadow of an RW field, W1C bits, a selector, a word of the MSI-X table; other offsets ignore it. An 8-byte access is two of 4 bytes, the lower address first (R376, R402, R406, R408, R412). -/
def execRegisterWrite (q : Requester) (offset : Nat) (w : BusWrite) (s : State) : Host.Outcome State Fault Refusal :=
  .next (match w with
    | .word e v => s.writeWord q offset e v
    | .double e v => (s.writeWord q offset (e.truncate 4) (v.truncate 32)).writeWord q (offset + 4) (e.extractLsb' 4 4) (v.extractLsb' 32 32))

/-- SL_LOW_READ: the live low word is returned and the live high word latched (R404). -/
def execSlLowRead (q : Requester) (offset : Nat) (s : State) : Host.Outcome State Fault Refusal :=
  if !s.barUp then .next s
  else
    let v := s.readReg q offset
    let hi := BitVec.ofNat 32 (s.liveReg q (offset + 4))
    let sl : Bool := match regRow offset with
      | some r => r.acc == .sl || r.acc == .slw
      | none => false
    .next (s.modRequester q (fun r => { r with
      lastRead := v
      latches := if sl then kvSet 0 r.latches (offset + 4) hi else r.latches }))

/-- GLB_STROBE (R410). -/
def execGlbStrobe (v : BitVec 32) (s : State) : Host.Outcome State Fault Refusal := .next (if s.barUp then s.strobe v else s)

/-- FLT_EQ_TAIL (R436). -/
def execFltEqTail (v : BitVec 32) (s : State) : Host.Outcome State Fault Refusal := .next (if s.barUp then s.setTail v else s)

/-- THY_SNAP_CTRL: the request enters its shadow; the commit of group 4 latches (R252). -/
def execThySnapCtrl (v : BitVec 32) (s : State) : Host.Outcome State Fault Refusal :=
  .next (if !s.barUp then s
    else if s.strobing 4 then s.strobeConflict Reg.THY_SNAP_CTRL
    else s.putShadow .host Reg.THY_SNAP_CTRL (v &&& 1#32))

/-! ### Commits (R409, R410, R415) -/

/-- RW registers of a block of a group: offset and whether they are idle-only. -/
def groupRows (g b : Nat) : List (Nat × Bool) :=
  let rows := fun (base : Nat) (l : List RegRow) =>
    (l.filter (fun r => r.acc == .rw || r.acc == .slw || r.acc == .slwHi)).map (fun r => (base + r.off, r.idleOnly))
  match g with
  | 0 => rows 0 regsGlobal ++ (List.range 16).flatMap (fun c => rows (wctBase c) regsCounter)
  | 3 => rows 0 regsTiers
  | 4 => rows 0 regsThyme
  | 5 => rows 0 regsRing
  | 6 => rows 0 regsMirror
  | 7 => if b == 0 then rows 0 regsMask else if b == 1 then (rows 0 regsSec).filter (fun e => e.1 != Reg.CAL_USER) else rows 0 regsFault
  | _ => []

/-- Whether the block of an idle-only field is idle. -/
def State.idleFor (s : State) (off : Nat) : Bool :=
  if 0x600 ≤ off && off < 0x800 then
    let w := s.wct.getD ((off - 0x600) / 0x20) WorkCounter.reset
    w.table.isEmpty
  else if off < 0x100000 then s.host.st != .running && s.nothingInFlight
  else if 0xA00000 ≤ off && off < 0xB00000 then s.host.st != .running
  else if 0xD00000 ≤ off && off < 0xE00000 then s.mask.queue.isEmpty && s.mask.running.isNone
  else true

/-- Copies the shadow of a register into its committed value. A shadow that would set elastic under strict, which has come since it was written, is discarded and counted (R371). -/
def State.copyShadow (s : State) (o : Nat) : State :=
  if s.strictRefuses o (s.shadow o) then
    ({ s with regs := { s.regs with shadows := kvSet (s.regDefault o) s.regs.shadows o (s.reg o) } }).bump Reg.DET_STRICT_REFUSED 1
  else s.setReg o (s.shadow o)

/-- Copies the shadows of registers into their committed values. -/
def State.copyShadows (s : State) (offs : List Nat) : State := offs.foldl State.copyShadow s

/-- Latches T, Π and the time of day when snap commits; it reads 0 (R252). -/
def State.latchSnap (s : State) : State :=
  if (s.reg Reg.THY_SNAP_CTRL).getLsbD 0 then
    let s := (s.setReg64 Reg.THY_SNAP_TICK s.thy.tick).setReg64 Reg.THY_SNAP_PERIOD s.thy.period
    let s := (s.setReg64 Reg.THY_SNAP_TOD_S s.thy.todS).setReg Reg.THY_SNAP_TOD_NS (BitVec.ofNat 32 s.thy.todNs)
    s.setRw Reg.THY_SNAP_CTRL 0
  else s

/-- What a commit sets off: a time snapshot, a restarted PTP port, a moved report ring, calibration overlays (R138, R252, R253, R468). -/
def State.afterCommit (s old : State) (g b : Nat) : State :=
  let changed := fun (off : Nat) => s.reg off != old.reg off
  if g == 4 then
    let s := s.latchSnap
    if changed Reg.THY_PTP_CFG then s.modThy (fun t => { t with ptp := bnat s.ptpOn }) else s
  else if g == 7 && b == 0 then
    if changed Reg.MSK_REPORT_BASE || changed (Reg.MSK_REPORT_BASE + 4) || changed Reg.MSK_REPORT_SIZE then s.setReg Reg.MSK_REPORT_HEAD 0 else s
  else if g == 7 && b == 1 then s.setOverlays s.regs.overlayShadows
  else s

/-- The cycles in which what runs in an array ends: segments, a pass or drain, a tile transfer, an update tile (R409). -/
def ArrayState.runEnds (a : ArrayState) (m : Cells) (now : Nat) : List Nat :=
  a.ops.filterMap (fun o => match o.body with
    | .prod p => (match p.plan with
      | g :: _ => if !g.empty && (p.kind == .cand || !p.cells.isEmpty) && p.segAt ≤ now then some (p.segAt + p.segTime m g) else none
      | [] => none)
    | _ => none) ++
  (a.pass.map (·.endAt)).toList ++ (if a.waiting.isEmpty || a.queue.length == 8 then [] else [a.xferAt]) ++ (a.updCur.map (·.endAt)).toList

/-- Whether the mask engine is between two tiles: its tiles share the time of the operation evenly (DESIGN CHOICE, log 110). -/
def State.betweenMaskTiles (s : State) : Bool :=
  match s.maskAtWork, s.mask.running with
  | some (op, w), some (_, at_, _) => (at_ - s.cycle) % max 1 (s.maskTime op.kind / max 1 (w.part s.mem).length) == 0
  | _, _ => true

/-- Whether a block of a group is at its commit point: the first cycle of a period; in an array the end of what runs, or nothing running; a lane or the mask engine between two tiles. Between two accesses of the far tier every command stands (R409). -/
def State.commitPoint (s : State) (g b : Nat) : Bool :=
  match g with
  | 1 =>
    let ends := (s.arr b).runEnds s.mem s.cycle
    ends.isEmpty || ends.any (· ≤ s.cycle)
  | 2 => (s.arr b).lane.all (fun l => !l.fetched || l.waiting || l.readyAt ≤ s.cycle)
  | 3 => true
  | 7 => b != 0 || s.betweenMaskTiles
  | _ => s.thy.cyc == 0

/-- Idle-only fields of a block that still differ from their shadows, split into those whose block is idle and the others. -/
def State.idleFields (s : State) (g b : Nat) : List Nat × List Nat :=
  let io := ((groupRows g b).filter (fun e => e.2 && s.shadow e.1 != s.reg e.1)).map Prod.fst
  (io.filter s.idleFor, io.filter (fun o => !s.idleFor o))

/-- One block of a group has committed what it can: it is done, or waits for idle. -/
def State.closeCommit (s : State) (code : Nat) (waits : Bool) : State :=
  if waits then { s with regs := { s.regs with pendingIdle := if s.regs.pendingIdle.contains code then s.regs.pendingIdle else s.regs.pendingIdle ++ [code] } }
  else { s with regs := { s.regs with strobes := s.regs.strobes.erase code, pendingIdle := s.regs.pendingIdle.erase code } }

/-- STROBE_COMMIT: a block of a requested group reaches its commit point (R409, R410). -/
def execStrobeCommit (group blk : Nat) (s : State) : Host.Outcome State Fault Refusal :=
  let code := 256 * group + blk
  if !s.regs.strobes.contains code || s.regs.pendingIdle.contains code || !s.commitPoint group blk then .next s
  else
    let (now, later) := s.idleFields group blk
    let plain := ((groupRows group blk).filter (fun e => !e.2)).map Prod.fst
    let t := (s.copyShadows (plain ++ now)).afterCommit s group blk
    .next (t.closeCommit code (!later.isEmpty)).crcStale

/-- A guarded value that waited for idle takes effect, which recomputes the CRC (R416, R417); strict is discarded and counted where a choice has come into use meanwhile (R371, R415). -/
def State.settleGuards (s : State) : State :=
  if s.strictIdle then
    let s1 := s.regs.guardWaiting.foldl (fun (s : State) w =>
      if w.2.getLsbD 0 && s.choiceInUse then s.bump Reg.DET_STRICT_REFUSED 1 else (s.setReg w.1 w.2).crcStale) s
    { s1 with regs := { s1.regs with guardWaiting := [] } }
  else s

/-- IDLE_ONLY_COMMIT: a block that idle-only fields wait for is idle (R410, R415). -/
def execIdleOnlyCommit (group blk : Nat) (s : State) : Host.Outcome State Fault Refusal :=
  let code := 256 * group + blk
  let s := if group == 0 then s.settleGuards else s
  if !s.regs.pendingIdle.contains code || !s.commitPoint group blk then .next s
  else
    let (now, later) := s.idleFields group blk
    .next (((s.copyShadows now).afterCommit s group blk).closeCommit code (!later.isEmpty)).crcStale

/-! ### BAR4 (R212, R377) -/

/-- The address of module memory at an offset of BAR4: the window starts at a multiple of 1 GiB (R376). -/
def State.bar4At (s : State) (offset : Nat) : Nat := s.regN Reg.HST_BAR4_BASE % 2 ^ 18 * 2 ^ 30 + offset

/-- Whether BAR4 reaches [a, a + n): before an image is committed the far tier and the scratchpad, then the checks of R212. -/
def State.bar4Reaches (s : State) (a n : Nat) (acc : Access) : Bool :=
  if s.host.committed then s.allowed a n hostUser acc false
  else a + n ≤ s.dev.grade.farBytes || (scratchBase ≤ a && a + n ≤ scratchBase + s.dev.grade.arrays * sliceSize)

/-- An uncorrectable error that the function reports under AER, by its bit of the AER status register (R378; log 91). -/
def State.aerError (s : State) (bit : Nat) : State :=
  { s with host := { s.host with pcie := { s.host.pcie with aerUncor := s.host.pcie.aerUncor ||| BitVec.ofNat 32 (2 ^ bit) } } }

/-- What a BAR4 read returns. -/
def State.bar4Returns (s : State) (bs : List Byte) : State := { s with host := { s.host with bar4Data := bs } }

/-- Bytes that Sage or the host reads from module memory: an uncorrectable block is recorded and its bytes are free values (R209, R216, R429). -/
def State.hostReads (s : State) (a n : Nat) : State × List Byte :=
  match s.eccBad a n with
  | some (code, bad) =>
    let s := s.raise { FaultRec.of code 8 with addr := bad, aux := s.faultAux 0xFF code bad }
    (s.used n, s.freeBytes n)
  | none => (s.corrected [(a, n)], s.get a n)

/-- An access that BAR4 does not reach: a read returns zero, and the failed check is posted (R212, R377). -/
def State.bar4Misses (s : State) (write : Bool) (a n : Nat) : State :=
  let s := if write then s else s.bar4Returns (List.replicate n 0#8)
  if s.host.committed then s.postEvent 0x10 0 s.ring.addr (s.regionIdx a) else s

/-- A write of the host that BAR4 reaches: behind those that wait, and behind the journal copies of its blocks (R348, R377). -/
def State.bar4Put (s : State) (a : Nat) (bs : List Byte) : State :=
  State.settleBar4 { s with host := { s.host with bar4Waiting := s.host.bar4Waiting ++ [(a, bs)] } }

/-- BAR4_ACCESS: a read or write of module memory; `data` gives the bytes of a write, or how many a read asks for. A poisoned write is discarded, an access beyond the 64 GiB is an unsupported request; a write into journaled blocks waits for their copies, and a read sees the writes before it (R212, R348, R376 to R378). -/
def execBar4Access (write poisoned : Bool) (offset : Nat) (data : List (BitVec 8)) (s : State) : Host.Outcome State Fault Refusal :=
  let n := data.length
  let a := s.bar4At offset
  if !s.powered || !s.host.bootDone then .next s
  else if 2 ^ 36 < offset + n then .next ((if write then s else s.bar4Returns (List.replicate n 0#8)).aerError 20)
  else if write && poisoned then .next (s.aerError 12)
  else if !s.bar4Reaches a n (if write then .write else .read) then .next (s.bar4Misses write a n)
  else if write then .next (s.bar4Put a data)
  else
    let (s, bs) := s.hostReads a n
    .next (s.bar4Returns (memGet (s.host.bar4Waiting.foldl (fun m w => memPut m w.1 w.2) (memPut s.mem a bs)) a n))

/-! ### RATE_WINDOW_END (R439) -/

/-- RATE_WINDOW_END: a window of 2²⁰ periods closes; each suppressed code is written once (R439). -/
def execRateWindowEnd (s : State) : Host.Outcome State Fault Refusal :=
  if s.period % 2 ^ 20 != 0 || s.thy.cyc != 0 then .next s
  else
    let sup := s.flt.suppressed
    let s := { s with flt := { s.flt with windowCounts := [], suppressed := [] } }
    .next (sup.foldl (fun (s : State) e => s.postEvent 0xA5 0 s.ring.addr (e.1 * 2 ^ 24 + min (2 ^ 24 - 1) e.2)) s)

end Sys2Proof.Machine
end

