-- ==== Sys2Proof/Machine/Image.lean ====
section
/-! DEFINITION. Program images: sections, signature, determinism declaration, patch table, regions, contexts, pairing, relocation, digest (R210, R211, R213, R256, R259, R279 to R281, R289, R326, R343, R364, R367, R371, R373, R397 to R399, R454, R456). -/

namespace Sys2Proof.Machine

/-! ### Bytes and sections (R397) -/

/-- `n` bytes at offset `o`. -/
def sub (bs : List Byte) (o n : Nat) : List Byte := (bs.drop o).take n

/-- Overwrites bytes at offset `o`. -/
def patchBytes (bs : List Byte) (o : Nat) (new : List Byte) : List Byte := bs.take o ++ new ++ bs.drop (o + new.length)

/-- One section: type, offset, bytes. -/
structure Section where
  typ : Nat
  ofs : Nat
  bytes : List Byte
  deriving DecidableEq, Repr

/-- An image with its directory read. -/
structure RawImage where
  bytes : List Byte
  pForm : Bool
  secs : List Section
  deriving DecidableEq, Repr

/-- Why an image is refused: fault code, detail, and the mismatch registers of R367. -/
structure LoadErr where
  code : Nat
  detail : Nat
  mismatch : Option (Nat × Nat)
  deriving DecidableEq, Repr

/-- A refusal without mismatch. -/
def loadErr (code detail : Nat) : LoadErr := ⟨code, detail, none⟩

/-- A check of the loader. -/
def errIf (b : Bool) (code detail : Nat) : Option LoadErr := if b then some (loadErr code detail) else none

/-- First failing check. -/
def firstErr (l : List (Option LoadErr)) : Option LoadErr := l.findSome? id

/-- Sections of a type. -/
def RawImage.all (r : RawImage) (t : Nat) : List (List Byte) := (r.secs.filter (fun x => x.typ == t)).map (·.bytes)

/-- The section of a type that appears at most once. -/
def RawImage.one (r : RawImage) (t : Nat) : Option (List Byte) := (r.all t).head?

/-- Row 2 of R399: magic, section types, section bounds. -/
def readImage (bs : List Byte) : Option RawImage :=
  let n := fld bs 12 2
  let types := (List.range n).map (fun i => fld bs (64 + 16 * i) 2)
  if bs.length < 64 || fld bs 0 4 != 0x494E424D || n == 0 || 64 < n || bs.length < 64 + 16 * n then none
  else if types.any (fun t => !([1, 2, 3, 4, 5, 6, 7, 8, 15].contains t)) || [1, 3, 4, 5, 6, 7, 15].any (fun t => 1 < types.count t) then none
  else
    let entry := fun i => (fld bs (64 + 16 * i + 8) 4, fld bs (64 + 16 * i + 12) 4)
    if (List.range n).any (fun i => bs.length < (entry i).1 + (entry i).2) then none
    else if fld bs 5 1 == 0 && types.contains 4 then none
    else some ⟨bs, fld bs 5 1 == 1, (List.range n).map (fun i => ⟨types.getD i 0, (entry i).1, sub bs (entry i).1 (entry i).2⟩)⟩

/-! ### Signature (R453, R454, R456) -/

/-- The session key as a number; all zeros is no key. -/
def State.sessionKey (s : State) : Nat := beNat ((List.range 8).flatMap (fun i => leBytes 4 (s.regN (Reg.SEC_SESSION_KEY0 + 4 * i))))

/-- A written key slot that is not revoked holds this hash. -/
def slotHolds (keys : List (Option Nat)) (revoked : List Bool) (h : Nat) : Bool := (keys.zip revoked).any (fun k => k.1 == some h && !k.2)

/-- Keys that a program image may be signed with. -/
def State.programKey (s : State) (h : Nat) : Bool :=
  slotHolds s.dev.fwKeys s.dev.fwRevoked h || slotHolds s.dev.progKeys s.dev.progRevoked h || (h == s.sessionKey && h != 0)

/-- Signing is required (R456). -/
def State.mustSign (s : State) : Bool := s.host.requireSigned || s.dev.requireSignedFuse

/-- Bytes that the signature covers: all before the block, or the whole image without one. -/
def RawImage.covered (r : RawImage) : List Byte :=
  match r.secs.find? (fun x => x.typ == 15) with
  | some x => r.bytes.take x.ofs
  | none => r.bytes

/-- Row 4 of R399. -/
def State.signatureOk (s : State) (r : RawImage) : Bool :=
  let signed := (fld r.bytes 7 1).testBit 0
  if !signed && !s.mustSign then true
  else signed && (match r.secs.find? (fun x => x.typ == 15) with
    | some x => x.ofs + 776 == r.bytes.length && rsaVerify (r.bytes.take x.ofs) x.bytes && s.programKey (keyHash x.bytes)
    | none => false)

/-! ### Form, grade and array count (R4, R279, R399 row 5) -/

/-- The array count an image runs with. -/
def State.imageN (s : State) (r : RawImage) : Nat :=
  if r.pForm then min (fld r.bytes 10 2) s.dev.grade.arrays else fld r.bytes 8 2

/-- Row 5. -/
def State.formOk (s : State) (r : RawImage) : Bool :=
  let n := fld r.bytes 8 2
  if r.pForm then fld r.bytes 6 1 == 0 && 1 ≤ n && n ≤ s.dev.grade.arrays && n ≤ fld r.bytes 10 2 && fld r.bytes 10 2 ≤ 255
  else fld r.bytes 5 1 == 0 && fld r.bytes 6 1 == Grade.code s.dev.grade && n == s.dev.grade.arrays

/-! ### Determinism declaration (R364, R367) -/

/-- The declaration a section holds; none when its counts or length are wrong. -/
def readDecl (bs : List Byte) : Option Decl :=
  let nl := fld bs 2 2
  let nd := fld bs 4 2
  if bs.length < 16 || nl == 0 || 1024 < nl || nd == 0 || 1024 < nd || bs.length < 16 + 4 * (nl + nd) then none
  else
    let e := fun i => (fld bs (16 + 4 * i + 2) 2, fld bs (16 + 4 * i) 2)
    some ⟨fld bs 1 1, (List.range nl).map e, (List.range nd).map (fun j => e (nl + j)), fld bs 8 8⟩

/-- Ids strictly ascend. -/
def ascending : List (Nat × Nat) → Bool
  | x :: y :: r => x.1 < y.1 && ascending (y :: r)
  | _ => true

/-- Factory latencies of the module in ascending id: the latency class of the OTP table (R367, R466). -/
def Device.latencies (d : Device) : List (Nat × Nat) := (d.calib.filter (fun c => c.id < 0x100)).map (fun c => (c.id, c.f.toNat))

/-- A mismatch under rows 2 to 4 of R367. -/
def mismatchErr (depth : Bool) (id declared own : Nat) : LoadErr :=
  ⟨0x04, id, some (bnat depth * 65536 + id, declared % 65536 * 65536 + own % 65536)⟩

/-- Entries of a module table that a declaration lacks. -/
def lacks (depth : Bool) (own decl : List (Nat × Nat)) : Option LoadErr :=
  (own.find? (fun e => decl.all (fun d => d.1 != e.1))).map (fun e => mismatchErr depth e.1 0 e.2)

/-- Entries of a module table whose declared value does not satisfy a relation to the module's. -/
def differs (depth : Bool) (bad : Nat → Nat → Bool) (own decl : List (Nat × Nat)) : Option LoadErr :=
  own.findSome? (fun e => match decl.find? (fun d => d.1 == e.1) with
    | some d => if bad d.2 e.2 then some (mismatchErr depth e.1 d.2 e.2) else none
    | none => none)

/-- The rows of R367 in their order. -/
def State.declErr (s : State) (regions : List Region) (bs : Option (List Byte)) : Option LoadErr :=
  match bs.bind (fun b => (readDecl b).map (fun d => (fld b 0 1, d))) with
  | none => some (loadErr 0x05 5)
  | some (v, d) =>
    let own := s.dev.latencies
    firstErr [
      errIf (v != 1 || !ascending d.lat || !ascending d.depth || d.lat.any (fun e => own.all (fun o => o.1 != e.1)) ||
        d.depth.any (fun e => depthTable.all (fun o => o.1 != e.1))) 0x05 5,
      lacks false own d.lat, lacks true depthTable d.depth,
      differs false (fun x y => x < y) own d.lat,
      differs true (fun x y => x != y) depthTable d.depth,
      errIf (d.digestAddr != 0 && !regions.any (fun r => r.kind != 6 && r.base ≤ d.digestAddr && d.digestAddr + 32 ≤ r.base + r.size && r.access.testBit 1)) 0x10 5]

/-! ### Region table (R210, R211, R213) -/

/-- The entries of a region table; reserved bytes and bits are ignored (R7). -/
def readRegions (bs : List Byte) : List Region :=
  (List.range (bs.length / 32)).map (fun i =>
    let o := 32 * i
    ⟨fld bs o 8, fld bs (o + 8) 8, fld bs (o + 16) 1, fld bs (o + 17) 1 % 32, fld bs (o + 18) 1 % 8, fld bs (o + 20) 2⟩)

/-- Tier and slice of an address: 0 far, 1 scratchpad, 2 gradient buffer. -/
def tierOf (a : Nat) : Nat × Nat :=
  if gradBase ≤ a then (2, (a - gradBase) / sliceSize) else if scratchBase ≤ a then (1, (a - scratchBase) / sliceSize) else (0, 0)

/-- Whether a region lies in the ranges of R206 for a grade, and inside one slice. -/
def Region.inRange (r : Region) (g : Grade) : Bool :=
  let last := r.base + max 1 r.size - 1
  let t := tierOf r.base
  tierOf last == t && (if t.1 == 0 then r.base + r.size ≤ g.farBytes else t.2 < g.arrays)

/-- Least size of a queue-backing region: 64 descriptors of 64 bytes for each stream that it serves, 256 entries of 32 bytes where it serves a port (R213, R302, R321). -/
def Region.queueNeed (r : Region) : Nat := 4096 * ([0, 1, 2].filter (fun b => r.users.testBit b)).length + 8192 * bnat (r.users.testBit ringUser)

/-- Whether an entry of a P-form image belongs to an array the program does not run on: slices of arrays N and above take no region (R279). -/
def Region.unstarted (r : Region) (n : Nat) : Bool :=
  if r.kind == 6 then n ≤ r.array else (tierOf r.base).1 != 0 && n ≤ (tierOf r.base).2

/-- An entry that takes no region: it keeps its index and its base, and permits no access (R279). -/
def Region.voided (r : Region) : Region := { r with size := 0, users := 0, access := 0 }

/-- Whether an entry of an image takes no region (R279). -/
def Region.skipped (r : Region) (pForm : Bool) (n : Nat) : Bool := pForm && r.unstarted n

/-- The region table in force for N arrays (R279). -/
def regionsFor (pForm : Bool) (n : Nat) (rs : List Region) : List Region :=
  rs.map (fun r => if r.skipped pForm n then r.voided else r)

/-- Every field of one entry is in range (R210, R211, R213). A non-zero array of an entry of another kind than 6 counts as out of range (DEDUCED, log 74). -/
def Region.fieldsOk (r : Region) (g : Grade) (n : Nat) : Bool :=
  r.kind < 7 &&
    (if r.kind == 6 then r.base + r.size ≤ 64 && r.array < n
    else r.array == 0 && r.base % 32 == 0 && r.size % 32 == 0 && r.inRange g &&
      (r.kind != 5 || r.queueNeed ≤ r.size) && (r.kind != 2 || (tierOf r.base).1 == 1))

/-- Two regions that may not stand together (R211). -/
def Region.clash (x y : Region) : Bool :=
  if x.kind == 6 || y.kind == 6 then
    x.kind == 6 && y.kind == 6 && x.array == y.array && [0, 1, 2].any (fun b => x.users.testBit b && y.users.testBit b)
  else (x.base < y.base + y.size && y.base < x.base + x.size) || (x.kind == 2 && y.kind == 2 && tierOf x.base == tierOf y.base)

/-- Index of the first entry in force that breaks R211. -/
def regionErr (g : Grade) (pForm : Bool) (n : Nat) (rs : List Region) : Option Nat :=
  (List.range rs.length).find? (fun i => match rs[i]? with
    | some r => !r.skipped pForm n && (!r.fieldsOk g n || (rs.take i).any (fun x => !x.skipped pForm n && x.clash r))
    | none => false)

/-! ### Context records (R256, R259, R397) -/

/-- Bytes of one stream in a context record: region, two zero bytes, entry, s0 to s31, ab0 to ab15, ver, four zero bytes. The spec gives the order and no layout (log 42). -/
def streamInitBytes : Nat := 400

/-- One stream of a context record. -/
def readInit (bs : List Byte) (o : Nat) : StreamInit where
  region := fld bs o 2
  entry := fld bs (o + 4) 4
  s := (List.range 32).map (fun i => BitVec.ofNat 64 (fld bs (o + 8 + 8 * i) 8))
  ab := (List.range 16).map (fun i => BitVec.ofNat 64 (fld bs (o + 264 + 8 * i) 8))
  ver := BitVec.ofNat 32 (fld bs (o + 392) 4)

/-- A context record. -/
def readCtx (bs : List Byte) : CtxRecord :=
  ⟨readInit bs 0, readInit bs streamInitBytes, readInit bs (2 * streamInitBytes), fld bs 1200 1, fld bs 1201 1, fld bs 1202 1⟩

/-- Quotas of R259. -/
def CtxRecord.quotasOk (c : CtxRecord) : Bool := 1 ≤ c.qF && 1 ≤ c.qB && 1 ≤ c.qU && c.qF + c.qB + c.qU ≤ 32

/-- The three streams of a record. -/
def CtxRecord.streams (c : CtxRecord) : List StreamInit := [c.f, c.b, c.u]

/-- Region of a stream that is no code region in the slice of array `a`. -/
def ctxRegionErr (rs : List Region) (a : Nat) (c : CtxRecord) : Option Nat :=
  (c.streams.find? (fun i => !(rs[i.region]?).any (fun r => r.kind == 1 && tierOf r.base == (1, a)))).map (·.region)

/-- Row 8 of R399 for regions, images and contexts. The detail is the index of the failing entry of the region table, or the one that the failing section or record names: for its quotas or its length, a context record names that of its F stream (DESIGN CHOICE, log 42). -/
def contentsErr (g : Grade) (pForm : Bool) (n : Nat) (table : List Byte) (rs : List Region) (imgs ctxs : List (List Byte)) : Option LoadErr :=
  let badTable := errIf (table.length % 32 != 0 || 4096 < rs.length) 0x10 (min 4096 (table.length / 32))
  let badRegion := (regionErr g pForm n rs).map (loadErr 0x10)
  let badImage := (imgs.find? (fun b => b.length < 2 || !(rs[fld b 0 2]?).any (fun r => r.kind != 6 && (r.skipped pForm n || b.length ≤ r.size + 2)))).map (fun b => loadErr 0x10 (fld b 0 2))
  let used := ctxs.take n
  let badCtx := used.zipIdx.findSome? (fun (b, a) =>
    if b.length < 1203 then some (loadErr 0x10 (fld b 0 2))
    else match ctxRegionErr rs a (readCtx b) with
      | some i => some (loadErr 0x10 i)
      | none => errIf (!(readCtx b).quotasOk) 0x10 (readCtx b).f.region)
  firstErr [badTable, badRegion, badImage, badCtx]

/-! ### Ring contexts and pairing (R326, R343, R371) -/

/-- The ring context table. -/
def readCtxTable (bs : List Byte) : List CtxDecl :=
  (List.range (bs.length / 16)).map (fun i =>
    let o := 16 * i
    ⟨fld bs o 2, fld bs (o + 2) 2, fld bs (o + 4) 2, fld bs (o + 6) 1, (fld bs (o + 7) 1).testBit 0⟩)

/-- Index of the first record whose entry is out of range or repeats an earlier one. -/
def ctxTableBad (cs : List CtxDecl) : Option Nat :=
  (cs.zipIdx.find? (fun (c, i) => 8192 ≤ c.index || (cs.take i).any (fun x => x.index == c.index))).map (fun c => c.1.index)

/-- Row 9 of R399; strict refuses any_order (R371). -/
def State.ctxTableErr (s : State) (cs : List CtxDecl) : Option LoadErr :=
  firstErr [
    errIf ((s.reg Reg.DET_CTRL).getLsbD 0 && cs.any (·.anyOrder)) 0x05 6,
    (ctxTableBad cs).map (loadErr 0x21),
    errIf (8192 < cs.length + 16) 0x72 6]

/-- The pairing descriptor; none when its version or lengths are wrong. -/
def readPairing (bs : List Byte) (n : Nat) : Option PairDesc :=
  let nl := fld bs 4 2
  let ns := fld bs 6 2
  let o := 64 + cdiv (2 * nl) 8 * 8
  let p := o + 4 * ns
  if fld bs 0 1 != 1 || 64 < nl || 4096 < ns || bs.length < p + 12 * n then none
  else some {
    paired := (fld bs 1 1).testBit 0
    journal := (fld bs 1 1).testBit 1
    journalRegion := fld bs 2 2
    list := (List.range nl).map (fun i => fld bs (64 + 2 * i) 2)
    standby := (List.range ns).map (fun i => (fld bs (o + 4 * i + 2) 2, fld bs (o + 4 * i) 2))
    degraded := (List.range (3 * n)).map (fun i => fld bs (p + 4 * i) 4)
    agree := fld bs 8 8 }

/-- Row 10 of R399 (R343). -/
def State.pairingErr (s : State) (rs : List Region) (bs : Option (List Byte)) (d : Option PairDesc) : Option LoadErr :=
  match bs, d with
  | none, _ => none
  | some _, none => some (loadErr 0x10 7)
  | some _, some d =>
    firstErr [
      errIf (d.journal && !(rs[d.journalRegion]?).any (fun r => r.kind == 4 && s.isFar r.base)) 0x10 d.journalRegion,
      (d.list.find? (fun i => rs.length ≤ i)).map (loadErr 0x10),
      errIf (!((tierOf d.agree == (1, 0)) && rs.any (fun r => r.permits d.agree 64 ringUser .write false))) 0x10 7]

/-! ### Relocation (R398) -/

/-- The relocation table. -/
def readRelocs (bs : List Byte) : List Reloc :=
  (List.range (bs.length / 16)).map (fun i =>
    let o := 16 * i
    ⟨fld bs o 4, fld bs (o + 4) 2, fld bs (o + 6) 2, fld bs (o + 8) 1⟩)

/-- The field after the target's base is added; none when it does not fit. -/
def relocField (kind v base : Nat) : Option Nat :=
  if kind == 0 then (if v + base < 2 ^ 64 then some (v + base) else none)
  else if kind == 1 then
    let f := v % 2 ^ 48 + base
    if f < 2 ^ 48 then some (v / 2 ^ 48 * 2 ^ 48 + f) else none
  else if kind == 2 then
    let f := v % 2 ^ 24 + base / 32
    if base % 32 == 0 && f < 2 ^ 24 then some (v / 2 ^ 24 * 2 ^ 24 + f) else none
  else none

/-- Relocates one field of a byte list. -/
def relocBytes (kind site base : Nat) (bs : List Byte) : Option (List Byte) :=
  let w := if kind == 2 then 4 else 8
  if bs.length < site + w then none else (relocField kind (fld bs site w) base).map (fun v => patchBytes bs site (leBytes w v))

/-- Holder number of the context records. -/
def ctxHolder : Nat := 0xFFFE

/-- Region images (region, bytes) and the context records laid end to end. -/
abbrev Holders := List (Nat × List Byte) × List Byte

/-- Applies one record; none when a part does not exist or the result does not fit. -/
def relocOne (rs : List Region) (h : Holders) (r : Reloc) : Option Holders :=
  match rs[r.target]? with
  | none => none
  | some t =>
    if r.holder == ctxHolder then (relocBytes r.kind r.site t.base h.2).map (fun b => (h.1, b))
    else
      let hit := fun (e : Nat × List Byte) => e.1 == r.holder && (relocBytes r.kind r.site t.base e.2).isSome
      if h.1.any hit then some (h.1.map (fun e => if hit e then (e.1, (relocBytes r.kind r.site t.base e.2).getD e.2) else e), h.2) else none

/-- Applies every record. -/
def relocAll (rs : List Region) (h : Holders) : List Reloc → Option Holders
  | [] => some h
  | r :: l => (relocOne rs h r).bind (fun h => relocAll rs h l)

/-- Splits bytes into pieces of given lengths. -/
def splitBy : List Nat → List Byte → List (List Byte)
  | [], _ => []
  | n :: l, bs => bs.take n :: splitBy l (bs.drop n)

/-- Images and context records relocated at the bases of a region table. -/
def relocated (rs : List Region) (imgs : List (Nat × List Byte)) (ctxs : List (List Byte)) (rl : List Reloc) : Option (List (Nat × List Byte) × List (List Byte)) :=
  (relocAll rs (imgs, ctxs.flatten) rl).map (fun h => (h.1, splitBy (ctxs.map (·.length)) h.2))

/-! ### Patch table (R280, R281, R289) -/

/-- A signed field of four bytes. -/
def fldInt (bs : List Byte) (o : Nat) : Int := (BitVec.ofNat 32 (fld bs o 4)).toInt

/-- The patch table. -/
def readPatches (bs : List Byte) : List PatchRec :=
  (List.range (bs.length / 24)).map (fun i =>
    let o := 24 * i
    ⟨fld bs o 4, fld bs (o + 4) 2, fld bs (o + 6) 1, fld bs (o + 7) 1, fldInt bs (o + 8), fldInt bs (o + 12), fldInt bs (o + 16), fld bs (o + 20) 4⟩)

/-- The value a record gives for N arrays. -/
def PatchRec.value (p : PatchRec) (n : Nat) : Int := p.a + p.b * n + p.c * (cdiv p.d n : Nat)

/-- Bit ranges of an instruction word that the loader may patch (R289). -/
def wordFields (op : Nat) : List (Nat × Nat) :=
  let own : List (Nat × Nat) :=
    if op == 0x00 || op == 0x01 || op == 0x04 || op == 0x05 || (0x10 ≤ op && op ≤ 0x1C) then [(0, 31)]
    else if op == 0x03 || (0x20 ≤ op && op ≤ 0x46) || op == 0x50 || op == 0x54 || op == 0x60 || op == 0x64 || (0x70 ≤ op && op ≤ 0x81) || 0x98 ≤ op then [(0, 23)]
    else if op == 0x51 then [(0, 23), (39, 47)]
    else if op == 0x52 then [(32, 36)]
    else if op == 0x53 || op == 0x55 || op == 0x56 || op == 0x63 then [(0, 31)]
    else if op == 0x90 then [(0, 31), (32, 47)]
    else if op == 0x91 then [(0, 31)]
    else []
  [(80, 111), (64, 79)] ++ own

/-- Byte ranges (first, count) of a parameter record that the loader may patch (R289, with the layouts of R295 to R308). -/
def recordFields (op : Nat) : List (Nat × Nat) :=
  let ranges := [(32, 2), (34, 2), (36, 2), (38, 2)]
  if op == 0x03 then [(8, 4)]
  else if op == 0x20 || op == 0x21 then [(0, 6), (8, 4), (12, 4), (16, 6), (24, 6), (40, 4), (44, 4), (48, 6), (60, 4)] ++ ranges
  else if op == 0x22 then [(0, 6), (8, 4), (12, 4), (16, 6), (24, 6), (40, 4), (44, 4), (48, 6), (64, 6), (72, 6)] ++ ranges
  else if op == 0x23 then [(0, 6), (8, 4), (12, 4), (16, 6), (24, 2), (44, 4), (48, 6), (64, 6)]
  else if 0x28 ≤ op && op ≤ 0x2A then [(0, 6), (8, 4), (12, 4), (24, 4), (32, 6), (40, 6), (48, 4)]
  else if 0x30 ≤ op && op ≤ 0x3A then [(0, 6), (8, 4), (12, 6), (20, 4), (24, 6), (32, 4), (36, 6), (44, 4), (48, 4), (52, 4), (60, 4)]
  else if 0x40 ≤ op && op ≤ 0x46 then [(0, 6), (8, 6), (16, 6), (24, 6), (32, 6), (40, 2), (42, 2), (44, 2), (46, 2), (48, 4), (52, 4), (56, 4)]
  else if op == 0x54 then [(0, 6), (8, 2), (12, 4)]
  else if op == 0x60 then [(0, 4), (4, 4), (16, 6)]
  else if op == 0x64 then [(0, 4), (4, 4), (8, 6), (16, 6)]
  else if op == 0x70 then [(0, 6), (16, 6), (24, 4), (28, 4)]
  else if op == 0x71 then [(0, 6), (28, 4)]
  else if op == 0x72 then [(0, 6), (8, 4)]
  else if op == 0x80 || op == 0x81 then [(0, 6), (8, 4), (12, 2), (16, 4)]
  else if op == 0x98 then [(0, 6), (8, 8), (16, 6), (24, 6)]
  else if op == 0x99 then [(0, 6), (8, 6), (16, 6), (24, 6)]
  else []

/-- Opcode of a word of a code image. -/
def opAt (code : List Byte) (pc : Nat) : Nat := fld code (pc + 15) 1

/-- Where control may go from a word: the next word, a branch target, or both. -/
def successors (code : List Byte) (pc : Nat) : List Nat :=
  let op := opAt code pc
  let t := fld code pc 4
  if op == 0x01 then []
  else if op == 0x02 || op == 0x08 then [t]
  else if 0x09 ≤ op && op ≤ 0x0C then [pc + 16, t]
  else [pc + 16]

/-- The words that control reaches: `fuel` bounds the steps, `todo` waits, `seen` has been visited. -/
def reach (code : List Byte) : Nat → List Nat → List Nat → List Nat
  | 0, _, seen => seen
  | _, [], seen => seen
  | k + 1, pc :: todo, seen =>
    if seen.contains pc || code.length < pc + 16 then reach code k todo seen
    else reach code k (successors code pc ++ todo) (pc :: seen)

/-- Words of a code image that control reaches from some entries. -/
def reachFrom (code : List Byte) (entries : List Nat) : List Nat := reach code (3 * (code.length / 16) + 3 + entries.length) entries []

/-- Offset in the code region of a word's record, by the stream's initial base registers. -/
def recordAt (i : StreamInit) (base : Nat) (code : List Byte) (pc : Nat) : Nat :=
  let w := fld code pc 4
  nat64 ((i.ab.getD (w / 2 ^ 24 % 16) 0#64).toNat + 32 * (w % 2 ^ 24) + 2 ^ 64 - base)

/-- What a word of a region image is: an instruction of an opcode, or a quarter of its record. -/
inductive WordUse where
  | instr (op : Nat)
  | quarter (op q : Nat)
  deriving DecidableEq, Repr

/-- A code image with the words that one stream runs in it and the base registers its records are named by. -/
structure CodeUse where
  region : Nat
  base : Nat
  code : List Byte
  pcs : List Nat
  init : StreamInit
  deriving DecidableEq, Repr

/-- What a stream runs in the images of a region from some entries. -/
def codeUses (rs : List Region) (imgs : List (Nat × List Byte)) (region : Nat) (entries : List Nat) (i : StreamInit) : List CodeUse :=
  (imgs.filter (fun e => e.1 == region)).map (fun e => ⟨region, ((rs[region]?).map (·.base)).getD 0, e.2, reachFrom e.2 entries, i⟩)

/-- Words of the ranges that the RCALLs of a stream name (R142, R295): the record at the word's SREF. -/
def rcallWords (u : CodeUse) : List Nat :=
  (u.pcs.filter (fun pc => opAt u.code pc == 0x03)).flatMap (fun pc =>
    let r := RcallRec.ofBytes (u.code.drop (recordAt u.init u.base u.code pc))
    (List.range r.count.toNat).map (fun k => r.code.toNat + 16 * k))

/-- Everything the streams of one array run: each from its entry in its own code region, and B the ranges of its RCALLs in F's (R142, R256). -/
def CtxRecord.uses (c : CtxRecord) (rs : List Region) (imgs : List (Nat × List Byte)) : List CodeUse :=
  let b := codeUses rs imgs c.b.region [c.b.entry] c.b
  codeUses rs imgs c.f.region [c.f.entry] c.f ++ b ++ codeUses rs imgs c.u.region [c.u.entry] c.u ++
    codeUses rs imgs c.f.region (b.flatMap rcallWords) c.b

/-- Uses of the word at `site` of a code image: an instruction of the stream, or a quarter of the record of one, 64 or 128 bytes long (R287). -/
def CodeUse.at_ (u : CodeUse) (site : Nat) : List WordUse :=
  u.pcs.flatMap (fun pc =>
    let op := opAt u.code pc
    let r := recordAt u.init u.base u.code pc
    (if pc == site then [.instr op] else []) ++
      (if r ≤ site && site < r + recordLen op && (site - r) % 16 == 0 then [.quarter op ((site - r) / 16)] else []))

/-- Uses of the word at `site` of region `region`, over every stream (base registers as relocated). -/
def wordUses (rs : List Region) (imgs : List (Nat × List Byte)) (ctxs : List CtxRecord) (region site : Nat) : List WordUse :=
  ((ctxs.flatMap (fun c => c.uses rs imgs)).filter (fun u => u.region == region)).flatMap (fun u => u.at_ site)

/-- Whether bits [lo, lo + w) lie inside one patchable field of a use. -/
def WordUse.allows (u : WordUse) (lo w : Nat) : Bool :=
  match u with
  | .instr op => (wordFields op).any (fun f => f.1 ≤ lo && lo + w ≤ f.2 + 1)
  | .quarter op q => (recordFields op).any (fun f => 8 * f.1 ≤ 128 * q + lo && 128 * q + lo + w ≤ 8 * (f.1 + f.2))

/-- Opcodes that have a record. -/
def recordOpcodes : List Nat := (List.range 256).filter (fun op => opcodeKnown op && recordLen op != 0)

/-- Whether bits of a word no stream reaches are patchable under some reading of it: as the instruction whose opcode it holds, or as a quarter of some record (R289). -/
def readableAs (op lo w : Nat) : Bool :=
  (opcodeKnown op && (WordUse.instr op).allows lo w) ||
    recordOpcodes.any (fun o => (List.range 8).any (fun q => (WordUse.quarter o q).allows lo w))

/-- Whether a patch names a field that R281 and R289 let it change. The loader's way to tell instruction words, record quarters and data of a code region apart is not stated: of the readings of a word that no stream reaches from its entry, `free` decides (log 43). -/
def PatchRec.fieldOk (p : PatchRec) (rs : List Region) (imgs : List (Nat × List Byte)) (ctxs : List CtxRecord) (free : Bool) : Bool :=
  if p.region == 0xFFFF then
    p.site % 32 == 0 && p.site / 32 < rs.length && (p.bitLo + p.width ≤ 64 || 64 ≤ p.bitLo)
  else if !(rs[p.region]?).any (fun r => r.kind == 1) then false
  else match wordUses rs imgs ctxs p.region p.site with
    | [] => free && imgs.any (fun e => e.1 == p.region && readableAs (opAt e.2 p.site) p.bitLo p.width)
    | us => us.all (fun u => u.allows p.bitLo p.width)

/-- Whether a patch record is accepted for N arrays (R280). -/
def PatchRec.ok (p : PatchRec) (n : Nat) (rs : List Region) (imgs : List (Nat × List Byte)) (ctxs : List CtxRecord) (free : Bool) : Bool :=
  1 ≤ p.width && p.width ≤ 64 && p.bitLo + p.width ≤ 128 && 0 ≤ p.value n && p.value n < 2 ^ p.width &&
    (p.region == 0xFFFF || imgs.any (fun e => e.1 == p.region && p.site + 16 ≤ e.2.length)) && p.fieldOk rs imgs ctxs free

/-- Writes a value into a field of a 128-bit word of a byte list. -/
def PatchRec.write (p : PatchRec) (v : Nat) (bs : List Byte) : List Byte :=
  if bs.length < p.site + 16 then bs
  else
    let w := fld bs p.site 16
    let hi := p.bitLo + p.width
    patchBytes bs p.site (leBytes 16 (w / 2 ^ hi * 2 ^ hi + v * 2 ^ p.bitLo + w % 2 ^ p.bitLo))

/-- Applies a patch record to the region table and the region images. -/
def PatchRec.apply (p : PatchRec) (n : Nat) (x : List Byte × List (Nat × List Byte)) : List Byte × List (Nat × List Byte) :=
  let v := (p.value n).toNat
  if p.region == 0xFFFF then (p.write v x.1, x.2)
  else (x.1, x.2.map (fun e => if e.1 == p.region then (e.1, p.write v e.2) else e))

/-- Whether an opcode is a mask instruction's. -/
def isMaskOpcode (op : Nat) : Bool := 0x50 ≤ op && op ≤ 0x56

/-- Whether a mask instruction is found in a P-form image (R281): one that a stream reaches is; `free` decides for a word of a code region that no stream reaches and that holds such an opcode (log 43). -/
def hasMaskOp (rs : List Region) (imgs : List (Nat × List Byte)) (ctxs : List CtxRecord) (free : Bool) : Bool :=
  (ctxs.flatMap (fun c => c.uses rs imgs)).any (fun u => u.pcs.any (fun pc => isMaskOpcode (opAt u.code pc))) ||
    (imgs.any (fun e => (rs[e.1]?).any (fun r => r.kind == 1) &&
      (List.range (e.2.length / 16)).any (fun k => isMaskOpcode (opAt e.2 (16 * k)) && (wordUses rs imgs ctxs e.1 (16 * k)).isEmpty)) && free)

/-! ### LOAD_IMAGE's checks (R399) -/

/-- The program digest: the covered bytes and the load record (R373). -/
def programDigest (r : RawImage) (n : Nat) (g : Grade) (version : Nat) : List Byte :=
  sha256 (r.covered ++ leBytes 2 n ++ [BitVec.ofNat 8 (Grade.code g), BitVec.ofNat 8 (bnat r.pForm)] ++ leBytes 2 version ++ zeros 10)

/-- Free bits that tell unclassified words, one for each patch record. -/
def State.patchFree (s : State) (i : Nat) : Bool := (Config.freeWord (s.freeCtr + i)).getLsbD 0

/-- Row 7 of R399. -/
def State.patchErr (s : State) (r : RawImage) (n : Nat) (rs : List Region) (imgs : List (Nat × List Byte)) (ctxs : List (List Byte)) (ps : List PatchRec) : Option LoadErr :=
  if !r.pForm then none
  else
    let placed := ((relocated rs imgs ctxs (readRelocs ((r.one 3).getD []))).map (·.2)).getD ctxs
    let cs := placed.map readCtx
    firstErr [
      errIf (hasMaskOp rs imgs cs (s.patchFree ps.length)) 0x05 4,
      (ps.zipIdx.find? (fun (p, i) => !p.ok n rs imgs cs (s.patchFree i))).map (fun x => loadErr 0x05 x.2)]

/-- The image, or why it is refused: the rows of R399 from row 2 on. -/
def State.checkImage (s : State) (addr : Nat) (bs : List Byte) : Except LoadErr Image :=
  match readImage bs with
  | none => .error (loadErr 0x01 0)
  | some r =>
    let n := s.imageN r
    let table := (r.one 1).getD []
    let rs := regionsFor r.pForm n (readRegions table)
    let imgs := (r.all 2).map (fun b => (fld b 0 2, b.drop 2))
    let ctxs := r.all 8
    let ps := readPatches ((r.one 4).getD [])
    let rl := readRelocs ((r.one 3).getD [])
    let cs := readCtxTable ((r.one 6).getD [])
    let pd := (r.one 7).bind (fun b => readPairing b n)
    let early := firstErr [
      errIf (fld bs 4 1 != 1) 0x05 0,
      errIf (!s.signatureOk r) 0x03 15,
      errIf (!s.formOk r) 0x05 0]
    let late := early.orElse (fun _ => firstErr [
      s.declErr rs (r.one 5),
      s.patchErr r n rs imgs ctxs ps,
      contentsErr s.dev.grade r.pForm n table rs (r.all 2) ctxs,
      s.ctxTableErr cs,
      s.pairingErr rs (r.one 7) pd,
      errIf (relocated rs imgs ctxs rl).isNone 0x10 3])
    match late, (r.one 5).bind readDecl with
    | some e, _ => .error e
    | none, none => .error (loadErr 0x05 5)
    | none, some d =>
      let (table, imgs) := ps.foldl (fun x p => p.apply n x) (table, imgs)
      .ok {
        hostAddr := addr, len := bs.length, sha := beNat (sha256 bs), pForm := r.pForm, n := n
        regions := regionsFor r.pForm n (readRegions table), images := imgs, relocs := rl, decl := d, ctxTable := cs, pairing := pd, contexts := ctxs
        digest := programDigest r n s.dev.grade s.host.version }

end Sys2Proof.Machine
end

