-- ==== Sys2Proof/Machine/Sage.lean ====
section
/-! DEFINITION. Sage's checks before a command, ownership, images, ring membership, pairs, the event queue and FAULT_CLEAR (R311, R332, R342, R382 to R401, R436, R441, R456). -/

namespace Sys2Proof.Machine

/-! ### The checks before a command (R382, R385, R451) -/

/-- Sage takes commands: boot is complete, or the module is in recovery, and no firmware hands over (R449, R451, R460). -/
def State.sageUp (s : State) : Bool := s.powered && (s.host.bootDone || s.host.recovery) && s.activating.isNone

/-- Opcodes that the boot ROM's interpreter accepts (R451). -/
def recoveryOps : List Nat := [0x01, 0x02, 0x50, 0x51]

/-- Opcodes that change the module state or would become pending: answered STATE while a command is pending; an OPEN decides for itself, and STOP is always carried out (R385). -/
def exclusiveOps : List Nat := [0x03, 0x10, 0x12, 0x13, 0x20, 0x21, 0x22, 0x30, 0x31, 0x40, 0x41, 0x50, 0x51]

/-- A command is pending, or an accepted RESUME waits for what is in flight. -/
def State.busy (s : State) : Bool := s.host.pendingCmd.isSome || s.host.restart.isSome

/-- An answer of STATE. -/
def State.replyState (s : State) (c : CmdHdr) (op : Nat) : State := s.reply c op Status.state 0 0 []

/-- Rows 2 to 5 of R382 and R385, then the command. `ok`: its parameters are in range; `legal`: the states it is legal in. -/
def State.command (s : State) (op : Nat) (c : CmdHdr) (ok : Bool) (legal : List ModState) (act : State → State) : State :=
  if !s.sageUp then s
  else if c.replyAddr % 64 != 0 then s.postEvent 0x01 0 s.ring.addr 0
  else if !ok then s.refuse c op 0x01 0
  else if s.host.recovery && !recoveryOps.contains op then s.replyState c op
  else if !legal.contains s.host.st then s.replyState c op
  else if s.busy && exclusiveOps.contains op then s.replyState c op
  else act s

/-- Every module state. -/
def allStates : List ModState := [.unopened, .opened, .loaded, .ready, .running, .held, .stopped]

/-- Every state but UNOPENED. -/
def openedStates : List ModState := [.opened, .loaded, .ready, .running, .held, .stopped]

/-- Sets the module state. -/
def State.setSt (s : State) (st : ModState) : State := { s with host := { s.host with st := st } }

/-! ### IDENTIFY (R390) -/

/-- Version of the running firmware; 0 in recovery (R451). -/
def State.fwVersion (s : State) : Nat := if s.host.recovery then 0 else (s.dev.slot s.host.runB).version

/-- Program digest of the committed image, or zero. -/
def State.digestOrZero (s : State) : List Byte := if s.host.committed then s.host.program else zeros 32

/-- The 64 bytes of R390. -/
def State.identity (s : State) : List Byte :=
  leBytes 8 s.dev.serial ++ [BitVec.ofNat 8 (Grade.code s.dev.grade), BitVec.ofNat 8 (Stepping.code s.dev.stepping)] ++ leBytes 2 s.dev.grade.arrays ++
    leBytes 2 s.ifRange.1 ++ leBytes 2 s.ifRange.2 ++ leBytes 2 s.host.version ++
    [BitVec.ofNat 8 s.host.st.code,
     BitVec.ofNat 8 (bnat s.host.owner.isSome + 2 * bnat s.mir.paired + 4 * bnat s.mir.survivor + 8 * bnat s.mir.fenced)] ++
    leBytes 2 s.ring.addr ++ zeros 2 ++ leBytes 8 s.fwVersion ++ s.digestOrZero

/-- Sage carries out IDENTIFY. -/
def State.cmdIdentify (c : CmdHdr) (s : State) : State :=
  s.command 0x01 c true allStates (fun s => s.reply c 0x01 Status.done 0 0 s.identity)

/-- IDENTIFY (R390). -/
def execIdentify (c : CmdHdr) (s : State) : Host.Outcome State Fault Refusal := .next (s.cmdIdentify c)

/-! ### Leaving ring and pair (R311, R332, R388) -/

/-- The module is in no ring and no pair: Bays THROUGH, address 0 of a torus of one, master of a ring of one (R234, R311, R332). -/
def State.leaveAll (s : State) : State :=
  let s := s.setBays false false false
  let s := { s with
    ring := { s.ring with addr := 0, xn := 1, yn := 1, joined := false, gone := [], ctxs := s.ring.ctxs.filter (fun (e : Nat × CtxEntry) => e.2.st != CtxState.service) }
    mir := { s.mir with
      paired := false, twin := 0, twinNo := 0, survivor := false, refillPtr := none, refillDone := false, closing := false, entryStep := none, inbox := []
      service := none, passOwn := false, passTwin := false } }
  (s.modThy (fun t => { t with
    holds := [], levels := [], reqRates := [], rateNext := [], adopt := false, phaseLost := false, backup := false
    carry := List.replicate 4 none })).becomeMaster

/-- A planned Bay change in a command, refused while a job whose traffic crosses the hops runs (R334). The code of the refusal is not given: VERSION (DESIGN CHOICE, log 99). -/
def State.baysFor (s : State) (c : CmdHdr) (op : Nat) (x y m : Bool) (act : State → State) : State :=
  if s.hopsBusy x y m then (s.used 1).refuse c op 0x05 0 else act (s.used 1)

/-- Sage carries out LEAVE_RING. -/
def State.cmdLeaveRing (c : CmdHdr) (s : State) : State :=
  s.command 0x42 c true [.opened, .loaded, .ready, .stopped] (fun s =>
    s.baysFor c 0x42 false false false (fun s => s.leaveAll.replyDone c 0x42))

/-- LEAVE_RING (R332, R389). -/
def execLeaveRing (c : CmdHdr) (s : State) : Host.Outcome State Fault Refusal := .next (s.cmdLeaveRing c)

/-! ### UNLOAD (R327, R389, R427) -/

/-- What a program leaves in an array goes with its image: streams, queues, units, deferred tiles (R427); function tables and unit values stay. -/
def ArrayState.unloaded (a : ArrayState) : ArrayState :=
  { a.emptied.undefine with f := StreamCtx.reset, b := StreamCtx.reset, u := StreamCtx.reset, accRegions := [], stopped := false }

/-- The image is unloaded: its contexts are FREE, its regions gone; SERVICE entries are Sage's own. No step is under way any more, so arrays that wait are given their spares, and the next image reloads the module (R16). -/
def State.unloadImage (s : State) : State :=
  let s := s.emptyQueues.settleSubst
  { s with
    arrays := s.arrays.map ArrayState.unloaded
    tiers := { s.tiers with regions := [] }
    ring := { s.ring with ctxs := s.ring.ctxs.filter (fun e => e.2.st == .service), members := 0, jobId := 0, domains := [] }
    mir := { s.mir with desc := none, gens := [], divStep := none, replayed := [], diverged := false, degraded := false, passOwn := false, passTwin := false }
    stp := { s.stp with started := false, nextBase := none, past := [] }
    host := { s.host with image := none, committed := false, program := zeros 32, holdStep := none, restart := none, reload := false } }

/-- Sage carries out UNLOAD. -/
def State.cmdUnload (c : CmdHdr) (s : State) : State :=
  s.command 0x13 c true [.loaded, .ready, .stopped] (fun s => (s.unloadImage.setSt .opened).replyDone c 0x13)

/-- UNLOAD: the image goes, the state is OPENED (R389). -/
def execUnload (c : CmdHdr) (s : State) : Host.Outcome State Fault Refusal := .next (s.cmdUnload c)

/-! ### CLOSE (R388, R444, R456) -/

/-- The actions of CLOSE in the order of R388; the job counters, require_signed and the session key are cleared too, which is a configuration write by Sage (R417). -/
def State.closeActions (s : State) : State :=
  let s := s.unloadImage
  let s := ({ s with ring := { s.ring with ctxs := [] } }).leaveAll
  let s := { s with
    mem := []
    tiers := { s.tiers with bad := [], nearBad := [], soft := [], nearSoft := [], records := [] }
    arrays := s.arrays.map (fun (_ : ArrayState) => ArrayState.reset)
    mask := { s.mask with weights := [] }
    stp := ⟨false, 0, 0, none, [], 0, 0, 0, false, f32one⟩
    host := { s.host with owner := none, version := 0, faultMode := 0, requireSigned := false, st := .unopened } }
  let s := s.setRw Reg.UPD_TCOUNT 0#32
  let s := (List.range 8).foldl (fun (s : State) i => s.setRw (Reg.SEC_SESSION_KEY0 + 4 * i) 0#32) s
  let s := s.setReg Reg.SEC_POLICY 0#32
  s.crcStale.clearJobCounters

/-- Sage carries out CLOSE. The fill's time is not modelled. -/
def State.cmdClose (c : CmdHdr) (s : State) : State :=
  s.command 0x03 c true [.opened, .loaded, .ready, .held, .stopped] (fun s => s.closeActions.replyBoth c 0x03 Status.done 0 0 [])

/-- CLOSE (R388). -/
def execClose (c : CmdHdr) (s : State) : Host.Outcome State Fault Refusal := .next (s.cmdClose c)

/-! ### STOP (R385, R389) -/

/-- The module stops at the host's word: no stream issues, a pending HOLD or a waiting RESUME is answered STATE, what is in flight completes. -/
def State.hostStop (s : State) : State :=
  let s := if s.pendingIs 0x21 then s.finalReply Status.state 0 0 [] else s
  let s := match s.host.restart with
    | some r => match r.hdr with
      | some c => s.replyState c 0x22
      | none => s
    | none => s
  { s with flt := { s.flt with stopped := true, stopAsked := false }, host := { s.host with st := .stopped, holdStep := none, restart := none } }

/-- Sage carries out STOP. -/
def State.cmdStop (c : CmdHdr) (s : State) : State := s.command 0x23 c true [.running, .held] (fun s => s.hostStop.replyDone c 0x23)

/-- STOP (R389). -/
def execStop (c : CmdHdr) (s : State) : Host.Outcome State Fault Refusal := .next (s.cmdStop c)

/-! ### OPEN (R387, R391) -/

/-- The version a negotiation reaches, if any. -/
def State.negotiate (s : State) (hostMax hostMin : Nat) : Option Nat :=
  let v := min hostMax s.ifRange.1
  if v < hostMin || v < s.ifRange.2 then none else some v

/-- A new owner. -/
def State.takeOwner (s : State) (owner version mode : Nat) : State :=
  { s with host := { s.host with owner := some owner, version := version, faultMode := mode, st := .opened } }

/-- The caller's OPEN, once its parameters are in range (R387). -/
def State.openAs (s : State) (c : CmdHdr) (hostMax hostMin mode : Nat) (takeover : Bool) (owner : Nat) : State :=
  let fresh := s.host.st == .unopened
  let same := s.host.owner == some owner
  if !fresh && !same && !takeover then s.reply c 0x02 Status.owner 0 0 []
  else if s.busy && !same then s.replyState c 0x02
  else match s.negotiate hostMax hostMin with
    | none => s.refuse c 0x02 0x05 0
    | some v =>
      if fresh then (s.takeOwner owner v mode).reply c 0x02 Status.done 0 0 (leBytes 2 v)
      else if same then
        if s.host.st != .opened && v != s.host.version then s.refuse c 0x02 0x05 0
        else ({ s with host := { s.host with version := v, faultMode := mode } }).reply c 0x02 Status.done 0 0 (leBytes 2 v)
      else
        let s := if s.host.st == .running || s.host.st == .held then s.hostStop else s
        (s.closeActions.takeOwner owner v mode).replyBoth c 0x02 Status.done 0 0 (leBytes 2 v)

/-- Sage carries out OPEN. -/
def State.cmdOpen (c : CmdHdr) (hostMax hostMin mode : Nat) (takeover : Bool) (owner : Nat) (s : State) : State :=
  s.command 0x02 c (mode ≤ 1 && owner != 0) allStates (fun s => s.openAs c hostMax hostMin mode takeover owner)

/-- OPEN (R387, R391). -/
def execOpenCmd (c : CmdHdr) (hostMax hostMin : BitVec 16) (faultMode : BitVec 8) (takeover : Bool) (owner : BitVec 64) (s : State) : Host.Outcome State Fault Refusal :=
  .next (s.cmdOpen c hostMax.toNat hostMin.toNat faultMode.toNat takeover owner.toNat)

/-! ### LOAD_IMAGE, PATCH, COMMIT_IMAGE (R399 to R401) -/

/-- Whether a read of host memory completes: the link is up and the range lies in the host's 64-bit address space. One that leaves it ends in a PCIe error (R384; DESIGN CHOICE, log 91). -/
def State.hostReachable (s : State) (a n : Nat) : Bool := s.hostLink && a + n ≤ 2 ^ 64

/-- Bytes of host memory. -/
def State.hostGet (s : State) (a n : Nat) : List Byte := memGet s.hostMem a n

/-- The ring contexts an image declares (R326, R327). -/
def State.declaredCtxs (s : State) (cs : List CtxDecl) : List (Nat × CtxEntry) :=
  cs.map (fun d => (d.index, ⟨.declared, d.partner, d.partnerCtx, d.port, d.anyOrder, [], [], [], s.period, s.period, false⟩))

/-- Sets every declared context of an image to DECLARED. -/
def State.declareCtxs (s : State) (cs : List CtxDecl) : State :=
  { s with ring := { s.ring with ctxs := s.ring.ctxs.filter (fun e => e.2.st == .service && cs.all (fun d => d.index != e.1)) ++ s.declaredCtxs cs } }

/-- Takes a checked image in: its region table, contexts, descriptor; the determinism counters begin at 0 (R210, R327, R343, R372). -/
def State.takeImage (s : State) (i : Image) : State :=
  let s := s.unloadImage
  let s := { s with
    host := { s.host with image := some i, st := .loaded }
    tiers := { s.tiers with regions := i.regions }
    mir := { s.mir with desc := i.pairing } }
  (s.declareCtxs i.ctxTable).clearRegs isDetCounter

/-- A refused image leaves the loaded state as it was; a latency mismatch is recorded (R367, R399). -/
def State.refuseImage (s : State) (c : CmdHdr) (e : LoadErr) : State :=
  let s := match e.mismatch with
    | some (id, v) => (s.setReg Reg.DET_MISMATCH_ID (BitVec.ofNat 32 id)).setReg Reg.DET_MISMATCH_VAL (BitVec.ofNat 32 v)
    | none => s
  s.replyBoth c 0x10 Status.refused e.code e.detail []

/-- Sage carries out LOAD_IMAGE. -/
def State.cmdLoadImage (c : CmdHdr) (addr len : Nat) (s : State) : State :=
  s.command 0x10 c true [.opened, .loaded, .ready] (fun s =>
    if !s.hostReachable addr len then s.replyBoth c 0x10 Status.transfer 0 0 []
    else if s.host.noSpare then s.replyBoth c 0x10 Status.refused 0x52 0 []
    else match s.checkImage addr (s.hostGet addr len) with
      | .error e => (s.used (len / 24 + 1)).refuseImage c e
      | .ok i => ((s.used (len / 24 + 1)).takeImage i).replyBoth c 0x10 Status.done 0 0 [])

/-- LOAD_IMAGE (R17, R399). -/
def execLoadImage (c : CmdHdr) (addr len : BitVec 64) (s : State) : Host.Outcome State Fault Refusal := .next (s.cmdLoadImage c addr.toNat len.toNat)

/-- An image with one region moved. -/
def Image.moved (i : Image) (k base : Nat) : Image := { i with regions := i.regions.modify k (fun (r : Region) => { r with base := base }) }

/-- Whether the image's relocations fit at its present bases (R398). -/
def Image.fits (i : Image) : Bool := (relocated i.regions i.images i.contexts i.relocs).isSome

/-- PATCH of a loaded image. An F-form image lets only regions of kinds 2 to 4 move; a region of kind 6 never moves (R400). -/
def State.patchImage (s : State) (c : CmdHdr) (k base : Nat) (i : Image) : State :=
  match i.regions[k]? with
  | none => s.refuse c 0x11 0x01 k
  | some r =>
    if r.kind == 6 || (!i.pForm && !(2 ≤ r.kind && r.kind ≤ 4)) then s.refuse c 0x11 0x01 k
    else
      let j := i.moved k base
      if !j.fits then s.refuse c 0x11 0x10 k
      else ({ s with host := { s.host with image := some j }, tiers := { s.tiers with regions := j.regions } }).replyDone c 0x11

/-- Sage carries out PATCH. -/
def State.cmdPatch (c : CmdHdr) (k base : Nat) (s : State) : State :=
  s.command 0x11 c true [.loaded] (fun s => match s.host.image with
    | none => s.replyState c 0x11
    | some i => s.patchImage c k base i)

/-- PATCH (R400). -/
def execPatch (c : CmdHdr) (region : BitVec 16) (base : BitVec 64) (s : State) : Host.Outcome State Fault Refusal :=
  .next (s.cmdPatch c region.toNat base.toNat)

/-- Writes zero over [a, a + n), with valid check bits (R214, R401). -/
def State.zeroFill (s : State) (a n : Nat) : State := ({ s with mem := memClear s.mem a n }).healed a n

/-- Step 3 of R401: regions of kinds 0, 2 and 5 are zero outside their images, and each image is in place; an entry that takes no region takes no image (R279). -/
def State.placeImages (s : State) (rs : List Region) (imgs : List (Nat × List Byte)) : State :=
  let s := rs.foldl (fun (s : State) r => if r.kind == 0 || r.kind == 2 || r.kind == 5 then s.zeroFill r.base r.size else s) s
  imgs.foldl (fun (s : State) e => match rs[e.1]? with
    | some r => if e.2.length ≤ r.size then s.putMem r.base e.2 else s
    | none => s) s

/-- A stream context from its record and its slot range (R255, R259). -/
def StreamInit.ctx (i : StreamInit) (lo n : Nat) : StreamCtx :=
  { StreamCtx.reset with pc := i.entry, sregs := i.s, abs := i.ab, ver := i.ver, codeRegion := some i.region, slotLo := lo, slotN := n }

/-- Accumulator regions of an array (R112): stream, first unit, number of units. -/
def accRegionsOf (rs : List Region) (n : Nat) : List (Stream × Nat × Nat) :=
  (rs.filter (fun r => r.kind == 6 && r.array == n)).flatMap (fun r => (allStreams.filter (fun t => r.users.testBit t.idx)).map (fun t => (t, r.base, r.size)))

/-- Loads one array's context record; function tables are cleared (R180). -/
def ArrayState.loadCtx (a : ArrayState) (rs : List Region) (n : Nat) (c : Option CtxRecord) : ArrayState :=
  let a := { a.unloaded with tables := List.replicate 16 ⟨none, none⟩, accRegions := accRegionsOf rs n }
  match c with
  | none => a
  | some c => { a with f := c.f.ctx 0 c.qF, b := c.b.ctx c.qF c.qB, u := c.u.ctx (c.qF + c.qB) c.qU }

/-- Steps 3 to 6 of R401; the job counters are cleared (R444). -/
def State.commitAs (s : State) (i : Image) (imgs : List (Nat × List Byte)) (ctxs : List (List Byte)) : State :=
  let s := s.placeImages i.regions imgs
  let cs := (ctxs.take i.n).map readCtx
  let s := { s with arrays := s.arrays.zipIdx.map (fun (x : ArrayState × Nat) => x.1.loadCtx i.regions x.2 cs[x.2]?) }
  let s := s.declareCtxs i.ctxTable
  let s := if i.decl.digestAddr == 0 then s else s.putMem i.decl.digestAddr i.digest
  ({ s with host := { s.host with committed := true, program := i.digest, st := .ready } }).clearJobCounters

/-- COMMIT_IMAGE of a loaded image (R401). -/
def State.commitImage (s : State) (c : CmdHdr) (i : Image) : State :=
  if !s.hostReachable i.hostAddr i.len then s.replyBoth c 0x12 Status.transfer 0 0 []
  else if beNat (sha256 (s.hostGet i.hostAddr i.len)) != i.sha then s.replyBoth c 0x12 Status.refused 0x03 0 []
  else match regionErr s.dev.grade i.pForm i.n i.regions with
    | some k => s.replyBoth c 0x12 Status.refused 0x10 k []
    | none => match relocated i.regions i.images i.contexts i.relocs with
      | none => s.replyBoth c 0x12 Status.refused 0x10 0 []
      | some (imgs, ctxs) => (s.commitAs i imgs ctxs).replyBoth c 0x12 Status.done 0 0 []

/-- Sage carries out COMMIT_IMAGE. -/
def State.cmdCommitImage (c : CmdHdr) (s : State) : State :=
  s.command 0x12 c true [.loaded] (fun s => match s.host.image with
    | none => s.replyState c 0x12
    | some i => s.commitImage c i)

/-- COMMIT_IMAGE (R401). -/
def execCommitImage (c : CmdHdr) (s : State) : Host.Outcome State Fault Refusal := .next (s.cmdCommitImage c)

/-! ### JOIN_RING and PAIR (R342, R396) -/

/-- A module that is its own master takes its new address as the master's; of hold levels and requested rates it knows its own alone (R238, R239, R245, R249). -/
def State.rename (s : State) (old addr : Nat) : State :=
  if s.thy.master then
    s.modThy (fun t => { t with
      masterAddr := addr, masterPrio := s.prio, levels := if t.levels.contains old then [addr] else [], reqRates := [(addr, s.rateReq)] })
  else s

/-- The four ring ports train, whether or not their Bays were ENGAGED before (R315, R396). -/
def State.trainRing (s : State) : State :=
  [0, 1, 2, 3].foldl (fun (s : State) p => if (s.port p).st == .training then s else s.trainPort p) s

/-- Sage carries out JOIN_RING: address and size, Bays ENGAGED; the reply waits for the ports and the ring's phase (R235, R334, R396). -/
def State.cmdJoinRing (c : CmdHdr) (addr xn yn : Nat) (s : State) : State :=
  let ok := 1 ≤ xn && xn ≤ 64 && 1 ≤ yn && yn ≤ 64 && addr / 256 < xn && addr % 256 < yn
  s.command 0x40 c ok [.opened, .loaded, .ready] (fun s => s.baysFor c 0x40 true true s.ring.bayM (fun s =>
    let old := s.ring.addr * 65536 + s.ring.xn * 256 + s.ring.yn
    let s := ({ s with ring := { s.ring with addr := addr, xn := xn, yn := yn } }).rename s.ring.addr addr
    ((s.setBays true true s.ring.bayM).trainRing.replyPending c 0x40 old).reparent.finishJoin))

/-- JOIN_RING (R396). -/
def execJoinRing (c : CmdHdr) (addr : BitVec 16) (xn yn : BitVec 8) (s : State) : Host.Outcome State Fault Refusal :=
  .next (s.cmdJoinRing c addr.toNat xn.toNat yn.toNat)

/-- The module is in a ring and its binary asks for a pair (R342). -/
def State.mayPair (s : State) : Bool := s.ring.joined && s.mir.desc.any (·.paired)

/-- PAIR in a state that allows it: the M Bay is ENGAGED and the port trains; the reply waits for it. -/
def State.pairWith (s : State) (c : CmdHdr) (twin : Nat) : State :=
  if !s.mayPair then s.replyBoth c 0x41 Status.refused 0x05 0 []
  else
    let s := (s.setBays s.ring.bayX s.ring.bayY true).replyPending c 0x41 twin
    let q := s.port 4
    if q.st == .up && q.far == twin then s.finishPair twin else s.modPort 4 (fun q => { q with st := .training })

/-- Sage carries out PAIR: in READY, or in HELD on a survivor. -/
def State.cmdPair (c : CmdHdr) (twin : Nat) (s : State) : State :=
  s.command 0x41 c true [.ready, .held] (fun s => if s.host.st == .held && !s.mir.survivor then s.replyState c 0x41 else s.pairWith c twin)

/-- PAIR (R342). -/
def execPair (c : CmdHdr) (twin : BitVec 16) (s : State) : Host.Outcome State Fault Refusal := .next (s.cmdPair c twin.toNat)

/-! ### EVENT_QUEUE and FAULT_CLEAR (R436, R441) -/

/-- Whether a buffer is one of R436. -/
def queueOk (addr n : Nat) : Bool := addr % 4096 == 0 && 64 ≤ n && n ≤ 65536 && 2 ^ Nat.log2 n == n

/-- The queue begins empty with sequence number 1; entries kept until now are written in order. -/
def State.setQueue (s : State) (addr n : Nat) : State :=
  let kept := s.flt.stash
  kept.foldl (fun (s : State) e => s.writeEntry e)
    { s with flt := { s.flt with eqAddr := some addr, eqSize := n, head := 0, tail := 0, seq := 0, stash := [] } }

/-- Sage carries out EVENT_QUEUE. -/
def State.cmdEventQueue (c : CmdHdr) (addr n : Nat) (s : State) : State :=
  s.command 0x70 c (queueOk addr n) openedStates (fun s => (s.setQueue addr n).replyDone c 0x70)

/-- EVENT_QUEUE (R436). -/
def execEventQueue (c : CmdHdr) (addr : BitVec 64) (entries : BitVec 32) (s : State) : Host.Outcome State Fault Refusal :=
  .next (s.cmdEventQueue c addr.toNat entries.toNat)

/-- Sage carries out FAULT_CLEAR: after PHASE_LOSS it waits for phase frames first (R441). -/
def State.cmdFaultClear (c : CmdHdr) (bits : Nat) (s : State) : State :=
  s.command 0x71 c true [.stopped] (fun s =>
    if s.thy.phaseLost && !s.thy.master then
      if s.busy then s.replyState c 0x71 else s.replyPending c 0x71 (bits + 4 * s.thy.sinceFrame)
    else (({ s with thy := { s.thy with phaseLost := false } }).clearFaults bits).replyDone c 0x71)

/-- FAULT_CLEAR (R441). -/
def execFaultClear (c : CmdHdr) (clearCounters clearBeacons : Bool) (s : State) : Host.Outcome State Fault Refusal :=
  .next (s.cmdFaultClear c (bnat clearCounters + 2 * bnat clearBeacons))

end Sys2Proof.Machine
end

