-- ==== Sys2Proof/Machine/Session.lean ====
section
/-! DEFINITION. START, HOLD, RESUME, SNAPSHOT and RESTORE (R267, R327, R350, R351, R392 to R395). -/

namespace Sys2Proof.Machine

/-! ### START (R392) -/

/-- The job's domains by their lower member (R330). Without a journal the job holds no pair (R343), and each member is a domain; otherwise which other members are higher twins of a pair no command tells: free bits (log 44). -/
def State.domainsOf (s : State) (members : List Nat) : List Nat :=
  let own := if s.mir.paired then max s.ring.addr s.mir.twin else 65536
  let known := fun a => a == s.ring.addr || (s.mir.paired && a == s.mir.twin)
  (members.zip (s.freeBytes members.length)).filterMap (fun (x : Nat × Byte) =>
    if x.1 == own then none
    else if known x.1 || !s.journaling || !x.2.getLsbD 0 then some x.1 else none)

/-- The job of START: member map, job id, domains (R330, R392). -/
def State.setJob (s : State) (a job : Nat) : State :=
  let (s, bs) := s.hostReads a 512
  let s := { s with ring := { s.ring with members := leNat bs, jobId := job } }
  let ms := s.memberAddrs
  ({ s with ring := { s.ring with domains := s.domainsOf ms } }).used ms.length

/-- A stream at START: mark base T0 and stream step s0 (R267); one without code stays idle. -/
def StreamCtx.started (c : StreamCtx) (t0 s0 : Nat) : StreamCtx :=
  { c with base := t0, step := s0, head := none, failed := false, st := if c.codeRegion.isSome then .running else .idle }

/-- An array at START. -/
def ArrayState.started (a : ArrayState) (t0 s0 : Nat) : ArrayState :=
  { a with f := a.f.started t0 s0, b := a.b.started t0 s0, u := a.u.started t0 s0, stopped := false }

/-- Sends OPEN for every DECLARED context (R327). -/
def State.openDeclared (s : State) : State :=
  (s.ring.ctxs.filter (fun c => c.2.st == .declared)).foldl (fun (s : State) c =>
    (s.modCtxE c.1 (fun e => { e with openSince := s.period })).toPartner c.1 c.2 c.2.port 4 0 0 0 []) s

/-- The program begins: streams, steps, the first entry records, RUNNING (R267, R350). -/
def State.beginRun (s : State) (t0 s0 : Nat) : State :=
  let s := { s with
    arrays := s.arrays.map (fun (a : ArrayState) => a.started t0 s0)
    stp := { s.stp with started := true, step := s0, base := t0, nextBase := none, past := [], since := s.period, t0 := t0, verdict := 0, verdictSat := false }
    flt := { s.flt with stopped := false, stopAsked := false, beaconSent := false, faultStreams := [] }
    ring := { s.ring with merges := s.ring.merges.map (fun (e : Merge) => { e with acted := false }) }
    thy := { s.thy with quiet := false, episodeFrozen := 0 }
    mir := { s.mir with gens := [], divStep := none, replayed := [], diverged := false, degraded := false, passOwn := false, passTwin := false }
    host := { s.host with st := .running, holdStep := none } }
  s.captureAll s0

/-- Why START is refused: T0 not ahead (R392), a configuration mismatch (R418), no spare array (R17), a member map the host's users bit does not reach. -/
def State.startRefusal (s : State) (t0 a : Nat) : Option Nat :=
  if t0 ≤ s.tick then some 0x05
  else if s.regs.crcBad then some 0x40
  else if s.host.noSpare then some 0x52
  else if !s.allowed a 512 hostUser .read false then some 0x01
  else none

/-- START, accepted. -/
def State.startRun (s : State) (c : CmdHdr) (t0 s0 job a : Nat) : State :=
  ((((s.setJob a job).beginRun t0 s0).replyPending c 0x20 0).openDeclared).settleStart

/-- Sage carries out START; a fenced module accepts none (R354). -/
def State.cmdStart (c : CmdHdr) (t0 s0 job a : Nat) (s : State) : State :=
  s.command 0x20 c true [.ready] (fun s =>
    if s.mir.fenced then s.replyState c 0x20
    else match s.startRefusal t0 a with
      | some e => s.refuse c 0x20 e 0
      | none => s.startRun c t0 s0 job a)

/-- START (R392). -/
def execStart (c : CmdHdr) (t0 : BitVec 64) (s0 : BitVec 48) (jobId : BitVec 32) (members : BitVec 64) (s : State) : Host.Outcome State Fault Refusal :=
  .next (s.cmdStart c t0.toNat s0.toNat jobId.toNat members.toNat)

/-! ### HOLD (R393) -/

/-- Sage carries out HOLD: no stream issues an instruction of step s_h, and the reply follows at the boundary. -/
def State.cmdHold (c : CmdHdr) (sh : Nat) (s : State) : State :=
  s.command 0x21 c true [.running] (fun s =>
    if sh ≤ s.stp.step then s.refuse c 0x21 0x05 0
    else
      let s := s.replyPending c 0x21 0
      { s with host := { s.host with holdStep := some sh } })

/-- HOLD (R393). -/
def execHold (c : CmdHdr) (sh : BitVec 48) (s : State) : Host.Outcome State Fault Refusal := .next (s.cmdHold c sh.toNat)

/-! ### RESUME (R351, R352, R354, R394, R418, R430) -/

/-- The answer to a RESUME that is not accepted: STATE (`none`) or a fault code. After a substitution inside a step the module goes on only once it has been reloaded, and with no spare left not at all (R16, R17, R441). -/
def State.resumeRefusal (s : State) (rollback : Bool) (step tr : Nat) : Option (Option Nat) :=
  if s.host.st == .ready && !(s.mir.paired && (s.reg Reg.MIR_STATUS).getLsbD 4 && rollback) then some none
  else if s.mir.fenced then some none
  else if s.regs.crcBad then some (some 0x40)
  else if s.host.noSpare || s.host.reload then some (some 0x52)
  else if s.host.st == .stopped && s.flt.unacked then some (some 0x05)
  else if tr < s.mir.readyTick then some (some 0x05)
  else if s.host.st == .ready then (if s.mir.entryStep == some step then none else some (some 0x05))
  else if !rollback then (if step == s.stp.step then none else some (some 0x05))
  else if (s.gen? step).isSome then none
  else some (some 0x05)

/-- Accepts a restart: it takes place once nothing is in flight (R351). -/
def State.acceptRestart (s : State) (r : Restart) : State := ({ s with host := { s.host with restart := some r } }).settleRestart

/-- Sage carries out RESUME. -/
def State.cmdResume (c : CmdHdr) (mode variant step tr : Nat) (s : State) : State :=
  s.command 0x22 c (mode ≤ 1 && variant ≤ 1) [.held, .stopped, .ready] (fun s =>
    match s.resumeRefusal (mode == 1) step tr with
    | some none => s.replyState c 0x22
    | some (some e) => s.refuse c 0x22 e 0
    | none => s.acceptRestart ⟨some c, mode == 1, variant == 1, step, tr⟩)

/-- RESUME (R394). -/
def execResume (c : CmdHdr) (mode variant : BitVec 8) (step : BitVec 48) (tr : BitVec 64) (s : State) : Host.Outcome State Fault Refusal :=
  .next (s.cmdResume c mode.toNat variant.toNat step.toNat tr.toNat)

/-! ### SNAPSHOT and RESTORE (R231, R395) -/

/-- Every dirty staged tile is written back (R231). -/
def State.writeBackAll (s : State) : State :=
  let n := (s.tiers.staged.filter (fun (t : Staged) => t.dirty)).length
  ({ s with tiers := { s.tiers with staged := s.tiers.staged.map (fun (t : Staged) => { t with dirty := false }) } }).bump64 Reg.TIR_WRITEBACK n

/-- The kind-4 region that a command names by its index. -/
def State.kind4 (s : State) (k : Nat) : Option Region := (s.tiers.regions[k]?).filter (fun r => r.kind == 4)

/-- SNAPSHOT in a named region: the record, or ALLOC_OVERFLOW where it does not fit. -/
def State.snapshotIn (s : State) (c : CmdHdr) (k : Nat) (r : Region) : State :=
  let s := s.writeBackAll
  let bs := (s.stateRecord false).bytes
  if r.size < bs.length then s.replyBoth c 0x30 Status.refused 0x10 k []
  else (s.putMem r.base bs).replyBoth c 0x30 Status.done 0 0 (leBytes 8 bs.length)

/-- Sage carries out SNAPSHOT. -/
def State.cmdSnapshot (c : CmdHdr) (k : Nat) (s : State) : State :=
  s.command 0x30 c true [.held] (fun s => match s.kind4 k with
    | none => s.refuse c 0x30 0x01 k
    | some r => s.snapshotIn c k r)

/-- SNAPSHOT (R395). -/
def execSnapshot (c : CmdHdr) (region : BitVec 16) (s : State) : Host.Outcome State Fault Refusal := .next (s.cmdSnapshot c region.toNat)

/-- RESTORE from a record: its program digest is the committed image's, or VERSION; then HELD at its step. -/
def State.restoreFrom (s : State) (c : CmdHdr) (r : Region) : State :=
  let (s, bs) := s.hostReads r.base r.size
  let rec' := recordOfBytes bs
  if rec'.digest != s.host.program then s.replyBoth c 0x31 Status.refused 0x05 0 []
  else
    let s := s.loadRecord rec'
    let s := { s with stp := { s.stp with started := true, since := s.period }, mir := { s.mir with gens := [] } }
    ((s.captureAll rec'.step).setSt .held).replyBoth c 0x31 Status.done 0 0 []

/-- Sage carries out RESTORE. -/
def State.cmdRestore (c : CmdHdr) (k : Nat) (s : State) : State :=
  s.command 0x31 c true [.ready] (fun s => match s.kind4 k with
    | none => s.refuse c 0x31 0x01 k
    | some r => s.restoreFrom c r)

/-- RESTORE (R395). -/
def execRestore (c : CmdHdr) (region : BitVec 16) (s : State) : Host.Outcome State Fault Refusal := .next (s.cmdRestore c region.toNat)

end Sys2Proof.Machine
end

