-- ==== Sys2Proof/Machine/Firmware.lean ====
section
/-! DEFINITION. Firmware slots and attestation (R453, R454, R457 to R465). -/

namespace Sys2Proof.Machine

/-! ### FW_LOAD (R457, R458) -/

/-- The slot that does not run: in recovery the one the boot record does not name (log 45). -/
def State.inactiveB (s : State) : Bool := if s.host.recovery then !s.dev.activeB else !s.host.runB

/-- Writes one firmware slot. -/
def Device.setSlot (d : Device) (b : Bool) (f : FwSlot) : Device := if b then { d with slotB := f } else { d with slotA := f }

/-- Row 2 of R458: magic, header version and lengths. -/
def fwFormat (bs : List Byte) : Bool :=
  fld bs 0 4 == 0x464E424D && fld bs 4 1 == 1 && bs.length == 128 + fld bs 24 4 + 776

/-- Row 3: the signature and a valid firmware key slot (R453, R454). -/
def State.fwSigned (s : State) (bs : List Byte) : Bool :=
  let blk := bs.drop (bs.length - 776)
  rsaVerify (bs.take (bs.length - 776)) blk && slotHolds s.dev.fwKeys s.dev.fwRevoked (keyHash blk)

/-- The slot an image fills. -/
def fwSlotOf (bs : List Byte) : FwSlot where
  present := true
  verified := true
  keyHash := keyHash (bs.drop (bs.length - 776))
  svn := fld bs 12 4
  version := fld bs 16 8
  ifMax := fld bs 8 2
  ifMin := fld bs 10 2
  imageHash := beNat (sha256 bs)

/-- Row 4: the svn counter and the negotiated version. -/
def State.fwVersionOk (s : State) (f : FwSlot) : Bool := s.dev.svnFuses ≤ f.svn && s.host.version ≤ f.ifMax && f.ifMin ≤ s.host.version

/-- Whether an FW_LOAD image is refused, with its fault code (R458). -/
def State.fwRefusal (s : State) (len : Nat) (bs : List Byte) : Option Nat :=
  if 2 ^ 24 < len || !fwFormat bs then some 0x01
  else if !s.fwSigned bs then some 0x03
  else if !s.fwVersionOk (fwSlotOf bs) then some 0x05
  else none

/-- Sage carries out FW_LOAD: the image goes into the inactive slot. -/
def State.cmdFwLoad (c : CmdHdr) (addr len : Nat) (s : State) : State :=
  s.command 0x50 c true openedStates (fun s =>
    let bs := if len ≤ 2 ^ 24 then s.hostGet addr len else []
    if !s.hostReachable addr len then s.replyBoth c 0x50 Status.transfer 0 0 []
    else match s.fwRefusal len bs with
    | some e => s.replyBoth c 0x50 Status.refused e 0 []
    | none => ({ s with dev := s.dev.setSlot s.inactiveB (fwSlotOf bs) }).replyBoth c 0x50 Status.done 0 0 [])

/-- FW_LOAD (R458). -/
def execFwLoad (c : CmdHdr) (addr len : BitVec 64) (s : State) : Host.Outcome State Fault Refusal := .next (s.cmdFwLoad c addr.toNat len.toNat)

/-! ### FW_ACTIVATE and activation (R459 to R462) -/

/-- The step boundary at which an activation takes place: at once outside RUNNING, the next boundary for s_a = 0 (R459). -/
def State.activationStep (s : State) (sa : Nat) : Nat := if s.host.st != .running then 0 else if sa == 0 then s.stp.step + 1 else sa

/-- Sage carries out FW_ACTIVATE; the command is pending until activation ends. -/
def State.cmdFwActivate (c : CmdHdr) (commit : Bool) (sa : Nat) (s : State) : State :=
  s.command 0x51 c true openedStates (fun s =>
    if s.host.st == .running && sa != 0 && sa ≤ s.stp.step then s.refuse c 0x51 0x05 0
    else if !s.dev.slotOk (s.dev.slot s.inactiveB) then s.refuse c 0x51 0x03 0
    else
      let k := s.activationStep sa
      let s := s.replyPending c 0x51 0
      { s with host := { s.host with fwPending := some (commit, k) } })

/-- FW_ACTIVATE (R459). -/
def execFwActivate (c : CmdHdr) (commitSvn : Bool) (step : BitVec 48) (s : State) : Host.Outcome State Fault Refusal :=
  .next (s.cmdFwActivate c commitSvn step.toNat)

/-- The boot record names the new slot, and the svn counter is burnt up to its image's (R460, R462). -/
def Device.activate (d : Device) (b commit : Bool) : Device :=
  { d with activeB := b, svnFuses := if commit then max d.svnFuses (min 64 (d.slot b).svn) else d.svnFuses }

/-! ### ATTEST (R463 to R465) -/

/-- A number of the OTP facts for a signed value. -/
def signedFact (v : Int) : Nat := (v % 65536).toNat

/-- The facts that the readable OTP words hold, then the calibration table in ascending id: each entry's factory value and range (R466) and its effective value (R467). -/
def State.otpFacts (s : State) : List Nat :=
  let d := s.dev
  [Grade.code d.grade, Stepping.code d.stepping, d.serial] ++ d.factoryMap ++ d.subst.flatMap (fun r => [r.1, r.2.1, r.2.2]) ++
    d.pkgSubst.flatMap (fun r => [r.1, r.2]) ++ d.fwKeys.map (fun k => k.getD 0) ++ d.progKeys.map (fun k => k.getD 0) ++
    d.fwRevoked.map bnat ++ d.progRevoked.map bnat ++ [d.svnFuses, bnat d.requireSignedFuse] ++ d.cert.map (·.toNat) ++
    (sortBy (fun (x y : CalEntry) => x.id ≤ y.id) d.calib).flatMap (fun e =>
      [e.id, signedFact e.f, signedFact e.lo, signedFact e.hi, signedFact (s.effective e)])

/-- The info string of R463. -/
def identityInfo : List Byte := "MBN-7220 identity".toList.map (fun c => BitVec.ofNat 8 c.toNat)

/-- The identity key: the 32 bytes HKDF-SHA-256 derives from the device secret, as a scalar of P-256 (R463). -/
def identityKey (secret : Nat) : Nat :=
  let k := beNat (hkdf32 (beBytes 32 secret) identityInfo)
  if 0 < k && k < p256N then k else Config.identityScalar secret

/-- State bits of a report. -/
def State.reportBits (s : State) : Nat :=
  s.host.st.code + 2 ^ 8 * bnat s.host.owner.isSome + 2 ^ 9 * bnat s.mir.paired + 2 ^ 10 * bnat s.mir.survivor + 2 ^ 11 * bnat s.mir.fenced +
    2 ^ 12 * bnat s.host.recovery + 2 ^ 13 * bnat s.mustSign + 2 ^ 14 * bnat s.host.runB

/-- Bytes 0 to 159 of a report. -/
def State.reportBody (s : State) (nonce : List Byte) : List Byte :=
  let f := s.dev.slot s.host.runB
  leBytes 2 1 ++ [BitVec.ofNat 8 (Grade.code s.dev.grade), BitVec.ofNat 8 (Stepping.code s.dev.stepping)] ++ leBytes 8 s.dev.serial ++
    leBytes 8 s.fwVersion ++ leBytes 4 (s.dev.svnFuses * 256 + f.svn % 256) ++ leBytes 4 s.reportBits ++ leBytes 4 s.cfgCrc.toNat ++ nonce ++
    beBytes 32 f.imageHash ++ s.digestOrZero ++ sha256 (Config.otpImage s.otpFacts)

/-- The 224 bytes of a report: body and signature. -/
def State.attestation (s : State) (nonce : List Byte) : List Byte :=
  let body := s.reportBody nonce
  body ++ ecdsaSign (identityKey Config.deviceSecret) (sha256 body)

/-- Sage carries out ATTEST. -/
def State.cmdAttest (c : CmdHdr) (nonce : List Byte) (s : State) : State :=
  s.command 0x60 c true openedStates (fun s => s.reply c 0x60 Status.done 0 0 (s.attestation nonce))

/-- ATTEST (R464). -/
def execAttest (c : CmdHdr) (nonce : BitVec 256) (s : State) : Host.Outcome State Fault Refusal := .next (s.cmdAttest c (leBytes 32 nonce.toNat))

end Sys2Proof.Machine
end

