-- ==== Sys2Proof/Machine/Recovery.lean ====
section
/-! DEFINITION. Automatic recovery (R442, R443). -/

namespace Sys2Proof.Machine

/-- The incident that stops the job: the earliest merge-table entry of this stop (R340). -/
def State.incident (s : State) : Option Merge :=
  (s.ring.merges.filter (fun e => e.acted)).foldl (fun (acc : Option Merge) e => match acc with
    | none => some e
    | some b => if e.first < b.first then some e else some b) none

/-- What recovery does: event outcome, step, degraded variant. -/
structure AutoPlan where
  outcome : Nat
  step : Nat
  degraded : Bool
  deriving DecidableEq, Repr

/-- Whether an incident's subject is a member of this module's own domain. -/
def State.ownDomain (s : State) (a : Nat) : Bool := a == s.ring.addr || (s.mir.paired && a == s.mir.twin)

/-- A divergence of this module's domain: outcome 1 replays, outcome 3 goes on degraded, outcome 4 leaves it to the host (R357). -/
def State.ownDivergence (s : State) (low : Nat) : Option AutoPlan :=
  let step := s.mir.divStep.getD low
  if s.mir.survivor then some ⟨2, step, true⟩
  else if s.mir.replayed.contains step then none
  else some ⟨1, step, s.mir.degraded⟩

/-- A divergence of another domain: its outcome and its MIR_DIV_STEP come over SERVICE contexts that no command carries: free values (log 46). -/
def State.otherDivergence (s : State) : Option AutoPlan :=
  let w := s.freeWord
  let step := (Config.freeWord (s.freeCtr + 1)).toNat
  if w.getLsbD 1 then none
  else if w.getLsbD 2 then some ⟨2, step, true⟩
  else some ⟨1, step, s.mir.degraded⟩

/-- Whether a subject of this module's own domain is a paired member with a live twin: a survivor's twin is not (R328, R442). -/
def State.liveTwin (s : State) (a : Nat) : Bool := s.mir.paired && !(s.mir.survivor && a == s.ring.addr)

/-- The action of R442 for an incident, with the lowest STP_STEP among members. Whether a member of another domain is paired with a live twin is a free bit (log 46). -/
def State.autoPlan (s : State) (e : Merge) (low : Nat) : Option AutoPlan :=
  if [0x12, 0x30, 0x31, 0x60].contains e.cls then some ⟨1, low, s.mir.degraded⟩
  else if [0x71, 0x50, 0x51, 0x52].contains e.cls then
    let live := if s.ownDomain e.subject then s.liveTwin e.subject else s.freeWord.getLsbD 0
    if live then some ⟨2, low, true⟩ else none
  else if e.cls == 0x80 then (if s.ownDomain e.subject then s.ownDivergence low else s.otherDivergence)
  else none

/-- The coordinator is the lowest member that is not the subject; a survivor's lost twin counts no more (R442). -/
def State.coordinates (s : State) (subject : Nat) : Bool :=
  ((s.memberAddrs.filter (fun a => a != subject && !(s.mir.survivor && a == s.mir.twin))).head?) == some s.ring.addr

/-- AUTO_RECOVERY as the coordinator posts it. -/
def State.postRecovery (s : State) (lead : Bool) (outcome step : Nat) : State :=
  if lead then s.postEvent 0xA6 outcome s.ring.addr (step % 2 ^ 32) else s

/-- Recovery is left to the host: the incident is handled, and the coordinator says so with outcome 0 (R442, R443). -/
def State.decline (s : State) (lead : Bool) : State :=
  ({ s with ring := { s.ring with merges := s.ring.merges.map (fun (x : Merge) => { x with acted := false }) } }).postRecovery lead 0 0

/-- Margin of FLT_AUTO_CTRL. -/
def State.autoMargin (s : State) : Nat := s.regN Reg.FLT_AUTO_CTRL / 65536

/-- Automatic rollbacks allowed per step. -/
def State.autoLimit (s : State) : Nat := s.regN Reg.FLT_AUTO_CTRL % 256

/-- Carries a plan out: the limit of R443, the acknowledgement that keeps the fault records (R442), RESUME with mode 1, and the coordinator's event. -/
def State.runPlan (s : State) (lead : Bool) (p : AutoPlan) (tr : Nat) : State :=
  let n := kvGet 0 s.flt.autoCounts p.step
  if s.autoLimit ≤ n then s.decline lead
  else
    let s := s.acknowledge
    match s.resumeRefusal true p.step tr with
    | some _ => s.decline lead
    | none =>
      let s := { s with flt := { s.flt with autoCounts := kvSet 0 s.flt.autoCounts p.step (n + 1) } }
      let s := (s.postRecovery lead p.outcome p.step).bump Reg.FLT_AUTO_COUNT (bnat lead)
      s.acceptRestart ⟨none, true, p.degraded, p.step, tr⟩

/-- Too few FREE entries for a SERVICE context to each other member (R328, R442; one each is a DESIGN CHOICE, log 46). -/
def State.noService (s : State) : Bool := 8192 - s.ring.ctxs.length < s.memberAddrs.length - 1

/-- AUTO_RECOVERY: what the members report (`steps`, `readyTicks`, and whether every member has fault_mode 1 and can be reached) decides; this module restarts with the job, and posts the event when it coordinates. -/
def execAutoRecovery (steps readyTicks : List Nat) (allSage : Bool) (s : State) : Host.Outcome State Fault Refusal :=
  if s.host.faultMode != 1 || s.host.st != .stopped || s.mir.fenced || s.busy || s.host.fwPending.isSome then .next s
  else match s.incident with
    | none => .next s
    | some e =>
      let lead := s.coordinates e.subject
      let low := steps.foldl min s.stp.step
      let tr := readyTicks.foldl max (max s.mir.readyTick s.tick) + s.autoMargin
      let plan := s.autoPlan e low
      let s := s.used 2
      if lead && s.noService then .next (s.exhausted.decline lead)
      else match if allSage then plan else none with
      | none => .next (s.decline lead)
      | some p => .next (s.runPlan lead p tr)

end Sys2Proof.Machine
end

