-- ==== Sys2Proof/Machine/Window.lean ====
section
/-! DEFINITION. The command window, packets, link resets, and the boot sequence that begins to take packets (R376, R379 to R382, R448 to R452). -/

namespace Sys2Proof.Machine

/-! ### Packets (R380, R382) -/

/-- Parameter fields of an opcode (R389, R441, R458, R459, R464): first byte, bytes, bits; none for an opcode that the table does not list. -/
def paramFields : Nat → Option (List (Nat × Nat × Nat))
  | 0x01 => some []
  | 0x02 => some [(16, 2, 16), (18, 2, 16), (20, 1, 8), (21, 1, 1), (24, 8, 64)]
  | 0x03 => some []
  | 0x10 => some [(16, 8, 64), (24, 8, 64)]
  | 0x11 => some [(16, 2, 16), (24, 8, 64)]
  | 0x12 => some []
  | 0x13 => some []
  | 0x20 => some [(16, 8, 64), (24, 6, 48), (32, 4, 32), (40, 8, 64)]
  | 0x21 => some [(24, 6, 48)]
  | 0x22 => some [(16, 1, 8), (17, 1, 8), (24, 6, 48), (32, 8, 64)]
  | 0x23 => some []
  | 0x30 => some [(16, 2, 16)]
  | 0x31 => some [(16, 2, 16)]
  | 0x40 => some [(16, 2, 16), (18, 1, 8), (19, 1, 8)]
  | 0x41 => some [(16, 2, 16)]
  | 0x42 => some []
  | 0x50 => some [(16, 8, 64), (24, 8, 64)]
  | 0x51 => some [(16, 1, 1), (24, 6, 48)]
  | 0x60 => some [(16, 32, 256)]
  | 0x70 => some [(16, 8, 64), (24, 4, 32)]
  | 0x71 => some [(16, 1, 2)]
  | _ => none

/-- Every byte of 16 to 247 is zero where no field lies, and at and beyond the packet's length; each field holds no more than its bits. -/
def paramsOk (p : List Byte) (len : Nat) (fs : List (Nat × Nat × Nat)) : Bool :=
  ((List.range 232).map (fun i => 16 + i)).all (fun i =>
    fld p i 1 == 0 || (i < len && fs.any (fun f => f.1 ≤ i && i < f.1 + f.2.1))) &&
  fs.all (fun f => fld p f.1 f.2.1 < 2 ^ f.2.2)

/-- The length of a packet. -/
def packetLen (p : List Byte) : Nat := fld p 248 2

/-- Row 1 of R382: length and CRC. -/
def sealOk (p : List Byte) : Bool :=
  let n := packetLen p
  16 ≤ n && n ≤ 248 && n % 8 == 0 && (crc32c (p.take n ++ sub p 248 4)).toNat == fld p 252 4

/-- The header of a packet. -/
def packetHdr (p : List Byte) : CmdHdr := ⟨(fld p 2 2).testBit 0, BitVec.ofNat 32 (fld p 4 4), fld p 8 8⟩

/-- The reserved bits of header and seal low are zero. -/
def headOk (p : List Byte) : Bool := fld p 2 2 < 2 && fld p 250 2 == 0

/-- Carries out the command of a packet whose form is right, with its parameters as R389 lays them out. -/
def State.carryOut (s : State) (c : CmdHdr) (op : Nat) (p : List Byte) : State :=
  match op with
  | 0x01 => s.cmdIdentify c
  | 0x02 => s.cmdOpen c (fld p 16 2) (fld p 18 2) (fld p 20 1) ((fld p 21 1).testBit 0) (fld p 24 8)
  | 0x03 => s.cmdClose c
  | 0x10 => s.cmdLoadImage c (fld p 16 8) (fld p 24 8)
  | 0x11 => s.cmdPatch c (fld p 16 2) (fld p 24 8)
  | 0x12 => s.cmdCommitImage c
  | 0x13 => s.cmdUnload c
  | 0x20 => s.cmdStart c (fld p 16 8) (fld p 24 6) (fld p 32 4) (fld p 40 8)
  | 0x21 => s.cmdHold c (fld p 24 6)
  | 0x22 => s.cmdResume c (fld p 16 1) (fld p 17 1) (fld p 24 6) (fld p 32 8)
  | 0x23 => s.cmdStop c
  | 0x30 => s.cmdSnapshot c (fld p 16 2)
  | 0x31 => s.cmdRestore c (fld p 16 2)
  | 0x40 => s.cmdJoinRing c (fld p 16 2) (fld p 18 1) (fld p 19 1)
  | 0x41 => s.cmdPair c (fld p 16 2)
  | 0x42 => s.cmdLeaveRing c
  | 0x50 => s.cmdFwLoad c (fld p 16 8) (fld p 24 8)
  | 0x51 => s.cmdFwActivate c ((fld p 16 1).testBit 0) (fld p 24 6)
  | 0x60 => s.cmdAttest c (sub p 16 32)
  | 0x70 => s.cmdEventQueue c (fld p 16 8) (fld p 24 4)
  | 0x71 => s.cmdFaultClear c (fld p 16 1 % 4)
  | _ => s.refuse c op 0x01 0

/-- Sage checks a packet and carries its command out (R382); the boot ROM answers every opcode but four with STATE (R451). -/
def State.takePacket (s : State) (slot : Nat) (p : List Byte) : State :=
  let c := packetHdr p
  let op := fld p 0 2
  if !sealOk p then (s.postEvent 0x02 0 s.ring.addr slot).bump Reg.HST_SEAL_ERR 1
  else if c.replyAddr % 64 != 0 then s.postEvent 0x01 0 s.ring.addr 0
  else if s.host.recovery && !([0x01, 0x02, 0x50, 0x51].contains op) then s.replyState c op
  else match paramFields op with
    | none => s.refuse c op 0x01 0
    | some fs => if headOk p && paramsOk p (packetLen p) fs then s.carryOut c op p else s.refuse c op 0x01 0

/-! ### The window (R379, R381) -/

/-- The bytes of a slot; an unwritten one reads zero. -/
def State.slotBytes (s : State) (i : Nat) : List Byte := ((s.host.slots.find? (fun e => e.1 == i)).map Prod.snd).getD (zeros 256)

/-- Writes the bytes of a slot. -/
def State.putSlot (s : State) (i : Nat) (bs : List Byte) : State :=
  { s with host := { s.host with slots := (i, bs) :: s.host.slots.filter (fun e => e.1 != i) } }

/-- Sage takes `n` visible packets in seal order; the seal high word of each is zero once it is read (R381). -/
def State.takeVisible : Nat → State → State
  | 0, s => s
  | n + 1, s =>
    if !s.sageUp then s
    else match s.host.visible with
      | [] => s
      | i :: rest =>
        let p := s.slotBytes i
        let s := s.putSlot i (p.take 252 ++ zeros 4)
        let s := { s with host := { s.host with visible := rest } }
        State.takeVisible n (s.takePacket i p)

/-- A body of 252 bytes. -/
def fullBody (body : List Byte) : List Byte := body.take 252 ++ zeros (252 - body.length)

/-- SEAL_WRITE: the body, and then the seal high word as the last write, into a slot of the command window (R381). -/
def execSealWrite (slot : Nat) (body : List (BitVec 8)) (sealWord : BitVec 32) (s : State) : Host.Outcome State Fault Refusal :=
  if !s.powered || 256 ≤ slot then .next s
  else if s.host.visible.contains slot then .next (s.bump Reg.HST_BUSY_WRITE 1)
  else
    let s := s.putSlot slot (fullBody body ++ leBytes 4 sealWord.toNat)
    if sealWord == 0#32 then .next s
    else
      let s := { s with host := { s.host with visible := s.host.visible ++ [slot] } }
      .next (s.takeVisible s.host.visible.length)

/-- LINK_RESET: link-down, hot reset, PERST# or FLR: the function's configuration, the command window, the MSI-X table and every packet not yet read go; a link-down is counted. `l` is what the link then trains to; an FLR leaves the link as it is (R375, R379, R446). -/
def execLinkReset (c : FnReset) (l : LinkTrain) (s : State) : Host.Outcome State Fault Refusal :=
  if !s.powered then .next s
  else
    let link := if c == .flr then s.host.pcie.link else l
    let s := { s with host := { s.host with slots := [], visible := [], msixTable := [], pcie := { Pcie.reset with link := link } } }
    .next (s.bump Reg.HST_LINK_DOWN (bnat (c == .linkDown)))

/-! ### Firmware activation (R460, R461) -/

/-- Packets sealed before are taken in seal order (R381, R460). -/
def State.takeSealed (s : State) : State := s.takeVisible s.host.visible.length

/-- FW_ACTIVATION: the new firmware is healthy; what was held during the handover is written, and packets are taken again; in recovery the module resets into it (R451, R460). -/
def execFwActivation (s : State) : Host.Outcome State Fault Refusal :=
  match s.activating with
  | none => .next s
  | some commit =>
    let b := s.inactiveB
    let s := { s with dev := s.dev.activate b commit, host := { s.host with runB := b, fwPending := none } }
    if s.host.recovery then .next ((s.finalReply Status.done 0 0 []).moduleReset true { Power.reset with trip := s.pwr.trip })
    else .next ((s.endHandover.event 0xA4 (s.stp.step % 2 ^ 32)).finalReply Status.done 0 0 []).takeSealed

/-- FW_HEALTH_TIMEOUT: the old slot runs on, fw_fallback is set, and the command is refused (R461). In recovery no old firmware runs, and nothing happens. -/
def execFwHealthTimeout (s : State) : Host.Outcome State Fault Refusal :=
  if s.activating.isNone || s.host.recovery then .next s
  else
    let s := { s with host := { s.host with fwPending := none } }
    .next ((s.endHandover.setBits Reg.SEC_STATUS 0x10).finalReply Status.refused 0x05 1 []).takeSealed


/-! ### Boot (R448 to R452) -/

/-- BOOT: the link trains, and the boot stages run to boot complete, to recovery, or stop at stage 0x01. `failed` are the positions that fail their self-test, `l` what the link trains to. Packets sealed before are then taken (R449). -/
def execBoot (failed : List Nat) (l : LinkTrain) (s : State) : Host.Outcome State Fault Refusal :=
  if !s.powered || s.host.bootDone || s.host.recovery || s.host.failReason != 0 then .next s
  else
  let s := { s with host := { s.host with pcie := { s.host.pcie with link := l } } }
  if !s.dev.otpReadable then .next { s with host := { s.host with stage := 1, failReason := 1 } }
  else
    let a := s.dev.activeB
    let s :=
      if s.dev.slotOk (s.dev.slot a) then s.bootFirmware a failed
      else if s.dev.slotOk (s.dev.slot (!a)) then s.bootFirmware (!a) failed
      else { s with host := { s.host with recovery := true, stage := 0x0E } }
    .next s.takeSealed

end Sys2Proof.Machine
end

