-- ==== Sys2Proof/Machine/Dispatch.lean ====
section
/-! DEFINITION. One arm per command: a direct call of its meaning, or a refusal by name. -/

namespace Sys2Proof.Machine

/-- The effect of one command on everything but the queue. -/
def exec (i : Instr) (s : State) : Host.Outcome State Fault Refusal :=
  match i with
  | .nop h => Sys2Proof.Machine.execNop h s
  | .endStream h => Sys2Proof.Machine.execEndStream h s
  | .stepb h b => Sys2Proof.Machine.execStepb h b s
  | .rcall h ref r => Sys2Proof.Machine.execRcall h ref r s
  | .setbase h b => Sys2Proof.Machine.execSetbase h b s
  | .setver h b => Sys2Proof.Machine.execSetver h b s
  | .br h b => Sys2Proof.Machine.execBr h b s
  | .beq h b => Sys2Proof.Machine.execBeq h b s
  | .bne h b => Sys2Proof.Machine.execBne h b s
  | .bltu h b => Sys2Proof.Machine.execBltu h b s
  | .blt h b => Sys2Proof.Machine.execBlt h b s
  | .sadd h b => Sys2Proof.Machine.execSadd h b s
  | .ssub h b => Sys2Proof.Machine.execSsub h b s
  | .smul h b => Sys2Proof.Machine.execSmul h b s
  | .sand h b => Sys2Proof.Machine.execSand h b s
  | .sor h b => Sys2Proof.Machine.execSor h b s
  | .sxor h b => Sys2Proof.Machine.execSxor h b s
  | .sshl h b => Sys2Proof.Machine.execSshl h b s
  | .sshr h b => Sys2Proof.Machine.execSshr h b s
  | .ssra h b => Sys2Proof.Machine.execSsra h b s
  | .sli h b => Sys2Proof.Machine.execSli h b s
  | .slih h b => Sys2Proof.Machine.execSlih h b s
  | .sld h b => Sys2Proof.Machine.execSld h b s
  | .sldRegisterWritten arr slot => Sys2Proof.Machine.execSldRegisterWritten arr slot s
  | .sst h b => Sys2Proof.Machine.execSst h b s
  | .mmf h b r => Sys2Proof.Machine.execMmf h b r s
  | .mmt h b r => Sys2Proof.Machine.execMmt h b r s
  | .mmg h b r => Sys2Proof.Machine.execMmg h b r s
  | .mmgCand h b r => Sys2Proof.Machine.execMmgCand h b r s
  | .preloadEnd arr slot => Sys2Proof.Machine.execPreloadEnd arr slot s
  | .segmentEnd arr slot => Sys2Proof.Machine.execSegmentEnd arr slot s
  | .totalsFinal arr slot => Sys2Proof.Machine.execTotalsFinal arr slot s
  | .ftqEntry arr => Sys2Proof.Machine.execFtqEntry arr s
  | .gbAddition arr => Sys2Proof.Machine.execGbAddition arr s
  | .redSum h b r => Sys2Proof.Machine.execRedSum h b r s
  | .redMax h b r => Sys2Proof.Machine.execRedMax h b r s
  | .redMin h b r => Sys2Proof.Machine.execRedMin h b r s
  | .redRetire arr slot => Sys2Proof.Machine.execRedRetire arr slot s
  | .vadd h b r => Sys2Proof.Machine.execVadd h b r s
  | .vsub h b r => Sys2Proof.Machine.execVsub h b r s
  | .vmul h b r => Sys2Proof.Machine.execVmul h b r s
  | .vfma h b r => Sys2Proof.Machine.execVfma h b r s
  | .vmax h b r => Sys2Proof.Machine.execVmax h b r s
  | .vmin h b r => Sys2Proof.Machine.execVmin h b r s
  | .vabs h b r => Sys2Proof.Machine.execVabs h b r s
  | .vneg h b r => Sys2Proof.Machine.execVneg h b r s
  | .vcvt h b r => Sys2Proof.Machine.execVcvt h b r s
  | .vfn h b r => Sys2Proof.Machine.execVfn h b r s
  | .vder h b r => Sys2Proof.Machine.execVder h b r s
  | .vectorPassStart arr => Sys2Proof.Machine.execVectorPassStart arr s
  | .vectorWriteLanded arr slot => Sys2Proof.Machine.execVectorWriteLanded arr slot s
  | .drain arr => Sys2Proof.Machine.execDrain arr s
  | .queueOverflow arr => Sys2Proof.Machine.execQueueOverflow arr s
  | .vtload h half slot image => Sys2Proof.Machine.execVtload h half slot image s
  | .dloadC h ref r => Sys2Proof.Machine.execDloadC h ref r s
  | .dloadD h ref r => Sys2Proof.Machine.execDloadD h ref r s
  | .dloadT h ref r => Sys2Proof.Machine.execDloadT h ref r s
  | .dbuild h ref r => Sys2Proof.Machine.execDbuild h ref r s
  | .dcopy h ref r => Sys2Proof.Machine.execDcopy h ref r s
  | .dadd h ref r => Sys2Proof.Machine.execDadd h ref r s
  | .dfill h ref r => Sys2Proof.Machine.execDfill h ref r s
  | .descriptorFetch arr stream => Sys2Proof.Machine.execDescriptorFetch arr stream s
  | .codecTile arr => Sys2Proof.Machine.execCodecTile arr s
  | .descriptorComplete arr => Sys2Proof.Machine.execDescriptorComplete arr s
  | .mbind h bind => Sys2Proof.Machine.execMbind h bind s
  | .mdec h wt count table => Sys2Proof.Machine.execMdec h wt count table s
  | .pruneG h wt t => Sys2Proof.Machine.execPruneG h wt t s
  | .pruneL h wt hmin d => Sys2Proof.Machine.execPruneL h wt hmin d s
  | .regrowM h wt ref r => Sys2Proof.Machine.execRegrowM h wt ref r s
  | .regrowR h wt seedReg g => Sys2Proof.Machine.execRegrowR h wt seedReg g s
  | .mcommit h wt tag => Sys2Proof.Machine.execMcommit h wt tag s
  | .mcommitAdopt h wt tag => Sys2Proof.Machine.execMcommitAdopt h wt tag s
  | .maskEngineStart => Sys2Proof.Machine.execMaskEngineStart s
  | .maskOpComplete => Sys2Proof.Machine.execMaskOpComplete s
  | .unrm h wt ref r => Sys2Proof.Machine.execUnrm h wt ref r s
  | .unrmFin h => Sys2Proof.Machine.execUnrmFin h s
  | .uchk h => Sys2Proof.Machine.execUchk h s
  | .uchkVerdict arr slot => Sys2Proof.Machine.execUchkVerdict arr slot s
  | .uverOpen h wt tag => Sys2Proof.Machine.execUverOpen h wt tag s
  | .upd h wt ref r => Sys2Proof.Machine.execUpd h wt ref r s
  | .updTile arr => Sys2Proof.Machine.execUpdTile arr s
  | .deferTimeout arr => Sys2Proof.Machine.execDeferTimeout arr s
  | .uverClose h wt => Sys2Proof.Machine.execUverClose h wt s
  | .uverCloseRetire arr slot => Sys2Proof.Machine.execUverCloseRetire arr slot s
  | .ctxAppend h ref r => Sys2Proof.Machine.execCtxAppend h ref r s
  | .ctxAdv h ref r => Sys2Proof.Machine.execCtxAdv h ref r s
  | .pstage h ref r => Sys2Proof.Machine.execPstage h ref r s
  | .placementTick => Sys2Proof.Machine.execPlacementTick s
  | .stagingComplete window obj => Sys2Proof.Machine.execStagingComplete window obj s
  | .stageHoldTimeout arr stream => Sys2Proof.Machine.execStageHoldTimeout arr stream s
  | .rsend h ref r => Sys2Proof.Machine.execRsend h ref r s
  | .rrecv h ref r => Sys2Proof.Machine.execRrecv h ref r s
  | .wcreq h b => Sys2Proof.Machine.execWcreq h b s
  | .wcset h b => Sys2Proof.Machine.execWcset h b s
  | .workCounterRequest counter => Sys2Proof.Machine.execWorkCounterRequest counter s
  | .digH h ref r => Sys2Proof.Machine.execDigH h ref r s
  | .digProv h ref r => Sys2Proof.Machine.execDigProv h ref r s
  | .dillEngineStart => Sys2Proof.Machine.execDillEngineStart s
  | .periodBoundary => Sys2Proof.Machine.execPeriodBoundary s
  | .phaseHoldLimit => Sys2Proof.Machine.execPhaseHoldLimit s
  | .moduleStepBoundary => Sys2Proof.Machine.execModuleStepBoundary s
  | .selftestComplete pos passed => Sys2Proof.Machine.execSelftestComplete pos passed s
  | .holdoverTimeout => Sys2Proof.Machine.execHoldoverTimeout s
  | .masterLostTimeout => Sys2Proof.Machine.execMasterLostTimeout s
  | .controllerWindow watts temps => Sys2Proof.Machine.execControllerWindow watts temps s
  | .junctionOvertemp => Sys2Proof.Machine.execJunctionOvertemp s
  | .leakDetected => Sys2Proof.Machine.execLeakDetected s
  | .railFault => Sys2Proof.Machine.execRailFault s
  | .inputOutOfRange => Sys2Proof.Machine.execInputOutOfRange s
  | .bodyWithdrawn => Sys2Proof.Machine.execBodyWithdrawn s
  | .powerOn => Sys2Proof.Machine.execPowerOn s
  | .rstNPulse => Sys2Proof.Machine.execRstNPulse s
  | .boot failed l => Sys2Proof.Machine.execBoot failed l s
  | .oscStable => Sys2Proof.Machine.execOscStable s
  | .linkReset c l => Sys2Proof.Machine.execLinkReset c l s
  | .secondBoundary => Sys2Proof.Machine.execSecondBoundary s
  | .ptpMessage m => Sys2Proof.Machine.execPtpMessage m s
  | .ptpSyncTimer announce => Sys2Proof.Machine.execPtpSyncTimer announce s
  | .dataFrame f => Sys2Proof.Machine.execDataFrame f s
  | .addingUnitApply ctx => Sys2Proof.Machine.execAddingUnitApply ctx s
  | .armFrame f => Sys2Proof.Machine.execArmFrame f s
  | .doneFrame f => Sys2Proof.Machine.execDoneFrame f s
  | .linkFrame f => Sys2Proof.Machine.execLinkFrame f s
  | .openFrame f => Sys2Proof.Machine.execOpenFrame f s
  | .closeFrame f => Sys2Proof.Machine.execCloseFrame f s
  | .phaseFrame f info => Sys2Proof.Machine.execPhaseFrame f info s
  | .holdOn f => Sys2Proof.Machine.execHoldOn f s
  | .holdOff f => Sys2Proof.Machine.execHoldOff f s
  | .rateMessage f => Sys2Proof.Machine.execRateMessage f s
  | .beaconFrame f => Sys2Proof.Machine.execBeaconFrame f s
  | .beaconHoldExpiry subject cls => Sys2Proof.Machine.execBeaconHoldExpiry subject cls s
  | .rebindFrame f => Sys2Proof.Machine.execRebindFrame f s
  | .trainFrame port farAddr lanes => Sys2Proof.Machine.execTrainFrame port farAddr lanes s
  | .normFrame f => Sys2Proof.Machine.execNormFrame f s
  | .creditFrame f => Sys2Proof.Machine.execCreditFrame f s
  | .frameForward typ f => Sys2Proof.Machine.execFrameForward typ f s
  | .ackTimer port => Sys2Proof.Machine.execAckTimer port s
  | .replayTimeout port => Sys2Proof.Machine.execReplayTimeout port s
  | .laneFailure port lane lockLost corrected uncorrectable => Sys2Proof.Machine.execLaneFailure port lane lockLost corrected uncorrectable s
  | .lightLoss port => Sys2Proof.Machine.execLightLoss port s
  | .breakTimeout port => Sys2Proof.Machine.execBreakTimeout port s
  | .ctxTimeout ctx => Sys2Proof.Machine.execCtxTimeout ctx s
  | .openTimeout ctx => Sys2Proof.Machine.execOpenTimeout ctx s
  | .journalBlockCopy addr step => Sys2Proof.Machine.execJournalBlockCopy addr step s
  | .refillCopyBlock => Sys2Proof.Machine.execRefillCopyBlock s
  | .packageCopyBlock correctable => Sys2Proof.Machine.execPackageCopyBlock correctable s
  | .crcScrub => Sys2Proof.Machine.execCrcScrub s
  | .rateWindowEnd => Sys2Proof.Machine.execRateWindowEnd s
  | .autoRecovery steps readyTicks allSage => Sys2Proof.Machine.execAutoRecovery steps readyTicks allSage s
  | .fwActivation => Sys2Proof.Machine.execFwActivation s
  | .fwHealthTimeout => Sys2Proof.Machine.execFwHealthTimeout s
  | .sealWrite slot body sealWord => Sys2Proof.Machine.execSealWrite slot body sealWord s
  | .identify c => Sys2Proof.Machine.execIdentify c s
  | .openCmd c hostMax hostMin faultMode takeover owner => Sys2Proof.Machine.execOpenCmd c hostMax hostMin faultMode takeover owner s
  | .close c => Sys2Proof.Machine.execClose c s
  | .loadImage c addr len => Sys2Proof.Machine.execLoadImage c addr len s
  | .patch c region base => Sys2Proof.Machine.execPatch c region base s
  | .commitImage c => Sys2Proof.Machine.execCommitImage c s
  | .unload c => Sys2Proof.Machine.execUnload c s
  | .start c t0 s0 jobId members => Sys2Proof.Machine.execStart c t0 s0 jobId members s
  | .hold c sh => Sys2Proof.Machine.execHold c sh s
  | .resume c mode variant step tr => Sys2Proof.Machine.execResume c mode variant step tr s
  | .stop c => Sys2Proof.Machine.execStop c s
  | .snapshot c region => Sys2Proof.Machine.execSnapshot c region s
  | .restore c region => Sys2Proof.Machine.execRestore c region s
  | .joinRing c addr xn yn => Sys2Proof.Machine.execJoinRing c addr xn yn s
  | .pair c twin => Sys2Proof.Machine.execPair c twin s
  | .leaveRing c => Sys2Proof.Machine.execLeaveRing c s
  | .fwLoad c addr len => Sys2Proof.Machine.execFwLoad c addr len s
  | .fwActivate c commitSvn step => Sys2Proof.Machine.execFwActivate c commitSvn step s
  | .attest c nonce => Sys2Proof.Machine.execAttest c nonce s
  | .eventQueue c addr entries => Sys2Proof.Machine.execEventQueue c addr entries s
  | .faultClear c clearCounters clearBeacons => Sys2Proof.Machine.execFaultClear c clearCounters clearBeacons s
  | .bar4Access write poisoned offset data => Sys2Proof.Machine.execBar4Access write poisoned offset data s
  | .registerWrite q offset w => Sys2Proof.Machine.execRegisterWrite q offset w s
  | .slLowRead q offset => Sys2Proof.Machine.execSlLowRead q offset s
  | .glbStrobe v => Sys2Proof.Machine.execGlbStrobe v s
  | .strobeCommit group blk => Sys2Proof.Machine.execStrobeCommit group blk s
  | .idleOnlyCommit group blk => Sys2Proof.Machine.execIdleOnlyCommit group blk s
  | .fltEqTail v => Sys2Proof.Machine.execFltEqTail v s
  | .thySnapCtrl v => Sys2Proof.Machine.execThySnapCtrl v s
  | .thyTodCtrl q compl v => Sys2Proof.Machine.execThyTodCtrl q compl v s
  | .thyPrio q compl v => Sys2Proof.Machine.execThyPrio q compl v s
  | .thyRateCap q compl v => Sys2Proof.Machine.execThyRateCap q compl v s
  | .tirCopyCtrl q compl v => Sys2Proof.Machine.execTirCopyCtrl q compl v s
  | .rngBayCtrl q compl v => Sys2Proof.Machine.execRngBayCtrl q compl v s
  | .mirFence q compl v => Sys2Proof.Machine.execMirFence q compl v s
  | .detCtrl q compl v => Sys2Proof.Machine.execDetCtrl q compl v s
  | .glbCrcCtrl q compl v => Sys2Proof.Machine.execGlbCrcCtrl q compl v s
  | .glbCfgCrcRef q compl v => Sys2Proof.Machine.execGlbCfgCrcRef q compl v s
  | .secRevoke q compl v => Sys2Proof.Machine.execSecRevoke q compl v s
  | .secPolicy q compl v => Sys2Proof.Machine.execSecPolicy q compl v s
  | .secReset q compl v => Sys2Proof.Machine.execSecReset q compl v s
  | .calSave q compl v => Sys2Proof.Machine.execCalSave q compl v s
  | .pwrLimit q compl v => Sys2Proof.Machine.execPwrLimit q compl v s
  | .passReadEnd arr => Sys2Proof.Machine.execPassReadEnd arr s
  | .vtloadRetire arr slot => Sys2Proof.Machine.execVtloadRetire arr slot s
  | .unrmRetire arr slot => Sys2Proof.Machine.execUnrmRetire arr slot s
  | .ctxAppendRetire arr slot => Sys2Proof.Machine.execCtxAppendRetire arr slot s
  | .digestWritten engine => Sys2Proof.Machine.execDigestWritten engine s
  | .holdMessage f info => Sys2Proof.Machine.execHoldMessage f info s
  | .portTrainTimeout port => Sys2Proof.Machine.execPortTrainTimeout port s
  | .patrolScrub block r => Sys2Proof.Machine.execPatrolScrub block r s

end Sys2Proof.Machine
end

