-- ==== Sys2Proof/Safety.lean ====
section
/-! DEFINITION. The terms the claims use: when an instruction issues, what issue leaves unchanged, and the invariant of the module. -/

namespace Sys2Proof.Machine

/-! ### When an instruction issues (R243, R255 to R257, R264, R269, R288) -/

/-- The region the sequencer fetches from holds the instruction at the pc (R256). -/
def State.pcInside (s : State) (n : Nat) (st : Stream) : Bool :=
  match s.fetchRegion n st with
  | some r => (s.ctx n st).pc + 16 ≤ r.size
  | none => false

/-- No block or word in [a, a + n) holds an error, correctable or not (R209, R216). -/
def State.clean (s : State) (a n : Nat) : Bool :=
  s.eccAt a n == none &&
    (if s.isFar a then s.tiers.soft.all (fun b => !(b.1 * 2048 < a + n && a < b.1 * 2048 + 2048))
     else s.tiers.nearSoft.all (fun w => !(w * 8 < a + n && a < w * 8 + 8)))

/-- The word at the pc is read without an error. -/
def State.wordClean (s : State) (n : Nat) (st : Stream) : Bool :=
  match s.fetchRegion n st with
  | some r => s.clean (r.base + (s.ctx n st).pc) 16
  | none => false

/-- What every instruction needs to issue in this cycle: its stream runs and is past its penalty, the pc lies in the region, the mark can be formed and holds, the word at the pc carries an opcode of the map, the array has not issued in this cycle, no step rule and no awaited register among `regs` holds the stream, and no earlier stream takes the cycle. -/
def State.ready (s : State) (h : Head) (regs : List Nat) : Bool :=
  s.streamLive h.arr h.stream && (s.ctx h.arr h.stream).notBefore ≤ s.cycle && s.pcInside h.arr h.stream &&
    (s.ctx h.arr h.stream).markOk h.p && s.marksHold h.arr h.stream (s.markOf h) &&
    s.opcodeOk h.arr h.stream && (s.arr h.arr).lastIssue != some s.cycle && s.stepHold h == none && !s.sregHeld h regs && !s.yields h (s.markOf h)

/-- The same, and the word is read without an error to correct. -/
def State.clear (s : State) (h : Head) (regs : List Nat) : Bool := s.ready h regs && s.wordClean h.arr h.stream

/-- Its 64 or 32 byte record lies in the region the sequencer fetches from, at a multiple of 32 bytes (R285, R287). -/
def State.recordAt (s : State) (h : Head) (ref : SRef) (len : Nat) : Bool :=
  match s.fetchRegion h.arr h.stream with
  | some r =>
    r.base ≤ (s.ctx h.arr h.stream).sref ref && (s.ctx h.arr h.stream).sref ref + len ≤ r.base + r.size &&
      (s.ctx h.arr h.stream).sref ref % 32 == 0
  | none => false

/-- The same, and the record is read without an error to correct. -/
def State.recordInside (s : State) (h : Head) (ref : SRef) (len : Nat) : Bool :=
  s.recordAt h ref len && s.clean ((s.ctx h.arr h.stream).sref ref) len

/-! ### What issue leaves unchanged -/

/-- The low word of an array's ARR_ISSUED pair. -/
def State.issuedReg (s : State) (n : Nat) : Nat := s.arrReg n Reg.ARR_ISSUED

/-- From `s` to `t` nothing has changed but arrays and counters; and of the arrays only array `n`. -/
def State.onlyArray (s t : State) (n : Nat) : Prop :=
  t = { s with arrays := t.arrays, regs := { s.regs with vals := t.regs.vals } } ∧
    t.arrays.length = s.arrays.length ∧ ∀ m, m ≠ n → t.arr m = s.arr m

/-- Every register but the ARR_ISSUED pair of array `n` has kept its value. -/
def State.onlyIssued (s t : State) (n : Nat) : Prop :=
  ∀ off, off ≠ s.issuedReg n → off ≠ s.issuedReg n + 4 → t.reg off = s.reg off

/-- The frame of an instruction whose whole effect is on the context of its own stream: nothing else changes but the array's issue bookkeeping and its ARR_ISSUED counter. -/
def State.onlyStream (s t : State) (h : Head) : Prop :=
  s.onlyArray t h.arr ∧ s.onlyIssued t h.arr ∧
    t.arr h.arr = { (s.arr h.arr).modCtx h.stream (fun _ => t.ctx h.arr h.stream) with
      lastIssue := some s.cycle, issueSeq := (s.arr h.arr).issueSeq + 1 }

/-- Whether the instruction at the pc, when it does not branch, is the last of a recompute (R142). -/
def StreamCtx.lastOfRange (c : StreamCtx) : Bool := c.recompute.any (fun r => c.pc + 16 == r.code + 16 * r.count)

/-- The context past an instruction that does not branch: the next instruction, or the return of a recompute that ends here (R142, R293). -/
def StreamCtx.past (c : StreamCtx) : StreamCtx :=
  if c.lastOfRange then { c with pc := (c.recompute.map (·.ret)).getD 0, recompute := none, head := none }
  else { c with pc := c.pc + 16, head := none }

/-- Two contexts agree in everything but the cycle from which the stream may issue again. -/
def StreamCtx.sameAs (c d : StreamCtx) : Prop := c = { d with notBefore := c.notBefore }

/-- Everything an instruction with the needs `i` must meet to issue in slot `slot`: the conditions common to all, a fetch that corrects, decode, its record, its holds, its resource, the branch range and its issue checks, format checks among them (R20, R257 to R260, R287, R290). -/
def State.issuesIn (s : State) (h : Head) (i : IssueInfo) (slot : Nat) : Prop :=
  s.ready h i.sregs = true ∧ s.fetchBad h i = none ∧ h.stream ∈ i.streams ∧ i.modOk = true ∧
    (i.noRecompute = true → (s.ctx h.arr h.stream).recompute = none) ∧ i.regsOk = true ∧ i.decodeBad = none ∧
    (∀ ref len, i.record = some (ref, len) → s.recordAt h ref len = true) ∧ i.hold = none ∧
    (if i.needSlot then (s.arr h.arr).freeSlot h.stream else some 0) = some slot ∧
    (∀ t, i.target = some t → (s.ctx h.arr h.stream).leavesRange t = false) ∧ i.check = none

/-- It issues, and the fetch meets no error to correct (what one corrects changes but records of errors: R209, R216). -/
def State.issuesClean (s : State) (h : Head) (i : IssueInfo) (slot : Nat) : Prop := s.issuesIn h i slot ∧ s.fetched h i = s

/-- The frame of an instruction that puts work into its array: nothing else changes but counters and the use records of the placement engine. -/
def State.onlyWork (s t : State) (n : Nat) : Prop :=
  t = { s with arrays := t.arrays, tiers := { s.tiers with records := t.tiers.records }, regs := { s.regs with vals := t.regs.vals } } ∧
    t.arrays.length = s.arrays.length ∧ ∀ m, m ≠ n → t.arr m = s.arr m

/-- The context of the issuing stream has moved past the instruction and every other stream of the array is as before; fused tiles and claims are counted by the instruction itself. -/
def State.movedOn (s t : State) (h : Head) : Prop :=
  (t.ctx h.arr h.stream).sameAs { (s.ctx h.arr h.stream).past with
      fusedMade := (t.ctx h.arr h.stream).fusedMade
      fusedClaimed := (t.ctx h.arr h.stream).fusedClaimed } ∧
    ∀ st, st ≠ h.stream → t.ctx h.arr st = s.ctx h.arr st

/-- Outside the listed writes no byte of memory changes from `m` to `m'`. -/
def onlyWrites (m m' : Cells) (ws : List (Nat × List Byte)) : Prop :=
  ∀ x, (∀ w ∈ ws, x < w.1 ∨ w.1 + w.2.length ≤ x) → memByte m' x = memByte m x

/-- Operation `o` is the instruction at head `h` as it stood at issue (R243, R258, R266, R288). -/
def State.isOpOf (s : State) (h : Head) (opcode slot : Nat) (o : Op) : Prop :=
  o.slot = slot ∧ o.stream = h.stream ∧ o.opcode = opcode ∧ o.pc = (s.ctx h.arr h.stream).pc ∧ o.mark = s.markOf h ∧
    o.due = s.markOf h + h.delta.toNat ∧ o.step = (s.ctx h.arr h.stream).curStep ∧ o.ver = (s.ctx h.arr h.stream).ver

/-- The instruction has issued and occupies a slot of its array with the work `o`. -/
def State.starts (s t : State) (h : Head) (opcode slot : Nat) (o : Op) : Prop :=
  s.onlyWork t h.arr ∧ s.movedOn t h ∧ (t.arr h.arr).ops = (s.arr h.arr).ops ++ [o] ∧ s.isOpOf h opcode slot o

/-! ### Frames on a link (R313, R317, R320) -/

/-- The link layer of an up port takes the frame: its CRC is good and its sequence number is the expected one. -/
def State.linkTakes (s : State) (f : Frame) : Prop :=
  f.port < 5 ∧ (s.port f.port).st = .up ∧ f.crcOk = true ∧ f.linkSeq = (s.port f.port).rxSeq

/-- The frame is for this module: it names its ring address, or has come from the twin. -/
def State.forMe (s : State) (f : Frame) : Prop := f.port = 4 ∨ f.dst = s.ring.addr

/-- From `s` to `t` nothing has changed but the ring engine and counters. -/
def State.onlyRing (s t : State) : Prop :=
  t = { s with ring := t.ring, regs := { s.regs with vals := t.regs.vals } }

/-! ### Commands of Sage and guarded pairs (R382 to R385, R414) -/

/-- Sage carries a command out that is legal in the state: it is up, the reply address is aligned, the module is not in recovery, and no command is pending; the link carries its reply. -/
def State.takes (s : State) (c : CmdHdr) : Prop :=
  s.sageUp = true ∧ s.hostLink = true ∧ c.replyAddr % 64 = 0 ∧ s.host.recovery = false ∧ s.busy = false

/-- From `s` to `t` one reply has been written at the command's reply address and its interrupt signalled. -/
def State.answered (s t : State) (c : CmdHdr) (op status fault detail : Nat) (data : List Byte) : Prop :=
  t.hostMem = memPut s.hostMem c.replyAddr (replyBytes c op status fault s.period detail data) ∧
    t.flt.msix = s.flt.msix ++ (if c.irq then [0] else [])

/-- From `s` to `t` a PENDING reply and then the final reply, 256 bytes above it, have been written. -/
def State.answeredTwice (s t : State) (c : CmdHdr) (op status fault detail : Nat) (data : List Byte) : Prop :=
  t.hostMem = memPut (memPut s.hostMem c.replyAddr (replyBytes c op 1 0 s.period 0 [])) (c.replyAddr + 256)
    (replyBytes c op status fault s.period detail data)

/-- The only things changed from `s` to `t` are those an immediate reply changes. -/
def State.onlyReply (s t : State) : Prop :=
  t = { s with hostMem := t.hostMem, flt := { s.flt with msix := t.flt.msix }, regs := { s.regs with vals := t.regs.vals } }

/-- The pair on a guarded register is open for a requester with value `v`, and in time. -/
def State.pairOpen (s : State) (q : Requester) (off : Nat) (v : BitVec 32) : Prop :=
  s.barUp = true ∧ ∃ at_, (s.requester q).pair = some ⟨off, v, at_⟩ ∧ s.thy.bus ≤ at_ + 64

/-- The register file keeps at most one value per register, in ascending offset. -/
abbrev State.regsSorted (s : State) : Prop := s.regs.vals.Pairwise (fun x y => x.1 < y.1)

/-! ### Rollback (R348 to R352) -/

/-- Journal entry `e` holds address `x`. -/
def JEntry.holds (e : JEntry) (x : Nat) : Prop := e.addr ≤ x ∧ x < e.addr + e.bytes.length

/-- `e` is what the journal gives back at address `x` for the start of `step`: the entry of the oldest generation from `step` on that has one there. -/
def State.givesBack (s : State) (step x : Nat) (e : JEntry) : Prop :=
  ∃ g ∈ s.mir.gens, step ≤ g.step ∧ e ∈ g.entries ∧ e.holds x ∧
    ∀ k ∈ s.mir.gens, step ≤ k.step → ∀ d ∈ k.entries, d.holds x → g.step < k.step ∨ d = e

/-- Each entry of the journal is one whole block of 2 KiB (R348). -/
def State.journalWhole (s : State) : Prop := ∀ g ∈ s.mir.gens, ∀ e ∈ g.entries, e.addr % 2048 = 0 ∧ e.bytes.length = 2048

/-- From `s` to `t` memory has gone back to the start of `step`: a journaled byte has what the journal gives back, any other keeps its value (R351). -/
def State.memoryBack (s t : State) (step : Nat) : Prop :=
  ∀ x, (∀ e, s.givesBack step x e → memByte t.mem x = e.bytes.getD (x - e.addr) 0) ∧
    ((∀ g ∈ s.mir.gens, step ≤ g.step → ∀ e ∈ g.entries, ¬ e.holds x) → memByte t.mem x = memByte s.mem x)

/-- From `s` to `t` the module runs again from the start of `step`, at tick `tick`, with the entry records of generation `g`: program counters and registers of the streams (of the degraded entries under `deg`), work counters, weight table and UPD_TCOUNT; nothing is queued, no accumulator unit is defined, no message stands in an OPEN context, and the newer generations are gone (R350 to R352). -/
structure State.rolledBack (s t : State) (g : JGen) (step tick : Nat) (deg : Bool) : Prop where
  runs : t.host.st = .running ∧ t.host.restart = none ∧ t.flt.stopped = false ∧ t.stp.step = step ∧ t.stp.base = tick ∧ t.mir.degraded = deg
  streams : ∀ (n : Nat) (st : Stream) (c : StreamCtx), n < s.arrays.length → (n, st, c) ∈ g.streams → (g.streams.map (fun e => (e.1, e.2.1))).Nodup →
    (t.ctx n st).sregs = c.sregs ∧ (t.ctx n st).abs = c.abs ∧ (t.ctx n st).ver = c.ver ∧ (t.ctx n st).step = c.step ∧ (t.ctx n st).base = tick ∧
      (t.ctx n st).head = none ∧
      (t.ctx n st).pc = (if deg then (s.mir.desc.bind (fun d => d.degraded[3 * n + st.idx]?)).getD c.pc else c.pc)
  weights : ∀ (ws : List (Nat × Weight)) (u : W32), g.weights = some (ws, u) → t.mask.weights = ws ∧ (s.regsSorted → t.reg Reg.UPD_TCOUNT = u)
  counters : ∀ (cs : List WcRecord) (c : WorkCounter) (r : WcRecord) (i : Nat), g.counters = some cs → cs[i]? = some r → s.wct[i]? = some c →
    t.wct[i]? = some { c with
      value := r.value
      e := r.e
      log := c.log.take (c.log.length - (c.logged - r.logPos))
      logged := r.logPos
      table := []
      arriving := []
      sets := [] }
  arrays : ∀ a ∈ t.arrays, a.ops = [] ∧ a.queue = [] ∧ a.waiting = [] ∧ a.deferred = [] ∧ a.queueF = [] ∧ a.queueB = [] ∧ a.queueU = [] ∧
    a.lane = none ∧ a.norm = DW.zero ∧ a.tsw = List.replicate 64 tswReset
  module : t.mask.queue = [] ∧ t.mask.running = none ∧ t.dillQ = [] ∧ t.tiers.staged = []
  contexts : ∀ (i : Nat) (c : CtxEntry), s.ctxE? i = some c → c.st ≠ .service → ∃ e, t.ctxE? i = some e ∧ e.st = c.st ∧
    (c.st = .open_ → e.recvs = [] ∧ e.sends = [] ∧ e.arms = [])
  gens : ∀ k ∈ t.mir.gens, k.step < step ∨ k = { g with entries := [], agreed := false }

/-! ### The invariant -/

/-- What every step keeps: both memories in their canonical form and the register file in ascending offset, and the module's fixed numbers of arrays (64), ports (5), work counters (16) and Dill units (4), with the cycle inside its period (R3, R12, R103, R234, R249, R312). -/
structure State.Inv (s : State) : Prop where
  mem : Memory.wf s.mem
  hostMem : Memory.wf s.hostMem
  regs : s.regsSorted
  arrays : s.arrays.length = 64
  ports : s.ring.ports.length = 5
  counters : s.wct.length = 16
  dill : s.dill.length = 4
  cyc : s.thy.cyc ≤ 255

end Sys2Proof.Machine
end

