-- ==== Sys2Proof/Certificates/Slice0/Obligations.lean ====
section
/-! DEFINITION. The statements for the provers, family by family of the command table. -/

open Sys2Proof Sys2Proof.Machine

/-! ### The step, reset and the invariant -/

/-- The step runs the command at the front of the queue on the state with the queue's rest. On an empty queue (the model's choice: log 5) the first event that is due takes place, as if its command had come; with none due one core cycle passes, once boot has ended and within the period. -/
def Obligations.StepRunsFront : Prop :=
  (∀ (c : Instr) (rest : List Instr) (s : State), step { s with pending := c :: rest } = exec c { s with pending := rest }) ∧
  (∀ s t : State, s.pending = [] → s.dueEvent = some t → step s = .next t ∧ t ≠ s ∧ ∃ e ∈ s.events, exec e.instr s = .next t) ∧
  (∀ s : State, s.pending = [] → s.dueEvent = none →
    (∀ e ∈ s.events, exec e.instr s = .next s) ∧
    ((s.host.bootDone = false ∨ 255 ≤ s.thy.cyc) → step s = .next s) ∧
    (s.host.bootDone = true → s.thy.cyc < 255 → ∃ t, step s = .next t ∧ t.thy.cyc = s.thy.cyc + 1 ∧
      t.thy.cycle = s.thy.cycle + 1 ∧ t.thy.period = s.thy.period ∧ t.thy.tick = s.thy.tick ∧ t.pending = []))

/-- R103, R234, R311, R332, R402, R424, R446, R448: what reset leaves, where the spec gives it: every register at its table's value, the time system at period 0 as the master of a ring of one, every unit's status word without an owner, no stream running, no context, no port up and boot still to run. -/
def Obligations.ResetLeaves : Prop :=
  (∀ off, State.reset.reg off = BitVec.ofNat 32 (regReset .a off)) ∧
  State.reset.thy.period = 0 ∧ State.reset.thy.tick = 0 ∧ State.reset.thy.master = true ∧ State.reset.ring.addr = 0 ∧ State.reset.ring.xn = 1 ∧
  State.reset.ring.yn = 1 ∧ State.reset.ring.ctxs = [] ∧ State.reset.host.bootDone = false ∧ State.reset.host.stage = 1 ∧
  State.reset.host.owner = none ∧ State.reset.host.st = .unopened ∧ State.reset.pending = [] ∧ State.reset.tiers.regions = [] ∧
  State.reset.mask.weights = [] ∧
  (∀ p, (State.reset.port p).st = .down) ∧
  (∀ n st, n < 64 → (State.reset.ctx n st).st = .idle) ∧
  ∀ n k, n < 64 → k < 64 → (State.reset.arr n).tsw.getD k 0 = 0x00FFC000#32

/-- Memory, host memory and the register file are in canonical form at reset, and the module has its arrays, ports, work counters and Dill units. -/
def Obligations.ResetHasInvariant : Prop :=
 State.reset.Inv

/-- From every state that meets the invariant, whatever command stands first, a step gives a state that meets it. -/
def Obligations.StepKeepsInvariant : Prop :=
 ∀ s t : State, s.Inv → step s = .next t → t.Inv

/-- No command and no idle cycle ends in a fault or a refusal of the machine: every step answers a next state (the model's choice: log 47, DESIGN CHOICE; the faults of the module itself are records in its state, R431). -/
def Obligations.StepAlwaysNext : Prop :=
 ∀ s : State, ∃ t, step s = .next t

/-! ### Issue, control and scalar instructions -/

/-- R257 to R260, R290: an instruction issues exactly when it meets every condition, and has its own effect on what the common effect of issue makes of the state, behind what its fetch corrects (R209, R216). R256, R287, R431: a fetch that leaves the region of the stream faults with the first byte outside, and one that meets an uncorrectable block or word with that block or word; neither issues. -/
def Obligations.IssueConditions : Prop :=
  (∀ (s : State) (h : Head) (i : IssueInfo) (slot : Nat), s.verdict h i = .go slot ↔ s.issuesIn h i slot) ∧
  (∀ (s : State) (h : Head) (i : IssueInfo) (slot : Nat) (act : Nat → State → State), s.issuesIn h i slot →
    issue h i act s = .next (act slot ((s.fetched h i).issued h i)) ∧ (s.fetched h i).mem = s.mem ∧ (s.fetched h i).arrays = s.arrays ∧
      (s.fetched h i).tiers.bad = s.tiers.bad ∧ (s.fetched h i).tiers.nearBad = s.tiers.nearBad) ∧
  (∀ (s : State) (h : Head) (i : IssueInfo), s.streamLive h.arr h.stream = true → (s.ctx h.arr h.stream).notBefore ≤ s.cycle →
    (s.fetchOk h i = false → ∃ r, s.verdict h i = .fault r ∧ r.code = 0x10 ∧ r.addr = s.fetchOutside h i) ∧
    (∀ code a, s.fetchOk h i = true → s.fetchBad h i = some (code, a) → ∃ r, s.verdict h i = .fault r ∧ r.code = code ∧ r.addr = a))

/-- R257, R260, R427: a head that waits changes nothing but its place at the head, the counter of its hold and what it asks for; a head that faults issues nothing: its stream is marked, its pc, its registers and its array's operations stay. -/
def Obligations.WaitAndFaultFrame : Prop :=
  ∀ (s : State) (h : Head) (i : IssueInfo) (act : Nat → State → State),
    (∀ k, s.verdict h i = .hold k → ∃ t, issue h i act s = .next t ∧
      t = { s with
        arrays := t.arrays
        regs := { s.regs with vals := t.regs.vals }
        tiers := { s.tiers with requests := t.tiers.requests }
        mir := { s.mir with jrnWait := t.mir.jrnWait } } ∧
      (∀ m, m ≠ h.arr → t.arr m = s.arr m) ∧
      ∃ hd, t.arr h.arr = (s.arr h.arr).modCtx h.stream (fun c => { c with head := hd })) ∧
    (∀ r, s.verdict h i = .fault r → ∃ t, issue h i act s = .next t ∧ t.thy.cycle = s.thy.cycle ∧
      (∀ m, m ≠ h.arr → t.arr m = s.arr m) ∧
      (∃ hd, t.arr h.arr = (s.arr h.arr).modCtx h.stream (fun c => { c with head := hd, failed := true })) ∧
      t.flt.unacked = true ∧ t.flt.first.isSome)

/-- R292, the nine ALU operations with their operand x. R292, SLI and SLIH. R291, R267: NOP retires at issue; END stops its stream. Completes: sadd, ssub, smul, sand, sor, sxor, sshl, sshr, ssra, sli, slih, nop, endStream. -/
def Obligations.ScalarResults : Prop :=
  (∀ p ∈ ([(Instr.sadd, fun a x => a + x), (Instr.ssub, fun a x => a - x), (Instr.smul, fun a x => a * x),
      (Instr.sand, fun a x => a &&& x), (Instr.sor, fun a x => a ||| x), (Instr.sxor, fun a x => a ^^^ x),
      (Instr.sshl, fun a x => a <<< (x.toNat % 64)), (Instr.sshr, fun a x => a >>> (x.toNat % 64)),
      (Instr.ssra, fun a x => a.sshiftRight (x.toNat % 64))] : List ((Head → BodyR → Instr) × (W64 → W64 → W64))),
  ∀ (h : Head) (b : BodyR) (s : State),
    s.clear h ([b.rd.toNat, b.rs1.toNat] ++ if h.mod.getLsbD 0 then [] else [b.rs2.toNat]) →
    ∃ t, exec (p.1 h b) s = .next t ∧ s.onlyStream t h ∧ (t.ctx h.arr h.stream).sameAs
      { (s.ctx h.arr h.stream).past with
        sregs := (s.ctx h.arr h.stream).sregs.set b.rd.toNat
          (p.2 ((s.ctx h.arr h.stream).sregs.getD b.rs1.toNat 0)
            (if h.mod.getLsbD 0 then b.imm.signExtend 64 else (s.ctx h.arr h.stream).sregs.getD b.rs2.toNat 0)) }) ∧
  (∀ (h : Head) (b : BodyR) (s : State), s.clear h [b.rd.toNat] →
    (∃ t, exec (.sli h b) s = .next t ∧ s.onlyStream t h ∧ (t.ctx h.arr h.stream).sameAs
      { (s.ctx h.arr h.stream).past with
        sregs := (s.ctx h.arr h.stream).sregs.set b.rd.toNat (b.imm.signExtend 64) }) ∧
    (∃ t, exec (.slih h b) s = .next t ∧ s.onlyStream t h ∧ (t.ctx h.arr h.stream).sameAs
      { (s.ctx h.arr h.stream).past with
        sregs := (s.ctx h.arr h.stream).sregs.set b.rd.toNat
          (BitVec.ofNat 64 (b.imm.toNat * 2 ^ 32 + ((s.ctx h.arr h.stream).sregs.getD b.rd.toNat 0).toNat % 2 ^ 32)) })) ∧
  (∀ (h : Head) (s : State), s.clear h [] →
    (∃ t, exec (.nop h) s = .next t ∧ s.onlyStream t h ∧ (t.ctx h.arr h.stream).sameAs
      (s.ctx h.arr h.stream).past) ∧
    ((s.ctx h.arr h.stream).recompute = none →
      ∃ t, exec (.endStream h) s = .next t ∧ s.onlyStream t h ∧ (t.ctx h.arr h.stream).sameAs
        { s.ctx h.arr h.stream with pc := (s.ctx h.arr h.stream).pc + 16, head := none, st := .ended }))

/-- R293: BR, BEQ, BNE, BLTU and BLT move the pc to their target when they branch and to the next instruction otherwise; outside an RCALL range. R142, R144: inside an RCALL range an unconditional branch stays in the range, ends it at its last instruction, or faults and leaves the pc. Completes: br, beq, bne, bltu, blt. -/
def Obligations.Branches : Prop :=
  (∀ p ∈ ([(Instr.br, fun _ _ => True), (Instr.beq, fun x y => x = y), (Instr.bne, fun x y => x ≠ y),
      (Instr.bltu, fun x y => x.toNat < y.toNat), (Instr.blt, fun x y => x.toInt < y.toInt)] :
      List ((Head → BodyB → Instr) × (W64 → W64 → Prop))),
  ∀ (h : Head) (b : BodyB) (s : State), s.clear h [b.rs1.toNat, b.rs2.toNat] → (s.ctx h.arr h.stream).recompute = none →
    ∃ t, exec (p.1 h b) s = .next t ∧ s.onlyStream t h ∧
      (p.2 ((s.ctx h.arr h.stream).sregs.getD b.rs1.toNat 0) ((s.ctx h.arr h.stream).sregs.getD b.rs2.toNat 0) →
        (t.ctx h.arr h.stream).sameAs { s.ctx h.arr h.stream with pc := b.target.toNat, head := none } ∧
        (t.ctx h.arr h.stream).notBefore = s.cycle + s.lat 0x33) ∧
      (¬ p.2 ((s.ctx h.arr h.stream).sregs.getD b.rs1.toNat 0) ((s.ctx h.arr h.stream).sregs.getD b.rs2.toNat 0) →
        (t.ctx h.arr h.stream).sameAs
          { s.ctx h.arr h.stream with pc := (s.ctx h.arr h.stream).pc + 16, head := none })) ∧
  (∀ (h : Head) (b : BodyB) (r : Recompute) (s : State), s.clear h [] → (s.ctx h.arr h.stream).recompute = some r →
    (r.code ≤ b.target.toNat → b.target.toNat < r.code + 16 * r.count →
      ∃ t, exec (.br h b) s = .next t ∧ (t.ctx h.arr h.stream).pc = b.target.toNat ∧
        (t.ctx h.arr h.stream).recompute = some r) ∧
    (b.target.toNat = r.code + 16 * r.count →
      ∃ t, exec (.br h b) s = .next t ∧ (t.ctx h.arr h.stream).pc = r.ret ∧ (t.ctx h.arr h.stream).recompute = none) ∧
    ((b.target.toNat < r.code ∨ r.code + 16 * r.count < b.target.toNat) →
      exec (.br h b) s = .next (s.faultHead h (s.issueFault h 0x08 0xFFFF 0x24 0 0))))

/-- R262, R263: STEPB sets the mark base to its effective mark, takes the stream to its next step and the pc to its target, holds no resource and, issued in the module's own step, records the new base for the step; a STEPB of a step in which an earlier one carried another effective mark faults with ORDER and does not issue; STEPB and END fault inside an RCALL range. R264: where a STEPB waits. Completes: stepb. -/
def Obligations.StepbAtBoundaries : Prop :=
  (∀ (h : Head) (b : BodyB) (s : State), s.clear h [] → (s.ctx h.arr h.stream).recompute = none →
    (h.stream = .u ∨ (s.ctx h.arr h.stream).step ≤ s.stp.step) → (∀ m, s.stepbMark (s.ctx h.arr h.stream).step = some m → m = s.markOf h) →
    ∃ t, exec (.stepb h b) s = .next t ∧ (t.ctx h.arr h.stream).sameAs
      { s.ctx h.arr h.stream with
        pc := b.target.toNat
        head := none
        base := (s.ctx h.arr h.stream).base + h.p.toNat
        step := (s.ctx h.arr h.stream).step + 1
        stepbDone := decide (h.stream = .u) } ∧
      t.stp = (if (s.ctx h.arr h.stream).step = s.stp.step then { s.stp with nextBase := some ((s.ctx h.arr h.stream).base + h.p.toNat) } else s.stp) ∧
      t.mem = s.mem ∧ t.hostMem = s.hostMem ∧ t.flt = s.flt ∧ t.ring = s.ring ∧ t.thy = s.thy ∧ t.mask = s.mask ∧ t.wct = s.wct ∧
      (t.arr h.arr).ops = (s.arr h.arr).ops ∧ (∀ st, st ≠ h.stream → t.ctx h.arr st = s.ctx h.arr st) ∧ ∀ m, m ≠ h.arr → t.arr m = s.arr m) ∧
  (∀ (h : Head) (b : BodyB) (s : State), s.clear h [] → (s.ctx h.arr h.stream).recompute.isSome = true →
    (∃ k, exec (.stepb h b) s = .next (s.faultHead h k) ∧ k.code = 0x24) ∧ ∃ k, exec (.endStream h) s = .next (s.faultHead h k) ∧ k.code = 0x24) ∧
  (∀ (h : Head) (b : BodyB) (s : State), s.clear h [] → (s.ctx h.arr h.stream).recompute = none →
    (h.stream ≠ .u → s.stp.step < (s.ctx h.arr h.stream).step → exec (.stepb h b) s = .next (s.holdHead h (IssueInfo.simple 0x02 []) .skew)) ∧
    (∀ m, (h.stream = .u ∨ (s.ctx h.arr h.stream).step ≤ s.stp.step) → s.stepbMark (s.ctx h.arr h.stream).step = some m → m ≠ s.markOf h →
      exec (.stepb h b) s = .next (s.faultHead h (s.issueFault h 0x02 0xFFFF 0x22 0 0))))

/-- R142, R144, R268: RCALL of a range that is not empty, aligned and inside the F-stream code region, from the B stream and not inside another range, moves the pc to the range and sets the recompute flag with its return address, its mark offset and its step, the value of the step register at issue (R288; DEDUCED, log 6); the scalar and base registers, the mark base and the step of the stream stay. Completes: rcall. -/
def Obligations.RcallResult : Prop :=
  ∀ (h : Head) (ref : SRef) (r : RcallRec) (s : State) (i : Nat) (g : Region), s.clear h [r.stepReg.toNat] → h.stream = .b →
    (s.ctx h.arr .b).recompute = none → s.recordInside h ref 64 → r.count ≠ 0 → r.code.toNat % 16 = 0 →
    (s.arr h.arr).f.codeRegion = some i → s.tiers.regions[i]? = some g → r.code.toNat + 16 * r.count.toNat ≤ g.size →
    ∃ t, exec (.rcall h ref r) s = .next t ∧ s.onlyStream t h ∧
      (t.ctx h.arr .b).pc = r.code.toNat ∧
      (t.ctx h.arr .b).recompute = some ⟨r.code.toNat, r.count.toNat, (s.ctx h.arr .b).pc + 16, r.delta.toInt,
        ((s.ctx h.arr .b).sregs.getD r.stepReg.toNat 0).toNat % 2 ^ 48⟩ ∧
      (t.ctx h.arr .b).sregs = (s.ctx h.arr .b).sregs ∧ (t.ctx h.arr .b).abs = (s.ctx h.arr .b).abs ∧
      (t.ctx h.arr .b).base = (s.ctx h.arr .b).base ∧ (t.ctx h.arr .b).step = (s.ctx h.arr .b).step

/-- R294: SETBASE sets a base register from a scalar register or a base register and the immediate, and faults at decode where a register it names does not exist; SETVER sets ver from the immediate or a scalar register. Completes: setbase, setver. -/
def Obligations.BaseAndVersionResult : Prop :=
  ∀ (h : Head) (b : BodyR) (s : State),
    (s.clear h (if h.mod.getLsbD 0 then [] else [b.rs1.toNat]) → b.rd.toNat < 16 → (h.mod.getLsbD 0 = true → b.rs1.toNat < 16) →
      ∃ t, exec (.setbase h b) s = .next t ∧ s.onlyStream t h ∧ (t.ctx h.arr h.stream).sameAs
        { (s.ctx h.arr h.stream).past with
          abs := (s.ctx h.arr h.stream).abs.set b.rd.toNat
            ((if h.mod.getLsbD 0 then (s.ctx h.arr h.stream).abs.getD b.rs1.toNat 0
              else (s.ctx h.arr h.stream).sregs.getD b.rs1.toNat 0) + b.imm.signExtend 64) }) ∧
    (s.clear h [] → (16 ≤ b.rd.toNat ∨ (h.mod.getLsbD 0 = true ∧ 16 ≤ b.rs1.toNat)) →
      ∃ k, exec (.setbase h b) s = .next (s.faultHead h k) ∧ k.code = 0x24 ∧ k.check = 5) ∧
    (s.clear h (if h.mod.getLsbD 0 then [b.rs1.toNat] else []) →
      ∃ t, exec (.setver h b) s = .next t ∧ s.onlyStream t h ∧ (t.ctx h.arr h.stream).sameAs
        { (s.ctx h.arr h.stream).past with
          ver := if h.mod.getLsbD 0 then BitVec.ofNat 32 ((s.ctx h.arr h.stream).sregs.getD b.rs1.toNat 0).toNat else b.imm })

/-- R290 row 5, R292: SLD and SST with a base register that does not exist fault at decode. -/
def Obligations.NoSuchBaseRegister : Prop :=
  ∀ (h : Head) (b : BodyR) (s : State), s.clear h [] →
    (16 ≤ b.rs1.toNat → (∃ k, exec (.sld h b) s = .next (s.faultHead h k) ∧ k.code = 0x24 ∧ k.check = 5) ∧
      ∃ k, exec (.sst h b) s = .next (s.faultHead h k) ∧ k.code = 0x24 ∧ k.check = 5)

/-- R292, R288, R310: SLD takes a slot and, after its latency, writes the 8 bytes at ab[rs1] + imm to its register (the immediate zero-extended: DEDUCED, log 7): the bytes as memory holds them, behind the stores the stream issued before it; a value read before a later store landed is the one it writes. Completes: sld, sldRegisterWritten. -/
def Obligations.SldResult : Prop :=
  (∀ (h : Head) (b : BodyR) (s : State) (k : Nat), s.clear h [b.rd.toNat] → b.rs1.toNat < 16 →
    (s.arr h.arr).freeSlot h.stream = some k → s.sAddr h b % 8 = 0 → ownSlice h.arr (s.sAddr h b) = true → s.allowed (s.sAddr h b) 8 h.stream.idx .read false →
    ∃ t o, exec (.sld h b) s = .next t ∧ s.starts t h 0x1B k o ∧ o.sreg = some b.rd.toNat ∧
      o.body = .sld b.rd.toNat ((s.ctx h.arr h.stream).abs.getD (b.rs1.toNat % 16) 0 + b.imm.zeroExtend 64).toNat none ∧
      o.readyAt = s.cycle + s.lat 0x31) ∧
  (∀ (arr slot rd a : Nat) (got : Option W64) (o : Op) (s : State), arr < s.arrays.length → s.op? arr slot = some o → o.body = .sld rd a got →
    o.readyAt ≤ s.cycle → s.eccBad a 8 arr = none →
    ∃ t, exec (.sldRegisterWritten arr slot) s = .next t ∧ (s.corrected [(a, 8)] arr).onlyArray t arr ∧
      t.regs = (s.corrected [(a, 8)] arr).regs ∧
      t.ctx arr o.stream = { s.ctx arr o.stream with sregs := (s.ctx arr o.stream).sregs.set rd (got.getD (s.loadWord arr o a)) } ∧
      ((s.arr arr).earlierStores o.stream o.seq = [] → s.loadWord arr o a = BitVec.ofNat 64 (leNat (memGet s.mem a 8))) ∧
      (t.arr arr).ops = (s.arr arr).ops.filter (fun x => x.slot != slot))

/-- R292, R310: SST takes a slot with its register's value and, after its latency, stores it at ab[rs1] + imm (the immediate zero-extended: DEDUCED, log 7); it changes no other byte of memory. Completes: sst. -/
def Obligations.SstResult : Prop :=
  (∀ (h : Head) (b : BodyR) (s : State) (k : Nat), s.clear h [b.rs2.toNat] → b.rs1.toNat < 16 →
    (s.arr h.arr).freeSlot h.stream = some k → s.sAddr h b % 8 = 0 → ownSlice h.arr (s.sAddr h b) = true →
    s.allowed (s.sAddr h b) 8 h.stream.idx .write false → s.lacking (s.ctx h.arr h.stream).curStep [(s.sAddr h b, 8)] = [] →
    ∃ t o, exec (.sst h b) s = .next t ∧ s.starts t h 0x1C k o ∧ o.readyAt = s.cycle + s.lat 0x32 ∧
      o.body = .sst ((s.ctx h.arr h.stream).abs.getD (b.rs1.toNat % 16) 0 + b.imm.zeroExtend 64).toNat
        ((s.ctx h.arr h.stream).sregs.getD b.rs2.toNat 0)) ∧
  (∀ (arr a : Nat) (v : W64) (o : Op) (s : State), o.body = .sst a v → Memory.wf s.mem → (∀ x ∈ s.tiers.staged, x.arriving) →
    s.unmergeable a 8 = [] → ∀ x, memByte (s.landStore arr o).mem x =
      if a ≤ x ∧ x < a + 8 then BitVec.ofNat 8 (v.toNat / 256 ^ (x - a)) else memByte s.mem x) ∧
  (∀ (arr a : Nat) (v : W64) (o : Op) (s : State), arr < s.arrays.length → (s.arr arr).ops = [o] → o.body = .sst a v →
    (o.readyAt ≤ s.cycle → s.expireArray arr = (s.landStore arr o).retireOp arr o) ∧
    (s.cycle < o.readyAt → s.expireArray arr = s))

/-! ### Products, reductions, vector instructions -/

/-- R67, R73, R113, R288, R297, R298: MMF, MMT, MMG and MMG.CAND that meet every condition of issue take a slot and ownership of their accumulator units. Completes: mmf, mmt, mmg, mmgCand. -/
def Obligations.ProductIssue : Prop :=
  ∀ (h : Head) (b : BodyP) (s : State) (slot : Nat),
    (∀ r : ProdRec, s.issuesClean h (s.prodInfo h b (s.mmArgs .mmf 0x20 h b r) (if b.fused || !r.sr then [] else [r.idxReg.toNat, r.seedReg.toNat])) slot →
      ∃ t o, exec (.mmf h b r) s = .next t ∧ s.starts t h 0x20 slot o ∧ o.wt = b.wt.toNat ∧
        o.units = (List.range ((s.mmArgs .mmf 0x20 h b r).unitCount b (((s.mmArgs .mmf 0x20 h b r).rate (runCode h)).getD ⟨1, 1, 1⟩))).map
          (· + b.accBase.toNat)) ∧
    (∀ r : ProdRec, s.issuesClean h (s.prodInfo h b (s.mmArgs .mmt 0x21 h b r) (if b.fused || !r.sr then [] else [r.idxReg.toNat, r.seedReg.toNat])) slot →
      ∃ t o, exec (.mmt h b r) s = .next t ∧ s.starts t h 0x21 slot o ∧ o.wt = b.wt.toNat ∧
        o.units = (List.range ((s.mmArgs .mmt 0x21 h b r).unitCount b (((s.mmArgs .mmt 0x21 h b r).rate (runCode h)).getD ⟨1, 1, 1⟩))).map
          (· + b.accBase.toNat)) ∧
    (∀ r : MmgRec, s.issuesClean h (s.prodInfo h b (s.mmgArgs h r) []) slot →
      ∃ t o, exec (.mmg h b r) s = .next t ∧ s.starts t h 0x22 slot o ∧ o.wt = b.wt.toNat ∧
        o.units = (List.range ((s.mmgArgs h r).unitCount b (((s.mmgArgs h r).rate (runCode h)).getD ⟨1, 1, 1⟩))).map (· + b.accBase.toNat)) ∧
    (∀ r : CandRec, s.issuesClean h (s.candInfo h b r) slot →
      ∃ t o, exec (.mmgCand h b r) s = .next t ∧ s.starts t h 0x23 slot o ∧ o.wt = b.wt.toNat ∧ o.units = [b.accBase.toNat])

/-- R73, R79, R84, R85: when a preload ends and its tiles pass their checks, the cells hold them as R84 and R85 give them (an MMG's X tile too), the plan and the totals stay and no byte of memory changes; a preload that has reached a tile which a lane or the mask engine is writing waits (R131; how long a tile counts as read is log 79). R62, R75, R151: a tile that fails faults the product, which leaves its slot. MMG.CAND preloads nothing. R71, R76, R89 to R99: the end of a segment takes it off the plan without touching memory, its terms in the runs of the tiles' totals; the end of a set's last segment puts its totals on the pipeline, promoted, final after the pipeline latency. R71, R86, R89, R173: final totals join the tiles that wait for the finished-tile queue (MMF, MMT), or the tiles that wait for the adder (MMG), or are written out and retire the product (MMG.CAND). R86, R157, R159: the sums of the MMG tile whose addition comes next enter its gradient plane when the adder is free (the fixed latency of a waiting addition: log 103); the last one retires the MMG. Completes: preloadEnd, segmentEnd, totalsFinal, gbAddition. -/
def Obligations.ProductPhases : Prop :=
  (∀ (arr slot : Nat) (o : Op) (p : Product) (g : Seg) (s : State), arr < s.arrays.length → s.op? arr slot = some o → o.body = .prod p →
    p.nextPre = some g → p.preAt ≤ s.cycle →
    (p.kind ≠ .cand → s.preloadWait p g = none → (∀ x ∈ p.preTiles s.mem g, p.tileFault s.mem o x = none) →
      s.eccRanges (p.preRanges s.mem g) arr = none →
      ∃ t p' cell, exec (.preloadEnd arr slot) s = .next t ∧ t.op? arr slot = some { o with body := .prod p' } ∧ t.mem = s.mem ∧
        p'.cells = p.cells ++ [cell] ∧ cell.length = (p.preTiles s.mem g).length ∧
        p'.held = (if p.kind = .mmg then p.held ++ [valueTile s.mem p.xAddr p.xStride (fmtOf p.xFmt) p.xAxis g.m (g.r - p.r0)] else p.held) ∧
        p' = { (s.preload p g).1 with preAt := p'.preAt } ∧
        p'.plan = p.plan ∧ p'.finals = p.finals ∧ p'.setNo = p.setNo ∧ ∀ m, m ≠ arr → t.arr m = s.arr m) ∧
    (p.kind ≠ .cand → s.preloadWait p g ≠ none →
      ∃ t w, exec (.preloadEnd arr slot) s = .next t ∧ t.op? arr slot = some { o with body := .prod { p with waited := w } } ∧ t.mem = s.mem ∧
        ∀ m, m ≠ arr → t.arr m = s.arr m) ∧
    (p.kind ≠ .cand → s.preloadWait p g = none → (∃ x ∈ p.preTiles s.mem g, p.tileFault s.mem o x ≠ none) →
      ∃ t, exec (.preloadEnd arr slot) s = .next t ∧ (t.arr arr).ops = (s.arr arr).ops.filter (fun y => y.slot != o.slot) ∧
        t.flt.unacked = true) ∧
    (p.kind = .cand → exec (.preloadEnd arr slot) s = .next s)) ∧
  (∀ (arr slot : Nat) (o : Op) (p : Product) (g : Seg) (rest : List Seg) (s : State), arr < s.arrays.length → s.op? arr slot = some o →
    o.body = .prod p → p.plan = g :: rest → p.segReady s.mem s.cycle g = true → s.eccRanges (p.segReads arr g) arr = none →
    ∃ t p', exec (.segmentEnd arr slot) s = .next t ∧
      t = { s.corrected (p.segReads arr g) arr with arrays := t.arrays, tiers := t.tiers, freeCtr := t.freeCtr } ∧
      t.mem = s.mem ∧ (∀ m, m ≠ arr → t.arr m = s.arr m) ∧ t.op? arr slot = some { o with body := .prod p' } ∧
      (∀ st, t.ctx arr st = s.ctx arr st) ∧ p'.plan <:+ rest ∧
      (if g.last then ∃ v, (p.finals ++ [⟨s.cycle + s.lat 0x02, p.setNo, g.set, v⟩]) <+: p'.finals ∧ p.setNo < p'.setNo ∧
          (p.kind = .mmg → ∀ x, x = p.mmgSegment s.mem (s.arr arr) g (p.cells.headD []) → v = x.1.slotValues s.mem (x.1.closeSet x.2 1) g)
        else p'.finals = p.finals ∧ p'.plan = rest ∧ p'.setNo = p.setNo) ∧
      (∀ x, x = (if p.kind = .mmg then p.mmgSegment s.mem (s.arr arr) g (p.cells.headD [])
          else if p.kind = .cand then p.candSegment s.mem (s.arr arr) g else p.mmSegment s.mem (s.arr arr) g (p.cells.headD [])) →
        (g.last = false → t.arr arr = { x.2 with ops := (t.arr arr).ops } ∧ p'.runs = x.1.runs) ∧
        (g.last = true → (∀ y ∈ rest.head?, y.empty = false) → p.missingUnits p.setNo g.set = [] →
          t.arr arr = { x.1.closeSet x.2 (if p.kind = .mmf ∨ p.kind = .mmt then p.setCols g.set else 1) with ops := (t.arr arr).ops }))) ∧
  (∀ (arr slot : Nat) (o : Op) (p : Product) (f : FinalTotals) (rest : List FinalTotals) (s : State), arr < s.arrays.length →
    s.op? arr slot = some o → o.body = .prod p → p.finals = f :: rest → f.at_ ≤ s.cycle → s.eccRanges (p.totalReads arr f) arr = none →
    ((p.kind = .mmf ∨ p.kind = .mmt) → ∃ t, exec (.totalsFinal arr slot) s = .next t ∧ (s.corrected (p.totalReads arr f) arr).onlyArray t arr ∧
      t.op? arr slot = some { o with body := .prod { p with finals := rest } } ∧
      (t.arr arr).waiting.length = (s.arr arr).waiting.length + p.setCols (f.setNo % p.nSets) ∧
      (t.arr arr).waiting.map (fun q => { q with stalled := false }) =
        (insertWaiting (s.arr arr).waiting (p.entries o (s.arr arr) s.cycle f)).map (fun q => { q with stalled := false }) ∧
      (t.arr arr).queue = (s.arr arr).queue) ∧
    (p.kind = .mmg → ∃ t, exec (.totalsFinal arr slot) s = .next t ∧ (s.corrected (p.totalReads arr f) arr).onlyArray t arr ∧
      t.op? arr slot = some { o with body := .prod { p with finals := rest } } ∧
      (t.arr arr).gbWaiting = (s.arr arr).gbWaiting ++ [⟨o.slot, f.entry, f.values, s.cycle⟩]) ∧
    (p.kind = .cand → s.lacking o.step (spans (p.candWrites (s.arr arr))) = [] → ∃ t, exec (.totalsFinal arr slot) s = .next t ∧
      (t.arr arr).ops = (s.arr arr).ops.filter (fun x => x.slot != o.slot) ∧
      t.mem = ((s.corrected (p.totalReads arr f) arr).putAll (p.candWrites (s.arr arr))).mem ∧
      ((∀ y ∈ s.tiers.staged, y.arriving) → onlyWrites s.mem t.mem (p.candWrites (s.arr arr))))) ∧
  (∀ (arr : Nat) (o : Op) (p : Product) (e a n : Nat) (rest : List Nat) (g : GbAdd) (s : State), arr < s.arrays.length →
    (s.arr arr).addingMmg = some (o, p) → p.addLeft = e :: rest →
    (s.arr arr).gbWaiting.find? (fun x => x.slot == o.slot && x.entry == e) = some g →
    n = 4096 * (dirAt s.mem p.dir).capK → a = p.grad + e * n →
    max (g.finalAt + s.lat 0x04) (s.arr arr).gbFree + 2 * (dirAt s.mem p.dir).capK ≤ s.cycle →
    s.earlierAdds arr o.seq a n = false → s.eccBad a n = none → s.lacking o.step [(a, n)] = [] →
    ∃ t, exec (.gbAddition arr) s = .next t ∧ (t.arr arr).gbWaiting = (s.arr arr).gbWaiting.erase g ∧ (t.arr arr).gbFree = s.cycle ∧
      t.mem = ((s.corrected [(a, n)]).addWords arr a p.first g.values).mem ∧
      ((∀ y ∈ s.tiers.staged, y.arriving) → onlyWrites s.mem t.mem [(a, List.replicate (4 * g.values.length) 0)]) ∧
      (∀ m, m ≠ arr → t.arr m = s.arr m) ∧
      (rest = [] → (t.arr arr).ops = (s.arr arr).ops.filter (fun x => x.slot != o.slot)) ∧
      (rest ≠ [] → (t.arr arr).ops = (s.arr arr).ops.map (fun x => if x.slot == o.slot then { o with body := .prod { p with addLeft := rest } } else x)))

/-- R105, R111, R113, R299: RED.SUM, RED.MAX and RED.MIN that meet every condition of issue take a slot and their units, whose status words then name the slot and the stream. R106 to R109, R113: a reduction whose elements have been read and correct writes its column; without emit it retires, with emit its one tile (SUM) or its value and index tiles (MAX, MIN) wait for the finished-tile queue. Completes: redSum, redMax, redMin, redRetire. -/
def Obligations.Reductions : Prop :=
  (∀ p ∈ ([(0, Instr.redSum), (1, Instr.redMax), (2, Instr.redMin)] : List (Nat × (Head → BodyP → RedRec → Instr))),
  ∀ (h : Head) (b : BodyP) (r : RedRec) (s : State) (slot : Nat), s.issuesClean h (s.redInfo h p.1 b r) slot →
    ∃ t o, exec (p.2 h b r) s = .next t ∧ s.starts t h (0x28 + p.1) slot o ∧ o.units = (List.range (redUnits p.1 b)).map (· + b.accBase.toNat) ∧
      (slot < 256 → (s.arr h.arr).tsw.length = 64 →
        ∀ u ∈ o.units, tswOwner ((t.arr h.arr).tswAt u) = slot ∧ tswKind ((t.arr h.arr).tswAt u) = p.1) ∧
      (∀ u, u ∉ o.units → (t.arr h.arr).tswAt u = (s.arr h.arr).tswAt u)) ∧
  (∀ (arr slot : Nat) (o : Op) (p : RedOp) (s : State), arr < s.arrays.length → s.op? arr slot = some o → o.body = .red p →
    o.readyAt ≤ s.cycle → (s.arr arr).waiting.any (fun q => q.op == o.seq) = false → s.eccRanges (p.reads arr o.units) arr = none →
    ∃ t, exec (.redRetire arr slot) s = .next t ∧ (s.corrected (p.reads arr o.units) arr).onlyArray t arr ∧
      (t.arr arr).acc = (p.apply s.mem (s.arr arr)).acc ∧
      (p.emit = false → (t.arr arr).ops = (s.arr arr).ops.filter (fun x => x.slot != slot) ∧ (t.arr arr).waiting = (s.arr arr).waiting) ∧
      (p.emit = true → (t.arr arr).ops = (s.arr arr).ops ∧
        (t.arr arr).waiting.length = (s.arr arr).waiting.length + (if p.kind = 0 then 1 else 2)))

/-- R164, R167, R175, R300: the eleven vector instructions that meet every condition of issue take a slot with their operands read at issue, and claim their fused entries. R181, R183, R301: VTLOAD reads its image at issue, holds the table slot while it is in flight, and its retirement, where the image corrects, loads the half; a forward half clears the derivative half. Completes: vadd, vsub, vmul, vfma, vmax, vmin, vabs, vneg, vcvt, vfn, vder, vtload, vtloadRetire. -/
def Obligations.VectorAndTableIssue : Prop :=
  (∀ p ∈ ([(0x30, Instr.vadd), (0x31, Instr.vsub), (0x32, Instr.vmul), (0x33, Instr.vfma), (0x34, Instr.vmax), (0x35, Instr.vmin),
      (0x36, Instr.vabs), (0x37, Instr.vneg), (0x38, Instr.vcvt), (0x39, Instr.vfn), (0x3A, Instr.vder)] :
      List (Nat × (Head → BodyP → VecRec → Instr))),
  ∀ (h : Head) (b : BodyP) (r : VecRec) (s : State) (slot : Nat), s.issuesClean h (s.vecInfo h p.1 b r) slot →
    ∃ t o v, exec (p.2 h b r) s = .next t ∧ s.starts t h p.1 slot o ∧ o.units = [] ∧ o.body = .vec v ∧ v.opcode = p.1 ∧ v.started = 0 ∧
      v.rows = r.rows.toNat ∧ v.cols = r.cols.toNat ∧ v.d.addr = (if r.d.kind == 2#2 then 0 else (s.ctx h.arr h.stream).oref r.d) ∧
      (t.ctx h.arr h.stream).fusedClaimed = (s.ctx h.arr h.stream).fusedClaimed + (if r.a.kind = 1#2 then r.rows.toNat / 128 * (r.cols.toNat / 128) else 0)) ∧
  ((∀ (h : Head) (half : Bool) (k : BitVec 4) (image : SRef) (s : State) (slot : Nat), s.clear h [] →
    (s.arr h.arr).freeSlot h.stream = some slot → (∀ o ∈ (s.arr h.arr).ops, o.table ≠ some k.toNat) →
    s.vtloadCheck h half k.toNat (s.tableAddr h image) = none →
    ∃ t o, exec (.vtload h half k image) s = .next t ∧ s.starts t h 0x3F slot o ∧ o.table = some k.toNat ∧
      o.body = .vtload half k.toNat (s.tableAddr h image) (s.tableWords (s.tableAddr h image))) ∧
  (∀ (arr slot n a : Nat) (half : Bool) (ws : List W32) (o : Op) (s : State), arr < s.arrays.length → s.op? arr slot = some o →
    o.body = .vtload half n a ws → o.readyAt ≤ s.cycle → s.eccBad a (4 * ws.length) arr = none → n < (s.arr arr).tables.length →
    ∃ t x, exec (.vtloadRetire arr slot) s = .next t ∧ t = { s.corrected [(a, 4 * ws.length)] arr with arrays := t.arrays } ∧ (∀ m, m ≠ arr → t.arr m = s.arr m) ∧
      (t.arr arr).ops = (s.arr arr).ops.filter (fun y => y.slot != slot) ∧ (t.arr arr).tables[n]? = some x ∧
      (if half then x.der = parseTable ws ∧ some x.fwd = ((s.arr arr).tables[n]?).map (·.fwd) else x.fwd = parseTable ws ∧ x.der = none) ∧
      ∀ j, j ≠ n → (t.arr arr).tables[j]? = (s.arr arr).tables[j]?))

/-- R173, R177, R178: a final tile enters a free entry of the finished-tile queue; the queue holds at most eight. R170, R171, R176: a free engine starts the earliest ready pass or drain; a drain reads for 64 cycles, a pass for t_pass and one cycle more for each in which it loses the read port (R172; how the port is shared within a cycle: DESIGN CHOICE, log 81), its results are those of R166 and R167 for its tile, and memory does not change before its write lands. R171 to R173: the end of a read frees the engine and the queue entry it read, and puts the write on its way. R170, R172, R176: a pass's write reaches memory when its latency has passed, the last one retires the instruction; a drain's write retires nothing. No byte outside the writes changes while no staged copy has to follow. R179: a queue of eight entries that has not been read for 4,096 cycles stops its array. Completes: ftqEntry, vectorPassStart, passReadEnd, vectorWriteLanded, drain, queueOverflow. -/
def Obligations.DrainsAndPasses : Prop :=
  (∀ (arr : Nat) (q : QEntry) (rest : List QEntry) (s : State), arr < s.arrays.length → (s.arr arr).waiting = q :: rest →
    (s.arr arr).queue.length < 8 → (s.arr arr).xferAt ≤ s.cycle →
    ∃ t q', exec (.ftqEntry arr) s = .next t ∧ (t.arr arr).queue = (s.arr arr).queue ++ [q'] ∧ (t.arr arr).queue.length ≤ 8 ∧
      q'.tile = q.tile ∧ q'.tsw = q.tsw ∧ q'.addr = q.addr ∧ q'.slot = q.slot ∧ q'.stream = q.stream ∧
      (t.arr arr).waiting.length = rest.length ∧ (t.arr arr).xferAt = s.cycle + s.lat 0x03 ∧
      s.onlyArray t arr) ∧
  (∀ (arr : Nat) (s : State), arr < s.arrays.length → (s.arr arr).pass = none →
    (∀ at_ q, earliestPass ((s.arr arr).readyPasses.filter (fun c => c.at_ ≤ s.cycle)) = some (.drain at_ q) →
      ∃ t p, exec (.vectorPassStart arr) s = .next t ∧ s.onlyArray t arr ∧ (t.arr arr).pass = some p ∧ p.isDrain = true ∧
        p.slot = q.slot ∧ p.endAt = s.cycle + 64 ∧ p.writes = q.drainWrites.1 ∧ (t.arr arr).queue = (s.arr arr).queue) ∧
    (∀ at_ o v, earliestPass ((s.arr arr).readyPasses.filter (fun c => c.at_ ≤ s.cycle)) = some (.op at_ o v) →
      s.eccRanges (v.sources.flatMap (fun x => x.ranges (v.tile v.started).1 (v.tile v.started).2)) arr = none →
      ∃ t p, exec (.vectorPassStart arr) s = .next t ∧
        (s.corrected (v.sources.flatMap (fun x => x.ranges (v.tile v.started).1 (v.tile v.started).2)) arr).onlyArray t arr ∧
        (t.arr arr).pass = some p ∧ p.isDrain = false ∧
        p.slot = o.slot ∧ p.pass = v.started ∧ p.endAt = s.cycle + v.passTime ∧ p.start = s.cycle ∧
        p.writes = (v.compute s.mem (s.arr arr) ((((s.arr arr).feeding o.stream v).map (·.tile)).getD []) o.step v.started).1 ∧
        (t.arr arr).ops = (s.arr arr).ops.map (fun x => if x.slot == o.slot then { o with body := .vec { v with started := v.started + 1 } } else x))) ∧
  (∀ (arr : Nat) (p : Pass) (s : State), arr < s.arrays.length → (s.arr arr).pass = some p → (s.arr arr).quiet = false →
    ((s.contendArray arr).arr arr).pass = some { p with endAt := p.endAt + (if (s.portLosers arr).pass then 1 else 0) } ∧
      (s.contendArray arr).mem = s.mem ∧ (s.contendArray arr).thy = s.thy) ∧
  (∀ (arr : Nat) (p : Pass) (s : State), arr < s.arrays.length → (s.arr arr).pass = some p → p.endAt ≤ s.cycle →
    ∃ t, exec (.passReadEnd arr) s = .next t ∧ t = { s with arrays := t.arrays } ∧ (∀ m, m ≠ arr → t.arr m = s.arr m) ∧
      (t.arr arr).pass = none ∧
      (t.arr arr).landings = (s.arr arr).landings ++ [⟨p.isDrain, p.slot, p.lastPass, p.writes, p.start + p.latency, s.cycle + p.latency, p.rate, p.due, p.step⟩] ∧
      (t.arr arr).queue = (if p.fromQueue then (match (s.arr arr).readEntry p with
        | some q => (s.arr arr).queue.erase q
        | none => (s.arr arr).queue) else (s.arr arr).queue)) ∧
  (∀ (arr : Nat) (l : Landing) (s : State), arr < s.arrays.length → l.at_ ≤ s.cycle → s.lacking l.step (spans l.writes) = [] →
    (∀ slot, (s.arr arr).landings.find? (fun x => !x.isDrain && x.slot == slot) = some l →
      ∃ t, exec (.vectorWriteLanded arr slot) s = .next t ∧ t.mem = (s.putAll l.writes).mem ∧
        (t.arr arr).landings = (s.arr arr).landings.erase l ∧
        ((t.arr arr).ops.map (·.slot)) = (if l.lastPass then ((s.arr arr).ops.map (·.slot)).filter (· != slot) else (s.arr arr).ops.map (·.slot)) ∧
        (∀ m, m ≠ arr → t.arr m = s.arr m) ∧ ((∀ y ∈ s.tiers.staged, y.arriving) → onlyWrites s.mem t.mem l.writes)) ∧
    ((s.arr arr).landings.find? (fun x => x.isDrain) = some l →
      ∃ t, exec (.drain arr) s = .next t ∧ t.mem = (s.putAll l.writes).mem ∧ (t.arr arr).landings = (s.arr arr).landings.erase l ∧
        (t.arr arr).ops.map (·.slot) = (s.arr arr).ops.map (·.slot) ∧
        (∀ m, m ≠ arr → t.arr m = s.arr m) ∧ ((∀ y ∈ s.tiers.staged, y.arriving) → onlyWrites s.mem t.mem l.writes))) ∧
  (∀ (arr : Nat) (s : State), arr < s.arrays.length → (s.arr arr).queue.length = 8 → 4096 ≤ (s.arr arr).fullCycles →
    (s.arr arr).overflowed = false → (s.arr arr).stopped = false →
    exec (.queueOverflow arr) s = .next { s with arrays := s.arrays.modify arr (fun a => { a with overflowed := true, stopped := true }) })

/-! ### DMA, masks, update -/

/-- R258, R288, R302: a DMA instruction puts its descriptor, with its references resolved, at the end of its stream's queue, and changes nothing else but the use records. R61, R65, R303: a free lane takes the next descriptor of the stream; when its directory term has passed, the first condition it fails ends it with that condition's fault, and a descriptor that passes goes on to its tiles or to its transfer. R57, R60, R62, R65: when a tile's time on the lane has passed its bytes are written at its place, no other byte changes, and the lane is at the next tile. R303, R58, R60, R80: the last write of a descriptor frees its lane. DCOPY leaves the source's bytes at the destination (its source read whole before a write: DEDUCED, log 50), DFILL zeros, and no kind changes a byte outside its last range. Completes: dloadC, dloadD, dloadT, dbuild, dcopy, dadd, dfill, descriptorFetch, codecTile, descriptorComplete. -/
def Obligations.DmaWork : Prop :=
  (∀ p ∈ ([(DmaKind.loadC, 0x40, Instr.dloadC), (.loadD, 0x41, Instr.dloadD), (.loadT, 0x42, Instr.dloadT), (.copy, 0x44, Instr.dcopy),
      (.add, 0x45, Instr.dadd), (.fill, 0x46, Instr.dfill), (.build true, 0x43, Instr.dbuild), (.build false, 0x43, Instr.dbuild)] :
      List (DmaKind × Nat × (Head → SRef → DmaRec → Instr))),
  ∀ (h : Head) (ref : SRef) (r : DmaRec) (s : State), s.clear h [] → s.recordInside h ref 64 →
    (s.arr h.arr).dmaqUsed h.stream < dmaqDepth → (p.1.isBuild → p.1 = .build (h.mod.getLsbD 0)) →
    ∃ t d, exec (p.2.2 h ref r) s = .next t ∧ s.onlyWork t h.arr ∧ s.onlyIssued t h.arr ∧ s.movedOn t h ∧
      (t.arr h.arr).dmaq h.stream = (s.arr h.arr).dmaq h.stream ++ [d] ∧ (t.arr h.arr).ops = (s.arr h.arr).ops ∧
      d.kind = p.1 ∧ d.opcode = p.2.1 ∧ d.stream = h.stream ∧ d.src = (s.ctx h.arr h.stream).oref r.src ∧
      d.dst = (s.ctx h.arr h.stream).oref r.dst ∧ d.len = r.len.toNat ∧ d.mark = s.markOf h ∧ d.due = s.markOf h + h.delta.toNat) ∧
  (∀ (arr : Nat) (st : Stream) (s : State), arr < s.arrays.length →
    (∀ d rest, (s.arr arr).lane = none → (s.arr arr).dmaq st = d :: rest → s.dirHeld d = false →
      ∃ t, exec (.descriptorFetch arr st) s = .next t ∧ t = { s with arrays := t.arrays } ∧ (∀ m, m ≠ arr → t.arr m = s.arr m) ∧
        (t.arr arr).dmaq st = rest ∧ (t.arr arr).lane = some ⟨d, false, false, [], s.cycle + s.fetchTime d, []⟩) ∧
    (∀ l, (s.arr arr).lane = some l → l.fetched = false → l.waiting = false → l.desc.stream = st → l.readyAt ≤ s.cycle →
      s.dirHeld l.desc = false →
      (∀ c, s.descCheck l.desc = some c → ∃ t, exec (.descriptorFetch arr st) s = .next t ∧ (t.arr arr).lane = none ∧
        (t.ctx arr st).failed = true ∧ t.flt.unacked = true ∧ (t.arr arr).dmaq st = (s.arr arr).dmaq st) ∧
      (s.descCheck l.desc = none → l.desc.kind.codec = false →
        ∃ t, exec (.descriptorFetch arr st) s = .next t ∧ t = { s with arrays := t.arrays } ∧
          (t.arr arr).lane = some { l with fetched := true, readyAt := s.cycle + s.moveTime l.desc }) ∧
      (s.descCheck l.desc = none → l.desc.kind.codec = true → l.desc.laneTiles s.mem = [] →
        s.eccRanges (l.desc.dirReads s.mem) = none →
        s.lacking l.desc.step (spans (l.desc.dirWrites s.mem)) = [] →
        ∃ t, exec (.descriptorFetch arr st) s = .next t ∧
          t.mem = ((s.corrected (l.desc.dirReads s.mem)).putAll (l.desc.dirWrites s.mem)).mem ∧
          ((∀ y ∈ s.tiers.staged, y.arriving) → onlyWrites s.mem t.mem (l.desc.dirWrites s.mem)) ∧
          (t.arr arr).lane = some { l with fetched := true, waiting := false, tiles := [], readyAt := s.cycle, wrote := spans (l.desc.dirWrites s.mem) }))) ∧
  (∀ (arr : Nat) (l : Lane) (x : LaneTile) (rest : List LaneTile) (s c : State), arr < s.arrays.length → (s.arr arr).lane = some l →
    l.tiles = x :: rest → l.fetched = true → l.waiting = false → l.readyAt ≤ s.cycle → s.eccRanges (l.desc.tileReads s.mem x) = none →
    s.lacking l.desc.step [(x.dst, (s.tileOut l.desc x).1.length)] = [] → c = s.corrected (l.desc.tileReads s.mem x) →
    (∀ y ∈ rest.head?, l.desc.tileFault (c.putMem x.dst (s.tileOut l.desc x).1).mem y = none) →
    ∃ t l', exec (.codecTile arr) s = .next t ∧ t.mem = (c.putMem x.dst (s.tileOut l.desc x).1).mem ∧
      ((∀ y ∈ s.tiers.staged, y.arriving) → onlyWrites s.mem t.mem [(x.dst, (s.tileOut l.desc x).1)]) ∧
      (t.arr arr).lane = some l' ∧ l'.desc = l.desc ∧ l'.tiles = rest ∧ (∀ m, m ≠ arr → t.arr m = s.arr m) ∧
      (∀ st, t.ctx arr st = s.ctx arr st)) ∧
  (∀ (arr : Nat) (l : Lane) (s : State), arr < s.arrays.length → (s.arr arr).lane = some l → l.fetched = true → l.tiles = [] →
    l.readyAt ≤ s.cycle → (l.desc.kind = .add → s.earlierMmgs arr l.desc.seq l.desc.dst l.desc.len = false ∧
      s.earlierAdds arr l.desc.seq l.desc.dst l.desc.len = false) →
    s.eccRanges l.desc.moveReads = none → s.lacking l.desc.step (l.desc.lastSpans s.mem) = [] →
    ∃ t, exec (.descriptorComplete arr) s = .next t ∧ (t.arr arr).lane = none ∧ (t.arr arr).ops = (s.arr arr).ops ∧
      (∀ m, m ≠ arr → t.arr m = s.arr m) ∧
      (Memory.wf s.mem → (∀ y ∈ s.tiers.staged, y.arriving) →
        (∀ a, (∀ w ∈ l.desc.lastSpans s.mem, a < w.1 ∨ w.1 + w.2 ≤ a) → memByte t.mem a = memByte s.mem a) ∧
        (s.unmergeable l.desc.dst l.desc.len = [] →
          (l.desc.kind = .copy → ∀ i, i < l.desc.len → memByte t.mem (l.desc.dst + i) = memByte s.mem (l.desc.src + i)) ∧
          (l.desc.kind = .fill → ∀ i, i < l.desc.len → memByte t.mem (l.desc.dst + i) = 0))))

/-- R132, R304: a mask instruction of a U stream puts its operation, with its operands read at issue, into the module's queue, behind the earlier ones behind the heads of lower arrays that wait for an entry and before those that higher arrays issued in the same cycle (R363); it changes nothing else but the use records. R119, R132, R133, R135: the free engine takes the head of the queue. A failed check ends the operation and its stream; an MCOMMIT waits until its part is ready and then begins; a PRUNE or REGROW of an idle weight opens its pending generation, once no codec lane or preload is at work on its tiles (R65, R131), or fails on a tile that does not correct. R118, R122, R126, R128, R130, R132: an operation whose time has passed, whose reads correct and which no codec lane holds, leaves the engine with its result, and memory is what its writes make of it: MBIND enters the weight, MDEC keeps a decision and changes no memory, PRUNE and REGROW add what they were asked for and what they did to the counts of the update, MCOMMIT and its adopting form make the weight COMMITTED with the gradient plane of the next generation. R43: no pruning or regrowth takes a group or a cross-group over its cap. Completes: mbind, mdec, pruneG, pruneL, regrowM, regrowR, mcommit, mcommitAdopt, maskEngineStart, maskOpComplete. -/
def Obligations.MaskWork : Prop :=
  (∀ (h : Head) (s : State) (bind table : SRef) (wt : BitVec 16) (count : BitVec 9) (t5 : BitVec 5) (d : BitVec 32) (ref : SRef) (r : RegrowRec),
    h.stream = .u → s.clear h [t5.toNat] → s.recordInside h ref 64 →
    s.mask.queue.length + (if s.mask.running.isSome then 1 else 0) + s.ahead h .maskq [] < maskqDepth →
  ∀ p ∈ [(Instr.mbind h bind, MaskKind.bind ((s.ctx h.arr .u).sref bind), 0x50),
      (.mdec h wt count table, .mdec wt.toNat count.toNat ((s.ctx h.arr .u).sref table), 0x51),
      (.pruneG h wt t5, .pruneG wt.toNat t5.toNat, 0x52),
      (.pruneL h wt t5 d, .pruneL wt.toNat t5.toNat (if h.mod.getLsbD 0 then none else some d.toNat), 0x53),
      (.regrowM h wt ref r, .regrowM wt.toNat ((s.ctx h.arr .u).aref r.table) r.count.toNat (if h.mod.getLsbD 0 then none else some r.g.toNat), 0x54),
      (.regrowR h wt t5 d, .regrowR wt.toNat ((s.ctx h.arr .u).sregs.getD t5.toNat 0).toNat (if h.mod.getLsbD 0 then none else some d.toNat), 0x55),
      (.mcommit h wt d, .commit wt.toNat d.toNat, 0x56), (.mcommitAdopt h wt d, .adopt wt.toNat d.toNat, 0x56)],
    ∃ t op, exec p.1 s = .next t ∧
      t = { s with
        arrays := t.arrays
        tiers := { s.tiers with records := t.tiers.records }
        regs := { s.regs with vals := t.regs.vals }
        mask := { s.mask with queue := insertMask op s.mask.queue } } ∧ op.at_ = s.cycle ∧
      (∀ m, m ≠ h.arr → t.arr m = s.arr m) ∧ s.onlyIssued t h.arr ∧ s.movedOn t h ∧
      op.kind = p.2.1 ∧ op.opcode = p.2.2 ∧ op.arr = h.arr ∧ op.pc = (s.ctx h.arr .u).pc ∧ op.mark = s.markOf h ∧
      op.step = (s.ctx h.arr .u).curStep) ∧
  (∀ (op : MaskOp) (rest : List MaskOp) (s : State), s.mask.running = none → s.mask.queue = op :: rest →
    (∀ f, s.maskCheck op = some f → op.arr < s.arrays.length → ∃ t, exec .maskEngineStart s = .next t ∧ t.mask.running = none ∧
      t.mask.queue = rest ∧ (t.ctx op.arr .u).failed = true ∧ t.flt.unacked = true) ∧
    (s.maskCheck op = none → (∃ wt tag, op.kind = .commit wt tag) →
      exec .maskEngineStart s = .next { s with mask := { s.mask with queue := rest, running := some ({ op with stalled := false }, s.cycle + s.maskTime op.kind, true) } }) ∧
    (s.maskCheck op = none → (∀ wt tag, op.kind ≠ .commit wt tag) → s.opens op.kind = false →
      exec .maskEngineStart s = .next { s with mask := { s.mask with queue := rest, running := some ({ op with stalled := false }, s.cycle + s.maskTime op.kind, false) } }) ∧
    (∀ w, s.maskCheck op = none → s.opens op.kind = true → s.weight? op.kind.wt = some w →
      s.maskHeld (w.openReads s.mem) (spans (w.openWrites s.mem)) = false → s.eccRanges (w.openReads s.mem) = none →
      s.mergeBad (spans (w.openWrites s.mem)) = none → s.lacking op.step (spans (w.openWrites s.mem)) = [] →
      ∃ t, exec .maskEngineStart s = .next t ∧ t.mem = ((s.corrected (w.openReads s.mem)).putAll (w.openWrites s.mem)).mem ∧
        ((∀ y ∈ s.tiers.staged, y.arriving) → onlyWrites s.mem t.mem (w.openWrites s.mem)) ∧
        t.weight? op.kind.wt = some { w with st := .open_, pReq := 0, pDone := 0, gReq := 0, gDone := 0, nonfinite := false } ∧
        t.mask.queue = rest ∧ t.mask.running = some ({ op with stalled := false }, s.cycle + s.maskTime op.kind, false) ∧ t.arrays = s.arrays) ∧
    (∀ w, s.maskCheck op = none → s.opens op.kind = true → s.weight? op.kind.wt = some w →
      s.maskHeld (w.openReads s.mem) (spans (w.openWrites s.mem)) = true →
      ∃ t, exec .maskEngineStart s = .next t ∧ t.mem = s.mem ∧ t.arrays = s.arrays ∧ t.mask.running = none ∧
        t.mask.queue = { op with stalled := true } :: rest ∧ t.mask.weights = s.mask.weights) ∧
    (∀ w e, s.maskCheck op = none → s.opens op.kind = true → s.weight? op.kind.wt = some w → op.arr < s.arrays.length →
      s.maskHeld (w.openReads s.mem) (spans (w.openWrites s.mem)) = false → s.eccRanges (w.openReads s.mem) = some e →
      ∃ t, exec .maskEngineStart s = .next t ∧ t.mem = s.mem ∧ t.mask.running = none ∧ t.mask.queue = rest ∧
        (t.ctx op.arr .u).failed = true ∧ t.flt.unacked = true)) ∧
  (∀ (op : MaskOp) (at_ wt tag : Nat) (s : State), s.mask.running = some (op, at_, true) → op.kind = .commit wt tag →
    (s.commitReady wt tag = true → (s.weight? wt).isSome →
      ∃ t, exec .maskOpComplete s = .next t ∧ t.mask.running = some (op, s.cycle + s.maskTime op.kind, false) ∧ t.mask.queue = s.mask.queue ∧
        t.arrays = s.arrays) ∧
    (s.commitReady wt tag = false → s.commitLost wt = false → exec .maskOpComplete s = .next s)) ∧
  (∀ (op : MaskOp) (at_ : Nat) (s : State), s.mask.running = some (op, at_, false) → at_ ≤ s.cycle → s.eccRanges (s.maskReads op.kind) = none →
    s.maskHeld (s.maskReads op.kind) (spans (s.maskResult op).writes) = false → s.mergeBad (spans (s.maskResult op).writes) = none → s.lacking op.step (spans (s.maskResult op).writes) = [] →
    ∃ t, exec .maskOpComplete s = .next t ∧ t.mask.running = none ∧ t.mask.queue = s.mask.queue ∧ t.arrays = s.arrays ∧
      t.mem = ((s.corrected (s.maskReads op.kind)).putAll (s.maskResult op).writes).mem ∧
      ((∀ y ∈ s.tiers.staged, y.arriving) → onlyWrites s.mem t.mem (s.maskResult op).writes) ∧
      (∀ a, op.kind = .bind a → t.mem = s.mem ∧ ∃ e ∈ t.mask.weights, e.1 = (bindAt s.mem a).wt ∧ e.2.owner = (bindAt s.mem a).w.owner ∧
        e.2.v0.st = .ready ∧ e.2.v1.st = .free ∧ e.2.st = .idle) ∧
      (∀ wt n a w, op.kind = .mdec wt n a → s.weight? wt = some w → t.mem = s.mem ∧
        t.weight? wt = some { w with decision := some (w.decide_ s.mem a n s.freeWord.toNat) }) ∧
      (∀ wt k w, op.kind = .pruneG wt k → s.weight? wt = some w → ∃ n, t.weight? wt = some { w with pReq := w.pReq + n, pDone := w.pDone + n }) ∧
      (∀ wt k imm w, op.kind = .pruneL wt k imm → s.weight? wt = some w → ∃ n,
        t.weight? wt = some { w with pReq := w.pReq + s.takeCount imm (w.decision.map (·.pReq)), pDone := w.pDone + n }) ∧
      (∀ wt a n imm w, op.kind = .regrowM wt a n imm → s.weight? wt = some w → ∃ n' b,
        t.weight? wt = some { w with gReq := w.gReq + s.takeCount imm (w.decision.map (·.gReq)), gDone := w.gDone + n', nonfinite := b }) ∧
      (∀ wt seed imm w, op.kind = .regrowR wt seed imm → s.weight? wt = some w → ∃ n,
        t.weight? wt = some { w with gReq := w.gReq + s.takeCount imm (w.decision.map (·.gReq)), gDone := w.gDone + n }) ∧
      (∀ wt tag w, op.kind = .commit wt tag ∨ op.kind = .adopt wt tag → s.weight? wt = some w →
        ∃ w', t.weight? wt = some w' ∧ w'.st = .committed ∧ w'.gradGen = w.gen + 1 ∧ w'.gen = w.gen)) ∧
  (∀ (p : PartMask) (k k' least lim : Nat) (xs : List Ranked),
    (∀ t ∈ p, (∀ g ∈ t.2, g.length ≤ k) ∧ ∀ n o, crossCount t.2 n o ≤ k') →
    (∀ t ∈ (p.regrow k k' lim xs).1, (∀ g ∈ t.2, g.length ≤ k) ∧ ∀ n o, crossCount t.2 n o ≤ k') ∧
    ∀ t ∈ (p.prune least lim xs).1, (∀ g ∈ t.2, g.length ≤ k) ∧ ∀ n o, crossCount t.2 n o ≤ k')

/-- R188, R191, R201, R205, R304: UNRM, UPD and UVER.CLOSE whose checks pass take one slot of the U stream; UNRM.FIN takes one and makes the norm partial final once no UNRM is in flight, where no UNRM of the array has faulted. Completes: unrm, upd, unrmFin, uverClose. -/
def Obligations.UpdateIssue : Prop :=
  ∀ (h : Head) (wt : BitVec 16) (ref : SRef) (s : State) (k : Nat), h.stream = .u → s.clear h [] → (s.arr h.arr).freeSlot .u = some k →
    (∀ r : UnrmRec, s.recordInside h ref 64 → s.unrmCheck h wt.toNat r.e0.toNat r.e1.toNat ((s.ctx h.arr .u).optRef r.frz) = none →
      ∃ t o, exec (.unrm h wt ref r) s = .next t ∧ s.starts t h 0x60 k o ∧
        o.body = .unrm wt.toNat r.e0.toNat r.e1.toNat ((s.ctx h.arr .u).optRef r.frz)) ∧
    (∀ r : UpdRec, s.recordInside h ref 64 →
      s.updCheck h wt.toNat r.e0.toNat r.e1.toNat ((s.ctx h.arr .u).aref r.desc) ((s.ctx h.arr .u).optRef r.frz) = none →
      ∃ t o, exec (.upd h wt ref r) s = .next t ∧ s.starts t h 0x64 k o ∧ o.wt = wt.toNat ∧
        o.body = .upd wt.toNat r.e0.toNat r.e1.toNat r.e0.toNat ((s.ctx h.arr .u).aref r.desc) ((s.ctx h.arr .u).optRef r.frz) 0) ∧
    ((s.arr h.arr).finIssued = false → (s.arr h.arr).lost.any Op.isUnrm = false →
      ∃ t o, exec (.unrmFin h) s = .next t ∧ s.starts t h 0x61 k o ∧ o.body = .unrmFin (s.arr h.arr).unrms.isEmpty ∧
        (t.arr h.arr).normFinal = (s.arr h.arr).unrms.isEmpty) ∧
    (∀ w, s.weight? wt.toNat = some w → wt.toNat < 1024 → w.closed = false → (w.bufWith .writing (nextTag (s.ctx h.arr .u).curStep)).isSome →
      ∃ t o, exec (.uverClose h wt) s = .next t ∧ s.starts t h 0x65 k o ∧ o.body = .uverClose wt.toNat)

/-- R189, R153, R193: UVER.OPEN puts the chosen buffer into writing under the new tag, or waits for the users of its old version; UCHK waits in its slot and marks its step as checked. R203, R149, R190: a deferred tile that has waited too long faults its update, which never retires; a version closed after its last update is ready under its tag, and one closed behind a faulted update stays writing. Completes: uverOpen, uchk, deferTimeout, uverCloseRetire. -/
def Obligations.Versions : Prop :=
  (∀ (h : Head) (wt : BitVec 16) (tag : BitVec 32) (s : State) (k : Nat), h.stream = .u → s.clear h [] → (s.arr h.arr).freeSlot .u = some k →
    (∀ w b, s.uverOpenCheck h wt.toNat tag = none → s.weight? wt.toNat = some w →
      w.choose (BitVec.ofNat 32 (s.ctx h.arr .u).curStep) = some b →
      ((w.buf b).st ≠ .ready ∨ s.namesVersion wt.toNat (w.buf b).tag = false →
        ∃ t o, exec (.uverOpen h wt tag) s = .next t ∧ s.movedOn t h ∧ (t.arr h.arr).ops = (s.arr h.arr).ops ++ [o] ∧ s.isOpOf h 0x63 k o ∧
          t.weight? wt.toNat = some (w.modBuf b (fun v => { v with st := .writing, tag := tag })) ∧ t.mem = s.mem ∧
          t.mask.verWaits = s.mask.verWaits ∧ (∀ n, n ≠ wt.toNat → t.weight? n = s.weight? n) ∧ ∀ m, m ≠ h.arr → t.arr m = s.arr m) ∧
      ((w.buf b).st = .ready → s.namesVersion wt.toNat (w.buf b).tag = true →
        ∃ t o, exec (.uverOpen h wt tag) s = .next t ∧ s.movedOn t h ∧ (t.arr h.arr).ops = (s.arr h.arr).ops ++ [o] ∧ s.isOpOf h 0x63 k o ∧
          t.mask.weights = s.mask.weights ∧ t.mask.verWaits = s.mask.verWaits ++ [⟨wt.toNat, b, (w.buf b).tag, s.cycle⟩] ∧
          t.mem = s.mem ∧ ∀ m, m ≠ h.arr → t.arr m = s.arr m)) ∧
    (∃ t o, exec (.uchk h) s = .next t ∧ s.onlyArray t h.arr ∧ (t.arr h.arr).ops = (s.arr h.arr).ops ++ [o] ∧ s.isOpOf h 0x62 k o ∧
      (t.ctx h.arr .u).sameAs { (s.ctx h.arr .u).past with uchkStep := some (s.ctx h.arr .u).curStep })) ∧
  (∀ (arr : Nat) (d : Deferred) (o : Op) (s : State), arr < s.arrays.length → s.overdueTile arr = some d → (s.arr arr).updOp d.op = some o →
    ∃ t, exec (.deferTimeout arr) s = .next t ∧ (t.arr arr).ops = (s.arr arr).ops.filter (fun x => x.slot != o.slot) ∧
      (t.arr arr).lost = (s.arr arr).lost ++ [o] ∧
      (t.arr arr).deferred = (s.arr arr).deferred ∧ t.flt.unacked = true ∧ t.flt.last.isSome ∧ ∀ m, m ≠ arr → t.arr m = s.arr m) ∧
  (∀ (arr slot wt : Nat) (o : Op) (s : State), arr < s.arrays.length → s.op? arr slot = some o → o.body = .uverClose wt →
    (∀ b w, o.readyAt ≤ s.cycle → (s.arr arr).earlierUpd wt o.seq = false → (s.arr arr).lost.any (fun x => x.updBefore wt o.seq) = false →
      s.weight? wt = some w → w.bufWith .writing (nextTag o.step) = some b →
      ∃ t, exec (.uverCloseRetire arr slot) s = .next t ∧
        t = { s with arrays := t.arrays, mask := { s.mask with weights := t.mask.weights } } ∧
        (t.arr arr).ops = (s.arr arr).ops.filter (fun x => x.slot != slot) ∧
        t.weight? wt = some (w.modBuf b (fun v => { v with st := .ready, gen := w.genWritten s.mem b })) ∧
        (∀ n, n ≠ wt → t.weight? n = s.weight? n) ∧ ∀ m, m ≠ arr → t.arr m = s.arr m) ∧
    ((s.arr arr).lost.any (fun x => x.updBefore wt o.seq) = true → ∃ t, exec (.uverCloseRetire arr slot) s = .next t ∧ t.mask = s.mask))

/-- R191, R193, R194, R197: an UNRM whose time has passed and whose array's earlier ones have retired adds its squares to the array's partial and retires; the verdict is recorded once for the module and lets the array's updates start; a verdict of suppression is counted where UPD_CTRL lets the step go on, and is otherwise a fault that stops the U stream. R197 to R201, R205: no tile starts before the verdict; after it the unit takes the next tile of the oldest update whose state is staged; a finished tile's writes reach memory and no other byte changes. Completes: unrmRetire, uchkVerdict, updTile. -/
def Obligations.NormVerdictAndTiles : Prop :=
  ((∀ (arr slot wt e0 e1 : Nat) (frz : Option Nat) (o : Op) (w : Weight) (s : State), arr < s.arrays.length → s.op? arr slot = some o →
    o.body = .unrm wt e0 e1 frz → o.readyAt ≤ s.cycle → s.weight? wt = some w →
    (s.arr arr).unrms.any (fun x => x.seq < o.seq) = false → s.eccRanges (w.normReads s.mem frz e0 e1) arr = none →
    ∃ t, exec (.unrmRetire arr slot) s = .next t ∧ t = { s.corrected (w.normReads s.mem frz e0 e1) arr with arrays := t.arrays } ∧ (∀ m, m ≠ arr → t.arr m = s.arr m) ∧
      (t.arr arr).norm = w.normSum s.mem frz e0 e1 (s.arr arr).norm ∧
      ((s.arr arr).lost.any Op.isUnrm = false → (t.arr arr).ops.map (·.slot) = ((s.arr arr).ops.map (·.slot)).filter (· != slot)) ∧ ∀ st, t.ctx arr st = s.ctx arr st) ∧
  (∀ (arr slot : Nat) (o : Op) (g2 : DW) (s : State), arr < s.arrays.length → s.op? arr slot = some o → o.body = .uchk → s.ring.g2 = some g2 →
    s.ring.g2At + s.lat 0x24 ≤ s.cycle →
    (s.stp.verdict = 1 → ∃ t, exec (.uchkVerdict arr slot) s = .next t ∧ t = { s with arrays := t.arrays } ∧
      (t.arr arr).verdictDone = true ∧ (t.arr arr).ops = (s.arr arr).ops.filter (fun x => x.slot != slot) ∧ ∀ m, m ≠ arr → t.arr m = s.arr m) ∧
    (s.stp.verdict = 0 → (evalNorm g2 (s.reg Reg.UPD_CLIP) (s.reg Reg.UPD_ABSURD)).1 = 1 →
      ∃ t, exec (.uchkVerdict arr slot) s = .next t ∧ (t.arr arr).verdictDone = true ∧
        t.stp = { s.stp with verdict := 1, verdictSat := s.ring.g2Sat, clip := (evalNorm g2 (s.reg Reg.UPD_CLIP) (s.reg Reg.UPD_ABSURD)).2.1 } ∧
        t.mem = s.mem ∧ t.flt = s.flt) ∧
    (∀ v, s.stp.verdict = 0 → (evalNorm g2 (s.reg Reg.UPD_CLIP) (s.reg Reg.UPD_ABSURD)).1 = v → v ≠ 1 → s.regsSorted →
      ((s.regN Reg.UPD_CTRL).testBit (v - 2) = false → ∃ t, exec (.uchkVerdict arr slot) s = .next t ∧ (t.arr arr).verdictDone = true ∧
        (v = 2 ∨ v = 3) ∧ t.stp = { s.stp with verdict := v, verdictSat := s.ring.g2Sat, clip := f32one } ∧
        t.reg Reg.UPD_SUPPRESSED = s.reg Reg.UPD_SUPPRESSED + 1 ∧ t.flt.first = s.flt.first ∧ t.flt.unacked = s.flt.unacked ∧
        t.mem = s.mem ∧ (∀ st, t.ctx arr st = s.ctx arr st) ∧ ∀ m, m ≠ arr → t.arr m = s.arr m) ∧
      ((s.regN Reg.UPD_CTRL).testBit (v - 2) = true → ∃ t, exec (.uchkVerdict arr slot) s = .next t ∧ (t.arr arr).verdictDone = true ∧
        t.stp.verdict = v ∧ (t.ctx arr .u).failed = true ∧ t.flt.unacked = true ∧ t.mem = s.mem ∧ ∀ m, m ≠ arr → t.arr m = s.arr m)))) ∧
  (∀ (arr : Nat) (s : State), arr < s.arrays.length →
    ((s.arr arr).updCur = none → (s.arr arr).verdictDone = false → exec (.updTile arr) s = .next s) ∧
    (∀ o wt e0 e1 nx desc frz p w, (s.arr arr).updCur = none → (s.arr arr).verdictDone = true → s.stagedDeferred arr = none →
      s.nextUpd arr = some o → o.body = .upd wt e0 e1 nx desc frz p → s.weight? wt = some w → s.stateReady arr wt nx = true →
      ∃ t, exec (.updTile arr) s = .next t ∧ s.onlyWork t arr ∧
        (t.arr arr).updCur = some ⟨o.seq, wt, nx, s.cycle + updTileTime (w.dir s.mem).capK (dirAt s.mem w.wc0).fmt.mx⟩ ∧
        (t.arr arr).ops.map (·.slot) = (s.arr arr).ops.map (·.slot)) ∧
    (∀ c o u, (s.arr arr).updCur = some c → c.endAt ≤ s.cycle → s.tileResult arr c = some (o, u) → s.eccRanges (s.updReads c o) arr = none →
      s.lacking o.step (spans u.writes) = [] →
      ∃ t, exec (.updTile arr) s = .next t ∧ t.mem = ((s.corrected (s.updReads c o) arr).putAll u.writes).mem ∧ (∀ m, m ≠ arr → t.arr m = s.arr m) ∧
        ((∀ y ∈ s.tiers.staged, y.arriving) → onlyWrites s.mem t.mem u.writes) ∧ (∀ st, t.ctx arr st = s.ctx arr st)))

/-! ### Counters and background work -/

/-- R271, R276, R288, R307: WCREQ takes a slot and its request arrives at the counter; WCSET waits in the counter and has no effect under the recompute flag. R273, R275, R276: a due request in order, with the expected tag and no overflow, is granted the counter's value, which grows by n; a repeated request gets the same grant and changes no value; a request ahead of its turn waits; a WCSET with no request waiting sets value and expected tag. Completes: wcreq, wcset, workCounterRequest. -/
def Obligations.WorkCounters : Prop :=
  (∀ (h : Head) (b : BodyW) (s : State), s.clear h [b.reg.toNat] → b.counter.toNat < 16 → s.wct.length = 16 →
    (∀ k, (s.arr h.arr).freeSlot h.stream = some k → b.n ≠ 0 → (h.stream = .u → s.journaling = false) →
      ∃ t o q, exec (.wcreq h b) s = .next t ∧ (t.arr h.arr).ops = (s.arr h.arr).ops ++ [o] ∧ s.isOpOf h 0x90 k o ∧ o.sreg = some b.reg.toNat ∧
        s.movedOn t h ∧ t.wct = s.wct.modify b.counter.toNat (fun w => { w with arriving := w.arriving ++ [q] }) ∧
        q.n = b.n.toNat ∧ q.tag = b.tag.toNat ∧ q.slot = k ∧ q.arr = h.arr ∧ q.rd = b.reg.toNat ∧
        q.requester = 4 * h.arr + (if (s.ctx h.arr h.stream).recompute.isSome then 0 else h.stream.idx) ∧
        t.mem = s.mem ∧ ∀ m, m ≠ h.arr → t.arr m = s.arr m) ∧
    ((s.ctx h.arr h.stream).recompute = none →
      ∃ t x, exec (.wcset h b) s = .next t ∧ s.movedOn t h ∧ t.wct = s.wct.modify b.counter.toNat (fun w => { w with sets := w.sets ++ [x] }) ∧
        x.value = ((s.ctx h.arr h.stream).sregs.getD b.reg.toNat 0).toNat ∧ x.tag = b.tag.toNat ∧ t.mem = s.mem ∧ ∀ m, m ≠ h.arr → t.arr m = s.arr m) ∧
    ((s.ctx h.arr h.stream).recompute.isSome → ∃ t, exec (.wcset h b) s = .next t ∧ s.onlyStream t h ∧ t.wct = s.wct)) ∧
  (∀ (c : Nat) (s : State), c < s.wct.length →
    (∀ x, s.dueSet c = some x → exec (.workCounterRequest c) s =
      .next { s with wct := s.wct.modify c (fun w => { w with value := x.value, e := x.tag, log := [], sets := w.sets.drop 1 }) }) ∧
    (∀ q, s.dueSet c = none → s.nextRequest c = some q → q.at_ + s.lat 0x28 ≤ s.cycle → s.elastic c = false → q.arr < s.arrays.length →
      ((s.counter c).log.find? (fun l => l.tag == q.tag) = none → q.tag = (s.counter c).e → (s.counter c).value + q.n < 2 ^ 64 →
        ∃ t, exec (.workCounterRequest c) s = .next t ∧ (t.counter c).value = (s.counter c).value + q.n ∧
          (t.counter c).e = ((s.counter c).e + 1) % 2 ^ 32 ∧ (t.counter c).log.getLast? = some ⟨q.tag, q.requester, (s.counter c).value⟩ ∧
          t.ctx q.arr q.stream = { s.ctx q.arr q.stream with
            sregs := (s.ctx q.arr q.stream).sregs.set q.rd (BitVec.ofNat 64 (s.counter c).value) } ∧
          (t.arr q.arr).ops = (s.arr q.arr).ops.filter (fun y => y.slot != q.slot) ∧ t.mem = s.mem) ∧
      (∀ l, (s.counter c).log.find? (fun l => l.tag == q.tag) = some l → l.requester = q.requester →
        ∃ t, exec (.workCounterRequest c) s = .next t ∧ (t.counter c).value = (s.counter c).value ∧ (t.counter c).e = (s.counter c).e ∧
          t.ctx q.arr q.stream = { s.ctx q.arr q.stream with sregs := (s.ctx q.arr q.stream).sregs.set q.rd (BitVec.ofNat 64 l.grant) }) ∧
      ((s.counter c).log.find? (fun l => l.tag == q.tag) = none → (s.counter c).e < q.tag →
        ∃ t, exec (.workCounterRequest c) s = .next t ∧ (t.counter c).value = (s.counter c).value ∧ (t.counter c).e = (s.counter c).e ∧
          q ∈ (t.counter c).table ∧ t.arrays = s.arrays)))

/-- R308, R309: a DIG instruction that meets every condition of issue takes a slot and a place in the Dill queue; R143: under the recompute flag it retires at once and queues nothing. R309: the lowest free engine takes the queue's head, and its fixed latency counts from there (DEDUCED, log 50: R310 says so of DIG.PROV); the finished engine writes the digest or the chaining record, changes no other byte, and frees the slot. Completes: digH, digProv, dillEngineStart, digestWritten. -/
def Obligations.DillWork : Prop :=
  (∀ (h : Head) (ref : SRef) (s : State) (k : Nat), (s.ctx h.arr h.stream).recompute = none →
    (∀ r : DigHRec, s.issuesClean h (s.digInfo h 0x98 ref (s.digHCheck h r)) k →
      ∃ t o, exec (.digH h ref r) s = .next t ∧ s.movedOn t h ∧ (t.arr h.arr).ops = (s.arr h.arr).ops ++ [o] ∧ s.isOpOf h 0x98 k o ∧
        (⟨h.arr, k, s.cycle⟩ : DillReq) ∈ t.dillQ ∧ t.dillQ.length = s.dillQ.length + 1 ∧ t.mem = s.mem ∧
        o.body = .digH ((s.ctx h.arr h.stream).aref r.src) r.len.toNat ((s.ctx h.arr h.stream).aref r.dst) ((s.ctx h.arr h.stream).optRef r.ctx)
          (h.mod.getLsbD 0) (h.mod.getLsbD 1)) ∧
    (∀ r : DigProvRec, s.issuesClean h (s.digInfo h 0x99 ref (s.digProvCheck h r)) k →
      ∃ t o, exec (.digProv h ref r) s = .next t ∧ s.movedOn t h ∧ (t.arr h.arr).ops = (s.arr h.arr).ops ++ [o] ∧ s.isOpOf h 0x99 k o ∧
        (⟨h.arr, k, s.cycle⟩ : DillReq) ∈ t.dillQ ∧ t.dillQ.length = s.dillQ.length + 1 ∧ t.mem = s.mem ∧
        o.body = .digProv ((s.ctx h.arr h.stream).aref r.prog) ((s.ctx h.arr h.stream).aref r.weights) ((s.ctx h.arr h.stream).aref r.inputs)
          ((s.ctx h.arr h.stream).aref r.dst))) ∧
  (∀ (h : Head) (ref : SRef) (s : State), (s.ctx h.arr h.stream).recompute.isSome → s.clear h [] → s.recordInside h ref 64 →
    (∀ r : DigHRec, ∃ t, exec (.digH h ref r) s = .next t ∧ s.onlyStream t h ∧ (t.ctx h.arr h.stream).sameAs (s.ctx h.arr h.stream).past) ∧
    (∀ r : DigProvRec, ∃ t, exec (.digProv h ref r) s = .next t ∧ s.onlyStream t h ∧ (t.ctx h.arr h.stream).sameAs (s.ctx h.arr h.stream).past)) ∧
  (∀ (q : DillReq) (rest : List DillReq) (o : Op) (i : Nat) (s : State), s.dillQ = q :: rest → s.op? q.arr q.slot = some o →
    s.dill[i]? = some none → (∀ j, j < i → ∃ x, s.dill[j]? = some (some x)) →
    exec .dillEngineStart s = .next { s with dillQ := rest, dill := s.dill.set i (some (q, s.cycle + s.digTime o.body)) }) ∧
  (∀ (e : Nat) (q : DillReq) (at_ : Nat) (o : Op) (s : State), s.dill[e]? = some (some (q, at_)) → at_ ≤ s.cycle →
    q.arr < s.arrays.length → s.op? q.arr q.slot = some o → s.eccRanges (digReads o.body) = none →
    s.lacking o.step (spans (digOutput s.mem o.step o.body).toList) = [] →
    ∃ t, exec (.digestWritten e) s = .next t ∧
      t.mem = ((s.corrected (digReads o.body)).putAll (digOutput s.mem o.step o.body).toList).mem ∧
      ((∀ y ∈ s.tiers.staged, y.arriving) → onlyWrites s.mem t.mem (digOutput s.mem o.step o.body).toList) ∧
      t.dill[e]? = some none ∧ (t.arr q.arr).ops = (s.arr q.arr).ops.filter (fun x => x.slot != q.slot))

/-- R348: a journal copy enters the block's prior bytes in the journal of the step and writes nothing but its entry of the journal region (where an entry and its tag stand: DESIGN CHOICE, log 95). R358: a refill copy sends the block at its pointer and moves the pointer on; behind the last block the copy has ended once every block has gone out. R209, R216: what a read corrects on its way changes no byte, no operation and no uncorrectable block. R216, R218, R220: a package copy goes to the next block, marking what does not correct, and the last one switches the slot to its target channel and records it (R221); the scrub records what it finds. Completes: journalBlockCopy, refillCopyBlock, packageCopyBlock, patrolScrub. -/
def Obligations.BackgroundCopies : Prop :=
  (∀ (addr step : Nat) (s : State), (addr, step) ∈ s.mir.jrnWait → s.hasBlock step addr = false →
    s.journalUsed + journalEntry ≤ s.journalSize → s.eccBad addr 2048 = none →
    ∃ t, exec (.journalBlockCopy addr step) s = .next t ∧ t.arrays = s.arrays ∧ t.mir.jrnWait = s.mir.jrnWait.erase (addr, step) ∧
      t.hasBlock step addr = true ∧ (∃ g ∈ t.mir.gens, ∃ x ∈ g.entries, g.step = step ∧ x.addr = addr ∧ x.bytes = memGet s.mem addr 2048) ∧
      ((∀ y ∈ s.tiers.staged, y.arriving) → onlyWrites s.mem t.mem
        [(s.journalPlace.1 + journalEntry * s.journalFree, memGet s.mem addr 2048 ++ journalTag addr step)])) ∧
  (∀ (p : Nat) (s : State), s.mir.refillPtr = some p → p ≠ refillEnd → s.mir.refillDone = false → s.eccBad p (s.refillBytes p) = none →
    (∀ a, s.refillNext (p + max (s.refillBytes p) 1) = some a →
      ∃ t, exec .refillCopyBlock s = .next t ∧ t.mem = s.mem ∧ t.arrays = s.arrays ∧ t.mir = { s.mir with refillPtr := some a }) ∧
    (s.refillNext (p + max (s.refillBytes p) 1) = none →
      ∃ t, exec .refillCopyBlock s = .next t ∧ t.mem = s.mem ∧ t.arrays = s.arrays ∧ t.mir.refillPtr = some refillEnd ∧
        t.mir.refillDone = !(s.copyRange s.stp.step p (s.refillBytes p)).refillQueued)) ∧
  (∀ (rs : List (Nat × Nat)) (own : Nat) (s : State), (s.corrected rs own).mem = s.mem ∧ (s.corrected rs own).arrays = s.arrays ∧
    (s.corrected rs own).ring = s.ring ∧ (s.corrected rs own).thy = s.thy ∧ (s.corrected rs own).mask = s.mask ∧
    (s.corrected rs own).mir = s.mir ∧ (s.corrected rs own).tiers.bad = s.tiers.bad ∧
    (s.tiers.soft = [] → s.tiers.nearSoft = [] → s.corrected rs own = s)) ∧
  (∀ (c : PkgCopy) (s : State), s.tiers.copy = some c → c.ptr + 1 < 2 ^ 24 →
    ∃ t, exec (.packageCopyBlock false) s = .next t ∧ t.tiers.copy = some { c with ptr := c.ptr + 1 } ∧
      s.moduleBlock c.slot c.ptr ∈ t.tiers.bad ∧ t.mem = s.mem ∧ t.tiers.chmap = s.tiers.chmap ∧ t.dev = s.dev) ∧
  (∀ (c : PkgCopy) (s : State), s.tiers.copy = some c → c.ptr + 1 < 2 ^ 24 → s.moduleBlock c.slot c.ptr ∉ s.tiers.bad →
    s.corrected [(2048 * s.moduleBlock c.slot c.ptr, 2048)] = s → ∃ t, exec (.packageCopyBlock true) s = .next t ∧ t.tiers = { s.tiers with copy := some { c with ptr := c.ptr + 1 } } ∧ t.mem = s.mem) ∧
  (∀ (c : PkgCopy) (ok : Bool) (s : State), s.regsSorted → s.tiers.copy = some c → c.ptr + 1 = 2 ^ 24 → s.tiers.copyWaiting = [] →
    s.corrected [(2048 * s.moduleBlock c.slot c.ptr, 2048)] = s →
    ∃ t, exec (.packageCopyBlock ok) s = .next t ∧ t.tiers.copy = none ∧ t.tiers.chmap = s.tiers.chmap.set c.slot c.target ∧
      t.dev.pkgSubst = s.dev.pkgSubst ++ [(c.slot, c.target)] ∧ (t.reg Reg.TIR_STATUS).getLsbD 3 = true ∧ t.mem = s.mem ∧ t.arrays = s.arrays) ∧
  (∀ (b : Nat) (s : State), s.isFar (b * 2048) = true →
    exec (.patrolScrub b .clean) s = .next s ∧
    (∀ n, kvGet 0 s.tiers.pkgCe (s.channelOf (b * 2048)) + n ≤ s.regN Reg.TIR_CE_LIMIT →
      ∃ t, exec (.patrolScrub b (.corrected n)) s = .next t ∧ t = { s with tiers := { s.tiers with pkgCe := t.tiers.pkgCe, soft := t.tiers.soft } } ∧
        t.tiers.soft = s.tiers.soft.filter (fun y => y.1 != b) ∧
        t.tiers.pkgCe = kvSet 0 s.tiers.pkgCe (s.channelOf (b * 2048)) ((kvGet 0 s.tiers.pkgCe (s.channelOf (b * 2048)) + n) % 2 ^ 64)) ∧
    ∃ t, exec (.patrolScrub b .uncorrectable) s = .next t ∧ b ∈ t.tiers.bad ∧ t.flt.unacked = true ∧ t.arrays = s.arrays)

/-! ### Context store, placement, messages -/

/-- R143, R225, R304, R305: CTX.APPEND that meets every condition of issue takes a slot with its source and the entry's head read at issue (of a header and entry without an error to correct); under the recompute flag CTX.APPEND and CTX.ADV retire at once and nothing of the store changes. R225, R305: when its latency has passed an append's slot is free, its rows are in the store and no other byte changes (but by the CTX.ADVs that waited for it). R225, R305: CTX.ADV raises the head of its sequence by n once no earlier append of the stream on that sequence is in flight, and until then leaves memory alone. Completes: ctxAppend, ctxAppendRetire, ctxAdv. -/
def Obligations.ContextStore : Prop :=
  (∀ (h : Head) (ref : SRef) (r : CtxRec) (s : State) (k : Nat),
    s.issuesClean h (s.ctxInfo h 0x70 ref (11 ≤ r.src.format.toNat) (s.ctxCheck h r (some r.block.toNat) ++ [failIf (s.appendRange h r) 0x10 4])) k →
    s.corrected (s.ctxReads h r) h.arr = s →
    ((s.ctx h.arr h.stream).recompute.isSome → ∃ t, exec (.ctxAppend h ref r) s = .next t ∧ s.onlyStream t h ∧
      (t.ctx h.arr h.stream).sameAs (s.ctx h.arr h.stream).past) ∧
    ((s.ctx h.arr h.stream).recompute = none → ∃ t o, exec (.ctxAppend h ref r) s = .next t ∧ s.starts t h 0x70 k o ∧
      o.body = .ctxAppend (s.ctxSeq h r).at_ r.block.toNat (s.ctxSeq h r).head ((s.ctx h.arr h.stream).oref r.src) r.srcStride.toNat r.n.toNat)) ∧
  (∀ (arr slot entry block head src stride n : Nat) (o : Op) (s : State), arr < s.arrays.length → s.op? arr slot = some o →
    o.body = .ctxAppend entry block head src stride n → o.readyAt ≤ s.cycle →
    s.eccBad src (appendSpan (seqAt s.mem entry) stride n) arr = none →
    s.lacking o.step (spans (s.appendWrites entry block head src stride n)) = [] →
    ∃ t, exec (.ctxAppendRetire arr slot) s = .next t ∧
      (t.arr arr).ops.map (·.slot) = ((s.arr arr).ops.map (·.slot)).filter (· != slot) ∧ (∀ m, m ≠ arr → t.arr m = s.arr m) ∧
      ((∀ o ∈ (s.arr arr).ops, ∀ e k, o.body ≠ .ctxAdv e k false) →
        t.mem = ((s.corrected [(src, appendSpan (seqAt s.mem entry) stride n)] arr).putAll (s.appendWrites entry block head src stride n)).mem ∧
        ((∀ y ∈ s.tiers.staged, y.arriving) → onlyWrites s.mem t.mem (s.appendWrites entry block head src stride n)))) ∧
  (∀ (h : Head) (ref : SRef) (r : CtxRec) (s : State) (k : Nat), s.issuesClean h (s.ctxAdvInfo h ref r) k → s.corrected (s.ctxReads h r) h.arr = s →
    ((s.ctx h.arr h.stream).recompute.isSome → ∃ t, exec (.ctxAdv h ref r) s = .next t ∧ s.onlyStream t h ∧
      (t.ctx h.arr h.stream).sameAs (s.ctx h.arr h.stream).past) ∧
    ((s.ctx h.arr h.stream).recompute = none → (s.arr h.arr).earlierAppend h.stream (s.ctxSeq h r).at_ (s.arr h.arr).issueSeq = false →
      ∃ t o, exec (.ctxAdv h ref r) s = .next t ∧ s.movedOn t h ∧ (t.arr h.arr).ops.map (·.slot) = (s.arr h.arr).ops.map (·.slot) ++ [k] ∧
        t.op? h.arr k = some o ∧ o.body = .ctxAdv (s.ctxSeq h r).at_ r.n.toNat true ∧
        ((∀ o ∈ (s.arr h.arr).ops, ∀ e n, o.body ≠ .ctxAdv e n false) →
          t.mem = (s.putMem ((s.ctxSeq h r).at_ + 32) (leBytes 8 ((s.ctxSeq h r).head + r.n.toNat))).mem ∧
          ((∀ y ∈ s.tiers.staged, y.arriving) →
            onlyWrites s.mem t.mem [((s.ctxSeq h r).at_ + 32, leBytes 8 ((s.ctxSeq h r).head + r.n.toNat))]))) ∧
    ((s.ctx h.arr h.stream).recompute = none → (s.arr h.arr).earlierAppend h.stream (s.ctxSeq h r).at_ (s.arr h.arr).issueSeq = true →
      (∀ o ∈ (s.arr h.arr).ops, ∀ e n, o.body ≠ .ctxAdv e n false) →
      ∃ t o, exec (.ctxAdv h ref r) s = .next t ∧ s.starts t h 0x71 k o ∧ o.body = .ctxAdv (s.ctxSeq h r).at_ r.n.toNat false))

/-- R229, R230, R304: PSTAGE leaves a hint on the record of the object it names and no trace where it names none; the engine's tick changes no byte of memory, writes back what is dirty (that the tick does so: DESIGN CHOICE, log 90), stages only candidates, and does nothing more without one. R216, R226, R231, R232: a staging that completes makes its object usable in the window with the far tier's bytes; a staging hold that has lasted its limit, one of its objects still missing, faults its head. Completes: pstage, placementTick, stagingComplete, stageHoldTimeout. -/
def Obligations.Placement : Prop :=
  ((∀ (h : Head) (ref : SRef) (r : PstageRec) (s : State), s.clear h [] → s.recordInside h ref 64 →
    (∀ o, s.objAt ((s.ctx h.arr h.stream).aref r.obj) = some o → o.obj = (s.ctx h.arr h.stream).aref r.obj → s.tiers.records.length < 65536 →
      ∃ t, exec (.pstage h ref r) s = .next t ∧ s.onlyWork t h.arr ∧ s.movedOn t h ∧ (t.arr h.arr).ops = (s.arr h.arr).ops ∧
        ∃ x ∈ t.tiers.records, x.key = (s.ctx h.arr h.stream).aref r.obj ∧
          (h.arr, ((s.ctx h.arr h.stream).mark r.tick).toNat) ∈ x.hints) ∧
    (s.objAt ((s.ctx h.arr h.stream).aref r.obj) = none →
      ∃ t, exec (.pstage h ref r) s = .next t ∧ s.onlyStream t h ∧ t.tiers = s.tiers)) ∧
  (∀ s : State, (s.writeBackDirty.candidates = [] → exec .placementTick s = .next s.writeBackDirty) ∧
    ∃ t, exec .placementTick s = .next t ∧ t.mem = s.mem ∧ t.arrays = s.arrays ∧ t.ring = s.ring ∧
      ∀ y ∈ t.tiers.staged, (∃ x ∈ s.tiers.staged, x.obj = y.obj ∧ x.arr = y.arr ∧ x.arriving = y.arriving) ∨
        (y.arriving = true ∧ ∃ c ∈ s.writeBackDirty.candidates, c.obj = y.obj ∧ c.arr = y.arr))) ∧
  ((∀ (window obj : Nat) (y : Staged) (o : ObjInfo) (s : State), s.staged? window obj = some y → s.objAt obj = some o → y.arriving = true →
    s.eccRanges o.pieces = none →
    ∃ t, exec (.stagingComplete window obj) s = .next t ∧ t.isStaged window obj = true ∧
      t.mem = (s.fillFrames y (o.bytes s.mem)).mem ∧ t.tiers.requests = s.tiers.requests.filter (fun q => q != ⟨obj, window⟩) ∧
      t.arrays = s.arrays ∧ t.tiers.records = s.tiers.records) ∧
  (∀ (arr : Nat) (st : Stream) (hi : HeadInfo) (w : Nat × Nat) (s : State), arr < s.arrays.length → (s.ctx arr st).head = some hi → hi.hold = .staging →
    (s.ctx arr st).failed = false → s.mayTimeOut = true → hi.wants.find? (fun x => !s.isStaged x.2 x.1) = some w →
    hi.sinceTick + s.regN Reg.TIR_STAGE_LIMIT ≤ s.tick →
    ∃ t, exec (.stageHoldTimeout arr st) s = .next t ∧ (t.ctx arr st).failed = true ∧ (t.ctx arr st).pc = (s.ctx arr st).pc ∧
      t.flt.unacked = true ∧ ∀ m, m ≠ arr → t.arr m = s.arr m))

/-- R143, R306, R321, R327: on an open context RSEND and RRECV that meet every condition of issue queue their message, behind earlier ones and in array order with those of the same cycle (R363), and touch nothing else; on a LOST one, and RSEND under the recompute flag, they move no data. R20: a reserved format code of their buffer faults at decode. Completes: rsend, rrecv. -/
def Obligations.MessageIssue : Prop :=
  ∀ (h : Head) (ref : SRef) (r : RingRec) (c : CtxEntry) (s : State), s.ctxE? r.ctx.toNat = some c →
    ((s.ctx h.arr h.stream).recompute = none → s.issuesClean h (s.ringInfo h ref r false) 0 →
      ∃ t c' x, exec (.rsend h ref r) s = .next t ∧ s.movedOn t h ∧ t.mem = s.mem ∧ (∀ m, m ≠ h.arr → t.arr m = s.arr m) ∧
        t.ring = { s.ring with ctxs := t.ring.ctxs } ∧ t.ctxE? r.ctx.toNat = some c' ∧
        c'.sends = (if c.st = .open_ then insertMessage (fun y => (y.at_, y.arr)) x c.sends else c.sends) ∧ x.at_ = s.cycle ∧ x.arr = h.arr ∧ c'.recvs = c.recvs ∧ c'.arms = c.arms ∧ c'.st = c.st ∧
        x.tag = r.tag.toNat ∧ x.len = r.len.toNat ∧ x.buf = (s.ctx h.arr h.stream).oref r.buf ∧ x.sent = false) ∧
    (s.issuesClean h (s.ringInfo h ref r true) 0 →
      ∃ t c' x, exec (.rrecv h ref r) s = .next t ∧ s.movedOn t h ∧ t.mem = s.mem ∧ (∀ m, m ≠ h.arr → t.arr m = s.arr m) ∧
        t.ring = { s.ring with ctxs := t.ring.ctxs } ∧ t.ctxE? r.ctx.toNat = some c' ∧
        c'.recvs = (if c.st = .open_ then insertMessage (fun y => (y.at_, y.arr)) x c.recvs else c.recvs) ∧ x.at_ = s.cycle ∧ x.arr = h.arr ∧ c'.sends = c.sends ∧ c'.arms = c.arms ∧ c'.st = c.st ∧
        x.tag = r.tag.toNat ∧ x.len = r.len.toNat ∧ x.buf = (s.ctx h.arr h.stream).oref r.buf ∧ x.add = r.add ∧ x.got = 0) ∧
    (∀ row, ringBadFormat r = some row → s.clear h [] → s.recordInside h ref 64 → h.mod = 0 →
      ∃ k, exec (.rsend h ref r) s = .next (s.faultHead h k) ∧ k.code = 0x24 ∧ k.check = row) ∧
    ((s.ctx h.arr h.stream).recompute.isSome → ringBadFormat r = none → s.clear h [] → s.recordInside h ref 64 →
      ∃ t, exec (.rsend h ref r) s = .next t ∧ s.onlyStream t h ∧ t.ring = s.ring)

/-- R320: go-back-N. A frame of any type that takes a number whose CRC is bad or whose number is not the next one reaches neither memory nor an array, a context or the merge table, and the next number expected stays; a bad CRC is counted at its port. A DATA frame is among them, and a frame for another module, which then does not go on. LINK and CREDIT frames take no number (DEDUCED, log 31): one with a bad CRC frees nothing, gives no credit and is counted like the others. -/
def Obligations.LinkRejects : Prop :=
  ∀ (f : Frame) (i : PhaseInfo) (typ : Nat) (s : State), f.port < 5 → (s.port f.port).st = .up →
    (f.crcOk = false ∨ f.linkSeq ≠ (s.port f.port).rxSeq) →
  (∀ c ∈ [Instr.armFrame f, .doneFrame f, .openFrame f, .closeFrame f, .beaconFrame f, .rebindFrame f, .normFrame f, .phaseFrame f i, .holdMessage f i,
      .holdOn f, .holdOff f, .rateMessage f, .dataFrame f] ++
      (if 13 ≤ typ ∨ (f.port ≠ 4 ∧ f.dst ≠ s.ring.addr) then [.frameForward typ f] else []) ++
      (if f.crcOk = false then [.linkFrame f, .creditFrame f] else []),
    ∃ t, exec c s = .next t ∧ s.onlyRing t ∧ t.ring.ctxs = s.ring.ctxs ∧ t.ring.merges = s.ring.merges ∧ t.ring.g2 = s.ring.g2 ∧
      (t.port f.port).rxSeq = (s.port f.port).rxSeq ∧ (t.port f.port).credits = (s.port f.port).credits ∧
      (∀ q, q ≠ f.port → t.port q = s.port q) ∧
      (f.crcOk = false → (t.port f.port).replay = (s.port f.port).replay) ∧
      (f.crcOk = false → s.regsSorted → t.reg (portBase f.port + Reg.RNG_P_CRC) = s.reg (portBase f.port + Reg.RNG_P_CRC) + 1) ∧
      (f.crcOk = true → t.regs = s.regs)) ∧
  (typ < 13 → f.port = 4 ∨ f.dst = s.ring.addr → exec (.frameForward typ f) s = .next s)

/-- R321, R322: a DATA frame that fits the first receive of an open context lands at its offset, no other byte changes; the last byte retires the receive. The bytes for a receive behind an unfinished one of its context stay early, and memory does not change (where they stay: DESIGN CHOICE, log 107). R323, R156: of a frame for an adding receive only the bytes it names can change; an early unit is applied when it is the first receive's and every earlier add on it has been; it is then no longer early. R345, R212: a write that the twin forwards lands where it says (the layout of the frame: DESIGN CHOICE, log 30), or, where no region lets it, is discarded and faults. Completes: dataFrame, addingUnitApply. -/
def Obligations.DataFrames : Prop :=
  (∀ (f : Frame) (c : CtxEntry) (r : Recv) (s : State), s.linkTakes f → s.forMe f → s.isForward f = false → s.ctxE? f.dstCtx = some c →
    c.st = .open_ → c.current = some r → 32 * f.offset + f.payload.length ≤ r.len →
    s.allowed (r.buf + 32 * f.offset) f.payload.length ringUser (if r.add then .add else .write) false →
    s.lacking (s.dataSpans f).1 (s.dataSpans f).2 = [] → Memory.wf s.mem → (∀ y ∈ s.tiers.staged, y.arriving) →
    (r.add = false → c.isFirst r = true → r.early = [] → s.unmergeable (r.buf + 32 * f.offset) f.payload.length = [] →
      ∃ t c', exec (.dataFrame f) s = .next t ∧
        (∀ x, memByte t.mem x = if r.buf + 32 * f.offset ≤ x ∧ x < r.buf + 32 * f.offset + f.payload.length
          then f.payload.getD (x - (r.buf + 32 * f.offset)) 0 else memByte s.mem x) ∧
        ((s.mir.desc = none ∨ r.port ≠ 4) → t.arrays = s.arrays ∧ t.ctxE? f.dstCtx = some c' ∧ c'.st = .open_ ∧ c'.lastFrame = s.period ∧
          (r.len ≤ r.got + f.payload.length → c'.recvs.length + 1 = c.recvs.length) ∧
          (r.got + f.payload.length < r.len →
            c'.recvs = c.recvs.map (fun y => if y == r then { r with got := r.got + f.payload.length } else y)))) ∧
    (c.isFirst r = false → (r.add = true → s.eccBad (r.buf + 32 * f.offset) f.payload.length = none) → ∃ t c' r', exec (.dataFrame f) s = .next t ∧ t.mem = s.mem ∧ t.arrays = s.arrays ∧ t.ctxE? f.dstCtx = some c' ∧
      c'.recvs = c.recvs.map (fun y => if y == r then r' else y) ∧ r'.got = r.got ∧
      r'.early.length = r.early.length + (f.payload.length + 31) / 32) ∧
    (r.add = true → s.eccBad (r.buf + 32 * f.offset) f.payload.length = none →
      ∃ t, exec (.dataFrame f) s = .next t ∧ onlyWrites s.mem t.mem [(r.buf + 32 * f.offset, f.payload)])) ∧
  (∀ (f : Frame) (s : State), s.linkTakes f → s.isForward f = true → (∀ i ∈ [27, 28, 29, 30, 31], f.aux.getLsbD i = false) →
    s.lacking (s.dataSpans f).1 (s.dataSpans f).2 = [] →
    (f.dstCtx ≠ forwardCtx ∨ s.allowed (forwardAddr f) (forwardBody f).length ringUser .write false = true →
      ∃ t, exec (.dataFrame f) s = .next t ∧ t.mem = (s.putMem (forwardAddr f) (forwardBody f)).mem) ∧
    (f.dstCtx = forwardCtx → s.allowed (forwardAddr f) (forwardBody f).length ringUser .write false = false →
      ∃ t, exec (.dataFrame f) s = .next t ∧ t.mem = s.mem ∧ t.arrays = s.arrays ∧ t.flt.unacked = true ∧
        (s.regsSorted → t.reg Reg.RNG_DISCARD = s.reg Reg.RNG_DISCARD + 1))) ∧
  (∀ (ctx : Nat) (c : CtxEntry) (r : Recv) (ofs : Nat) (bs : List Byte) (s : State), s.ctxE? ctx = some c → s.readyUnit c = some (r, ofs, bs) →
    (r.add = true → s.eccBad (r.buf + ofs) bs.length = none) → s.lacking r.step [(r.buf + ofs, bs.length)] = [] →
    ∃ t, exec (.addingUnitApply ctx) s = .next t ∧ ((∀ y ∈ s.tiers.staged, y.arriving) → onlyWrites s.mem t.mem [(r.buf + ofs, bs)]) ∧
      (r.add = false → r.got + bs.length < r.len → t.mem = (s.putMem (r.buf + ofs) bs).mem) ∧
      (r.got + bs.length < r.len → t.arrays = s.arrays ∧ ∃ c' r', t.ctxE? ctx = some c' ∧ r'.got = r.got + bs.length ∧
        r'.early = r.early.erase (ofs, bs) ∧ c'.recvs = c.recvs.map (fun y => if y == r then r' else y)))

/-- R321: an ARM is kept for the next RSEND of its context, or lets the waiting one send its data; DONE retires the RSEND that has sent. Completes: armFrame, doneFrame. -/
def Obligations.ArmAndDone : Prop :=
  ∀ (f : Frame) (c : CtxEntry) (s : State), s.linkTakes f → s.forMe f → s.ctxE? f.dstCtx = some c → c.st = .open_ →
    (c.sends.find? (fun x => !x.sent) = none →
      ∃ t, exec (.armFrame f) s = .next t ∧ s.onlyRing t ∧
        t.ctxE? f.dstCtx = some { c with arms := c.arms ++ [(f.tag.toNat, f.aux.toNat)], lastFrame := s.period }) ∧
    (∀ x, c.arms = [] → c.sends.find? (fun x => !x.sent) = some x → x.readyAt ≤ s.cycle → f.tag.toNat = x.tag → f.aux.toNat = x.len →
      s.eccBad x.buf x.len = none →
      ∃ t, exec (.armFrame f) s = .next t ∧ (s.corrected [(x.buf, x.len)]).onlyRing t ∧
        t.ctxE? f.dstCtx = some { c with lastFrame := s.period, sends := c.sends.map (fun y => if y == x then { y with sent := true } else y) }) ∧
    (∀ x, c.sends.find? (fun x => x.sent) = some x →
      ∃ t, exec (.doneFrame f) s = .next t ∧ s.onlyRing t ∧ t.ctxE? f.dstCtx = some { c with sends := c.sends.erase x, lastFrame := s.period })

/-- R327, R328, R355, R392: OPEN opens a declared context whose partner it names and makes a service entry of a free index (DEDUCED, log 64); CLOSE frees a service entry; REBIND gives a LOST context the survivor (the tag and payload of REBIND: DESIGN CHOICE, log 31). R327, R337, R428: a silent context of a running module becomes LOST and is reported, also where the report about another context of its partner has given up its messages; a stopped module drops its messages; a declared context with no answer becomes LOST. Completes: openFrame, closeFrame, rebindFrame, ctxTimeout, openTimeout. -/
def Obligations.ContextStates : Prop :=
  ((∀ (f : Frame) (s : State), s.linkTakes f → s.forMe f →
    (∀ c, s.ctxE? f.dstCtx = some c → c.st = .declared → s.stp.started = true → c.partner = f.src → c.partnerCtx = f.srcCtx →
      s.pendingIs 0x20 = false →
      ∃ t, exec (.openFrame f) s = .next t ∧ s.onlyRing t ∧ t.ctxE? f.dstCtx = some { c with st := .open_, lastFrame := s.period }) ∧
    (s.ctxE? f.dstCtx = none → f.dstCtx < 8192 →
      ∃ t c, exec (.openFrame f) s = .next t ∧ s.onlyRing t ∧ t.ctxE? f.dstCtx = some c ∧ c.st = .service ∧ c.partner = f.src ∧
        c.partnerCtx = f.srcCtx ∧ c.recvs = [] ∧ c.sends = []) ∧
    (∀ c, s.ctxE? f.dstCtx = some c → c.st = .service → c.partner = f.src →
      ∃ t, exec (.closeFrame f) s = .next t ∧ s.onlyRing t ∧ t.ctxE? f.dstCtx = none ∧ ∀ i, i ≠ f.dstCtx → t.ctxE? i = s.ctxE? i)) ∧
  (∀ (f : Frame) (i : Nat) (c : CtxEntry) (x : Nat × Nat) (s : State), s.linkTakes f → s.forMe f → (s.ring.ctxs.map (·.1)).Nodup →
    s.ctxE? i = some c → c.st = .lost → c.partner = f.tag.toNat / 65536 → (rebindPairs f).find? (fun y => y.1 == c.partnerCtx) = some x →
    ∃ t, exec (.rebindFrame f) s = .next t ∧ s.onlyRing t ∧
      t.ctxE? i = some { c with st := .open_, partner := f.tag.toNat % 65536, partnerCtx := x.2, lastFrame := s.period })) ∧
  (∀ (ctx : Nat) (c : CtxEntry) (s : State), s.ctxE? ctx = some c →
    (c.st = .open_ → c.busy = true → c.lastFrame + s.regN Reg.RNG_CTX_TIMEOUT ≤ s.period → s.flt.stopped = false →
      ∃ t e, exec (.ctxTimeout ctx) s = .next t ∧ t.ctxE? ctx = some e ∧ e.st = .lost ∧ (c.partner, 0x71) ∈ t.ring.filter ∧ t.arrays = s.arrays) ∧
    (c.st = .open_ → c.overdue = true →
      ∃ t e, exec (.ctxTimeout ctx) s = .next t ∧ t.ctxE? ctx = some e ∧ e.st = .lost ∧ (c.partner, 0x71) ∈ t.ring.filter ∧ t.arrays = s.arrays) ∧
    (c.st = .open_ → c.busy = true → c.lastFrame + s.regN Reg.RNG_CTX_TIMEOUT ≤ s.period → s.flt.stopped = true → c.overdue = false →
      ∃ t, exec (.ctxTimeout ctx) s = .next t ∧ t.ctxE? ctx = some { c with recvs := [], sends := [] } ∧ t.arrays = s.arrays ∧ t.flt = s.flt) ∧
    (c.st = .declared → s.stp.started = true → c.openSince + s.regN Reg.RNG_OPEN_LIMIT ≤ s.period → s.pendingIs 0x20 = false →
      ∃ t, exec (.openTimeout ctx) s = .next t ∧ s.onlyRing t ∧ t.ctxE? ctx = some { c with st := .lost }))

/-- R330: the global norm of the step is the first that arrives; the fold of the domain before is kept until the module's own partial is there; either carries whether the fold has saturated (the layout of the frame: DESIGN CHOICE, log 108). R339: a beacon about a known subject and class adds its reporters to the entry, whose first detection is the earlier one (the full period of a beacon DEDUCED, log 94); when the entry's hold has expired it goes out once. Completes: normFrame, beaconFrame, beaconHoldExpiry. -/
def Obligations.NormAndBeacons : Prop :=
  (∀ (f : Frame) (s : State), s.linkTakes f → s.forMe f →
    (f.tag.getLsbD 31 = true → s.ring.g2 = none → ∃ t, exec (.normFrame f) s = .next t ∧ s.onlyRing t ∧ t.ring.g2 = some (normSum f) ∧
      t.ring.g2At = s.cycle ∧ t.ring.g2Sat = f.aux.getLsbD 0) ∧
    (f.tag.getLsbD 31 = true → s.ring.g2.isSome → ∃ t, exec (.normFrame f) s = .next t ∧ s.onlyRing t ∧ t.ring.g2 = s.ring.g2) ∧
    (f.tag.getLsbD 31 = false → f.tag.toNat + 1 = s.domainIdx → s.ring.normSent = false → s.modulePartial = none →
      ∃ t, exec (.normFrame f) s = .next t ∧ s.onlyRing t ∧ t.ring.normIn = some (normSum f) ∧ t.ring.normSat = f.aux.getLsbD 0 ∧ t.ring.g2 = s.ring.g2)) ∧
  ((∀ (f : Frame) (e : Merge) (s : State), s.linkTakes f →
    s.ring.merges.find? (fun x => x.subject == f.tag.toNat / 65536 && x.cls == f.tag.toNat / 256 % 256) = some e →
    ∃ t e', exec (.beaconFrame f) s = .next t ∧
      t = { s with
        ring := t.ring
        thy := t.thy
        mir := { s.mir with eccAt := t.mir.eccAt }
        regs := { s.regs with vals := t.regs.vals } } ∧
      t.thy.tick = s.thy.tick ∧ t.thy.period = s.thy.period ∧ t.thy.rate = s.thy.rate ∧
      (f.tag.toNat / 256 % 256 ≠ 0x71 → t.thy = s.thy) ∧
      t.ring.merges.find? (fun x => x.subject == f.tag.toNat / 65536 && x.cls == f.tag.toNat / 256 % 256) = some e' ∧
      e'.bitmap = e.bitmap ||| leNat f.payload ∧ e'.first = min e.first (s.fullPeriod f.aux.toNat) ∧ t.ring.merges.length = s.ring.merges.length) ∧
  (∀ (subject cls p : Nat) (e : Merge) (s : State), s.ring.merges.find? (fun x => x.subject == subject && x.cls == cls) = some e →
    e.pendingAt = some p → p ≤ s.period →
    ∃ t, exec (.beaconHoldExpiry subject cls) s = .next t ∧ s.onlyRing t ∧
      t.ring.merges = s.ring.merges.map (fun x => if x == e then { x with pendingAt := none, lastSend := s.period } else x)))

/-! ### Periods, steps and time -/

/-- R234, R240, R245, R248, R368: a period boundary takes Π and, in a period that no announced hold freezes, T one further; what falls due in the cycles left of the period happens before it, so with no unit at work memory is as it was; before boot has ended there are no periods; the 64th frozen period of an episode faults, turns the hold level off and stops a running module. Completes: periodBoundary, phaseHoldLimit. -/
def Obligations.PeriodBoundary : Prop :=
  ∀ s : State,
    (s.host.bootDone = false → exec .periodBoundary s = .next s) ∧
    (s.host.bootDone = true → s.thy.cyc ≤ 256 → 1 ≤ s.thy.lead → ∃ t, exec .periodBoundary s = .next t ∧
      t.thy.period = (s.thy.period + 1) % 2 ^ 64 ∧ t.thy.cyc = 0 ∧ t.thy.cycle = s.thy.cycle + (256 - s.thy.cyc) ∧
      t.thy.tick = (if s.thy.holds.any (fun x => decide (x.start ≤ s.thy.period) && x.stop.all (fun e => decide (s.thy.period < e)))
        then s.thy.tick else (s.thy.tick + 1) % 2 ^ 64) ∧
      t.mem = s.periodEnd.mem ∧ (s.atRest = true → t.mem = s.mem)) ∧
    ((s.thy.episodeFrozen < 64 ∨ s.thy.quiet = true) → exec .phaseHoldLimit s = .next s) ∧
    (s.regsSorted → 64 ≤ s.thy.episodeFrozen → s.thy.quiet = false → ∃ t, exec .phaseHoldLimit s = .next t ∧
      t.thy.level = false ∧ t.thy.quiet = true ∧ t.thy.period = s.thy.period ∧ t.thy.tick = s.thy.tick ∧
      (t.reg Reg.THY_STATUS).getLsbD 4 = true ∧ t.flt.unacked = true ∧ (s.host.st = .running → t.flt.stopped = true))

/-- R16, R129, R191, R264, R265: the module step boundary takes the step one further with the base the STEPBs named, publishes the masks of the committed weights and no others, whose decision it empties (DEDUCED, log 51), clears the norms and flags of every array, substitutes the spares that wait (DEDUCED, log 67) and counts itself; it changes no memory and no time. Completes: moduleStepBoundary. -/
def Obligations.StepBoundary : Prop :=
  ∀ s : State,
    (s.boundaryDue = false → exec .moduleStepBoundary s = .next s) ∧
    (s.regsSorted → s.boundaryDue = true → ∃ t, exec .moduleStepBoundary s = .next t ∧
      t.stp = { s.stp with
        step := s.stp.step + 1
        base := s.stp.nextBase.getD s.stp.base
        nextBase := none
        verdict := 0
        verdictSat := false
        since := s.period
        past := t.stp.past } ∧
      t.arrays = s.arrays.map (fun a => { a with
        norm := DW.zero
        normFinal := false
        verdictDone := false
        u := { a.u with stepbDone := false } }) ∧
      (∀ wt w, s.weight? wt = some w → ∃ w', t.weight? wt = some w' ∧ (w.st ≠ .committed → w' = w) ∧
        (w.st = .committed → w'.st = .idle ∧ w'.curB = !w.curB ∧ w'.gen = (w.gen + 1) % 2 ^ 32 ∧ w'.decision = none ∧
          w'.maskA = w.maskA ∧ w'.maskB = w.maskB ∧ w'.master = w.master)) ∧
      t.reg Reg.STP_BOUNDARIES = s.reg Reg.STP_BOUNDARIES + 1 ∧
      t.reg Reg.UPD_TCOUNT = (if s.stp.verdict = 1 then s.reg Reg.UPD_TCOUNT + 1 else s.reg Reg.UPD_TCOUNT) ∧
      t.ring.g2 = none ∧ t.ring.normIn = none ∧ t.mem = s.mem ∧ t.thy = s.thy ∧ t.tiers = s.tiers ∧ t.wct = s.wct ∧
      t.host.substWaiting = [])

/-- R239 to R241: at a member that is neither joining nor lost, a frame with its own counters keeps it in phase with the master it names; one that differs is PHASE_LOSS, at the master too for its own frame that comes back. R235, R238, R396, R441: after JOIN_RING, and for a FAULT_CLEAR that waits after PHASE_LOSS, the counters of a frame from the port nearest to the master replace its own, and it follows that master unless it wins the election of its JOIN_RING; frames from other ports change nothing then. R240, R241, R254, R441: a member without frames for THY_HOLDOVER_MAX periods loses the phase and its time outputs; the backup that still hears others takes over after 256; a FAULT_CLEAR that has waited 1 s for a frame is refused, and the time outputs go low meanwhile. Completes: phaseFrame, holdoverTimeout, masterLostTimeout. -/
def Obligations.FollowingTheMaster : Prop :=
  (∀ (f : Frame) (i : PhaseInfo) (s : State), s.linkTakes f →
    (s.thy.adopt = false → s.thy.phaseLost = false → s.thy.master = false →
      (i.period = s.thy.period → i.tick = s.thy.tick → i.rate = s.thy.rate →
        ∃ t, exec (.phaseFrame f i) s = .next t ∧ t.thy.sinceFrame = 0 ∧ t.thy.sinceMaster = 0 ∧ t.thy.phaseLost = false ∧
          t.thy.master = false ∧ t.thy.masterAddr = i.masterAddr ∧ t.thy.period = s.thy.period ∧ t.thy.tick = s.thy.tick ∧
          t.arrays = s.arrays ∧ t.mem = s.mem ∧
          (s.thy.masterPrio = i.masterPrio → s.thy.masterAddr = i.masterAddr → s.parentUp = true → f.port = s.thy.parent →
            t.thy.todS = i.todS ∧ t.thy.todNs = i.todNs ∧ t.flt = s.flt ∧ t.regs = s.regs)) ∧
      (s.regsSorted → ¬ (i.period = s.thy.period ∧ i.tick = s.thy.tick ∧ i.rate = s.thy.rate) →
        ∃ t, exec (.phaseFrame f i) s = .next t ∧ t.thy.phaseLost = true ∧ t.flt.unacked = true ∧
          (t.reg Reg.THY_STATUS).getLsbD 5 = true ∧ t.thy.period = s.thy.period ∧ t.thy.tick = s.thy.tick)) ∧
    (s.thy.adopt = false → s.thy.master = true → i.masterAddr = s.ring.addr →
      (i.period = s.thy.period → i.tick = s.thy.tick → i.rate = s.thy.rate →
        ∃ t, exec (.phaseFrame f i) s = .next t ∧ t.thy.phaseLost = s.thy.phaseLost ∧ t.thy.master = true ∧ t.thy.period = s.thy.period ∧
          t.thy.tick = s.thy.tick ∧ t.flt = s.flt ∧ t.arrays = s.arrays ∧ t.mem = s.mem) ∧
      (s.thy.phaseLost = false → ¬ (i.period = s.thy.period ∧ i.tick = s.thy.tick ∧ i.rate = s.thy.rate) →
        ∃ t, exec (.phaseFrame f i) s = .next t ∧ t.thy.phaseLost = true ∧ t.flt.unacked = true ∧ t.thy.period = s.thy.period ∧
          t.thy.tick = s.thy.tick)) ∧
    (s.thy.adopt = true → (i.masterAddr ≠ s.ring.addr ∨ s.thy.master = false) →
      (f.port ≠ s.bestParent i.masterAddr → ∃ t, exec (.phaseFrame f i) s = .next t ∧ s.onlyRing t) ∧
      (f.port = s.bestParent i.masterAddr → keyWins s.key (i.masterPrio, i.masterAddr) = false →
        ∃ t, exec (.phaseFrame f i) s = .next t ∧ t.thy.period = i.period ∧ t.thy.tick = i.tick ∧ t.thy.rate = i.rate ∧
          t.thy.master = false ∧ t.thy.masterAddr = i.masterAddr ∧ t.thy.adopt = false ∧ t.thy.phaseLost = false ∧ t.pendingIs 0x40 = false) ∧
      (f.port = s.bestParent i.masterAddr → keyWins s.key (i.masterPrio, i.masterAddr) = true →
        ∃ t, exec (.phaseFrame f i) s = .next t ∧ t.thy.period = i.period ∧ t.thy.tick = i.tick ∧ t.thy.master = true ∧
          t.thy.masterAddr = s.ring.addr ∧ t.pendingIs 0x40 = false)) ∧
    (∀ c, s.thy.adopt = false → s.thy.master = false → s.thy.phaseLost = true → s.host.pendingCmd = some c → c.opcode = 0x71 →
      f.port = s.bestParent i.masterAddr →
      ∃ t, exec (.phaseFrame f i) s = .next t ∧ t.thy.period = i.period ∧ t.thy.tick = i.tick ∧ t.thy.phaseLost = false ∧
        t.flt.unacked = false ∧ t.host.pendingCmd = none)) ∧
  (∀ s : State,
    (s.thy.master = true → exec .holdoverTimeout s = .next s ∧ exec .masterLostTimeout s = .next s) ∧
    (s.regsSorted → s.thy.master = false → s.thy.phaseLost = false → s.regN Reg.THY_HOLDOVER_MAX ≤ s.thy.sinceFrame →
      ∃ t, exec .holdoverTimeout s = .next t ∧ t.thy.outLow = true ∧ t.thy.phaseLost = true ∧
        (t.reg Reg.THY_STATUS).getLsbD 5 = true ∧ t.flt.unacked = true ∧ t.thy.tick = s.thy.tick) ∧
    (∀ c, s.thy.master = false → s.thy.phaseLost = true → s.host.pendingCmd = some c → c.opcode = 0x71 →
      c.arg / 4 + 8203125 ≤ s.thy.sinceFrame →
      ∃ t, exec .holdoverTimeout s = .next t ∧ t.host.pendingCmd = none ∧ t.flt.unacked = s.flt.unacked ∧
        t.thy = { s.thy with outLow := s.thy.outLow || decide (s.regN Reg.THY_HOLDOVER_MAX ≤ s.thy.sinceFrame) }) ∧
    (s.regsSorted → s.thy.master = false → s.thy.backup = true → s.thy.phaseLost = false → 256 ≤ s.thy.sinceMaster → s.hearsOthers = true →
      ∃ t, exec .masterLostTimeout s = .next t ∧ t.thy.master = true ∧ t.thy.backup = false ∧ t.thy.masterAddr = s.ring.addr ∧
        t.thy.period = s.thy.period ∧ t.thy.tick = s.thy.tick ∧ t.thy.rate = s.thy.rate ∧
        t.reg Reg.THY_MASTER_CHANGE = s.reg Reg.THY_MASTER_CHANGE + 1 ∧ t.arrays = s.arrays ∧ t.mem = s.mem) ∧
    (s.hearsOthers = false → exec .masterLostTimeout s = .next s))

/-- R245, R249, R250: what the master does with HOLD_ON, HOLD_OFF and RATE for it, and a member with an announcement. At another module the three messages change nothing but the link. Completes: holdOn, holdOff, rateMessage, holdMessage. -/
def Obligations.MasterMessages : Prop :=
  (∀ (f : Frame) (s : State), s.linkTakes f → s.forMe f → s.thy.master = false → ∀ c ∈ [Instr.holdOn f, .holdOff f, .rateMessage f],
    ∃ t, exec c s = .next t ∧ s.onlyRing t) ∧
  (∀ (f : Frame) (s : State), s.linkTakes f → s.forMe f → s.thy.master = true → s.thy.holds = [] →
    ∃ t, exec (.holdOn f) s = .next t ∧ t = { s with thy := t.thy, ring := t.ring } ∧
      t.thy.holds = [⟨s.thy.period + s.thy.lead, none, f.src⟩] ∧ f.src ∈ t.thy.levels ∧ t.thy.tick = s.thy.tick ∧ t.thy.rate = s.thy.rate) ∧
  (∀ (f : Frame) (k : PhaseHold) (ks : List PhaseHold) (s : State), s.linkTakes f → s.forMe f → s.thy.master = true →
    (∀ m ∈ s.thy.levels, m = f.src) → s.thy.holds = ks ++ [k] → k.stop = none →
    ∃ t, exec (.holdOff f) s = .next t ∧ t = { s with thy := t.thy, ring := t.ring } ∧ t.thy.levels = [] ∧
      t.thy.holds = ks ++ [{ k with stop := some (max (k.start + 1) (s.thy.period + s.thy.lead)) }] ∧ t.thy.rate = s.thy.rate) ∧
  (∀ (f : Frame) (s : State), s.linkTakes f → s.forMe f → s.thy.master = true →
    ∃ t, exec (.rateMessage f) s = .next t ∧ t = { s with thy := t.thy, ring := t.ring } ∧
      t.thy.reqRates = (f.src, f.aux.toNat) :: s.thy.reqRates.filter (fun e => e.1 != f.src) ∧
      t.thy.target = t.thy.reqRates.foldl (fun m e => min m e.2) 64 ∧ t.thy.rate = s.thy.rate ∧ t.thy.holds = s.thy.holds) ∧
  (∀ (f : Frame) (i : PhaseInfo) (s : State), s.linkTakes f → (s.thy.master = true → ∃ t, exec (.holdMessage f i) s = .next t ∧ s.onlyRing t) ∧
    (s.thy.master = false → i.hold = 1 ∨ i.hold = 2 → (∀ x ∈ s.thy.holds, x.start ≠ i.holdStart) →
      ∃ t r, exec (.holdMessage f i) s = .next t ∧ t.thy.holds = s.thy.holds ++ [⟨i.holdStart, none, r⟩] ∧
        t.thy.tick = s.thy.tick ∧ t.thy.rate = s.thy.rate ∧ t.arrays = s.arrays ∧ t.flt = s.flt ∧ t.regs = s.regs ∧ t.mem = s.mem) ∧
    (s.thy.master = false → i.hold = 0 → s.thy.period < i.rateAt → (i.rateNext, i.rateAt) ∉ s.thy.rateNext →
      ∃ t, exec (.holdMessage f i) s = .next t ∧ t = { s with thy := { s.thy with rateNext := s.thy.rateNext ++ [(i.rateNext, i.rateAt)] }, ring := t.ring }))

/-- R252, R254, R477: seconds, the set time of day and the edges of the time outputs; none at a body without power. R253: the PTP port, each message with nothing else changed. Completes: secondBoundary, ptpMessage, ptpSyncTimer. -/
def Obligations.TimeOfDay : Prop :=
  ∀ s : State,
    (s.powered = false → exec .secondBoundary s = .next s) ∧
    (s.powered = true → ∃ t, exec .secondBoundary s = .next t ∧
      t = { s with thy := { s.thy with todS := t.thy.todS, todNs := t.thy.todNs, todPending := false, pps := t.thy.pps, edges10 := t.thy.edges10 } } ∧
      (¬ (s.thy.todPending = true ∧ s.thy.master = true) → t.thy.todS = (s.thy.todS + 1) % 2 ^ 48 ∧ t.thy.todNs = 0) ∧
      (s.thy.todPending = true → s.thy.master = true →
        t.thy.todS = s.regN Reg.THY_TOD_SET_SL + 2 ^ 32 * (s.regN Reg.THY_TOD_SET_SH % 65536) ∧ t.thy.todNs = s.regN Reg.THY_TOD_SET_NS) ∧
      t.thy.pps = s.thy.pps + (if s.thy.outLow = false ∧ (s.reg Reg.THY_OUT_CTRL).getLsbD 0 = true then 1 else 0) ∧
      t.thy.edges10 = s.thy.edges10 + (if s.thy.outLow = false ∧ (s.reg Reg.THY_OUT_CTRL).getLsbD 1 = true then 1 else 0)) ∧
    (∀ m, s.ptpOn = false → exec (.ptpMessage m) s = .next s) ∧
    exec (.ptpMessage .other) s = .next s ∧
    (∀ b, s.ptpOn = false → exec (.ptpSyncTimer b) s = .next { s with thy := { s.thy with ptp := 0 } }) ∧
    (s.ptpOn = true →
      (∀ ds, s.regsSorted → ptpBetter ds s.ptpSet = true → s.thy.ptp ≠ 3 →
        ∃ t, exec (.ptpMessage (.announce (s.regN Reg.THY_PTP_CFG / 256 % 256) ds)) s = .next t ∧
          t = { s with thy := { s.thy with ptp := 3 }, regs := t.regs } ∧
          t.reg Reg.THY_PTP_PASSIVE = s.reg Reg.THY_PTP_PASSIVE + 1) ∧
      (∀ ds d, (ptpBetter ds s.ptpSet = false ∨ d ≠ s.regN Reg.THY_PTP_CFG / 256 % 256) → exec (.ptpMessage (.announce d ds)) s = .next s) ∧
      (∀ x src, s.thy.ptp = 2 → exec (.ptpMessage (.delayReq (s.regN Reg.THY_PTP_CFG / 256 % 256) x src)) s =
        .next { s with thy := { s.thy with ptpLog := s.thy.ptpLog ++
          [.delayResp (s.regN Reg.THY_PTP_CFG / 256 % 256) s.ptpWhere.2 x src s.thy.todS s.thy.todNs] } }) ∧
      (s.thy.ptp ≠ 3 → exec (.ptpSyncTimer true) s = .next { s with thy := { s.thy with ptp := 2, ptpLog := s.thy.ptpLog ++ [s.ptpAnnounce] } } ∧
        exec (.ptpSyncTimer false) s = .next { s with thy := { s.thy with ptp := 2, ptpLog := s.thy.ptpLog ++ s.ptpSync } }) ∧
      (∀ b, s.thy.ptp = 3 → exec (.ptpSyncTimer b) s = .next s))

/-! ### Power, boot, links -/

/-- R446, R447, R471 to R477: each of these events resets a powered module, with OTP, firmware store and host memory kept; what follows from reset is as State.resetOf gives it (the reset values the spec does not give are the model's: log 4; that the oscillator stays warm over RST_N of a module that has not tripped, and that host memory outlives every event: log 67). R375, R379: a reset of the PCIe function takes its configuration and the packets not yet read, and a link-down is counted (what a PCIe reset clears: PRESUMED, log 91). Completes: junctionOvertemp, railFault, leakDetected, inputOutOfRange, bodyWithdrawn, powerOn, rstNPulse, linkReset. -/
def Obligations.PowerEvents : Prop :=
  ∀ s : State,
    (∀ p ∈ ([(Instr.junctionOvertemp, 1), (Instr.railFault, 3), (Instr.leakDetected, 4)] : List (Instr × Nat)),
      (s.powered = false → exec p.1 s = .next s) ∧
      (s.powered = true → exec p.1 s = .next { State.resetOf s.dev s.pending with
        hostMem := s.hostMem
        freeCtr := s.freeCtr
        pwr := { Power.reset with tripped := true, trip := p.2 } })) ∧
    (s.pwr.on = true → exec .inputOutOfRange s = .next { State.resetOf s.dev s.pending with
        hostMem := s.hostMem
        freeCtr := s.freeCtr
        pwr := { Power.reset with tripped := s.pwr.tripped, trip := s.pwr.trip } }) ∧
    exec .bodyWithdrawn s = .next { State.resetOf s.dev s.pending with
        hostMem := s.hostMem
        freeCtr := s.freeCtr
        pwr := { Power.reset with on := false } } ∧
    exec .powerOn s = .next { State.resetOf s.dev s.pending with
        hostMem := s.hostMem
        freeCtr := s.freeCtr } ∧
    (s.pwr.on = true → ∃ t, exec .rstNPulse s = .next t ∧ t.dev = s.dev ∧ t.hostMem = s.hostMem ∧ t.pwr = { Power.reset with trip := s.pwr.trip } ∧
      t.host = { HostIf.reset with oscStable := !s.pwr.tripped && s.host.oscStable } ∧ t.mem = [] ∧ t.regs = RegState.reset ∧
      t.arrays = State.reset.arrays ∧ t.ring = Ring.reset ∧ t.mir = Mirror.reset ∧ t.flt = Faults.reset ∧
      t.thy = { Thyme.reset with masterPrio := t.prio }) ∧
    (∀ c l, s.regsSorted → s.powered = true → ∃ t, exec (.linkReset c l) s = .next t ∧
      t = { s with
        host := { s.host with
          slots := []
          visible := []
          msixTable := []
          pcie := { Pcie.reset with link := if c = .flr then s.host.pcie.link else l } }
        regs := t.regs } ∧
      t.reg Reg.HST_LINK_DOWN = (if c = .linkDown then s.reg Reg.HST_LINK_DOWN + 1 else s.reg Reg.HST_LINK_DOWN)) ∧
    (s.powered = false → ∀ c l, exec (.linkReset c l) s = .next s)

/-- R16, R17: a position that fails its self-test is marked failed; one of an active array takes the lowest spare at once outside a step, after which a held module is to be reloaded, and waits for the step boundary inside one (DEDUCED, log 67). R448 to R452: the boot from the active slot, from the other one with fw_fallback, into recovery, or stopped by unreadable OTP; the stages lie within the one command (DESIGN CHOICE, log 109). R238, R452: a stable oscillator. Completes: boot, selftestComplete, oscStable. -/
def Obligations.BootAndSelfTest : Prop :=
  (∀ (fs : List Nat) (l : LinkTrain) (s : State), s.powered = true → s.host.bootDone = false → s.host.recovery = false → s.host.failReason = 0 →
    (s.dev.otpReadable = false → ∃ t, exec (.boot fs l) s = .next t ∧ t.host.failReason = 1 ∧ t.host.bootDone = false) ∧
    (s.dev.otpReadable = true → s.host.visible = [] → s.dev.slotOk (s.dev.slot s.dev.activeB) = true →
      ∃ t, exec (.boot fs l) s = .next t ∧ t.host.bootDone = true ∧ t.host.recovery = false ∧ t.host.runB = s.dev.activeB ∧
        t.host.st = .unopened ∧ t.host.stage = 0x0F ∧ t.host.pcie.link = l ∧ (fs = [] → t.mem = [])) ∧
    (s.dev.otpReadable = true → s.host.visible = [] → s.dev.slotOk (s.dev.slot s.dev.activeB) = false →
      s.dev.slotOk (s.dev.slot (!s.dev.activeB)) = true → s.regsSorted →
      ∃ t, exec (.boot fs l) s = .next t ∧ t.host.bootDone = true ∧ t.host.runB = (!s.dev.activeB) ∧ (t.reg Reg.SEC_STATUS).getLsbD 4 = true) ∧
    (s.dev.otpReadable = true → s.host.visible = [] → s.dev.slotOk (s.dev.slot s.dev.activeB) = false →
      s.dev.slotOk (s.dev.slot (!s.dev.activeB)) = false →
      exec (.boot fs l) s = .next { s with host := { s.host with recovery := true, stage := 0x0E, pcie := { s.host.pcie with link := l } } })) ∧
  (∀ (pos : Nat) (s : State),
    (pos ∉ s.host.posTesting → ∀ b, exec (.selftestComplete pos b) s = .next s) ∧
    (pos ∈ s.host.posTesting → s.mir.testing = false →
      exec (.selftestComplete pos true) s = .next { s with host := { s.host with posTesting := s.host.posTesting.erase pos } } ∧
      (s.mapEntry pos = 0xFE → ∃ t, exec (.selftestComplete pos false) s = .next t ∧ pos ∈ t.host.posFailed ∧ t.dev = s.dev ∧
        t.flt.first = s.flt.first ∧ t.flt.unacked = s.flt.unacked ∧ (2 ≤ s.sparePositions.length → t.flt = s.flt)) ∧
      (∀ sp rest, s.mapEntry pos < 64 → s.insideStep = false → s.host.substWaiting = [] → s.sparePositions = sp :: rest →
        ∃ t, exec (.selftestComplete pos false) s = .next t ∧ pos ∈ t.host.posFailed ∧ t.flt.unacked = true ∧
          t.dev.subst = s.dev.subst ++ [(pos, s.mapEntry pos, sp)] ∧ t.host.noSpare = s.host.noSpare ∧
          t.host.reload = (s.host.reload || s.host.st == .held)) ∧
      (s.mapEntry pos < 64 → s.insideStep = false → s.host.substWaiting = [] → s.sparePositions = [] →
        ∃ t, exec (.selftestComplete pos false) s = .next t ∧ pos ∈ t.host.posFailed ∧ t.flt.unacked = true ∧ t.dev.subst = s.dev.subst ∧
          t.host.noSpare = true) ∧
      (s.mapEntry pos < 64 → s.insideStep = true →
        ∃ t, exec (.selftestComplete pos false) s = .next t ∧ pos ∈ t.host.posFailed ∧ t.flt.unacked = true ∧ t.dev.subst = s.dev.subst ∧
          t.host.reload = true ∧ t.host.substWaiting = s.host.substWaiting ++ [(s.mapEntry pos, pos)])) ∧
    (pos ∈ s.host.posTesting → s.mir.testing = true → ∃ t, exec (.selftestComplete pos false) s = .next t ∧ t.mir.fenced = true ∧
      t.mir.testing = false)) ∧
  (∀ s : State, s.powered = true →
    (s.thy.master = true → exec .oscStable s = .next { s with
      host := { s.host with oscStable := true }
      thy := { s.thy with masterPrio := s.regN Reg.THY_PRIO % 256 } }) ∧
    (s.thy.master = false → s.host.oscStable = false → s.regN Reg.THY_PRIO % 256 ≠ 0 → s.thy.masterPrio = 0 →
      ∃ t, exec .oscStable s = .next t ∧ t.host.oscStable = true ∧ t.thy.master = true ∧ t.thy.masterAddr = s.ring.addr ∧
        t.thy.period = s.thy.period ∧ t.thy.tick = s.thy.tick))

/-- R249, R466, R467, R476, R477: once in a window of 8,192 periods, on the mean power and the hottest sensor with its calibration offset, each controller moves its own rate by at most one within 32 to 64, the rate in force does not change, and 110 °C or the eighth window far over the grade's maximum at the lowest rate trips the module. Completes: controllerWindow. -/
def Obligations.ControllerWindow : Prop :=
  ∀ (w : Nat) (temps : List Int) (s : State),
    (s.powered = false ∨ s.host.bootDone = false ∨ s.ctrlWindow = s.pwr.windowAt → exec (.controllerWindow w temps) s = .next s) ∧
    (s.regsSorted → s.powered = true → s.host.bootDone = true → s.ctrlWindow ≠ s.pwr.windowAt → s.hottest temps < 1760 →
      (s.pwr.overWindows < 7 ∨ s.thy.rate ≠ 32 ∨ 11 * s.dev.grade.maxWatts ≥ 10 * w) →
      ∃ t, exec (.controllerWindow w temps) s = .next t ∧
        t.thy.powerRate = (if s.powerLimit < w then max 32 (s.thy.powerRate - 1)
          else if 100 * w < 95 * s.powerLimit then min 64 (s.thy.powerRate + 1) else s.thy.powerRate) ∧
        t.thy.thermalRate = (if s.throttlePoint < s.hottest temps then max 32 (s.thy.thermalRate - 1)
          else if s.hottest temps < s.throttlePoint - 80 then min 64 (s.thy.thermalRate + 1) else s.thy.thermalRate) ∧
        t.thy.rate = s.thy.rate ∧ t.thy.tick = s.thy.tick ∧ t.pwr.tripped = s.pwr.tripped ∧ t.pwr.windowAt = s.ctrlWindow ∧ t.arrays = s.arrays ∧ t.mem = s.mem ∧
        t.reg Reg.PWR_THROTTLED = (if s.thy.powerRate < 64 ∨ s.thy.thermalRate < 64 then s.reg Reg.PWR_THROTTLED + 1 else s.reg Reg.PWR_THROTTLED)) ∧
    (s.powered = true → s.host.bootDone = true → s.ctrlWindow ≠ s.pwr.windowAt →
      (1760 ≤ s.hottest temps ∨ (s.thy.rate = 32 ∧ 11 * s.dev.grade.maxWatts < 10 * w ∧ 7 ≤ s.pwr.overWindows)) →
      exec (.controllerWindow w temps) s = .next { State.resetOf s.dev s.pending with
        hostMem := s.hostMem
        freeCtr := s.freeCtr
        pwr := { Power.reset with tripped := true, trip := if 1760 ≤ s.hottest temps then 1 else 2 } })

/-- R317, R319, R320: at a port that is not up nothing happens; at one that is up with nothing waiting, an acknowledgement frees the frames it covers and credit is added (the aux of CREDIT and the number an acknowledgement carries: DESIGN CHOICE, log 31), the acknowledgement timer acknowledges, and a negative acknowledgement and the replay timer send every unacknowledged frame again, the eighth time with training. R313, R318, R337: a frame for another module goes out on the port of its route with its fields and payload as they came, or is discarded and counted where this is the last module before a bypassed or lost destination (log 92), as a frame of a reserved type is at any port; this module's contexts, memory and arrays are as before. Completes: linkFrame, creditFrame, ackTimer, replayTimeout, frameForward. -/
def Obligations.LinksAndForwarding : Prop :=
  ((∀ (f : Frame) (s : State), (5 ≤ f.port ∨ (s.port f.port).st ≠ .up) →
    exec (.linkFrame f) s = .next s ∧ exec (.creditFrame f) s = .next s ∧ exec (.ackTimer f.port) s = .next s ∧
      exec (.replayTimeout f.port) s = .next s) ∧
  (∀ (f : Frame) (s : State), f.port < 5 → (s.port f.port).st = .up → (s.port f.port).outQ = [] → f.crcOk = true →
    (f.aux.getLsbD 0 = false → 1 ≤ (f.ackSeq + 65536 - (s.port f.port).ackedTo) % 65536 →
      (f.ackSeq + 65536 - (s.port f.port).ackedTo) % 65536 ≤ (s.port f.port).replay.length →
      ∃ t, exec (.linkFrame f) s = .next t ∧ s.onlyRing t ∧ t.regs = s.regs ∧ t.port f.port = { s.port f.port with
        replay := (s.port f.port).replay.drop ((f.ackSeq + 65536 - (s.port f.port).ackedTo) % 65536)
        ackedTo := f.ackSeq
        replays := 0 }) ∧
    (s.regsSorted → f.aux.getLsbD 0 = true → f.ackSeq = (s.port f.port).ackedTo →
      ∃ t, exec (.linkFrame f) s = .next t ∧ s.onlyRing { t with host := s.host } ∧ (t.port f.port).replay = (s.port f.port).replay ∧
        (t.port f.port).wire.length = (s.port f.port).wire.length + (s.port f.port).replay.length +
          (if (s.port f.port).replays < 7 then 0 else 1) ∧
        (t.port f.port).st = (if (s.port f.port).replays < 7 then .up else .training) ∧
        t.reg (portReg f.port Reg.RNG_P_REPLAY) = s.reg (portReg f.port Reg.RNG_P_REPLAY) + 1)) ∧
  (∀ (f : Frame) (s : State), f.port < 5 → (s.port f.port).st = .up → (s.port f.port).outQ = [] → f.crcOk = true →
    ∃ t, exec (.creditFrame f) s = .next t ∧ s.onlyRing t ∧ t.regs = s.regs ∧
      t.port f.port = { s.port f.port with credits := (s.port f.port).credits.modify (f.aux.toNat % 8) (· + f.aux.toNat / 65536) }) ∧
  (∀ (p : Nat) (s : State), p < 5 → (s.port p).st = .up → (s.port p).outQ = [] → (s.port p).heldDown = false →
    (s.port p).rxSinceAck ≠ 0 →
    ∃ t w, exec (.ackTimer p) s = .next t ∧ s.onlyRing t ∧ t.regs = s.regs ∧ w.frame.typ = 3 ∧ w.ack = (s.port p).rxSeq ∧
      t.port p = { s.port p with
        wire := (s.port p).wire ++ [w]
        rxSinceAck := 0 }) ∧
  (∀ (p : Nat) (s : State), s.regsSorted → p < 5 → (s.port p).st = .up → (s.port p).replay ≠ [] →
    ∃ t, exec (.replayTimeout p) s = .next t ∧ s.onlyRing { t with host := s.host } ∧ (t.port p).replay = (s.port p).replay ∧
      (t.port p).wire.length = (s.port p).wire.length + (s.port p).replay.length + (if (s.port p).replays < 7 then 0 else 1) ∧
      (t.port p).st = (if (s.port p).replays < 7 then .up else .training) ∧
      t.reg (portReg p Reg.RNG_P_REPLAY) = s.reg (portReg p Reg.RNG_P_REPLAY) + 1)) ∧
  (∀ (typ : Nat) (f : Frame) (s : State), s.linkTakes f → f.port < 4 → f.dst ≠ s.ring.addr → typ < 13 →
    (s.deadEnd (s.route f.dst) f.dst = false → (s.port (s.route f.dst)).heldDown = false →
      ((s.port (s.route f.dst)).st = .up ∨ (s.port (s.route f.dst)).st = .training) →
      ∃ t g, exec (.frameForward typ f) s = .next t ∧ s.onlyRing t ∧ t.ring.ctxs = s.ring.ctxs ∧ t.ring.merges = s.ring.merges ∧
        (g ∈ (t.port (s.route f.dst)).outQ ∨ ∃ w ∈ (t.port (s.route f.dst)).wire, w.frame = g) ∧
        g.typ = typ ∧ g.dst = f.dst ∧ g.src = f.src ∧ g.dstCtx = f.dstCtx ∧ g.srcCtx = f.srcCtx ∧ g.tag = f.tag ∧ g.offset = f.offset ∧
        g.aux = f.aux ∧ g.payload = f.payload) ∧
    (s.regsSorted → s.deadEnd (s.route f.dst) f.dst = true → ∃ t, exec (.frameForward typ f) s = .next t ∧ s.onlyRing t ∧
      t.ring.ctxs = s.ring.ctxs ∧ t.reg Reg.RNG_DISCARD = s.reg Reg.RNG_DISCARD + 1)) ∧
  (∀ (typ : Nat) (f : Frame) (s : State), s.linkTakes f → 13 ≤ typ → s.regsSorted →
    ∃ t, exec (.frameForward typ f) s = .next t ∧ s.onlyRing t ∧ t.ring.ctxs = s.ring.ctxs ∧ t.reg Reg.RNG_DISCARD = s.reg Reg.RNG_DISCARD + 1)

/-- R315, R316, R336, R337: lanes, light, breaks: a lane that has lost lock or shows more than 16 uncorrectable codewords leaves use, a spare takes its place and the hop trains again, with a TRAIN frame on the wire (DESIGN CHOICE, log 31), or the port fails with RING_BREAK. R315, R336, R342, R353, R396: a port in training comes up on enough good lanes and skips at most two positions; the last ring port sets a lead time that covers the delays of the module's own hops (log 36) and lets JOIN_RING wait for the ring's phase (DESIGN CHOICE, log 69); a loopback of the M Bay makes the survivor; a port that does not train ends JOIN_RING and PAIR. Completes: lightLoss, laneFailure, breakTimeout, trainFrame, portTrainTimeout. -/
def Obligations.HopsAndPorts : Prop :=
  ((∀ (p : Nat) (s : State), p < 5 → ((s.port p).st = .up ∨ (s.port p).st = .training) →
    ∃ t w, exec (.lightLoss p) s = .next t ∧ s.onlyRing { t with host := s.host } ∧ t.regs = s.regs ∧ (∀ q, q ≠ p → t.port q = s.port q) ∧
      w.frame.typ = 10 ∧ w.frame.src = s.ring.addr ∧ t.port p = { s.port p with
        dark := true
        st := .training
        wire := (s.port p).wire ++ [w] }) ∧
  (∀ (p lane ce ue : Nat) (lost : Bool) (s : State), p < 4 → lane < 18 → ((s.port p).st = .up ∨ (s.port p).st = .training) →
    (s.port p).bad.testBit lane = false →
    (lost = false → ue ≤ 16 → ∃ t, exec (.laneFailure p lane lost ce ue) s = .next t ∧ s.onlyRing t ∧ t.ring = s.ring) ∧
    ((lost = true ∨ 16 < ue) →
      (16 ≤ ((List.range 18).filter (fun i => !((s.port p).bad ||| 2 ^ lane).testBit i)).length → (s.port p).lanes.testBit lane = false →
        ∃ t, exec (.laneFailure p lane lost ce ue) s = .next t ∧ s.onlyRing t ∧ t.port p = { s.port p with bad := (s.port p).bad ||| 2 ^ lane }) ∧
      (∀ i, s.regsSorted → 16 ≤ ((List.range 18).filter (fun i => !((s.port p).bad ||| 2 ^ lane).testBit i)).length →
        (s.port p).lanes.testBit lane = true →
        (List.range 18).find? (fun i => !((s.port p).bad ||| 2 ^ lane).testBit i && !(s.port p).lanes.testBit i) = some i →
        ∃ t w, exec (.laneFailure p lane lost ce ue) s = .next t ∧ s.onlyRing { t with host := s.host } ∧
          t.reg (portReg p Reg.RNG_P_SWAPS) = s.reg (portReg p Reg.RNG_P_SWAPS) + 1 ∧ w.frame.typ = 10 ∧
          t.port p = { s.port p with
            bad := (s.port p).bad ||| 2 ^ lane
            lanes := ((s.port p).lanes ^^^ 2 ^ lane) ||| 2 ^ i
            st := .training
            wire := (s.port p).wire ++ [w] }) ∧
      (((List.range 18).filter (fun i => !((s.port p).bad ||| 2 ^ lane).testBit i)).length < 16 →
        ∃ t, exec (.laneFailure p lane lost ce ue) s = .next t ∧ (t.port p).st = .failed ∧ (t.port p).heldDown = true ∧ t.flt.unacked = true ∧
          (min s.ring.addr (s.farEnd p), 0x70) ∈ t.ring.filter ∧ t.arrays = s.arrays))) ∧
  (∀ (p : Nat) (s : State), p < 4 → (s.port p).dark = true → (s.port p).st ≠ .up → (s.port p).heldDown = false →
    ∃ t, exec (.breakTimeout p) s = .next t ∧ (t.port p).heldDown = true ∧ (t.port p).outQ = [] ∧ (t.port p).st = (s.port p).st ∧
      t.flt.unacked = true ∧ (min s.ring.addr (s.farEnd p), 0x70) ∈ t.ring.filter ∧ t.arrays = s.arrays)) ∧
  ((∀ (p far : Nat) (lanes : BitVec 18) (s : State), (5 ≤ p ∨ (s.port p).st ≠ .training) → exec (.trainFrame p far lanes) s = .next s) ∧
  (∀ (p far : Nat) (lanes : BitVec 18) (s : State), p < 4 → (s.port p).st = .training →
    16 ≤ ((List.range 18).filter (fun i => lanes.getLsbD i && !(s.port p).bad.testBit i)).length →
    (s.along p far ≤ 3 → ∃ t, exec (.trainFrame p far lanes) s = .next t ∧ (t.port p).st = .up ∧ (t.port p).far = far ∧
      (t.port p).spanned = s.along p far - 1 ∧ (t.port p).heldDown = false ∧ (t.port p).dark = false ∧ t.arrays = s.arrays ∧
      (s.pendingIs 0x40 = true → s.thy.adopt = false → (∀ q, q < 4 → q ≠ p → (s.port q).st = .up) →
        t.ring.joined = true ∧ t.pendingIs 0x40 = true ∧ t.thy.adopt = true ∧ 4 ≤ t.thy.lead ∧ t.thy.lead ≤ 255 ∧
        (∀ q, q < 4 → min 255 (nsPeriods (t.port q).delay + 2) ≤ t.thy.lead))) ∧
    (4 ≤ s.along p far → (s.port p).heldDown = false → ∃ t, exec (.trainFrame p far lanes) s = .next t ∧ (t.port p).heldDown = true ∧
      t.flt.unacked = true)) ∧
  (∀ (far : Nat) (lanes : BitVec 18) (s : State), (s.port 4).st = .training →
    8 ≤ ((List.range 9).filter (fun i => lanes.getLsbD i && !(s.port 4).bad.testBit i)).length →
    (s.regsSorted → far = s.ring.addr → s.mir.paired = true → s.mir.survivor = false → ∃ t, exec (.trainFrame 4 far lanes) s = .next t ∧
      t.mir.survivor = true ∧ (t.reg Reg.MIR_STATUS).getLsbD 5 = true) ∧
    (far ≠ s.ring.addr → s.pendingIs 0x41 = false → far = s.mir.twin → ∃ t, exec (.trainFrame 4 far lanes) s = .next t ∧ t.mem = s.mem ∧ t.arrays = s.arrays ∧ t.mir = s.mir ∧ t.flt = s.flt ∧
      (t.port 4).st = .up ∧ (t.port 4).far = far)) ∧
  (∀ (p : Nat) (s : State) (c : PendingCmd), (s.port p).st ≠ .up → s.host.pendingCmd = some c →
    (p < 4 → c.opcode = 0x40 → ∃ t, exec (.portTrainTimeout p) s = .next t ∧ t.host.pendingCmd = none ∧ t.ring.addr = c.arg / 65536 ∧
      t.ring.bayX = false ∧ t.ring.bayY = false ∧ t.arrays = s.arrays ∧
      (s.hostLink = true → t.hostMem = memPut s.hostMem (c.hdr.replyAddr + 256) (replyBytes c.hdr 0x40 2 0x70 s.period 0 []))) ∧
    (p = 4 → c.opcode = 0x41 → ∃ t, exec (.portTrainTimeout p) s = .next t ∧ t.host.pendingCmd = none ∧ t.ring.bayM = false ∧
      t.ring.bayX = s.ring.bayX ∧ t.arrays = s.arrays ∧
      (s.hostLink = true → t.hostMem = memPut s.hostMem (c.hdr.replyAddr + 256) (replyBytes c.hdr 0x41 2 0x81 s.period 0 [])))))

/-! ### Registers -/

/-- R414: for each of the fourteen guarded registers, the first write only opens its pair, at most one per requester, so another opening write takes its place and is recorded; a complement with no matching pair within 64 bus cycles changes nothing but the discard's own records and leaves no pair open (DEDUCED, log 66); before the register file is up nothing happens; and a plain register write to the register or to its complement is the same operation. -/
def Obligations.GuardedPairs : Prop :=
  ∀ p ∈ ([(Instr.thyTodCtrl, Reg.THY_TOD_CTRL), (Instr.thyPrio, Reg.THY_PRIO), (Instr.thyRateCap, Reg.THY_RATE_CAP),
      (Instr.tirCopyCtrl, Reg.TIR_COPY_CTRL), (Instr.rngBayCtrl, Reg.RNG_BAY_CTRL), (Instr.mirFence, Reg.MIR_FENCE),
      (Instr.detCtrl, Reg.DET_CTRL), (Instr.glbCrcCtrl, Reg.GLB_CRC_CTRL), (Instr.glbCfgCrcRef, Reg.GLB_CFG_CRC_REF),
      (Instr.secRevoke, Reg.SEC_REVOKE), (Instr.secPolicy, Reg.SEC_POLICY), (Instr.secReset, Reg.SEC_RESET),
      (Instr.calSave, Reg.CAL_SAVE), (Instr.pwrLimit, Reg.PWR_LIMIT)] : List ((Requester → Bool → BitVec 32 → Instr) × Nat)),
  ∀ (q : Requester) (v : BitVec 32) (s : State),
    (s.barUp = false → ∀ b, exec (p.1 q b v) s = .next s) ∧
    (s.barUp = true → (s.requester q).pair = none →
      exec (p.1 q false v) s = .next (s.modRequester q (fun x => { x with pair := some ⟨p.2, v, s.thy.bus⟩ }))) ∧
    (s.barUp = true → s.regsSorted → (s.requester q).pair.isSome = true → ∃ t, exec (p.1 q false v) s = .next t ∧
      (t.requester q).pair = some ⟨p.2, v, s.thy.bus⟩ ∧ t.reg p.2 = s.reg p.2 ∧ t.reg Reg.GLB_GUARD_ERRS = s.reg Reg.GLB_GUARD_ERRS + 1 ∧
      (t.reg Reg.GLB_GUARD_STATUS).getLsbD 0 = true ∧ t.arrays = s.arrays ∧ t.mem = s.mem ∧ t.thy = s.thy ∧ t.mir = s.mir ∧ t.dev = s.dev ∧
      t.ring = s.ring ∧ t.tiers = s.tiers) ∧
    (s.barUp = true → s.regsSorted →
      (∀ g, (s.requester q).pair = some g → g.offset ≠ p.2 ∨ v ≠ ~~~g.value ∨ g.openedAt + 64 < s.thy.bus) →
      ∃ t, exec (p.1 q true v) s = .next t ∧ (t.requester q).pair = none ∧ t.reg p.2 = s.reg p.2 ∧
        t.reg Reg.GLB_GUARD_ERRS = s.reg Reg.GLB_GUARD_ERRS + 1 ∧ (t.reg Reg.GLB_GUARD_STATUS).getLsbD 0 = true ∧
        t.arrays = s.arrays ∧ t.mem = s.mem ∧ t.thy = s.thy ∧ t.mir = s.mir ∧ t.dev = s.dev ∧ t.ring = s.ring ∧ t.tiers = s.tiers) ∧
    exec (.registerWrite q p.2 (.word 0xF v)) s = exec (p.1 q false v) s ∧
    exec (.registerWrite q (p.2 + 0x800) (.word 0xF v)) s = exec (p.1 q true v) s

/-- R219, R220, R238, R249, R252, R334, R354, R371, R415, R417, R446, R451, R455, R456, R468, R476: what the completed pair on each guarded register does; in recovery no Bay moves and no package copy starts (R451). The newest waiting value of DET_CTRL replaces an older one. Whether another module's running job crosses the hops of a Bay change is a free bit (log 99). Completes: thyTodCtrl, thyPrio, thyRateCap, tirCopyCtrl, rngBayCtrl, mirFence, detCtrl, glbCrcCtrl, glbCfgCrcRef, secRevoke, secPolicy, secReset, calSave, pwrLimit. -/
def Obligations.GuardedEffects : Prop :=
  ∀ (q : Requester) (v : BitVec 32) (s : State), s.regsSorted →
    (∀ p ∈ ([(Instr.glbCrcCtrl, Reg.GLB_CRC_CTRL, 1#32), (Instr.pwrLimit, Reg.PWR_LIMIT, 0xFFFF#32)] :
        List ((Requester → Bool → BitVec 32 → Instr) × Nat × BitVec 32)), s.pairOpen q p.2.1 v →
      ∃ t, exec (p.1 q true (~~~v)) s = .next t ∧ t = { s with regs := t.regs } ∧ (t.requester q).pair = none ∧
        t.reg p.2.1 = v &&& p.2.2 ∧ (∀ o, o ≠ p.2.1 → o ≠ Reg.GLB_CRC_STATUS → t.reg o = s.reg o) ∧
        (t.reg Reg.GLB_CRC_STATUS).getLsbD 1 = true) ∧
    (s.pairOpen q Reg.THY_PRIO v → ∃ t, exec (.thyPrio q true (~~~v)) s = .next t ∧ (t.requester q).pair = none ∧
      t.reg Reg.THY_PRIO = v &&& 0xFF ∧ (s.thy.master = true → t.thy = { s.thy with masterPrio := if s.host.oscStable then v.toNat % 256 else 0 })) ∧
    (s.pairOpen q Reg.THY_RATE_CAP v → ∃ t, exec (.thyRateCap q true (~~~v)) s = .next t ∧ (t.requester q).pair = none ∧
      t.reg Reg.THY_RATE_CAP = v &&& 0x7F ∧ t.thy.rate = s.thy.rate ∧
      t.rateReq = min s.thy.powerRate (min s.thy.thermalRate (min 64 (max 32 (v.toNat % 128))))) ∧
    (s.pairOpen q Reg.THY_TOD_CTRL v → ∃ t, exec (.thyTodCtrl q true (~~~v)) s = .next t ∧ (t.requester q).pair = none ∧
      t = { s with thy := t.thy, regs := t.regs } ∧
      (s.thy.master = true → t.thy = (if v.getLsbD 0 then { s.thy with todPending := true } else s.thy) ∧
        t.reg Reg.THY_TOD_IGNORED = s.reg Reg.THY_TOD_IGNORED) ∧
      (s.thy.master = false → t.thy = s.thy ∧ t.reg Reg.THY_TOD_IGNORED = s.reg Reg.THY_TOD_IGNORED + 1)) ∧
    (s.pairOpen q Reg.TIR_COPY_CTRL v → s.host.recovery = true → ∃ t, exec (.tirCopyCtrl q true (~~~v)) s = .next t ∧ t.tiers = s.tiers ∧
      t.reg Reg.TIR_COPY_CTRL = v &&& 0x3F) ∧
    (∀ sp rest, s.pairOpen q Reg.TIR_COPY_CTRL v → s.host.recovery = false → v.getLsbD 31 = true → s.tiers.copy = none → s.spares = sp :: rest →
      (v.toNat % 64) ∈ s.tiers.chmap → ∃ t, exec (.tirCopyCtrl q true (~~~v)) s = .next t ∧
      t.tiers.copy = some ⟨s.tiers.chmap.findIdx (· == v.toNat % 64), v.toNat % 64, sp, 0⟩ ∧ t.tiers.usedSpares = s.tiers.usedSpares ++ [sp] ∧
      t.reg64 Reg.TIR_COPY_PTR = 0 ∧ t.tiers.chmap = s.tiers.chmap ∧ t.mem = s.mem) ∧
    (s.pairOpen q Reg.RNG_BAY_CTRL v → (s.mir.fenced = true ∨ s.host.recovery = true) → ∃ t, exec (.rngBayCtrl q true (~~~v)) s = .next t ∧ t.ring = s.ring ∧
      t.reg Reg.RNG_BAY_CTRL = s.reg Reg.RNG_BAY_CTRL) ∧
    (s.pairOpen q Reg.RNG_BAY_CTRL v → s.mir.fenced = false → s.host.recovery = false →
      (s.hopsBusy (v.getLsbD 0) (v.getLsbD 1) (v.getLsbD 2) = false → ∃ t, exec (.rngBayCtrl q true (~~~v)) s = .next t ∧
        t.ring.bayX = v.getLsbD 0 ∧ t.ring.bayY = v.getLsbD 1 ∧ t.ring.bayM = v.getLsbD 2 ∧ t.reg Reg.RNG_BAY_CTRL = v &&& 7) ∧
      (s.hopsBusy (v.getLsbD 0) (v.getLsbD 1) (v.getLsbD 2) = true → ∃ t, exec (.rngBayCtrl q true (~~~v)) s = .next t ∧ t.ring = s.ring ∧
        t.reg Reg.RNG_BAY_CTRL = s.reg Reg.RNG_BAY_CTRL)) ∧
    (s.pairOpen q Reg.MIR_FENCE v → v.getLsbD 0 = true → ∃ t, exec (.mirFence q true (~~~v)) s = .next t ∧ t.mir.fenced = true ∧
      t.flt.stopped = true ∧ t.host.restart = none ∧ t.ring.bayX = false ∧ t.ring.bayY = false ∧ t.ring.bayM = false) ∧
    (s.pairOpen q Reg.DET_CTRL v →
      (v.getLsbD 0 = true → s.choiceInUse = true → ∃ t, exec (.detCtrl q true (~~~v)) s = .next t ∧
        t.reg Reg.DET_CTRL = s.reg Reg.DET_CTRL ∧ t.reg Reg.DET_STRICT_REFUSED = s.reg Reg.DET_STRICT_REFUSED + 1) ∧
      ((v.getLsbD 0 = false ∨ s.choiceInUse = false) → s.strictIdle = true → ∃ t, exec (.detCtrl q true (~~~v)) s = .next t ∧
        t.reg Reg.DET_CTRL = v &&& 1 ∧ ∀ w ∈ t.regs.guardWaiting, w.1 ≠ Reg.DET_CTRL) ∧
      ((v.getLsbD 0 = false ∨ s.choiceInUse = false) → s.strictIdle = false → ∃ t, exec (.detCtrl q true (~~~v)) s = .next t ∧
        t.reg Reg.DET_CTRL = s.reg Reg.DET_CTRL ∧ t.regs.guardWaiting = (Reg.DET_CTRL, v &&& 1) :: s.regs.guardWaiting.filter (fun w => w.1 != Reg.DET_CTRL))) ∧
    (s.pairOpen q Reg.GLB_CFG_CRC_REF v → ∃ t, exec (.glbCfgCrcRef q true (~~~v)) s = .next t ∧ t.reg Reg.GLB_CFG_CRC_REF = v ∧
      (s.crcOn = true → t.regs.crcBad = decide (v ≠ s.cfgCrc) ∧ (v ≠ s.cfgCrc → t.flt.unacked = true ∧ (t.reg Reg.GLB_CRC_STATUS).getLsbD 2 = true))) ∧
    (s.pairOpen q Reg.SEC_REVOKE v →
      (s.mayRevoke v = true → ∃ t, exec (.secRevoke q true (~~~v)) s = .next t ∧
        t.dev = { s.dev with
          fwRevoked := s.dev.fwRevoked.zipIdx.map (fun x => x.1 || v.getLsbD x.2)
          progRevoked := s.dev.progRevoked.zipIdx.map (fun x => x.1 || v.getLsbD (4 + x.2)) }) ∧
      (s.mayRevoke v = false → ∃ t, exec (.secRevoke q true (~~~v)) s = .next t ∧ t.dev = s.dev ∧
        t.reg Reg.GLB_GUARD_ERRS = s.reg Reg.GLB_GUARD_ERRS + 1)) ∧
    (s.pairOpen q Reg.SEC_POLICY v → ∃ t, exec (.secPolicy q true (~~~v)) s = .next t ∧ t.host = { s.host with requireSigned := v.getLsbD 0 } ∧
      t.reg Reg.SEC_POLICY = v &&& 1 ∧ t.dev = s.dev) ∧
    (s.pairOpen q Reg.SEC_RESET v → v.getLsbD 0 = true → ∃ t, exec (.secReset q true (~~~v)) s = .next t ∧ t.dev = s.dev ∧
      t.hostMem = s.hostMem ∧ t.host = { HostIf.reset with oscStable := s.host.oscStable } ∧ t.mem = [] ∧ t.arrays = State.reset.arrays ∧
      t.ring = Ring.reset ∧ t.thy = { Thyme.reset with masterPrio := t.prio } ∧ t.flt = Faults.reset ∧ t.pwr = { Power.reset with trip := s.pwr.trip }) ∧
    (s.pairOpen q Reg.CAL_SAVE v → v.getLsbD 0 = true → ∃ t, exec (.calSave q true (~~~v)) s = .next t ∧
      t.dev = { s.dev with savedOverlays := s.regs.overlays })

/-- R402, R404, R406, R408, R410 to R412, R436: what a write of each kind of register changes, what a low-word read latches, and what GLB_STROBE and FLT_EQ_TAIL do; no committed value of an RW register changes at its write, a write that enables fewer than 4 bytes does nothing, one of 8 bytes is two of 4 bytes, and a write-1-to-clear bit that hardware sets in the same bus cycle stays set. R252, R371, R409, R410, R415: a block's commit gives every plain RW register its shadow, every idle-only one whose block is idle too, and leaves the others and an elastic mode under strict; a snapshot latches T; a block that waited commits when it is idle. Completes: registerWrite, slLowRead, glbStrobe, fltEqTail, thySnapCtrl, strobeCommit, idleOnlyCommit. -/
def Obligations.RegisterWritesAndCommits : Prop :=
  ((∀ (q : Requester) (off : Nat) (r : RegRow) (v : BitVec 32) (s : State), s.barUp = true → msixOffset off = false → regRow off = some r →
    (off < 0x100000 ∨ 0x540000 ≤ off) →
    (r.acc = .ro ∨ r.acc = .sl ∨ r.acc = .slHi → exec (.registerWrite q off (.word 0xF v)) s = .next s) ∧
    (r.acc = .w1c → s.regsSorted → ∃ t, exec (.registerWrite q off (.word 0xF v)) s = .next t ∧ t = { s with regs := { s.regs with vals := t.regs.vals } } ∧
      t.reg off = s.reg off &&& ~~~(v &&& BitVec.ofNat 32 r.wmask &&& ~~~s.raisedNow off) ∧ ∀ o, o ≠ off → t.reg o = s.reg o) ∧
    (r.acc = .rw ∨ r.acc = .slw ∨ r.acc = .slwHi → s.regs.shadows.Pairwise (fun x y => x.1 < y.1) → s.strobing r.group = false →
      s.strictRefuses off v = false → off ≠ Reg.CAL_USER →
      ∃ t, exec (.registerWrite q off (.word 0xF v)) s = .next t ∧ t = { s with regs := { s.regs with shadows := t.regs.shadows } } ∧
        t.shadow off = v &&& BitVec.ofNat 32 r.wmask ∧ ∀ o, o ≠ off → t.shadow o = s.shadow o) ∧
    (r.acc = .rw ∨ r.acc = .slw ∨ r.acc = .slwHi → s.regsSorted → s.strobing r.group = true →
      ∃ t, exec (.registerWrite q off (.word 0xF v)) s = .next t ∧ t.regs.shadows = s.regs.shadows ∧
        t.reg Reg.GLB_STROBE_CONFLICTS = s.reg Reg.GLB_STROBE_CONFLICTS + 1)) ∧
  (∀ (q : Requester) (off : Nat) (e : BitVec 4) (v : BitVec 32) (s : State), e ≠ 0xF → exec (.registerWrite q off (.word e v)) s = .next s) ∧
  (∀ (q : Requester) (off : Nat) (e : BitVec 8) (v : BitVec 64) (s : State), ∃ u,
    exec (.registerWrite q off (.word (e.truncate 4) (v.truncate 32))) s = .next u ∧
    exec (.registerWrite q off (.double e v)) s = exec (.registerWrite q (off + 4) (.word (e.extractLsb' 4 4) (v.extractLsb' 32 32))) u) ∧
  (∀ (q : Requester) (off : Nat) (r : RegRow) (s : State), s.barUp = true → regRow off = some r → (r.acc = .sl ∨ r.acc = .slw) →
    (s.requester q).latches.Pairwise (fun x y => x.1 < y.1) →
    ∃ t, exec (.slLowRead q off) s = .next t ∧ t = { s with regs := { s.regs with host := t.regs.host, sage := t.regs.sage } } ∧
      (t.requester q).lastRead = s.readReg q off ∧ kvGet 0#32 (t.requester q).latches (off + 4) = BitVec.ofNat 32 (s.liveReg q (off + 4))) ∧
  (∀ (v : BitVec 32) (s : State), s.barUp = true → ∃ t, exec (.glbStrobe v) s = .next t ∧
    t = { s with regs := { s.regs with strobes := t.regs.strobes } } ∧
    ∀ c, c ∈ t.regs.strobes ↔ c ∈ s.regs.strobes ∨ (c / 256 < 8 ∧ v.getLsbD (c / 256) = true ∧ s.strobing (c / 256) = false ∧
      c % 256 ∈ s.groupBlocks (c / 256))) ∧
  (∀ (v : BitVec 32) (s : State), s.barUp = true → s.flt.eqAddr.isSome = true → v.toNat < s.flt.eqSize →
    ((v.toNat + s.flt.eqSize - s.flt.tail) % s.flt.eqSize ≤ (s.flt.head + s.flt.eqSize - s.flt.tail) % s.flt.eqSize →
      exec (.fltEqTail v) s = .next { s with flt := { s.flt with tail := v.toNat, tail1 := true, tail2 := true } }) ∧
    ((s.flt.head + s.flt.eqSize - s.flt.tail) % s.flt.eqSize < (v.toNat + s.flt.eqSize - s.flt.tail) % s.flt.eqSize →
      exec (.fltEqTail v) s = .next s)) ∧
  (∀ (v : BitVec 32) (s : State), s.barUp = true → s.strobing 4 = false → s.regs.shadows.Pairwise (fun x y => x.1 < y.1) →
    ∃ t, exec (.thySnapCtrl v) s = .next t ∧ t = { s with regs := { s.regs with shadows := t.regs.shadows } } ∧
      t.shadow Reg.THY_SNAP_CTRL = v &&& 1 ∧ ∀ o, o ≠ Reg.THY_SNAP_CTRL → t.shadow o = s.shadow o)) ∧
  (∀ (g b : Nat) (s : State), s.regsSorted → s.commitPoint g b = true →
    (256 * g + b ∈ s.regs.strobes → 256 * g + b ∉ s.regs.pendingIdle → ∃ t, exec (.strobeCommit g b) s = .next t ∧
      (∀ e ∈ groupRows g b, e.1 ≠ Reg.THY_SNAP_CTRL → (e.2 = false ∨ s.idleFor e.1 = true) →
        s.strictRefuses e.1 (s.shadow e.1) = false → t.reg e.1 = s.shadow e.1) ∧
      (∀ e ∈ groupRows g b, s.strictRefuses e.1 (s.shadow e.1) = true → t.reg e.1 = s.reg e.1) ∧
      (∀ e ∈ groupRows g b, (e.1, false) ∉ groupRows g b → s.idleFor e.1 = false → t.reg e.1 = s.reg e.1) ∧
      (t.reg Reg.GLB_CRC_STATUS).getLsbD 1 = true ∧ t.arrays = s.arrays ∧ t.mem = s.mem ∧
      ((∀ e ∈ groupRows g b, e.2 = true → s.idleFor e.1 = true) → t.regs.strobes = s.regs.strobes.erase (256 * g + b)) ∧
      (g = 4 → (s.shadow Reg.THY_SNAP_CTRL).getLsbD 0 = true → s.thy.tick < 2 ^ 64 →
        t.reg64 Reg.THY_SNAP_TICK = s.thy.tick ∧ t.reg Reg.THY_SNAP_CTRL = 0)) ∧
    (256 * g + b ∈ s.regs.pendingIdle → s.regs.guardWaiting = [] → ∃ t, exec (.idleOnlyCommit g b) s = .next t ∧
      (∀ e ∈ groupRows g b, e.2 = true → s.idleFor e.1 = true → e.1 ≠ Reg.THY_SNAP_CTRL →
        s.strictRefuses e.1 (s.shadow e.1) = false → t.reg e.1 = s.shadow e.1) ∧
      (t.reg Reg.GLB_CRC_STATUS).getLsbD 1 = true ∧ t.arrays = s.arrays ∧ t.mem = s.mem ∧
      ((∀ e ∈ groupRows g b, e.2 = true → s.idleFor e.1 = true) → t.regs.strobes = s.regs.strobes.erase (256 * g + b))))

/-- R411: while a group commits, a write to one of its shadows is discarded and recorded as a conflict, so the commit copies the shadows that stood when it was requested. -/
def Obligations.StrobeConflict : Prop :=
  ∀ (q : Requester) (off : Nat) (r : RegRow) (v : BitVec 32) (s : State), s.barUp = true → msixOffset off = false → regRow off = some r →
    (off < 0x100000 ∨ 0x540000 ≤ off) → (r.acc = .rw ∨ r.acc = .slw ∨ r.acc = .slwHi) → s.regsSorted → s.strobing r.group = true →
    ∃ t, exec (.registerWrite q off (.word 0xF v)) s = .next t ∧ t.regs.shadows = s.regs.shadows ∧ t.regs.strobes = s.regs.strobes ∧
      t.reg Reg.GLB_STROBE_CONFLICTS = s.reg Reg.GLB_STROBE_CONFLICTS + 1 ∧ t.reg Reg.GLB_STROBE_CONFLICT_ADDR = BitVec.ofNat 32 off ∧
      (t.reg Reg.GLB_STROBE_STATUS).getLsbD 0 = true ∧ t.reg Reg.FLT_EVENTS = s.reg Reg.FLT_EVENTS + 1 ∧ t.mem = s.mem ∧ t.arrays = s.arrays ∧
      (∀ a, Memory.wf s.hostMem → s.entryFits 0 = true → s.activating = none → s.flt.eqAddr = some a → windowCount s.flt.windowCounts 0x42 s.ring.addr < s.regN Reg.FLT_RATE % 65536 →
        memByte t.hostMem (a + 32 * s.flt.head) = 0x42 ∧ memByte t.hostMem (a + 32 * s.flt.head + 24) = BitVec.ofNat 8 off)

/-- R212, R348, R376, R377, R378: a BAR4 write lands where it is permitted, and nowhere else, or waits for the journal copy of its block; a permitted read returns memory, and raises the fault of a word that does not correct; what is not permitted changes no memory and reads as zero; a poisoned write and an access beyond the 64 GiB are errors of AER alone (its bits PRESUMED, log 91). Before an image is committed the window reaches the far tier and the slices of the grade. R417, R418, R439: the periodic CRC comparison, once in its period, and the end of an event-rate window. Completes: bar4Access, crcScrub, rateWindowEnd. -/
def Obligations.Bar4AndPeriodicChecks : Prop :=
  (∀ (ofs : Nat) (data : List (BitVec 8)) (s : State), s.powered = true → s.host.bootDone = true →
    (s.bar4Reaches (s.bar4At ofs) data.length .write = true → s.host.bar4Waiting = [] → ofs + data.length ≤ 2 ^ 36 → Memory.wf s.mem →
      (∀ y ∈ s.tiers.staged, y.arriving = true) → s.mir.refillPtr = none → s.lacking s.stp.step [(s.bar4At ofs, data.length)] = [] →
      s.unmergeable (s.bar4At ofs) data.length = [] →
      ∃ t, exec (.bar4Access true false ofs data) s = .next t ∧ t.arrays = s.arrays ∧ t.flt.first = s.flt.first ∧ t.ring = s.ring ∧
        ∀ x, memByte t.mem x = if s.bar4At ofs ≤ x ∧ x < s.bar4At ofs + data.length then data.getD (x - s.bar4At ofs) 0 else memByte s.mem x) ∧
    (s.bar4Reaches (s.bar4At ofs) data.length .write = false → ofs + data.length ≤ 2 ^ 36 →
      ∃ t, exec (.bar4Access true false ofs data) s = .next t ∧ t.mem = s.mem ∧ t.arrays = s.arrays) ∧
    (ofs + data.length ≤ 2 ^ 36 → exec (.bar4Access true true ofs data) s = .next (s.aerError 12)) ∧
    (s.bar4Reaches (s.bar4At ofs) data.length .read = true → s.host.bar4Waiting = [] → ofs + data.length ≤ 2 ^ 36 → Memory.wf s.mem →
      (s.eccBad (s.bar4At ofs) data.length = none → ∃ t, exec (.bar4Access false false ofs data) s = .next t ∧
        t.host.bar4Data = s.get (s.bar4At ofs) data.length ∧ t.mem = s.mem ∧ t.arrays = s.arrays ∧
        (s.tiers.soft = [] → s.tiers.nearSoft = [] →
          t = { s with host := { s.host with bar4Data := s.get (s.bar4At ofs) data.length } })) ∧
      (∀ code bad, s.eccBad (s.bar4At ofs) data.length = some (code, bad) → ∃ t, exec (.bar4Access false false ofs data) s = .next t ∧
        t.host.bar4Data.length = data.length ∧ t.mem = s.mem ∧ t.flt.unacked = true ∧
        (s.flt.first = none → ∃ r, t.flt.first = some r ∧ r.code = code ∧ r.addr = bad))) ∧
    (s.bar4Reaches (s.bar4At ofs) data.length .read = false → ofs + data.length ≤ 2 ^ 36 →
      ∃ t, exec (.bar4Access false false ofs data) s = .next t ∧ t.host = { s.host with bar4Data := List.replicate data.length 0 } ∧
        t.mem = s.mem ∧ t.arrays = s.arrays) ∧
    (s.bar4Reaches (s.bar4At ofs) data.length .write = true → ofs + data.length ≤ 2 ^ 36 → s.lacking s.stp.step [(s.bar4At ofs, data.length)] ≠ [] →
      s.host.bar4Waiting = [] →
      ∃ t, exec (.bar4Access true false ofs data) s = .next t ∧ t.mem = s.mem ∧ t.arrays = s.arrays ∧
        t.host.bar4Waiting = [(s.bar4At ofs, data)]) ∧
    (2 ^ 36 < ofs + data.length → (∀ p, exec (.bar4Access true p ofs data) s = .next (s.aerError 20)) ∧
      ∀ p, exec (.bar4Access false p ofs data) s =
        .next (State.aerError { s with host := { s.host with bar4Data := List.replicate data.length 0 } } 20)) ∧
    (s.host.committed = false → ∀ acc, s.bar4Reaches (s.bar4At ofs) data.length acc = true ↔
      s.bar4At ofs + data.length ≤ s.dev.grade.farBytes ∨
        (scratchBase ≤ s.bar4At ofs ∧ s.bar4At ofs + data.length ≤ scratchBase + s.dev.grade.arrays * sliceSize))) ∧
  (∀ s : State,
    (s.barUp = true → s.crcOn = true → (s.reg Reg.GLB_CRC_STATUS).getLsbD 1 = false → s.period % 65536 = 0 → s.regs.scrubbed ≠ some s.period →
      s.regsSorted →
      ∃ t, exec .crcScrub s = .next t ∧ t.reg Reg.GLB_CRC_SCRUBS = s.reg Reg.GLB_CRC_SCRUBS + 1 ∧
        t.regs.crcBad = decide (s.reg Reg.GLB_CFG_CRC_REF ≠ s.cfgCrc) ∧ t.regs.scrubbed = some s.period ∧
        (s.reg Reg.GLB_CFG_CRC_REF ≠ s.cfgCrc → t.flt.unacked = true) ∧ (s.reg Reg.GLB_CFG_CRC_REF = s.cfgCrc → t.flt = s.flt)) ∧
    (s.crcOn = false ∨ s.regs.scrubbed = some s.period → exec .crcScrub s = .next s) ∧
    (s.period % 2 ^ 20 = 0 → s.thy.cyc = 0 → s.regsSorted → ∃ t, exec .rateWindowEnd s = .next t ∧ t.flt.suppressed = [] ∧
      t.reg Reg.FLT_EVENTS = s.reg Reg.FLT_EVENTS + BitVec.ofNat 32 s.flt.suppressed.length ∧ t.mem = s.mem ∧ t.arrays = s.arrays ∧
      (s.flt.suppressed = [] → t.flt = { s.flt with windowCounts := [] })) ∧
    (s.period % 2 ^ 20 ≠ 0 → exec .rateWindowEnd s = .next s))

/-! ### Commands of Sage -/

/-- R382, R385, R389: a command whose state is not legal is answered STATE, and one whose parameters are out of range is refused with CMD_FORMAT, each with no other effect; before Sage is up nothing is answered, and over a link that is down no reply is written and host memory stays (R379). That a command row acts as its packet is log 55 (DEDUCED). -/
def Obligations.CommandChecks : Prop :=
  ∀ (c : CmdHdr) (a b d : BitVec 64) (sh : BitVec 48) (k : BitVec 16) (j : BitVec 32) (f : Bool) (s : State),
    (∀ p ∈ ([(.close c, 0x03, [.opened, .loaded, .ready, .held, .stopped]), (.loadImage c a b, 0x10, [.opened, .loaded, .ready]),
        (.patch c k a, 0x11, [.loaded]), (.commitImage c, 0x12, [.loaded]), (.unload c, 0x13, [.loaded, .ready, .stopped]),
        (.start c a sh j d, 0x20, [.ready]), (.hold c sh, 0x21, [.running]), (.resume c 0 0 sh a, 0x22, [.held, .stopped, .ready]),
        (.stop c, 0x23, [.running, .held]), (.snapshot c k, 0x30, [.held]), (.restore c k, 0x31, [.ready]),
        (.joinRing c 0 1 1, 0x40, [.opened, .loaded, .ready]), (.pair c k, 0x41, [.ready, .held]),
        (.leaveRing c, 0x42, [.opened, .loaded, .ready, .stopped]), (.fwLoad c a b, 0x50, [.opened, .loaded, .ready, .running, .held, .stopped]),
        (.fwActivate c f sh, 0x51, [.opened, .loaded, .ready, .running, .held, .stopped]),
        (.attest c 0, 0x60, [.opened, .loaded, .ready, .running, .held, .stopped]),
        (.eventQueue c 4096 64, 0x70, [.opened, .loaded, .ready, .running, .held, .stopped]), (.faultClear c f f, 0x71, [.stopped])] :
        List (Instr × Nat × List ModState)),
      (s.sageUp = false → exec p.1 s = .next s) ∧
      (s.takes c → s.host.st ∉ p.2.2 → ∃ t, exec p.1 s = .next t ∧ s.onlyReply t ∧ s.answered t c p.2.1 3 0 0 [])) ∧
    (∀ p ∈ ([(.openCmd c k k 2 f a, 0x02), (.openCmd c k k 0 f 0, 0x02), (.resume c 2 0 sh a, 0x22), (.resume c 0 2 sh a, 0x22),
        (.joinRing c 0 0 1, 0x40), (.joinRing c 0 1 65, 0x40), (.joinRing c 256 1 1, 0x40), (.eventQueue c 64 64, 0x70),
        (.eventQueue c 4096 96, 0x70)] : List (Instr × Nat)),
      s.takes c → ∃ t, exec p.1 s = .next t ∧ s.onlyReply t ∧ s.answered t c p.2 2 0x01 0 []) ∧
    (s.hostLink = false →
      ∀ i ∈ [Instr.identify c, .close c, .hold c sh, .resume c 0 0 sh a, .stop c, .snapshot c k, .restore c k, .joinRing c 0 1 1, .pair c k,
        .leaveRing c, .fwLoad c a b, .fwActivate c f sh, .attest c 0, .faultClear c f f, .loadImage c a b, .patch c k a, .commitImage c, .unload c,
        .start c a sh j d, .openCmd c k k 0 f a],
      ∃ t, exec i s = .next t ∧ t.hostMem = s.hostMem)

/-- R387, R390, R391: IDENTIFY answers in every state and changes nothing; OPEN of an unopened module makes its caller the owner at the negotiated version, and another owner without takeover is answered OWNER. R388, R389, R332, R327: CLOSE leaves memory, arrays, weights, contexts and regions empty and the module unopened and in no ring; UNLOAD takes the image and its regions away and keeps memory and the weights; LEAVE_RING leaves a ring of one. R334: LEAVE_RING is refused while a job's traffic crosses the hops (whether another module's job does is a free bit, and the fault code of this refusal the model's choice: log 99). That a command row acts as its packet and that a command with nothing more to wait for ends at once is log 55, which commands are answered meanwhile log 57, and what leaving, closing and unloading clear log 58 (each DEDUCED). Completes: identify, openCmd, close, unload, leaveRing. -/
def Obligations.Ownership : Prop :=
  ((∀ (c : CmdHdr) (s : State), s.takes c → ∃ t, exec (.identify c) s = .next t ∧ s.onlyReply t ∧ s.answered t c 0x01 0 0 0 s.identity) ∧
  (∀ (c : CmdHdr) (hi lo : BitVec 16) (mode : BitVec 8) (b : Bool) (owner : BitVec 64) (s : State), s.takes c → mode.toNat ≤ 1 → owner ≠ 0 →
    (s.host.st = .unopened → lo.toNat ≤ min hi.toNat s.ifRange.1 → s.ifRange.2 ≤ min hi.toNat s.ifRange.1 →
      ∃ t, exec (.openCmd c hi lo mode b owner) s = .next t ∧ s.answered t c 0x02 0 0 0 (leBytes 2 (min hi.toNat s.ifRange.1)) ∧
        t.host = { s.host with
          owner := some owner.toNat
          version := min hi.toNat s.ifRange.1
          faultMode := mode.toNat
          st := .opened } ∧ t.mem = s.mem ∧ t.arrays = s.arrays) ∧
    (s.host.st = .unopened → (min hi.toNat s.ifRange.1 < lo.toNat ∨ min hi.toNat s.ifRange.1 < s.ifRange.2) →
      ∃ t, exec (.openCmd c hi lo mode b owner) s = .next t ∧ s.onlyReply t ∧ s.answered t c 0x02 2 0x05 0 []) ∧
    (s.host.st ≠ .unopened → s.host.owner ≠ some owner.toNat →
      ∃ t, exec (.openCmd c hi lo mode false owner) s = .next t ∧ s.onlyReply t ∧ s.answered t c 0x02 5 0 0 []))) ∧
  (∀ (c : CmdHdr) (s : State), s.takes c →
    (s.host.st ∈ [ModState.opened, .loaded, .ready, .held, .stopped] → ∃ t, exec (.close c) s = .next t ∧
      (s.host.substWaiting = [] → s.answeredTwice t c 0x03 0 0 0 [] ∧ t.dev = s.dev) ∧ t.mem = [] ∧ t.arrays = s.arrays.map (fun _ => ArrayState.reset) ∧ t.mask.weights = [] ∧ t.tiers.regions = [] ∧ t.ring.ctxs = [] ∧
      t.ring.addr = 0 ∧ t.ring.xn = 1 ∧ t.ring.yn = 1 ∧ t.host.owner = none ∧ t.host.image = none ∧ t.host.st = .unopened ∧ t.tiers.bad = [] ∧ t.tiers.soft = [] ∧
      t.mir.paired = false ∧ t.mir.fenced = s.mir.fenced ∧ t.thy.master = true ∧ t.thy.tick = s.thy.tick) ∧
    (s.host.st ∈ [ModState.loaded, .ready, .stopped] → ∃ t, exec (.unload c) s = .next t ∧
      (s.host.substWaiting = [] → s.answered t c 0x13 0 0 0 [] ∧ t.dev = s.dev) ∧ t.mem = s.mem ∧ t.mask.weights = s.mask.weights ∧ t.tiers.regions = [] ∧ t.host.image = none ∧ t.host.committed = false ∧
      t.host.st = .opened ∧ t.host.owner = s.host.owner ∧ t.host.reload = false ∧
      t.thy = s.thy) ∧
    (s.host.st ∈ [ModState.opened, .loaded, .ready, .stopped] → ∃ t, exec (.leaveRing c) s = .next t ∧
      t.mem = s.mem ∧ t.arrays = s.arrays ∧ t.host = s.host ∧ t.thy.tick = s.thy.tick ∧
      (s.hopsBusy false false false = true → (s.used 1).onlyReply t ∧ s.answered t c 0x42 2 0x05 0 []) ∧
      (s.hopsBusy false false false = false → s.answered t c 0x42 0 0 0 [] ∧
        t.ring.addr = 0 ∧ t.ring.xn = 1 ∧ t.ring.yn = 1 ∧ t.ring.bayX = false ∧ t.ring.bayY = false ∧ t.ring.bayM = false ∧
        t.mir.paired = false ∧ t.thy.master = true)))

/-- R17, R210, R384, R399 to R401: LOAD_IMAGE takes a checked image in and refuses any other with its row's code (reading and checking an image: DEDUCED, log 59; a range past the end of the host's address space is answered TRANSFER: DESIGN CHOICE, log 91), leaving what was loaded; PATCH moves one region of a loaded image; COMMIT_IMAGE makes it ready, or refuses a host image that has changed. Completes: loadImage, patch, commitImage. -/
def Obligations.ImageCommands : Prop :=
  ∀ (c : CmdHdr) (a n : BitVec 64) (s : State), s.takes c →
    (s.host.st ∈ [ModState.opened, .loaded, .ready] → s.host.noSpare = true → a.toNat + n.toNat ≤ 2 ^ 64 →
      ∃ t, exec (.loadImage c a n) s = .next t ∧ s.onlyReply t ∧ s.answeredTwice t c 0x10 2 0x52 0 []) ∧
    (s.host.st ∈ [ModState.opened, .loaded, .ready] → 2 ^ 64 < a.toNat + n.toNat →
      ∃ t, exec (.loadImage c a n) s = .next t ∧ s.onlyReply t ∧ s.answeredTwice t c 0x10 4 0 0 []) ∧
    (∀ i, s.host.st ∈ [ModState.opened, .loaded, .ready] → s.host.noSpare = false → a.toNat + n.toNat ≤ 2 ^ 64 →
      s.checkImage a.toNat (memGet s.hostMem a.toNat n.toNat) = .ok i →
      ∃ t, exec (.loadImage c a n) s = .next t ∧ t.host.image = some i ∧ t.host.st = .loaded ∧
        t.tiers.regions = i.regions ∧ t.mir.desc = i.pairing ∧ t.mem = s.mem ∧ t.thy = s.thy ∧
        (s.host.substWaiting = [] → s.answeredTwice t c 0x10 0 0 0 [] ∧ t.dev = s.dev)) ∧
    (∀ e, s.host.st ∈ [ModState.opened, .loaded, .ready] → s.host.noSpare = false → a.toNat + n.toNat ≤ 2 ^ 64 →
      s.checkImage a.toNat (memGet s.hostMem a.toNat n.toNat) = .error e →
      ∃ t, exec (.loadImage c a n) s = .next t ∧ (s.used (n.toNat / 24 + 1)).onlyReply t ∧ s.answeredTwice t c 0x10 2 e.code e.detail []) ∧
    (∀ i r k, s.host.st = .loaded → s.host.image = some i → i.regions[k]? = some r → r.kind ≠ 6 → (i.pForm = true ∨ (2 ≤ r.kind ∧ r.kind ≤ 4)) →
      k < 65536 → (i.moved k a.toNat).fits = true →
      ∃ t, exec (.patch c (BitVec.ofNat 16 k) a) s = .next t ∧ s.answered t c 0x11 0 0 0 [] ∧ t.host.image = some (i.moved k a.toNat) ∧
        t.tiers.regions = i.regions.modify k (fun x => { x with base := a.toNat }) ∧ t.host.st = .loaded ∧ t.mem = s.mem ∧ t.arrays = s.arrays) ∧
    (∀ i, s.host.st = .loaded → s.host.image = some i → 2 ^ 64 < i.hostAddr + i.len →
      ∃ t, exec (.commitImage c) s = .next t ∧ s.onlyReply t ∧ s.answeredTwice t c 0x12 4 0 0 []) ∧
    (∀ i, s.host.st = .loaded → s.host.image = some i → i.hostAddr + i.len ≤ 2 ^ 64 → beNat (sha256 (memGet s.hostMem i.hostAddr i.len)) ≠ i.sha →
      ∃ t, exec (.commitImage c) s = .next t ∧ s.onlyReply t ∧ s.answeredTwice t c 0x12 2 0x03 0 []) ∧
    (∀ i imgs ctxs, s.host.st = .loaded → s.host.image = some i → i.hostAddr + i.len ≤ 2 ^ 64 → beNat (sha256 (memGet s.hostMem i.hostAddr i.len)) = i.sha →
      regionErr s.dev.grade i.pForm i.n i.regions = none → relocated i.regions i.images i.contexts i.relocs = some (imgs, ctxs) →
      ∃ t, exec (.commitImage c) s = .next t ∧ t.host.st = .ready ∧ t.host.committed = true ∧ t.host.program = i.digest ∧
        t.host.image = some i ∧ t.arrays.length = s.arrays.length ∧ t.dev = s.dev ∧ t.thy = s.thy ∧
        ∀ x ∈ t.arrays, x.ops = [] ∧ x.tables = List.replicate 16 ⟨none, none⟩ ∧ x.tsw = List.replicate 64 tswReset)

/-- R267, R392, R393: START sets every stream's mark base to T0 and its step to s0 and runs the streams that have code; HOLD waits for its boundary; each refuses a value that is not ahead. R351, R389, R394, R427: RESUME with mode 0 runs the held step again from T_r, keeping every pc, once nothing is in flight, and waits until then; STOP stops the streams at once (stopping, holding and resuming: DEDUCED, log 60). R350 to R352: RESUME with mode 1 rolls the module back to step s_r, whose journal bytes and entry records it restores (DEDUCED, log 61), and is refused with VERSION without a complete generation of it. Completes: start, hold, resume, stop. -/
def Obligations.RunControl : Prop :=
  ((∀ (c : CmdHdr) (t0 m : BitVec 64) (s0 : BitVec 48) (j : BitVec 32) (s : State), s.takes c → s.host.st = .ready → s.mir.fenced = false →
    (t0.toNat ≤ s.tick → ∃ t, exec (.start c t0 s0 j m) s = .next t ∧ s.onlyReply t ∧ s.answered t c 0x20 2 0x05 0 []) ∧
    (s.startRefusal t0.toNat m.toNat = none → s.eccBad m.toNat 512 = none →
      ∃ t, exec (.start c t0 s0 j m) s = .next t ∧ t.host.st = .running ∧ t.stp.started = true ∧ t.stp.step = s0.toNat ∧ t.stp.base = t0.toNat ∧
        t.ring.members = leNat (s.get m.toNat 512) ∧ t.mem = s.mem ∧ t.thy.tick = s.thy.tick ∧ t.flt.stopped = false ∧
        ∀ n st, n < s.arrays.length → (t.ctx n st).base = t0.toNat ∧ (t.ctx n st).step = s0.toNat ∧ (t.ctx n st).pc = (s.ctx n st).pc ∧
          (t.ctx n st).st = (if (s.ctx n st).codeRegion.isSome then .running else .idle))) ∧
  (∀ (c : CmdHdr) (sh : BitVec 48) (s : State), s.takes c → s.host.st = .running →
    (sh.toNat ≤ s.stp.step → ∃ t, exec (.hold c sh) s = .next t ∧ s.onlyReply t ∧ s.answered t c 0x21 2 0x05 0 []) ∧
    (s.stp.step < sh.toNat → ∃ t, exec (.hold c sh) s = .next t ∧ s.answered t c 0x21 1 0 0 [] ∧
      t.host = { s.host with
        pendingCmd := some ⟨c, 0x21, 0⟩
        holdStep := some sh.toNat } ∧ t.arrays = s.arrays ∧ t.mem = s.mem ∧ t.stp = s.stp))) ∧
  ((∀ (c : CmdHdr) (sr : BitVec 48) (tr : BitVec 64) (s : State), s.takes c → s.host.st = .held ∨ s.host.st = .stopped →
    s.resumeRefusal false sr.toNat tr.toNat = none →
    (s.nothingInFlight = true → ∃ t, exec (.resume c 0 0 sr tr) s = .next t ∧ s.answered t c 0x22 0 0 0 [] ∧ t.host.st = .running ∧
      t.stp.base = tr.toNat ∧ t.stp.step = s.stp.step ∧ t.flt.stopped = false ∧ t.mem = s.mem ∧
      ∀ n st, n < s.arrays.length → (t.ctx n st).base = tr.toNat ∧ (t.ctx n st).pc = (s.ctx n st).pc ∧ (t.ctx n st).head = none ∧
        (t.ctx n st).sregs = (s.ctx n st).sregs) ∧
    (s.nothingInFlight = false → exec (.resume c 0 0 sr tr) s =
      .next { s with host := { s.host with restart := some ⟨some c, false, false, sr.toNat, tr.toNat⟩ } })) ∧
  (∀ (c : CmdHdr) (deg : Bool) (sr : BitVec 48) (tr : BitVec 64) (g : JGen) (s : State), s.takes c → s.host.st = .held ∨ s.host.st = .stopped →
    s.resumeRefusal true sr.toNat tr.toNat = none → s.gen? sr.toNat = some g →
    (s.nothingInFlight = true → ∃ t, exec (.resume c 1 (if deg then 1 else 0) sr tr) s = .next t ∧ s.rolledBack t g sr.toNat tr.toNat deg ∧
      (s.journalWhole → Memory.wf s.mem → s.memoryBack t sr.toNat) ∧ t.thy.tick = s.thy.tick ∧
      (s.host.substWaiting = [] → s.journalWhole → t.dev = s.dev ∧
        t.hostMem = memPut s.hostMem c.replyAddr (replyBytes c 0x22 0 0 s.period 0 []))) ∧
    (s.nothingInFlight = false → exec (.resume c 1 (if deg then 1 else 0) sr tr) s =
      .next { s with host := { s.host with restart := some ⟨some c, true, deg, sr.toNat, tr.toNat⟩ } })) ∧
  (∀ (c : CmdHdr) (v : BitVec 8) (sr : BitVec 48) (tr : BitVec 64) (s : State), s.takes c → s.host.st = .held ∨ s.host.st = .stopped → v.toNat ≤ 1 →
    s.mir.fenced = false → s.regs.crcBad = false → s.host.noSpare = false → s.host.reload = false → (s.host.st = .held ∨ s.flt.unacked = false) →
    s.gen? sr.toNat = none →
    ∃ t, exec (.resume c 1 v sr tr) s = .next t ∧ s.onlyReply t ∧ s.answered t c 0x22 2 0x05 0 []) ∧
  (∀ (c : CmdHdr) (s : State), s.takes c → (s.host.st = .running ∨ s.host.st = .held) →
    ∃ t, exec (.stop c) s = .next t ∧ s.answered t c 0x23 0 0 0 [] ∧ t.host.st = .stopped ∧ t.flt.stopped = true ∧ t.host.holdStep = none ∧
      t.arrays = s.arrays ∧ t.mem = s.mem ∧ t.thy = s.thy))

/-- R231, R395: SNAPSHOT writes the state record into its kind-4 region with every dirty staged copy clean, and changes no array; RESTORE of a record of the same program holds the module at the record's step; other programs and other regions are refused; what RESTORE loads from a SNAPSHOT is what the module held (the layout of the record: DESIGN CHOICE, log 41; snapshot and restore: DEDUCED, log 61). R216: a record that does not correct raises its fault. Completes: snapshot, restore. -/
def Obligations.SnapshotAndRestore : Prop :=
  (∀ (c : CmdHdr) (k : BitVec 16) (s : State), s.takes c →
    (s.host.st = .held → s.kind4 k.toNat = none → ∃ t, exec (.snapshot c k) s = .next t ∧ s.onlyReply t ∧ s.answered t c 0x30 2 0x01 k.toNat []) ∧
    (∀ r, s.host.st = .held → s.kind4 k.toNat = some r → (s.stateRecord false).bytes.length ≤ r.size →
      s.unmergeable r.base (s.stateRecord false).bytes.length = [] →
      ∃ t, exec (.snapshot c k) s = .next t ∧ t.host = s.host ∧ t.arrays = s.arrays ∧ t.stp = s.stp ∧ t.thy = s.thy ∧
        (∀ y ∈ t.tiers.staged, y.dirty = false) ∧
        (s.tiers.soft = [] → s.tiers.nearSoft = [] → s.answeredTwice t c 0x30 0 0 0 (leBytes 8 (s.stateRecord false).bytes.length)) ∧
        (Memory.wf s.mem → s.tiers.staged = [] → s.mir.refillPtr = none →
          onlyWrites s.mem t.mem [(r.base, (s.stateRecord false).bytes)] ∧
          ∀ i, i < (s.stateRecord false).bytes.length → memByte t.mem (r.base + i) = (s.stateRecord false).bytes.getD i 0)) ∧
    (∀ r, s.host.st = .ready → s.kind4 k.toNat = some r → s.eccBad r.base r.size = none →
      ((recordOfBytes (s.get r.base r.size)).digest ≠ s.host.program →
        ∃ t, exec (.restore c k) s = .next t ∧ t.host = s.host ∧ t.arrays = s.arrays ∧ t.mem = s.mem ∧ t.mask = s.mask ∧
          (s.tiers.soft = [] → s.tiers.nearSoft = [] → s.onlyReply t ∧ s.answeredTwice t c 0x31 2 0x05 0 [])) ∧
      ((recordOfBytes (s.get r.base r.size)).digest = s.host.program →
        ∃ t, exec (.restore c k) s = .next t ∧ t.host.st = .held ∧
          t.stp.step = (recordOfBytes (s.get r.base r.size)).step ∧ t.mask.weights = (recordOfBytes (s.get r.base r.size)).weights ∧
          t.mem = s.mem ∧ t.thy = s.thy ∧ t.arrays.length = s.arrays.length ∧
          (s.tiers.soft = [] → s.tiers.nearSoft = [] → s.answeredTwice t c 0x31 0 0 0 []))) ∧
    (∀ r code bad, s.host.st = .ready → s.kind4 k.toNat = some r → s.eccBad r.base r.size = some (code, bad) →
      ∃ t, exec (.restore c k) s = .next t ∧ t.flt.unacked = true ∧ t.mem = s.mem ∧
        (s.flt.first = none → ∃ f, t.flt.first = some f ∧ f.code = code ∧ f.addr = bad))) ∧
  (∀ (c d : CmdHdr) (k : BitVec 16) (r : Region) (s t u : State), s.takes c → s.host.st = .held → s.kind4 k.toNat = some r →
    (s.stateRecord false).bytes.length ≤ r.size → s.unmergeable r.base (s.stateRecord false).bytes.length = [] → Memory.wf s.mem →
    s.tiers.staged = [] → s.mir.refillPtr = none → exec (.snapshot c k) s = .next t →
    (∀ w ∈ (s.stateRecord false).words, w < 2 ^ 64) →
    (∀ e ∈ (s.stateRecord false).streams, e.2.2.sregs.length = 32 ∧ e.2.2.abs.length = 16) → s.host.program.length = 32 →
    u.takes d → u.host.st = .ready → u.kind4 k.toNat = some r → u.mem = t.mem → u.eccBad r.base r.size = none → u.host.program = s.host.program →
    u.wct.length = s.wct.length → s.nArrays ≤ u.arrays.length →
    ∃ v, exec (.restore d k) u = .next v ∧ v.host.st = .held ∧ v.stp.step = s.stp.step ∧ v.mask.weights = s.mask.weights ∧
      v.wct = s.wct.map (fun w => { w with arriving := [], table := [], sets := [] }) ∧
      (u.regsSorted → v.reg Reg.UPD_TCOUNT = s.reg Reg.UPD_TCOUNT) ∧
      ∀ n st, n < s.nArrays → (v.ctx n st).pc = (s.entryCtx n st).pc ∧ (v.ctx n st).sregs = (s.entryCtx n st).sregs ∧
        (v.ctx n st).abs = (s.entryCtx n st).abs ∧ (v.ctx n st).ver = (s.entryCtx n st).ver ∧ (v.ctx n st).base = (s.entryCtx n st).base ∧
        (v.ctx n st).step = (s.entryCtx n st).step)

/-- R342, R396: JOIN_RING gives the module its place and engages its ring Bays, whose ports train; PAIR engages the M Bay of a module whose binary asks for a pair, and is refused otherwise (whether the twin runs the same program is a free bit: log 37). R334: JOIN_RING is refused while a job's traffic crosses the hops (whether another module's job does is a free bit, and the fault code of this refusal the model's choice: log 99). Completes: joinRing, pair. -/
def Obligations.JoinAndPair : Prop :=
  (∀ (c : CmdHdr) (a : BitVec 16) (xn yn : BitVec 8) (s : State), s.takes c → s.host.st ∈ [ModState.opened, .loaded, .ready] →
    1 ≤ xn.toNat → xn.toNat ≤ 64 → 1 ≤ yn.toNat → yn.toNat ≤ 64 → a.toNat / 256 < xn.toNat → a.toNat % 256 < yn.toNat →
    4 ≤ s.ring.ports.length →
    ∃ t, exec (.joinRing c a xn yn) s = .next t ∧ t.host.st = s.host.st ∧ t.arrays = s.arrays ∧ t.mem = s.mem ∧
      (s.hopsBusy true true s.ring.bayM = true → (s.used 1).onlyReply t ∧ s.answered t c 0x40 2 0x05 0 []) ∧
      (s.hopsBusy true true s.ring.bayM = false → s.answered t c 0x40 1 0 0 [] ∧ t.ring.addr = a.toNat ∧ t.ring.xn = xn.toNat ∧
        t.ring.yn = yn.toNat ∧ t.ring.bayX = true ∧ t.ring.bayY = true ∧ t.ring.bayM = s.ring.bayM ∧ t.host.pendingCmd.isSome = true ∧
        ((∀ p, p < 4 → (s.port p).st ≠ .up) ∨ s.ring.bayX = false ∧ s.ring.bayY = false → ∀ p, p < 4 → (t.port p).st = .training))) ∧
  (∀ (c : CmdHdr) (w : BitVec 16) (s : State), s.takes c → s.host.st = .ready →
    (s.mayPair = false → ∃ t, exec (.pair c w) s = .next t ∧ s.onlyReply t ∧ s.answeredTwice t c 0x41 2 0x05 0 []) ∧
    (s.mayPair = true → s.ring.bayM = false → 5 ≤ s.ring.ports.length →
      ∃ t, exec (.pair c w) s = .next t ∧ s.answered t c 0x41 1 0 0 [] ∧ t.ring.bayM = true ∧ (t.port 4).st = .training ∧
        t.host.pendingCmd = some ⟨c, 0x41, w.toNat⟩ ∧ t.ring.bayX = s.ring.bayX ∧ t.mir = s.mir ∧ t.arrays = s.arrays ∧ t.mem = s.mem))

/-- R384, R458 to R462, R464, R463: FW_LOAD fills the inactive slot with a signed image that is no older than the fuses allow (which slot is inactive in recovery: DEDUCED, log 45; a range past the end of the host's address space: DESIGN CHOICE, log 91); FW_ACTIVATE waits for its boundary, and then the new firmware runs, or the old one goes on (DEDUCED, log 62); ATTEST answers the signed report. Completes: fwLoad, fwActivate, fwActivation, fwHealthTimeout, attest. -/
def Obligations.FirmwareCommands : Prop :=
  (∀ (c : CmdHdr) (a n : BitVec 64) (s : State), s.takes c → s.host.st ≠ .unopened →
    (2 ^ 64 < a.toNat + n.toNat → ∃ t, exec (.fwLoad c a n) s = .next t ∧ s.onlyReply t ∧ s.answeredTwice t c 0x50 4 0 0 []) ∧
    (∀ e, n.toNat ≤ 2 ^ 24 → a.toNat + n.toNat ≤ 2 ^ 64 → s.fwRefusal n.toNat (memGet s.hostMem a.toNat n.toNat) = some e →
      ∃ t, exec (.fwLoad c a n) s = .next t ∧ s.onlyReply t ∧ s.answeredTwice t c 0x50 2 e 0 []) ∧
    (n.toNat ≤ 2 ^ 24 → a.toNat + n.toNat ≤ 2 ^ 64 → s.fwRefusal n.toNat (memGet s.hostMem a.toNat n.toNat) = none →
      ∃ t, exec (.fwLoad c a n) s = .next t ∧ s.answeredTwice t c 0x50 0 0 0 [] ∧ t.mem = s.mem ∧ t.arrays = s.arrays ∧ t.host = s.host ∧
        t.dev = (if s.host.runB then { s.dev with slotA := fwSlotOf (memGet s.hostMem a.toNat n.toNat) }
          else { s.dev with slotB := fwSlotOf (memGet s.hostMem a.toNat n.toNat) }))) ∧
  (∀ (c : CmdHdr) (b : Bool) (sa : BitVec 48) (s : State), s.takes c → s.host.st ≠ .unopened →
    (s.host.st ≠ .running ∨ sa = 0 ∨ s.stp.step < sa.toNat) → s.dev.slotOk (s.dev.slot (!s.host.runB)) = true →
    ∃ t, exec (.fwActivate c b sa) s = .next t ∧ s.answered t c 0x51 1 0 0 [] ∧ t.dev = s.dev ∧ t.arrays = s.arrays ∧
      t.host = { s.host with
        pendingCmd := some ⟨c, 0x51, 0⟩
        fwPending := some (b, if s.host.st ≠ .running then 0 else if sa = 0 then s.stp.step + 1 else sa.toNat) }) ∧
  (∀ (b : Bool) (k : Nat) (s : State), s.host.fwPending = some (b, k) → s.host.recovery = false → s.host.visible = [] →
    ((s.host.st = .running ∧ s.stp.step < k) → exec .fwActivation s = .next s ∧ exec .fwHealthTimeout s = .next s) ∧
    ((s.host.st ≠ .running ∨ k ≤ s.stp.step) →
      (∃ t, exec .fwActivation s = .next t ∧ t.host.runB = (!s.host.runB) ∧ t.host.fwPending = none ∧ t.host.pendingCmd = none ∧
        t.dev = { s.dev with
          activeB := !s.host.runB
          svnFuses := if b then max s.dev.svnFuses (min 64 (s.dev.slot (!s.host.runB)).svn) else s.dev.svnFuses } ∧
        t.arrays = s.arrays ∧ t.mem = s.mem) ∧
      ∃ t, exec .fwHealthTimeout s = .next t ∧ t.host.runB = s.host.runB ∧ t.host.fwPending = none ∧ t.host.pendingCmd = none ∧ t.dev = s.dev ∧
        t.arrays = s.arrays ∧ t.mem = s.mem)) ∧
  (∀ (c : CmdHdr) (n : BitVec 256) (s : State), s.takes c → s.host.st ≠ .unopened →
    ∃ t, exec (.attest c n) s = .next t ∧ s.onlyReply t ∧ s.answered t c 0x60 0 0 0 (s.attestation (leBytes 32 n.toNat)))

/-- R436, R441: EVENT_QUEUE makes an empty queue; FAULT_CLEAR forgets the fault records, keeps the event queue, clears the job counters only on request and nothing of memory or the arrays; the module's own entries leave the report filter (DESIGN CHOICE, log 112). R381, R382: a seal word of zero makes no packet; a sealed packet with a bad length or CRC is counted and answered by an event alone; a sealed IDENTIFY packet is carried out; a second seal on a visible slot is only counted (the window: DEDUCED, log 56). Completes: eventQueue, faultClear, sealWrite. -/
def Obligations.QueueClearAndSeals : Prop :=
  ((∀ (c : CmdHdr) (a : BitVec 64) (n : BitVec 32) (s : State), s.takes c → s.host.st ≠ .unopened → a.toNat % 4096 = 0 → 64 ≤ n.toNat →
    n.toNat ≤ 65536 → 2 ^ Nat.log2 n.toNat = n.toNat → s.flt.stash = [] →
    ∃ t, exec (.eventQueue c a n) s = .next t ∧ s.answered t c 0x70 0 0 0 [] ∧ t.flt.eqAddr = some a.toNat ∧ t.flt.eqSize = n.toNat ∧
      t.flt.head = 0 ∧ t.flt.tail = 0 ∧ t.flt.seq = 0 ∧ t.mem = s.mem ∧ t.arrays = s.arrays ∧ t.host = s.host) ∧
  (∀ (c : CmdHdr) (x y : Bool) (s : State), s.takes c → s.host.st = .stopped → (s.thy.phaseLost = false ∨ s.thy.master = true) →
    ∃ t, exec (.faultClear c x y) s = .next t ∧ s.answered t c 0x71 0 0 0 [] ∧ t.flt.first = none ∧ t.flt.lastValid = false ∧
      t.flt.unacked = false ∧ t.flt.eqAddr = s.flt.eqAddr ∧ t.flt.head = s.flt.head ∧ t.thy.phaseLost = false ∧ t.mem = s.mem ∧ t.arrays = s.arrays ∧
      t.host = s.host ∧ (∀ f ∈ t.ring.filter, f.1 ≠ s.ring.addr) ∧ (y = true → t.ring.merges = [] ∧ t.ring.filter = []) ∧
      (y = false → t.ring.merges = s.ring.merges) ∧
      (x = false → ∀ o, o ≠ Reg.FLT_STATUS → o ≠ Reg.HST_CMDS → t.reg o = s.reg o) ∧
      (x = true → ∀ o, isJob o = true → o ≠ Reg.HST_CMDS → t.reg o = s.regDefault o)) ∧
  (∀ (c : CmdHdr) (x y : Bool) (s : State), s.takes c → s.host.st = .stopped → s.thy.phaseLost = true → s.thy.master = false →
    ∃ t, exec (.faultClear c x y) s = .next t ∧ s.answered t c 0x71 1 0 0 [] ∧ t.flt.unacked = s.flt.unacked ∧ t.host.pendingCmd.isSome = true ∧
      t.thy = s.thy)) ∧
  (∀ (slot : Nat) (body : List (BitVec 8)) (w : BitVec 32) (s : State), s.powered = true → slot < 256 →
    (slot ∈ s.host.visible → s.regsSorted → ∃ t, exec (.sealWrite slot body w) s = .next t ∧ t = { s with regs := { s.regs with vals := t.regs.vals } } ∧
      t.reg Reg.HST_BUSY_WRITE = s.reg Reg.HST_BUSY_WRITE + 1) ∧
    (slot ∉ s.host.visible → w = 0 → ∃ t, exec (.sealWrite slot body w) s = .next t ∧ t = { s with host := { s.host with slots := t.host.slots } } ∧
      t.slotBytes slot = fullBody body ++ zeros 4) ∧
    (s.host.visible = [] → w ≠ 0 → s.sageUp = false → ∃ t, exec (.sealWrite slot body w) s = .next t ∧
      t = { s with host := { s.host with slots := t.host.slots, visible := [slot] } } ∧ t.slotBytes slot = fullBody body ++ leBytes 4 w.toNat) ∧
    (s.host.visible = [] → w ≠ 0 → s.sageUp = true → s.regsSorted → sealOk (fullBody body ++ leBytes 4 w.toNat) = false →
      ∃ t, exec (.sealWrite slot body w) s = .next t ∧ t.reg Reg.HST_SEAL_ERR = s.reg Reg.HST_SEAL_ERR + 1 ∧ t.host.visible = [] ∧
        t.host.st = s.host.st ∧ t.mem = s.mem ∧ t.arrays = s.arrays ∧ t.ring = s.ring) ∧
    (s.host.visible = [] → w ≠ 0 → s.takes (packetHdr (fullBody body ++ leBytes 4 w.toNat)) → sealOk (fullBody body ++ leBytes 4 w.toNat) = true →
      headOk (fullBody body ++ leBytes 4 w.toNat) = true → fld (fullBody body ++ leBytes 4 w.toNat) 0 2 = 0x01 →
      paramsOk (fullBody body ++ leBytes 4 w.toNat) (packetLen (fullBody body ++ leBytes 4 w.toNat)) [] = true →
      ∃ t, exec (.sealWrite slot body w) s = .next t ∧
        s.answered t (packetHdr (fullBody body ++ leBytes 4 w.toNat)) 0x01 0 0 0 s.identity ∧ t.host.visible = [] ∧ t.mem = s.mem ∧ t.arrays = s.arrays))

/-- R351, R442, R443: with recovery enabled and reachable, a stopped job whose incident is an overflow, a time-out or a hold limit is rolled back, within the limit per step, to the lowest step the members report, once nothing is in flight: journal bytes and entry records of that step are restored and it runs again at the latest ready tick and the margin. With a member that takes no part, past the limit, for any other class that R442 does not name, or without a complete generation, it is left to the host; with no incident nothing happens (automatic recovery: DEDUCED, log 63; what other domains report and how many FREE entries it needs: DESIGN CHOICE, log 46). Completes: autoRecovery. -/
def Obligations.AutomaticRecovery : Prop :=
  ∀ (steps ready : List Nat) (e : Merge) (g : JGen) (step tick : Nat) (s : State),
    step = steps.foldl min s.stp.step → tick = ready.foldl max (max s.mir.readyTick s.tick) + s.regN Reg.FLT_AUTO_CTRL / 65536 →
    (s.host.faultMode ≠ 1 ∨ s.host.st ≠ .stopped ∨ s.incident = none → exec (.autoRecovery steps ready true) s = .next s) ∧
    (s.host.faultMode = 1 → s.host.st = .stopped → s.mir.fenced = false → s.busy = false → s.host.fwPending = none → s.incident = some e →
      (e.cls ∈ [0x12, 0x30, 0x31, 0x60] → s.regs.crcBad = false → s.host.noSpare = false → s.host.reload = false →
        (s.coordinates e.subject = false ∨ s.noService = false) → s.gen? step = some g →
        kvGet 0 s.flt.autoCounts step < s.regN Reg.FLT_AUTO_CTRL % 256 →
        (s.nothingInFlight = false → ∃ t, exec (.autoRecovery steps ready true) s = .next t ∧ t.flt.unacked = false ∧
          t.host.restart = some ⟨none, true, s.mir.degraded, step, tick⟩ ∧ t.host.st = .stopped ∧ t.mem = s.mem ∧ t.arrays = s.arrays ∧
          kvGet 0 t.flt.autoCounts step = kvGet 0 s.flt.autoCounts step + 1) ∧
        (s.nothingInFlight = true → ∃ t, exec (.autoRecovery steps ready true) s = .next t ∧ t.flt.unacked = false ∧
          s.rolledBack t g step tick s.mir.degraded ∧ (s.journalWhole → Memory.wf s.mem → s.memoryBack t step) ∧
          kvGet 0 t.flt.autoCounts step = kvGet 0 s.flt.autoCounts step + 1 ∧ t.thy.tick = s.thy.tick)) ∧
      (∀ all, all = false ∨ e.cls ∉ [0x12, 0x30, 0x31, 0x60, 0x50, 0x51, 0x52, 0x71, 0x80] ∨
          (e.cls ∈ [0x12, 0x30, 0x31, 0x60] ∧ s.regN Reg.FLT_AUTO_CTRL % 256 ≤ kvGet 0 s.flt.autoCounts step) →
        ∃ t, exec (.autoRecovery steps ready all) s = .next t ∧ t.host = s.host ∧ (∀ m ∈ t.ring.merges, m.acted = false) ∧
          t.flt.unacked = s.flt.unacked ∧ t.mem = s.mem ∧ t.arrays = s.arrays) ∧
      (s.gen? step = none → e.cls ∈ [0x12, 0x30, 0x31, 0x60] → ∃ t, exec (.autoRecovery steps ready true) s = .next t ∧ t.host = s.host ∧
        (∀ m ∈ t.ring.merges, m.acted = false) ∧ t.mem = s.mem ∧ t.arrays = s.arrays))
end

