-- ==== Sys2Proof/Laws/State.lean ====
section
/-! SUPPORT. What the basic updates of the state leave alone: one lemma per update and field, so that no proof unfolds a record update. -/

namespace Sys2Proof.Machine

/-! `setReg` -/

@[simp] theorem State.setReg_dev (s : State) (off : Nat) (v : W32) : (s.setReg off v).dev = s.dev := rfl
@[simp] theorem State.setReg_mem (s : State) (off : Nat) (v : W32) : (s.setReg off v).mem = s.mem := rfl
@[simp] theorem State.setReg_hostMem (s : State) (off : Nat) (v : W32) : (s.setReg off v).hostMem = s.hostMem := rfl
@[simp] theorem State.setReg_thy (s : State) (off : Nat) (v : W32) : (s.setReg off v).thy = s.thy := rfl
@[simp] theorem State.setReg_stp (s : State) (off : Nat) (v : W32) : (s.setReg off v).stp = s.stp := rfl
@[simp] theorem State.setReg_arrays (s : State) (off : Nat) (v : W32) : (s.setReg off v).arrays = s.arrays := rfl
@[simp] theorem State.setReg_mask (s : State) (off : Nat) (v : W32) : (s.setReg off v).mask = s.mask := rfl
@[simp] theorem State.setReg_tiers (s : State) (off : Nat) (v : W32) : (s.setReg off v).tiers = s.tiers := rfl
@[simp] theorem State.setReg_wct (s : State) (off : Nat) (v : W32) : (s.setReg off v).wct = s.wct := rfl
@[simp] theorem State.setReg_dillQ (s : State) (off : Nat) (v : W32) : (s.setReg off v).dillQ = s.dillQ := rfl
@[simp] theorem State.setReg_dill (s : State) (off : Nat) (v : W32) : (s.setReg off v).dill = s.dill := rfl
@[simp] theorem State.setReg_ring (s : State) (off : Nat) (v : W32) : (s.setReg off v).ring = s.ring := rfl
@[simp] theorem State.setReg_mir (s : State) (off : Nat) (v : W32) : (s.setReg off v).mir = s.mir := rfl
@[simp] theorem State.setReg_flt (s : State) (off : Nat) (v : W32) : (s.setReg off v).flt = s.flt := rfl
@[simp] theorem State.setReg_host (s : State) (off : Nat) (v : W32) : (s.setReg off v).host = s.host := rfl
@[simp] theorem State.setReg_pwr (s : State) (off : Nat) (v : W32) : (s.setReg off v).pwr = s.pwr := rfl
@[simp] theorem State.setReg_freeCtr (s : State) (off : Nat) (v : W32) : (s.setReg off v).freeCtr = s.freeCtr := rfl
@[simp] theorem State.setReg_pending (s : State) (off : Nat) (v : W32) : (s.setReg off v).pending = s.pending := rfl

/-! `setBits` -/

@[simp] theorem State.setBits_dev (s : State) (off m : Nat) : (s.setBits off m).dev = s.dev := rfl
@[simp] theorem State.setBits_mem (s : State) (off m : Nat) : (s.setBits off m).mem = s.mem := rfl
@[simp] theorem State.setBits_hostMem (s : State) (off m : Nat) : (s.setBits off m).hostMem = s.hostMem := rfl
@[simp] theorem State.setBits_thy (s : State) (off m : Nat) : (s.setBits off m).thy = s.thy := rfl
@[simp] theorem State.setBits_stp (s : State) (off m : Nat) : (s.setBits off m).stp = s.stp := rfl
@[simp] theorem State.setBits_arrays (s : State) (off m : Nat) : (s.setBits off m).arrays = s.arrays := rfl
@[simp] theorem State.setBits_mask (s : State) (off m : Nat) : (s.setBits off m).mask = s.mask := rfl
@[simp] theorem State.setBits_tiers (s : State) (off m : Nat) : (s.setBits off m).tiers = s.tiers := rfl
@[simp] theorem State.setBits_wct (s : State) (off m : Nat) : (s.setBits off m).wct = s.wct := rfl
@[simp] theorem State.setBits_dillQ (s : State) (off m : Nat) : (s.setBits off m).dillQ = s.dillQ := rfl
@[simp] theorem State.setBits_dill (s : State) (off m : Nat) : (s.setBits off m).dill = s.dill := rfl
@[simp] theorem State.setBits_ring (s : State) (off m : Nat) : (s.setBits off m).ring = s.ring := rfl
@[simp] theorem State.setBits_mir (s : State) (off m : Nat) : (s.setBits off m).mir = s.mir := rfl
@[simp] theorem State.setBits_flt (s : State) (off m : Nat) : (s.setBits off m).flt = s.flt := rfl
@[simp] theorem State.setBits_host (s : State) (off m : Nat) : (s.setBits off m).host = s.host := rfl
@[simp] theorem State.setBits_pwr (s : State) (off m : Nat) : (s.setBits off m).pwr = s.pwr := rfl
@[simp] theorem State.setBits_freeCtr (s : State) (off m : Nat) : (s.setBits off m).freeCtr = s.freeCtr := rfl
@[simp] theorem State.setBits_pending (s : State) (off m : Nat) : (s.setBits off m).pending = s.pending := rfl

/-! `setRw` -/

@[simp] theorem State.setRw_dev (s : State) (off : Nat) (v : W32) : (s.setRw off v).dev = s.dev := rfl
@[simp] theorem State.setRw_mem (s : State) (off : Nat) (v : W32) : (s.setRw off v).mem = s.mem := rfl
@[simp] theorem State.setRw_hostMem (s : State) (off : Nat) (v : W32) : (s.setRw off v).hostMem = s.hostMem := rfl
@[simp] theorem State.setRw_thy (s : State) (off : Nat) (v : W32) : (s.setRw off v).thy = s.thy := rfl
@[simp] theorem State.setRw_stp (s : State) (off : Nat) (v : W32) : (s.setRw off v).stp = s.stp := rfl
@[simp] theorem State.setRw_arrays (s : State) (off : Nat) (v : W32) : (s.setRw off v).arrays = s.arrays := rfl
@[simp] theorem State.setRw_mask (s : State) (off : Nat) (v : W32) : (s.setRw off v).mask = s.mask := rfl
@[simp] theorem State.setRw_tiers (s : State) (off : Nat) (v : W32) : (s.setRw off v).tiers = s.tiers := rfl
@[simp] theorem State.setRw_wct (s : State) (off : Nat) (v : W32) : (s.setRw off v).wct = s.wct := rfl
@[simp] theorem State.setRw_dillQ (s : State) (off : Nat) (v : W32) : (s.setRw off v).dillQ = s.dillQ := rfl
@[simp] theorem State.setRw_dill (s : State) (off : Nat) (v : W32) : (s.setRw off v).dill = s.dill := rfl
@[simp] theorem State.setRw_ring (s : State) (off : Nat) (v : W32) : (s.setRw off v).ring = s.ring := rfl
@[simp] theorem State.setRw_mir (s : State) (off : Nat) (v : W32) : (s.setRw off v).mir = s.mir := rfl
@[simp] theorem State.setRw_flt (s : State) (off : Nat) (v : W32) : (s.setRw off v).flt = s.flt := rfl
@[simp] theorem State.setRw_host (s : State) (off : Nat) (v : W32) : (s.setRw off v).host = s.host := rfl
@[simp] theorem State.setRw_pwr (s : State) (off : Nat) (v : W32) : (s.setRw off v).pwr = s.pwr := rfl
@[simp] theorem State.setRw_freeCtr (s : State) (off : Nat) (v : W32) : (s.setRw off v).freeCtr = s.freeCtr := rfl
@[simp] theorem State.setRw_pending (s : State) (off : Nat) (v : W32) : (s.setRw off v).pending = s.pending := rfl

/-! `setReg64` -/

@[simp] theorem State.setReg64_dev (s : State) (off v : Nat) : (s.setReg64 off v).dev = s.dev := rfl
@[simp] theorem State.setReg64_mem (s : State) (off v : Nat) : (s.setReg64 off v).mem = s.mem := rfl
@[simp] theorem State.setReg64_hostMem (s : State) (off v : Nat) : (s.setReg64 off v).hostMem = s.hostMem := rfl
@[simp] theorem State.setReg64_thy (s : State) (off v : Nat) : (s.setReg64 off v).thy = s.thy := rfl
@[simp] theorem State.setReg64_stp (s : State) (off v : Nat) : (s.setReg64 off v).stp = s.stp := rfl
@[simp] theorem State.setReg64_arrays (s : State) (off v : Nat) : (s.setReg64 off v).arrays = s.arrays := rfl
@[simp] theorem State.setReg64_mask (s : State) (off v : Nat) : (s.setReg64 off v).mask = s.mask := rfl
@[simp] theorem State.setReg64_tiers (s : State) (off v : Nat) : (s.setReg64 off v).tiers = s.tiers := rfl
@[simp] theorem State.setReg64_wct (s : State) (off v : Nat) : (s.setReg64 off v).wct = s.wct := rfl
@[simp] theorem State.setReg64_dillQ (s : State) (off v : Nat) : (s.setReg64 off v).dillQ = s.dillQ := rfl
@[simp] theorem State.setReg64_dill (s : State) (off v : Nat) : (s.setReg64 off v).dill = s.dill := rfl
@[simp] theorem State.setReg64_ring (s : State) (off v : Nat) : (s.setReg64 off v).ring = s.ring := rfl
@[simp] theorem State.setReg64_mir (s : State) (off v : Nat) : (s.setReg64 off v).mir = s.mir := rfl
@[simp] theorem State.setReg64_flt (s : State) (off v : Nat) : (s.setReg64 off v).flt = s.flt := rfl
@[simp] theorem State.setReg64_host (s : State) (off v : Nat) : (s.setReg64 off v).host = s.host := rfl
@[simp] theorem State.setReg64_pwr (s : State) (off v : Nat) : (s.setReg64 off v).pwr = s.pwr := rfl
@[simp] theorem State.setReg64_freeCtr (s : State) (off v : Nat) : (s.setReg64 off v).freeCtr = s.freeCtr := rfl
@[simp] theorem State.setReg64_pending (s : State) (off v : Nat) : (s.setReg64 off v).pending = s.pending := rfl

/-! `bump` -/

@[simp] theorem State.bump_dev (s : State) (off n : Nat) : (s.bump off n).dev = s.dev := by unfold State.bump; split <;> rfl
@[simp] theorem State.bump_mem (s : State) (off n : Nat) : (s.bump off n).mem = s.mem := by unfold State.bump; split <;> rfl
@[simp] theorem State.bump_hostMem (s : State) (off n : Nat) : (s.bump off n).hostMem = s.hostMem := by unfold State.bump; split <;> rfl
@[simp] theorem State.bump_thy (s : State) (off n : Nat) : (s.bump off n).thy = s.thy := by unfold State.bump; split <;> rfl
@[simp] theorem State.bump_stp (s : State) (off n : Nat) : (s.bump off n).stp = s.stp := by unfold State.bump; split <;> rfl
@[simp] theorem State.bump_arrays (s : State) (off n : Nat) : (s.bump off n).arrays = s.arrays := by unfold State.bump; split <;> rfl
@[simp] theorem State.bump_mask (s : State) (off n : Nat) : (s.bump off n).mask = s.mask := by unfold State.bump; split <;> rfl
@[simp] theorem State.bump_tiers (s : State) (off n : Nat) : (s.bump off n).tiers = s.tiers := by unfold State.bump; split <;> rfl
@[simp] theorem State.bump_wct (s : State) (off n : Nat) : (s.bump off n).wct = s.wct := by unfold State.bump; split <;> rfl
@[simp] theorem State.bump_dillQ (s : State) (off n : Nat) : (s.bump off n).dillQ = s.dillQ := by unfold State.bump; split <;> rfl
@[simp] theorem State.bump_dill (s : State) (off n : Nat) : (s.bump off n).dill = s.dill := by unfold State.bump; split <;> rfl
@[simp] theorem State.bump_ring (s : State) (off n : Nat) : (s.bump off n).ring = s.ring := by unfold State.bump; split <;> rfl
@[simp] theorem State.bump_mir (s : State) (off n : Nat) : (s.bump off n).mir = s.mir := by unfold State.bump; split <;> rfl
@[simp] theorem State.bump_flt (s : State) (off n : Nat) : (s.bump off n).flt = s.flt := by unfold State.bump; split <;> rfl
@[simp] theorem State.bump_host (s : State) (off n : Nat) : (s.bump off n).host = s.host := by unfold State.bump; split <;> rfl
@[simp] theorem State.bump_pwr (s : State) (off n : Nat) : (s.bump off n).pwr = s.pwr := by unfold State.bump; split <;> rfl
@[simp] theorem State.bump_freeCtr (s : State) (off n : Nat) : (s.bump off n).freeCtr = s.freeCtr := by unfold State.bump; split <;> rfl
@[simp] theorem State.bump_pending (s : State) (off n : Nat) : (s.bump off n).pending = s.pending := by unfold State.bump; split <;> rfl

/-! `bump64` -/

@[simp] theorem State.bump64_dev (s : State) (off n : Nat) : (s.bump64 off n).dev = s.dev := by unfold State.bump64; split <;> rfl
@[simp] theorem State.bump64_mem (s : State) (off n : Nat) : (s.bump64 off n).mem = s.mem := by unfold State.bump64; split <;> rfl
@[simp] theorem State.bump64_hostMem (s : State) (off n : Nat) : (s.bump64 off n).hostMem = s.hostMem := by unfold State.bump64; split <;> rfl
@[simp] theorem State.bump64_thy (s : State) (off n : Nat) : (s.bump64 off n).thy = s.thy := by unfold State.bump64; split <;> rfl
@[simp] theorem State.bump64_stp (s : State) (off n : Nat) : (s.bump64 off n).stp = s.stp := by unfold State.bump64; split <;> rfl
@[simp] theorem State.bump64_arrays (s : State) (off n : Nat) : (s.bump64 off n).arrays = s.arrays := by unfold State.bump64; split <;> rfl
@[simp] theorem State.bump64_mask (s : State) (off n : Nat) : (s.bump64 off n).mask = s.mask := by unfold State.bump64; split <;> rfl
@[simp] theorem State.bump64_tiers (s : State) (off n : Nat) : (s.bump64 off n).tiers = s.tiers := by unfold State.bump64; split <;> rfl
@[simp] theorem State.bump64_wct (s : State) (off n : Nat) : (s.bump64 off n).wct = s.wct := by unfold State.bump64; split <;> rfl
@[simp] theorem State.bump64_dillQ (s : State) (off n : Nat) : (s.bump64 off n).dillQ = s.dillQ := by unfold State.bump64; split <;> rfl
@[simp] theorem State.bump64_dill (s : State) (off n : Nat) : (s.bump64 off n).dill = s.dill := by unfold State.bump64; split <;> rfl
@[simp] theorem State.bump64_ring (s : State) (off n : Nat) : (s.bump64 off n).ring = s.ring := by unfold State.bump64; split <;> rfl
@[simp] theorem State.bump64_mir (s : State) (off n : Nat) : (s.bump64 off n).mir = s.mir := by unfold State.bump64; split <;> rfl
@[simp] theorem State.bump64_flt (s : State) (off n : Nat) : (s.bump64 off n).flt = s.flt := by unfold State.bump64; split <;> rfl
@[simp] theorem State.bump64_host (s : State) (off n : Nat) : (s.bump64 off n).host = s.host := by unfold State.bump64; split <;> rfl
@[simp] theorem State.bump64_pwr (s : State) (off n : Nat) : (s.bump64 off n).pwr = s.pwr := by unfold State.bump64; split <;> rfl
@[simp] theorem State.bump64_freeCtr (s : State) (off n : Nat) : (s.bump64 off n).freeCtr = s.freeCtr := by unfold State.bump64; split <;> rfl
@[simp] theorem State.bump64_pending (s : State) (off n : Nat) : (s.bump64 off n).pending = s.pending := by unfold State.bump64; split <;> rfl

/-! `bumpArr` -/

@[simp] theorem State.bumpArr_dev (s : State) (n r k : Nat) : (s.bumpArr n r k).dev = s.dev := by simp [State.bumpArr]
@[simp] theorem State.bumpArr_mem (s : State) (n r k : Nat) : (s.bumpArr n r k).mem = s.mem := by simp [State.bumpArr]
@[simp] theorem State.bumpArr_hostMem (s : State) (n r k : Nat) : (s.bumpArr n r k).hostMem = s.hostMem := by simp [State.bumpArr]
@[simp] theorem State.bumpArr_thy (s : State) (n r k : Nat) : (s.bumpArr n r k).thy = s.thy := by simp [State.bumpArr]
@[simp] theorem State.bumpArr_stp (s : State) (n r k : Nat) : (s.bumpArr n r k).stp = s.stp := by simp [State.bumpArr]
@[simp] theorem State.bumpArr_arrays (s : State) (n r k : Nat) : (s.bumpArr n r k).arrays = s.arrays := by simp [State.bumpArr]
@[simp] theorem State.bumpArr_mask (s : State) (n r k : Nat) : (s.bumpArr n r k).mask = s.mask := by simp [State.bumpArr]
@[simp] theorem State.bumpArr_tiers (s : State) (n r k : Nat) : (s.bumpArr n r k).tiers = s.tiers := by simp [State.bumpArr]
@[simp] theorem State.bumpArr_wct (s : State) (n r k : Nat) : (s.bumpArr n r k).wct = s.wct := by simp [State.bumpArr]
@[simp] theorem State.bumpArr_dillQ (s : State) (n r k : Nat) : (s.bumpArr n r k).dillQ = s.dillQ := by simp [State.bumpArr]
@[simp] theorem State.bumpArr_dill (s : State) (n r k : Nat) : (s.bumpArr n r k).dill = s.dill := by simp [State.bumpArr]
@[simp] theorem State.bumpArr_ring (s : State) (n r k : Nat) : (s.bumpArr n r k).ring = s.ring := by simp [State.bumpArr]
@[simp] theorem State.bumpArr_mir (s : State) (n r k : Nat) : (s.bumpArr n r k).mir = s.mir := by simp [State.bumpArr]
@[simp] theorem State.bumpArr_flt (s : State) (n r k : Nat) : (s.bumpArr n r k).flt = s.flt := by simp [State.bumpArr]
@[simp] theorem State.bumpArr_host (s : State) (n r k : Nat) : (s.bumpArr n r k).host = s.host := by simp [State.bumpArr]
@[simp] theorem State.bumpArr_pwr (s : State) (n r k : Nat) : (s.bumpArr n r k).pwr = s.pwr := by simp [State.bumpArr]
@[simp] theorem State.bumpArr_freeCtr (s : State) (n r k : Nat) : (s.bumpArr n r k).freeCtr = s.freeCtr := by simp [State.bumpArr]
@[simp] theorem State.bumpArr_pending (s : State) (n r k : Nat) : (s.bumpArr n r k).pending = s.pending := by simp [State.bumpArr]

/-! `bumpArr64` -/

@[simp] theorem State.bumpArr64_dev (s : State) (n r k : Nat) : (s.bumpArr64 n r k).dev = s.dev := by simp [State.bumpArr64]
@[simp] theorem State.bumpArr64_mem (s : State) (n r k : Nat) : (s.bumpArr64 n r k).mem = s.mem := by simp [State.bumpArr64]
@[simp] theorem State.bumpArr64_hostMem (s : State) (n r k : Nat) : (s.bumpArr64 n r k).hostMem = s.hostMem := by simp [State.bumpArr64]
@[simp] theorem State.bumpArr64_thy (s : State) (n r k : Nat) : (s.bumpArr64 n r k).thy = s.thy := by simp [State.bumpArr64]
@[simp] theorem State.bumpArr64_stp (s : State) (n r k : Nat) : (s.bumpArr64 n r k).stp = s.stp := by simp [State.bumpArr64]
@[simp] theorem State.bumpArr64_arrays (s : State) (n r k : Nat) : (s.bumpArr64 n r k).arrays = s.arrays := by simp [State.bumpArr64]
@[simp] theorem State.bumpArr64_mask (s : State) (n r k : Nat) : (s.bumpArr64 n r k).mask = s.mask := by simp [State.bumpArr64]
@[simp] theorem State.bumpArr64_tiers (s : State) (n r k : Nat) : (s.bumpArr64 n r k).tiers = s.tiers := by simp [State.bumpArr64]
@[simp] theorem State.bumpArr64_wct (s : State) (n r k : Nat) : (s.bumpArr64 n r k).wct = s.wct := by simp [State.bumpArr64]
@[simp] theorem State.bumpArr64_dillQ (s : State) (n r k : Nat) : (s.bumpArr64 n r k).dillQ = s.dillQ := by simp [State.bumpArr64]
@[simp] theorem State.bumpArr64_dill (s : State) (n r k : Nat) : (s.bumpArr64 n r k).dill = s.dill := by simp [State.bumpArr64]
@[simp] theorem State.bumpArr64_ring (s : State) (n r k : Nat) : (s.bumpArr64 n r k).ring = s.ring := by simp [State.bumpArr64]
@[simp] theorem State.bumpArr64_mir (s : State) (n r k : Nat) : (s.bumpArr64 n r k).mir = s.mir := by simp [State.bumpArr64]
@[simp] theorem State.bumpArr64_flt (s : State) (n r k : Nat) : (s.bumpArr64 n r k).flt = s.flt := by simp [State.bumpArr64]
@[simp] theorem State.bumpArr64_host (s : State) (n r k : Nat) : (s.bumpArr64 n r k).host = s.host := by simp [State.bumpArr64]
@[simp] theorem State.bumpArr64_pwr (s : State) (n r k : Nat) : (s.bumpArr64 n r k).pwr = s.pwr := by simp [State.bumpArr64]
@[simp] theorem State.bumpArr64_freeCtr (s : State) (n r k : Nat) : (s.bumpArr64 n r k).freeCtr = s.freeCtr := by simp [State.bumpArr64]
@[simp] theorem State.bumpArr64_pending (s : State) (n r k : Nat) : (s.bumpArr64 n r k).pending = s.pending := by simp [State.bumpArr64]

/-! `setArrBits` -/

@[simp] theorem State.setArrBits_dev (s : State) (n r m : Nat) : (s.setArrBits n r m).dev = s.dev := rfl
@[simp] theorem State.setArrBits_mem (s : State) (n r m : Nat) : (s.setArrBits n r m).mem = s.mem := rfl
@[simp] theorem State.setArrBits_hostMem (s : State) (n r m : Nat) : (s.setArrBits n r m).hostMem = s.hostMem := rfl
@[simp] theorem State.setArrBits_thy (s : State) (n r m : Nat) : (s.setArrBits n r m).thy = s.thy := rfl
@[simp] theorem State.setArrBits_stp (s : State) (n r m : Nat) : (s.setArrBits n r m).stp = s.stp := rfl
@[simp] theorem State.setArrBits_arrays (s : State) (n r m : Nat) : (s.setArrBits n r m).arrays = s.arrays := rfl
@[simp] theorem State.setArrBits_mask (s : State) (n r m : Nat) : (s.setArrBits n r m).mask = s.mask := rfl
@[simp] theorem State.setArrBits_tiers (s : State) (n r m : Nat) : (s.setArrBits n r m).tiers = s.tiers := rfl
@[simp] theorem State.setArrBits_wct (s : State) (n r m : Nat) : (s.setArrBits n r m).wct = s.wct := rfl
@[simp] theorem State.setArrBits_dillQ (s : State) (n r m : Nat) : (s.setArrBits n r m).dillQ = s.dillQ := rfl
@[simp] theorem State.setArrBits_dill (s : State) (n r m : Nat) : (s.setArrBits n r m).dill = s.dill := rfl
@[simp] theorem State.setArrBits_ring (s : State) (n r m : Nat) : (s.setArrBits n r m).ring = s.ring := rfl
@[simp] theorem State.setArrBits_mir (s : State) (n r m : Nat) : (s.setArrBits n r m).mir = s.mir := rfl
@[simp] theorem State.setArrBits_flt (s : State) (n r m : Nat) : (s.setArrBits n r m).flt = s.flt := rfl
@[simp] theorem State.setArrBits_host (s : State) (n r m : Nat) : (s.setArrBits n r m).host = s.host := rfl
@[simp] theorem State.setArrBits_pwr (s : State) (n r m : Nat) : (s.setArrBits n r m).pwr = s.pwr := rfl
@[simp] theorem State.setArrBits_freeCtr (s : State) (n r m : Nat) : (s.setArrBits n r m).freeCtr = s.freeCtr := rfl
@[simp] theorem State.setArrBits_pending (s : State) (n r m : Nat) : (s.setArrBits n r m).pending = s.pending := rfl

/-! `used` -/

@[simp] theorem State.used_dev (s : State) (n : Nat) : (s.used n).dev = s.dev := rfl
@[simp] theorem State.used_mem (s : State) (n : Nat) : (s.used n).mem = s.mem := rfl
@[simp] theorem State.used_hostMem (s : State) (n : Nat) : (s.used n).hostMem = s.hostMem := rfl
@[simp] theorem State.used_thy (s : State) (n : Nat) : (s.used n).thy = s.thy := rfl
@[simp] theorem State.used_stp (s : State) (n : Nat) : (s.used n).stp = s.stp := rfl
@[simp] theorem State.used_arrays (s : State) (n : Nat) : (s.used n).arrays = s.arrays := rfl
@[simp] theorem State.used_mask (s : State) (n : Nat) : (s.used n).mask = s.mask := rfl
@[simp] theorem State.used_tiers (s : State) (n : Nat) : (s.used n).tiers = s.tiers := rfl
@[simp] theorem State.used_wct (s : State) (n : Nat) : (s.used n).wct = s.wct := rfl
@[simp] theorem State.used_dillQ (s : State) (n : Nat) : (s.used n).dillQ = s.dillQ := rfl
@[simp] theorem State.used_dill (s : State) (n : Nat) : (s.used n).dill = s.dill := rfl
@[simp] theorem State.used_ring (s : State) (n : Nat) : (s.used n).ring = s.ring := rfl
@[simp] theorem State.used_mir (s : State) (n : Nat) : (s.used n).mir = s.mir := rfl
@[simp] theorem State.used_flt (s : State) (n : Nat) : (s.used n).flt = s.flt := rfl
@[simp] theorem State.used_regs (s : State) (n : Nat) : (s.used n).regs = s.regs := rfl
@[simp] theorem State.used_host (s : State) (n : Nat) : (s.used n).host = s.host := rfl
@[simp] theorem State.used_pwr (s : State) (n : Nat) : (s.used n).pwr = s.pwr := rfl
@[simp] theorem State.used_pending (s : State) (n : Nat) : (s.used n).pending = s.pending := rfl

/-! `modArr` -/

@[simp] theorem State.modArr_dev (s : State) (n : Nat) (g : ArrayState → ArrayState) : (s.modArr n g).dev = s.dev := rfl
@[simp] theorem State.modArr_mem (s : State) (n : Nat) (g : ArrayState → ArrayState) : (s.modArr n g).mem = s.mem := rfl
@[simp] theorem State.modArr_hostMem (s : State) (n : Nat) (g : ArrayState → ArrayState) : (s.modArr n g).hostMem = s.hostMem := rfl
@[simp] theorem State.modArr_thy (s : State) (n : Nat) (g : ArrayState → ArrayState) : (s.modArr n g).thy = s.thy := rfl
@[simp] theorem State.modArr_stp (s : State) (n : Nat) (g : ArrayState → ArrayState) : (s.modArr n g).stp = s.stp := rfl
@[simp] theorem State.modArr_mask (s : State) (n : Nat) (g : ArrayState → ArrayState) : (s.modArr n g).mask = s.mask := rfl
@[simp] theorem State.modArr_tiers (s : State) (n : Nat) (g : ArrayState → ArrayState) : (s.modArr n g).tiers = s.tiers := rfl
@[simp] theorem State.modArr_wct (s : State) (n : Nat) (g : ArrayState → ArrayState) : (s.modArr n g).wct = s.wct := rfl
@[simp] theorem State.modArr_dillQ (s : State) (n : Nat) (g : ArrayState → ArrayState) : (s.modArr n g).dillQ = s.dillQ := rfl
@[simp] theorem State.modArr_dill (s : State) (n : Nat) (g : ArrayState → ArrayState) : (s.modArr n g).dill = s.dill := rfl
@[simp] theorem State.modArr_ring (s : State) (n : Nat) (g : ArrayState → ArrayState) : (s.modArr n g).ring = s.ring := rfl
@[simp] theorem State.modArr_mir (s : State) (n : Nat) (g : ArrayState → ArrayState) : (s.modArr n g).mir = s.mir := rfl
@[simp] theorem State.modArr_flt (s : State) (n : Nat) (g : ArrayState → ArrayState) : (s.modArr n g).flt = s.flt := rfl
@[simp] theorem State.modArr_regs (s : State) (n : Nat) (g : ArrayState → ArrayState) : (s.modArr n g).regs = s.regs := rfl
@[simp] theorem State.modArr_host (s : State) (n : Nat) (g : ArrayState → ArrayState) : (s.modArr n g).host = s.host := rfl
@[simp] theorem State.modArr_pwr (s : State) (n : Nat) (g : ArrayState → ArrayState) : (s.modArr n g).pwr = s.pwr := rfl
@[simp] theorem State.modArr_freeCtr (s : State) (n : Nat) (g : ArrayState → ArrayState) : (s.modArr n g).freeCtr = s.freeCtr := rfl
@[simp] theorem State.modArr_pending (s : State) (n : Nat) (g : ArrayState → ArrayState) : (s.modArr n g).pending = s.pending := rfl

/-! `modCtx` -/

@[simp] theorem State.modCtx_dev (s : State) (n : Nat) (st : Stream) (g : StreamCtx → StreamCtx) : (s.modCtx n st g).dev = s.dev := rfl
@[simp] theorem State.modCtx_mem (s : State) (n : Nat) (st : Stream) (g : StreamCtx → StreamCtx) : (s.modCtx n st g).mem = s.mem := rfl
@[simp] theorem State.modCtx_hostMem (s : State) (n : Nat) (st : Stream) (g : StreamCtx → StreamCtx) : (s.modCtx n st g).hostMem = s.hostMem := rfl
@[simp] theorem State.modCtx_thy (s : State) (n : Nat) (st : Stream) (g : StreamCtx → StreamCtx) : (s.modCtx n st g).thy = s.thy := rfl
@[simp] theorem State.modCtx_stp (s : State) (n : Nat) (st : Stream) (g : StreamCtx → StreamCtx) : (s.modCtx n st g).stp = s.stp := rfl
@[simp] theorem State.modCtx_mask (s : State) (n : Nat) (st : Stream) (g : StreamCtx → StreamCtx) : (s.modCtx n st g).mask = s.mask := rfl
@[simp] theorem State.modCtx_tiers (s : State) (n : Nat) (st : Stream) (g : StreamCtx → StreamCtx) : (s.modCtx n st g).tiers = s.tiers := rfl
@[simp] theorem State.modCtx_wct (s : State) (n : Nat) (st : Stream) (g : StreamCtx → StreamCtx) : (s.modCtx n st g).wct = s.wct := rfl
@[simp] theorem State.modCtx_dillQ (s : State) (n : Nat) (st : Stream) (g : StreamCtx → StreamCtx) : (s.modCtx n st g).dillQ = s.dillQ := rfl
@[simp] theorem State.modCtx_dill (s : State) (n : Nat) (st : Stream) (g : StreamCtx → StreamCtx) : (s.modCtx n st g).dill = s.dill := rfl
@[simp] theorem State.modCtx_ring (s : State) (n : Nat) (st : Stream) (g : StreamCtx → StreamCtx) : (s.modCtx n st g).ring = s.ring := rfl
@[simp] theorem State.modCtx_mir (s : State) (n : Nat) (st : Stream) (g : StreamCtx → StreamCtx) : (s.modCtx n st g).mir = s.mir := rfl
@[simp] theorem State.modCtx_flt (s : State) (n : Nat) (st : Stream) (g : StreamCtx → StreamCtx) : (s.modCtx n st g).flt = s.flt := rfl
@[simp] theorem State.modCtx_regs (s : State) (n : Nat) (st : Stream) (g : StreamCtx → StreamCtx) : (s.modCtx n st g).regs = s.regs := rfl
@[simp] theorem State.modCtx_host (s : State) (n : Nat) (st : Stream) (g : StreamCtx → StreamCtx) : (s.modCtx n st g).host = s.host := rfl
@[simp] theorem State.modCtx_pwr (s : State) (n : Nat) (st : Stream) (g : StreamCtx → StreamCtx) : (s.modCtx n st g).pwr = s.pwr := rfl
@[simp] theorem State.modCtx_freeCtr (s : State) (n : Nat) (st : Stream) (g : StreamCtx → StreamCtx) : (s.modCtx n st g).freeCtr = s.freeCtr := rfl
@[simp] theorem State.modCtx_pending (s : State) (n : Nat) (st : Stream) (g : StreamCtx → StreamCtx) : (s.modCtx n st g).pending = s.pending := rfl

/-! `addOp` -/

@[simp] theorem State.addOp_dev (s : State) (n : Nat) (o : Op) : (s.addOp n o).dev = s.dev := rfl
@[simp] theorem State.addOp_mem (s : State) (n : Nat) (o : Op) : (s.addOp n o).mem = s.mem := rfl
@[simp] theorem State.addOp_hostMem (s : State) (n : Nat) (o : Op) : (s.addOp n o).hostMem = s.hostMem := rfl
@[simp] theorem State.addOp_thy (s : State) (n : Nat) (o : Op) : (s.addOp n o).thy = s.thy := rfl
@[simp] theorem State.addOp_stp (s : State) (n : Nat) (o : Op) : (s.addOp n o).stp = s.stp := rfl
@[simp] theorem State.addOp_mask (s : State) (n : Nat) (o : Op) : (s.addOp n o).mask = s.mask := rfl
@[simp] theorem State.addOp_tiers (s : State) (n : Nat) (o : Op) : (s.addOp n o).tiers = s.tiers := rfl
@[simp] theorem State.addOp_wct (s : State) (n : Nat) (o : Op) : (s.addOp n o).wct = s.wct := rfl
@[simp] theorem State.addOp_dillQ (s : State) (n : Nat) (o : Op) : (s.addOp n o).dillQ = s.dillQ := rfl
@[simp] theorem State.addOp_dill (s : State) (n : Nat) (o : Op) : (s.addOp n o).dill = s.dill := rfl
@[simp] theorem State.addOp_ring (s : State) (n : Nat) (o : Op) : (s.addOp n o).ring = s.ring := rfl
@[simp] theorem State.addOp_mir (s : State) (n : Nat) (o : Op) : (s.addOp n o).mir = s.mir := rfl
@[simp] theorem State.addOp_flt (s : State) (n : Nat) (o : Op) : (s.addOp n o).flt = s.flt := rfl
@[simp] theorem State.addOp_regs (s : State) (n : Nat) (o : Op) : (s.addOp n o).regs = s.regs := rfl
@[simp] theorem State.addOp_host (s : State) (n : Nat) (o : Op) : (s.addOp n o).host = s.host := rfl
@[simp] theorem State.addOp_pwr (s : State) (n : Nat) (o : Op) : (s.addOp n o).pwr = s.pwr := rfl
@[simp] theorem State.addOp_freeCtr (s : State) (n : Nat) (o : Op) : (s.addOp n o).freeCtr = s.freeCtr := rfl
@[simp] theorem State.addOp_pending (s : State) (n : Nat) (o : Op) : (s.addOp n o).pending = s.pending := rfl

/-! `setOp` -/

@[simp] theorem State.setOp_dev (s : State) (n : Nat) (o : Op) : (s.setOp n o).dev = s.dev := rfl
@[simp] theorem State.setOp_mem (s : State) (n : Nat) (o : Op) : (s.setOp n o).mem = s.mem := rfl
@[simp] theorem State.setOp_hostMem (s : State) (n : Nat) (o : Op) : (s.setOp n o).hostMem = s.hostMem := rfl
@[simp] theorem State.setOp_thy (s : State) (n : Nat) (o : Op) : (s.setOp n o).thy = s.thy := rfl
@[simp] theorem State.setOp_stp (s : State) (n : Nat) (o : Op) : (s.setOp n o).stp = s.stp := rfl
@[simp] theorem State.setOp_mask (s : State) (n : Nat) (o : Op) : (s.setOp n o).mask = s.mask := rfl
@[simp] theorem State.setOp_tiers (s : State) (n : Nat) (o : Op) : (s.setOp n o).tiers = s.tiers := rfl
@[simp] theorem State.setOp_wct (s : State) (n : Nat) (o : Op) : (s.setOp n o).wct = s.wct := rfl
@[simp] theorem State.setOp_dillQ (s : State) (n : Nat) (o : Op) : (s.setOp n o).dillQ = s.dillQ := rfl
@[simp] theorem State.setOp_dill (s : State) (n : Nat) (o : Op) : (s.setOp n o).dill = s.dill := rfl
@[simp] theorem State.setOp_ring (s : State) (n : Nat) (o : Op) : (s.setOp n o).ring = s.ring := rfl
@[simp] theorem State.setOp_mir (s : State) (n : Nat) (o : Op) : (s.setOp n o).mir = s.mir := rfl
@[simp] theorem State.setOp_flt (s : State) (n : Nat) (o : Op) : (s.setOp n o).flt = s.flt := rfl
@[simp] theorem State.setOp_regs (s : State) (n : Nat) (o : Op) : (s.setOp n o).regs = s.regs := rfl
@[simp] theorem State.setOp_host (s : State) (n : Nat) (o : Op) : (s.setOp n o).host = s.host := rfl
@[simp] theorem State.setOp_pwr (s : State) (n : Nat) (o : Op) : (s.setOp n o).pwr = s.pwr := rfl
@[simp] theorem State.setOp_freeCtr (s : State) (n : Nat) (o : Op) : (s.setOp n o).freeCtr = s.freeCtr := rfl
@[simp] theorem State.setOp_pending (s : State) (n : Nat) (o : Op) : (s.setOp n o).pending = s.pending := rfl

/-! `dropOp` -/

@[simp] theorem State.dropOp_dev (s : State) (n slot : Nat) : (s.dropOp n slot).dev = s.dev := rfl
@[simp] theorem State.dropOp_mem (s : State) (n slot : Nat) : (s.dropOp n slot).mem = s.mem := rfl
@[simp] theorem State.dropOp_hostMem (s : State) (n slot : Nat) : (s.dropOp n slot).hostMem = s.hostMem := rfl
@[simp] theorem State.dropOp_thy (s : State) (n slot : Nat) : (s.dropOp n slot).thy = s.thy := rfl
@[simp] theorem State.dropOp_stp (s : State) (n slot : Nat) : (s.dropOp n slot).stp = s.stp := rfl
@[simp] theorem State.dropOp_mask (s : State) (n slot : Nat) : (s.dropOp n slot).mask = s.mask := rfl
@[simp] theorem State.dropOp_tiers (s : State) (n slot : Nat) : (s.dropOp n slot).tiers = s.tiers := rfl
@[simp] theorem State.dropOp_wct (s : State) (n slot : Nat) : (s.dropOp n slot).wct = s.wct := rfl
@[simp] theorem State.dropOp_dillQ (s : State) (n slot : Nat) : (s.dropOp n slot).dillQ = s.dillQ := rfl
@[simp] theorem State.dropOp_dill (s : State) (n slot : Nat) : (s.dropOp n slot).dill = s.dill := rfl
@[simp] theorem State.dropOp_ring (s : State) (n slot : Nat) : (s.dropOp n slot).ring = s.ring := rfl
@[simp] theorem State.dropOp_mir (s : State) (n slot : Nat) : (s.dropOp n slot).mir = s.mir := rfl
@[simp] theorem State.dropOp_flt (s : State) (n slot : Nat) : (s.dropOp n slot).flt = s.flt := rfl
@[simp] theorem State.dropOp_regs (s : State) (n slot : Nat) : (s.dropOp n slot).regs = s.regs := rfl
@[simp] theorem State.dropOp_host (s : State) (n slot : Nat) : (s.dropOp n slot).host = s.host := rfl
@[simp] theorem State.dropOp_pwr (s : State) (n slot : Nat) : (s.dropOp n slot).pwr = s.pwr := rfl
@[simp] theorem State.dropOp_freeCtr (s : State) (n slot : Nat) : (s.dropOp n slot).freeCtr = s.freeCtr := rfl
@[simp] theorem State.dropOp_pending (s : State) (n slot : Nat) : (s.dropOp n slot).pending = s.pending := rfl

/-! `modPort` -/

@[simp] theorem State.modPort_dev (s : State) (p : Nat) (g : Port → Port) : (s.modPort p g).dev = s.dev := rfl
@[simp] theorem State.modPort_mem (s : State) (p : Nat) (g : Port → Port) : (s.modPort p g).mem = s.mem := rfl
@[simp] theorem State.modPort_hostMem (s : State) (p : Nat) (g : Port → Port) : (s.modPort p g).hostMem = s.hostMem := rfl
@[simp] theorem State.modPort_thy (s : State) (p : Nat) (g : Port → Port) : (s.modPort p g).thy = s.thy := rfl
@[simp] theorem State.modPort_stp (s : State) (p : Nat) (g : Port → Port) : (s.modPort p g).stp = s.stp := rfl
@[simp] theorem State.modPort_arrays (s : State) (p : Nat) (g : Port → Port) : (s.modPort p g).arrays = s.arrays := rfl
@[simp] theorem State.modPort_mask (s : State) (p : Nat) (g : Port → Port) : (s.modPort p g).mask = s.mask := rfl
@[simp] theorem State.modPort_tiers (s : State) (p : Nat) (g : Port → Port) : (s.modPort p g).tiers = s.tiers := rfl
@[simp] theorem State.modPort_wct (s : State) (p : Nat) (g : Port → Port) : (s.modPort p g).wct = s.wct := rfl
@[simp] theorem State.modPort_dillQ (s : State) (p : Nat) (g : Port → Port) : (s.modPort p g).dillQ = s.dillQ := rfl
@[simp] theorem State.modPort_dill (s : State) (p : Nat) (g : Port → Port) : (s.modPort p g).dill = s.dill := rfl
@[simp] theorem State.modPort_mir (s : State) (p : Nat) (g : Port → Port) : (s.modPort p g).mir = s.mir := rfl
@[simp] theorem State.modPort_flt (s : State) (p : Nat) (g : Port → Port) : (s.modPort p g).flt = s.flt := rfl
@[simp] theorem State.modPort_regs (s : State) (p : Nat) (g : Port → Port) : (s.modPort p g).regs = s.regs := rfl
@[simp] theorem State.modPort_host (s : State) (p : Nat) (g : Port → Port) : (s.modPort p g).host = s.host := rfl
@[simp] theorem State.modPort_pwr (s : State) (p : Nat) (g : Port → Port) : (s.modPort p g).pwr = s.pwr := rfl
@[simp] theorem State.modPort_freeCtr (s : State) (p : Nat) (g : Port → Port) : (s.modPort p g).freeCtr = s.freeCtr := rfl
@[simp] theorem State.modPort_pending (s : State) (p : Nat) (g : Port → Port) : (s.modPort p g).pending = s.pending := rfl

/-! `sendFrame` -/

@[simp] theorem State.sendFrame_dev (s : State) (p : Nat) (f : OutFrame) : (s.sendFrame p f).dev = s.dev := rfl
@[simp] theorem State.sendFrame_mem (s : State) (p : Nat) (f : OutFrame) : (s.sendFrame p f).mem = s.mem := rfl
@[simp] theorem State.sendFrame_hostMem (s : State) (p : Nat) (f : OutFrame) : (s.sendFrame p f).hostMem = s.hostMem := rfl
@[simp] theorem State.sendFrame_thy (s : State) (p : Nat) (f : OutFrame) : (s.sendFrame p f).thy = s.thy := rfl
@[simp] theorem State.sendFrame_stp (s : State) (p : Nat) (f : OutFrame) : (s.sendFrame p f).stp = s.stp := rfl
@[simp] theorem State.sendFrame_arrays (s : State) (p : Nat) (f : OutFrame) : (s.sendFrame p f).arrays = s.arrays := rfl
@[simp] theorem State.sendFrame_mask (s : State) (p : Nat) (f : OutFrame) : (s.sendFrame p f).mask = s.mask := rfl
@[simp] theorem State.sendFrame_tiers (s : State) (p : Nat) (f : OutFrame) : (s.sendFrame p f).tiers = s.tiers := rfl
@[simp] theorem State.sendFrame_wct (s : State) (p : Nat) (f : OutFrame) : (s.sendFrame p f).wct = s.wct := rfl
@[simp] theorem State.sendFrame_dillQ (s : State) (p : Nat) (f : OutFrame) : (s.sendFrame p f).dillQ = s.dillQ := rfl
@[simp] theorem State.sendFrame_dill (s : State) (p : Nat) (f : OutFrame) : (s.sendFrame p f).dill = s.dill := rfl
@[simp] theorem State.sendFrame_mir (s : State) (p : Nat) (f : OutFrame) : (s.sendFrame p f).mir = s.mir := rfl
@[simp] theorem State.sendFrame_flt (s : State) (p : Nat) (f : OutFrame) : (s.sendFrame p f).flt = s.flt := rfl
@[simp] theorem State.sendFrame_regs (s : State) (p : Nat) (f : OutFrame) : (s.sendFrame p f).regs = s.regs := rfl
@[simp] theorem State.sendFrame_host (s : State) (p : Nat) (f : OutFrame) : (s.sendFrame p f).host = s.host := rfl
@[simp] theorem State.sendFrame_pwr (s : State) (p : Nat) (f : OutFrame) : (s.sendFrame p f).pwr = s.pwr := rfl
@[simp] theorem State.sendFrame_freeCtr (s : State) (p : Nat) (f : OutFrame) : (s.sendFrame p f).freeCtr = s.freeCtr := rfl
@[simp] theorem State.sendFrame_pending (s : State) (p : Nat) (f : OutFrame) : (s.sendFrame p f).pending = s.pending := rfl

/-! `sendTo` -/

@[simp] theorem State.sendTo_dev (s : State) (m : Bool) (d : Nat) (f : OutFrame) : (s.sendTo m d f).dev = s.dev := by cases m <;> simp only [State.sendTo, State.sendRouted, Bool.false_eq_true, if_false, if_true] <;> (try split) <;> simp
@[simp] theorem State.sendTo_mem (s : State) (m : Bool) (d : Nat) (f : OutFrame) : (s.sendTo m d f).mem = s.mem := by cases m <;> simp only [State.sendTo, State.sendRouted, Bool.false_eq_true, if_false, if_true] <;> (try split) <;> simp
@[simp] theorem State.sendTo_hostMem (s : State) (m : Bool) (d : Nat) (f : OutFrame) : (s.sendTo m d f).hostMem = s.hostMem := by cases m <;> simp only [State.sendTo, State.sendRouted, Bool.false_eq_true, if_false, if_true] <;> (try split) <;> simp
@[simp] theorem State.sendTo_thy (s : State) (m : Bool) (d : Nat) (f : OutFrame) : (s.sendTo m d f).thy = s.thy := by cases m <;> simp only [State.sendTo, State.sendRouted, Bool.false_eq_true, if_false, if_true] <;> (try split) <;> simp
@[simp] theorem State.sendTo_stp (s : State) (m : Bool) (d : Nat) (f : OutFrame) : (s.sendTo m d f).stp = s.stp := by cases m <;> simp only [State.sendTo, State.sendRouted, Bool.false_eq_true, if_false, if_true] <;> (try split) <;> simp
@[simp] theorem State.sendTo_arrays (s : State) (m : Bool) (d : Nat) (f : OutFrame) : (s.sendTo m d f).arrays = s.arrays := by cases m <;> simp only [State.sendTo, State.sendRouted, Bool.false_eq_true, if_false, if_true] <;> (try split) <;> simp
@[simp] theorem State.sendTo_mask (s : State) (m : Bool) (d : Nat) (f : OutFrame) : (s.sendTo m d f).mask = s.mask := by cases m <;> simp only [State.sendTo, State.sendRouted, Bool.false_eq_true, if_false, if_true] <;> (try split) <;> simp
@[simp] theorem State.sendTo_tiers (s : State) (m : Bool) (d : Nat) (f : OutFrame) : (s.sendTo m d f).tiers = s.tiers := by cases m <;> simp only [State.sendTo, State.sendRouted, Bool.false_eq_true, if_false, if_true] <;> (try split) <;> simp
@[simp] theorem State.sendTo_wct (s : State) (m : Bool) (d : Nat) (f : OutFrame) : (s.sendTo m d f).wct = s.wct := by cases m <;> simp only [State.sendTo, State.sendRouted, Bool.false_eq_true, if_false, if_true] <;> (try split) <;> simp
@[simp] theorem State.sendTo_dillQ (s : State) (m : Bool) (d : Nat) (f : OutFrame) : (s.sendTo m d f).dillQ = s.dillQ := by cases m <;> simp only [State.sendTo, State.sendRouted, Bool.false_eq_true, if_false, if_true] <;> (try split) <;> simp
@[simp] theorem State.sendTo_dill (s : State) (m : Bool) (d : Nat) (f : OutFrame) : (s.sendTo m d f).dill = s.dill := by cases m <;> simp only [State.sendTo, State.sendRouted, Bool.false_eq_true, if_false, if_true] <;> (try split) <;> simp
@[simp] theorem State.sendTo_mir (s : State) (m : Bool) (d : Nat) (f : OutFrame) : (s.sendTo m d f).mir = s.mir := by cases m <;> simp only [State.sendTo, State.sendRouted, Bool.false_eq_true, if_false, if_true] <;> (try split) <;> simp
@[simp] theorem State.sendTo_flt (s : State) (m : Bool) (d : Nat) (f : OutFrame) : (s.sendTo m d f).flt = s.flt := by cases m <;> simp only [State.sendTo, State.sendRouted, Bool.false_eq_true, if_false, if_true] <;> (try split) <;> simp
@[simp] theorem State.sendTo_host (s : State) (m : Bool) (d : Nat) (f : OutFrame) : (s.sendTo m d f).host = s.host := by cases m <;> simp only [State.sendTo, State.sendRouted, Bool.false_eq_true, if_false, if_true] <;> (try split) <;> simp
@[simp] theorem State.sendTo_pwr (s : State) (m : Bool) (d : Nat) (f : OutFrame) : (s.sendTo m d f).pwr = s.pwr := by cases m <;> simp only [State.sendTo, State.sendRouted, Bool.false_eq_true, if_false, if_true] <;> (try split) <;> simp
@[simp] theorem State.sendTo_freeCtr (s : State) (m : Bool) (d : Nat) (f : OutFrame) : (s.sendTo m d f).freeCtr = s.freeCtr := by cases m <;> simp only [State.sendTo, State.sendRouted, Bool.false_eq_true, if_false, if_true] <;> (try split) <;> simp
@[simp] theorem State.sendTo_pending (s : State) (m : Bool) (d : Nat) (f : OutFrame) : (s.sendTo m d f).pending = s.pending := by cases m <;> simp only [State.sendTo, State.sendRouted, Bool.false_eq_true, if_false, if_true] <;> (try split) <;> simp

/-! `modThy` -/

@[simp] theorem State.modThy_dev (s : State) (g : Thyme → Thyme) : (s.modThy g).dev = s.dev := rfl
@[simp] theorem State.modThy_mem (s : State) (g : Thyme → Thyme) : (s.modThy g).mem = s.mem := rfl
@[simp] theorem State.modThy_hostMem (s : State) (g : Thyme → Thyme) : (s.modThy g).hostMem = s.hostMem := rfl
@[simp] theorem State.modThy_stp (s : State) (g : Thyme → Thyme) : (s.modThy g).stp = s.stp := rfl
@[simp] theorem State.modThy_arrays (s : State) (g : Thyme → Thyme) : (s.modThy g).arrays = s.arrays := rfl
@[simp] theorem State.modThy_mask (s : State) (g : Thyme → Thyme) : (s.modThy g).mask = s.mask := rfl
@[simp] theorem State.modThy_tiers (s : State) (g : Thyme → Thyme) : (s.modThy g).tiers = s.tiers := rfl
@[simp] theorem State.modThy_wct (s : State) (g : Thyme → Thyme) : (s.modThy g).wct = s.wct := rfl
@[simp] theorem State.modThy_dillQ (s : State) (g : Thyme → Thyme) : (s.modThy g).dillQ = s.dillQ := rfl
@[simp] theorem State.modThy_dill (s : State) (g : Thyme → Thyme) : (s.modThy g).dill = s.dill := rfl
@[simp] theorem State.modThy_ring (s : State) (g : Thyme → Thyme) : (s.modThy g).ring = s.ring := rfl
@[simp] theorem State.modThy_mir (s : State) (g : Thyme → Thyme) : (s.modThy g).mir = s.mir := rfl
@[simp] theorem State.modThy_flt (s : State) (g : Thyme → Thyme) : (s.modThy g).flt = s.flt := rfl
@[simp] theorem State.modThy_regs (s : State) (g : Thyme → Thyme) : (s.modThy g).regs = s.regs := rfl
@[simp] theorem State.modThy_host (s : State) (g : Thyme → Thyme) : (s.modThy g).host = s.host := rfl
@[simp] theorem State.modThy_pwr (s : State) (g : Thyme → Thyme) : (s.modThy g).pwr = s.pwr := rfl
@[simp] theorem State.modThy_freeCtr (s : State) (g : Thyme → Thyme) : (s.modThy g).freeCtr = s.freeCtr := rfl
@[simp] theorem State.modThy_pending (s : State) (g : Thyme → Thyme) : (s.modThy g).pending = s.pending := rfl

/-! `modWeight` -/

@[simp] theorem State.modWeight_dev (s : State) (w : Nat) (g : Weight → Weight) : (s.modWeight w g).dev = s.dev := rfl
@[simp] theorem State.modWeight_mem (s : State) (w : Nat) (g : Weight → Weight) : (s.modWeight w g).mem = s.mem := rfl
@[simp] theorem State.modWeight_hostMem (s : State) (w : Nat) (g : Weight → Weight) : (s.modWeight w g).hostMem = s.hostMem := rfl
@[simp] theorem State.modWeight_thy (s : State) (w : Nat) (g : Weight → Weight) : (s.modWeight w g).thy = s.thy := rfl
@[simp] theorem State.modWeight_stp (s : State) (w : Nat) (g : Weight → Weight) : (s.modWeight w g).stp = s.stp := rfl
@[simp] theorem State.modWeight_arrays (s : State) (w : Nat) (g : Weight → Weight) : (s.modWeight w g).arrays = s.arrays := rfl
@[simp] theorem State.modWeight_tiers (s : State) (w : Nat) (g : Weight → Weight) : (s.modWeight w g).tiers = s.tiers := rfl
@[simp] theorem State.modWeight_wct (s : State) (w : Nat) (g : Weight → Weight) : (s.modWeight w g).wct = s.wct := rfl
@[simp] theorem State.modWeight_dillQ (s : State) (w : Nat) (g : Weight → Weight) : (s.modWeight w g).dillQ = s.dillQ := rfl
@[simp] theorem State.modWeight_dill (s : State) (w : Nat) (g : Weight → Weight) : (s.modWeight w g).dill = s.dill := rfl
@[simp] theorem State.modWeight_ring (s : State) (w : Nat) (g : Weight → Weight) : (s.modWeight w g).ring = s.ring := rfl
@[simp] theorem State.modWeight_mir (s : State) (w : Nat) (g : Weight → Weight) : (s.modWeight w g).mir = s.mir := rfl
@[simp] theorem State.modWeight_flt (s : State) (w : Nat) (g : Weight → Weight) : (s.modWeight w g).flt = s.flt := rfl
@[simp] theorem State.modWeight_regs (s : State) (w : Nat) (g : Weight → Weight) : (s.modWeight w g).regs = s.regs := rfl
@[simp] theorem State.modWeight_host (s : State) (w : Nat) (g : Weight → Weight) : (s.modWeight w g).host = s.host := rfl
@[simp] theorem State.modWeight_pwr (s : State) (w : Nat) (g : Weight → Weight) : (s.modWeight w g).pwr = s.pwr := rfl
@[simp] theorem State.modWeight_freeCtr (s : State) (w : Nat) (g : Weight → Weight) : (s.modWeight w g).freeCtr = s.freeCtr := rfl
@[simp] theorem State.modWeight_pending (s : State) (w : Nat) (g : Weight → Weight) : (s.modWeight w g).pending = s.pending := rfl

/-! `askJournal` -/

@[simp] theorem State.askJournal_dev (s : State) (k : Nat) (bs : List Nat) : (s.askJournal k bs).dev = s.dev := rfl
@[simp] theorem State.askJournal_mem (s : State) (k : Nat) (bs : List Nat) : (s.askJournal k bs).mem = s.mem := rfl
@[simp] theorem State.askJournal_hostMem (s : State) (k : Nat) (bs : List Nat) : (s.askJournal k bs).hostMem = s.hostMem := rfl
@[simp] theorem State.askJournal_thy (s : State) (k : Nat) (bs : List Nat) : (s.askJournal k bs).thy = s.thy := rfl
@[simp] theorem State.askJournal_stp (s : State) (k : Nat) (bs : List Nat) : (s.askJournal k bs).stp = s.stp := rfl
@[simp] theorem State.askJournal_arrays (s : State) (k : Nat) (bs : List Nat) : (s.askJournal k bs).arrays = s.arrays := rfl
@[simp] theorem State.askJournal_mask (s : State) (k : Nat) (bs : List Nat) : (s.askJournal k bs).mask = s.mask := rfl
@[simp] theorem State.askJournal_tiers (s : State) (k : Nat) (bs : List Nat) : (s.askJournal k bs).tiers = s.tiers := rfl
@[simp] theorem State.askJournal_wct (s : State) (k : Nat) (bs : List Nat) : (s.askJournal k bs).wct = s.wct := rfl
@[simp] theorem State.askJournal_dillQ (s : State) (k : Nat) (bs : List Nat) : (s.askJournal k bs).dillQ = s.dillQ := rfl
@[simp] theorem State.askJournal_dill (s : State) (k : Nat) (bs : List Nat) : (s.askJournal k bs).dill = s.dill := rfl
@[simp] theorem State.askJournal_ring (s : State) (k : Nat) (bs : List Nat) : (s.askJournal k bs).ring = s.ring := rfl
@[simp] theorem State.askJournal_flt (s : State) (k : Nat) (bs : List Nat) : (s.askJournal k bs).flt = s.flt := rfl
@[simp] theorem State.askJournal_regs (s : State) (k : Nat) (bs : List Nat) : (s.askJournal k bs).regs = s.regs := rfl
@[simp] theorem State.askJournal_host (s : State) (k : Nat) (bs : List Nat) : (s.askJournal k bs).host = s.host := rfl
@[simp] theorem State.askJournal_pwr (s : State) (k : Nat) (bs : List Nat) : (s.askJournal k bs).pwr = s.pwr := rfl
@[simp] theorem State.askJournal_freeCtr (s : State) (k : Nat) (bs : List Nat) : (s.askJournal k bs).freeCtr = s.freeCtr := rfl
@[simp] theorem State.askJournal_pending (s : State) (k : Nat) (bs : List Nat) : (s.askJournal k bs).pending = s.pending := rfl

/-! `healed` -/

@[simp] theorem State.healed_dev (s : State) (a n : Nat) : (s.healed a n).dev = s.dev := rfl
@[simp] theorem State.healed_mem (s : State) (a n : Nat) : (s.healed a n).mem = s.mem := rfl
@[simp] theorem State.healed_hostMem (s : State) (a n : Nat) : (s.healed a n).hostMem = s.hostMem := rfl
@[simp] theorem State.healed_thy (s : State) (a n : Nat) : (s.healed a n).thy = s.thy := rfl
@[simp] theorem State.healed_stp (s : State) (a n : Nat) : (s.healed a n).stp = s.stp := rfl
@[simp] theorem State.healed_arrays (s : State) (a n : Nat) : (s.healed a n).arrays = s.arrays := rfl
@[simp] theorem State.healed_mask (s : State) (a n : Nat) : (s.healed a n).mask = s.mask := rfl
@[simp] theorem State.healed_wct (s : State) (a n : Nat) : (s.healed a n).wct = s.wct := rfl
@[simp] theorem State.healed_dillQ (s : State) (a n : Nat) : (s.healed a n).dillQ = s.dillQ := rfl
@[simp] theorem State.healed_dill (s : State) (a n : Nat) : (s.healed a n).dill = s.dill := rfl
@[simp] theorem State.healed_ring (s : State) (a n : Nat) : (s.healed a n).ring = s.ring := rfl
@[simp] theorem State.healed_mir (s : State) (a n : Nat) : (s.healed a n).mir = s.mir := rfl
@[simp] theorem State.healed_flt (s : State) (a n : Nat) : (s.healed a n).flt = s.flt := rfl
@[simp] theorem State.healed_regs (s : State) (a n : Nat) : (s.healed a n).regs = s.regs := rfl
@[simp] theorem State.healed_host (s : State) (a n : Nat) : (s.healed a n).host = s.host := rfl
@[simp] theorem State.healed_pwr (s : State) (a n : Nat) : (s.healed a n).pwr = s.pwr := rfl
@[simp] theorem State.healed_freeCtr (s : State) (a n : Nat) : (s.healed a n).freeCtr = s.freeCtr := rfl
@[simp] theorem State.healed_pending (s : State) (a n : Nat) : (s.healed a n).pending = s.pending := rfl

/-! Reading an array after one has changed -/

@[simp] theorem State.modArr_length (s : State) (n : Nat) (g : ArrayState → ArrayState) :
    (s.modArr n g).arrays.length = s.arrays.length := by simp [State.modArr]

theorem State.arr_modArr_same (s : State) (n : Nat) (g : ArrayState → ArrayState) (h : n < s.arrays.length) :
    (s.modArr n g).arr n = g (s.arr n) := by
  simp [State.modArr, State.arr, List.getD_eq_getElem?_getD, h]

theorem State.arr_modArr_ne (s : State) (n m : Nat) (g : ArrayState → ArrayState) (h : m ≠ n) :
    (s.modArr n g).arr m = s.arr m := by
  simp [State.modArr, State.arr, List.getD_eq_getElem?_getD, Ne.symm h]

@[simp] theorem ArrayState.ctx_modCtx_same (a : ArrayState) (st : Stream) (g : StreamCtx → StreamCtx) :
    (a.modCtx st g).ctx st = g (a.ctx st) := by cases st <;> rfl

theorem ArrayState.ctx_modCtx_ne (a : ArrayState) (st st' : Stream) (g : StreamCtx → StreamCtx) (h : st' ≠ st) :
    (a.modCtx st g).ctx st' = a.ctx st' := by cases st <;> cases st' <;> simp_all [ArrayState.modCtx, ArrayState.ctx]

theorem ArrayState.modCtx_modCtx (a : ArrayState) (st : Stream) (f g : StreamCtx → StreamCtx) :
    (a.modCtx st f).modCtx st g = a.modCtx st (fun c => g (f c)) := by cases st <;> rfl

/-! Sparse tables -/

theorem kvGet_kvSet_ne {β : Type} [DecidableEq β] (d e v : β) (a b : Nat) (h : b ≠ a) :
    ∀ l : List (Nat × β), kvGet e (kvSet d l a v) b = kvGet e l b := by
  intro l
  induction l with
  | nil => simp only [kvSet]; split <;> simp [kvGet, Ne.symm h]
  | cons x r ih =>
    obtain ⟨k, w⟩ := x
    simp only [kvSet]
    split
    · split <;> simp [kvGet, Ne.symm h]
    · split
      · subst_vars; split <;> simp [kvGet, Ne.symm h]
      · simp only [kvGet]; split
        · rfl
        · exact ih

theorem kvGet_eq_default {β : Type} (d : β) (a : Nat) : ∀ l : List (Nat × β), (∀ x ∈ l, a < x.1) → kvGet d l a = d := by
  intro l
  induction l with
  | nil => intro _; rfl
  | cons x r ih =>
    intro hl
    have h1 := hl x (by simp)
    simp only [kvGet]
    rw [if_neg (by omega)]
    exact ih (fun y hy => hl y (by simp [hy]))

theorem kvGet_kvSet_same {β : Type} [DecidableEq β] (d v : β) (a : Nat) :
    ∀ l : List (Nat × β), l.Pairwise (fun x y => x.1 < y.1) → kvGet d (kvSet d l a v) a = v := by
  intro l
  induction l with
  | nil => intro _; simp only [kvSet]; split <;> simp_all [kvGet]
  | cons x r ih =>
    obtain ⟨k, w⟩ := x
    intro hp
    have hr := List.pairwise_cons.mp hp
    simp only [kvSet]
    split
    · split
      · subst_vars
        exact kvGet_eq_default _ _ _ (fun y hy => by
          rcases List.mem_cons.mp hy with rfl | hy
          · assumption
          · have := hr.1 y hy; simp only at this; omega)
      · simp [kvGet]
    · split
      · subst_vars
        split
        · subst_vars
          exact kvGet_eq_default _ _ _ (fun y hy => hr.1 y hy)
        · simp [kvGet]
      · simp only [kvGet]
        rw [if_neg (by omega)]
        exact ih hr.2

theorem kvSet_key {β : Type} [DecidableEq β] (d v : β) (a : Nat) :
    ∀ l : List (Nat × β), ∀ x ∈ kvSet d l a v, x.1 = a ∨ x ∈ l := by
  intro l
  induction l with
  | nil => intro x; simp only [kvSet]; split <;> simp +contextual
  | cons y r ih =>
    obtain ⟨k, w⟩ := y
    intro x hx
    simp only [kvSet] at hx
    split at hx
    · split at hx
      · right; exact hx
      · rcases List.mem_cons.mp hx with rfl | hx
        · left; rfl
        · right; exact hx
    · split at hx
      · split at hx
        · right; simp [hx]
        · rcases List.mem_cons.mp hx with rfl | hx
          · left; rfl
          · right; simp [hx]
      · rcases List.mem_cons.mp hx with rfl | hx
        · right; simp
        · rcases ih x hx with h | h
          · left; exact h
          · right; simp [h]

/-- Setting a key keeps the keys strictly rising. -/
theorem kvSet_sorted {β : Type} [DecidableEq β] (d v : β) (a : Nat) :
    ∀ l : List (Nat × β), l.Pairwise (fun x y => x.1 < y.1) → (kvSet d l a v).Pairwise (fun x y => x.1 < y.1) := by
  intro l
  induction l with
  | nil => intro _; simp only [kvSet]; split <;> simp
  | cons y r ih =>
    obtain ⟨k, w⟩ := y
    intro hp
    have hr := List.pairwise_cons.mp hp
    simp only [kvSet]
    split
    · split
      · exact hp
      · refine List.pairwise_cons.mpr ⟨fun z hz => ?_, hp⟩
        rcases List.mem_cons.mp hz with rfl | hz
        · assumption
        · have := hr.1 z hz; simp only at this ⊢; omega
    · split
      · subst_vars
        split
        · exact hr.2
        · exact List.pairwise_cons.mpr ⟨hr.1, hr.2⟩
      · refine List.pairwise_cons.mpr ⟨fun z hz => ?_, ih hr.2⟩
        rcases kvSet_key d v a r z hz with h | h
        · simp only; omega
        · exact hr.1 z h

/-- Setting a key keeps every entry off the default. -/
theorem kvSet_nonDefault {β : Type} [DecidableEq β] (d v : β) (a : Nat) :
    ∀ l : List (Nat × β), (∀ x ∈ l, x.2 ≠ d) → ∀ x ∈ kvSet d l a v, x.2 ≠ d := by
  intro l
  induction l with
  | nil => intro _ x; simp only [kvSet]; split <;> simp_all
  | cons y r ih =>
    obtain ⟨k, w⟩ := y
    intro hl x hx
    have hw := hl (k, w) (by simp)
    have hr : ∀ x ∈ r, x.2 ≠ d := fun z hz => hl z (by simp [hz])
    simp only [kvSet] at hx
    split at hx
    · split at hx
      · exact hl x hx
      · rcases List.mem_cons.mp hx with rfl | hx
        · assumption
        · exact hl x hx
    · split at hx
      · split at hx
        · exact hr x hx
        · rcases List.mem_cons.mp hx with rfl | hx
          · assumption
          · exact hr x hx
      · rcases List.mem_cons.mp hx with rfl | hx
        · exact hw
        · exact ih hr x hx

/-! Memory -/

@[simp] theorem memSet_wf (m : Cells) (a : Nat) (b : Byte) (h : Memory.wf m) : Memory.wf (memSet m a b) :=
  ⟨kvSet_sorted _ _ _ _ h.1, kvSet_nonDefault _ _ _ _ h.2⟩

@[simp] theorem memPut_wf (bs : List Byte) : ∀ (m : Cells) (a : Nat), Memory.wf m → Memory.wf (memPut m a bs) := by
  induction bs with
  | nil => intro m a h; exact h
  | cons b r ih => intro m a h; exact ih _ _ (memSet_wf m a b h)

theorem filter_wf (m : Cells) (p : Nat × Byte → Bool) (h : Memory.wf m) : Memory.wf (m.filter p) :=
  ⟨h.1.filter _, fun c hc => h.2 c (List.mem_of_mem_filter hc)⟩

@[simp] theorem memClear_wf (m : Cells) (a n : Nat) (h : Memory.wf m) : Memory.wf (memClear m a n) := filter_wf _ _ h

@[simp] theorem memSlice_wf (m : Cells) (a n : Nat) (h : Memory.wf m) : Memory.wf (memSlice m a n) := filter_wf _ _ h

/-- A fold of writes keeps the canonical form. -/
theorem foldl_wf {α : Type} (f : Cells → α → Cells) (hf : ∀ m x, Memory.wf m → Memory.wf (f m x)) :
    ∀ (l : List α) (m : Cells), Memory.wf m → Memory.wf (l.foldl f m) := by
  intro l
  induction l with
  | nil => intro m h; exact h
  | cons x r ih => intro m h; exact ih _ (hf _ _ h)

@[simp] theorem memCopy_wf (m : Cells) (src dst n : Nat) (h : Memory.wf m) : Memory.wf (memCopy m src dst n) :=
  foldl_wf _ (fun _ _ h => memSet_wf _ _ _ h) _ _ (memClear_wf _ _ _ h)

/-- A byte written reads back. -/
theorem memByte_memSet_same (m : Cells) (a : Nat) (b : Byte) (h : Memory.wf m) : memByte (memSet m a b) a = b :=
  kvGet_kvSet_same _ _ _ _ h.1

/-- A write of one byte leaves every other byte alone. -/
theorem memByte_memSet_ne (m : Cells) (a x : Nat) (b : Byte) (h : x ≠ a) : memByte (memSet m a b) x = memByte m x :=
  kvGet_kvSet_ne _ _ _ _ _ h _

/-- What a write of bytes leaves at an address. -/
theorem memByte_memPut (bs : List Byte) : ∀ (m : Cells) (a x : Nat), Memory.wf m →
    memByte (memPut m a bs) x = if a ≤ x ∧ x < a + bs.length then bs.getD (x - a) 0 else memByte m x := by
  induction bs with
  | nil => intro m a x _; simp [memPut]
  | cons b r ih =>
    intro m a x h
    simp only [memPut, List.length_cons]
    rw [ih _ _ _ (memSet_wf _ _ _ h)]
    by_cases h1 : x = a
    · subst h1
      rw [if_neg (by omega), if_pos (by omega), memByte_memSet_same _ _ _ h]
      simp
    · by_cases h2 : a + 1 ≤ x ∧ x < a + 1 + r.length
      · rw [if_pos h2, if_pos (by omega)]
        have : x - a = (x - (a + 1)) + 1 := by omega
        rw [this]; simp
      · rw [if_neg h2, memByte_memSet_ne _ _ _ _ h1, if_neg (by omega)]

/-- Memory at reset is in canonical form. -/
theorem reset_mem_wf : Memory.wf State.reset.mem ∧ Memory.wf State.reset.hostMem := by
  exact ⟨⟨List.Pairwise.nil, fun _ h => nomatch h⟩, ⟨List.Pairwise.nil, fun _ h => nomatch h⟩⟩

end Sys2Proof.Machine
end

