-- ==== Sys2Proof/Laws/Issue.lean ====
section
/-! SUPPORT. What issue can do, said once: `verdict` under the conditions of `State.clear`, and the context and the frame after `issued`. -/

namespace Sys2Proof.Machine

/-- The parts of `ready`. -/
theorem State.ready_parts {s : State} {h : Head} {regs : List Nat} (hc : s.ready h regs = true) :
    s.streamLive h.arr h.stream = true ∧ (s.ctx h.arr h.stream).notBefore ≤ s.cycle ∧ s.pcInside h.arr h.stream = true ∧
      (s.ctx h.arr h.stream).markOk h.p = true ∧ s.marksHold h.arr h.stream (s.markOf h) = true ∧
      s.opcodeOk h.arr h.stream = true ∧ (s.arr h.arr).lastIssue ≠ some s.cycle ∧ s.stepHold h = none ∧ s.sregHeld h regs = false ∧ s.yields h (s.markOf h) = false := by
  simpa [State.ready, and_assoc] using hc

/-- The two halves of `clear`. -/
theorem State.clear_parts {s : State} {h : Head} {regs : List Nat} (hc : s.clear h regs = true) :
    s.ready h regs = true ∧ s.wordClean h.arr h.stream = true := by simpa [State.clear] using hc

/-- A live stream belongs to an array of the module. -/
theorem State.clear_lt {s : State} {h : Head} {regs : List Nat} (hc : s.clear h regs = true) : h.arr < s.arrays.length := by
  have := (State.ready_parts (State.clear_parts hc).1).1
  simp [State.streamLive] at this
  exact this.1.1.1.1.2

/-- The conditions do not mention the registers but through the wait for a register. -/
theorem State.clear_of_regs {s : State} {h : Head} {regs regs' : List Nat} (hc : s.clear h regs = true)
    (hr : ∀ r ∈ regs', r ∈ regs) : s.clear h regs' = true := by
  have hp := State.ready_parts (State.clear_parts hc).1
  have : s.sregHeld h regs' = false := by
    have h0 := hp.2.2.2.2.2.2.2.2.1
    simp only [State.sregHeld, List.any_eq_false] at h0 ⊢
    intro o ho hb
    apply h0 o ho
    simp only [Bool.and_eq_true] at hb ⊢
    refine ⟨hb.1, ?_⟩
    cases hs : o.sreg with
    | none => simp [hs] at hb
    | some r => simp only [hs, List.contains_iff_mem] at hb ⊢; exact hr r hb.2
  simp [State.clear, State.ready, hp, this, (State.clear_parts hc).2]

/-- Clean bytes hold nothing uncorrectable. -/
theorem State.clean_eccAt {s : State} {a n : Nat} (hc : s.clean a n = true) : s.eccAt a n = none := by
  simp only [State.clean, Bool.and_eq_true, beq_iff_eq] at hc
  exact hc.1

/-- Reading clean bytes corrects nothing. -/
theorem State.clean_correctAt {s : State} {a n : Nat} (hc : s.clean a n = true) : s.correctAt a n = s := by
  simp only [State.clean, Bool.and_eq_true] at hc
  have h2 := hc.2
  unfold State.correctAt
  by_cases hn : n = 0
  · simp [hn]
  · simp only [beq_iff_eq, hn, if_false]
    split at h2
    · rename_i hf
      simp only [hf, if_true]
      rw [List.filter_eq_nil_iff.2 (fun b hb => by simpa [Classical.or_iff_not_imp_left] using List.all_eq_true.1 h2 b hb)]
      rfl
    · rename_i hf
      simp only [hf, if_false, Bool.false_eq_true]
      rw [List.filter_eq_nil_iff.2 (fun b hb => by simpa [Classical.or_iff_not_imp_left] using List.all_eq_true.1 h2 b hb)]
      rfl

/-- Every span of a fetch whose word and record are clean is clean. -/
theorem State.fetchSpans_clean {s : State} {h : Head} {i : IssueInfo} (hw : s.wordClean h.arr h.stream = true)
    (hr : ∀ ref len, i.record = some (ref, len) → s.recordInside h ref len = true) :
    ∀ x ∈ s.fetchSpans h i, s.clean x.1 x.2 = true := by
  intro x hx
  unfold State.fetchSpans at hx
  unfold State.wordClean at hw
  split at hw
  · rename_i r he
    simp only [he, List.mem_cons, List.mem_map, Option.mem_toList] at hx
    rcases hx with rfl | ⟨p, hp, rfl⟩
    · exact hw
    · have := hr p.1 p.2 hp
      simp only [State.recordInside, Bool.and_eq_true] at this
      exact this.2
  · cases hw

/-- A clean fetch corrects nothing (R209, R216). -/
theorem State.fetched_eq {s : State} {h : Head} {i : IssueInfo} (hw : s.wordClean h.arr h.stream = true)
    (hr : ∀ ref len, i.record = some (ref, len) → s.recordInside h ref len = true) : s.fetched h i = s := by
  unfold State.fetched
  have hc := State.fetchSpans_clean hw hr
  generalize s.fetchSpans h i = l at hc
  induction l with
  | nil => rfl
  | cons x l ih =>
    simp only [List.foldl_cons, State.clean_correctAt (hc x (by simp))]
    exact ih (fun y hy => hc y (by simp [hy]))

/-- A clean fetch raises nothing (R209, R216). -/
theorem State.fetchBad_none {s : State} {h : Head} {i : IssueInfo} (hw : s.wordClean h.arr h.stream = true)
    (hr : ∀ ref len, i.record = some (ref, len) → s.recordInside h ref len = true) : s.fetchBad h i = none := by
  unfold State.fetchBad
  rw [List.findSome?_eq_none_iff]
  exact fun x hx => State.clean_eccAt (State.fetchSpans_clean hw hr x hx)

/-- Fetch succeeds: the pc and the record lie inside (R256, R287). -/
theorem State.fetchOk_of {s : State} {h : Head} {i : IssueInfo} (hp : s.pcInside h.arr h.stream = true)
    (hr : ∀ ref len, i.record = some (ref, len) → s.recordAt h ref len = true) : s.fetchOk h i = true := by
  unfold State.pcInside at hp
  unfold State.fetchOk
  unfold State.recordAt at hr
  split at hp
  · rename_i r he
    simp only [he] at hr ⊢
    cases hrec : i.record with
    | none => simpa using hp
    | some p =>
      have := hr p.1 p.2 (by simp [hrec])
      simpa [hp] using this
  · cases hp

/-- Fetch raises no fault where the pc and the record lie inside and nothing uncorrectable stands there. -/
theorem State.fetchFault_none {s : State} {h : Head} {i : IssueInfo} (hp : s.pcInside h.arr h.stream = true)
    (hr : ∀ ref len, i.record = some (ref, len) → s.recordAt h ref len = true) (hb : s.fetchBad h i = none) : s.fetchFault h i = none := by
  simp [State.fetchFault, State.fetchOk_of hp hr, hb]

/-- A clear stream and a clean record are what an instruction issues from. -/
theorem State.issuesClean_of {s : State} {h : Head} {i : IssueInfo} {slot : Nat} (hc : s.clear h i.sregs = true)
    (hs : h.stream ∈ i.streams) (hm : i.modOk = true)
    (hr : i.noRecompute = true → (s.ctx h.arr h.stream).recompute = none) (hg : i.regsOk = true) (hd : i.decodeBad = none)
    (hrec : ∀ ref len, i.record = some (ref, len) → s.recordInside h ref len = true) (hh : i.hold = none)
    (hslot : (if i.needSlot then (s.arr h.arr).freeSlot h.stream else some 0) = some slot)
    (ht : ∀ t, i.target = some t → (s.ctx h.arr h.stream).leavesRange t = false) (hk : i.check = none) :
    s.issuesClean h i slot := by
  obtain ⟨hmi, hw⟩ := State.clear_parts hc
  refine ⟨⟨hmi, State.fetchBad_none hw hrec, hs, hm, hr, hg, hd, fun ref len he => ?_, hh, hslot, ht, hk⟩, State.fetched_eq hw hrec⟩
  have := hrec ref len he
  simp only [State.recordInside, Bool.and_eq_true] at this
  exact this.1

/-- An instruction that meets every condition issues, in the slot it is given. -/
theorem verdict_go {s : State} {h : Head} {i : IssueInfo} {slot : Nat} (hi : s.issuesIn h i slot) : s.verdict h i = .go slot := by
  obtain ⟨hc, hb, hs, hm, hr, hg, hd, hrec, hh, hslot, ht, hk⟩ := hi
  obtain ⟨h1, h2, h3, h4, h5, ho, h6, h7, h8, h9⟩ := State.ready_parts hc
  have hf := State.fetchFault_none h3 hrec hb
  have hrow : s.decodeRow h i = none := by
    unfold State.decodeRow
    have : i.streams.contains h.stream = true := by simpa using hs
    simp only [this, ho, hm, hg, hd, Bool.not_true, Bool.false_eq_true, if_false]
    split
    · rename_i hx
      simp only [Bool.and_eq_true] at hx
      simp [hr hx.1] at hx
    · rfl
  unfold State.markOf at h5 h9
  have hdf : s.decodeFault h i = none := by simp [State.decodeFault, hrow, IssueInfo.formatFault, hk]
  unfold State.verdict
  simp only [h1, hf, h4, h5, h7, h8, h9, hdf, hh, hslot, hk, Bool.not_true, Bool.false_eq_true, if_false]
  rw [if_neg (by omega)]
  cases htt : i.target with
  | none => simp [h6]
  | some t => simp [h6, ht t htt]

/-- Decode rejects an instruction at its row before anything else of it is asked (R290). -/
theorem verdict_row {s : State} {h : Head} {i : IssueInfo} {row : Nat} (hc : s.clear h [] = true)
    (hrec : ∀ ref len, i.record = some (ref, len) → s.recordInside h ref len = true) (hrow : s.decodeRow h i = some row) :
    s.verdict h i = .fault (s.issueFault h i.opcode i.object 0x24 row 0) := by
  obtain ⟨hmi, hw⟩ := State.clear_parts hc
  obtain ⟨h1, h2, h3, h4, h5, -⟩ := State.ready_parts hmi
  have hf : s.fetchFault h i = none := State.fetchFault_none h3 (fun ref len he => by
    have := hrec ref len he
    simp only [State.recordInside, Bool.and_eq_true] at this
    exact this.1) (State.fetchBad_none hw hrec)
  unfold State.markOf at h5
  have hdf : s.decodeFault h i = some (s.issueFault h i.opcode i.object 0x24 row 0) := by simp [State.decodeFault, hrow]
  unfold State.verdict
  simp only [h1, hf, h4, h5, hdf, Bool.not_true, Bool.false_eq_true, if_false]
  rw [if_neg (by omega)]

/-- Issue when the verdict is to go. -/
theorem issue_go {s : State} {h : Head} {i : IssueInfo} {slot : Nat} (act : Nat → State → State)
    (hv : s.verdict h i = .go slot) : issue h i act s = .next (act slot ((s.fetched h i).issued h i)) := by
  simp [issue, hv]

/-- An instruction that issues from a clean fetch has its own effect on the state after the common one. -/
theorem issue_clean {s : State} {h : Head} {i : IssueInfo} {slot : Nat} (act : Nat → State → State)
    (hi : s.issuesClean h i slot) : issue h i act s = .next (act slot (s.issued h i)) := by
  rw [issue_go act (verdict_go hi.1), hi.2]

theorem issue_hold {s : State} {h : Head} {i : IssueInfo} {k : Hold} (act : Nat → State → State)
    (hv : s.verdict h i = .hold k) : issue h i act s = .next (s.holdHead h i k) := by
  simp [issue, hv]

theorem issue_fault {s : State} {h : Head} {i : IssueInfo} {r : FaultRec} (act : Nat → State → State)
    (hv : s.verdict h i = .fault r) : issue h i act s = .next (s.faultHead h r) := by
  simp [issue, hv]

/-! The state after the common effect of issue -/

section
variable (s : State) (h : Head) (i : IssueInfo)

@[simp] theorem State.issued_mem : (s.issued h i).mem = s.mem := by simp [State.issued]
@[simp] theorem State.issued_hostMem : (s.issued h i).hostMem = s.hostMem := by simp [State.issued]
@[simp] theorem State.issued_dev : (s.issued h i).dev = s.dev := by simp [State.issued]
@[simp] theorem State.issued_thy : (s.issued h i).thy = s.thy := by simp [State.issued]
@[simp] theorem State.issued_stp : (s.issued h i).stp = s.stp := by simp [State.issued]
@[simp] theorem State.issued_mask : (s.issued h i).mask = s.mask := by simp [State.issued]
@[simp] theorem State.issued_tiers : (s.issued h i).tiers = s.tiers := by simp [State.issued]
@[simp] theorem State.issued_wct : (s.issued h i).wct = s.wct := by simp [State.issued]
@[simp] theorem State.issued_dillQ : (s.issued h i).dillQ = s.dillQ := by simp [State.issued]
@[simp] theorem State.issued_dill : (s.issued h i).dill = s.dill := by simp [State.issued]
@[simp] theorem State.issued_ring : (s.issued h i).ring = s.ring := by simp [State.issued]
@[simp] theorem State.issued_mir : (s.issued h i).mir = s.mir := by simp [State.issued]
@[simp] theorem State.issued_flt : (s.issued h i).flt = s.flt := by simp [State.issued]
@[simp] theorem State.issued_host : (s.issued h i).host = s.host := by simp [State.issued]
@[simp] theorem State.issued_pwr : (s.issued h i).pwr = s.pwr := by simp [State.issued]
@[simp] theorem State.issued_freeCtr : (s.issued h i).freeCtr = s.freeCtr := by simp [State.issued]
@[simp] theorem State.issued_pending : (s.issued h i).pending = s.pending := by simp [State.issued]
@[simp] theorem State.issued_cycle : (s.issued h i).cycle = s.cycle := by simp [State.cycle]
@[simp] theorem State.issued_tick : (s.issued h i).tick = s.tick := by simp [State.tick]

/-- The array after issue. -/
theorem State.issued_arr (hl : h.arr < s.arrays.length) :
    (s.issued h i).arr h.arr =
      { (s.arr h.arr).modCtx h.stream (fun c => { c.movePc i.target s.cycle (s.lat 0x33) with head := none }) with
        lastIssue := some s.cycle, issueSeq := (s.arr h.arr).issueSeq + 1 } := by
  unfold State.issued
  have : ∀ (t : State) (n r k m : Nat), (t.bumpArr64 n r k).arr m = t.arr m := by intros; simp [State.arr]
  simp only [this]
  exact State.arr_modArr_same s h.arr _ hl

theorem State.issued_arr_ne (m : Nat) (hm : m ≠ h.arr) : (s.issued h i).arr m = s.arr m := by
  unfold State.issued
  have : ∀ (t : State) (n r k m : Nat), (t.bumpArr64 n r k).arr m = t.arr m := by intros; simp [State.arr]
  simp only [this]
  exact State.arr_modArr_ne s h.arr m _ hm

@[simp] theorem State.issued_length : (s.issued h i).arrays.length = s.arrays.length := by simp [State.issued]

/-- The context after issue. -/
theorem State.issued_ctx (hl : h.arr < s.arrays.length) :
    (s.issued h i).ctx h.arr h.stream =
      { (s.ctx h.arr h.stream).movePc i.target s.cycle (s.lat 0x33) with head := none } := by
  unfold State.ctx
  rw [State.issued_arr s h i hl]
  cases h.stream <;> rfl

end

/-- A register that `setReg` does not name keeps its value. -/
theorem State.reg_setReg_ne (s : State) (a b : Nat) (v : W32) (h : b ≠ a) : (s.setReg a v).reg b = s.reg b := by
  simp only [State.reg, State.setReg, State.regDefault]
  exact kvGet_kvSet_ne _ _ _ _ _ h _

theorem State.reg_bump_ne (s : State) (a b n : Nat) (h : b ≠ a) : (s.bump a n).reg b = s.reg b := by
  unfold State.bump; split
  · rfl
  · exact State.reg_setReg_ne _ _ _ _ h

theorem State.reg_bump64_ne (s : State) (a b n : Nat) (h : b ≠ a) (h4 : b ≠ a + 4) : (s.bump64 a n).reg b = s.reg b := by
  unfold State.bump64; split
  · rfl
  · unfold State.setReg64
    rw [State.reg_setReg_ne _ _ _ _ h4, State.reg_setReg_ne _ _ _ _ h]

theorem State.reg_issued (s : State) (h : Head) (i : IssueInfo) (off : Nat) (h0 : off ≠ s.issuedReg h.arr)
    (h4 : off ≠ s.issuedReg h.arr + 4) : (s.issued h i).reg off = s.reg off := by
  unfold State.issued State.bumpArr64
  exact (State.reg_bump64_ne _ _ _ 1 h0 h4).trans rfl

/-- Moving past an instruction without a target. -/
theorem StreamCtx.movePc_none (c : StreamCtx) (now pen : Nat) :
    ({ c.movePc none now pen with head := none } : StreamCtx).sameAs c.past := by
  unfold StreamCtx.sameAs StreamCtx.movePc StreamCtx.past StreamCtx.lastOfRange
  cases hr : c.recompute with
  | none => simp
  | some r => by_cases h : c.pc + 16 = r.code + 16 * r.count <;> simp [h]

/-- The frame of an issue whose own effect changes at most the array of the instruction. -/
theorem State.onlyArray_issued (s : State) (h : Head) (i : IssueInfo) : s.onlyArray (s.issued h i) h.arr := by
  refine ⟨?_, by simp, fun m hm => State.issued_arr_ne s h i m hm⟩
  simp only [State.issued, State.bumpArr64, State.bump64, State.setReg64, State.setReg, State.modArr]
  split <;> rfl

theorem State.onlyArray_modArr {s t : State} {n : Nat} (ht : s.onlyArray t n) (g : ArrayState → ArrayState) :
    s.onlyArray (t.modArr n g) n := by
  obtain ⟨h1, h2, h3⟩ := ht
  refine ⟨?_, by simp [h2], fun m hm => by rw [State.arr_modArr_ne _ _ _ _ hm, h3 m hm]⟩
  rw [h1]; rfl

end Sys2Proof.Machine
end

