-- ==== Sys2Proof/Laws/Step.lean ====
section
/-! SUPPORT. What a step does: an event that falls due is the command of its row. -/

namespace Sys2Proof.Machine

/-- An event of an idle cycle has the effect of its command. -/
theorem exec_event (e : Event) (s : State) : exec e.instr s = e.effect s := by cases e <;> rfl

/-- What an event's run is, in the words of the command: the next state that exec answers. -/
theorem Event.run_of_exec (e : Event) (s t : State) (h : exec e.instr s = .next t) : e.run s = t := by
  rw [exec_event] at h
  simp [Event.run, h]

end Sys2Proof.Machine
end

