-- ==== Sys2Proof/WellFormed.lean ====
section
/-! DEFINITION. Well-formed commands: every operand within the range of the field, register, link or slot that carries it. -/

namespace Sys2Proof

/-- An instruction's array is one of the module's 64 logical arrays (R3, R14). -/
def Head.wf (h : Head) : Bool := h.arr < 64

/-- A frame fits the fields of a link frame: five ports, two channels, 16-bit sequence numbers, addresses and contexts, and a payload of up to 512 bytes in units of 32 (R312, R313, R317). -/
def Frame.wf (f : Frame) : Bool :=
  f.port < 5 && f.vc < 2 && f.linkSeq < 65536 && f.ackSeq < 65536 && f.dst < 65536 && f.src < 65536 && f.dstCtx < 65536 && f.srcCtx < 65536 &&
    f.offset < 2 ^ 32 && f.payload.length ≤ 512 && f.payload.length % 32 == 0

/-- A phase frame's fields: 64-bit counters, a rate of 32 to 64, a hold state of 0 to 3, an 8-bit priority, a 16-bit address, a time of day (R239, R252). -/
def PhaseInfo.wf (i : PhaseInfo) : Bool :=
  i.period < 2 ^ 64 && i.tick < 2 ^ 64 && 32 ≤ i.rate && i.rate ≤ 64 && i.hold ≤ 3 && i.holdStart < 2 ^ 64 && i.holdEnd < 2 ^ 64 &&
    i.rateNext ≤ 64 && i.rateAt < 2 ^ 64 && i.masterPrio < 256 && i.masterAddr < 65536 && i.todS < 2 ^ 48 && i.todNs < 1000000000

/-- What a PCIe link trains to: generation 1 to 6, width x16, x8, x4 or x1, FLIT mode at generation 6 only; or it is down, with nothing set (R375). -/
def LinkTrain.wf (l : LinkTrain) : Bool :=
  (l.width == 0 && l.gen == 0 && !l.flit) || ([1, 4, 8, 16].contains l.width && 1 ≤ l.gen && l.gen ≤ 6 && (!l.flit || l.gen == 6))

/-- A PTP message's fields (R253). -/
def PtpMsg.wf : PtpMsg → Bool
  | .announce d x => d < 256 && x.priority1 < 256 && x.clockClass < 256 && x.accuracy < 256 && x.variance < 65536 && x.priority2 < 256 && x.identity < 2 ^ 64
  | .delayReq d n x => d < 256 && n < 65536 && x < 2 ^ 80
  | .other => true

/-- A reply address is 64 bits wide (R380). -/
def CmdHdr.wf (c : CmdHdr) : Bool := c.replyAddr < 2 ^ 64

/-- Bytes of a write access. -/
def BusWrite.size : BusWrite → Nat
  | .word _ _ => 4
  | .double _ _ => 8

/-- Every operand of a command is in its range. -/
def Instr.wf : Instr → Bool
  | .nop h => h.wf
  | .endStream h => h.wf
  | .stepb h _ => h.wf
  | .rcall h _ _ => h.wf
  | .setbase h _ => h.wf
  | .setver h _ => h.wf
  | .br h _ => h.wf
  | .beq h _ => h.wf
  | .bne h _ => h.wf
  | .bltu h _ => h.wf
  | .blt h _ => h.wf
  | .sadd h _ => h.wf
  | .ssub h _ => h.wf
  | .smul h _ => h.wf
  | .sand h _ => h.wf
  | .sor h _ => h.wf
  | .sxor h _ => h.wf
  | .sshl h _ => h.wf
  | .sshr h _ => h.wf
  | .ssra h _ => h.wf
  | .sli h _ => h.wf
  | .slih h _ => h.wf
  | .sld h _ => h.wf
  | .sldRegisterWritten arr slot => arr < 64 && slot < 32
  | .sst h _ => h.wf
  | .mmf h _ _ => h.wf
  | .mmt h _ _ => h.wf
  | .mmg h _ _ => h.wf
  | .mmgCand h _ _ => h.wf
  | .preloadEnd arr slot => arr < 64 && slot < 32
  | .segmentEnd arr slot => arr < 64 && slot < 32
  | .totalsFinal arr slot => arr < 64 && slot < 32
  | .ftqEntry arr => arr < 64
  | .gbAddition arr => arr < 64
  | .redSum h _ _ => h.wf
  | .redMax h _ _ => h.wf
  | .redMin h _ _ => h.wf
  | .redRetire arr slot => arr < 64 && slot < 32
  | .vadd h _ _ => h.wf
  | .vsub h _ _ => h.wf
  | .vmul h _ _ => h.wf
  | .vfma h _ _ => h.wf
  | .vmax h _ _ => h.wf
  | .vmin h _ _ => h.wf
  | .vabs h _ _ => h.wf
  | .vneg h _ _ => h.wf
  | .vcvt h _ _ => h.wf
  | .vfn h _ _ => h.wf
  | .vder h _ _ => h.wf
  | .vectorPassStart arr => arr < 64
  | .vectorWriteLanded arr slot => arr < 64 && slot < 32
  | .drain arr => arr < 64
  | .queueOverflow arr => arr < 64
  | .vtload h _ _ _ => h.wf
  | .dloadC h _ _ => h.wf
  | .dloadD h _ _ => h.wf
  | .dloadT h _ _ => h.wf
  | .dbuild h _ _ => h.wf
  | .dcopy h _ _ => h.wf
  | .dadd h _ _ => h.wf
  | .dfill h _ _ => h.wf
  | .descriptorFetch arr _ => arr < 64
  | .codecTile arr => arr < 64
  | .descriptorComplete arr => arr < 64
  | .mbind h _ => h.wf
  | .mdec h _ _ _ => h.wf
  | .pruneG h _ _ => h.wf
  | .pruneL h _ _ _ => h.wf
  | .regrowM h _ _ _ => h.wf
  | .regrowR h _ _ _ => h.wf
  | .mcommit h _ _ => h.wf
  | .mcommitAdopt h _ _ => h.wf
  | .maskEngineStart => true
  | .maskOpComplete => true
  | .unrm h _ _ _ => h.wf
  | .unrmFin h => h.wf
  | .uchk h => h.wf
  | .uchkVerdict arr slot => arr < 64 && slot < 32
  | .uverOpen h _ _ => h.wf
  | .upd h _ _ _ => h.wf
  | .updTile arr => arr < 64
  | .deferTimeout arr => arr < 64
  | .uverClose h _ => h.wf
  | .uverCloseRetire arr slot => arr < 64 && slot < 32
  | .ctxAppend h _ _ => h.wf
  | .ctxAdv h _ _ => h.wf
  | .pstage h _ _ => h.wf
  | .placementTick => true
  | .stagingComplete window _ => window < 64
  | .stageHoldTimeout arr _ => arr < 64
  | .rsend h _ _ => h.wf
  | .rrecv h _ _ => h.wf
  | .wcreq h _ => h.wf
  | .wcset h _ => h.wf
  | .workCounterRequest counter => counter < 16
  | .digH h _ _ => h.wf
  | .digProv h _ _ => h.wf
  | .dillEngineStart => true
  | .periodBoundary => true
  | .phaseHoldLimit => true
  | .moduleStepBoundary => true
  | .selftestComplete pos _ => pos < 68
  | .holdoverTimeout => true
  | .masterLostTimeout => true
  | .controllerWindow _ temps => temps.length == 80
  | .junctionOvertemp => true
  | .leakDetected => true
  | .railFault => true
  | .inputOutOfRange => true
  | .bodyWithdrawn => true
  | .powerOn => true
  | .rstNPulse => true
  | .boot failed l => failed.all (· < 68) && l.wf
  | .oscStable => true
  | .linkReset _ l => l.wf
  | .secondBoundary => true
  | .ptpMessage m => m.wf
  | .ptpSyncTimer _ => true
  | .dataFrame f => f.wf
  | .addingUnitApply ctx => ctx < 8192
  | .armFrame f => f.wf
  | .doneFrame f => f.wf
  | .linkFrame f => f.wf
  | .openFrame f => f.wf
  | .closeFrame f => f.wf
  | .phaseFrame f i => f.wf && i.wf
  | .holdOn f => f.wf
  | .holdOff f => f.wf
  | .rateMessage f => f.wf && 32 ≤ f.aux.toNat && f.aux.toNat ≤ 64
  | .beaconFrame f => f.wf
  | .beaconHoldExpiry subject cls => subject < 65536 && cls < 256
  | .rebindFrame f => f.wf
  | .trainFrame port farAddr _ => port < 5 && farAddr < 65536
  | .normFrame f => f.wf
  | .creditFrame f => f.wf
  | .frameForward typ f => typ < 16 && f.wf
  | .ackTimer port => port < 5
  | .replayTimeout port => port < 5
  | .laneFailure port lane _ _ _ => port < 5 && lane < 18
  | .lightLoss port => port < 5
  | .breakTimeout port => port < 5
  | .ctxTimeout ctx => ctx < 8192
  | .openTimeout ctx => ctx < 8192
  | .journalBlockCopy addr _ => addr % 2048 == 0
  | .refillCopyBlock => true
  | .packageCopyBlock _ => true
  | .crcScrub => true
  | .rateWindowEnd => true
  | .autoRecovery _ _ _ => true
  | .fwActivation => true
  | .fwHealthTimeout => true
  | .sealWrite slot body _ => slot < 256 && body.length == 252
  | .identify c => c.wf
  | .openCmd c _ _ _ _ _ => c.wf
  | .close c => c.wf
  | .loadImage c _ _ => c.wf
  | .patch c _ _ => c.wf
  | .commitImage c => c.wf
  | .unload c => c.wf
  | .start c _ _ _ _ => c.wf
  | .hold c _ => c.wf
  | .resume c _ _ _ _ => c.wf
  | .stop c => c.wf
  | .snapshot c _ => c.wf
  | .restore c _ => c.wf
  | .joinRing c _ _ _ => c.wf
  | .pair c _ => c.wf
  | .leaveRing c => c.wf
  | .fwLoad c _ _ => c.wf
  | .fwActivate c _ _ => c.wf
  | .attest c _ => c.wf
  | .eventQueue c _ _ => c.wf
  | .faultClear c _ _ => c.wf
  | .bar4Access _ _ offset _ => offset < 2 ^ 36
  | .registerWrite _ offset w => offset % w.size == 0 && offset < 2 ^ 25
  | .slLowRead _ offset => offset % 4 == 0 && offset < 2 ^ 25
  | .glbStrobe _ => true
  | .strobeCommit group blk => group < 8 && blk < 64
  | .idleOnlyCommit group blk => group < 8 && blk < 64
  | .fltEqTail _ => true
  | .thySnapCtrl _ => true
  | .thyTodCtrl _ _ _ => true
  | .thyPrio _ _ _ => true
  | .thyRateCap _ _ _ => true
  | .tirCopyCtrl _ _ _ => true
  | .rngBayCtrl _ _ _ => true
  | .mirFence _ _ _ => true
  | .detCtrl _ _ _ => true
  | .glbCrcCtrl _ _ _ => true
  | .glbCfgCrcRef _ _ _ => true
  | .secRevoke _ _ _ => true
  | .secPolicy _ _ _ => true
  | .secReset _ _ _ => true
  | .calSave _ _ _ => true
  | .pwrLimit _ _ _ => true
  | .passReadEnd arr => arr < 64
  | .vtloadRetire arr slot => arr < 64 && slot < 32
  | .unrmRetire arr slot => arr < 64 && slot < 32
  | .ctxAppendRetire arr slot => arr < 64 && slot < 32
  | .digestWritten engine => engine < 4
  | .holdMessage f i => f.wf && i.wf
  | .portTrainTimeout port => port < 5
  | .patrolScrub _ _ => true

end Sys2Proof
end

