-- ==== Sys2Proof/Tests/Slice0.lean ====
section
/-! SUPPORT. Tests: ill-formed commands refused, worked examples of the spec, and for every statement with hypotheses concrete states and operands that meet them. -/

open Sys2Proof Sys2Proof.Machine

set_option Elab.async false

/-! ### Well-formed and ill-formed commands -/

/-- A head of the F stream of an array. -/
def Tests.headF (n : Nat) : Head := ⟨n, .f, 0, 0, 0⟩

/-- A header with its reply at an address. -/
def Tests.hdr (a : Nat) : CmdHdr := ⟨false, 7, a⟩

/-- A frame from module 1 at a port. -/
def Tests.frame (p : Nat) : Frame := ⟨p, 0, 0, 0, true, 0, 1, 0, 0, 0, 0, 0, []⟩

/-- A phase frame with nothing announced. -/
def Tests.info : PhaseInfo := ⟨5, 4, 64, 0, 0, 0, 0, 0, 0x80, 1, 100, 0⟩

open Tests

theorem test_wf_arrays : ((.nop (headF 63) : Instr).wf && (.sadd (headF 0) ⟨31, 0, 0, 0⟩ : Instr).wf && (.drain 63 : Instr).wf &&
    (.descriptorFetch 5 .b : Instr).wf && (.uchk ⟨1, .u, 0, 0, 0⟩ : Instr).wf) = true := by decide
theorem test_ill_head_array : (.nop (headF 64) : Instr).wf = false := by decide
theorem test_ill_engine_array : (.vectorPassStart 64 : Instr).wf = false ∧ (.updTile 64 : Instr).wf = false ∧ (.descriptorFetch 64 .f : Instr).wf = false := by decide
theorem test_ill_slot : (.sldRegisterWritten 0 32 : Instr).wf = false ∧ (.redRetire 0 32 : Instr).wf = false ∧ (.uverCloseRetire 64 0 : Instr).wf = false := by decide
theorem test_wf_frames : (.dataFrame { frame 3 with payload := List.replicate 512 0 } : Instr).wf = true ∧
    (.frameForward 15 (frame 0) : Instr).wf = true := by decide +kernel
theorem test_ill_frame_port : (.armFrame (frame 5) : Instr).wf = false ∧ (.frameForward 1 (frame 5) : Instr).wf = false := by decide
theorem test_ill_frame_vc : (.doneFrame { frame 0 with vc := 2 } : Instr).wf = false := by decide
theorem test_ill_frame_seq : (.openFrame { frame 0 with linkSeq := 65536 } : Instr).wf = false ∧ (.linkFrame { frame 0 with ackSeq := 65536 } : Instr).wf = false := by decide
theorem test_ill_frame_ends : (.closeFrame { frame 0 with dst := 65536 } : Instr).wf = false ∧ (.closeFrame { frame 0 with src := 65536 } : Instr).wf = false ∧
    (.closeFrame { frame 0 with dstCtx := 65536 } : Instr).wf = false ∧ (.closeFrame { frame 0 with srcCtx := 65536 } : Instr).wf = false := by decide
theorem test_ill_frame_offset : (.dataFrame { frame 0 with offset := 2 ^ 32 } : Instr).wf = false := by decide
theorem test_ill_frame_payload : (.dataFrame { frame 0 with payload := List.replicate 544 0 } : Instr).wf = false ∧
    (.dataFrame { frame 0 with payload := List.replicate 33 0 } : Instr).wf = false := by decide +kernel
theorem test_ill_frame_type : (.frameForward 16 (frame 0) : Instr).wf = false := by decide
theorem test_wf_phase : (.phaseFrame (frame 4) info : Instr).wf = true ∧ (.holdOn (frame 4) : Instr).wf = true := by decide +kernel
theorem test_ill_phase : (.phaseFrame (frame 5) info : Instr).wf = false ∧ (.phaseFrame (frame 0) { info with rate := 31 } : Instr).wf = false ∧
    (.phaseFrame (frame 0) { info with rate := 65 } : Instr).wf = false ∧ (.phaseFrame (frame 0) { info with hold := 4 } : Instr).wf = false ∧
    (.phaseFrame (frame 0) { info with period := 2 ^ 64 } : Instr).wf = false ∧ (.phaseFrame (frame 0) { info with tick := 2 ^ 64 } : Instr).wf = false ∧
    (.phaseFrame (frame 0) { info with holdStart := 2 ^ 64 } : Instr).wf = false ∧ (.phaseFrame (frame 0) { info with holdEnd := 2 ^ 64 } : Instr).wf = false ∧
    (.phaseFrame (frame 0) { info with rateNext := 65 } : Instr).wf = false ∧ (.phaseFrame (frame 0) { info with rateAt := 2 ^ 64 } : Instr).wf = false ∧
    (.phaseFrame (frame 0) { info with masterPrio := 256 } : Instr).wf = false ∧ (.phaseFrame (frame 0) { info with masterAddr := 65536 } : Instr).wf = false ∧
    (.phaseFrame (frame 0) { info with todS := 2 ^ 48 } : Instr).wf = false ∧ (.phaseFrame (frame 0) { info with todNs := 1000000000 } : Instr).wf = false := by decide +kernel
theorem test_ill_rate : (.rateMessage { frame 0 with aux := 31 } : Instr).wf = false ∧ (.rateMessage { frame 0 with aux := 65 } : Instr).wf = false ∧
    (.rateMessage { frame 5 with aux := 64 } : Instr).wf = false ∧ (.holdOn { frame 0 with src := 65536 } : Instr).wf = false ∧
    (.holdOff { frame 0 with src := 65536 } : Instr).wf = false ∧ (.rateMessage { frame 0 with aux := 32 } : Instr).wf = true := by decide +kernel
theorem test_ill_ptp : (.ptpMessage (.delayReq 256 0 1) : Instr).wf = false ∧ (.ptpMessage (.delayReq 0 65536 1) : Instr).wf = false ∧
    (.ptpMessage (.announce 0 ⟨256, 6, 0x21, 0, 128, 1⟩) : Instr).wf = false ∧ (.ptpMessage (.announce 0 ⟨128, 6, 0x21, 65536, 128, 1⟩) : Instr).wf = false ∧
    (.ptpMessage (.announce 0 ⟨128, 6, 0x21, 0, 128, 2 ^ 64⟩) : Instr).wf = false ∧ (.ptpMessage (.announce 255 ⟨128, 6, 0x21, 0, 128, 1⟩) : Instr).wf = true := by decide
theorem test_ill_links : (.trainFrame 5 0 0 : Instr).wf = false ∧ (.trainFrame 0 65536 0 : Instr).wf = false ∧ (.creditFrame (frame 5) : Instr).wf = false ∧
    (.creditFrame { frame 0 with vc := 2 } : Instr).wf = false ∧ (.laneFailure 0 18 true 0 0 : Instr).wf = false ∧ (.lightLoss 5 : Instr).wf = false ∧
    (.portTrainTimeout 5 : Instr).wf = false ∧ (.ackTimer 5 : Instr).wf = false ∧ (.replayTimeout 5 : Instr).wf = false ∧ (.breakTimeout 5 : Instr).wf = false := by decide
theorem test_ill_ring : (.addingUnitApply 8192 : Instr).wf = false ∧ (.ctxTimeout 8192 : Instr).wf = false ∧ (.openTimeout 8192 : Instr).wf = false ∧
    (.normFrame (frame 5) : Instr).wf = false ∧ (.beaconHoldExpiry 65536 0 : Instr).wf = false ∧ (.beaconHoldExpiry 0 256 : Instr).wf = false ∧
    (.rebindFrame (frame 5) : Instr).wf = false ∧ (.beaconFrame { frame 0 with src := 65536 } : Instr).wf = false := by decide
theorem test_ill_counters : (.workCounterRequest 16 : Instr).wf = false ∧ (.digestWritten 4 : Instr).wf = false ∧ (.stagingComplete 64 0 : Instr).wf = false := by decide
theorem test_ill_positions : (.selftestComplete 68 true : Instr).wf = false ∧ (.boot [3, 68] ⟨true, 16, 6⟩ : Instr).wf = false ∧ (.boot [0, 67] ⟨true, 16, 6⟩ : Instr).wf = true := by decide
theorem test_ill_journal_block : (.journalBlockCopy 1024 0 : Instr).wf = false ∧ (.journalBlockCopy 4096 0 : Instr).wf = true := by decide
theorem test_ill_reply_address : (.identify (hdr (2 ^ 64)) : Instr).wf = false ∧ (.stop (hdr (2 ^ 64)) : Instr).wf = false ∧ (.stop (hdr 64) : Instr).wf = true := by decide
theorem test_ill_seal : (.sealWrite 256 (List.replicate 252 0) 0 : Instr).wf = false ∧ (.sealWrite 0 [] 0 : Instr).wf = false ∧
    (.sealWrite 255 (List.replicate 252 0) 0 : Instr).wf = true := by decide +kernel
theorem test_ill_register : (.registerWrite .host 2 (.word 0xF 0) : Instr).wf = false ∧ (.registerWrite .sage (2 ^ 25) (.word 0xF 0) : Instr).wf = false ∧
    (.slLowRead .host 3 : Instr).wf = false ∧ (.registerWrite .host 4 (.word 0xF 0) : Instr).wf = true := by decide
theorem test_ill_strobe : (.strobeCommit 8 0 : Instr).wf = false ∧ (.idleOnlyCommit 0 64 : Instr).wf = false ∧ (.strobeCommit 7 2 : Instr).wf = true := by decide
theorem test_ill_bar4 : (.bar4Access true false (2 ^ 36) [1] : Instr).wf = false ∧ (.bar4Access true false (2 ^ 36 - 1) [1] : Instr).wf = true := by decide
theorem test_ill_link : (.linkReset .flr ⟨true, 3, 6⟩ : Instr).wf = false ∧ (.linkReset .perst ⟨true, 16, 6⟩ : Instr).wf = true := by decide
/-- The table gives no row bits: no word spells a command (spec/opcode_table.json). -/
theorem test_no_word_spells_a_command : decodeTableWord 32 5 = none ∧ State.reset.withFetchWord 32 5 = State.reset := ⟨rfl, rfl⟩

/-! ### Worked examples of the spec -/

/-- R40's example: 1.0029296875 regenerates to BF16 1.0 below r = 0xA0000000 and to the next value from there. -/
theorem test_stochastic_bf16 : (Fmt.bf16.encode (.stochastic 0x9FFFFFFF) (val32 0x3F806000#32)).1 = 0x3F80 ∧
    (Fmt.bf16.encode (.stochastic 0xA0000000) (val32 0x3F806000#32)).1 = 0x3F81 := by decide +kernel
/-- R37's example: a block whose largest magnitude is 1,200 has the scale byte 129. -/
theorem test_mx_scale : (mxBlock .mxfp8 (fun _ => .rne) (FVal.ofInt 1200 :: List.replicate 31 FVal.zero)).1 = 129 := by decide +kernel
/-- RFC 3720's check value of CRC-32C, the checksum of R382. -/
theorem test_crc32c : crc32c [0x31, 0x32, 0x33, 0x34, 0x35, 0x36, 0x37, 0x38, 0x39] = 0xE3069283#32 := by decide +kernel
/-- FIPS 180-4's digest of "abc" (R309). -/
theorem test_sha256 : (sha256 [0x61, 0x62, 0x63]).take 4 = [0xBA#8, 0x78#8, 0x16#8, 0xBF#8] := by decide +kernel
/-- The worked encoding of chapter 13: an MMF.K2.F16 with wt 17, units from 8, fused, and its record (R283 to R285, R297). -/
theorem test_worked_encoding : decodeWord 0 .f 0x20140000000000280011208003000240
    (leBytes 8 0x4030000000100000 ++ leBytes 4 0x3000 ++ leBytes 4 0x100 ++ leBytes 8 0x5000000000000000 ++ leBytes 8 0x50000000000013C0 ++
      leBytes 2 0 ++ leBytes 2 0x5F ++ leBytes 2 0 ++ leBytes 2 5 ++ leBytes 4 0x120 ++ zeros 12 ++ [3#8] ++ zeros 7) =
    some (.mmf ⟨0, .f, 0x14, 0, 40⟩ ⟨17, 8, false, false, true, false, false, ⟨3, 0x240⟩⟩
      ⟨⟨4, 3, 0, false, false, 0x100000⟩, 0x3000, 256, ⟨5, 0⟩, ⟨5, 0x13C0⟩, 0, 0x5F, 0, 5, 288, 0, ⟨0, 0, 0, false, false, 0⟩, 3, false, 0, 0, 0⟩) := by decide +kernel
/-- Opcode 0x10 is SADD, here with rd 3, rs1 4 and the immediate −1 in its immediate form; 0x0F is no opcode of the map (R284, R291). -/
theorem test_scalar_word : decodeWord 2 .u 0x100100000000000019000000FFFFFFFF [] = some (.sadd ⟨2, .u, 1, 0, 0⟩ ⟨3, 4, 0, 0xFFFFFFFF⟩) ∧
    decodeWord 2 .u 0x0F010000000000000000000000000000 [] = none := by decide +kernel
/-- Opcode 0x90 is WCREQ: counter 3, rd 5, n 10, tag 7 (R302, R307). -/
theorem test_wcreq_word : decodeWord 0 .b (0x90 * 2 ^ 120 + 3 * 2 ^ 56 + 5 * 2 ^ 51 + 10 * 2 ^ 32 + 7) [] = some (.wcreq ⟨0, .b, 0, 0, 0⟩ ⟨3, 5, 10, 7⟩) := by decide +kernel

/-! ### Small states -/

/-- A stream that runs the code of region 0 with in-flight slots `lo` to `lo + 7`. -/
def Tests.stream (lo : Nat) (c : StreamCtx) : StreamCtx := { c with st := .running, codeRegion := some 0, slotLo := lo, slotN := 8 }

/-- A running module: the three streams of array 0 at pc 0 of region 0; a data region, the scratchpad slice and the gradient-buffer slice of array 0, each open to everybody. -/
def Tests.run : State :=
  { State.reset with
    host := { HostIf.reset with st := .running, bootDone := true, pcie := { Pcie.reset with link := ⟨true, 16, 6⟩ } }
    stp := { State.reset.stp with started := true }
    tiers := { State.reset.tiers with regions := [⟨0, 4096, 1, 31, 7, 0⟩, ⟨0x100000, 0x100000, 5, 31, 7, 0⟩, ⟨scratchBase, sliceSize, 5, 31, 7, 0⟩, ⟨gradBase, sliceSize, 5, 31, 7, 0⟩] }
    arrays := State.reset.arrays.modify 0 (fun a => { a with f := stream 0 a.f, b := stream 8 a.b, u := stream 16 a.u }) }

/-- `run` with a change of array 0. -/
def Tests.runA (g : ArrayState → ArrayState) : State := run.modArr 0 g

/-- `run` with a change of one stream of array 0. -/
def Tests.runC (st : Stream) (g : StreamCtx → StreamCtx) : State := run.modCtx 0 st g

/-- The head of a stream of array 0. -/
def Tests.at_ (st : Stream) : Head := ⟨0, st, 0, 0, 0⟩

/-- The next state of a step; the state itself where there is none. -/
def Tests.after (i : Instr) (s : State) : State :=
  match exec i s with
  | .next t => t
  | _ => s

/-! ### Control and scalar instructions -/

theorem test_witness_StepRunsFront : State.reset.pending = [] ∧ State.reset.dueEvent = none ∧ State.reset.host.bootDone = false ∧
    run.pending = [] ∧ run.dueEvent = none ∧ run.host.bootDone = true ∧ run.thy.cyc < 255 := by decide +kernel
theorem test_witness_StepKeepsInvariant : State.reset.Inv := ⟨by decide, by decide, by decide, by decide, by decide, by decide, by decide, by decide⟩
theorem test_witness_WaitAndFaultFrame : (runC .f fun c => { c with base := 1 }).verdict (at_ .f) (IssueInfo.simple 0 []) = .hold .mark ∧
    (∃ r, (runC .f fun c => { c with pc := 4096 }).verdict (at_ .f) (IssueInfo.simple 0 []) = .fault r ∧ r.code = 0x10) ∧
    run.verdict (at_ .f) (IssueInfo.simple 0 []) = .go 0 := ⟨by decide, ⟨_, rfl, by decide⟩, by decide⟩
theorem test_witness_ScalarResults : run.clear ⟨0, .f, 1, 0, 0⟩ [1, 2] = true ∧ run.clear (at_ .u) [1, 2, 3] = true ∧ run.clear (at_ .b) [] = true ∧
    (run.ctx 0 .b).recompute = none := by decide
theorem test_sadd_wraps : ((after (.sadd ⟨0, .f, 1, 0, 0⟩ ⟨1, 1, 0, 0xFFFFFFFF⟩) run).ctx 0 .f).sreg 1 = 0xFFFFFFFFFFFFFFFF#64 := by decide
theorem test_ssub : ((after (.ssub ⟨0, .f, 1, 0, 0⟩ ⟨1, 1, 0, 1⟩) run).ctx 0 .f).sreg 1 = 0xFFFFFFFFFFFFFFFF#64 := by decide
theorem test_smul : ((after (.smul ⟨0, .f, 1, 0, 0⟩ ⟨3, 2, 0, 0xFFFFFFFE⟩) (runC .f (fun c => c.setSreg 2 3))).ctx 0 .f).sreg 3 = 0xFFFFFFFFFFFFFFFA#64 := by decide
theorem test_sshl_modulo_64 : ((after (.sshl ⟨0, .f, 1, 0, 0⟩ ⟨3, 2, 0, 65⟩) (runC .f (fun c => c.setSreg 2 3))).ctx 0 .f).sreg 3 = 6#64 := by decide
theorem test_ssra_sign : ((after (.ssra ⟨0, .f, 1, 0, 0⟩ ⟨3, 2, 0, 4⟩) (runC .f (fun c => c.setSreg 2 (0x8000000000000000#64)))).ctx 0 .f).sreg 3 = 0xF800000000000000#64 := by decide
theorem test_sshr_zero : ((after (.sshr ⟨0, .f, 1, 0, 0⟩ ⟨3, 2, 0, 4⟩) (runC .f (fun c => c.setSreg 2 (0x8000000000000000#64)))).ctx 0 .f).sreg 3 = 0x0800000000000000#64 := by decide
theorem test_slih : ((after (.slih (at_ .f) ⟨3, 0, 0, 0xABCD⟩) (runC .f (fun c => c.setSreg 3 (0x1111111122222222#64)))).ctx 0 .f).sreg 3 = 0x0000ABCD22222222#64 := by decide
theorem test_end : ((after (.endStream (at_ .b)) run).ctx 0 .b).st = .ended ∧ ((after (.endStream (at_ .b)) run).ctx 0 .f).st = .running := by decide
theorem test_witness_Branches : run.clear (at_ .f) [1, 2] = true ∧ (run.ctx 0 .f).recompute = none ∧
    (runC .b fun c => { c with recompute := some ⟨0, 4, 80, 0, 0⟩ }).clear (at_ .b) [] = true ∧
    (0 ≤ (63#32).toNat ∧ (63#32).toNat < 0 + 16 * 4 ∧ (64#32).toNat = 0 + 16 * 4 ∧ 0 + 16 * 4 < (65#32).toNat) := by decide
theorem test_blt_signed : ((after (.blt (at_ .f) ⟨1, 2, 160⟩) (runC .f (fun c => c.setSreg 1 (0xFFFFFFFFFFFFFFFF#64)))).ctx 0 .f).pc = 160 ∧
    ((after (.bltu (at_ .f) ⟨1, 2, 160⟩) (runC .f (fun c => c.setSreg 1 (0xFFFFFFFFFFFFFFFF#64)))).ctx 0 .f).pc = 16 := by decide
theorem test_br_at_range_end : ((after (.br (at_ .b) ⟨0, 0, 64⟩) (runC .b fun c => { c with recompute := some ⟨0, 4, 80, 0, 0⟩ })).ctx 0 .b).pc = 80 := by decide
theorem test_witness_StepbAtBoundaries : run.clear (at_ .f) [] = true ∧ (run.ctx 0 .f).step ≤ run.stp.step ∧ run.stp.nextBase = none ∧
    (runC .f fun c => { c with step := 1 }).clear (at_ .f) [] = true ∧ run.stp.step < ((runC .f fun c => { c with step := 1 }).ctx 0 .f).step ∧
    ({ run with stp := { run.stp with nextBase := some 1 } } : State).clear (at_ .f) [] = true ∧ 1 ≠ run.markOf (at_ .f) ∧
    ({ run with stp := { run.stp with nextBase := some 1 } } : State).stepbMark 0 = some 1 ∧
    ({ run with stp := { run.stp with step := 1, past := [(0, 7)] } } : State).stepbMark 0 = some 7 ∧
    (runC .b fun c => { c with recompute := some ⟨0, 4, 80, 0, 0⟩ }).clear (at_ .b) [] = true := by decide
theorem test_stepb : ((after (.stepb (at_ .u) ⟨0, 0, 320⟩) run).ctx 0 .u).pc = 320 ∧ ((after (.stepb (at_ .u) ⟨0, 0, 320⟩) run).ctx 0 .u).step = 1 ∧
    (after (.stepb (at_ .u) ⟨0, 0, 320⟩) run).stp.nextBase = some 0 := by decide
theorem test_witness_RcallResult : run.clear (at_ .b) [5] = true ∧ (run.ctx 0 .b).recompute = none ∧ run.recordInside (at_ .b) ⟨0, 2⟩ 64 = true ∧
    (run.arr 0).f.codeRegion = some 0 ∧ run.tiers.regions[0]? = some ⟨0, 4096, 1, 31, 7, 0⟩ ∧ (32#32).toNat + 16 * (254#16).toNat ≤ 4096 := by decide
theorem test_rcall : ((after (.rcall (at_ .b) ⟨0, 2⟩ ⟨32, 254, 3120, 5⟩) run).ctx 0 .b).pc = 32 ∧
    ((after (.rcall (at_ .b) ⟨0, 2⟩ ⟨32, 254, 3120, 5⟩) run).ctx 0 .b).recompute = some ⟨32, 254, 16, 3120, 0⟩ := by decide
theorem test_witness_BaseAndVersionResult : run.clear ⟨0, .f, 1, 0, 0⟩ [3] = true ∧ (15#5).toNat < 16 ∧ (3#5).toNat < 16 := by decide
theorem test_witness_NoSuchBaseRegister : run.clear (at_ .f) [] = true ∧ 16 ≤ (16#5).toNat := by decide
theorem test_setbase_from_base : ((after (.setbase ⟨0, .f, 1, 0, 0⟩ ⟨15, 3, 0, 0xFFFFFFFF⟩) (runC .f (fun c => { c with abs := c.abs.set 3 5 }))).ctx 0 .f).base_ 15 = 4#64 := by decide
theorem test_setver : ((after (.setver (at_ .f) ⟨0, 0, 0, 9⟩) run).ctx 0 .f).ver = 9#32 := by decide
/-- A load of the eight bytes at 0x100000, in slot 0 of array 0. -/
def Tests.sldOp : Op := ⟨0, .f, 0x1B, 0, 0, 0, 0, 0, 0, some 4, none, 0, [], [], 0, false, .sld 4 0x100000 none⟩
theorem test_witness_StepRunsFront_event : (runA fun a => { a with ops := [sldOp] }).dueEvent.isSome = true := by decide +kernel
theorem test_witness_SldResult : (runC .f fun c => { c with abs := c.abs.set 1 (0x1FFFF8#64) }).clear (at_ .f) [4] = true ∧ (1#5).toNat < 16 ∧
    (run.arr 0).freeSlot .f = some 0 ∧ (runC .f fun c => { c with abs := c.abs.set 1 (0x1FFFF8#64) }).sAddr (at_ .f) ⟨4, 1, 0, 0⟩ % 8 = 0 ∧
    (runC .f fun c => { c with abs := c.abs.set 1 (0x1FFFF8#64) }).allowed ((runC .f fun c => { c with abs := c.abs.set 1 (0x1FFFF8#64) }).sAddr (at_ .f) ⟨4, 1, 0, 0⟩) 8
      (at_ .f).stream.idx .read false = true ∧
    (runA fun a => { a with ops := [sldOp] }).op? 0 0 = some sldOp ∧ ownSlice 0 0x1FFFF8 = true ∧ sldOp.readyAt ≤ run.cycle ∧
    run.eccBad 0x100000 8 0 = none ∧ ((runA fun a => { a with ops := [sldOp] }).arr 0).earlierStores .f 0 = [] := by decide
theorem test_sld_little_endian : ((after (.sldRegisterWritten 0 0) { (runA fun a => { a with ops := [sldOp] }) with
    mem := [(0x100000, 1), (0x100001, 2), (0x100007, 0x80)] }).ctx 0 .f).sreg 4 = 0x8000000000000201#64 := by decide
/-- A store of 0x0102 at 0x100000, in slot 0 of array 0. -/
def Tests.sstOp : Op := { sldOp with opcode := 0x1C, sreg := none, body := .sst 0x100000 0x0102 }
theorem test_witness_SstResult : (runC .f fun c => { c with abs := c.abs.set 1 (0x1FFFF8#64) }).clear (at_ .f) [2] = true ∧
    (runC .f fun c => { c with abs := c.abs.set 1 (0x1FFFF8#64) }).sAddr (at_ .f) ⟨0, 1, 2, 0⟩ = 0x1FFFF8 ∧
    ownSlice 0 0x1FFFF8 = true ∧ (run.arr 0).freeSlot .f = some 0 ∧
    run.allowed 0x1FFFF8 8 (at_ .f).stream.idx .write false = true ∧ run.lacking (run.ctx 0 .f).curStep [(0x1FFFF8, 8)] = [] ∧
    Memory.wf run.mem ∧ (∀ x ∈ run.tiers.staged, x.arriving) ∧ run.unmergeable 0x100000 8 = [] ∧
    ((runA fun a => { a with ops := [sstOp] }).arr 0).ops = [sstOp] ∧ sstOp.readyAt ≤ run.cycle ∧ run.cycle < ({ sstOp with readyAt := 6 } : Op).readyAt := by decide
theorem test_sst : (run.landStore 0 sstOp).mem = [(0x100000, 2), (0x100001, 1)] := by decide

/-- The conditions of `State.issuesClean` as a check. -/
def Tests.meets (s : State) (h : Head) (i : IssueInfo) (slot : Nat) : Bool :=
  s.clear h i.sregs && i.streams.contains h.stream && i.modOk && (!i.noRecompute || (s.ctx h.arr h.stream).recompute.isNone) && i.regsOk &&
    i.decodeBad.isNone && i.record.all (fun x => s.recordInside h x.1 x.2) && i.hold.isNone &&
    (if i.needSlot then (s.arr h.arr).freeSlot h.stream else some 0) == some slot &&
    i.target.all (fun t => !(s.ctx h.arr h.stream).leavesRange t) && i.check.isNone

theorem Tests.issuesClean_of_meets {s : State} {h : Head} {i : IssueInfo} {slot : Nat} (hm : meets s h i slot = true) : s.issuesClean h i slot := by
  simp only [meets, Bool.and_eq_true, Bool.or_eq_true, Bool.not_eq_true', List.contains_iff_mem, Option.isNone_iff_eq_none, beq_iff_eq] at hm
  obtain ⟨⟨⟨⟨⟨⟨⟨⟨⟨⟨h1, h2⟩, h3⟩, h4⟩, h5⟩, h6⟩, h7⟩, h8⟩, h9⟩, h10⟩, h11⟩ := hm
  refine State.issuesClean_of h1 h2 h3 ?_ h5 h6 ?_ h8 h9 ?_ h11
  · intro hn
    rcases h4 with h4 | h4
    · rw [hn] at h4
      cases h4
    · exact h4
  · intro ref len hr
    rw [hr] at h7
    simpa using h7
  · intro t ht
    rw [ht] at h10
    simpa using h10
theorem test_witness_IssueConditions : run.issuesClean (at_ .f) (IssueInfo.simple 0 []) 0 := issuesClean_of_meets (by decide)
theorem test_witness_IssueConditions_fetch : (let s := runC .f fun c => { c with pc := 4096 };
      s.streamLive 0 .f = true ∧ (s.ctx 0 .f).notBefore ≤ s.cycle ∧ s.fetchOk (at_ .f) (IssueInfo.simple 0 []) = false) ∧
    (let s : State := { run with tiers := { run.tiers with bad := [0] } };
      s.streamLive 0 .f = true ∧ s.fetchOk (at_ .f) (IssueInfo.simple 0 []) = true ∧ s.fetchBad (at_ .f) (IssueInfo.simple 0 []) = some (0x51, 0)) := by decide +kernel

/-! ### Products, reductions, vector instructions -/

/-- A value directory of one tile-row and one tile-column with no tile present. -/
def Tests.emptyDir : Dir := ⟨0x100000, 1, true, Fmt.e4m3.code, 2, 2, 0, false, 1, 1, 0, 0⟩

/-- A mask directory of one tile-row and one tile-column with no tile present. -/
def Tests.emptyMask : Dir := ⟨0x101000, 1, true, 0, 2, 2, 0, true, 1, 1, 0, 0⟩

/-- `run` with both directories in memory, and with base registers: 1 at the data region, 2 at the scratchpad slice, 3 at the gradient-buffer slice. -/
def Tests.runM : State :=
  { runA fun a => { a with
      f := { a.f with abs := [0, 0x100000#64, 0x100000000000#64, 0x110000000000#64] ++ List.replicate 12 0 }
      b := { a.b with abs := [0, 0x100000#64, 0x100000000000#64, 0x110000000000#64] ++ List.replicate 12 0 }
      u := { a.u with abs := [0, 0x100000#64, 0x100000000000#64, 0x110000000000#64] ++ List.replicate 12 0 }
      accRegions := [(.f, 0, 64), (.b, 0, 64), (.u, 0, 64)] } with
    mem := memPut (memPut [] 0x100000 emptyDir.bytes) 0x101000 emptyMask.bytes }

/-- An operand of format E4M3 at an offset from base register 2. -/
def Tests.op8 (ofs : Nat) : ORef := ⟨2, BitVec.ofNat 5 Fmt.e4m3.code, 0, false, false, BitVec.ofNat 48 ofs⟩

/-- Accumulator units from 0, nothing fused, no weight named, record at 0x800. -/
def Tests.bodyP : BodyP := ⟨0xFFFF, 0, false, false, false, false, false, ⟨0, 64⟩⟩

/-- A product over the empty directory: one block of rows, cap 2, E4M3. -/
def Tests.prodRec : ProdRec :=
  ⟨op8 0, 128, 128, ⟨1, 0⟩, ⟨1, 0x2000⟩, 0, 0, 0, 0, 0, 128, op8 0x10000, BitVec.ofNat 5 Fmt.e4m3.code, false, 0, 0, 0⟩

/-- A gradient product over the empty mask directory. -/
def Tests.mmgRec : MmgRec :=
  ⟨op8 0, 128, 128, ⟨1, 0x1000⟩, ⟨1, 0x2000⟩, 0, 0, 0, 0, 0, 128, op8 0x10000, 0, ⟨3, 0⟩, ⟨0, 0⟩⟩

/-- A candidate list of one block, all bits zero. -/
def Tests.candRec : CandRec := ⟨op8 0, 128, 128, ⟨1, 0x3000⟩, 1, 128, op8 0x10000, ⟨2, 0x20000⟩⟩

/-- A head of array 0 with the mod byte 0x10: cap 2, FP32 runs. -/
def Tests.k2 (st : Stream) : Head := ⟨0, st, 0x10, 0, 0⟩

theorem test_witness_ProductIssue_mmf :
    runM.issuesClean (k2 .f) (runM.prodInfo (k2 .f) bodyP (runM.mmArgs .mmf 0x20 (k2 .f) bodyP prodRec)
      (if bodyP.fused || !prodRec.sr then [] else [prodRec.idxReg.toNat, prodRec.seedReg.toNat])) 0 :=
  issuesClean_of_meets (by decide +kernel)
theorem test_witness_ProductIssue_mmt :
    runM.issuesClean (k2 .b) (runM.prodInfo (k2 .b) bodyP (runM.mmArgs .mmt 0x21 (k2 .b) bodyP prodRec)
      (if bodyP.fused || !prodRec.sr then [] else [prodRec.idxReg.toNat, prodRec.seedReg.toNat])) 8 :=
  issuesClean_of_meets (by decide +kernel)
theorem test_witness_ProductIssue_mmg : runM.issuesClean (k2 .b) (runM.prodInfo (k2 .b) bodyP (runM.mmgArgs (k2 .b) mmgRec) []) 8 :=
  issuesClean_of_meets (by decide +kernel)
theorem test_witness_ProductIssue_cand : runM.issuesClean (k2 .b) (runM.candInfo (k2 .b) bodyP candRec) 8 := issuesClean_of_meets (by decide +kernel)
theorem test_mmf_owns_its_units : (((after (.mmf (k2 .f) bodyP prodRec) runM).arr 0).ops.map (·.units)) = [[0, 1]] ∧
    tswOwner (((after (.mmf (k2 .f) bodyP prodRec) runM).arr 0).tswAt 1) = 0 ∧
    tswOwner (((after (.mmf (k2 .f) bodyP prodRec) runM).arr 0).tswAt 2) = 0xFF := by decide +kernel

/-- A product of a kind with a plan, pending totals and entries to add. -/
def Tests.prod (k : ProdKind) (plan : List Seg) (finals : List FinalTotals) (left : List Nat) : Product :=
  { kind := k, nSets := 1, nCols := 1, rho := 1, run := 0, runLen := 32, cap := 2, q := 1, xAddr := 0x100000000000, xStride := 128,
    xFmt := Fmt.e4m3.code, xAxis := false, yAddr := 0x100000010000, yStride := 128, yFmt := Fmt.e4m3.code, yAxis := false, dir := 0x100000,
    pay := 0x102000, wFmt := Fmt.e4m3.code, r0 := 0, j0 := 0, j1 := 0, m := 128, accBase := 0, dw32 := false, accInit := false, fused := false,
    first := false, grad := 0x110000000000, frz := none, out := 0x100000010000, outFmt := Fmt.e4m3.code, outStride := 128, outAxis := false,
    sr := false, idxBase := 0, idxPitch := 0, seed := 0, cands := [], plan := plan, cells := if k == .cand then [] else [[]], held := if k == .mmg then [[]] else [], pos := [], runs := [],
    setNo := 0, finals := finals, tilesOut := 0, addLeft := left, preAt := 0, segAt := 0, waited := [] }

/-- An operation of the B stream in slot 8. -/
def Tests.opB (opcode : Nat) (b : OpBody) : Op := ⟨8, .b, opcode, 0, 0, 0, 0, 0xFFFF, 0, none, none, 0, [0, 1], [], 0, false, b⟩

/-- A plan of one segment. -/
def Tests.seg1 : Seg := ⟨0, 0, 0, 0, true, true, false⟩

/-- `runM` at cycle 100,000 with an operation in slot 8 of array 0. -/
def Tests.runOp (o : Op) : State :=
  { (runM.modArr 0 fun a => { a with ops := [o] }) with thy := { Thyme.reset with cycle := 100000 } }

theorem test_witness_ProductPhases_preload :
    (runOp (opB 0x21 (.prod { prod .mmt [seg1] [] [] with cells := [] }))).op? 0 8 = some (opB 0x21 (.prod { prod .mmt [seg1] [] [] with cells := [] })) ∧
    ({ prod .mmt [seg1] [] [] with cells := [] } : Product).nextPre = some seg1 ∧
    ({ prod .mmt [seg1] [] [] with cells := [] } : Product).preTiles runM.mem seg1 = [] ∧
    (∀ k ∈ [ProdKind.mmf, .mmg], ({ prod k [seg1] [] [] with cells := [] } : Product).preAt ≤ 100000 ∧
      runM.preloadWait { prod k [seg1] [] [] with cells := [] } seg1 = none ∧
      runM.eccRanges (({ prod k [seg1] [] [] with cells := [] } : Product).preRanges runM.mem seg1) 0 = none) ∧
    (prod .cand [seg1] [] []).nextPre = some seg1 := by decide +kernel
theorem test_witness_ProductPhases_segment : (prod .mmt [seg1] [] []).segReady runM.mem 100000 seg1 = true ∧
    (prod .mmg [seg1] [] []).segReady runM.mem 100000 seg1 = true ∧ (prod .cand [seg1] [] []).segReady runM.mem 100000 seg1 = true ∧
    run.eccRanges ((prod .mmt [seg1] [] []).segReads 0 seg1) 0 = none ∧ (prod .mmt [seg1] [] []).plan = seg1 :: [] ∧
    (runOp (opB 0x21 (.prod (prod .mmt [seg1] [] [])))).op? 0 8 = some (opB 0x21 (.prod (prod .mmt [seg1] [] []))) := by decide +kernel
theorem test_witness_ProductPhases_segments : ({ seg1 with last := false } : Seg).last = false ∧
    (prod .mmt [{ seg1 with last := false }, seg1] [] []).segReady runM.mem 100000 { seg1 with last := false } = true ∧
    (∀ y ∈ [seg1].head?, y.empty = false) ∧ (prod .mmt [seg1] [] []).missingUnits 0 0 = [] := by decide +kernel
theorem test_witness_ProductPhases_totals : (prod .mmt [] [⟨100000, 0, 0, []⟩] []).finals = ⟨100000, 0, 0, []⟩ :: [] ∧
    (runOp (opB 0x23 (.prod (prod .cand [] [⟨100000, 0, 0, []⟩] [])))).lacking 0
      (spans ((prod .cand [] [⟨100000, 0, 0, []⟩] []).candWrites ((runOp (opB 0x23 (.prod (prod .cand [] [⟨100000, 0, 0, []⟩] [])))).arr 0))) = [] ∧
    (runOp (opB 0x23 (.prod (prod .cand [] [⟨100000, 0, 0, []⟩] [])))).cycle = 100000 ∧
    (∀ k ∈ [ProdKind.mmf, .mmg, .cand], run.eccRanges ((prod k [] [⟨100000, 0, 0, []⟩] []).totalReads 0 ⟨100000, 0, 0, []⟩) 0 = none) := by decide +kernel
/-- A finished gradient product: entry 0 still to be added. -/
def Tests.adding : State := (runOp (opB 0x22 (.prod (prod .mmg [] [] [0])))).modArr 0 fun a => { a with gbWaiting := [⟨8, 0, [], 0⟩] }
theorem test_witness_ProductPhases_addition : (adding.arr 0).addingMmg = some (opB 0x22 (.prod (prod .mmg [] [] [0])), prod .mmg [] [] [0]) ∧
    (adding.arr 0).gbWaiting.find? (fun x => x.slot == 8 && x.entry == 0) = some ⟨8, 0, [], 0⟩ ∧
    max (0 + adding.lat 0x04) (adding.arr 0).gbFree + 2 * (dirAt adding.mem 0x100000).capK ≤ adding.cycle ∧
    adding.earlierAdds 0 0 0x110000000000 (4096 * 2) = false ∧ adding.eccBad 0x110000000000 (4096 * 2) = none ∧
    adding.lacking 0 [(0x110000000000, 4096 * 2)] = [] ∧ (dirAt adding.mem 0x100000).capK = 2 := by decide +kernel
/-- The directory of `emptyDir` with its one tile present at the payload base, whose bytes are all zero. -/
def Tests.runBad : State :=
  { runOp (opB 0x21 (.prod { prod .mmt [seg1] [] [] with cells := [] })) with
    mem := memPut [] 0x100000 (({ emptyDir with present := 1 } : Dir).bytes ++ leBytes 4 0 ++ leBytes 4 1 ++ leBytes 8 0) }
theorem test_witness_ProductPhases_bad_tile :
    ({ prod .mmt [seg1] [] [] with cells := [] } : Product).preTiles runBad.mem seg1 = [⟨0, 0, 0, 0⟩] ∧
    ({ prod .mmt [seg1] [] [] with cells := [] } : Product).tileFault runBad.mem (opB 0x21 .uchk) ⟨0, 0, 0, 0⟩ ≠ none ∧
    runBad.preloadWait { prod .mmt [seg1] [] [] with cells := [] } seg1 = none := by decide +kernel

/-- A queued descriptor of a kind. -/
def Tests.desc (k : DmaKind) : Desc :=
  { kind := k, arr := 0, stream := .u, opcode := 0x44, pc := 0, mark := 0, due := 0, step := 0, late := false, seq := 5, misaligned := false,
    src := 0x100000, srcFmt := 0, srcKind := 0, srcAxis := false, srcZero := false, srcPay := 0x102000, dst := 0x100000000000, dstFmt := 0,
    dstKind := 0, dstAxis := false, dstZero := false, dstPay := 0x100000001000, mask := 0x101000, r0 := 0, r1 := 0, j0 := 0, j1 := 0,
    stride := 128, len := 64, positions := 0, vtag := 0, objs := [] }
/-- A codec lane at that tile, which a dense load writes. -/
def Tests.heldLane : Lane := ⟨{ desc .loadC with dst := 0x100000, dstPay := 0x102000 }, true, false, [⟨0, 0, 0, false, 0x104000, 0x102000⟩], 0, []⟩
/-- `runBad` with that lane in array 0. -/
def Tests.runHeld : State := runBad.modArr 0 fun a => { a with lane := some heldLane }
theorem test_witness_ProductPhases_held : runHeld.preloadWait { prod .mmg [seg1] [] [] with cells := [], held := [] } seg1 ≠ none ∧
    ({ prod .mmg [seg1] [] [] with cells := [], held := [] } : Product).nextPre = some seg1 := by decide +kernel

/-- A reduction of 128 elements a row. -/
def Tests.redRec : RedRec := ⟨op8 0, 128, 128, 5, 0, 128, false, 0, 0, op8 0x10000, ⟨2, 0, 0, false, false, 0x20000⟩, 0⟩
theorem test_witness_Reductions_issue : runM.issuesClean (at_ .f) (runM.redInfo (at_ .f) 0 bodyP redRec) 0 ∧
    runM.issuesClean (at_ .f) (runM.redInfo (at_ .f) 1 bodyP redRec) 0 ∧
    runM.issuesClean (at_ .u) (runM.redInfo (at_ .u) 2 { bodyP with emit := true } { redRec with outStride := 512 }) 16 ∧ (runM.arr 0).tsw.length = 64 :=
  ⟨issuesClean_of_meets (by decide +kernel), issuesClean_of_meets (by decide +kernel), issuesClean_of_meets (by decide +kernel), by decide⟩
/-- The reduction in flight. -/
def Tests.redOp (emit : Bool) : RedOp := runM.mkRed (at_ .b) 1 { bodyP with emit := emit } redRec
theorem test_witness_Reductions_retire : (runOp (opB 0x29 (.red (redOp false)))).op? 0 8 = some (opB 0x29 (.red (redOp false))) ∧
    (redOp false).emit = false ∧ (redOp true).emit = true ∧ ((runOp (opB 0x29 (.red (redOp true)))).arr 0).waiting.any (fun q => q.op == 0) = false ∧
    run.eccRanges ((redOp true).reads 0 [0, 1]) 0 = none := by decide +kernel
/-- R107's order: the higher value, then the lower index. -/
theorem test_reduction_order : redBetter 1 (0x40E80000#32, 6200) (0x40E80000#32, 1019) = (0x40E80000#32, 1019) ∧
    redBetter 2 (0x40E80000#32, 3) (0xC0E80000#32, 9) = (0xC0E80000#32, 9) ∧
    redBetter 1 (0xBF800000#32, 2) (0x3F800000#32, 8) = (0x3F800000#32, 8) := by decide +kernel

/-- A 128 × 128 vector instruction in BF16 on the scratchpad. -/
def Tests.vecRec : VecRec :=
  ⟨⟨2, 2, 0, false, false, 0⟩, 256, ⟨2, 2, 0, false, false, 0x8000⟩, 256, ⟨2, 2, 0, false, false, 0x10000⟩, 256, ⟨2, 2, 0, false, false, 0x18000⟩, 256,
   128, 128, 3, false, false, 0, 0, 0⟩
/-- `runM` with both halves of table 3 of array 0 loaded. -/
def Tests.runT : State := runM.modArr 0 fun a => { a with tables := a.tables.set 3 ⟨some ⟨0, 0, 16, 0, f32one, 0, 0, 0, 0, []⟩, some ⟨0, 0, 16, 0, f32one, 0, 0, 0, 0, []⟩⟩ }
theorem test_witness_VectorAndTableIssue : runM.issuesClean (at_ .f) (runM.vecInfo (at_ .f) 0x30 bodyP vecRec) 0 ∧
    runM.issuesClean (at_ .b) (runM.vecInfo (at_ .b) 0x33 bodyP vecRec) 8 ∧ runM.issuesClean (at_ .u) (runM.vecInfo (at_ .u) 0x38 bodyP vecRec) 16 :=
  ⟨issuesClean_of_meets (by decide +kernel), issuesClean_of_meets (by decide +kernel), issuesClean_of_meets (by decide +kernel)⟩
theorem test_witness_VectorAndTableIssue_tables : runT.issuesClean (at_ .f) (runT.vecInfo (at_ .f) 0x39 bodyP vecRec) 0 ∧
    runT.issuesClean (at_ .b) (runT.vecInfo (at_ .b) 0x3A bodyP vecRec) 8 :=
  ⟨issuesClean_of_meets (by decide +kernel), issuesClean_of_meets (by decide +kernel)⟩
theorem test_vsub_is_a_minus_b : (vecElem 0x31 none 0x40400000#32 0x3F800000#32 0).1 = 0x40000000#32 ∧
    (vecElem 0x33 none 0x40400000#32 0x40000000#32 0x3F800000#32).1 = 0x40E00000#32 ∧
    (vecElem 0x35 none 0x40400000#32 0xBF800000#32 0).1 = 0xBF800000#32 ∧ (vecElem 0x36 none 0xC0400000#32 0 0).1 = 0x40400000#32 := by decide +kernel
/-- A table image of 16 segments over [0, 16), all coefficients zero but a_lo = 1.0. -/
def Tests.image : List Byte := leBytes 4 0x01000010 ++ leBytes 4 0 ++ leBytes 4 0x3F800000 ++ leBytes 4 0x3F800000
/-- `runM` with that image in the scratchpad slice. -/
def Tests.runI : State := { runM with mem := memPut runM.mem 0x100000008000 image }
theorem test_witness_VectorAndTableIssue_vtload : runI.clear (at_ .f) [] = true ∧ (runI.arr 0).freeSlot .f = some 0 ∧
    (∀ o ∈ (runI.arr 0).ops, o.table ≠ some 3) ∧ runI.vtloadCheck (at_ .f) false 3 (runI.tableAddr (at_ .f) ⟨2, 0x400⟩) = none := by decide +kernel
theorem test_witness_VectorAndTableIssue_retire :
    (runOp ⟨8, .b, 0x3F, 0, 0, 0, 0, 0xFFFF, 0, none, some 15, 0, [], [], 0, false, .vtload false 15 0x108000 []⟩).op? 0 8 =
      some ⟨8, .b, 0x3F, 0, 0, 0, 0, 0xFFFF, 0, none, some 15, 0, [], [], 0, false, .vtload false 15 0x108000 []⟩ ∧ 15 < (runM.arr 0).tables.length := by decide +kernel
/-- A forward load clears the derivative half (R181). -/
theorem test_forward_load_clears_derivative : ((runT.arr 0).tables.getD 3 ⟨none, none⟩).load false none = ⟨none, none⟩ := by decide

/-- A queue entry to be drained to the scratchpad. -/
def Tests.entry : QEntry :=
  ⟨.b, 8, 0, false, false, [], tswReset, 0x100000000000, 2, 256, false, false, 0, 0, 0, 0, 0, true, false, 0, 0⟩
/-- Array 0 with entries waiting and queued, and a pass that is reading. -/
def Tests.queues (w q : List QEntry) (p : Option Pass) (l : List Landing) (n : Nat) : State :=
  { (runM.modArr 0 fun a => { a with waiting := w, queue := q, pass := p, landings := l, fullCycles := n }) with thy := { Thyme.reset with cycle := 100000 } }
theorem test_witness_DrainsAndPasses_entry : ((queues [entry] (List.replicate 7 entry) none [] 0).arr 0).waiting = entry :: [] ∧
    ((queues [entry] (List.replicate 7 entry) none [] 0).arr 0).queue.length < 8 ∧
    ((queues [entry] (List.replicate 7 entry) none [] 0).arr 0).xferAt ≤ (queues [entry] [] none [] 0).cycle := by decide
theorem test_witness_DrainsAndPasses_start : ((queues [] [entry] none [] 0).arr 0).pass = none ∧
    earliestPass (((queues [] [entry] none [] 0).arr 0).readyPasses.filter (fun c => c.at_ ≤ 100000)) = some (.drain 0 entry) := by decide +kernel
/-- A vector instruction in flight with one pass left. -/
def Tests.vecOp : VecOp :=
  ⟨0x30, ⟨0, 0x100000000000, 2, 256, false, false, 0⟩, ⟨0, 0x100000008000, 2, 256, false, false, 0⟩, ⟨0, 0, 0, 0, false, false, 0⟩,
   ⟨0, 0x100000018000, 2, 256, false, false, 0⟩, 128, 128, 0, false, false, 0, 0, 0, 0, 0, 0⟩
theorem test_witness_DrainsAndPasses_pass :
    earliestPass (((runOp (opB 0x30 (.vec vecOp))).arr 0).readyPasses.filter (fun c => c.at_ ≤ 100000)) = some (.op 0 (opB 0x30 (.vec vecOp)) vecOp) ∧
    run.eccRanges (vecOp.sources.flatMap (fun x => x.ranges (vecOp.tile vecOp.started).1 (vecOp.tile vecOp.started).2)) = none := by decide +kernel
/-- A pass that has read its source. -/
def Tests.reading : Pass := ⟨true, 8, 0, true, true, [(0x100000000000, [1])], 99990, 100000, 0, 0, 8, 0, 0⟩
theorem test_witness_DrainsAndPasses_read : ((queues [] [entry] (some reading) [] 0).arr 0).pass = some reading ∧ reading.endAt ≤ (queues [] [] none [] 0).cycle := by decide
theorem test_witness_DrainsAndPasses_contend : ((queues [] [entry] (some reading) [] 0).arr 0).pass = some reading ∧
    ((queues [] [entry] (some reading) [] 0).arr 0).quiet = false := by decide +kernel
theorem test_pass_read_end : ((after (.passReadEnd 0) (queues [] [entry] (some reading) [] 0)).arr 0).queue = [] ∧
    ((after (.passReadEnd 0) (queues [] [entry] (some reading) [] 0)).arr 0).landings = [⟨true, 8, true, [(0x100000000000, [1])], 99998, 100008, 0, 0, 0⟩] := by decide +kernel
/-- A write on its way. -/
def Tests.landing (d : Bool) : Landing := ⟨d, 8, true, [(0x100000000000, [1])], 99990, 100000, 0, 0, 0⟩
theorem test_witness_DrainsAndPasses_land :
    ((queues [] [] none [landing false] 0).arr 0).landings.find? (fun x => !x.isDrain && x.slot == 8) = some (landing false) ∧
    ((queues [] [] none [landing true] 0).arr 0).landings.find? (fun x => x.isDrain) = some (landing true) ∧
    (queues [] [] none [] 0).lacking 0 (spans (landing true).writes) = [] ∧ (landing true).at_ ≤ (queues [] [] none [] 0).cycle := by decide +kernel
theorem test_drain_writes : (after (.drain 0) (queues [] [] none [landing true] 0)).get 0x100000000000 1 = [1#8] := by decide +kernel
theorem test_witness_DrainsAndPasses_overflow : ((queues [] (List.replicate 8 entry) none [] 4096).arr 0).queue.length = 8 ∧
    4096 ≤ ((queues [] (List.replicate 8 entry) none [] 4096).arr 0).fullCycles ∧ ((queues [] [] none [] 0).arr 0).overflowed = false ∧
    ((queues [] [] none [] 0).arr 0).stopped = false := by decide

/-! ### DMA, masks, update -/

/-- A descriptor record: copy of 64 bytes from the data region to the scratchpad slice. -/
def Tests.dmaRec : DmaRec := ⟨⟨1, 0, 0, false, false, 0⟩, ⟨0, 0⟩, ⟨2, 0, 0, false, false, 0⟩, ⟨0, 0⟩, ⟨0, 0⟩, 0, 0, 0, 0, 0, 64, 0, 0⟩
theorem test_witness_DmaWork_issue : runM.clear (at_ .u) [] = true ∧ runM.recordInside (at_ .u) ⟨0, 64⟩ 64 = true ∧
    (runM.arr 0).dmaqUsed .u < dmaqDepth ∧ (DmaKind.build true) = .build ((⟨0, .u, 1, 0, 0⟩ : Head).mod.getLsbD 0) ∧
    (DmaKind.build false) = .build ((at_ .u).mod.getLsbD 0) := by decide
theorem test_dbuild_range_bit : ((after (.dbuild ⟨0, .u, 1, 0, 0⟩ ⟨0, 64⟩ dmaRec) runM).arr 0).queueU.map (·.kind) = [.build true] ∧
    ((after (.dbuild (at_ .b) ⟨0, 64⟩ dmaRec) runM).arr 0).queueB.map (·.kind) = [.build false] := by decide +kernel
/-- Array 0 with a lane and a queue at cycle 100,000. -/
def Tests.laned (l : Option Lane) (q : List Desc) : State :=
  { (runM.modArr 0 fun a => { a with lane := l, queueU := q }) with thy := { Thyme.reset with cycle := 100000 } }
theorem test_witness_DmaWork_take : ((laned none [desc .copy]).arr 0).lane = none ∧ ((laned none [desc .copy]).arr 0).dmaq .u = desc .copy :: [] ∧
    (laned none [desc .copy]).dirHeld (desc .copy) = false := by decide +kernel
/-- A lane that reads the directory of its descriptor. -/
def Tests.fetching (k : DmaKind) : Lane := ⟨desc k, false, false, [], 0, []⟩
theorem test_witness_DmaWork_check : (laned (some (fetching .add)) []).descCheck (desc .add) ≠ none ∧
    (laned (some (fetching .copy)) []).descCheck (desc .copy) = none ∧ (DmaKind.copy).codec = false ∧
    ((laned (some (fetching .copy)) []).arr 0).lane = some (fetching .copy) ∧ (laned (some (fetching .copy)) []).dirHeld (desc .copy) = false := by decide +kernel
/-- A compressed load of the empty directory. -/
def Tests.loadDesc : Desc := { desc .loadC with srcFmt := Fmt.e4m3.code, dstFmt := Fmt.e4m3.code }
theorem test_witness_DmaWork_codec : (laned none []).descCheck loadDesc = none ∧ loadDesc.kind.codec = true ∧ loadDesc.laneTiles runM.mem = [] ∧
    run.eccBad (loadDesc.srcDir runM.mem).base (loadDesc.srcDir runM.mem).size = none ∧
    (laned none []).lacking 0 (spans (loadDesc.dirWrites runM.mem)) = [] := by decide +kernel
theorem test_witness_DmaWork_dirReads : (laned (some (fetching .loadC)) []).eccRanges (loadDesc.dirReads runM.mem) = none := by decide +kernel
/-- A lane at a tile of a dense load that is absent. -/
def Tests.tiling (rest : List LaneTile) : Lane := ⟨desc .loadC, true, false, ⟨0, 0, 0, false, 0x102000, 0x100000001000⟩ :: rest, 0, []⟩
theorem test_witness_DmaWork_tile : (tiling []).tiles = ⟨0, 0, 0, false, 0x102000, 0x100000001000⟩ :: [] ∧ (tiling []).fetched = true ∧
    (laned (some (tiling [])) []).eccRanges ((desc .loadC).tileReads runM.mem ⟨0, 0, 0, false, 0x102000, 0x100000001000⟩) = none ∧
    (laned (some (tiling [])) []).lacking 0 [(0x100000001000, ((laned (some (tiling [])) []).tileOut (desc .loadC) ⟨0, 0, 0, false, 0x102000, 0x100000001000⟩).1.length)] = [] := by decide +kernel
/-- A lane with its last write to do. -/
def Tests.ending (k : DmaKind) : Lane := ⟨desc k, true, false, [], 0, []⟩
theorem test_witness_DmaWork_complete : (∀ k ∈ [DmaKind.copy, .add, .fill, .loadC, .build true], ((laned (some (ending k)) []).arr 0).lane = some (ending k)) ∧
    (laned (some (ending .add)) []).earlierMmgs 0 5 0x100000000000 64 = false ∧ (laned (some (ending .add)) []).earlierAdds 0 5 0x100000000000 64 = false ∧
    run.eccRanges (desc .add).moveReads = none ∧ (laned (some (ending .copy)) []).lacking 0 ((desc .copy).lastSpans runM.mem) = [] ∧
    Memory.wf runM.mem ∧ (∀ y ∈ runM.tiers.staged, y.arriving) := by decide +kernel
theorem test_dcopy : (after (.descriptorComplete 0) (laned (some (ending .copy)) [])).get 0x100000000003 5 = [1#8, 1#8, 0#8, 1#8, 0#8] ∧
    runM.get 0x100003 5 = [1#8, 1#8, 0#8, 1#8, 0#8] := by decide +kernel
theorem test_dfill : (after (.descriptorComplete 0) (laned (some ⟨{ desc .fill with dst := 0x100000 }, true, false, [], 0, []⟩) [])).get 0x100000 8 = zeros 8 := by decide +kernel

/-- A weight over the empty mask directory: an owner with planes on the scratchpad, wc_0 ready with tag 0, wc_1 free. -/
def Tests.weight : Weight :=
  { partR0 := 0, partR1 := 0, owner := true, dw32 := false, stochastic := false, maskA := 0x101000, maskB := 0x101000, wc0 := 0x100000, wc1 := 0x100000,
    master := 0x100000020000, moment1 := 0x100000030000, moment2 := 0x100000040000, grad := 0x110000000000, extra := 0, seed := 0, ctrl := 0, st := .idle,
    gen0 := 1, gen := 1, gradGen := 1, curB := false, decision := none, pReq := 0, pDone := 0, gReq := 0, gDone := 0, nonfinite := false,
    v0 := ⟨.ready, 0, 1⟩, v1 := ⟨.free, 0, 0⟩ }
/-- `runM` at cycle 100,000 with weight 7 bound, and the mask engine's queue and running operation. -/
def Tests.masked (w : Weight) (q : List MaskOp) (r : Option (MaskOp × Nat × Bool)) : State :=
  { runM with mask := ⟨[(7, w)], q, r, []⟩, thy := { Thyme.reset with cycle := 100000 } }
/-- A queued mask operation of the U stream of array 0. -/
def Tests.mop (k : MaskKind) : MaskOp := ⟨k, 0, 0x52, 0, 0, 0, 0, false, 0, [], false⟩
theorem test_witness_MaskWork_issue : (masked weight [] none).clear (at_ .u) [5] = true ∧ (masked weight [] none).recordInside (at_ .u) ⟨0, 64⟩ 64 = true ∧
    (masked weight (List.replicate 15 (mop (.pruneG 7 2))) none).mask.queue.length + 0 < maskqDepth := by decide +kernel
theorem test_prune_with_decision_bit : (after (.pruneL ⟨0, .u, 1, 0, 0⟩ 7 2 9) (masked weight [] none)).mask.queue.map (·.kind) = [.pruneL 7 2 none] ∧
    (after (.pruneL (at_ .u) 7 2 9) (masked weight [] none)).mask.queue.map (·.kind) = [.pruneL 7 2 (some 9)] := by decide +kernel
theorem test_witness_MaskWork_start : ((masked weight [mop (.pruneG 7 17)] none).maskCheck (mop (.pruneG 7 17))).isSome = true ∧
    (masked weight [mop (.pruneG 7 16)] none).maskCheck (mop (.pruneG 7 16)) = none ∧ (masked weight [mop (.pruneG 7 16)] none).opens (.pruneG 7 16) = true ∧
    (masked weight [mop (.pruneG 7 16)] none).weight? 7 = some weight ∧
    (masked weight [mop (.pruneG 7 16)] none).lacking 0 (spans (weight.openWrites runM.mem)) = [] ∧
    (masked { weight with st := .open_ } [mop (.regrowR 7 3 (some 1))] none).maskCheck (mop (.regrowR 7 3 (some 1))) = none ∧
    (masked { weight with st := .open_ } [mop (.regrowR 7 3 (some 1))] none).opens (.regrowR 7 3 (some 1)) = false ∧
    (masked { weight with st := .open_, v1 := ⟨.writing, 1, 1⟩ } [mop (.commit 7 1)] none).maskCheck (mop (.commit 7 1)) = none ∧
    (masked { weight with st := .open_, v1 := ⟨.ready, 1, 1⟩ } [] none).commitReady 7 1 = true ∧
    (masked { weight with st := .open_, v1 := ⟨.writing, 1, 1⟩ } [] none).commitReady 7 1 = false ∧ (masked weight [] none).commitLost 7 = false := by decide +kernel
theorem test_witness_MaskWork_complete : (masked weight [] (some (mop (.pruneG 7 16), 5, false))).mask.running = some (mop (.pruneG 7 16), 5, false) ∧
    (∀ k ∈ [MaskKind.bind 0x100000, .mdec 7 0 0, .pruneG 7 16, .pruneL 7 2 none, .regrowM 7 0x103000 0 (some 1), .regrowR 7 3 (some 1), .commit 7 0, .adopt 7 0],
      (masked weight [] (some (mop k, 5, false))).eccRanges ((masked weight [] (some (mop k, 5, false))).maskReads k) = none ∧
      (masked weight [] (some (mop k, 5, false))).maskHeld ((masked weight [] (some (mop k, 5, false))).maskReads k)
        (spans ((masked weight [] (some (mop k, 5, false))).maskResult (mop k)).writes) = false ∧
      (masked weight [] (some (mop k, 5, false))).lacking 0 (spans ((masked weight [] (some (mop k, 5, false))).maskResult (mop k)).writes) = []) := by decide +kernel
theorem test_witness_MaskWork_merges : (masked weight [] (some (mop (.pruneG 7 16), 5, false))).mergeBad
    (spans ((masked weight [] (some (mop (.pruneG 7 16), 5, false))).maskResult (mop (.pruneG 7 16))).writes) = none := by decide +kernel

theorem test_witness_UpdateIssue_frees : (masked weight [] none).clear (at_ .u) [] = true ∧ ((masked weight [] none).arr 0).freeSlot .u = some 16 ∧
    ((masked weight [] none).arr 0).finIssued = false ∧ ((masked weight [] none).arr 0).lost.any Op.isUnrm = false ∧ weight.closed = false ∧ (masked { weight with v1 := ⟨.writing, 1, 1⟩ } [] none).weight? 7 = some { weight with v1 := ⟨.writing, 1, 1⟩ } ∧
    (({ weight with v1 := ⟨.writing, 1, 1⟩ } : Weight).bufWith .writing (nextTag 0)).isSome = true := by decide +kernel
/-- An optimiser descriptor with one schedule point. -/
def Tests.optBytes : List Byte :=
  [0#8, 0#8] ++ leBytes 2 1 ++ leBytes 4 0x3F000000 ++ leBytes 4 0x3F000000 ++ leBytes 4 0x3F000000 ++ leBytes 4 0x3F000000 ++ leBytes 4 0x3F800000
/-- `masked` with a mask directory that has one tile, and that descriptor at 0x103000. -/
def Tests.updating (w : Weight) : State :=
  { (masked w [] none) with
    mem := memPut (memPut runM.mem 0x101000 (({ emptyMask with present := 1 } : Dir).bytes ++ leBytes 4 0 ++ leBytes 4 1)) 0x103000 optBytes
    arrays := (masked w [] none).arrays.modify 0 (fun a => { a with u := { a.u with uchkStep := some 0 } }) }
theorem test_witness_UpdateIssue_checks : (updating weight).unrmCheck (at_ .u) 7 0 0 none = none ∧
    (updating { weight with v1 := ⟨.writing, 1, 1⟩ }).updCheck (at_ .u) 7 0 0 0x103000 none = none ∧
    (updating weight).clear (at_ .u) [] = true ∧ (updating weight).recordInside (at_ .u) ⟨0, 64⟩ 64 = true := by decide +kernel
/-- A lane at work on the tile of `updating`'s mask. -/
def Tests.maskLane : Lane := ⟨{ desc .loadC with dst := 0x101000, dstPay := 0 }, true, false, [⟨0, 0, 0, false, 0x104000, 0x101040⟩], 0, []⟩
theorem test_witness_MaskWork_opens : (let s := updating weight;
    s.weight? 7 = some weight ∧ s.maskCheck (mop (.pruneG 7 16)) = none ∧ s.opens (.pruneG 7 16) = true ∧ s.eccRanges (weight.openReads s.mem) = none ∧
      s.maskHeld (weight.openReads s.mem) (spans (weight.openWrites s.mem)) = false ∧ s.mergeBad (spans (weight.openWrites s.mem)) = none ∧
      s.lacking 0 (spans (weight.openWrites s.mem)) = [] ∧
      (let l := (updating weight).modArr 0 fun a => { a with lane := some maskLane };
        l.maskHeld (weight.openReads l.mem) (spans (weight.openWrites l.mem)) = true) ∧
      (let b : State := { updating weight with tiers := { (updating weight).tiers with bad := [0x202] } };
        b.maskHeld (weight.openReads b.mem) (spans (weight.openWrites b.mem)) = false ∧
          (b.eccRanges (weight.openReads b.mem)).isSome = true)) := by decide +kernel
theorem test_witness_Versions_open : (masked weight [] none).uverOpenCheck (at_ .u) 7 1 = none ∧ weight.choose (BitVec.ofNat 32 0) = some true ∧
    (weight.buf true).st ≠ .ready ∧
    (masked { weight with v0 := ⟨.ready, 1, 1⟩, v1 := ⟨.ready, 0, 1⟩ } [] none).uverOpenCheck (at_ .u) 7 1 ≠ none ∧
    ({ weight with v0 := ⟨.ready, 0, 1⟩, v1 := ⟨.ready, 0xFFFFFFFF, 1⟩ } : Weight).choose (BitVec.ofNat 32 1) = some false := by decide +kernel

/-- Weight 7 with two ready buffers in step 5; a product of the B stream still names the older version. -/
def Tests.waiting : State :=
  (masked { weight with v0 := ⟨.ready, 5, 1⟩, v1 := ⟨.ready, 4, 1⟩ } [] none).modArr 0 fun a =>
    { a with u := { a.u with step := 5 }, ops := [{ opB 0x21 (.prod (prod .mmt [] [] [])) with wt := 7, ver := 4 }] }
theorem test_witness_Versions_wait : waiting.clear (at_ .u) [] = true ∧ (waiting.arr 0).freeSlot .u = some 16 ∧
    waiting.uverOpenCheck (at_ .u) 7 6 = none ∧
    ({ weight with v0 := ⟨.ready, 5, 1⟩, v1 := ⟨.ready, 4, 1⟩ } : Weight).choose (BitVec.ofNat 32 (waiting.ctx 0 .u).curStep) = some true ∧
    waiting.namesVersion 7 4 = true ∧ waiting.namesVersion 7 5 = false := by decide +kernel
/-- An operation of the U stream of array 0 in slot 16. -/
def Tests.opU (opcode : Nat) (b : OpBody) : Op := ⟨16, .u, opcode, 0, 0, 0, 0, 7, 0, none, none, 0, [], [], 0, false, b⟩
/-- `updating` with operations of the U stream, deferred tiles, a current tile and the verdict known or not. -/
def Tests.working (w : Weight) (ops : List Op) (d : List Deferred) (cur : Option UpdCur) (v : Bool) : State :=
  (updating w).modArr 0 fun a => { a with ops := ops, deferred := d, updCur := cur, verdictDone := v }
/-- An update of entry 0 of weight 7, `next` tiles taken. -/
def Tests.updOp (next pending : Nat) : Op := opU 0x64 (.upd 7 0 0 next 0x103000 none pending)
/-- Weight 7 while it is written under tag 1. -/
def Tests.writing : Weight := { weight with v1 := ⟨.writing, 1, 1⟩ }
/-- A tile of an unstaged far-tier weight, deferred at tick 0, at tick 4,000,000,000. -/
def Tests.deferring : State :=
  { (working { writing with master := 0x200000 } [updOp 1 1] [⟨0, 7, 0, 0, 0⟩] none true) with thy := { Thyme.reset with tick := 4000000000 } }
theorem test_witness_Versions_defer : deferring.overdueTile 0 = some ⟨0, 7, 0, 0, 0⟩ ∧ (deferring.arr 0).updOp 0 = some (updOp 1 1) := by decide +kernel
theorem test_witness_Versions_close : (working writing [opU 0x65 (.uverClose 7)] [] none false).op? 0 16 = some (opU 0x65 (.uverClose 7)) ∧
    ((working writing [opU 0x65 (.uverClose 7)] [] none false).arr 0).earlierUpd 7 0 = false ∧
    (working writing [] [] none false).weight? 7 = some writing ∧ writing.bufWith .writing (nextTag 0) = some true ∧
    ((working writing [opU 0x65 (.uverClose 7)] [] none false).arr 0).lost.any (fun x => x.updBefore 7 0) = false ∧
    [{ updOp 0 0 with seq := 4 }].any (fun x => x.updBefore 7 5) = true := by decide +kernel
theorem test_uver_close : ((after (.uverCloseRetire 0 16) (working writing [opU 0x65 (.uverClose 7)] [] none false)).weight? 7).map (·.v1.st) = some .ready := by decide +kernel
theorem test_witness_NormVerdictAndTiles_norm : (working weight [opU 0x60 (.unrm 7 0 0 none)] [] none false).op? 0 16 = some (opU 0x60 (.unrm 7 0 0 none)) ∧
    (working weight [] [] none false).eccRanges (weight.normReads (working weight [] [] none false).mem none 0 0) 0 = none ∧
    ((working weight [opU 0x60 (.unrm 7 0 0 none)] [] none false).arr 0).unrms.any (fun x => x.seq < 0) = false := by decide +kernel
/-- A check that waits, with the global norm of the step known. -/
def Tests.judging (v : Nat) : State :=
  { (working weight [opU 0x62 .uchk] [] none false) with
    ring := { Ring.reset with g2 := some ⟨0x40800000#32, 0⟩ }
    stp := { run.stp with verdict := v } }
theorem test_witness_NormVerdictAndTiles_verdict : (judging 0).op? 0 16 = some (opU 0x62 .uchk) ∧ (judging 0).ring.g2 = some ⟨0x40800000#32, 0⟩ ∧
    (judging 0).ring.g2At + (judging 0).lat 0x24 ≤ (judging 0).cycle ∧ (judging 1).stp.verdict = 1 ∧
    (evalNorm ⟨0x40800000#32, 0⟩ ((judging 0).reg Reg.UPD_CLIP) ((judging 0).reg Reg.UPD_ABSURD)).1 = 1 := by decide +kernel
theorem test_witness_NormVerdictAndTiles_suppress : (evalNorm ⟨0x7F800000#32, 0⟩ ((judging 0).reg Reg.UPD_CLIP) ((judging 0).reg Reg.UPD_ABSURD)).1 = 2 ∧
    (evalNorm ⟨0x41800000#32, 0⟩ 0 0x40000000#32).1 = 3 ∧ (judging 0).stp.verdict = 0 ∧ (judging 0).regsSorted ∧
    ((judging 0).regN Reg.UPD_CTRL).testBit 0 = false ∧ (((judging 0).setReg Reg.UPD_CTRL 3).regN Reg.UPD_CTRL).testBit 0 = true ∧
    ((judging 0).setReg Reg.UPD_CTRL 3).regsSorted := by decide +kernel
/-- R193: the clip factor is clip / norm where the norm passes the clip limit; a norm past the absurd limit or not finite suppresses. -/
theorem test_verdicts : evalNorm ⟨0x41800000#32, 0⟩ 0x3F800000#32 0x7F000000#32 = (1, 0x3E800000#32, 0x40800000#32) ∧
    evalNorm ⟨0x41800000#32, 0⟩ 0 0x40000000#32 = (3, 0x3F800000#32, 0x40800000#32) ∧
    (evalNorm ⟨0x7F800000#32, 0⟩ 0 0x40000000#32).1 = 2 := by decide +kernel
theorem test_witness_NormVerdictAndTiles_start : ((working writing [updOp 0 0] [] none false).arr 0).updCur = none ∧
    ((working writing [updOp 0 0] [] none false).arr 0).verdictDone = false ∧ (working writing [updOp 0 0] [] none true).stagedDeferred 0 = none ∧
    (working writing [updOp 0 0] [] none true).nextUpd 0 = some (updOp 0 0) ∧ (working writing [updOp 0 0] [] none true).stateReady 0 7 0 = true := by decide +kernel
theorem test_witness_NormVerdictAndTiles_tile : ((working writing [updOp 1 1] [] (some ⟨0, 7, 0, 100000⟩) true).arr 0).updCur = some ⟨0, 7, 0, 100000⟩ ∧
    (working writing [updOp 1 1] [] none true).cycle = 100000 ∧
    (((working writing [updOp 1 1] [] none true).tileResult 0 ⟨0, 7, 0, 100000⟩).any (fun x => x.1 == updOp 1 1)) = true ∧
    (working writing [updOp 1 1] [] none true).eccRanges ((working writing [updOp 1 1] [] none true).updReads ⟨0, 7, 0, 100000⟩ (updOp 1 1)) 0 = none ∧
    (∀ l, (working writing [updOp 1 1] [] none true).lacking 0 l = []) := ⟨by decide +kernel, by decide +kernel, by decide +kernel, by decide +kernel, fun _ => rfl⟩

/-! ### Work counters, Dill, background copies -/

theorem test_witness_WorkCounters_issue : run.clear (at_ .f) [5] = true ∧ run.wct.length = 16 ∧ (run.arr 0).freeSlot .f = some 0 ∧
    run.journaling = false ∧ (runC .b fun c => { c with recompute := some ⟨0, 4, 80, 0, 0⟩ }).clear (at_ .b) [5] = true := by decide
/-- A request of the F stream of array 0 with a tag. -/
def Tests.wcq (tag : Nat) : WcRequest := ⟨0, 0, .f, 0, 5, 10, tag, 0⟩
/-- Counter 3 at value 100, expecting tag 7, with requests and sets; requests that have waited long enough. -/
def Tests.counted (qs : List WcRequest) (log : List WcLog) (sets : List WcSetReq) : State :=
  { (runA fun a => { a with ops := [{ opU 0x90 (.wcreq 3 5) with slot := 0, stream := .f }] }) with
    wct := run.wct.set 3 ⟨100, 7, qs, [], log, sets, 0⟩, thy := { Thyme.reset with cycle := 100000 } }
theorem test_witness_WorkCounters_set : (counted [] [] [⟨5, 6, 100000⟩]).dueSet 3 = some ⟨5, 6, 100000⟩ := by decide
theorem test_witness_WorkCounters_request : (counted [wcq 7] [] []).dueSet 3 = none ∧ (counted [wcq 7] [] []).nextRequest 3 = some (wcq 7) ∧
    (wcq 7).at_ + (counted [] [] []).lat 0x28 ≤ (counted [] [] []).cycle ∧ (counted [] [] []).elastic 3 = false ∧
    (counted [wcq 6] [⟨6, 0, 90⟩] []).nextRequest 3 = some (wcq 6) ∧ (counted [wcq 8] [] []).nextRequest 3 = some (wcq 8) := by decide +kernel
theorem test_grant : ((after (.workCounterRequest 3) (counted [wcq 7] [] [])).ctx 0 .f).sreg 5 = 100#64 ∧
    ((after (.workCounterRequest 3) (counted [wcq 7] [] [])).counter 3).value = 110 ∧
    ((after (.workCounterRequest 3) (counted [wcq 6] [⟨6, 0, 90⟩] [])).ctx 0 .f).sreg 5 = 90#64 := by decide +kernel
/-- A DIG.H of 64 bytes of the data region, first and last, to the scratchpad. -/
def Tests.digHRec : DigHRec := ⟨⟨1, 0⟩, 64, ⟨2, 0⟩, ⟨0, 0⟩⟩
theorem test_witness_DillWork_issue : runM.issuesClean ⟨0, .f, 3, 0, 0⟩ (runM.digInfo ⟨0, .f, 3, 0, 0⟩ 0x98 ⟨0, 64⟩ (runM.digHCheck ⟨0, .f, 3, 0, 0⟩ digHRec)) 0 ∧
    runM.issuesClean (at_ .u) (runM.digInfo (at_ .u) 0x99 ⟨0, 64⟩ (runM.digProvCheck (at_ .u) ⟨⟨1, 0⟩, ⟨1, 32⟩, ⟨1, 64⟩, ⟨2, 0⟩⟩)) 16 :=
  ⟨issuesClean_of_meets (by decide +kernel), issuesClean_of_meets (by decide +kernel)⟩
/-- A digest operation in slot 8, waiting and being served. -/
def Tests.digOp : Op := opB 0x98 (.digH 0x100000 64 0x100000000000 none true true)
/-- `runOp digOp` with the Dill queue and engines. -/
def Tests.dilled (q : List DillReq) (e : List (Option (DillReq × Nat))) : State := { (runOp digOp) with dillQ := q, dill := e }
theorem test_witness_DillWork_start : (dilled [⟨0, 8, 0⟩] [some (⟨1, 0, 0⟩, 5), none, none, none]).dillQ = ⟨0, 8, 0⟩ :: [] ∧
    (dilled [] []).op? 0 8 = some digOp ∧ (dilled [] [some (⟨1, 0, 0⟩, 5), none, none, none]).dill[1]? = some none ∧
    (∀ j, j < 1 → ∃ x, (dilled [] [some (⟨1, 0, 0⟩, 5), none, none, none]).dill[j]? = some (some x)) :=
  ⟨by decide, by decide +kernel, by decide, fun j h => ⟨(⟨1, 0, 0⟩, 5), by rw [show j = 0 by omega]; rfl⟩⟩
theorem test_witness_DillWork_written : (dilled [] [none, some (⟨0, 8, 0⟩, 100000), none, none]).dill[1]? = some (some (⟨0, 8, 0⟩, 100000)) ∧
    run.eccRanges (digReads digOp.body) = none ∧
    (runC .b fun c => { c with recompute := some ⟨0, 4, 80, 0, 0⟩ }).recordInside (at_ .b) ⟨0, 64⟩ 64 = true ∧ (digOutput [] 0 digOp.body).isSome = true ∧ (dilled [] []).lacking 0 [(0x100000000000, 32)] = [] := by decide +kernel
theorem test_digest_of_zeros : ((digOutput [] 0 (.digH 0 64 32 none true true)).map (fun x => (x.1, x.2.take 4))) = some (32, [0xF5#8, 0xA5#8, 0xFD#8, 0x42#8]) := by decide +kernel

/-- A pairing descriptor with a journal in region 1 and an agreement record. -/
def Tests.pairDesc : PairDesc := ⟨true, true, 1, [], [], [], 0x104000⟩
/-- `runM` with a mirror engine. -/
def Tests.mirrored (g : Mirror → Mirror) : State := { runM with mir := g Mirror.reset }
theorem test_witness_BackgroundCopies_journal : (let s := mirrored fun m => { m with desc := some pairDesc, jrnWait := [(0x100000, 4)] }
    decide ((0x100000, 4) ∈ s.mir.jrnWait ∧ s.hasBlock 4 0x100000 = false ∧ s.journalUsed + journalEntry ≤ s.journalSize ∧
      s.eccBad 0x100000 2048 = none)) = true := by decide +kernel
theorem test_witness_BackgroundCopies_refill : (let s := mirrored fun m => { m with refillPtr := some 0x100000 }
    decide (s.mir.refillPtr = some 0x100000 ∧ s.mir.refillDone = false ∧ s.refillNext (0x1FF800 + max (s.refillBytes 0x1FF800) 1) = none ∧ s.eccBad 0x100000 (s.refillBytes 0x100000) = none ∧
      s.refillNext (0x100000 + max (s.refillBytes 0x100000) 1) = some 0x100800)) = true := by decide +kernel
theorem test_witness_BackgroundCopies_package : (5 + 1 < 2 ^ 24) ∧ run.moduleBlock 3 5 ∉ run.tiers.bad ∧ run.isFar (7 * 2048) = true ∧
    kvGet 0 run.tiers.pkgCe (run.channelOf (7 * 2048)) + 1 ≤ run.regN Reg.TIR_CE_LIMIT := by decide +kernel
theorem test_witness_BackgroundCopies_last : (let s : State := { run with tiers := { run.tiers with copy := some ⟨3, 3, 48, 2 ^ 24 - 1⟩ } };
    s.tiers.copy = some ⟨3, 3, 48, 2 ^ 24 - 1⟩ ∧ s.tiers.copyWaiting = [] ∧ s.corrected [(2048 * s.moduleBlock 3 (2 ^ 24 - 1), 2048)] = s ∧ s.regsSorted) := by decide +kernel

/-! ### Context store, placement, messages -/

/-- A context store at 0x300000 with one sequence of one block for 64 arrays, and its region; other memory as in `runM`. -/
def Tests.store : State :=
  { runM with
    tiers := { runM.tiers with regions := runM.tiers.regions ++ [⟨0x300000, 0x100000, 3, 31, 7, 0⟩] }
    mem := memPut runM.mem 0x300000 (leBytes 4 1 ++ leBytes 4 1 ++ zeros 56 ++
      leBytes 4 9 ++ leBytes 2 1 ++ leBytes 2 64 ++ leBytes 4 32 ++ leBytes 4 32 ++ leBytes 4 128 ++ leBytes 4 4 ++ leBytes 8 0x301000 ++
      leBytes 8 0 ++ leBytes 4 0 ++ leBytes 4 0x10000 ++ zeros 16) }
/-- An append of 128 time steps to block 0 of sequence 0. -/
def Tests.ctxRec : CtxRec := ⟨⟨0, 0x300000⟩, 0, 0, ⟨2, 2, 0, false, false, 0⟩, 64, 128⟩
theorem test_witness_ContextStore_append :
    store.issuesClean (at_ .f) (store.ctxInfo (at_ .f) 0x70 ⟨0, 64⟩ (11 ≤ ctxRec.src.format.toNat) (store.ctxCheck (at_ .f) ctxRec (some ctxRec.block.toNat) ++ [failIf (store.appendRange (at_ .f) ctxRec) 0x10 4])) 0 :=
  issuesClean_of_meets (by decide +kernel)
theorem test_witness_ContextStore_adv : store.issuesClean (at_ .f) (store.ctxAdvInfo (at_ .f) ⟨0, 64⟩ ctxRec) 0 ∧
    (store.ctxSeq (at_ .f) ctxRec).mirror = false ∧ (store.arr 0).earlierAppend .f (store.ctxSeq (at_ .f) ctxRec).at_ (store.arr 0).issueSeq = false :=
  ⟨issuesClean_of_meets (by decide +kernel), by decide +kernel, by decide +kernel⟩
theorem test_append_places : (after (.ctxAppend (at_ .f) ⟨0, 64⟩ ctxRec) store).arrays.map (fun a => a.ops.length) = 1 :: List.replicate 63 0 := by decide +kernel
/-- `store` with the B stream inside a recompute. -/
def Tests.storeR : State := store.modCtx 0 .b fun c => { c with recompute := some ⟨0, 4, 80, 0, 0⟩ }
theorem test_witness_ContextStore_recompute : storeR.issuesClean (at_ .b) (storeR.ctxInfo (at_ .b) 0x70 ⟨0, 64⟩ (11 ≤ ctxRec.src.format.toNat)
      (storeR.ctxCheck (at_ .b) ctxRec (some ctxRec.block.toNat) ++ [failIf (storeR.appendRange (at_ .b) ctxRec) 0x10 4])) 0 ∧
    storeR.issuesClean (at_ .b) (storeR.ctxAdvInfo (at_ .b) ⟨0, 64⟩ ctxRec) 0 ∧ (storeR.ctx 0 .b).recompute.isSome :=
  ⟨issuesClean_of_meets (by decide +kernel), issuesClean_of_meets (by decide +kernel), by decide +kernel⟩
/-- An append of 128 steps in slot 0 of array 0. -/
def Tests.appendOp : Op := { opB 0x70 (.ctxAppend 0x300040 0 0 0x100000000000 64 128) with slot := 0, stream := .f }
/-- `store` at cycle 100,000 with it in flight. -/
def Tests.appending : State := { (store.modArr 0 fun a => { a with ops := [appendOp], issueSeq := 1 }) with thy := { Thyme.reset with cycle := 100000 } }
theorem test_witness_ContextStore_retire : appending.op? 0 0 = some appendOp ∧
    appending.eccBad 0x100000000000 (appendSpan (seqAt appending.mem 0x300040) 64 128) = none ∧ (seqAt appending.mem 0x300040).mirror = false ∧
    (∀ l, appending.lacking 0 l = []) ∧ (∀ o ∈ (appending.arr 0).ops, ∀ e k, o.body ≠ .ctxAdv e k false) ∧
    (appending.arr 0).earlierAppend .f 0x300040 (appending.arr 0).issueSeq = true :=
  ⟨by decide +kernel, by decide +kernel, by decide +kernel, fun _ => rfl,
    fun o h => by rw [List.mem_singleton.mp (show o ∈ [appendOp] from h)]; nofun, by decide +kernel⟩
theorem test_witness_ContextStore_adv_waits : appending.issuesClean (at_ .f) (appending.ctxAdvInfo (at_ .f) ⟨0, 64⟩ ctxRec) 1 ∧
    (appending.ctxSeq (at_ .f) ctxRec).at_ = 0x300040 := ⟨issuesClean_of_meets (by decide +kernel), by decide +kernel⟩
/-- An owner weight in the far tier: its first state tile is an object. -/
def Tests.farWeight : Weight := { weight with master := 0x200000, moment1 := 0x210000, moment2 := 0x220000 }
/-- A PSTAGE of that tile. -/
def Tests.pstageRec : PstageRec := ⟨⟨0, 0x200000⟩, 40⟩
theorem test_witness_Placement_hint : (updating farWeight).clear (at_ .u) [] = true ∧ (updating farWeight).recordInside (at_ .u) ⟨0, 64⟩ 64 = true ∧
    ((updating farWeight).objAt (((updating farWeight).ctx 0 .u).aref pstageRec.obj)).map (·.obj) = some (((updating farWeight).ctx 0 .u).aref pstageRec.obj) ∧
    (updating farWeight).objAt 0x100000 = none ∧ run.writeBackDirty.candidates = [] := by decide +kernel
/-- A window of array 0 in which the tile is arriving, and a head of its U stream that waits for it. -/
def Tests.staging : State :=
  { ((updating farWeight).modCtx 0 .u fun c => { c with head := some ⟨0x64, 0, 0, .staging, 0, 0, [(0x200000, 0)], false, [], [], 0⟩ }) with
    tiers := { run.tiers with
      regions := run.tiers.regions ++ [⟨0x100000100000, 0x20000, 7, 31, 7, 0⟩]
      staged := [⟨0x200000, 0, [0, 1, 2, 3, 4, 5], true, false⟩]
      requests := [⟨0x200000, 0⟩] }
    thy := { Thyme.reset with tick := 4000000000 } }
theorem test_witness_Placement_staging : staging.staged? 0 0x200000 = some ⟨0x200000, 0, [0, 1, 2, 3, 4, 5], true, false⟩ ∧
    (staging.objAt 0x200000).isSome = true ∧ run.eccRanges (((staging.objAt 0x200000).map (·.pieces)).getD []) = none ∧
    (staging.ctx 0 .u).head = some ⟨0x64, 0, 0, .staging, 0, 0, [(0x200000, 0)], false, [], [], 0⟩ ∧ staging.isStaged 0 0x200000 = false ∧
    0 + staging.regN Reg.TIR_STAGE_LIMIT ≤ staging.tick ∧ (staging.ctx 0 .u).failed = false ∧ staging.mayTimeOut = true := by decide +kernel

/-- A port that is up with credit. -/
def Tests.upPort : Port := { Port.reset with st := .up, seen := true, far := 0x100, lanes := 0xFFFF, credits := List.replicate 8 100 }
/-- A module of a ring of 4 × 4 at address 0 with every port up and contexts. -/
def Tests.linked (cs : List (Nat × CtxEntry)) : State :=
  { runM with
    ring := { Ring.reset with xn := 4, yn := 4, ports := List.replicate 5 upPort, ctxs := cs }
    thy := { Thyme.reset with cycle := 100000, period := 4000000000 } }
/-- A context with module 0x100 over port 0. -/
def Tests.ctxOf (st : CtxState) (rs : List Recv) (xs : List Send) : CtxEntry := ⟨st, 0x100, 9, 0, false, [], rs, xs, 0, 0, false⟩
/-- A message of 64 bytes at the data region on context 5. -/
def Tests.ringRec : RingRec := ⟨⟨1, 0, 0, false, false, 0⟩, 64, 5, 0, false, 7⟩
theorem test_witness_MessageIssue : (∀ st ∈ [CtxState.open_, .lost],
      meets (linked [(5, ctxOf st [] [])]) (at_ .f) ((linked [(5, ctxOf st [] [])]).ringInfo (at_ .f) ⟨0, 64⟩ ringRec false) 0 = true ∧
      meets (linked [(5, ctxOf st [] [])]) (at_ .f) ((linked [(5, ctxOf st [] [])]).ringInfo (at_ .f) ⟨0, 64⟩ ringRec true) 0 = true) ∧
    (runC .b fun c => { c with recompute := some ⟨0, 4, 80, 0, 0⟩ }).clear (at_ .b) [] = true ∧ run.recordInside (at_ .b) ⟨0, 64⟩ 64 = true := by decide +kernel
theorem test_witness_MessageIssue_format : ringBadFormat { ringRec with buf := { ringRec.buf with format := 11 } } = some 0 ∧ run.clear (at_ .f) [] = true ∧
    run.recordInside (at_ .f) ⟨0, 64⟩ 64 = true ∧ (at_ .f).mod = 0 ∧ ringBadFormat ringRec = none := by decide +kernel
theorem test_witness_LinkRejects : ((linked []).port 4).st = .up ∧ (0 : Nat) ≠ ({ upPort with rxSeq := 1 } : Port).rxSeq ∧ (frame 3).crcOk = true ∧
    ({ frame 3 with crcOk := false } : Frame).crcOk = false := by decide +kernel
/-- A receive of 64 bytes at 0x100100, armed. -/
def Tests.recv : Recv := ⟨0, .f, 0, 0, 0, 0, false, 7, 64, 0x100100, 0, false, 0, 0, [], [], true, 0, 0, []⟩
/-- A send of 64 bytes from 0x100000. -/
def Tests.send (sent : Bool) : Send := ⟨0, .f, 0, 0, 0, 0, false, 7, 64, 0x100000, 0, sent, 0, 0, []⟩
/-- A frame for context 5 of this module on port 0. -/
def Tests.frame5 (bs : List Byte) (ofs : Nat) : Frame := ⟨0, 0, 0, 0, true, 0, 0x100, 5, 9, 7, ofs, 64, bs⟩
theorem test_witness_DataFrames : (∀ n ∈ [32, 64], (linked [(5, ctxOf .open_ [recv] [])]).linkTakes (frame5 (zeros n) 0)) ∧
    (linked []).forMe (frame5 [] 0) ∧ (ctxOf .open_ [recv] []).current = some recv ∧
    (linked []).allowed (0x100100 + 32 * 0) 64 ringUser .write false = true ∧
    (linked [(5, ctxOf .open_ [recv] [])]).lacking ((linked [(5, ctxOf .open_ [recv] [])]).dataSpans (frame5 (zeros 64) 0)).1
      ((linked [(5, ctxOf .open_ [recv] [])]).dataSpans (frame5 (zeros 64) 0)).2 = [] ∧ Memory.wf (linked []).mem ∧ (linked []).mir.desc = none :=
  ⟨fun _ _ => ⟨(by decide : 0 < 5), rfl, rfl, rfl⟩, .inr (by decide +kernel), by decide +kernel, by decide +kernel, by decide +kernel,
    by decide +kernel, rfl⟩
/-- A paired module and a write that its twin forwards to 0x100000. -/
def Tests.paired : State := { linked [] with mir := { Mirror.reset with paired := true, twin := 0x103 } }
theorem test_witness_DataFrames_forwarded : (let f : Frame := { frame 4 with dstCtx := 0xFFFF, aux := 0x400000#32, offset := 0x8000, payload := zeros 64 };
    paired.linkTakes f ∧ paired.isForward f = true ∧ forwardAddr f = 0x100000 ∧ (∀ i ∈ [27, 28, 29, 30, 31], f.aux.getLsbD i = false) ∧
      paired.lacking (paired.dataSpans f).1 (paired.dataSpans f).2 = []) :=
  ⟨⟨by decide, by decide +kernel, rfl, by decide +kernel⟩, by decide +kernel⟩
theorem test_witness_DataFrames_refused : (let f : Frame := { frame 4 with dstCtx := 0xFFFF, aux := 0x400000#32, offset := 0x8000, payload := zeros 64 };
    let s : State := { paired with tiers := { paired.tiers with regions := [] } };
    s.isForward f = true ∧ f.dstCtx = forwardCtx ∧ s.allowed (forwardAddr f) (forwardBody f).length ringUser .write false = false ∧ s.regsSorted ∧
      s.lacking (s.dataSpans f).1 (s.dataSpans f).2 = []) := by decide +kernel
theorem test_data_lands : (after (.dataFrame (frame5 (List.replicate 32 9) 1)) (linked [(5, ctxOf .open_ [recv] [])])).get 0x10011F 3 = [0#8, 9#8, 9#8] ∧
    (((after (.dataFrame (frame5 (List.replicate 64 9) 0)) (linked [(5, ctxOf .open_ [recv] [])])).ctxE? 5).map (·.recvs)) = some [] := by decide +kernel
/-- An adding receive with an early unit. -/
def Tests.adder : Recv := { recv with add := true, buf := 0x110000000000, early := [(0, zeros 32)], held := [⟨0, 0, 0, 32⟩], got := 0 }
theorem test_witness_DataFrames_early : (linked [(5, ctxOf .open_ [adder] [])]).ctxE? 5 = some (ctxOf .open_ [adder] []) ∧
    (linked [(5, ctxOf .open_ [adder] [])]).readyUnit (ctxOf .open_ [adder] []) = some (adder, 0, zeros 32) ∧
    (linked []).eccBad (adder.buf + 0) (zeros 32).length = none ∧ adder.got + (zeros 32).length < adder.len ∧
    (linked []).allowed (adder.buf + 32 * 0) 32 ringUser .add false = true := by decide +kernel
theorem test_witness_DataFrames_behind : (let c := ctxOf .open_ [{ adder with early := [(0, zeros 32), (32, zeros 32)] }, { recv with seq := 9 }] [];
      let s := linked [(5, c)];
      s.ctxE? 5 = some c ∧ c.current = some { recv with seq := 9 } ∧ c.isFirst { recv with seq := 9 } = false ∧
        s.lacking (s.dataSpans (frame5 (zeros 32) 0)).1 (s.dataSpans (frame5 (zeros 32) 0)).2 = []) ∧
    (let c := ctxOf .open_ [{ recv with early := [(0, zeros 32)] }] [];
      (linked [(5, c)]).readyUnit c = some ({ recv with early := [(0, zeros 32)] }, 0, zeros 32)) ∧
    (ctxOf .open_ [recv] []).isFirst recv = true := by decide +kernel
theorem test_witness_ArmAndDone : (ctxOf .open_ [] [send true]).sends.find? (fun x => !x.sent) = none ∧
    (ctxOf .open_ [] [send false]).sends.find? (fun x => !x.sent) = some (send false) ∧ (send false).readyAt ≤ (linked []).cycle ∧
    (frame5 [] 0).tag.toNat = (send false).tag ∧ (frame5 [] 0).aux.toNat = (send false).len ∧ (linked []).eccBad 0x100000 64 = none ∧
    (ctxOf .open_ [] [send true]).sends.find? (fun x => x.sent) = some (send true) := by decide +kernel
theorem test_arm_sends_data : ((after (.armFrame (frame5 [] 0)) (linked [(5, ctxOf .open_ [] [send false])])).port 0).wire.map (fun w => (w.frame.typ, w.frame.payload.length)) =
    [(0, 64), (12, 0)] := by decide +kernel
theorem test_witness_ContextStates : (ctxOf .declared [] []).partner = (frame5 [] 0).src ∧ (ctxOf .declared [] []).partnerCtx = (frame5 [] 0).srcCtx ∧
    run.stp.started = true ∧ run.pendingIs 0x20 = false ∧ (linked []).ctxE? 5 = none ∧ (linked [(5, ctxOf .service [] [])]).ctxE? 5 = some (ctxOf .service [] []) ∧
    ((linked [(5, ctxOf .lost [] [])]).ring.ctxs.map (·.1)).Nodup ∧ (rebindPairs { frame5 [9, 0, 17, 0] 0 with aux := 1 }).find? (fun y => y.1 == (ctxOf .lost [] []).partnerCtx) = some (9, 17) ∧
    (0x1000102#32).toNat / 65536 = (ctxOf .lost [] []).partner ∧
    (ctxOf .open_ [recv] []).busy = true ∧ 0 + (linked []).regN Reg.RNG_CTX_TIMEOUT ≤ (linked []).period ∧
    0 + (linked []).regN Reg.RNG_OPEN_LIMIT ≤ (linked []).period := by decide +kernel
theorem test_witness_ContextStates_given_up : ({ ctxOf .open_ [] [] with overdue := true } : CtxEntry).overdue = true ∧
    (linked []).flt.stopped = false ∧ (let s : State := { linked [(5, ctxOf .open_ [recv] [])] with flt := { Faults.reset with stopped := true } };
      s.ctxE? 5 = some (ctxOf .open_ [recv] []) ∧ s.flt.stopped = true ∧ (ctxOf .open_ [recv] []).overdue = false ∧
        0 + s.regN Reg.RNG_CTX_TIMEOUT ≤ s.period) := by decide +kernel
/-- A merge entry about module 0x100. -/
def Tests.merge : Merge := ⟨0x100, 0x71, 1, 50, 0, some 100, 5, false⟩
theorem test_witness_NormAndBeacons : run.ring.g2 = none ∧ ({ run with ring := { run.ring with g2 := some DW.zero } } : State).ring.g2.isSome = true ∧
    (let s := { run with ring := { run.ring with domains := [0x100, 0] } };
      s.domainIdx = 1 ∧ (0#32).getLsbD 31 = false ∧ (0#32).toNat + 1 = s.domainIdx ∧ s.ring.normSent = false ∧ s.modulePartial = none) ∧
    [merge].find? (fun x => x.subject == (0x1007100#32).toNat / 65536 && x.cls == (0x1007100#32).toNat / 256 % 256) = some merge ∧
    merge.pendingAt = some 100 ∧ 100 ≤ (linked []).period := by decide +kernel

/-! ### Time, power, boot, links -/

theorem test_witness_PeriodBoundary : run.host.bootDone = true ∧ run.thy.cyc ≤ 256 ∧ 1 ≤ run.thy.lead ∧
    (let s := run.modThy fun t => { t with level := true, episodeFrozen := 64 };
      s.thy.level = true ∧ 64 ≤ s.thy.episodeFrozen ∧ s.thy.quiet = false) := by decide +kernel
theorem test_witness_PeriodBoundary_rest : run.atRest = true ∧ State.reset.host.bootDone = false ∧ run.thy.episodeFrozen < 64 ∧ run.regsSorted := by decide +kernel
/-- `run` with every U stream at its step boundary. -/
def Tests.atBoundary : State :=
  { (masked { weight with st := .committed } [] none) with
    arrays := runM.arrays.map (fun (a : ArrayState) => { a with u := { a.u with stepbDone := true } })
    thy := Thyme.reset }
theorem test_witness_StepBoundary : run.boundaryDue = false ∧ atBoundary.boundaryDue = true ∧ atBoundary.regsSorted ∧
    atBoundary.weight? 7 = some { weight with st := .committed } := by decide +kernel
theorem test_publish : ((after .moduleStepBoundary atBoundary).weight? 7).map (fun w => (w.curB, w.gen, w.st)) = some (true, 2, .idle) ∧
    (after .moduleStepBoundary atBoundary).stp.step = 1 := by decide +kernel
/-- A member of the ring: port 1 up, the master at 0x100. -/
def Tests.member (g : Thyme → Thyme) : State := (linked []).modThy fun t => g { t with master := false, masterAddr := 1, masterPrio := 0x80, tick := 4, period := 5, cycle := 0 }
theorem test_witness_FollowingTheMaster : (∀ p < 5, (member id).linkTakes (frame p)) ∧ (member id).thy.adopt = false ∧ (member id).thy.phaseLost = false ∧
    (member id).thy.master = false ∧ info.period = (member id).thy.period ∧ info.tick = (member id).thy.tick ∧ info.rate = (member id).thy.rate ∧
    (member fun t => { t with parent := 2 }).parentUp = true ∧ (member id).thy.masterPrio = info.masterPrio ∧ (member id).thy.masterAddr = info.masterAddr ∧
    (member id).regsSorted ∧ ¬ ({ info with period := 6 } : PhaseInfo).period = (member id).thy.period :=
  ⟨fun p h => ⟨h, (by decide +kernel : ∀ p < 5, ((member id).port p).st = .up) p h, rfl, (by decide +kernel : ∀ p < 5, 0 = ((member id).port p).rxSeq) p h⟩, by decide +kernel⟩
theorem test_witness_FollowingTheMaster_joins : (member fun t => { t with adopt := true }).thy.adopt = true ∧ info.masterAddr ≠ (member id).ring.addr ∧
    (member fun t => { t with adopt := true }).bestParent 1 = 2 ∧ keyWins (member id).key (info.masterPrio, info.masterAddr) = false ∧
    keyWins ({ (member id) with host := { HostIf.reset with oscStable := true } } : State).key (0, 1) = true := by decide +kernel
theorem test_witness_FollowingTheMaster_lost : (member fun t => { t with sinceFrame := 2 ^ 40 }).regN Reg.THY_HOLDOVER_MAX ≤ 2 ^ 40 ∧ (linked []).thy.master = true ∧
    (7 / 4 + 8203125 ≤ 8300000) ∧ 256 ≤ (member fun t => { t with sinceMaster := 256, backup := true }).thy.sinceMaster ∧ (member id).hearsOthers = false ∧
    ({ member id with ring := { (member id).ring with heardAt := some 5 } } : State).hearsOthers = true ∧
    (let s := { member fun t => { t with phaseLost := true } with host := { run.host with pendingCmd := some ⟨hdr 64, 0x71, 7⟩ } };
      s.thy.phaseLost = true ∧ s.host.pendingCmd = some ⟨hdr 64, 0x71, 7⟩ ∧ s.bestParent 1 = 2) := by decide +kernel
theorem test_witness_FollowingTheMaster_own_frame : (linked []).thy.adopt = false ∧ (linked []).thy.master = true ∧ (linked []).thy.phaseLost = false ∧
    (let i : PhaseInfo := { info with masterAddr := 0, period := 4000000000, tick := 0 };
      i.masterAddr = (linked []).ring.addr ∧ i.period = (linked []).thy.period ∧ i.tick = (linked []).thy.tick ∧ i.rate = (linked []).thy.rate) ∧
    ¬ info.period = (linked []).thy.period ∧
    (let s := member fun t => { t with phaseLost := true, sinceFrame := 8300000 };
      ({ s with host := { run.host with pendingCmd := some ⟨hdr 64, 0x71, 7⟩ } } : State).thy.master = false ∧ 7 / 4 + 8203125 ≤ s.thy.sinceFrame) := by decide +kernel
theorem test_witness_MasterMessages : (linked []).forMe (frame 0) ∧ (linked []).linkTakes (frame 0) ∧ (linked []).thy.master = true ∧ (linked []).thy.holds = [] ∧ (member id).thy.master = false ∧
    (∀ m ∈ ((linked []).modThy fun t => { t with levels := [3], holds := [⟨10, none, 3⟩] }).thy.levels, m = 3) ∧
    ({ info with hold := 1, holdStart := 9 } : PhaseInfo).hold = 1 ∧
    (∀ y ∈ (member id).thy.holds, y.start ≠ 9) ∧ (member id).thy.period < ({ info with rateNext := 60, rateAt := 9 } : PhaseInfo).rateAt ∧
    (60, 9) ∉ (member id).thy.rateNext := ⟨.inr (by decide +kernel), ⟨by decide, by decide +kernel, rfl, by decide +kernel⟩, by decide +kernel⟩
theorem test_hold_off : ((after (.holdOff { frame 0 with src := 3 }) ((linked []).modThy fun t => { t with levels := [3], holds := [⟨10, none, 3⟩] })).thy.holds) = [⟨10, some 4000000004, 3⟩] := by decide +kernel
/-- PTP data sets: this module's own, with a grandmaster port on. -/
def Tests.ptp : State := run.setReg Reg.THY_PTP_CFG 0x80000000#32
theorem test_witness_TimeOfDay : run.thy.todPending = false ∧ run.ptpOn = false ∧ ptp.ptpOn = true ∧ ptpBetter ⟨0, 6, 0x21, 0, 0, 0⟩ ptp.ptpSet = true ∧
    ptp.thy.ptp ≠ 3 ∧ ({ ptp with thy := { ptp.thy with ptp := 2 } } : State).ptpOn = true ∧ ptpBetter ⟨255, 255, 0x21, 0, 0, 0⟩ ptp.ptpSet = false ∧ ptp.regsSorted := by decide +kernel
theorem test_witness_TimeOfDay_states : ({ run with pwr := { Power.reset with on := false } } : State).powered = false ∧ run.powered = true ∧
    (run.modThy fun t => { t with todPending := true }).thy.todPending = true ∧ run.thy.master = true ∧ (ptp.modThy fun t => { t with ptp := 3 }).ptpOn = true := by decide +kernel
theorem test_witness_PowerEvents : run.powered = true ∧ run.regsSorted ∧ run.pwr.on = true ∧ ({ run with pwr := { Power.reset with on := false } } : State).powered = false := by decide
theorem test_witness_BootAndSelfTest : State.reset.powered = true ∧ State.reset.host.bootDone = false ∧ State.reset.host.recovery = false ∧ State.reset.host.failReason = 0 ∧
    State.reset.host.visible = [] ∧ State.reset.dev.otpReadable = true ∧ State.reset.regsSorted ∧ State.reset.dev.slotOk (State.reset.dev.slot State.reset.dev.activeB) = true ∧
    (let d := { State.reset.dev with activeB := true };
      d.slotOk (d.slot d.activeB) = false ∧ d.slotOk (d.slot (!d.activeB)) = true) ∧
    (let d := { State.reset.dev with slotA := FwSlot.empty };
      d.slotOk (d.slot d.activeB) = false ∧ d.slotOk (d.slot (!d.activeB)) = false) ∧
    run.mapEntry 64 = 0xFE ∧ run.mapEntry 3 < 64 ∧ run.insideStep = true ∧ ({ run with host := { run.host with st := .ready } } : State).insideStep = false ∧
    run.host.substWaiting = [] ∧ run.mir.testing = false ∧ run.sparePositions = [64, 65, 66, 67] ∧
    ({ run with dev := { run.dev with factoryMap := List.range 64 ++ List.replicate 4 0xFF } } : State).sparePositions = [] ∧
    run.regN Reg.THY_PRIO % 256 ≠ 0 := by decide +kernel
theorem test_witness_BootAndSelfTest_states : ({ State.reset.dev with otpReadable := false } : Device).otpReadable = false ∧
    (3 : Nat) ∈ ({ run with host := { run.host with posTesting := [3, 64] } } : State).host.posTesting ∧
    ({ run with mir := { run.mir with testing := true } } : State).mir.testing = true ∧
    (let s := member fun t => { t with masterPrio := 0 }; s.powered = true ∧ s.thy.master = false ∧ s.thy.masterPrio = 0 ∧ s.regN Reg.THY_PRIO % 256 ≠ 0 ∧
      ({ s with host := { s.host with oscStable := false } } : State).host.oscStable = false) := by decide +kernel
/-- R16: outside a step a failed position is replaced at once, inside one at its boundary. -/
theorem test_self_test_substitutes : (after (.selftestComplete 3 false) { run with host := { run.host with st := .ready, posTesting := [3] } }).mapEntry 64 = 3 ∧
    (after (.selftestComplete 3 false) { run with host := { run.host with posTesting := [3] } }).mapEntry 64 = 0xFE ∧
    (after (.selftestComplete 3 false) { run with host := { run.host with posTesting := [3] } }).host.substWaiting = [(3, 3)] := by decide +kernel
theorem test_witness_ControllerWindow : run.powered = true ∧ run.regsSorted ∧ run.pwr.overWindows < 7 ∧ (1600 : Int) < 1760 ∧ (1760 : Int) ≤ 1760 ∧
    run.thy.rate ≠ 32 := by decide
/-- `run` at the end of its first window of 8,192 periods. -/
def Tests.window : State := { run with thy := { run.thy with period := 8192 } }
theorem test_controller_steps : (after (.controllerWindow 100000 [0]) window).thy.powerRate = 63 ∧ (after (.controllerWindow 0 [0, 1700]) window).thy.thermalRate = 63 ∧
    (after (.controllerWindow 0 [1760]) window).pwr.trip = 1 := by decide +kernel
theorem test_witness_ControllerWindow_ends : window.powered = true ∧ window.host.bootDone = true ∧ window.ctrlWindow ≠ window.pwr.windowAt ∧ window.regsSorted ∧
    run.ctrlWindow = run.pwr.windowAt ∧ window.hottest [0, 1700] < 1760 ∧ 1760 ≤ window.hottest [0, 1760] ∧ 11 * window.dev.grade.maxWatts < 10 * 100000 ∧
    (let s : State := { window with thy := { window.thy with rate := 32 }, pwr := { window.pwr with overWindows := 7 } };
      s.thy.rate = 32 ∧ 7 ≤ s.pwr.overWindows ∧ s.ctrlWindow ≠ s.pwr.windowAt) := by decide +kernel

/-! ### Links, hops, ports -/

/-- A port that is up and has sent two frames that are not acknowledged; it owes an acknowledgement. -/
def Tests.sentPort : Port := { upPort with replay := [ctlFrame 1 0 0 0 0 0 0 0, ctlFrame 2 0 0 0 0 0 0 0], sendSeq := 2, rxSinceAck := 3 }
/-- `linked` with another port in every place. -/
def Tests.ported (q : Port) : State := { (linked []) with ring := { (linked []).ring with ports := List.replicate 5 q } }
theorem test_witness_LinksAndForwarding : ((ported Port.reset).port 2).st ≠ .up ∧ ((ported sentPort).port 2).st = .up ∧ ((ported sentPort).port 2).outQ = [] ∧
    1 ≤ ((1 : Nat) + 65536 - sentPort.ackedTo) % 65536 ∧ ((1 : Nat) + 65536 - sentPort.ackedTo) % 65536 ≤ sentPort.replay.length ∧
    (ported sentPort).regsSorted ∧ (1#32).getLsbD 0 = true ∧ (0 : Nat) = sentPort.ackedTo ∧ sentPort.rxSinceAck ≠ 0 ∧ sentPort.replay ≠ [] ∧
    sentPort.heldDown = false ∧ ({ sentPort with replays := 7 } : Port).replays = 7 := by decide +kernel
theorem test_eighth_replay_trains : ((after (.replayTimeout 2) (ported { sentPort with replays := 7 })).port 2).st = .training ∧
    ((after (.replayTimeout 2) (ported { sentPort with replays := 7 })).port 2).wire.map (fun w => (w.seq, w.frame.typ)) = [(0, 1), (1, 2), (2, 10)] := by decide +kernel
/-- A frame for module 0x102 that has come over port 1. -/
def Tests.through : Frame := { frame 1 with dst := 0x102 }
theorem test_witness_Forwarding : (linked []).linkTakes through ∧ through.dst ≠ (linked []).ring.addr ∧
    (linked []).deadEnd ((linked []).route 0x102) 0x102 = false ∧
    (linked []).port ((linked []).route 0x102) = upPort ∧ through.port < 4 ∧
    (let s := ({ (linked []) with ring := { (linked []).ring with gone := [0x100] } } : State);
      s.deadEnd (s.route 0x100) 0x100 = true) ∧
    ((linked []).port ((linked []).route 0x102)).heldDown = false :=
  ⟨⟨by decide, by decide +kernel, rfl, by decide +kernel⟩, by decide +kernel⟩
theorem test_witness_LinkRejects_through : through.port ≠ 4 ∧ through.dst ≠ (linked []).ring.addr ∧ ({ through with crcOk := false } : Frame).crcOk = false ∧
    ((linked []).port through.port).st = .up ∧ (linked []).regsSorted := by decide +kernel
theorem test_forwarded_on_x_first : (((after (.frameForward 0 through) (linked [])).port 0).wire.map (fun w => (w.frame.typ, w.frame.dst))) = [(0, 0x102)] := by decide +kernel
theorem test_witness_HopsAndPorts_lanes : (ported { upPort with bad := 1 }).port 0 = { upPort with bad := 1 } ∧
    16 ≤ ((List.range 18).filter (fun i => !((0 : Nat) ||| 2 ^ 17).testBit i)).length ∧ upPort.lanes.testBit 17 = false ∧ upPort.lanes.testBit 3 = true ∧
    (List.range 18).find? (fun i => !((0 : Nat) ||| 2 ^ 3).testBit i && !upPort.lanes.testBit i) = some 16 ∧
    ((List.range 18).filter (fun i => !((0x30000 : Nat) ||| 2 ^ 3).testBit i)).length < 16 ∧
    (linked []).regsSorted := by decide +kernel
theorem test_spare_lane_takes_over : ((after (.laneFailure 0 3 true 0 0) (ported upPort)).port 0).lanes = 0x1FFF7 ∧
    ((after (.laneFailure 0 3 true 0 0) (ported upPort)).port 0).st = .training := by decide +kernel
theorem test_witness_HopsAndPorts_dark : ((ported { upPort with dark := true, st := .training }).port 1).dark = true ∧
    ((ported { upPort with dark := true, st := .training }).port 1).st ≠ .up ∧ ((ported upPort).port 1).heldDown = false ∧ (ported upPort).port 4 = upPort := by decide +kernel
/-- `linked` in training with a pending JOIN_RING or PAIR command. -/
def Tests.joining (op : Nat) (qs : List Port) : State :=
  { (linked []) with
    ring := { (linked []).ring with ports := qs }
    host := { run.host with pendingCmd := some ⟨hdr 0x1000, op, if op = 0x40 then 0x010404 else 0x103⟩ } }
theorem test_witness_HopsAndPorts_training : ((joining 0x40 [{ upPort with st := .training }, upPort, upPort, upPort, upPort]).port 0).st = .training ∧
    16 ≤ ((List.range 18).filter (fun i => (0x3FFFF#18).getLsbD i && !(0 : Nat).testBit i)).length ∧ (linked []).along 0 0x100 ≤ 3 ∧
    (joining 0x40 []).pendingIs 0x40 = true ∧
    (∀ q, q < 4 → q ≠ 0 → ((joining 0x40 [{ upPort with st := .training }, upPort, upPort, upPort, upPort]).port q).st = .up) ∧
    4 ≤ ({ (linked []) with ring := { (linked []).ring with xn := 8, yn := 8 } } : State).along 0 0x400 := by decide +kernel
theorem test_witness_HopsAndPorts_adopt : (joining 0x40 []).thy.adopt = false ∧ (linked []).thy.adopt = false := by decide +kernel
theorem test_witness_HopsAndPorts_mirror : 8 ≤ ((List.range 9).filter (fun i => (0x1FF#18).getLsbD i && !(0 : Nat).testBit i)).length ∧
    ((ported { upPort with st := .training }).port 4).st = .training ∧ (linked []).regsSorted ∧ (0x103 : Nat) ≠ (linked []).ring.addr ∧ (linked []).pendingIs 0x41 = false := by decide +kernel
theorem test_witness_HopsAndPorts_timeout : ((joining 0x40 [{ upPort with st := .training }]).port 0).st ≠ .up ∧
    ((joining 0x41 (List.replicate 5 { upPort with st := .training })).port 4).st ≠ .up ∧ (joining 0x41 []).host.pendingCmd = some ⟨hdr 0x1000, 0x41, 0x103⟩ := by decide +kernel

/-! ### BAR0 and BAR4 -/

/-- The fourteen guarded registers. -/
def Tests.guardedRegs : List Nat :=
  [Reg.THY_TOD_CTRL, Reg.THY_PRIO, Reg.THY_RATE_CAP, Reg.TIR_COPY_CTRL, Reg.RNG_BAY_CTRL, Reg.MIR_FENCE, Reg.DET_CTRL, Reg.GLB_CRC_CTRL, Reg.GLB_CFG_CRC_REF,
   Reg.SEC_REVOKE, Reg.SEC_POLICY, Reg.SEC_RESET, Reg.CAL_SAVE, Reg.PWR_LIMIT]
theorem test_complements : (∀ o ∈ guardedRegs, regRow (o + 0x800) = none ∧ complementOf (o + 0x800) = some o ∧ msixOffset o = false ∧ msixOffset (o + 0x800) = false ∧
    (regRow o).map (·.acc) = some .wg) := by decide +kernel
/-- `run` with the pair on a guarded register open for the host. -/
def Tests.opened (off : Nat) (v : W32) : State := run.modRequester .host fun x => { x with pair := some ⟨off, v, 0⟩ }
theorem test_witness_GuardedPairs : run.barUp = true ∧ State.reset.barUp = false ∧ (run.requester .host).pair = none ∧
    (opened Reg.THY_PRIO 5).barUp = true ∧ (opened Reg.THY_PRIO 5).regsSorted ∧
    (((opened Reg.THY_PRIO 5).requester .host).pair.all (fun g => g.offset != Reg.PWR_LIMIT)) = true := by decide +kernel
theorem test_witness_GuardedPairs_second : ((opened Reg.THY_PRIO 5).requester .host).pair.isSome = true ∧ (opened Reg.THY_PRIO 5).barUp = true ∧ (opened Reg.THY_PRIO 5).regsSorted := by decide +kernel
theorem test_witness_GuardedEffects : (run.hopsBusy false false false = false ∧ run.hopsBusy true false false = true) ∧ (opened Reg.SEC_RESET 1).pairOpen .host Reg.SEC_RESET 1 ∧ (opened Reg.SEC_RESET 1).regsSorted ∧
    (run.spares = [48, 49] ∧ (5#32).toNat % 64 ∈ run.tiers.chmap ∧ run.tiers.copy = none ∧ (0x80000005#32).getLsbD 31 = true) ∧
    (opened Reg.DET_CTRL 1).choiceInUse = false ∧ (run.setReg (wctBase 0 + Reg.WCT_CTRL) 1).choiceInUse = true ∧ run.strictIdle = false ∧
    ({ run with host := { run.host with st := .ready } } : State).strictIdle = true ∧ (run.setReg Reg.GLB_CRC_CTRL 1).crcOn = true ∧
    ({ run with host := { run.host with st := .ready }, dev := { run.dev with fwKeys := [some 1, some 2, none, none] } } : State).mayRevoke 2 = true ∧
    run.mayRevoke 1 = false ∧ run.mir.fenced = false :=
  ⟨by decide +kernel, ⟨by decide +kernel, 0, by decide +kernel, by decide +kernel⟩, by decide +kernel⟩
theorem test_witness_GuardedEffects_states : ({ opened Reg.TIR_COPY_CTRL 5 with host := { run.host with recovery := true } } : State).host.recovery = true ∧
    (opened Reg.TIR_COPY_CTRL 5).host.recovery = false ∧ ({ run with mir := { run.mir with fenced := true } } : State).mir.fenced = true ∧
    ((opened Reg.TIR_COPY_CTRL 5).pairOpen .host Reg.TIR_COPY_CTRL 5) ∧ (opened Reg.DET_CTRL 1).pairOpen .host Reg.DET_CTRL 1 ∧
    (let s : State := { opened Reg.DET_CTRL 0 with regs := { (opened Reg.DET_CTRL 0).regs with guardWaiting := [(Reg.DET_CTRL, 1)] } };
      s.regs.guardWaiting ≠ [] ∧ s.strictIdle = false ∧ s.regsSorted) :=
  ⟨rfl, rfl, rfl, ⟨by decide +kernel, 0, by decide +kernel, by decide +kernel⟩, ⟨by decide +kernel, 0, by decide +kernel, by decide +kernel⟩, by decide +kernel⟩
theorem test_guarded_prio : (after (.thyPrio .host true (~~~5#32)) (opened Reg.THY_PRIO 5)).reg Reg.THY_PRIO = 5 ∧
    (after (.thyPrio .host true (~~~5#32)) (opened Reg.THY_PRIO 4)).reg Reg.THY_PRIO = run.reg Reg.THY_PRIO := by decide +kernel
/-- A group that is committing. -/
def Tests.strobing : State := { run with regs := { run.regs with strobes := [256 * 4, 256 * 3], pendingIdle := [256 * 3], shadows := [(Reg.THY_SNAP_CTRL, 1)] } }
theorem test_witness_RegisterWrites : (regRow Reg.THY_HOLDOVER_MAX).map (fun r => (r.acc, r.group)) = some (.rw, 4) ∧ (regRow Reg.THY_TICK).map (·.acc) = some .sl ∧
    (regRow (Reg.THY_TICK + 4)).map (·.acc) = some .slHi ∧ (regRow Reg.FLT_STATUS).map (·.acc) = some .w1c ∧ (regRow Reg.GLB_REV).map (·.acc) = some .ro ∧
    run.strobing 4 = false ∧ strobing.strobing 4 = true ∧ run.strictRefuses Reg.THY_HOLDOVER_MAX 5 = false ∧ msixOffset Reg.THY_HOLDOVER_MAX = false ∧
    run.regs.shadows.Pairwise (fun x y => x.1 < y.1) ∧ (run.requester .host).latches.Pairwise (fun x y => x.1 < y.1) := by decide +kernel
theorem test_witness_RegisterWrites_tail : (let s := { run with flt := { run.flt with eqAddr := some 0x10000, eqSize := 64, head := 5, tail := 2 } };
    s.flt.eqAddr.isSome = true ∧ (3#32).toNat < s.flt.eqSize ∧
      ((3#32).toNat + s.flt.eqSize - s.flt.tail) % s.flt.eqSize ≤ (s.flt.head + s.flt.eqSize - s.flt.tail) % s.flt.eqSize ∧
      (s.flt.head + s.flt.eqSize - s.flt.tail) % s.flt.eqSize < ((6#32).toNat + s.flt.eqSize - s.flt.tail) % s.flt.eqSize) := by decide
theorem test_witness_RegisterWrites_partial : (0x7#4) ≠ 0xF ∧
    (let s : State := { run with regs := { run.regs with raised := [(Reg.FLT_STATUS, 1)], raisedBus := run.thy.bus } }; s.raisedNow Reg.FLT_STATUS = 1) ∧
    run.raisedNow Reg.FLT_STATUS = 0 ∧ 0x540000 ≤ Reg.THY_HOLDOVER_MAX := by decide +kernel
theorem test_register_write_is_not_a_commit : (after (.registerWrite .host Reg.THY_HOLDOVER_MAX (.word 0xF 5)) run).reg Reg.THY_HOLDOVER_MAX = run.reg Reg.THY_HOLDOVER_MAX ∧
    (after (.registerWrite .host Reg.THY_HOLDOVER_MAX (.word 0xF 5)) run).shadow Reg.THY_HOLDOVER_MAX = 5 := by decide +kernel
theorem test_witness_Commits : strobing.regsSorted ∧ strobing.commitPoint 4 0 = true ∧ strobing.commitPoint 3 0 = true ∧ 256 * 4 + 0 ∈ strobing.regs.strobes ∧ 256 * 4 + 0 ∉ strobing.regs.pendingIdle ∧
    256 * 3 + 0 ∈ strobing.regs.pendingIdle ∧ strobing.regs.guardWaiting = [] ∧ (strobing.shadow Reg.THY_SNAP_CTRL).getLsbD 0 = true ∧ strobing.thy.tick < 2 ^ 64 ∧
    (Reg.THY_SNAP_CTRL, false) ∈ groupRows 4 0 := by decide +kernel
/-- No register that a commit changes beside its group's own is one of the group's. -/
theorem test_commit_rows : ([Reg.GLB_CRC_STATUS, Reg.CAL_CLAMPED, Reg.SEC_STATUS, Reg.MSK_REPORT_HEAD, Reg.THY_SNAP_TICK, Reg.THY_SNAP_TICK + 4, Reg.THY_SNAP_PERIOD,
      Reg.THY_SNAP_PERIOD + 4, Reg.THY_SNAP_TOD_S, Reg.THY_SNAP_TOD_S + 4, Reg.THY_SNAP_TOD_NS].all (fun o =>
    ([(0, 0), (3, 0), (4, 0), (5, 0), (6, 0), (7, 0), (7, 1), (7, 2)] : List (Nat × Nat)).all (fun g => !((groupRows g.1 g.2).map Prod.fst).contains o))) = true := by decide +kernel
theorem test_snapshot : (after (.strobeCommit 4 0) { strobing with thy := { run.thy with tick := 77 } }).reg64 Reg.THY_SNAP_TICK = 77 := by decide +kernel
theorem test_witness_Bar4AndPeriodicChecks : (run.setReg Reg.GLB_CRC_CTRL 1).crcOn = true ∧ (((run.setReg Reg.GLB_CRC_CTRL 1).setReg Reg.GLB_CRC_STATUS 0).reg Reg.GLB_CRC_STATUS).getLsbD 1 = false ∧
    run.period % 65536 = 0 ∧ run.period % 2 ^ 20 = 0 ∧ run.thy.cyc = 0 ∧ ({ run with thy := { run.thy with period := 1 } } : State).period % 2 ^ 20 ≠ 0 ∧
    run.bar4Reaches (run.bar4At 64) 4 .write = true ∧ run.mir.refillPtr = none ∧ run.lacking run.stp.step [(run.bar4At 64, 4)] = [] ∧
    run.unmergeable (run.bar4At 64) 4 = [] ∧
    ({ run with host := { run.host with committed := true } } : State).bar4Reaches (run.bar4At 0x500000) 4 .write = false ∧
    run.eccBad (run.bar4At 64) 4 = none ∧ ({ run with tiers := { run.tiers with bad := [0] } } : State).eccBad (run.bar4At 64) 4 = some (0x51, 0) ∧
    run.flt.first = none ∧ run.powered = true := by decide +kernel
theorem test_witness_Bar4_waits : (let s : State := { (mirrored fun m => { m with desc := some { pairDesc with list := [1] } }) with host := { run.host with committed := true } };
      s.bar4Reaches (s.bar4At 0x180000) 4 .write = true ∧ s.host.bar4Waiting = [] ∧ s.lacking s.stp.step [(s.bar4At 0x180000, 4)] ≠ []) ∧
    2 ^ 36 < 2 ^ 36 - 1 + ([1, 2] : List Byte).length ∧ run.host.committed = false ∧ run.powered = true ∧ run.host.bootDone = true ∧
    (let s := (run.setReg Reg.GLB_CRC_CTRL 1).setReg Reg.GLB_CRC_STATUS 0; s.regs.scrubbed ≠ some s.period ∧ s.regsSorted ∧ s.barUp = true ∧
      ({ s with regs := { s.regs with scrubbed := some s.period } } : State).regs.scrubbed = some s.period) := by decide +kernel
theorem test_bar4_poisoned : (after (.bar4Access true true 64 [1]) run).mem = [] ∧ (after (.bar4Access true true 64 [1]) run).host.pcie.aerUncor = 0x1000#32 := by decide +kernel

/-! ### Commands of Sage -/

/-- `run` in another module state. -/
def Tests.inSt (st : ModState) : State := { run with host := { run.host with st := st } }
theorem test_takes : run.takes (hdr 64) ∧ (inSt .unopened).takes (hdr 64) := by unfold State.takes; decide +kernel
theorem test_witness_CommandChecks : State.reset.sageUp = false ∧ run.host.st ∉ [ModState.opened, .loaded, .ready] ∧ (inSt .ready).host.st ∉ [ModState.running] := by decide
theorem test_witness_CommandChecks_link : ({ run with host := { run.host with pcie := { run.host.pcie with link := ⟨false, 0, 0⟩ } } } : State).hostLink = false := by decide
/-- R382's order: a parameter out of range is refused before the state is looked at. -/
theorem test_joinring_out_of_range : (after (.joinRing (hdr 64) 0 65 1) run).hostMem = memPut [] 64 (replyBytes (hdr 64) 0x40 2 0x01 0 0 []) ∧
    (after (.joinRing (hdr 64) 0 64 1) run).hostMem = memPut [] 64 (replyBytes (hdr 64) 0x40 3 0 0 0 []) := by decide +kernel
theorem test_reply_layout : ((replyBytes (hdr 64) 0x22 2 0x05 9 0 []).map (·.toNat)) =
    [7, 0, 0, 0, 0x22, 0, 2, 0, 5, 0, 0, 0, 0, 0, 0, 0, 9, 0, 0, 0, 0, 0, 0, 0, 0, 0, 0, 0, 0xF8, 0xFF, 0xFF, 0xFF] := by decide +kernel
theorem test_witness_Ownership : (1#8).toNat ≤ 1 ∧ (9#64) ≠ 0 ∧ (inSt .unopened).host.st = .unopened ∧ (0x100#16).toNat ≤ min (0x100#16).toNat (inSt .unopened).ifRange.1 ∧
    (inSt .unopened).ifRange.2 ≤ min (0x100#16).toNat (inSt .unopened).ifRange.1 ∧ min (0xFF#16).toNat (inSt .unopened).ifRange.1 < (inSt .unopened).ifRange.2 ∧
    run.host.owner ≠ some (9#64).toNat ∧ (inSt .stopped).host.st ∈ [ModState.opened, .loaded, .ready, .held, .stopped] ∧
    (inSt .stopped).takes (hdr 64) ∧ (inSt .stopped).host.st ∈ [ModState.loaded, .ready, .stopped] := by unfold State.takes; decide +kernel
theorem test_open_negotiates : (after (.openCmd (hdr 64) 0x200 0x100 1 false 9) (inSt .unopened)).host.version = 0x100 ∧
    (after (.openCmd (hdr 64) 0x200 0x100 1 false 9) (inSt .unopened)).host.owner = some 9 := by decide +kernel
theorem test_close_empties : (after (.close (hdr 64)) (inSt .stopped)).tiers.regions = [] ∧ (after (.close (hdr 64)) (inSt .stopped)).host.st = .unopened := by decide +kernel

/-- A loaded image with one scratchpad region. -/
def Tests.img : Image :=
  ⟨0x8000, 0, beNat (sha256 []), true, 1, [⟨scratchBase, 4096, 2, 31, 7, 0⟩], [], [], ⟨0, [], [], 0⟩, [], none, [], zeros 32⟩
/-- A module that has it loaded. -/
def Tests.loaded : State := { run with host := { run.host with st := .loaded, image := some img } }
theorem test_witness_ImageCommands : loaded.takes (hdr 64) ∧ loaded.host.noSpare = false ∧ loaded.host.image = some img ∧ img.regions[0]? = some ⟨scratchBase, 4096, 2, 31, 7, 0⟩ ∧
    (img.moved 0 (scratchBase + 0x1000)).fits = true ∧ beNat (sha256 (memGet loaded.hostMem img.hostAddr img.len)) = img.sha ∧
    beNat (sha256 (memGet loaded.hostMem img.hostAddr img.len)) ≠ { img with sha := 0 }.sha ∧
    regionErr loaded.dev.grade img.pForm img.n img.regions = none ∧ relocated img.regions img.images img.contexts img.relocs = some ([], []) := by unfold State.takes; decide +kernel
theorem test_witness_LoadRefused : loaded.checkImage 0 (memGet loaded.hostMem 0 0) = .error (loadErr 0x01 0) ∧
    ({ loaded with host := { loaded.host with noSpare := true } } : State).takes (hdr 64) := ⟨rfl, by unfold State.takes; decide +kernel⟩
theorem test_witness_ImageCommands_beyond : 2 ^ 64 < (0xFFFFFFFFFFFFFF00#64).toNat + (0x400#64).toNat ∧
    (let i := { img with hostAddr := 2 ^ 64 - 5, len := 64 }; 2 ^ 64 < i.hostAddr + i.len) ∧ (0x8000#64).toNat + (0x400#64).toNat ≤ 2 ^ 64 ∧
    img.hostAddr + img.len ≤ 2 ^ 64 ∧ (inSt .opened).host.noSpare = false := by decide
theorem test_load_refused : (after (.loadImage (hdr 64) 0 0) loaded).hostMem =
    memPut (memPut [] 64 (replyBytes (hdr 64) 0x10 1 0 0 0 [])) 320 (replyBytes (hdr 64) 0x10 2 1 0 0 []) := by decide +kernel
/-- A P-form image for one array that loads a region and runs nothing: header, directory, region table, and the determinism declaration of this module (R279, R364, R397). -/
def Tests.imageBytes : List Byte :=
  leBytes 4 0x494E424D ++ [1, 1, 0, 0] ++ leBytes 2 1 ++ leBytes 2 64 ++ leBytes 2 2 ++ zeros 50 ++
    (leBytes 8 1 ++ leBytes 4 96 ++ leBytes 4 32) ++ (leBytes 8 5 ++ leBytes 4 128 ++ leBytes 4 216) ++
    (leBytes 8 scratchBase ++ leBytes 8 4096 ++ [1, 7, 1, 0] ++ zeros 12) ++
    (leBytes 2 1 ++ leBytes 2 run.dev.latencies.length ++ leBytes 2 depthTable.length ++ zeros 10 ++
      (run.dev.latencies ++ depthTable).flatMap (fun e => leBytes 2 e.2 ++ leBytes 2 e.1))
/-- Whether an image is taken. -/
def Tests.taken (r : Except LoadErr Image) : Bool := match r with
  | .ok _ => true
  | .error _ => false
theorem test_image_taken : taken (run.checkImage 0 imageBytes) = true := by decide +kernel
theorem test_witness_ImageTaken : (let s := { (inSt .opened) with hostMem := memPut [] 0x8000 imageBytes };
    s.takes (hdr 64) ∧ memGet s.hostMem 0x8000 imageBytes.length = imageBytes ∧ Memory.wf s.hostMem) := by unfold State.takes; decide +kernel
theorem test_witness_Start : (inSt .ready).takes (hdr 64) ∧ (inSt .ready).mir.fenced = false ∧ (inSt .ready).startRefusal 1000 0x100000 = none ∧
    (inSt .ready).eccBad 0x100000 512 = none ∧ (0 : Nat) ≤ (inSt .ready).tick ∧ (5#48).toNat > run.stp.step ∧ (0#48).toNat ≤ run.stp.step := by unfold State.takes; decide +kernel
theorem test_start : (after (.start (hdr 64) 1000 5 9 0x100000) (inSt .ready)).stp.step = 5 ∧ ((after (.start (hdr 64) 1000 5 9 0x100000) (inSt .ready)).ctx 0 .f).base = 1000 ∧
    ((after (.start (hdr 64) 1000 5 9 0x100000) (inSt .ready)).ctx 1 .f).st = .idle ∧ (after (.start (hdr 64) 1000 5 9 0x100000) (inSt .ready)).ring.jobId = 9 := by decide +kernel
theorem test_hold_waits : (after (.hold (hdr 64) 3) run).host.holdStep = some 3 ∧ (after (.hold (hdr 64) 0) run).host.holdStep = none := by decide +kernel
/-- A running operation of the mask engine, so that something is in flight. -/
def Tests.busyMask (s : State) : State := { s with mask := { s.mask with running := some (mop (.bind 0), 0, false) } }
theorem test_witness_Resume : (inSt .held).takes (hdr 64) ∧ (inSt .held).resumeRefusal false 0 1000 = none ∧ (inSt .stopped).resumeRefusal false 0 1000 = none ∧
    (inSt .held).nothingInFlight = true ∧ (busyMask (inSt .held)).nothingInFlight = false ∧ (busyMask (inSt .held)).resumeRefusal false 0 1000 = none := by unfold State.takes; decide +kernel
theorem test_resume_rebases : ((after (.resume (hdr 64) 0 0 0 1000) (inSt .held)).ctx 0 .f).base = 1000 ∧ (after (.resume (hdr 64) 0 0 0 1000) (inSt .held)).host.st = .running ∧
    (after (.resume (hdr 64) 0 0 0 1000) (busyMask (inSt .held))).host.st = .held := by decide +kernel
/-- A module with a kind-4 region. -/
def Tests.saving (st : ModState) (n : Nat) : State := { (inSt st) with tiers := { run.tiers with regions := [⟨0x1000000, n, 4, 31, 7, 0⟩] } }
theorem test_witness_Snapshot : (saving .held 0x100000).takes (hdr 64) ∧ (saving .held 0x100000).kind4 0 = some ⟨0x1000000, 0x100000, 4, 31, 7, 0⟩ ∧ (saving .held 0x100000).kind4 1 = none ∧
    Memory.wf (saving .held 0x100000).mem ∧ (saving .held 0x100000).tiers.staged = [] ∧ (saving .held 0x100000).mir.refillPtr = none ∧ (saving .held 0x100000).tiers.soft = [] ∧ (saving .held 0x100000).tiers.nearSoft = [] := by unfold State.takes; decide +kernel
theorem test_record_length (r : StateRecord) : r.bytes.length = 8 * r.words.length := by
  simp only [StateRecord.bytes, List.length_flatMap]
  induction r.words with
  | nil => rfl
  | cons w l ih => simp [leBytes]; omega
theorem test_record_fits : ((saving .held 0x100000).stateRecord false).bytes.length ≤ 0x100000 := by
  rw [test_record_length]; decide +kernel
theorem test_witness_Snapshot_merge : (saving .held 0x100000).unmergeable 0x1000000 ((saving .held 0x100000).stateRecord false).bytes.length = [] := by
  rw [test_record_length]; decide +kernel
theorem test_witness_RoundTrip : (let s : State := { saving .held 0x100000 with host := { (saving .held 0x100000).host with image := some img } }; let u := saving .ready 0x100000;
    (∀ w ∈ (s.stateRecord false).words, w < 2 ^ 64) ∧ (∀ e ∈ (s.stateRecord false).streams, e.2.2.sregs.length = 32 ∧ e.2.2.abs.length = 16) ∧
      s.host.program.length = 32 ∧ u.host.st = .ready ∧ u.kind4 0 = s.kind4 0 ∧ u.eccBad 0x1000000 0x100000 = none ∧ u.host.program = s.host.program ∧
      u.wct.length = s.wct.length ∧ s.nArrays ≤ u.arrays.length ∧ u.takes (hdr 64)) := by unfold State.takes; decide +kernel
theorem test_witness_Restore : (recordOfBytes ((saving .ready 4096).get 0x1000000 4096)).digest = (saving .ready 4096).host.program ∧
    (saving .ready 4096).kind4 0 = some ⟨0x1000000, 4096, 4, 31, 7, 0⟩ ∧ (recordOfBytes ((saving .ready 4096).get 0x1000000 4096)).digest ≠ [1] := by decide +kernel
/-- An opened module whose ring Bays are engaged already, so that JOIN_RING changes none. -/
def Tests.engaged : State := { inSt .opened with ring := { Ring.reset with bayX := true, bayY := true } }
theorem test_witness_Restore_uncorrectable : (saving .ready 4096).eccBad 0x1000000 4096 = none ∧
    ({ saving .ready 4096 with tiers := { (saving .ready 4096).tiers with bad := [0x2000] } } : State).eccBad 0x1000000 4096 = some (0x51, 0x1000000) := by decide +kernel
theorem test_witness_JoinAndPair : (inSt .opened).takes (hdr 64) ∧ (inSt .opened).hopsBusy false false false = false ∧ engaged.hopsBusy true true false = false ∧ engaged.takes (hdr 64) ∧ engaged.ring.bayX = true ∧ (inSt .opened).ring.bayX = false ∧ (inSt .opened).ring.bayY = false ∧ (inSt .opened).ring.ports.length = 5 ∧
    (0x0302 : Nat) / 256 < 4 ∧ (0x0302 : Nat) % 256 < 4 ∧ (inSt .ready).mayPair = false ∧
    (let s := { (inSt .ready) with
        ring := { run.ring with joined := true }
        mir := { run.mir with desc := some ⟨true, true, 0, [], [], [], 0⟩ } };
      s.takes (hdr 64) ∧ s.mayPair = true ∧ s.ring.bayM = false ∧ 5 ≤ s.ring.ports.length) := by unfold State.takes; decide +kernel
theorem test_join_places : (after (.joinRing (hdr 64) 0x0302 4 5) engaged).ring.addr = 0x0302 ∧ (after (.joinRing (hdr 64) 0x0302 4 5) engaged).ring.xn = 4 ∧
    (after (.joinRing (hdr 64) 0x0302 4 5) engaged).ring.yn = 5 := by decide +kernel
/-- Exponent that undoes 65537 modulo a power of two: 65537 divides 2 ^ 3088 + 1. -/
def Tests.unpow : Nat := (2 ^ 3088 + 1) / 65537
/-- The body of a firmware image with 8 bytes of code at version `v`, for interfaces 0x0000 to 0x0100. -/
def Tests.fwBody (v : Nat) : List Byte := leBytes 4 0x464E424D ++ [1, 0, 0, 0] ++ leBytes 2 0x100 ++ leBytes 2 0 ++ leBytes 4 3 ++ leBytes 8 v ++ leBytes 4 8 ++ zeros 108
/-- A signature over it for the modulus 2 ^ 3071. -/
def Tests.fwImage (v : Nat) : List Byte :=
  fwBody v ++ beBytes 384 (2 ^ 3071) ++ beBytes 4 65537 ++ zeros 4 ++ beBytes 384 (powMod 3088 (beNat (pkcs1 (sha256 (fwBody v)))) unpow (2 ^ 3071))
/-- `run` with the key of the image in its second firmware key slot. -/
def Tests.keyed : State := { run with dev := { run.dev with fwKeys := [some 1, some (keyHash ((fwImage 1).drop 136)), none, none] } }
theorem test_firmware_signed : keyed.fwRefusal (fwImage 1).length (fwImage 1) = none := by decide +kernel
theorem test_witness_Firmware : keyed.takes (hdr 64) ∧ keyed.host.st ≠ .unopened ∧ (fwImage 1).length ≤ 2 ^ 24 ∧ keyed.fwRefusal 0 [] = some 0x01 ∧
    (let s := { run with dev := { run.dev with slotB := run.dev.slotA } };
      s.dev.slotOk (s.dev.slot (!s.host.runB)) = true ∧ s.stp.step < (3#48).toNat ∧ s.takes (hdr 64)) := by unfold State.takes; decide +kernel
theorem test_witness_Activation : (let s := { run with host := { run.host with fwPending := some (true, 3) } };
    s.host.recovery = false ∧ s.host.visible = [] ∧ s.host.st = .running ∧ s.stp.step < 3 ∧ ({ s with stp := { s.stp with step := 3 } } : State).host.fwPending = some (true, 3)) := by decide
theorem test_activation_burns_svn : (let s := { run with host := { run.host with fwPending := some (true, 0) }, dev := { run.dev with slotB := { run.dev.slotA with svn := 3 } } };
    (after .fwActivation s).dev.svnFuses = 3 ∧ (after .fwActivation s).host.runB = true ∧ (after .fwHealthTimeout s).host.runB = false) := by decide +kernel
theorem test_witness_QueueClear : run.takes (hdr 64) ∧ (0x10000#64).toNat % 4096 = 0 ∧ 2 ^ Nat.log2 (64#32).toNat = (64#32).toNat ∧ 2 ^ Nat.log2 (65536#32).toNat = (65536#32).toNat ∧
    run.flt.stash = [] ∧ (inSt .stopped).takes (hdr 64) ∧ (inSt .stopped).thy.phaseLost = false ∧
    (let s := { (inSt .stopped) with thy := { run.thy with phaseLost := true, master := false } }; s.takes (hdr 64) ∧ s.thy.phaseLost = true ∧ s.thy.master = false) := by unfold State.takes; decide +kernel
theorem test_fault_clear : (after (.faultClear (hdr 64) false false) { (inSt .stopped) with flt := { run.flt with unacked := true, head := 3 } }).flt.unacked = false ∧
    (after (.faultClear (hdr 64) false false) { (inSt .stopped) with flt := { run.flt with unacked := true, head := 3 } }).flt.head = 3 := by decide +kernel
/-- The body of a sealed IDENTIFY packet with its reply at 0x1000, and its seal. -/
def Tests.sealed : List Byte := leBytes 2 1 ++ zeros 2 ++ leBytes 4 7 ++ leBytes 8 0x1000 ++ zeros 232 ++ [16, 0, 0, 0]
def Tests.sealWord : W32 := crc32c (leBytes 2 1 ++ zeros 2 ++ leBytes 4 7 ++ leBytes 8 0x1000 ++ [16, 0, 0, 0])
theorem test_witness_Seals : run.powered = true ∧ run.host.visible = [] ∧ run.regsSorted ∧ sealOk (fullBody [] ++ leBytes 4 (1#32).toNat) = false ∧ sealWord ≠ 0 ∧ run.sageUp = true := by decide +kernel
theorem test_witness_Sealed : (let p := fullBody sealed ++ leBytes 4 sealWord.toNat;
    run.takes (packetHdr p) ∧ sealOk p = true ∧ headOk p = true ∧ fld p 0 2 = 0x01 ∧ paramsOk p (packetLen p) [] = true) := by unfold State.takes; decide +kernel
theorem test_witness_Seals_waiting : State.reset.powered = true ∧ State.reset.sageUp = false ∧ State.reset.host.visible = [] ∧
    (3 : Nat) ∈ ({ run with host := { run.host with visible := [3] } } : State).host.visible := by decide
/-- A stopped job with a time-out, and the complete journal generation of step 0. -/
def Tests.stoppedJob : State :=
  { busyMask (inSt .stopped) with
    host := { run.host with st := .stopped, faultMode := 1 }
    ring := { run.ring with merges := [{ merge with cls := 0x30, acted := true }] }
    mir := { run.mir with gens := [⟨0, [], (List.range 64).flatMap (fun n => allStreams.map (fun st => (n, st, StreamCtx.reset))), some [], some ([], 0), false⟩] } }
theorem test_witness_AutomaticRecovery : run.host.faultMode ≠ 1 ∧ stoppedJob.host.faultMode = 1 ∧ stoppedJob.host.st = .stopped ∧ stoppedJob.mir.fenced = false ∧ stoppedJob.busy = false ∧
    stoppedJob.host.fwPending = none ∧ stoppedJob.incident = some { merge with cls := 0x30, acted := true } ∧ stoppedJob.regs.crcBad = false ∧ stoppedJob.host.noSpare = false ∧ stoppedJob.host.reload = false ∧ stoppedJob.noService = false ∧
    (stoppedJob.gen? ([4, 3].foldl min stoppedJob.stp.step)).isSome = true ∧ stoppedJob.nothingInFlight = false ∧
    kvGet 0 stoppedJob.flt.autoCounts ([4, 3].foldl min stoppedJob.stp.step) < stoppedJob.regN Reg.FLT_AUTO_CTRL % 256 := by decide +kernel
/-- A journal entry of one block of equal bytes. -/
def Tests.jentry (a v : Nat) : JEntry := ⟨a, 0, List.replicate 2048 (BitVec.ofNat 8 v)⟩
/-- The complete generation of step 2. -/
def Tests.jgen2 : JGen :=
  ⟨2, [jentry 0x100800 9, jentry 0x102000 1], (List.range 64).flatMap (fun n => allStreams.map (fun st => (n, st, { StreamCtx.reset with pc := 64, step := 2 }))),
    some (List.replicate 16 ⟨40, 3, 2⟩), some ([(7, weight)], 5), false⟩
/-- A job in step 4 whose journal goes back to step 2. -/
def Tests.jobAt (st : ModState) : State :=
  { (inSt st) with mir := { run.mir with gens := [jgen2, ⟨3, [jentry 0x102000 2], [], none, none, false⟩] }, stp := { run.stp with step := 4, base := 50 } }
/-- That job stopped by an incident. -/
def Tests.jobStopped (cls : Nat) : State :=
  { (jobAt .stopped) with
    host := { run.host with st := .stopped, faultMode := 1 }
    ring := { run.ring with merges := [{ merge with cls := cls, acted := true }] } }
theorem test_witness_Rollback : (jobAt .held).takes (hdr 64) ∧ (jobAt .held).resumeRefusal true 2 1000 = none ∧ (jobAt .held).nothingInFlight = true ∧
    (busyMask (jobAt .held)).nothingInFlight = false ∧ (jobAt .held).gen? 3 = none ∧ (jobAt .held).host.substWaiting = [] ∧ (jobAt .held).host.st = .held ∧
    (jobAt .held).mir.fenced = false ∧ (jobAt .held).regs.crcBad = false ∧ (jobAt .held).host.noSpare = false ∧ (jobAt .held).host.reload = false := by unfold State.takes; decide +kernel
theorem test_witness_Rollback_journal : (jobAt .held).journalWhole ∧ (jobAt .held).givesBack 2 0x100801 (jentry 0x100800 9) ∧
    (jobAt .held).givesBack 2 0x102000 (jentry 0x102000 1) ∧ Memory.wf (jobAt .held).mem := by
  unfold State.journalWhole State.givesBack JEntry.holds; decide +kernel
theorem test_witness_Rollback_generation : (jobAt .held).gen? 2 = some jgen2 ∧ (jobStopped 0x30).gen? ([4, 2].foldl min (jobStopped 0x30).stp.step) = some jgen2 :=
  ⟨List.find?_cons_of_pos (by decide +kernel), List.find?_cons_of_pos (by decide +kernel)⟩
theorem test_rollback_restores : (let t := after (.resume (hdr 64) 1 0 2 1000) { jobAt .held with mir := { (jobAt .held).mir with gens := (jobAt .held).mir.gens.map fun g => { g with entries := g.entries.map fun e => { e with bytes := e.bytes.take 8 } } } };
    t.stp.step = 2 ∧ t.stp.base = 1000 ∧ t.get 0x102000 2 = [1#8, 1#8] ∧ t.get 0x100800 1 = [9#8] ∧ (t.ctx 0 .f).pc = 64) := by decide +kernel
theorem test_witness_AutomaticRecovery_rolls : (let s := jobStopped 0x30;
      s.host.faultMode = 1 ∧ s.host.st = .stopped ∧ s.mir.fenced = false ∧ s.busy = false ∧ s.host.fwPending = none ∧
      s.incident = some { merge with cls := 0x30, acted := true } ∧ s.nothingInFlight = true ∧
      s.noService = false ∧ kvGet 0 s.flt.autoCounts 2 < s.regN Reg.FLT_AUTO_CTRL % 256 ∧
      s.regN Reg.FLT_AUTO_CTRL % 256 ≤ kvGet 0 ({ s with flt := { s.flt with autoCounts := [(2, 9)] } } : State).flt.autoCounts 2 ∧ s.gen? 3 = none) ∧
    (jobStopped 0x43).incident = some { merge with cls := 0x43, acted := true } ∧ (0x43 : Nat) ∉ [0x12, 0x30, 0x31, 0x60, 0x50, 0x51, 0x52, 0x71, 0x80] := by decide +kernel
theorem test_recovery_plans : (after (.autoRecovery [4, 3] [50] true) stoppedJob).host.restart = some ⟨none, true, false, 0, max 50 (stoppedJob.tick) + stoppedJob.autoMargin⟩ := by decide +kernel
theorem test_witness_StepbInRange : (runC .b fun c => { c with recompute := some ⟨0, 4, 80, 0, 0⟩ }).clear (at_ .b) [] = true ∧
    ((runC .b fun c => { c with recompute := some ⟨0, 4, 80, 0, 0⟩ }).ctx 0 .b).recompute.isSome = true := by decide +kernel
theorem test_witness_BaseFaults : run.clear (at_ .f) [] = true ∧ 16 ≤ (16#5 : BitVec 5).toNat ∧ run.clear (at_ .f) [3] = true := by decide +kernel
theorem test_witness_StrobeConflict : strobing.barUp = true ∧ strobing.regsSorted ∧ (regRow Reg.THY_HOLDOVER_MAX).map (fun r => (r.acc, strobing.strobing r.group)) = some (.rw, true) ∧
    msixOffset Reg.THY_HOLDOVER_MAX = false ∧
    (let s := { strobing with flt := { strobing.flt with eqAddr := some 0x10000, eqSize := 64 } };
      Memory.wf s.hostMem ∧ s.entryFits 0 = true ∧ s.activating = none ∧ windowCount s.flt.windowCounts 0x42 s.ring.addr < s.regN Reg.FLT_RATE % 65536) := by decide +kernel
theorem test_conflict_event : (let s := { strobing with flt := { strobing.flt with eqAddr := some 0x10000, eqSize := 64 } };
    (memGet (after (.registerWrite .host Reg.THY_HOLDOVER_MAX (.word 0xF 5)) s).hostMem 0x10000 32).map (·.toNat)) =
    [0x42, 0, 0, 0, 1, 0, 0, 0, 0, 0, 0, 0, 0, 0, 0, 0, 0, 0, 0, 0, 0, 0, 0, 0] ++ (leBytes 4 Reg.THY_HOLDOVER_MAX).map (·.toNat) ++ [1, 0, 0, 0] := by decide +kernel
end

section
/-! The invariant, step by step (O3, O4). `State.InvTo b` is the invariant with `b` as the bound of the cycle: the cycles that end a period pass the bound 255 of `State.Inv` before the next period begins (R234). Each lemma `State.InvTo.f` says that the update `f` of the model keeps it, so that a proof about a chain of updates is the same chain of lemmas. -/

/- The side conditions of `withRing`, `withRegs`, `withThy` and `modThy` are proofs inside proofs; elaborated out of order, each keeps a thread waiting. -/
set_option Elab.async false

namespace Sys2Proof.Machine

/-- The invariant of the module with the cycle bounded by `b` (R3, R12, R103, R206, R234, R249, R312, R402). -/
structure State.InvTo (s : State) (b : Nat) : Prop where
  mem : Memory.wf s.mem
  hostMem : Memory.wf s.hostMem
  regs : s.regsSorted
  arrays : s.arrays.length = 64
  ports : s.ring.ports.length = 5
  counters : s.wct.length = 16
  dill : s.dill.length = 4
  cyc : s.thy.cyc ≤ b

/-- The invariant is the one with the bound 255. -/
theorem State.inv_iff_invTo (s : State) : s.Inv ↔ s.InvTo 255 := ⟨fun h => { h with }, fun h => { h with }⟩

/-- An outcome whose next state, if it has one, meets the invariant up to `b`. -/
def NextTo (b : Nat) : Host.Outcome State Fault Refusal → Prop
  | .next t => t.InvTo b
  | _ => True

namespace State.InvTo

variable {s t : State} {b : Nat}

/-! ### How the invariant goes through choices and folds -/

theorem mono {c : Nat} (hs : s.InvTo b) (hbc : b ≤ c) : s.InvTo c := { hs with cyc := hs.cyc.trans hbc }

theorem ite {c : Prop} [Decidable c] (hs : s.InvTo b) (ht : t.InvTo b) : (if c then s else t).InvTo b := by
  split <;> assumption

/-- An update that is made only under a condition. -/
theorem onlyIf {c : Prop} [Decidable c] (hs : s.InvTo b) (ht : s.InvTo b → t.InvTo b) : (if c then t else s).InvTo b := (ht hs).ite hs

theorem ite_fst {α : Type} {c : Prop} [Decidable c] {x y : State × α} (hx : x.1.InvTo b) (hy : y.1.InvTo b) :
    (if c then x else y).1.InvTo b := by
  split <;> assumption

theorem fst {α : Type} {x : α} (hs : s.InvTo b) : (s, x).1.InvTo b := hs

theorem ite_snd {α : Type} {c : Prop} [Decidable c] {x y : α × State} (hx : x.2.InvTo b) (hy : y.2.InvTo b) :
    (if c then x else y).2.InvTo b := by
  split <;> assumption

theorem snd {α : Type} {x : α} (hs : s.InvTo b) : (x, s).2.InvTo b := hs

theorem nextTo_ite {c : Prop} [Decidable c] {x y : Host.Outcome State Fault Refusal} (hx : NextTo b x) (hy : NextTo b y) :
    NextTo b (if c then x else y) := by
  split <;> assumption

theorem foldl {α : Type} {f : State → α → State} {l : List α} (hs : s.InvTo b) (hf : ∀ {s x}, s.InvTo b → (f s x).InvTo b) :
    (l.foldl f s).InvTo b := by
  induction l generalizing s with
  | nil => exact hs
  | cons x l ih => exact ih (hf hs)

/-! ### The updates of one field -/

theorem withDev {d} (hs : s.InvTo b) : ({ s with dev := d } : State).InvTo b := { hs with }

theorem withStp {x} (hs : s.InvTo b) : ({ s with stp := x } : State).InvTo b := { hs with }

theorem withMask {m} (hs : s.InvTo b) : ({ s with mask := m } : State).InvTo b := { hs with }

theorem withTiers {x} (hs : s.InvTo b) : ({ s with tiers := x } : State).InvTo b := { hs with }

theorem withMir {m} (hs : s.InvTo b) : ({ s with mir := m } : State).InvTo b := { hs with }

theorem withStpMir {x m} (hs : s.InvTo b) : ({ s with stp := x, mir := m } : State).InvTo b := { hs with }

theorem withFlt {f} (hs : s.InvTo b) : ({ s with flt := f } : State).InvTo b := { hs with }

theorem withPwr {x} (hs : s.InvTo b) : ({ s with pwr := x } : State).InvTo b := { hs with }

theorem withHost {h} (hs : s.InvTo b) : ({ s with host := h } : State).InvTo b := { hs with }

theorem withRing {r : Ring} (hs : s.InvTo b) (hr : r.ports.length = s.ring.ports.length := by exact rfl) :
    ({ s with ring := r } : State).InvTo b := { hs with ports := hr.trans hs.ports }

theorem withRingMir {r : Ring} {m} (hs : s.InvTo b) (hr : r.ports.length = s.ring.ports.length := by exact rfl) :
    ({ s with ring := r, mir := m } : State).InvTo b := (hs.withRing hr).withMir

theorem withRegs {r : RegState} (hs : s.InvTo b) (hr : r.vals = s.regs.vals := by exact rfl) :
    ({ s with regs := r } : State).InvTo b :=
  { hs with regs := show r.vals.Pairwise _ from hr ▸ hs.regs }

theorem withThy {x : Thyme} (hs : s.InvTo b) (hx : x.cyc = s.thy.cyc := by exact rfl) : ({ s with thy := x } : State).InvTo b :=
  { hs with cyc := hx.trans_le hs.cyc }

theorem withMem {m : Cells} (hs : s.InvTo b) (hm : Memory.wf m) : ({ s with mem := m } : State).InvTo b := { hs with mem := hm }

theorem putHostMem {a bs} (hs : s.InvTo b) : ({ s with hostMem := memPut s.hostMem a bs } : State).InvTo b :=
  { hs with hostMem := memPut_wf _ _ _ hs.hostMem }

theorem emptyMem (hs : s.InvTo b) : ({ s with mem := [] } : State).InvTo b := hs.withMem ⟨.nil, fun _ h => nomatch h⟩

theorem modArr {n g} (hs : s.InvTo b) : (s.modArr n g).InvTo b := { hs with arrays := by simp [hs.arrays] }

theorem modCtx {n st g} (hs : s.InvTo b) : (s.modCtx n st g).InvTo b := hs.modArr

theorem mapArrays {g : ArrayState → ArrayState} (hs : s.InvTo b) : ({ s with arrays := s.arrays.map g } : State).InvTo b :=
  { hs with arrays := by simp [hs.arrays] }

theorem zipArrays {g : ArrayState × Nat → ArrayState} (hs : s.InvTo b) : ({ s with arrays := s.arrays.zipIdx.map g } : State).InvTo b :=
  { hs with arrays := by simp [hs.arrays] }

theorem modPort {p g} (hs : s.InvTo b) : (s.modPort p g).InvTo b := { hs with ports := by simp [State.modPort, hs.ports] }

theorem modCounter {c g} (hs : s.InvTo b) : (s.modCounter c g).InvTo b := { hs with counters := by simp [State.modCounter, hs.counters] }

theorem setDill {i x} (hs : s.InvTo b) : ({ s with dill := s.dill.set i x } : State).InvTo b := { hs with dill := by simp [hs.dill] }

theorem modThy {g} (hs : s.InvTo b) (hg : ∀ t, (g t).cyc = t.cyc := by exact fun _ => rfl) : (s.modThy g).InvTo b :=
  { hs with cyc := (hg _).trans_le hs.cyc }

theorem modWeight {w g} (hs : s.InvTo b) : (s.modWeight w g).InvTo b := hs.withMask

/-! ### Registers -/

theorem setReg {off v} (hs : s.InvTo b) : (s.setReg off v).InvTo b := { hs with regs := kvSet_sorted _ _ _ _ hs.regs }

theorem setBits {off m} (hs : s.InvTo b) : (s.setBits off m).InvTo b := hs.withRegs.setReg

theorem bump {off n} (hs : s.InvTo b) : (s.bump off n).InvTo b := hs.ite hs.setReg

theorem setRw {off v} (hs : s.InvTo b) : (s.setRw off v).InvTo b := hs.setReg.withRegs

theorem setReg64 {off v} (hs : s.InvTo b) : (s.setReg64 off v).InvTo b := hs.setReg.setReg

theorem bump64 {off n} (hs : s.InvTo b) : (s.bump64 off n).InvTo b := hs.ite hs.setReg64

theorem bumpArr {n r k} (hs : s.InvTo b) : (s.bumpArr n r k).InvTo b := hs.bump

theorem bumpArr64 {n r k} (hs : s.InvTo b) : (s.bumpArr64 n r k).InvTo b := hs.bump64

theorem setArrBits {n r m} (hs : s.InvTo b) : (s.setArrBits n r m).InvTo b := hs.setBits

theorem clearRegs {p} (hs : s.InvTo b) : (s.clearRegs p).InvTo b := { hs with regs := hs.regs.filter _ }

theorem used {n} (hs : s.InvTo b) : (s.used n).InvTo b := { hs with }

/-! ### Frames and ports -/

theorem sendFrame {p f} (hs : s.InvTo b) : (s.sendFrame p f).InvTo b := hs.modPort

theorem applyCal {p} (hs : s.InvTo b) : (s.applyCal p).InvTo b := hs.withHost

theorem trainPort {p} (hs : s.InvTo b) : (s.trainPort p).InvTo b := hs.applyCal.modPort

theorem giveCredit {p c v n} (hs : s.InvTo b) : (s.giveCredit p c v n).InvTo b := hs.sendFrame

theorem releaseHeld {r} (hs : s.InvTo b) : (s.releaseHeld r).InvTo b := hs.foldl (·.giveCredit)

theorem flood {p f} (hs : s.InvTo b) : (s.flood p f).InvTo b := hs.foldl (·.sendFrame)

theorem isBack {a} (hs : s.InvTo b) : (s.isBack a).InvTo b := hs.withRing

theorem sendRouted {d f} (hs : s.InvTo b) : (s.sendRouted d f).InvTo b := hs.bump.ite hs.sendFrame

theorem sendTo {m d f} (hs : s.InvTo b) : (s.sendTo m d f).InvTo b := hs.sendFrame.ite hs.sendRouted

/-! ### The Thyme master -/

theorem sendPhase {typ ps i} (hs : s.InvTo b) : (s.sendPhase typ ps i).InvTo b := hs.foldl (·.sendFrame)

theorem announce (hs : s.InvTo b) : s.announce.InvTo b := hs.sendPhase

theorem masterHoldOn {a} (hs : s.InvTo b) : (s.masterHoldOn a).InvTo b := by
  unfold State.masterHoldOn
  have h1 := hs.modThy (g := fun t => { t with levels := if t.levels.contains a then t.levels else t.levels ++ [a] })
  dsimp only
  split
  · exact h1.modThy.announce
  · split
    · exact h1
    · exact h1.modThy.announce.ite h1.modThy.announce

theorem masterHoldOff {a} (hs : s.InvTo b) : (s.masterHoldOff a).InvTo b := by
  unfold State.masterHoldOff
  have h1 := hs.modThy (g := fun t => { t with levels := t.levels.filter (· != a) })
  dsimp only
  split
  · exact h1.ite h1.modThy.announce
  · exact h1

theorem masterRate (hs : s.InvTo b) : s.masterRate.InvTo b := hs.modThy.announce.ite (hs.modThy.announce.ite hs)

theorem retarget {l} (hs : s.InvTo b) : (s.retarget l).InvTo b := hs.modThy.masterRate

theorem masterRequest {a r} (hs : s.InvTo b) : (s.masterRequest a r).InvTo b := hs.retarget

theorem dropMember {a} (hs : s.InvTo b) : (s.dropMember a).InvTo b := hs.retarget.ite hs

theorem tellsLoss {a c} (hs : s.InvTo b) : (s.tellsLoss a c).InvTo b := hs.withRing.dropMember.ite hs

theorem thymeMsg {k v} (hs : s.InvTo b) : (s.thymeMsg k v).InvTo b :=
  (hs.masterHoldOff.ite (hs.masterHoldOn.ite hs.masterRequest)).ite hs.sendTo

/-! ### Events -/

theorem signalEvents {v} (hs : s.InvTo b) : (s.signalEvents v).InvTo b := by
  unfold State.signalEvents
  split
  exact hs.withFlt.ite hs

theorem loseEntry (hs : s.InvTo b) : s.loseEntry.InvTo b := hs.bump.setBits

theorem writeEntry {e} (hs : s.InvTo b) : (s.writeEntry e).InvTo b := by
  refine hs.withFlt.ite (hs.loseEntry.ite ?_)
  split
  · exact hs.withFlt
  · exact signalEvents { hs.putHostMem with }

theorem endHandover (hs : s.InvTo b) : s.endHandover.InvTo b := hs.withFlt.foldl (·.writeEntry)

theorem flushEntries (hs : s.InvTo b) : s.flushEntries.InvTo b := hs.withFlt.foldl (·.writeEntry)

theorem countEvent (hs : s.InvTo b) : s.countEvent.InvTo b := hs.bump.setBits

theorem postEvent {c o a d} (hs : s.InvTo b) : (s.postEvent c o a d).InvTo b :=
  have hc := hs.countEvent
  hc.bump.withFlt.ite (hc.withFlt.ite hc).writeEntry

theorem event {c d} (hs : s.InvTo b) : (s.event c d).InvTo b := hs.postEvent

end State.InvTo
end Sys2Proof.Machine
end

section
/-! The invariant through faults, issue and the writes to memory. -/

set_option Elab.async false

namespace Sys2Proof.Machine
namespace State.InvTo

variable {s t : State} {b : Nat}

/-! ### Reports of faults and losses -/

/-- The buffers of receives that end early are undefined. -/
theorem spoilRecvs {l : List Recv} (hs : s.InvTo b) :
    (l.foldl (fun (s : State) r => ({ s with mem := memPut s.mem r.buf (s.freeBytes r.len), freeCtr := s.freeCtr + r.len } : State).releaseHeld r) s).InvTo b :=
  hs.foldl fun h => releaseHeld { h with mem := memPut_wf _ _ _ h.mem }

theorem releasePartner {a} (hs : s.InvTo b) : (s.releasePartner a).InvTo b := hs.spoilRecvs.withRing (by simp)

theorem sendRebinds {a} (hs : s.InvTo b) : (s.sendRebinds a).InvTo b := by
  unfold State.sendRebinds
  split
  · exact hs
  · exact hs.foldl fun h => by split; exacts [h, h.sendTo]

theorem twinLost (hs : s.InvTo b) : s.twinLost.InvTo b := hs.withMir.setBits.postEvent.sendRebinds.ite hs

theorem holdOff (hs : s.InvTo b) : s.holdOff.InvTo b := by
  unfold State.holdOff
  exact (hs.thymeMsg.ite hs).modThy

theorem actOn {e} (hs : s.InvTo b) : (s.actOn e).InvTo b := by
  have h := hs.withFlt (f := { s.flt with stopAsked := true }) |>.releasePartner (a := e.subject) |>.holdOff
  unfold State.actOn
  exact ite (h.masterHoldOff.ite h) (h.masterHoldOff.ite h).countEvent.writeEntry

theorem noteEcc {a c} (hs : s.InvTo b) : (s.noteEcc a c).InvTo b := hs.withMir.ite hs

theorem enterBeacon {a c m f p} (hs : s.InvTo b) : (s.enterBeacon a c m f p).1.InvTo b := by
  unfold State.enterBeacon
  split
  · exact (hs.withRing.noteEcc.ite hs.withRing).bump.fst
  · split
    · exact hs.bump.setBits.flood.fst
    · exact hs.withRing.noteEcc.fst

theorem entryActs {x : State × Option Merge} (hx : x.1.InvTo b) : (State.entryActs x).InvTo b := by
  unfold State.entryActs
  split
  · exact hx
  · exact hx.actOn.ite hx

theorem enterReport {a c} (hs : s.InvTo b) : (s.enterReport a c).1.InvTo b := by
  unfold State.enterReport
  exact ite_fst (bump (ite hs.setBits (hs.setBits.ite hs))).fst (enterBeacon (withRing (ite hs.setBits (hs.setBits.ite hs))))

theorem settleEntry {x : State × Option Merge} (hx : x.1.InvTo b) : (State.settleEntry x).InvTo b := by
  unfold State.settleEntry
  dsimp only
  split
  · exact hx.entryActs
  · exact hx.entryActs.ite (hx.entryActs.ite hx.entryActs.tellsLoss.enterReport.entryActs).twinLost

theorem mergeBeacon {a c m f p} (hs : s.InvTo b) : (s.mergeBeacon a c m f p).InvTo b := hs.tellsLoss.enterBeacon.settleEntry

theorem report {a c} (hs : s.InvTo b) : (s.report a c).InvTo b := hs.tellsLoss.enterReport.settleEntry

theorem faultEntry {r} (hs : s.InvTo b) : (s.faultEntry r).InvTo b := hs.withFlt.ite hs.withFlt

theorem startCopy {c} (hs : s.InvTo b) : (s.startCopy c).InvTo b := by
  refine hs.ite ?_
  split
  · exact hs.ite hs.withTiers
  · split
    · exact hs.setBits
    · exact hs.withTiers.setReg64.setBits.event.ite hs.withTiers.setReg64

theorem selfTest {n} (hs : s.InvTo b) : (s.selfTest n).InvTo b := hs.ite hs.withHost

theorem countCorrected {c n} (hs : s.InvTo b) : (s.countCorrected c n).InvTo b := hs.withTiers.setBits.startCopy.ite hs.withTiers

theorem correctBlock {x} (hs : s.InvTo b) : (s.correctBlock x).InvTo b := hs.withTiers.countCorrected

theorem correctWord {w} (hs : s.InvTo b) : (s.correctWord w).InvTo b := hs.withTiers.bumpArr

theorem correctAt {a n} (hs : s.InvTo b) : (s.correctAt a n).InvTo b := hs.ite ((hs.foldl (·.correctBlock)).ite (hs.foldl (·.correctWord)))

theorem eccEffects {r} (hs : s.InvTo b) : (s.eccEffects r).InvTo b := hs.bumpArr.selfTest.ite (hs.withTiers.setBits.startCopy.ite hs)

theorem recordFault {r} (hs : s.InvTo b) : (s.recordFault r).InvTo b :=
  have h := hs.eccEffects.bump.setBits.withFlt.faultEntry
  h.withFlt.ite h

theorem raise {r} (hs : s.InvTo b) : (s.raise r).InvTo b := hs.recordFault.withFlt.report.ite hs.recordFault

theorem raiseCode {c k} (hs : s.InvTo b) : (s.raiseCode c k).InvTo b := hs.raise

theorem nondet {r} (hs : s.InvTo b) : (s.nondet r).InvTo b := hs.bump64.bump.setBits

/-! ### Issue -/

theorem fetched {h i} (hs : s.InvTo b) : (s.fetched h i).InvTo b := hs.foldl (·.correctAt)

theorem askStage {o a} (hs : s.InvTo b) : (s.askStage o a).InvTo b := hs.ite hs.withTiers

theorem askJournal {k l} (hs : s.InvTo b) : (s.askJournal k l).InvTo b := hs.withMir

theorem setHead {h x} (hs : s.InvTo b) : (s.setHead h x).InvTo b := hs.modCtx

theorem askFor {h i k} (hs : s.InvTo b) : (s.askFor h i k).InvTo b := by
  unfold State.askFor
  split
  · exact hs.foldl (·.askStage)
  · exact hs.askJournal
  · exact hs

theorem countHold {h k l} (hs : s.InvTo b) : (s.countHold h k l).InvTo b := by
  unfold State.countHold
  split
  · exact hs.ite hs.bump
  · exact hs

theorem holdHead {h i k} (hs : s.InvTo b) : (s.holdHead h i k).InvTo b := by
  unfold State.holdHead
  dsimp only
  split
  · exact hs.askFor.setHead.ite hs.countHold.askFor.setHead
  · exact hs.countHold.askFor.setHead

theorem faultHead {h r} (hs : s.InvTo b) : (s.faultHead h r).InvTo b := hs.modCtx.raise

theorem issued {h i} (hs : s.InvTo b) : (s.issued h i).InvTo b := hs.modArr.bumpArr64

/-- An instruction keeps the invariant when its own effect does. -/
theorem issue_next {h i} {act : Nat → State → State} (hs : s.InvTo b) (ha : ∀ {slot t}, t.InvTo b → (act slot t).InvTo b) :
    NextTo b (issue h i act s) := by
  unfold issue
  split
  · exact hs
  · exact hs.holdHead
  · exact hs.faultHead
  · exact ha hs.fetched.issued

theorem addOp {n o} (hs : s.InvTo b) : (s.addOp n o).InvTo b := hs.modArr

theorem setOp {n o} (hs : s.InvTo b) : (s.setOp n o).InvTo b := hs.modArr

theorem dropOp {n k} (hs : s.InvTo b) : (s.dropOp n k).InvTo b := hs.modArr

/-! ### Accumulator units and entry records -/

theorem undefUnits {n l} (hs : s.InvTo b) : (s.undefUnits n l).InvTo b := hs.foldl (·.modArr.used)

theorem spoilUnits {n l} (hs : s.InvTo b) : (s.spoilUnits n l).InvTo b := hs.undefUnits.modArr

theorem retireOp {n o} (hs : s.InvTo b) : (s.retireOp n o).InvTo b := hs.dropOp.modArr

theorem countFinal {n u} (hs : s.InvTo b) : (s.countFinal n u).InvTo b :=
  have h := hs.bumpArr.setArrBits.ite hs
  h.setArrBits.ite h

theorem modGen {k g} (hs : s.InvTo b) : (s.modGen k g).InvTo b := hs.withMir

theorem captureStream {n st} (hs : s.InvTo b) : (s.captureStream n st).InvTo b := hs.ite hs.modGen

theorem captureCounters {k} (hs : s.InvTo b) : (s.captureCounters k).InvTo b := hs.ite hs.modGen

theorem captureWeights {k} (hs : s.InvTo b) : (s.captureWeights k).InvTo b := hs.ite hs.modGen

/-! ### Control and scalar instructions -/

theorem exec_stepb {h x} (hs : s.InvTo b) : NextTo b (execStepb h x s) :=
  hs.issue_next fun ht => (ht.modCtx.withStp.ite ht.modCtx).captureStream.captureCounters

theorem branch_next {op h x l c} (hs : s.InvTo b) : NextTo b (branch op h x l c s) := hs.issue_next id

theorem writeScalar {h r v} (hs : s.InvTo b) : (s.writeScalar h r v).InvTo b := hs.modCtx

theorem alu_next {op f h x} (hs : s.InvTo b) : NextTo b (alu op f h x s) := hs.issue_next (·.writeScalar)

/-! ### Writes to memory -/

theorem copyInto_wf {d : Staged} {o m a l} (hm : Memory.wf m) : Memory.wf (s.copyInto d o m a l) :=
  foldl_wf _ (fun m x h => by dsimp only; split; exacts [memSet_wf _ _ _ h, h]) _ _ hm

theorem intoWindows {a l} (hs : s.InvTo b) : (s.intoWindows a l).InvTo b :=
  hs.foldl fun h => h.ite (by split; exacts [h, (h.withMem (copyInto_wf h.mem)).ite h])

theorem corrected {l n} (hs : s.InvTo b) : (s.corrected l n).InvTo b := hs.ite (hs.foldl (·.correctAt))

theorem healed {a n} (hs : s.InvTo b) : (s.healed a n).InvTo b := hs.withTiers

theorem forwardBytes {c k a l} (hs : s.InvTo b) : (s.forwardBytes c k a l).InvTo b := hs.foldl (·.sendFrame)

theorem refillForward {a n} (hs : s.InvTo b) : (s.refillForward a n).InvTo b := by
  unfold State.refillForward
  split
  · exact hs.forwardBytes.ite hs
  · exact hs

theorem putPlain {a l} (hs : s.InvTo b) : (s.putPlain a l).InvTo b :=
  have h := hs.withMem (memPut_wf l s.mem a hs.mem)
  hs.ite (h.bump64.ite h).healed.intoWindows.refillForward

theorem putMem {a l} (hs : s.InvTo b) : (s.putMem a l).InvTo b := by
  unfold State.putMem
  dsimp only
  split
  · exact hs.corrected.putPlain
  · exact hs.corrected.putPlain.raise

theorem putAll {l} (hs : s.InvTo b) : (s.putAll l).InvTo b := hs.foldl (·.putMem)

/-- Writes that the journal may hold back keep the invariant when they do themselves. -/
theorem journaled {k l} {act : State → State} (hs : s.InvTo b) (ha : ∀ {t}, t.InvTo b → (act t).InvTo b) :
    (s.journaled k l act).InvTo b := by
  unfold State.journaled
  split
  · exact ha hs
  · exact hs.askJournal

theorem recordUse {n o} (hs : s.InvTo b) : (s.recordUse n o).InvTo b := hs.withTiers

theorem recordUses {n l} (hs : s.InvTo b) : (s.recordUses n l).InvTo b := hs.foldl (·.recordUse)

theorem exec_sldRegisterWritten {n k} (hs : s.InvTo b) : NextTo b (execSldRegisterWritten n k s) := by
  unfold execSldRegisterWritten
  split
  · split
    · split
      · exact hs
      · dsimp only
        split
        · exact hs.corrected.dropOp.raise
        · exact hs.corrected.dropOp.modCtx
    · exact hs
  · exact hs

theorem readBefore {n o} (hs : s.InvTo b) : (s.readBefore n o).InvTo b := hs.modArr

theorem landStore {n o} (hs : s.InvTo b) : (s.landStore n o).InvTo b := by
  unfold State.landStore
  split
  · exact hs.readBefore.putMem
  · exact hs

end State.InvTo
end Sys2Proof.Machine
end

section
/-! The invariant through products, descriptors and masks. -/

set_option Elab.async false

namespace Sys2Proof.Machine
namespace State.InvTo

variable {s t : State} {b : Nat}

/-! ### Matrix products -/

theorem skipSets {n p k} (hs : s.InvTo b) : (s.skipSets n p k).2.InvTo b := hs.modArr.undefUnits.snd

theorem startProduct {s0 : State} {h x a p k} (hs : s.InvTo b) : (s0.startProduct s h x a p k).InvTo b := by
  unfold State.startProduct
  exact (hs.modArr.skipSets.modCtx.ite hs.modArr.skipSets).recordUses.addOp

theorem issueMM_next {k op h x r} (hs : s.InvTo b) : NextTo b (s.issueMM k op h x r) := hs.issue_next (·.startProduct)

theorem exec_mmg {h x r} (hs : s.InvTo b) : NextTo b (execMmg h x r s) := hs.issue_next (·.startProduct)

theorem exec_mmgCand {h x r} (hs : s.InvTo b) : NextTo b (execMmgCand h x r s) := hs.issue_next (·.modArr.recordUses.addOp)

theorem productFault {n o r} (hs : s.InvTo b) : (s.productFault n o r).InvTo b := by
  unfold State.productFault
  exact hs.modArr.dropOp.spoilUnits.raise

theorem loadCells {p l} (hs : s.InvTo b) : (s.loadCells p l).2.InvTo b := by
  induction l generalizing s with
  | nil => exact hs
  | cons g l ih => exact ih (hs.used.ite hs)

theorem preload {p g} (hs : s.InvTo b) : (s.preload p g).2.InvTo b := by
  unfold State.preload
  exact ite_snd hs.snd hs.loadCells.snd

theorem exec_preloadEnd {n k} (hs : s.InvTo b) : NextTo b (execPreloadEnd n k s) := by
  unfold execPreloadEnd
  split
  · split
    · split
      · exact hs
      · split
        · exact hs
        · split
          · split
            · exact hs
            · exact hs.bump.setOp
          · split
            · exact hs.productFault
            · dsimp only
              split
              · exact hs.corrected.productFault
              · exact hs.corrected.preload.setOp
    · exact hs
  · exact hs

theorem endSegment {n o p g l} (hs : s.InvTo b) : (s.endSegment n o p g l).InvTo b := by
  have h := hs.foldl (f := fun (s : State) u => s.healed (accAddr n u 0) 65536) (l := p.accWrites g) (·.healed)
  unfold State.endSegment
  dsimp only
  exact ite h.modArr.setOp h.modArr.undefUnits.skipSets.setOp

theorem exec_segmentEnd {n k} (hs : s.InvTo b) : NextTo b (execSegmentEnd n k s) := by
  unfold execSegmentEnd
  split
  · split
    · split
      · exact hs
      · split
        · exact hs
        · dsimp only
          split
          · exact hs.corrected.productFault
          · exact hs.corrected.endSegment
    · exact hs
  · exact hs

theorem countStall {n} (hs : s.InvTo b) : (s.countStall n).InvTo b := by
  unfold State.countStall
  dsimp only
  split
  · exact hs.modArr.bumpArr.ite hs
  · exact hs

theorem enqueueFinal {n l} (hs : s.InvTo b) : (s.enqueueFinal n l).InvTo b := by
  unfold State.enqueueFinal
  exact hs.modArr.countStall

theorem exec_totalsFinal {n k} (hs : s.InvTo b) : NextTo b (execTotalsFinal n k s) := by
  unfold execTotalsFinal
  split
  · split
    · split
      · exact hs
      · split
        · exact hs
        · dsimp only
          split
          · exact hs.corrected.productFault
          · split
            · exact (hs.corrected.setOp.foldl (·.countFinal)).enqueueFinal
            · exact (hs.corrected.setOp.foldl (·.countFinal)).enqueueFinal
            · exact hs.corrected.setOp.countFinal.modArr
            · exact hs.corrected.journaled (·.countFinal.putAll.retireOp)
    · exact hs
  · exact hs

theorem tileEntered {n q} (hs : s.InvTo b) : (s.tileEntered n q).InvTo b := by
  unfold State.tileEntered
  split
  · split
    · exact ite hs.retireOp (ite_snd hs.skipSets hs.snd).setOp
    · exact hs.retireOp.ite hs
    · exact hs
  · exact hs

theorem exec_ftqEntry {n} (hs : s.InvTo b) : NextTo b (execFtqEntry n s) := by
  unfold execFtqEntry
  dsimp only
  split
  · exact hs
  · split
    · exact hs
    · exact hs.modArr.tileEntered.countStall

theorem addWords {n a f l} (hs : s.InvTo b) : (s.addWords n a f l).InvTo b := by
  unfold State.addWords
  exact (ite hs.putMem.bumpArr.setArrBits hs.putMem.bumpArr).setArrBits.ite (ite hs.putMem.bumpArr.setArrBits hs.putMem.bumpArr)

theorem applyMmg {n o p e l g} (hs : s.InvTo b) : (s.applyMmg n o p e l g).InvTo b := by
  unfold State.applyMmg
  exact ite hs.addWords.modArr.retireOp hs.addWords.modArr.setOp

theorem exec_gbAddition {n} (hs : s.InvTo b) : NextTo b (execGbAddition n s) := by
  unfold execGbAddition
  dsimp only
  split
  · exact hs
  · split
    · exact hs
    · split
      · exact hs
      · split
        · exact hs
        · split
          · exact hs.corrected.productFault
          · exact hs.corrected.journaled (·.applyMmg)

/-! ### DMA and the codec lanes -/

theorem issueDma_next {k op h x r} (hs : s.InvTo b) : NextTo b (s.issueDma k op h x r) := hs.issue_next (·.recordUses.modArr)

theorem spoilLane {l} (hs : s.InvTo b) : (s.spoilLane l).InvTo b := hs.foldl (·.putMem.used)

theorem stopLane {n l r} (hs : s.InvTo b) : (s.stopLane n l r).InvTo b := hs.spoilLane.modArr.modCtx.setBits.raise

theorem startTile {n l x} (hs : s.InvTo b) : (s.startTile n l x).InvTo b := by
  unfold State.startTile
  split
  · exact hs.stopLane
  · exact hs.modArr

theorem reach {n l} (hs : s.InvTo b) : (s.reach n l).InvTo b := by
  unfold State.reach
  split
  · exact hs.modArr
  · exact hs.bump.modArr.ite hs.startTile

theorem waitDir {n l} (hs : s.InvTo b) : (s.waitDir n l).InvTo b := hs.bump.modArr

theorem beginFetch {n l} (hs : s.InvTo b) : (s.beginFetch n l).InvTo b := hs.modArr

theorem failFetch {n l r} (hs : s.InvTo b) : (s.failFetch n l r).InvTo b := hs.journaled (·.putAll.stopLane)

theorem endFetch {n l} (hs : s.InvTo b) : (s.endFetch n l).InvTo b := by
  unfold State.endFetch
  dsimp only
  split
  · exact hs.failFetch
  · refine hs.modArr.ite ?_
    split
    · exact hs.corrected.failFetch
    · exact hs.corrected.journaled (·.putAll.reach)

theorem takeDesc {n st} (hs : s.InvTo b) : (s.takeDesc n st).InvTo b := by
  unfold State.takeDesc
  split
  · exact hs
  · exact hs.modArr.waitDir.ite hs.modArr.beginFetch

theorem exec_descriptorFetch {n st} (hs : s.InvTo b) : NextTo b (execDescriptorFetch n st s) := by
  unfold execDescriptorFetch
  split
  · exact hs.takeDesc
  · split
    · exact hs
    · split
      · exact hs.ite hs.beginFetch
      · split
        · exact hs
        · exact hs.waitDir.ite hs.endFetch

theorem tagTile {d a} (hs : s.InvTo b) : (s.tagTile d a).InvTo b := hs.withTiers.ite hs

theorem copyTags {l a d n} (hs : s.InvTo b) : (s.copyTags l a d n).InvTo b := hs.withTiers

theorem writeTile {n l x r} (hs : s.InvTo b) : (s.writeTile n l x r).InvTo b := by
  unfold State.writeTile
  split
  exact hs.journaled (·.putMem.bump64.used.tagTile.reach)

theorem exec_codecTile {n} (hs : s.InvTo b) : NextTo b (execCodecTile n s) := by
  unfold execCodecTile
  split
  · exact hs
  · split
    · exact hs
    · split
      · exact hs
      · split
        · split
          · exact hs
          · exact hs.startTile
        · split
          · exact hs
          · dsimp only
            split
            · exact hs.corrected.stopLane
            · exact hs.corrected.writeTile

theorem moved {d} (hs : s.InvTo b) : (s.moved d).InvTo b := by
  unfold State.moved
  split
  · exact hs.putMem.copyTags
  · exact hs.putMem
  · exact hs.addWords
  · exact hs.putAll

theorem exec_descriptorComplete {n} (hs : s.InvTo b) : NextTo b (execDescriptorComplete n s) := by
  unfold execDescriptorComplete
  split
  · exact hs
  · dsimp only
    split
    · exact hs
    · split
      · exact hs
      · split
        · exact hs.corrected.stopLane
        · exact hs.corrected.journaled (·.moved.modArr)

/-! ### The mask engine -/

theorem queueMask {o} (hs : s.InvTo b) : (s.queueMask o).InvTo b := hs.withMask

theorem issueMask_next {op h i k} (hs : s.InvTo b) : NextTo b (s.issueMask op h i k) := hs.issue_next (·.recordUses.queueMask)

theorem discard {k} (hs : s.InvTo b) : (s.discard k).InvTo b := by
  unfold State.discard
  split
  case h_6 => exact hs
  all_goals exact hs.modWeight

theorem maskFault {o f} (hs : s.InvTo b) : (s.maskFault o f).InvTo b := hs.discard.setBits.modCtx.raise

theorem openWeight {w x} (hs : s.InvTo b) : (s.openWeight w x).InvTo b := hs.putAll.modWeight

theorem startMask {o l w} (hs : s.InvTo b) : (s.startMask o l w).InvTo b := hs.withMask

theorem startOpening {o l w} (hs : s.InvTo b) : (s.startOpening o l w).InvTo b := by
  unfold State.startOpening
  dsimp only
  refine (hs.ite hs.withMask.bump).ite ?_
  split
  · exact hs.corrected.withMask.maskFault
  · exact hs.corrected.journaled (·.startMask.openWeight)

theorem exec_maskEngineStart (hs : s.InvTo b) : NextTo b (execMaskEngineStart s) := by
  unfold execMaskEngineStart
  split
  · split
    · exact hs.withMask.maskFault
    · split
      · exact hs.startMask
      · split
        · exact hs.startOpening
        · exact hs.startMask
      · exact hs.startMask
  · exact hs

theorem unstageWeight {w} (hs : s.InvTo b) : (s.unstageWeight w).InvTo b := hs.bump64.withTiers

theorem putReport {l} (hs : s.InvTo b) : (s.putReport l).InvTo b := by
  unfold State.putReport
  exact (ite (hs.putMem.bump.setBits.ite hs.putMem) hs.bump.setBits).bump.bump

theorem spoilWeight {k} (hs : s.InvTo b) : (s.spoilWeight k).InvTo b := by
  unfold State.spoilWeight
  split
  · exact (hs.foldl (·.putMem.used)).modWeight
  · exact hs

theorem endMask (hs : s.InvTo b) : s.endMask.InvTo b := hs.withMask

theorem beginCommit {o w n} (hs : s.InvTo b) : (s.beginCommit o w n).InvTo b := by
  refine ite ?_ (hs.endMask.maskFault.ite hs)
  split
  · exact hs.unstageWeight.modWeight.withMask
  · exact hs

theorem stallMask {o n} (hs : s.InvTo b) : (s.stallMask o n).InvTo b := hs.ite hs.withMask.bump

/-- What follows the writes of a mask operation, whatever the operation is. -/
theorem maskResult_after {o} (ht : t.InvTo b) : ((s.maskResult o).after t).InvTo b := by
  unfold State.maskResult
  dsimp only
  split
  · exact ht.withMask
  · split
    · exact ht
    · split <;> dsimp only
      · exact ht
      · exact ht.used.modWeight
      · exact ht.modWeight
      · exact ht.used.modWeight
      · exact ht.used.modWeight
      · exact ht.used.modWeight
      · exact (ite ht.bump.modWeight.bump ht.bump.modWeight).putReport
      · exact ht.modWeight.putReport

theorem finishMask {o n} (hs : s.InvTo b) : (s.finishMask o n).InvTo b := by
  unfold State.finishMask
  dsimp only
  refine hs.stallMask.ite ?_
  split
  · exact hs.corrected.endMask.spoilWeight.maskFault
  · exact hs.corrected.journaled fun ht => ht.putAll.endMask.maskResult_after

theorem exec_maskOpComplete (hs : s.InvTo b) : NextTo b (execMaskOpComplete s) := by
  unfold execMaskOpComplete
  split
  · exact hs
  · split
    · exact hs.beginCommit
    · split
      · exact hs
      · exact hs.finishMask

end State.InvTo
end Sys2Proof.Machine
end

section
/-! The invariant through reductions, vector passes, updates, contexts, staging and replies. -/

set_option Elab.async false

namespace Sys2Proof.Machine
namespace State.InvTo

variable {s t : State} {b : Nat}

/-! ### Reductions -/

theorem startRed {s0 : State} {h k x r n} (hs : s.InvTo b) : (s0.startRed s h k x r n).InvTo b := by
  unfold State.startRed
  exact (hs.modArr.modCtx.ite hs.modArr).recordUses.addOp

theorem issueRed_next {h k x r} (hs : s.InvTo b) : NextTo b (s.issueRed h k x r) := hs.issue_next (·.startRed)

theorem exec_redRetire {n k} (hs : s.InvTo b) : NextTo b (execRedRetire n k s) := by
  unfold execRedRetire
  split
  · split
    · split
      · exact hs
      · dsimp only
        split
        · exact hs.corrected.dropOp.spoilUnits.raise
        · split
          · exact hs.corrected.bumpArr.modArr.countFinal.enqueueFinal
          · exact hs.corrected.bumpArr.modArr.countFinal.retireOp
    · exact hs
  · exact hs

/-! ### The vector engine -/

theorem startVec {s0 : State} {h op r n} (hs : s.InvTo b) : (s0.startVec s h op r n).InvTo b := by
  unfold State.startVec
  exact (hs.modCtx.ite hs).recordUses.addOp

theorem issueVec_next {op h x r} (hs : s.InvTo b) : NextTo b (s.issueVec op h x r) := hs.issue_next (·.startVec)

theorem startPass {n o v} (hs : s.InvTo b) : (s.startPass n o v).InvTo b := by
  unfold State.startPass
  dsimp only
  split
  · exact hs.corrected.dropOp.raise
  · exact hs.corrected.setOp.bumpArr.modArr

theorem startDrain {n q} (hs : s.InvTo b) : (s.startDrain n q).InvTo b := by
  unfold State.startDrain
  exact hs.modArr.bumpArr

theorem exec_vectorPassStart {n} (hs : s.InvTo b) : NextTo b (execVectorPassStart n s) := by
  unfold execVectorPassStart
  dsimp only
  split
  · exact hs
  · split
    · exact hs
    · exact hs.startDrain
    · exact hs.startPass

theorem exec_passReadEnd {n} (hs : s.InvTo b) : NextTo b (execPassReadEnd n s) := by
  unfold execPassReadEnd
  dsimp only
  split
  · exact hs
  · split
    · exact hs
    · exact hs.modArr

theorem land {n l} (hs : s.InvTo b) : (s.land n l).InvTo b := hs.putAll.modArr

theorem exec_vectorWriteLanded {n k} (hs : s.InvTo b) : NextTo b (execVectorWriteLanded n k s) := by
  unfold execVectorWriteLanded
  split
  · exact hs
  · split
    · exact hs
    · exact hs.journaled fun ht => ht.land.dropOp.ite ht.land

theorem exec_drain {n} (hs : s.InvTo b) : NextTo b (execDrain n s) := by
  unfold execDrain
  split
  · exact hs
  · split
    · exact hs
    · exact hs.journaled (·.land)

theorem exec_queueOverflow {n} (hs : s.InvTo b) : NextTo b (execQueueOverflow n s) := by
  unfold execQueueOverflow
  dsimp only
  split
  · exact hs.modArr
  · exact hs

theorem exec_vtload {h x n r} (hs : s.InvTo b) : NextTo b (execVtload h x n r s) := hs.issue_next (·.recordUses.addOp)

theorem exec_vtloadRetire {n k} (hs : s.InvTo b) : NextTo b (execVtloadRetire n k s) := by
  unfold execVtloadRetire
  split
  · split
    · split
      · exact hs
      · dsimp only
        split
        · exact hs.corrected.dropOp.raise
        · exact hs.corrected.dropOp.modArr
    · exact hs
  · exact hs

/-! ### The update unit -/

theorem loseOp {n o} (hs : s.InvTo b) : (s.loseOp n o).InvTo b := hs.dropOp.modArr

theorem exec_unrm {h w x r} (hs : s.InvTo b) : NextTo b (execUnrm h w x r s) := hs.issue_next (·.modArr.addOp)

theorem markFinal {n} (hs : s.InvTo b) : (s.markFinal n).InvTo b := hs.modArr

theorem addNorm {n o w e f x} (hs : s.InvTo b) : (s.addNorm n o w e f x).InvTo b := by
  unfold State.addNorm
  dsimp only
  split
  · exact hs.corrected.loseOp.markFinal.raise
  · exact hs.corrected.dropOp.modArr.markFinal

theorem exec_unrmRetire {n k} (hs : s.InvTo b) : NextTo b (execUnrmRetire n k s) := by
  unfold execUnrmRetire
  split
  · split
    · split
      · exact hs
      · split
        · exact hs.dropOp.markFinal
        · exact hs.addNorm
    · exact hs
  · exact hs

theorem recordVerdict {n o g} (hs : s.InvTo b) : (s.recordVerdict n o g).InvTo b := by
  unfold State.recordVerdict
  dsimp only
  exact hs.withStp.setReg.ite (hs.withStp.setReg.raise.ite hs.withStp.setReg.bump.event)

theorem exec_uchkVerdict {n k} (hs : s.InvTo b) : NextTo b (execUchkVerdict n k s) := by
  unfold execUchkVerdict
  split
  · split
    · split
      · exact hs
      · exact (ite hs.recordVerdict hs).dropOp.modArr.modCtx.ite (ite hs.recordVerdict hs).dropOp.modArr
    · exact hs
  · exact hs

theorem enterWriting {w x v} (hs : s.InvTo b) : (s.enterWriting w x v).InvTo b := hs.modWeight

theorem exec_uverOpen {h w v} (hs : s.InvTo b) : NextTo b (execUverOpen h w v s) := by
  unfold execUverOpen
  refine hs.issue_next fun ht => ?_
  split
  · exact ht
  · exact ht.addOp.withMask.bump.ite ht.addOp.enterWriting

theorem endVerWait {v} (hs : s.InvTo b) : (s.endVerWait v).InvTo b := by
  unfold State.endVerWait
  dsimp only
  split
  · exact hs.withMask
  · exact enterWriting { hs.mapArrays with }

theorem settleVersions (hs : s.InvTo b) : s.settleVersions.InvTo b := hs.foldl fun h => h.ite h.endVerWait

theorem exec_uverCloseRetire {n k} (hs : s.InvTo b) : NextTo b (execUverCloseRetire n k s) := by
  unfold execUverCloseRetire
  split
  · split
    · split
      · exact hs.dropOp
      · split
        · exact hs
        · exact hs.dropOp.modWeight
    · exact hs
  · exact hs

theorem beginTile {n o w e} (hs : s.InvTo b) : (s.beginTile n o w e).InvTo b := by
  unfold State.beginTile
  split
  · exact hs
  · exact (hs.recordUse.ite hs).modArr

theorem deferTile {n o w e} (hs : s.InvTo b) : (s.deferTile n o w e).InvTo b := by
  unfold State.deferTile
  split
  · exact hs
  · exact hs.setOp.modArr.bumpArr.askStage

theorem takeTile {n} (hs : s.InvTo b) : (s.takeTile n).InvTo b := by
  refine hs.ite ?_
  split
  · exact hs.modArr.beginTile
  · split
    · exact hs
    · split
      · exact hs.setOp.beginTile.ite (hs.deferTile.ite hs)
      · exact hs

theorem markDirty {n o} (hs : s.InvTo b) : (s.markDirty n o).InvTo b := hs.withTiers

theorem writeUpdTile {n c o u} (hs : s.InvTo b) : (s.writeUpdTile n c o u).InvTo b := by
  have h : s.putAll u.writes |>.InvTo b := hs.putAll
  unfold State.writeUpdTile
  refine setOp (bumpArr (bumpArr (ite ?_ h))) |>.modArr
  split
  · exact h.markDirty.ite h
  · exact h

theorem leaveTile {n} (hs : s.InvTo b) : (s.leaveTile n).InvTo b := hs.modArr

theorem endUpdTile {n c o u} (hs : s.InvTo b) : (s.endUpdTile n c o u).InvTo b := by
  unfold State.endUpdTile
  dsimp only
  split
  · exact hs.corrected.loseOp.leaveTile.raise
  · exact hs.corrected.journaled (·.writeUpdTile.takeTile)

theorem exec_updTile {n} (hs : s.InvTo b) : NextTo b (execUpdTile n s) := by
  unfold execUpdTile
  split
  · exact hs.takeTile
  · split
    · exact hs
    · split
      · exact hs.leaveTile
      · exact hs.endUpdTile

theorem exec_deferTimeout {n} (hs : s.InvTo b) : NextTo b (execDeferTimeout n s) := by
  unfold execDeferTimeout
  split
  · exact hs
  · split
    · exact hs
    · exact (hs.loseOp.leaveTile.ite hs.loseOp).raise

/-! ### Contexts in memory and the placement engine -/

theorem forward {m} {act : State → State} (hs : s.InvTo b) (ha : ∀ {t}, t.InvTo b → (act t).InvTo b) : (s.forward m act).InvTo b :=
  hs.ite ((ha hs).ite hs.bump)

theorem exec_ctxAppend {h x r} (hs : s.InvTo b) : NextTo b (execCtxAppend h x r s) :=
  hs.issue_next fun ht => ht.ite ht.corrected.recordUses.addOp

theorem advanceHead {k e n} (hs : s.InvTo b) : (s.advanceHead k e n).InvTo b := hs.putMem.forward (·.sendFrame)

theorem settleAdvances {n} (hs : s.InvTo b) : (s.settleAdvances n).InvTo b :=
  hs.foldl fun h => by split; exacts [h.ite h.advanceHead.setOp, h]

theorem exec_ctxAdv {h x r} (hs : s.InvTo b) : NextTo b (execCtxAdv h x r s) :=
  hs.issue_next fun ht => ht.ite ht.corrected.addOp.settleAdvances

theorem endAppend {n o e x l} (hs : s.InvTo b) : (s.endAppend n o e x l).InvTo b := by
  unfold State.endAppend
  dsimp only
  split
  · exact hs.corrected.dropOp.raise.settleAdvances
  · exact hs.corrected.journaled fun ht => (ht.putAll.forward fun h => h.foldl (·.forwardBytes)).dropOp.settleAdvances

theorem exec_ctxAppendRetire {n k} (hs : s.InvTo b) : NextTo b (execCtxAppendRetire n k s) := by
  unfold execCtxAppendRetire
  split
  · split
    · split
      · exact hs
      · exact hs.endAppend
    · exact hs
  · exact hs

theorem setHint {n o k} (hs : s.InvTo b) : (s.setHint n o k).InvTo b := hs.withTiers

theorem exec_pstage {h x r} (hs : s.InvTo b) : NextTo b (execPstage h x r s) := by
  unfold execPstage
  refine hs.issue_next fun ht => ?_
  split
  · exact ht.setHint.ite ht
  · exact ht

theorem unstage {l} (hs : s.InvTo b) : (s.unstage l).InvTo b := hs.withTiers.bump64

theorem beginStage {c n} (hs : s.InvTo b) : (s.beginStage c n).InvTo b := hs.withTiers.bump

theorem placeOne {c} (hs : s.InvTo b) : (s.placeOne c).InvTo b := by
  refine hs.ite ?_
  split
  · exact hs
  · refine hs.ite ?_
    dsimp only
    split
    · exact hs
    · refine hs.ite ?_
      refine (unstage ?_).bump64.beginStage
      split
      · exact hs.unstage.bump
      · exact hs

theorem writeBackDirty (hs : s.InvTo b) : s.writeBackDirty.InvTo b := hs.withTiers.bump64

theorem exec_placementTick (hs : s.InvTo b) : NextTo b (execPlacementTick s) := hs.writeBackDirty.foldl (·.placeOne)

theorem fillFrames {d l} (hs : s.InvTo b) : (s.fillFrames d l).InvTo b :=
  hs.withMem (foldl_wf _ (fun _ _ h => memPut_wf _ _ _ h) _ _ hs.mem)

theorem endDeferral {n o} (hs : s.InvTo b) : (s.endDeferral n o).InvTo b :=
  hs.foldl fun h => by split; exacts [h.bumpArr64.ite h, h]

theorem exec_stagingComplete {n o} (hs : s.InvTo b) : NextTo b (execStagingComplete n o s) := by
  unfold execStagingComplete
  split
  · split
    · exact hs
    · dsimp only
      split
      · exact hs.withTiers.corrected.unstage.raise
      · exact hs.withTiers.corrected.withTiers.fillFrames.bump64.endDeferral
  · exact hs

theorem failHead {n st x c a} (hs : s.InvTo b) : (s.failHead n st x c a).InvTo b := hs.modCtx.raise

theorem exec_stageHoldTimeout {n st} (hs : s.InvTo b) : NextTo b (execStageHoldTimeout n st s) := by
  unfold execStageHoldTimeout
  split
  · split
    · split
      · exact hs
      · exact hs.failHead
    · exact hs
  · exact hs

/-! ### Replies -/

theorem signalReply {c} (hs : s.InvTo b) : (s.signalReply c).InvTo b := hs.withFlt.ite hs

theorem putReply {c a o u f d l} (hs : s.InvTo b) : (s.putReply c a o u f d l).InvTo b := hs.ite hs.putHostMem.signalReply

theorem reply {c o u f d l} (hs : s.InvTo b) : (s.reply c o u f d l).InvTo b := hs.putReply.bump

theorem replyDone {c o} (hs : s.InvTo b) : (s.replyDone c o).InvTo b := hs.reply

theorem refuse {c o f d} (hs : s.InvTo b) : (s.refuse c o f d).InvTo b := hs.reply

theorem replyPending {c o a} (hs : s.InvTo b) : (s.replyPending c o a).InvTo b := hs.putReply.withHost

theorem replyBoth {c o u f d l} (hs : s.InvTo b) : (s.replyBoth c o u f d l).InvTo b := hs.putReply.putReply.bump

theorem finalReply {u f d l} (hs : s.InvTo b) : (s.finalReply u f d l).InvTo b := by
  unfold State.finalReply
  split
  · exact hs
  · exact hs.putReply.withHost.bump

end State.InvTo
end Sys2Proof.Machine
end

section
/-! The invariant through ring messages, work counters, Dill, the mirror and rollback. -/

set_option Elab.async false

namespace Sys2Proof.Machine
namespace State.InvTo

variable {s t : State} {b : Nat}

/-! ### Ring contexts and messages -/

theorem modCtxE {i g} (hs : s.InvTo b) : (s.modCtxE i g).InvTo b := hs.withRing

theorem addCtxE {i e} (hs : s.InvTo b) : (s.addCtxE i e).InvTo b := hs.withRing

theorem freeCtxE {i} (hs : s.InvTo b) : (s.freeCtxE i).InvTo b := hs.withRing

theorem toPartner {i c p y g o a l} (hs : s.InvTo b) : (s.toPartner i c p y g o a l).InvTo b := hs.sendTo

theorem exec_rsend {h x r} (hs : s.InvTo b) : NextTo b (execRsend h x r s) := by
  unfold execRsend
  dsimp only
  split
  · exact hs.issue_next id
  · exact hs.issue_next (·.recordUses.modCtxE)

theorem exec_rrecv {h x r} (hs : s.InvTo b) : NextTo b (execRrecv h x r s) := hs.issue_next (·.modCtxE)

theorem armDue {i} (hs : s.InvTo b) : (s.armDue i).InvTo b := by
  unfold State.armDue
  split
  · exact hs
  · exact (hs.foldl (·.toPartner)).modCtxE

theorem sendOne {i c x a l} (hs : s.InvTo b) : (s.sendOne i c x a l).InvTo b := by
  unfold State.sendOne
  refine hs.modCtxE.modCtxE.raise.ite (hs.modCtxE.modCtxE.raise.ite ?_)
  dsimp only
  split
  · exact hs.modCtxE.modCtxE.raise
  · exact (hs.modCtxE.corrected.foldl (·.toPartner)).modCtxE

theorem sendDue {k i} (hs : s.InvTo b) : (State.sendDue k i s).InvTo b := by
  induction k generalizing s with
  | zero => exact hs
  | succ k ih =>
    unfold State.sendDue
    split
    · exact hs
    · split
      · exact hs.ite (ih hs.sendOne)
      · exact hs

theorem settleRing (hs : s.InvTo b) : s.settleRing.InvTo b := hs.foldl fun h => h.armDue.sendDue.ite h

theorem sendAck {p n} (hs : s.InvTo b) : (s.sendAck p n).InvTo b := hs.sendFrame

theorem hears {f} (hs : s.InvTo b) : (s.hears f).InvTo b := hs.ite hs.withRing

/-- A frame that the link accepts keeps the invariant when its effect does. -/
theorem linkIn {typ f} {k : State → State} (hs : s.InvTo b) (hk : ∀ {t}, t.InvTo b → (k t).InvTo b) : (s.linkIn typ f k).InvTo b := by
  have h := (hs.hears (f := f)).modPort (p := f.port)
    (g := fun q => ({ q.acked f.ackSeq with rxSeq := (q.rxSeq + 1) % 65536, rxSinceAck := q.rxSinceAck + 1 } : Port).pumped)
  unfold State.linkIn
  exact hs.ite (hs.bump.sendAck.ite (hs.modPort.ite (ite (hk (h.sendAck.ite h)) (hk (h.sendAck.ite h)).giveCredit)))

theorem forwardOn {typ f} (hs : s.InvTo b) : (s.forwardOn typ f).InvTo b := by
  unfold State.forwardOn
  exact hs.bump.ite hs.sendFrame

theorem arrives {typ f} {k : State → State} (hs : s.InvTo b) (hk : ∀ {t}, t.InvTo b → (k t).InvTo b) : (s.arrives typ f k).InvTo b :=
  hs.linkIn fun ht => (hk ht).ite ht.forwardOn

/-- A bay that changes resets its ports and trains them when it engages. -/
theorem changeBay {old new : Bool} {l : List Nat} (hs : s.InvTo b) :
    (if old == new then s else l.foldl (fun (s : State) p =>
      let s := s.modPort p (fun q => { Port.reset with wire := q.wire })
      if new then s.trainPort p else s) s).InvTo b :=
  hs.ite (hs.foldl fun h => h.modPort.trainPort.ite h.modPort)

theorem setBays {x y m} (hs : s.InvTo b) : (s.setBays x y m).InvTo b := by
  unfold State.setBays
  exact hs.changeBay.changeBay.changeBay.withRing.bump

theorem fence (hs : s.InvTo b) : s.fence.InvTo b := setBays { hs with }

theorem pruneGens (hs : s.InvTo b) : s.pruneGens.InvTo b := hs.withMir

theorem agree {k} (hs : s.InvTo b) : (s.agree k).InvTo b := by
  unfold State.agree
  exact (ite hs.withMir.bump.setReg64.withMir.bump.postEvent hs.withMir.bump.setReg64).pruneGens

theorem diverge {k} (hs : s.InvTo b) : (s.diverge k).InvTo b := by
  unfold State.diverge
  exact hs.withMir.setBits.report.ite
    (ite (hs.withMir.setBits.report.postEvent.setReg.withMir.foldl (·.selfTest)) hs.withMir.setBits.report.bump.setReg64.postEvent)

theorem compareHalves {k a} (hs : s.InvTo b) : (s.compareHalves k a).InvTo b := by
  unfold State.compareHalves
  split
  · exact hs.raise
  · exact hs.corrected.agree.ite hs.corrected.diverge

theorem maybeCompare {r} (hs : s.InvTo b) : (s.maybeCompare r).InvTo b := by
  unfold State.maybeCompare
  split
  · exact hs.compareHalves.ite hs
  · exact hs

theorem setRecv {i o n} (hs : s.InvTo b) : (s.setRecv i o n).InvTo b := hs.modCtxE

theorem dropRecv {i r} (hs : s.InvTo b) : (s.dropRecv i r).InvTo b := hs.modCtxE.releaseHeld

theorem addUnit {n a l} (hs : s.InvTo b) : (s.addUnit n a l).InvTo b := hs.addWords

theorem applyUnit {i c r a l} (hs : s.InvTo b) : (s.applyUnit i c r a l).InvTo b :=
  (hs.nondet.ite hs).addUnit.ite hs.putMem

theorem finishRecv {i c r} (hs : s.InvTo b) : (s.finishRecv i c r).InvTo b := hs.ite hs.dropRecv.toPartner.maybeCompare

theorem unitIn {i c u} {x : State × Recv} (hx : x.1.InvTo b) : (State.unitIn i c x u).1.InvTo b := ite_fst hx.applyUnit.fst hx.fst

theorem unitsIn {i c r} {l : List (Nat × List Byte)} (hs : s.InvTo b) : (l.foldl (State.unitIn i c) (s, r)).1.InvTo b :=
  List.foldlRecOn (motive := fun x : State × Recv => x.1.InvTo b) l _ hs fun _ hx _ _ => unitIn hx

theorem dataLands {i c r p v o l} (hs : s.InvTo b) : (s.dataLands i c r p v o l).InvTo b := by
  unfold State.dataLands
  exact ite hs.unitsIn.setRecv.finishRecv hs.putMem.setRecv.finishRecv

theorem discardData {i r a} (hs : s.InvTo b) : (s.discardData i r a).InvTo b := by
  unfold State.discardData
  dsimp only
  split
  · exact hs.bump.dropRecv.raise
  · exact hs.bump.raise

theorem dataIn {f} (hs : s.InvTo b) : (s.dataIn f).InvTo b := by
  unfold State.dataIn
  split
  · exact hs.discardData
  · refine hs.discardData.ite ?_
    dsimp only
    split
    · exact hs.discardData
    · refine hs.modCtxE.discardData.ite (hs.modCtxE.discardData.ite ?_)
      split
      · exact hs.modCtxE.dropRecv.raise
      · exact (hs.modCtxE.corrected.ite hs.modCtxE).dataLands

theorem settlePasses (hs : s.InvTo b) : s.settlePasses.InvTo b := hs.withMir.recordFault.postEvent.ite hs

theorem forwardedPut {a l} (hs : s.InvTo b) : (s.forwardedPut a l).InvTo b := hs.putMem.ite hs.bump.raise

theorem forwardIn {f} (hs : s.InvTo b) : (s.forwardIn f).InvTo b := by
  unfold State.forwardIn
  exact hs.withMir.setBits.ite (hs.withMir.ite (hs.withMir.ite (hs.withMir.settlePasses.ite
    (hs.forwardedPut.ite (hs.forwardedPut.ite hs.putMem)))))

theorem exec_dataFrame {f} (hs : s.InvTo b) : NextTo b (execDataFrame f s) := by
  unfold execDataFrame
  split
  exact hs.journaled fun ht => ht.arrives fun h => h.forwardIn.ite h.dataIn

theorem exec_addingUnitApply {i} (hs : s.InvTo b) : NextTo b (execAddingUnitApply i s) := by
  unfold execAddingUnitApply
  split
  · exact hs
  · split
    · exact hs
    · split
      · exact hs.dropRecv.raise
      · exact hs.journaled fun ht => (ht.corrected.ite ht).applyUnit.setRecv.finishRecv.releaseHeld

theorem protoIn {f} {k : CtxEntry → State → State} (hs : s.InvTo b) (hk : ∀ {c t}, t.InvTo b → (k c t).InvTo b) :
    (s.protoIn f k).InvTo b := by
  unfold State.protoIn
  split
  · exact (hk hs.modCtxE).ite hs
  · exact hs

theorem exec_armFrame {f} (hs : s.InvTo b) : NextTo b (execArmFrame f s) := hs.arrives fun ht => ht.protoIn (·.modCtxE.sendDue)

theorem exec_doneFrame {f} (hs : s.InvTo b) : NextTo b (execDoneFrame f s) :=
  hs.arrives fun ht => ht.protoIn fun h => by split; exacts [h.modCtxE, h]

theorem settleStart (hs : s.InvTo b) : s.settleStart.InvTo b := hs.finalReply.ite hs

theorem openEntry {i c} (hs : s.InvTo b) : (s.openEntry i c).InvTo b := hs.modCtxE.toPartner.settleStart

theorem openIn {f} (hs : s.InvTo b) : (s.openIn f).InvTo b := by
  have h := hs.isBack (a := f.src)
  unfold State.openIn
  dsimp only
  split
  · exact h.addCtxE.ite h
  · exact ite (h.openEntry.ite (h.finalReply.ite h).raise) (h.modCtxE.ite (h.modCtxE.ite h))

theorem exec_closeFrame {f} (hs : s.InvTo b) : NextTo b (execCloseFrame f s) :=
  hs.arrives fun ht => by split; exacts [ht.freeCtxE.ite ht, ht]

theorem rebind {a c l} (hs : s.InvTo b) : (s.rebind a c l).InvTo b := hs.foldl (·.modCtxE.toPartner)

theorem dropMessages {i c} (hs : s.InvTo b) : (s.dropMessages i c).InvTo b := by
  unfold State.dropMessages
  exact hs.spoilRecvs.modCtxE

theorem exec_ctxTimeout {i} (hs : s.InvTo b) : NextTo b (execCtxTimeout i s) := by
  unfold execCtxTimeout
  split
  · exact hs
  · split
    · exact hs
    · split
      · exact hs.dropMessages
      · exact hs.modCtxE.report

theorem exec_openTimeout {i} (hs : s.InvTo b) : NextTo b (execOpenTimeout i s) := by
  unfold execOpenTimeout
  split
  · exact hs
  · split
    · exact hs
    · exact hs.modCtxE.settleStart

/-! ### The global norm and beacons -/

theorem setG2 {g c} (hs : s.InvTo b) : (s.setG2 g c).InvTo b := hs.withRing.setReg64

theorem sendNorm {d i g c e} (hs : s.InvTo b) : (s.sendNorm d i g c e).InvTo b := hs.sendTo

theorem settleNorm (hs : s.InvTo b) : s.settleNorm.InvTo b := by
  refine hs.ite ?_
  split
  · exact hs
  · dsimp only
    split
    · exact hs
    · exact ite ((hs.setG2.foldl (·.sendNorm)).ite hs.setG2) ((hs.withRing.foldl (·.sendNorm)).ite hs.withRing)

theorem normArrives {i g c e} (hs : s.InvTo b) : (s.normArrives i g c e).InvTo b :=
  (hs.ite hs.setG2).ite (hs.withRing.settleNorm.ite hs)

theorem exec_beaconHoldExpiry {a c} (hs : s.InvTo b) : NextTo b (execBeaconHoldExpiry a c s) := by
  unfold execBeaconHoldExpiry
  split
  · exact hs
  · split
    · exact hs
    · split
      · exact hs
      · exact hs.withRing.flood.bump

/-! ### Work counters and Dill -/

theorem exec_wcreq {h x} (hs : s.InvTo b) : NextTo b (execWcreq h x s) := hs.issue_next (·.addOp.modCounter)

theorem exec_wcset {h x} (hs : s.InvTo b) : NextTo b (execWcset h x s) := hs.issue_next fun ht => ht.ite ht.modCounter

theorem writeGrant {q g} (hs : s.InvTo b) : (s.writeGrant q g).InvTo b := hs.dropOp.modCtx

theorem handleRequest {c q} (hs : s.InvTo b) : (s.handleRequest c q).InvTo b := by
  unfold State.handleRequest
  dsimp only
  split
  · exact hs.modCounter.bump.writeGrant
  · exact hs.modCounter.bump.writeGrant.nondet.ite hs.modCounter.bump.writeGrant
  · exact hs.modCounter
  · split
    · exact hs.modCounter.dropOp.raise
    · exact hs.modCounter.dropOp

theorem exec_workCounterRequest {c} (hs : s.InvTo b) : NextTo b (execWorkCounterRequest c s) := by
  unfold execWorkCounterRequest
  split
  · exact hs.modCounter
  · split
    · exact hs.handleRequest.ite hs
    · exact hs

theorem startDig {s0 : State} {h op k x} (hs : s.InvTo b) : (s0.startDig s h op k x).InvTo b := hs.ite { hs.recordUses.addOp with }

theorem exec_digH {h x r} (hs : s.InvTo b) : NextTo b (execDigH h x r s) := hs.issue_next (·.startDig)

theorem exec_digProv {h x r} (hs : s.InvTo b) : NextTo b (execDigProv h x r s) := hs.issue_next (·.startDig)

theorem exec_dillEngineStart (hs : s.InvTo b) : NextTo b (execDillEngineStart s) := by
  unfold execDillEngineStart
  dsimp only
  split
  · exact hs
  · split
    · exact hs
    · split
      · exact { hs with }
      · exact { hs.setDill with }

theorem freeDill {e q} (hs : s.InvTo b) : (s.freeDill e q).InvTo b := hs.dropOp.setDill

theorem exec_digestWritten {e} (hs : s.InvTo b) : NextTo b (execDigestWritten e s) := by
  unfold execDigestWritten
  split
  · exact hs
  · split
    · exact hs
    · split
      · exact hs.freeDill
      · split
        · exact hs.freeDill.raise
        · exact hs.journaled (·.corrected.putAll.freeDill.bump)

/-! ### State records, journal, refill and package copy -/

theorem loadStreams {l} (hs : s.InvTo b) : (s.loadStreams l).InvTo b := hs.foldl (·.modCtx)

theorem loadRecord {r} (hs : s.InvTo b) : (s.loadRecord r).InvTo b :=
  have h := hs.loadStreams (l := r.streams)
  setRw { h with arrays := by simp [h.arrays], counters := by simp [h.counters] }

theorem enterJournal {a k} (hs : s.InvTo b) : (s.enterJournal a k).InvTo b := hs.modGen.putMem

theorem exec_journalBlockCopy {a k} (hs : s.InvTo b) : NextTo b (execJournalBlockCopy a k s) := by
  unfold execJournalBlockCopy
  split
  · exact hs
  · split
    · exact hs.raise
    · refine (corrected ?_).enterJournal.withMir
      split
      · exact hs.raise
      · exact hs

theorem landBar4 {k} (hs : s.InvTo b) : (State.landBar4 k s).InvTo b := by
  induction k generalizing s with
  | zero => exact hs
  | succ k ih =>
    unfold State.landBar4
    split
    · exact hs
    · split
      · exact ih hs.withHost.putMem
      · exact hs.askJournal

theorem settleBar4 (hs : s.InvTo b) : s.settleBar4.InvTo b := hs.landBar4

theorem refillMark {i k} (hs : s.InvTo b) : (s.refillMark i k).InvTo b := hs.sendFrame

theorem settleRefill (hs : s.InvTo b) : s.settleRefill.InvTo b := hs.withMir.setBits.refillMark.ite hs

theorem refillTo {x} (hs : s.InvTo b) : (s.refillTo x).InvTo b := by
  unfold State.refillTo
  split
  · exact hs.withMir.setReg64
  · exact hs.withMir.settleRefill

theorem copyRange {k a n} (hs : s.InvTo b) : (s.copyRange k a n).InvTo b := by
  unfold State.copyRange
  split
  · exact hs.raise
  · exact hs.corrected.forwardBytes

theorem exec_refillCopyBlock (hs : s.InvTo b) : NextTo b (execRefillCopyBlock s) := by
  unfold execRefillCopyBlock
  split
  · exact hs
  · split
    · exact hs.settleRefill
    · exact hs.copyRange.refillTo

theorem switchChannel {c} (hs : s.InvTo b) : (s.switchChannel c).InvTo b := by
  have h := hs.withDev (d := { s.dev with pkgSubst := s.dev.pkgSubst ++ [(c.slot, c.target)] })
    |>.withTiers (x := { s.tiers with chmap := s.tiers.chmap.set c.slot c.target, copy := none })
  unfold State.switchChannel
  dsimp only
  split
  · exact h.setBits.event
  · exact h.setBits.event.withTiers.startCopy

theorem exec_packageCopyBlock {c} (hs : s.InvTo b) : NextTo b (execPackageCopyBlock c s) := by
  unfold execPackageCopyBlock
  split
  · exact hs
  · dsimp only
    split
    · exact (ite (ite hs hs.corrected).withTiers.bump (ite hs hs.corrected)).withTiers.setReg64
    · exact (ite (ite hs hs.corrected).withTiers.bump (ite hs hs.corrected)).switchChannel

theorem exec_patrolScrub {k r} (hs : s.InvTo b) : NextTo b (execPatrolScrub k r s) := by
  unfold execPatrolScrub
  dsimp only
  split
  · exact hs
  · split
    · exact hs
    · exact hs.withTiers.countCorrected
    · exact hs.withTiers.raise

/-! ### Spares, rollback and restart -/

theorem substitute {n p} (hs : s.InvTo b) : (s.substitute n p).InvTo b := by
  unfold State.substitute
  split
  · exact hs.withHost.event
  · exact hs.withDev.event.event.ite hs.withDev.event

theorem settleSubst (hs : s.InvTo b) : s.settleSubst.InvTo b := hs.withHost.foldl (·.substitute)

theorem emptyQueues (hs : s.InvTo b) : s.emptyQueues.InvTo b :=
  { hs with
    arrays := by simp [State.emptyQueues, hs.arrays]
    ports := by simp [State.emptyQueues, hs.ports]
    counters := by simp [State.emptyQueues, hs.counters]
    dill := by simp [State.emptyQueues] }

theorem unwrite {g} (hs : s.InvTo b) : (s.unwrite g).InvTo b := hs.putAll

theorem zipCounters {g : WorkCounter × Nat → WorkCounter} (hs : s.InvTo b) : ({ s with wct := s.wct.zipIdx.map g } : State).InvTo b :=
  { hs with counters := by simp [hs.counters] }

theorem restoreGen {g} (hs : s.InvTo b) : (s.restoreGen g).InvTo b := by
  have h : (match g.weights with
      | some (ws, t) => ({ s.loadStreams g.streams with mask := { (s.loadStreams g.streams).mask with weights := ws } }).setRw Reg.UPD_TCOUNT t
      | none => s.loadStreams g.streams).InvTo b := by
    split
    · exact hs.loadStreams.withMask.setRw
    · exact hs.loadStreams
  unfold State.restoreGen
  dsimp only
  split
  · exact zipCounters h
  · exact h

theorem rollback {k g} (hs : s.InvTo b) : (s.rollback k g).InvTo b := by
  unfold State.rollback
  exact (hs.emptyQueues.mapArrays.foldl (·.unwrite)).withMir.restoreGen

theorem captureAll {k} (hs : s.InvTo b) : (s.captureAll k).InvTo b :=
  (hs.foldl fun h => h.foldl (·.captureStream)).captureCounters.captureWeights

theorem rebase {k d} (hs : s.InvTo b) : (s.rebase k d).InvTo b := hs.zipArrays.withStp

theorem copyToTwin {k} (hs : s.InvTo b) : (s.copyToTwin k).InvTo b := by
  unfold State.copyToTwin
  exact ((hs.foldl (·.copyRange)).foldl (·.sendFrame)).refillMark

theorem settleService (hs : s.InvTo b) : s.settleService.InvTo b := by
  refine hs.ite (withMir ?_)
  split
  · split
    · exact hs.toPartner.freeCtxE
    · exact hs
  · exact hs

theorem endService (hs : s.InvTo b) : s.endService.InvTo b := hs.withMir.settleService

theorem reachStep {r} (hs : s.InvTo b) : (s.reachStep r).InvTo b := by
  refine hs.ite (hs.loadRecord.withMir.captureAll.ite ?_)
  split
  · exact hs.rollback.withStp
  · exact hs

theorem restartNow {r} (hs : s.InvTo b) : (s.restartNow r).InvTo b := by
  have h := hs.reachStep (r := r) |>.settleSubst.rebase (k := r.tick) (d := r.rollback && r.degraded)
  unfold State.restartNow
  dsimp only
  split
  · exact replyDone (ite (endService (copyToTwin { h with })) { h with })
  · exact ite (endService (copyToTwin { h with })) { h with }

theorem settleRestart (hs : s.InvTo b) : s.settleRestart.InvTo b := by
  unfold State.settleRestart
  split
  · refine ite ?_ (hs.restartNow.ite hs)
    dsimp only
    split
    · exact hs.withHost.refuse
    · exact hs.withHost
  · exact hs

end State.InvTo
end Sys2Proof.Machine
end

section
/-! The invariant through contention and the passing of cycles. -/

set_option Elab.async false

namespace Sys2Proof.Machine
namespace State.InvTo

variable {s t : State} {b : Nat}

/-! ### Contention for the memory ports -/

theorem stallPreload {n o} (hs : s.InvTo b) : (s.stallPreload n o).InvTo b := by
  unfold State.stallPreload
  split
  · split
    · exact hs
    · refine hs.ite ?_
      split
      · exact hs
      · exact (hs.ite hs.bump).setOp
  · exact hs

theorem passWaits {n} (hs : s.InvTo b) : (s.passWaits n).InvTo b := hs.modArr.bumpArr64

theorem updWaits {n} (hs : s.InvTo b) : (s.updWaits n).InvTo b := hs.modArr

theorem laneWaits {n} (hs : s.InvTo b) : (s.laneWaits n).InvTo b := hs.modArr

theorem contendArray {n} (hs : s.InvTo b) : (s.contendArray n).InvTo b := by
  unfold State.contendArray
  exact hs.ite (onlyIf (onlyIf (onlyIf (onlyIf (foldl hs (·.stallPreload)) passWaits) updWaits) bumpArr) laneWaits)

theorem contend (hs : s.InvTo b) : s.contend.InvTo b := hs.foldl (·.contendArray)

/-! ### The passing of cycles -/

theorem headWait {a n x} (hs : s.InvTo b) : (s.headWait a n x).InvTo b := by
  unfold State.headWait
  split
  · exact hs.bumpArr64.ite hs
  · exact hs.bumpArr
  · exact hs.bumpArr
  · exact hs.bumpArr
  · exact hs.bump64
  · exact hs.bump
  · exact hs

theorem arrayWaits {i n} (hs : s.InvTo b) : (s.arrayWaits i n).InvTo b := by
  unfold State.arrayWaits
  exact onlyIf (bumpArr (onlyIf (foldl hs fun h => by split; exacts [h.headWait, h]) bumpArr64)) modArr

theorem waits {n} (hs : s.InvTo b) : (s.waits n).InvTo b := by
  unfold State.waits
  exact (hs.foldl (·.arrayWaits)).bump64.bump

theorem closeWaits {n} (hs : s.InvTo b) : (s.closeWaits n).InvTo b := hs.modArr.ite hs

theorem expireArray {n} (hs : s.InvTo b) : (s.expireArray n).InvTo b := hs.closeWaits.foldl (·.landStore.retireOp)

theorem settleStop (hs : s.InvTo b) : s.settleStop.InvTo b := hs.ite ((hs.finalReply.ite hs).withHost.ite hs)

theorem expire (hs : s.InvTo b) : s.expire.InvTo b :=
  (hs.foldl (·.expireArray)).settleVersions.settleNorm.settleRing.settleBar4.settleRefill.settleService.settleStop.settleRestart

/-- Cycles that pass raise the bound by their number. -/
theorem advance {n ten} (hs : s.InvTo b) : (s.modThy (fun t => t.advance n ten)).InvTo (b + n) :=
  { hs with cyc := Nat.add_le_add_right hs.cyc n }

theorem elapse {n} (hs : s.InvTo b) : (s.elapse n).InvTo (b + n) := by
  unfold State.elapse
  exact hs.waits.advance.expire

theorem oneCycle (hs : s.InvTo b) : s.oneCycle.InvTo (b + 1) := hs.contend.elapse

end State.InvTo
end Sys2Proof.Machine
end

section
/-! The invariant through the Thyme clock. -/

set_option Elab.async false

namespace Sys2Proof.Machine
namespace State.InvTo

variable {s t : State} {b : Nat}

/-! ### The Thyme clock: periods, holds and the master -/

theorem clearJobCounters (hs : s.InvTo b) : s.clearJobCounters.InvTo b := hs.clearRegs

theorem withRate {g : State → State} (hs : s.InvTo b) (hg : ∀ {t}, t.InvTo b → (g t).InvTo b) : (s.withRate g).InvTo b :=
  ite (hg hs) (hg hs).thymeMsg

theorem becomeMaster (hs : s.InvTo b) : s.becomeMaster.InvTo b := by
  unfold State.becomeMaster
  exact onlyIf hs.modThy.masterRequest masterHoldOn

theorem followMaster {k j} (hs : s.InvTo b) : (s.followMaster k j).InvTo b := by
  unfold State.followMaster
  exact hs.used.modThy

theorem countMasterChange (hs : s.InvTo b) : s.countMasterChange.InvTo b := hs.bump.event

theorem prioRises {n} (hs : s.InvTo b) : (s.prioRises n).InvTo b := hs.modThy.ite (hs.becomeMaster.ite hs)

/-- A new period begins at cycle 0. -/
theorem advancePeriod (hs : s.InvTo b) : s.advancePeriod.InvTo 0 := by
  have h := (hs.bump64 (off := Reg.THY_HELD) (n := bnat (s.thy.frozenAt s.thy.period))).bump (off := Reg.THY_HOLDS)
    (n := (s.thy.holds.filter (fun h => h.start == s.thy.period + 1)).length) |>.foldl
      (l := s.thy.holds.filter (fun h => h.stop.any (fun e => e ≤ s.thy.period + 1)))
      (f := fun (s : State) (h : PhaseHold) => s.setReg Reg.THY_HOLD_LAST h.last) (·.setReg)
  exact { h with cyc := Nat.le_refl 0 }

theorem countLate {d} (hs : s.InvTo b) : (s.countLate d).InvTo b := by
  unfold State.countLate
  exact bump { hs with arrays := by simp [hs.arrays] }

theorem behindTest (hs : s.InvTo b) : s.behindTest.InvTo b := by
  unfold State.behindTest
  exact ite hs.modThy (ite hs.modThy.modThy.bump.thymeMsg (ite hs.modThy.modThy.thymeMsg hs.modThy))

theorem recordOverflows (hs : s.InvTo b) : s.recordOverflows.InvTo b := by
  unfold State.recordOverflows
  exact hs.mapArrays.ite (hs.mapArrays.foldl fun h => by split <;> exact h.raise)

theorem stopNow (hs : s.InvTo b) : s.stopNow.InvTo b := settleStop (hs.withFlt.foldl (·.modCtx))

theorem stopDue {a} (hs : s.InvTo b) : (s.stopDue a).InvTo b := hs.ite (hs.stopNow.ite hs.withFlt)

theorem settleParent (hs : s.InvTo b) : s.settleParent.InvTo b := hs.ite hs.modThy

theorem reparent (hs : s.InvTo b) : s.reparent.InvTo b := hs.ite hs.modThy

theorem phaseDuties (hs : s.InvTo b) : s.phaseDuties.InvTo b := (hs.onlyIf sendPhase).masterRate.ite hs.settleParent

theorem exec_phaseHoldLimit (hs : s.InvTo b) : NextTo b (execPhaseHoldLimit s) := by
  unfold execPhaseHoldLimit
  split
  · exact hs
  · exact hs.setBits.raiseCode.holdOff.stopDue

theorem reachHold (hs : s.InvTo b) : s.reachHold.InvTo b := by
  unfold State.reachHold
  split
  · exact hs.withHost.onlyIf finalReply |>.ite hs
  · exact hs

theorem stepBoundary (hs : s.InvTo b) : s.stepBoundary.InvTo b := by
  unfold State.stepBoundary
  exact reachHold (pruneGens (captureWeights (settleSubst (onlyIf (bump { hs with arrays := by simp [hs.arrays] }) setRw))))

theorem exec_moduleStepBoundary (hs : s.InvTo b) : NextTo b (execModuleStepBoundary s) := by
  unfold execModuleStepBoundary
  split
  · exact hs.stepBoundary
  · exact hs

theorem absorbHold {i} (hs : s.InvTo b) : (s.absorbHold i).InvTo b := by
  unfold State.absorbHold
  exact hs.ite (hs.modThy.ite hs.used.modThy)

theorem absorbRate {i} (hs : s.InvTo b) : (s.absorbRate i).InvTo b := hs.ite hs.modThy

theorem absorb {i} (hs : s.InvTo b) : (s.absorb i).InvTo b := hs.absorbHold.absorbRate

theorem adopt {i} (hs : s.InvTo b) : (s.adopt i).InvTo b := hs.modThy.absorb

theorem losePhase (hs : s.InvTo b) : s.losePhase.InvTo b := hs.ite hs.modThy.setBits.raiseCode

theorem elect {k j} (hs : s.InvTo b) : (s.elect k j).InvTo b := by
  unfold State.elect
  exact hs.becomeMaster.ite (hs.ite (hs.modThy.ite (onlyIf hs.followMaster.reparent countMasterChange)))

theorem acknowledge (hs : s.InvTo b) : s.acknowledge.InvTo b := by
  unfold State.acknowledge
  exact { hs.setReg with }

theorem clearFaults {a} (hs : s.InvTo b) : (s.clearFaults a).InvTo b := by
  unfold State.clearFaults
  exact onlyIf (onlyIf hs.acknowledge.withFlt fun h => { h with }) clearJobCounters

theorem takePhase {p i} (hs : s.InvTo b) : (s.takePhase p i).InvTo b := by
  unfold State.takePhase
  exact hs.ite (onlyIf hs.modThy.settleParent.absorb (·.modThy.sendPhase))

theorem settleJoin (hs : s.InvTo b) : s.settleJoin.InvTo b := hs.onlyIf finalReply

theorem settleClear (hs : s.InvTo b) : s.settleClear.InvTo b := by
  unfold State.settleClear
  split
  · exact hs.clearFaults.finalReply
  · exact hs

theorem phaseArrives {p i} (hs : s.InvTo b) : (s.phaseArrives p i).InvTo b := by
  have taken {j : Bool} : (((s.adopt i).elect (i.masterPrio, i.masterAddr) j).takePhase p i).InvTo b := hs.adopt.elect.takePhase
  refine ite (hs.modThy.settleJoin.ite (hs.losePhase.ite hs)) (ite (hs.ite (taken.settleJoin.ite taken.settleClear)) (ite ?_ hs.elect.takePhase))
  exact hs.losePhase.onlyIf sendPhase

theorem announced {p i} (hs : s.InvTo b) : (s.announced p i).InvTo b := hs.ite (hs.ite hs.absorb.sendPhase)

theorem exec_phaseFrame {f i} (hs : s.InvTo b) : NextTo b (execPhaseFrame f i s) := hs.linkIn phaseArrives

theorem exec_holdOn {f} (hs : s.InvTo b) : NextTo b (execHoldOn f s) := hs.arrives (·.onlyIf masterHoldOn)

theorem exec_holdOff {f} (hs : s.InvTo b) : NextTo b (execHoldOff f s) := hs.arrives (·.onlyIf masterHoldOff)

theorem exec_rateMessage {f} (hs : s.InvTo b) : NextTo b (execRateMessage f s) := hs.arrives (·.onlyIf masterRequest)

theorem exec_holdMessage {f i} (hs : s.InvTo b) : NextTo b (execHoldMessage f i s) := hs.linkIn announced

theorem exec_holdoverTimeout (hs : s.InvTo b) : NextTo b (execHoldoverTimeout s) := by
  have h := hs.modThy (g := fun t => { t with outLow := t.outLow || decide (s.regN Reg.THY_HOLDOVER_MAX ≤ s.thy.sinceFrame) })
  unfold execHoldoverTimeout
  split
  · exact hs
  · dsimp only
    split
    · split
      · exact h.onlyIf finalReply
      · exact h
    · exact h.onlyIf losePhase

theorem exec_masterLostTimeout (hs : s.InvTo b) : NextTo b (execMasterLostTimeout s) := by
  unfold execMasterLostTimeout
  split
  · exact hs.becomeMaster.countMasterChange
  · exact hs

/-! ### Time of day, the outputs and PTP -/

theorem secondEdges (hs : s.InvTo b) : s.secondEdges.InvTo b := hs.ite hs.modThy

theorem nextSecond (hs : s.InvTo b) : s.nextSecond.InvTo b := hs.modThy.ite hs.modThy

theorem exec_secondBoundary (hs : s.InvTo b) : NextTo b (execSecondBoundary s) := hs.onlyIf (·.secondEdges.nextSecond)

theorem ptpSend {l} (hs : s.InvTo b) : (s.ptpSend l).InvTo b := hs.modThy

theorem exec_ptpMessage {m} (hs : s.InvTo b) : NextTo b (execPtpMessage m s) := by
  unfold execPtpMessage
  dsimp only
  split
  · exact hs
  · split
    · split
      · exact hs
      · exact hs.modThy.bump
    · split
      · exact hs
      · exact hs.ptpSend
    · exact hs

theorem exec_ptpSyncTimer {a} (hs : s.InvTo b) : NextTo b (execPtpSyncTimer a s) := by
  unfold execPtpSyncTimer
  split
  · exact hs.modThy
  · split
    · exact hs
    · exact hs.modThy.ptpSend

end State.InvTo
end Sys2Proof.Machine
end

section
/-! The invariant through links, bays, resets and boot. -/

set_option Elab.async false

namespace Sys2Proof.Machine
namespace State.InvTo

variable {s t : State} {b : Nat}

/-! ### Links, ports and bays -/

theorem replayPort {p} (hs : s.InvTo b) : (s.replayPort p).InvTo b := by
  unfold State.replayPort
  exact onlyIf hs.bump.modPort (·.modPort.trainPort)

theorem exec_linkFrame {f} (hs : s.InvTo b) : NextTo b (execLinkFrame f s) := by
  unfold execLinkFrame
  split
  · exact hs
  · split
    · exact hs.bump.sendAck
    · exact hs.hears.modPort.onlyIf replayPort

theorem exec_creditFrame {f} (hs : s.InvTo b) : NextTo b (execCreditFrame f s) := by
  unfold execCreditFrame
  split
  · exact hs
  · split
    · exact hs.bump.sendAck
    · exact hs.hears.modPort

theorem exec_frameForward {k f} (hs : s.InvTo b) : NextTo b (execFrameForward k f s) := by
  unfold execFrameForward
  split
  · exact hs
  · exact hs.linkIn forwardOn

theorem exec_ackTimer {p} (hs : s.InvTo b) : NextTo b (execAckTimer p s) := by
  unfold execAckTimer
  dsimp only
  split
  · exact hs
  · exact hs.sendAck

theorem exec_replayTimeout {p} (hs : s.InvTo b) : NextTo b (execReplayTimeout p s) := by
  unfold execReplayTimeout
  dsimp only
  split
  · exact hs
  · exact hs.replayPort

theorem ringBreak {p} (hs : s.InvTo b) : (s.ringBreak p).InvTo b := by
  unfold State.ringBreak
  exact report (onlyIf hs.modPort.recordFault withFlt)

theorem mirrorFailed (hs : s.InvTo b) : s.mirrorFailed.InvTo b := hs.ite (hs.fence.ite hs.report.twinLost)

theorem failPort {p} (hs : s.InvTo b) : (s.failPort p).InvTo b := hs.modPort.mirrorFailed.ite hs.modPort.ringBreak

theorem loseLane {p l} (hs : s.InvTo b) : (s.loseLane p l).InvTo b := by
  unfold State.loseLane
  dsimp only
  refine hs.modPort.failPort.ite (hs.modPort.ite ?_)
  split
  · exact hs.modPort.bump.modPort.trainPort
  · exact hs.modPort.failPort

theorem exec_laneFailure {p l k c u} (hs : s.InvTo b) : NextTo b (execLaneFailure p l k c u s) := by
  unfold execLaneFailure
  dsimp only
  split
  · exact hs
  · exact hs.bump64.bump.onlyIf loseLane

theorem exec_lightLoss {p} (hs : s.InvTo b) : NextTo b (execLightLoss p s) := by
  unfold execLightLoss
  dsimp only
  split
  · exact hs
  · exact hs.modPort.trainPort

theorem exec_breakTimeout {p} (hs : s.InvTo b) : NextTo b (execBreakTimeout p s) := by
  unfold execBreakTimeout
  dsimp only
  split
  · exact hs
  · exact hs.ringBreak

theorem finishJoin (hs : s.InvTo b) : s.finishJoin.InvTo b := hs.used.modThy.withRing.ite hs

theorem exhausted (hs : s.InvTo b) : s.exhausted.InvTo b := hs.setBits

theorem beginRefill {w i} (hs : s.InvTo b) : (s.beginRefill w i).InvTo b := by
  unfold State.beginRefill
  exact hs.addCtxE.toPartner.withMir.refillTo

theorem formPair {w} (hs : s.InvTo b) : (s.formPair w).InvTo b := hs.withMir.finalReply

theorem finishPair {w} (hs : s.InvTo b) : (s.finishPair w).InvTo b := by
  unfold State.finishPair
  dsimp only
  refine hs.ite (hs.used.setBays.finalReply.ite (hs.used.formPair.ite ?_))
  split
  · exact hs.used.exhausted.setBays.finalReply
  · exact hs.used.formPair.beginRefill

theorem exec_portTrainTimeout {p} (hs : s.InvTo b) : NextTo b (execPortTrainTimeout p s) := by
  unfold execPortTrainTimeout
  split
  · exact hs
  · split
    · exact { hs.setBays.finalReply with }
    · split
      · exact hs.setBays.finalReply
      · exact hs

theorem portUp {p f k l} (hs : s.InvTo b) : (s.portUp p f k l).InvTo b := by
  unfold State.portUp
  exact reparent (modPort (ite hs.isBack.used.modPort.bump (hs.isBack.used.modPort.foldl fun h => h.foldl (·.giveCredit))))

theorem ringTrained {p f l} (hs : s.InvTo b) : (s.ringTrained p f l).InvTo b := by
  unfold State.ringTrained
  exact (hs.ite (onlyIf hs.modPort.ringBreak report)).ite (onlyIf hs.portUp report).finishJoin

theorem mirrorTrained {f l} (hs : s.InvTo b) : (s.mirrorTrained f l).InvTo b :=
  (hs.report.twinLost.ite hs).ite (hs.ite hs.portUp.finishPair)

theorem exec_trainFrame {p f l} (hs : s.InvTo b) : NextTo b (execTrainFrame p f l s) := by
  unfold execTrainFrame
  dsimp only
  split
  · exact hs
  · split
    · exact hs
    · exact hs.trainPort.mirrorTrained.ite hs.trainPort.ringTrained

/-! ### Resets, trips, positions and boot -/

/-- The state after reset meets the invariant at cycle 0, whatever the device. -/
theorem resetOf (dev : Device) (pending : List Instr) : (State.resetOf dev pending).InvTo 0 where
  mem := ⟨.nil, fun _ h => nomatch h⟩
  hostMem := ⟨.nil, fun _ h => nomatch h⟩
  regs := .nil
  arrays := rfl
  ports := rfl
  counters := rfl
  dill := rfl
  cyc := Nat.le_refl 0

theorem moduleReset {w x} (hs : s.InvTo b) : (s.moduleReset w x).InvTo b :=
  { (resetOf s.dev s.pending).mono (Nat.zero_le b) with hostMem := hs.hostMem }

theorem trip {r} (hs : s.InvTo b) : (s.trip r).InvTo b := hs.moduleReset

theorem markFailed {p} (hs : s.InvTo b) : (s.markFailed p).InvTo b := hs.withHost

theorem awaitSpare {n p} (hs : s.InvTo b) : (s.awaitSpare n p).InvTo b := hs.withHost.withHost.ite (settleSubst { hs with })

theorem positionFails {p} (hs : s.InvTo b) : (s.positionFails p).InvTo b :=
  hs.raise.markFailed.awaitSpare.ite ((hs.markFailed.event.ite hs.markFailed).ite hs)

theorem sendPass (hs : s.InvTo b) : s.sendPass.InvTo b := hs.sendFrame

theorem endDivergenceTest {p} (hs : s.InvTo b) : (s.endDivergenceTest p).InvTo b := by
  unfold State.endDivergenceTest
  exact hs.withMir.setReg.fence.ite (hs.withMir.setReg.ite hs.withMir.setReg.withMir.sendPass.settlePasses)

theorem exec_selftestComplete {p k} (hs : s.InvTo b) : NextTo b (execSelftestComplete p k s) := by
  unfold execSelftestComplete
  split
  · exact hs
  · dsimp only
    split
    · exact hs.withHost.onlyIf endDivergenceTest
    · exact hs.withHost.positionFails.onlyIf endDivergenceTest

theorem setOverlays {l} (hs : s.InvTo b) : (s.setOverlays l).InvTo b := by
  unfold State.setOverlays
  exact hs.withRegs.ite hs.withRegs.bump.setBits

theorem bootChannels (hs : s.InvTo b) : s.bootChannels.InvTo b := by
  unfold State.bootChannels
  exact hs.withTiers.onlyIf setBits

theorem bootFirmware {c l} (hs : s.InvTo b) : (s.bootFirmware c l).InvTo b := by
  unfold State.bootFirmware
  exact foldl (foldl (ite (applyCal (bootChannels (setOverlays { hs.emptyMem with })))
    (setBits (applyCal (bootChannels (setOverlays { hs.emptyMem with }))))) (·.positionFails)) (·.positionFails)

theorem exec_oscStable (hs : s.InvTo b) : NextTo b (execOscStable s) := by
  unfold execOscStable
  split
  · exact hs
  · exact hs.withHost.prioRises

theorem exec_controllerWindow {w l} (hs : s.InvTo b) : NextTo b (execControllerWindow w l s) := by
  unfold execControllerWindow
  dsimp only
  split
  · exact hs
  · refine nextTo_ite ?_ (nextTo_ite ?_ ?_)
    · exact trip (onlyIf hs.bump.setReg.withPwr setBits)
    · exact trip (onlyIf hs.bump.setReg.withPwr setBits)
    · exact withRate (onlyIf hs.bump.setReg.withPwr setBits) (·.modThy)

end State.InvTo
end Sys2Proof.Machine
end

section
/-! The invariant through the registers and BAR4. -/

set_option Elab.async false

namespace Sys2Proof.Machine
namespace State.InvTo

variable {s t : State} {b : Nat}

/-! ### Register writes and strobes -/

theorem modRequester {q g} (hs : s.InvTo b) : (s.modRequester q g).InvTo b := by
  cases q with
  | host => exact hs.withRegs
  | sage => exact hs.withRegs

theorem strobeConflict {o} (hs : s.InvTo b) : (s.strobeConflict o).InvTo b := hs.bump.setReg.setBits.postEvent

theorem putShadow {q o v} (hs : s.InvTo b) : (s.putShadow q o v).InvTo b := by
  unfold State.putShadow
  exact (hs.withRegs.ite hs).ite hs.withRegs

theorem writeShadow {q o r v} (hs : s.InvTo b) : (s.writeShadow q o r v).InvTo b := hs.strobeConflict.ite (hs.bump.ite hs.putShadow)

theorem strobe {v} (hs : s.InvTo b) : (s.strobe v).InvTo b := hs.withRegs

theorem setTail {v} (hs : s.InvTo b) : (s.setTail v).InvTo b := hs.ite hs.withFlt

theorem setSel {q o v} (hs : s.InvTo b) : (s.setSel q o v).InvTo b := hs.modRequester

theorem writeDirect {q o r v} (hs : s.InvTo b) : (s.writeDirect q o r v).InvTo b := hs.strobe.ite (hs.setTail.ite hs.setSel)

theorem crcStale (hs : s.InvTo b) : s.crcStale.InvTo b := hs.setBits

theorem crcCompare (hs : s.InvTo b) : s.crcCompare.InvTo b := hs.withRegs.ite hs.withRegs.setBits.raiseCode

theorem exec_crcScrub (hs : s.InvTo b) : NextTo b (execCrcScrub s) := by
  unfold execCrcScrub
  split
  · exact hs.withRegs.bump.crcCompare
  · exact hs

/-! ### The write-guarded registers -/

theorem guardErr {o x} (hs : s.InvTo b) : (s.guardErr o x).InvTo b := hs.bump.setReg.setBits.postEvent

/-- A guarded write keeps the invariant when what it takes does. -/
theorem guarded {q o c v} {f : W32 → State → State} (hs : s.InvTo b) (hf : ∀ {v t}, t.InvTo b → (f v t).InvTo b) :
    (s.guarded q o c v f).InvTo b := by
  unfold State.guarded
  dsimp only
  refine hs.ite (ite (hs.onlyIf guardErr).modRequester ?_)
  split
  · exact hs.guardErr
  · exact ite (ite (hf hs.modRequester) (hf hs.modRequester).crcStale) hs.modRequester.guardErr

theorem takeReg {o m v} (hs : s.InvTo b) : (State.takeReg o m v s).InvTo b := hs.setReg

theorem takeTod {v} (hs : s.InvTo b) : (s.takeTod v).InvTo b := hs.bump.ite (hs.modThy.ite hs)

theorem takePrio {v} (hs : s.InvTo b) : (s.takePrio v).InvTo b := hs.takeReg.prioRises

theorem takeCap {v} (hs : s.InvTo b) : (s.takeCap v).InvTo b := hs.withRate takeReg

theorem takeCopy {v} (hs : s.InvTo b) : (s.takeCopy v).InvTo b := by
  unfold State.takeCopy
  exact hs.takeReg.onlyIf startCopy

theorem takeBays {v} (hs : s.InvTo b) : (s.takeBays v).InvTo b := by
  unfold State.takeBays
  exact hs.used.ite hs.used.takeReg.setBays

theorem takeFence {v} (hs : s.InvTo b) : (s.takeFence v).InvTo b := by
  unfold State.takeFence
  exact hs.takeReg.onlyIf fence

theorem takeStrict {v} (hs : s.InvTo b) : (s.takeStrict v).InvTo b := by
  unfold State.takeStrict
  exact hs.bump.ite (hs.withRegs.takeReg.ite hs.withRegs)

theorem takeRef {v} (hs : s.InvTo b) : (s.takeRef v).InvTo b := by
  unfold State.takeRef
  exact hs.setReg.setReg.crcCompare.ite hs.setReg.crcStale

theorem takeRevoke {v} (hs : s.InvTo b) : (s.takeRevoke v).InvTo b := by
  unfold State.takeRevoke
  exact hs.withDev.ite hs.guardErr

theorem takePolicy {v} (hs : s.InvTo b) : (s.takePolicy v).InvTo b := hs.takeReg.withHost

theorem takeReset {v} (hs : s.InvTo b) : (s.takeReset v).InvTo b := hs.onlyIf moduleReset

theorem takeSave {v} (hs : s.InvTo b) : (s.takeSave v).InvTo b := hs.withDev.ite hs

theorem take {o v} (hs : s.InvTo b) : (State.take o v s).InvTo b :=
  hs.takeTod.ite <| hs.takePrio.ite <| hs.takeCap.ite <| hs.takeCopy.ite <| hs.takeBays.ite <| hs.takeFence.ite <| hs.takeStrict.ite <|
    hs.takeRef.ite <| hs.takeRevoke.ite <| hs.takePolicy.ite <| hs.takeReset.ite <| hs.takeSave.ite <| hs.takeReg.ite hs.takeReg

theorem writeReg {q o v} (hs : s.InvTo b) : (s.writeReg q o v).InvTo b := by
  unfold State.writeReg
  split
  · refine hs.ite ?_
    split
    · exact hs
    · exact hs
    · exact hs
    · exact hs.setReg
    · exact hs.writeDirect
    · exact hs.writeShadow
    · exact hs.writeShadow
    · exact hs.writeShadow
    · exact hs.guarded take
  · split
    · exact hs.guarded take
    · exact hs

theorem writeWord {q o e v} (hs : s.InvTo b) : (s.writeWord q o e v).InvTo b := hs.ite (hs.withHost.ite hs.writeReg)

theorem exec_registerWrite {q o w} (hs : s.InvTo b) : NextTo b (execRegisterWrite q o w s) := by
  cases w with
  | word e v => exact hs.writeWord
  | double e v => exact hs.writeWord.writeWord

theorem exec_slLowRead {q o} (hs : s.InvTo b) : NextTo b (execSlLowRead q o s) := by
  unfold execSlLowRead
  split
  · exact hs
  · exact hs.modRequester

theorem exec_thySnapCtrl {v} (hs : s.InvTo b) : NextTo b (execThySnapCtrl v s) := hs.ite (hs.strobeConflict.ite hs.putShadow)

theorem copyShadow {o} (hs : s.InvTo b) : (s.copyShadow o).InvTo b := by
  unfold State.copyShadow
  exact hs.withRegs.bump.ite hs.setReg

theorem copyShadows {l} (hs : s.InvTo b) : (s.copyShadows l).InvTo b := hs.foldl copyShadow

theorem latchSnap (hs : s.InvTo b) : s.latchSnap.InvTo b := hs.setReg64.setReg64.setReg64.setReg.setRw.ite hs

theorem afterCommit {o g k} (hs : s.InvTo b) : (s.afterCommit o g k).InvTo b := by
  unfold State.afterCommit
  exact (hs.latchSnap.modThy.ite hs.latchSnap).ite ((hs.setReg.ite hs).ite (hs.setOverlays.ite hs))

theorem closeCommit {c w} (hs : s.InvTo b) : (s.closeCommit c w).InvTo b := by
  unfold State.closeCommit
  exact hs.withRegs.ite hs.withRegs

theorem exec_strobeCommit {g k} (hs : s.InvTo b) : NextTo b (execStrobeCommit g k s) := by
  unfold execStrobeCommit
  dsimp only
  split
  · exact hs
  · exact hs.copyShadows.afterCommit.closeCommit.crcStale

theorem settleGuards (hs : s.InvTo b) : s.settleGuards.InvTo b := by
  unfold State.settleGuards
  refine ite (withRegs ?_) hs
  exact hs.foldl fun h => h.bump.ite h.setReg.crcStale

theorem exec_idleOnlyCommit {g k} (hs : s.InvTo b) : NextTo b (execIdleOnlyCommit g k s) := by
  unfold execIdleOnlyCommit
  dsimp only
  exact nextTo_ite (hs.onlyIf settleGuards) (hs.onlyIf settleGuards).copyShadows.afterCommit.closeCommit.crcStale

/-! ### BAR4 -/

theorem aerError {k} (hs : s.InvTo b) : (s.aerError k).InvTo b := hs.withHost

theorem bar4Returns {l} (hs : s.InvTo b) : (s.bar4Returns l).InvTo b := hs.withHost

theorem hostReads {a n} (hs : s.InvTo b) : (s.hostReads a n).1.InvTo b := by
  unfold State.hostReads
  split
  · exact hs.raise.used
  · exact hs.corrected

theorem bar4Misses {w a n} (hs : s.InvTo b) : (s.bar4Misses w a n).InvTo b := by
  unfold State.bar4Misses
  exact (hs.ite hs.bar4Returns).onlyIf postEvent

theorem bar4Put {a l} (hs : s.InvTo b) : (s.bar4Put a l).InvTo b := hs.withHost.settleBar4

theorem exec_bar4Access {w p o l} (hs : s.InvTo b) : NextTo b (execBar4Access w p o l s) := by
  unfold execBar4Access
  dsimp only
  refine nextTo_ite hs (nextTo_ite ?_ (nextTo_ite hs.aerError (nextTo_ite hs.bar4Misses (nextTo_ite hs.bar4Put ?_))))
  · exact aerError (ite hs hs.bar4Returns)
  · exact hs.hostReads.bar4Returns

theorem exec_rateWindowEnd (hs : s.InvTo b) : NextTo b (execRateWindowEnd s) := by
  unfold execRateWindowEnd
  split
  · exact hs
  · exact hs.withFlt.foldl (·.postEvent)

end State.InvTo
end Sys2Proof.Machine
end

section
/-! The invariant through the commands of the host. -/

set_option Elab.async false

namespace Sys2Proof.Machine
namespace State.InvTo

variable {s t : State} {b : Nat}

/-! ### Sage: commands of the host -/

theorem replyState {c o} (hs : s.InvTo b) : (s.replyState c o).InvTo b := hs.reply

/-- A command keeps the invariant when its act does. -/
theorem command {o c k l} {act : State → State} (hs : s.InvTo b) (ha : ∀ {t}, t.InvTo b → (act t).InvTo b) :
    (s.command o c k l act).InvTo b :=
  hs.ite <| hs.postEvent.ite <| hs.refuse.ite <| hs.replyState.ite <| hs.replyState.ite <| hs.replyState.ite (ha hs)

theorem setSt {x} (hs : s.InvTo b) : (s.setSt x).InvTo b := hs.withHost

theorem cmdIdentify {c} (hs : s.InvTo b) : (s.cmdIdentify c).InvTo b := hs.command (·.reply)

theorem leaveAll (hs : s.InvTo b) : s.leaveAll.InvTo b := by
  unfold State.leaveAll
  exact hs.setBays.withRingMir.modThy.becomeMaster

theorem baysFor {c o x y m} {act : State → State} (hs : s.InvTo b) (ha : ∀ {t}, t.InvTo b → (act t).InvTo b) :
    (s.baysFor c o x y m act).InvTo b := ite hs.used.refuse (ha hs.used)

theorem cmdLeaveRing {c} (hs : s.InvTo b) : (s.cmdLeaveRing c).InvTo b := hs.command (·.baysFor (·.leaveAll.replyDone))

theorem unloadImage (hs : s.InvTo b) : s.unloadImage.InvTo b := by
  have h := hs.emptyQueues.settleSubst
  unfold State.unloadImage
  exact { h with arrays := by simp [h.arrays] }

theorem cmdUnload {c} (hs : s.InvTo b) : (s.cmdUnload c).InvTo b := hs.command (·.unloadImage.setSt.replyDone)

/-- What CLOSE empties: memory, the array contexts and the session. -/
theorem withoutSession {m x h} {g : ArrayState → ArrayState} {r : Tiers} (hs : s.InvTo b) :
    ({ s with mem := [], tiers := r, arrays := s.arrays.map g, mask := m, stp := x, host := h } : State).InvTo b :=
  { hs.emptyMem with arrays := by simp [hs.arrays] }

theorem closeActions (hs : s.InvTo b) : s.closeActions.InvTo b := by
  unfold State.closeActions
  exact (foldl (withoutSession hs.unloadImage.withRing.leaveAll).setRw (·.setRw)).setReg.crcStale.clearJobCounters

theorem cmdClose {c} (hs : s.InvTo b) : (s.cmdClose c).InvTo b := hs.command (·.closeActions.replyBoth)

theorem hostStop (hs : s.InvTo b) : s.hostStop.InvTo b := by
  unfold State.hostStop
  dsimp only
  split
  · split
    · exact { (hs.onlyIf finalReply).replyState with }
    · exact { hs.onlyIf finalReply with }
  · exact { hs.onlyIf finalReply with }

theorem cmdStop {c} (hs : s.InvTo b) : (s.cmdStop c).InvTo b := hs.command (·.hostStop.replyDone)

theorem takeOwner {o v m} (hs : s.InvTo b) : (s.takeOwner o v m).InvTo b := hs.withHost

theorem openAs {c x y m k o} (hs : s.InvTo b) : (s.openAs c x y m k o).InvTo b := by
  unfold State.openAs
  dsimp only
  refine hs.reply.ite (hs.replyState.ite ?_)
  split
  · exact hs.refuse
  · refine hs.takeOwner.reply.ite (ite (hs.refuse.ite hs.withHost.reply) ?_)
    exact (hs.onlyIf hostStop).closeActions.takeOwner.replyBoth

theorem cmdOpen {c x y m k o} (hs : s.InvTo b) : (s.cmdOpen c x y m k o).InvTo b := hs.command openAs

/-! ### Sage: images -/

theorem declareCtxs {l} (hs : s.InvTo b) : (s.declareCtxs l).InvTo b := hs.withRing

theorem takeImage {i} (hs : s.InvTo b) : (s.takeImage i).InvTo b := by
  have h : (State.declareCtxs { s.unloadImage with
      host := { s.unloadImage.host with image := some i, st := .loaded }
      tiers := { s.unloadImage.tiers with regions := i.regions }
      mir := { s.unloadImage.mir with desc := i.pairing } } i.ctxTable).InvTo b := declareCtxs { hs.unloadImage with }
  exact h.clearRegs

theorem refuseImage {c e} (hs : s.InvTo b) : (s.refuseImage c e).InvTo b := by
  unfold State.refuseImage
  dsimp only
  split
  · exact hs.setReg.setReg.replyBoth
  · exact hs.replyBoth

theorem cmdLoadImage {c a n} (hs : s.InvTo b) : (s.cmdLoadImage c a n).InvTo b := by
  refine hs.command fun h => h.replyBoth.ite (h.replyBoth.ite ?_)
  split
  · exact h.used.refuseImage
  · exact h.used.takeImage.replyBoth

theorem patchImage {c k a i} (hs : s.InvTo b) : (s.patchImage c k a i).InvTo b := by
  unfold State.patchImage
  split
  · exact hs.refuse
  · exact hs.refuse.ite (hs.refuse.ite (replyDone { hs with }))

theorem cmdPatch {c k a} (hs : s.InvTo b) : (s.cmdPatch c k a).InvTo b := by
  refine hs.command fun h => ?_
  split
  · exact h.replyState
  · exact h.patchImage

theorem zeroFill {a n} (hs : s.InvTo b) : (s.zeroFill a n).InvTo b := (hs.withMem (memClear_wf _ _ _ hs.mem)).healed

theorem placeImages {l x} (hs : s.InvTo b) : (s.placeImages l x).InvTo b := by
  unfold State.placeImages
  refine foldl (hs.foldl (·.onlyIf zeroFill)) fun h => ?_
  split
  · exact h.putMem.ite h
  · exact h

theorem commitAs {i x l} (hs : s.InvTo b) : (s.commitAs i x l).InvTo b := by
  unfold State.commitAs
  exact (withHost (hs.placeImages.zipArrays.declareCtxs.ite hs.placeImages.zipArrays.declareCtxs.putMem)).clearJobCounters

theorem commitImage {c i} (hs : s.InvTo b) : (s.commitImage c i).InvTo b := by
  refine hs.replyBoth.ite (hs.replyBoth.ite ?_)
  split
  · exact hs.replyBoth
  · split
    · exact hs.replyBoth
    · exact hs.commitAs.replyBoth

theorem cmdCommitImage {c} (hs : s.InvTo b) : (s.cmdCommitImage c).InvTo b := by
  refine hs.command fun h => ?_
  split
  · exact h.replyState
  · exact h.commitImage

/-! ### Sage: the ring and its twin -/

theorem rename {o a} (hs : s.InvTo b) : (s.rename o a).InvTo b := hs.modThy.ite hs

theorem trainRing (hs : s.InvTo b) : s.trainRing.InvTo b := hs.foldl fun h => h.ite h.trainPort

theorem cmdJoinRing {c a x y} (hs : s.InvTo b) : (s.cmdJoinRing c a x y).InvTo b := by
  unfold State.cmdJoinRing
  dsimp only
  exact hs.command (·.baysFor fun h => (rename h.withRing).setBays.trainRing.replyPending.reparent.finishJoin)

theorem pairWith {c w} (hs : s.InvTo b) : (s.pairWith c w).InvTo b := by
  unfold State.pairWith
  exact hs.replyBoth.ite (hs.setBays.replyPending.finishPair.ite hs.setBays.replyPending.modPort)

theorem cmdPair {c w} (hs : s.InvTo b) : (s.cmdPair c w).InvTo b := hs.command fun h => h.replyState.ite h.pairWith

/-! ### Sage: events, faults and the run -/

theorem setQueue {a n} (hs : s.InvTo b) : (s.setQueue a n).InvTo b := hs.withFlt.foldl (·.writeEntry)

theorem cmdEventQueue {c a n} (hs : s.InvTo b) : (s.cmdEventQueue c a n).InvTo b := hs.command (·.setQueue.replyDone)

theorem cmdFaultClear {c n} (hs : s.InvTo b) : (s.cmdFaultClear c n).InvTo b :=
  hs.command fun h => (h.replyState.ite h.replyPending).ite h.withThy.clearFaults.replyDone

theorem setJob {a j} (hs : s.InvTo b) : (s.setJob a j).InvTo b := by
  unfold State.setJob
  exact hs.hostReads.withRing.withRing.used

theorem openDeclared (hs : s.InvTo b) : s.openDeclared.InvTo b := hs.foldl (·.modCtxE.toPartner)

theorem beginRun {x y} (hs : s.InvTo b) : (s.beginRun x y).InvTo b := by
  unfold State.beginRun
  exact captureAll { hs with arrays := by simp [hs.arrays] }

theorem startRun {c x y j a} (hs : s.InvTo b) : (s.startRun c x y j a).InvTo b := hs.setJob.beginRun.replyPending.openDeclared.settleStart

theorem cmdStart {c x y j a} (hs : s.InvTo b) : (s.cmdStart c x y j a).InvTo b := by
  refine hs.command fun h => h.replyState.ite ?_
  split
  · exact h.refuse
  · exact h.startRun

theorem cmdHold {c k} (hs : s.InvTo b) : (s.cmdHold c k).InvTo b := hs.command fun h => h.refuse.ite h.replyPending.withHost

theorem acceptRestart {r} (hs : s.InvTo b) : (s.acceptRestart r).InvTo b := hs.withHost.settleRestart

theorem cmdResume {c m v k x} (hs : s.InvTo b) : (s.cmdResume c m v k x).InvTo b := by
  refine hs.command fun h => ?_
  split
  · exact h.replyState
  · exact h.refuse
  · exact h.acceptRestart

theorem writeBackAll (hs : s.InvTo b) : s.writeBackAll.InvTo b := by
  unfold State.writeBackAll
  exact hs.withTiers.bump64

theorem snapshotIn {c k r} (hs : s.InvTo b) : (s.snapshotIn c k r).InvTo b := by
  unfold State.snapshotIn
  exact hs.writeBackAll.replyBoth.ite hs.writeBackAll.putMem.replyBoth

theorem cmdSnapshot {c k} (hs : s.InvTo b) : (s.cmdSnapshot c k).InvTo b := by
  refine hs.command fun h => ?_
  split
  · exact h.refuse
  · exact h.snapshotIn

theorem restoreFrom {c r} (hs : s.InvTo b) : (s.restoreFrom c r).InvTo b := by
  unfold State.restoreFrom
  exact hs.hostReads.replyBoth.ite (captureAll hs.hostReads.loadRecord.withStpMir).setSt.replyBoth

theorem cmdRestore {c k} (hs : s.InvTo b) : (s.cmdRestore c k).InvTo b := by
  refine hs.command fun h => ?_
  split
  · exact h.refuse
  · exact h.restoreFrom

/-! ### Sage: firmware and attestation -/

theorem cmdFwLoad {c a n} (hs : s.InvTo b) : (s.cmdFwLoad c a n).InvTo b := by
  refine hs.command fun h => h.replyBoth.ite ?_
  split
  · exact h.replyBoth
  · exact h.withDev.replyBoth

theorem cmdFwActivate {c k a} (hs : s.InvTo b) : (s.cmdFwActivate c k a).InvTo b :=
  hs.command fun h => h.refuse.ite (h.refuse.ite h.replyPending.withHost)

theorem cmdAttest {c n} (hs : s.InvTo b) : (s.cmdAttest c n).InvTo b := hs.command (·.reply)

/-! ### Automatic recovery -/

theorem postRecovery {l o k} (hs : s.InvTo b) : (s.postRecovery l o k).InvTo b := hs.onlyIf postEvent

theorem decline {l} (hs : s.InvTo b) : (s.decline l).InvTo b := hs.withRing.postRecovery

theorem runPlan {l p x} (hs : s.InvTo b) : (s.runPlan l p x).InvTo b := by
  unfold State.runPlan
  refine hs.decline.ite ?_
  dsimp only
  split
  · exact hs.acknowledge.decline
  · exact hs.acknowledge.withFlt.postRecovery.bump.acceptRestart

theorem exec_autoRecovery {l r a} (hs : s.InvTo b) : NextTo b (execAutoRecovery l r a s) := by
  unfold execAutoRecovery
  refine nextTo_ite hs ?_
  split
  · exact hs
  · extract_lets lead low tr plan u
    have hu : u.InvTo b := hs.used
    clear_value u lead plan tr
    refine nextTo_ite hu.exhausted.decline ?_
    split
    · exact hu.decline
    · exact hu.runPlan

/-! ### The packet window -/

theorem carryOut {c o p} (hs : s.InvTo b) : (s.carryOut c o p).InvTo b := by
  unfold State.carryOut
  split
  · exact hs.cmdIdentify
  · exact hs.cmdOpen
  · exact hs.cmdClose
  · exact hs.cmdLoadImage
  · exact hs.cmdPatch
  · exact hs.cmdCommitImage
  · exact hs.cmdUnload
  · exact hs.cmdStart
  · exact hs.cmdHold
  · exact hs.cmdResume
  · exact hs.cmdStop
  · exact hs.cmdSnapshot
  · exact hs.cmdRestore
  · exact hs.cmdJoinRing
  · exact hs.cmdPair
  · exact hs.cmdLeaveRing
  · exact hs.cmdFwLoad
  · exact hs.cmdFwActivate
  · exact hs.cmdAttest
  · exact hs.cmdEventQueue
  · exact hs.cmdFaultClear
  · exact hs.refuse

theorem takePacket {k p} (hs : s.InvTo b) : (s.takePacket k p).InvTo b := by
  unfold State.takePacket
  dsimp only
  refine hs.postEvent.bump.ite (hs.postEvent.ite (hs.replyState.ite ?_))
  split
  · exact hs.refuse
  · exact hs.carryOut.ite hs.refuse

theorem putSlot {i l} (hs : s.InvTo b) : (s.putSlot i l).InvTo b := hs.withHost

theorem takeVisible {n} (hs : s.InvTo b) : (s.takeVisible n).InvTo b := by
  induction n generalizing s with
  | zero => exact hs
  | succ n ih =>
    unfold State.takeVisible
    refine hs.ite ?_
    split
    · exact hs
    · exact ih hs.putSlot.withHost.takePacket

theorem exec_sealWrite {k l w} (hs : s.InvTo b) : NextTo b (execSealWrite k l w s) := by
  unfold execSealWrite
  exact nextTo_ite hs (nextTo_ite hs.bump (nextTo_ite hs.putSlot hs.putSlot.withHost.takeVisible))

theorem exec_linkReset {c l} (hs : s.InvTo b) : NextTo b (execLinkReset c l s) := by
  unfold execLinkReset
  exact nextTo_ite hs hs.withHost.bump

theorem takeSealed (hs : s.InvTo b) : s.takeSealed.InvTo b := hs.takeVisible

theorem exec_fwActivation (hs : s.InvTo b) : NextTo b (execFwActivation s) := by
  unfold execFwActivation
  split
  · exact hs
  · exact nextTo_ite (moduleReset (finalReply { hs with })) (takeSealed (finalReply (event (endHandover { hs with }))))

theorem exec_fwHealthTimeout (hs : s.InvTo b) : NextTo b (execFwHealthTimeout s) := by
  unfold execFwHealthTimeout
  exact nextTo_ite hs hs.withHost.endHandover.setBits.finalReply.takeSealed

theorem exec_boot {l k} (hs : s.InvTo b) : NextTo b (execBoot l k s) := by
  unfold execBoot
  exact nextTo_ite hs (nextTo_ite hs.withHost.withHost
    (takeSealed (ite hs.withHost.bootFirmware (ite hs.withHost.bootFirmware hs.withHost.withHost))))

end State.InvTo
end Sys2Proof.Machine
end

section
/-! The invariant through events, cycles and every command, and the two obligations. -/

set_option Elab.async false

namespace Sys2Proof.Machine
namespace State.InvTo

variable {s t : State} {b : Nat}

/-! ### Events and cycles -/

theorem effect_next (e : Event) (hs : s.InvTo b) : NextTo b (e.effect s) := by
  cases e with
  | preloadEnd => exact hs.exec_preloadEnd
  | segmentEnd => exact hs.exec_segmentEnd
  | totalsFinal => exact hs.exec_totalsFinal
  | redRetire => exact hs.exec_redRetire
  | vectorWriteLanded => exact hs.exec_vectorWriteLanded
  | vtloadRetire => exact hs.exec_vtloadRetire
  | sldRegisterWritten => exact hs.exec_sldRegisterWritten
  | unrmRetire => exact hs.exec_unrmRetire
  | uchkVerdict => exact hs.exec_uchkVerdict
  | uverCloseRetire => exact hs.exec_uverCloseRetire
  | ctxAppendRetire => exact hs.exec_ctxAppendRetire
  | passReadEnd => exact hs.exec_passReadEnd
  | drain => exact hs.exec_drain
  | ftqEntry => exact hs.exec_ftqEntry
  | gbAddition => exact hs.exec_gbAddition
  | vectorPassStart => exact hs.exec_vectorPassStart
  | updTile => exact hs.exec_updTile
  | deferTimeout => exact hs.exec_deferTimeout
  | queueOverflow => exact hs.exec_queueOverflow
  | descriptorComplete => exact hs.exec_descriptorComplete
  | codecTile => exact hs.exec_codecTile
  | descriptorFetch => exact hs.exec_descriptorFetch
  | maskOpComplete => exact hs.exec_maskOpComplete
  | maskEngineStart => exact hs.exec_maskEngineStart
  | workCounterRequest => exact hs.exec_workCounterRequest
  | digestWritten => exact hs.exec_digestWritten
  | dillEngineStart => exact hs.exec_dillEngineStart
  | addingUnitApply => exact hs.exec_addingUnitApply
  | moduleStepBoundary => exact hs.exec_moduleStepBoundary

theorem run (e : Event) (hs : s.InvTo b) : (e.run s).InvTo b := by
  have h := hs.effect_next e
  unfold Event.run
  split
  next t ht => rwa [ht] at h
  next => exact hs

theorem dueEvent (hs : s.InvTo b) (ht : s.dueEvent = some t) : t.InvTo b := by
  obtain ⟨e, -, he⟩ := List.exists_of_findSome?_eq_some ht
  split at he
  · cases he
  · cases he
    exact hs.run e

theorem settleEvents {n} (hs : s.InvTo b) : (State.settleEvents n s).InvTo b := by
  induction n generalizing s with
  | zero => exact hs
  | succ n ih =>
    unfold State.settleEvents
    split
    next t ht => exact ih (hs.dueEvent ht)
    next => exact hs

theorem runCycles {n} (hs : s.InvTo b) : (State.runCycles n s).InvTo (b + n) := by
  induction n generalizing s b with
  | zero => exact hs
  | succ n ih =>
    unfold State.runCycles
    refine hs.elapse.ite ?_
    exact (ih hs.settleEvents.oneCycle).mono (by omega)

theorem periodEnd (hs : s.InvTo b) : s.periodEnd.InvTo (b + (256 - s.thy.cyc)) := hs.runCycles

/-- A period boundary ends the old period wherever its cycles lead, and the new one begins at cycle 0. -/
theorem exec_periodBoundary (hs : s.InvTo b) : NextTo b (execPeriodBoundary s) := by
  unfold execPeriodBoundary
  exact nextTo_ite hs ((periodEnd hs).flushEntries.applyCal.advancePeriod.countLate.behindTest.recordOverflows.stopDue.phaseDuties.mono (Nat.zero_le b))

/-- An idle cycle passes only while the period has one left. -/
theorem idleCycle (hs : s.InvTo 255) : s.idleCycle.InvTo 255 := by
  unfold State.idleCycle
  split
  next h =>
    have hlt : s.thy.cyc < 255 := of_decide_eq_true (Bool.and_eq_true _ _ ▸ h).2
    exact oneCycle { hs with cyc := Nat.le_of_lt_succ hlt }
  next => exact hs

theorem idle (hs : s.InvTo 255) : s.idle.InvTo 255 := by
  unfold State.idle
  cases h : s.dueEvent with
  | none => exact hs.idleCycle
  | some t => exact hs.dueEvent h

/-! ### Every command -/

theorem exec_next (i : Instr) (hs : s.InvTo b) : NextTo b (exec i s) := by
  cases i with
  | nop => exact hs.issue_next id
  | endStream => exact hs.issue_next (·.modCtx)
  | stepb => exact hs.exec_stepb
  | rcall => exact hs.issue_next (·.modCtx)
  | setbase => exact hs.issue_next (·.modCtx)
  | setver => exact hs.issue_next (·.modCtx)
  | br => exact hs.branch_next
  | beq => exact hs.branch_next
  | bne => exact hs.branch_next
  | bltu => exact hs.branch_next
  | blt => exact hs.branch_next
  | sadd => exact hs.alu_next
  | ssub => exact hs.alu_next
  | smul => exact hs.alu_next
  | sand => exact hs.alu_next
  | sor => exact hs.alu_next
  | sxor => exact hs.alu_next
  | sshl => exact hs.issue_next (·.writeScalar)
  | sshr => exact hs.issue_next (·.writeScalar)
  | ssra => exact hs.issue_next (·.writeScalar)
  | sli => exact hs.issue_next (·.writeScalar)
  | slih => exact hs.issue_next (·.writeScalar)
  | sld => exact hs.issue_next (·.recordUses.addOp)
  | sldRegisterWritten => exact hs.exec_sldRegisterWritten
  | sst => exact hs.issue_next (·.addOp)
  | mmf => exact hs.issueMM_next
  | mmt => exact hs.issueMM_next
  | mmg => exact hs.exec_mmg
  | mmgCand => exact hs.exec_mmgCand
  | preloadEnd => exact hs.exec_preloadEnd
  | segmentEnd => exact hs.exec_segmentEnd
  | totalsFinal => exact hs.exec_totalsFinal
  | ftqEntry => exact hs.exec_ftqEntry
  | gbAddition => exact hs.exec_gbAddition
  | redSum => exact hs.issueRed_next
  | redMax => exact hs.issueRed_next
  | redMin => exact hs.issueRed_next
  | redRetire => exact hs.exec_redRetire
  | vadd => exact hs.issueVec_next
  | vsub => exact hs.issueVec_next
  | vmul => exact hs.issueVec_next
  | vfma => exact hs.issueVec_next
  | vmax => exact hs.issueVec_next
  | vmin => exact hs.issueVec_next
  | vabs => exact hs.issueVec_next
  | vneg => exact hs.issueVec_next
  | vcvt => exact hs.issueVec_next
  | vfn => exact hs.issueVec_next
  | vder => exact hs.issueVec_next
  | vectorPassStart => exact hs.exec_vectorPassStart
  | vectorWriteLanded => exact hs.exec_vectorWriteLanded
  | drain => exact hs.exec_drain
  | queueOverflow => exact hs.exec_queueOverflow
  | vtload => exact hs.exec_vtload
  | dloadC => exact hs.issueDma_next
  | dloadD => exact hs.issueDma_next
  | dloadT => exact hs.issueDma_next
  | dbuild => exact hs.issueDma_next
  | dcopy => exact hs.issueDma_next
  | dadd => exact hs.issueDma_next
  | dfill => exact hs.issueDma_next
  | descriptorFetch => exact hs.exec_descriptorFetch
  | codecTile => exact hs.exec_codecTile
  | descriptorComplete => exact hs.exec_descriptorComplete
  | mbind => exact hs.issueMask_next
  | mdec => exact hs.issueMask_next
  | pruneG => exact hs.issueMask_next
  | pruneL => exact hs.issueMask_next
  | regrowM => exact hs.issueMask_next
  | regrowR => exact hs.issueMask_next
  | mcommit => exact hs.issueMask_next
  | mcommitAdopt => exact hs.issueMask_next
  | maskEngineStart => exact hs.exec_maskEngineStart
  | maskOpComplete => exact hs.exec_maskOpComplete
  | unrm => exact hs.exec_unrm
  | unrmFin => exact hs.issue_next (·.addOp.markFinal)
  | uchk => exact hs.issue_next (·.addOp.modCtx)
  | uchkVerdict => exact hs.exec_uchkVerdict
  | uverOpen => exact hs.exec_uverOpen
  | upd => exact hs.issue_next (·.addOp)
  | updTile => exact hs.exec_updTile
  | deferTimeout => exact hs.exec_deferTimeout
  | uverClose => exact hs.issue_next (·.addOp)
  | uverCloseRetire => exact hs.exec_uverCloseRetire
  | ctxAppend => exact hs.exec_ctxAppend
  | ctxAdv => exact hs.exec_ctxAdv
  | pstage => exact hs.exec_pstage
  | placementTick => exact hs.exec_placementTick
  | stagingComplete => exact hs.exec_stagingComplete
  | stageHoldTimeout => exact hs.exec_stageHoldTimeout
  | rsend => exact hs.exec_rsend
  | rrecv => exact hs.exec_rrecv
  | wcreq => exact hs.exec_wcreq
  | wcset => exact hs.exec_wcset
  | workCounterRequest => exact hs.exec_workCounterRequest
  | digH => exact hs.exec_digH
  | digProv => exact hs.exec_digProv
  | dillEngineStart => exact hs.exec_dillEngineStart
  | periodBoundary => exact hs.exec_periodBoundary
  | phaseHoldLimit => exact hs.exec_phaseHoldLimit
  | moduleStepBoundary => exact hs.exec_moduleStepBoundary
  | selftestComplete => exact hs.exec_selftestComplete
  | holdoverTimeout => exact hs.exec_holdoverTimeout
  | masterLostTimeout => exact hs.exec_masterLostTimeout
  | controllerWindow => exact hs.exec_controllerWindow
  | junctionOvertemp => exact hs.onlyIf trip
  | leakDetected => exact hs.onlyIf trip
  | railFault => exact hs.onlyIf trip
  | inputOutOfRange => exact hs.onlyIf moduleReset
  | bodyWithdrawn => exact hs.moduleReset
  | powerOn => exact hs.moduleReset
  | rstNPulse => exact hs.onlyIf moduleReset
  | boot => exact hs.exec_boot
  | oscStable => exact hs.exec_oscStable
  | linkReset => exact hs.exec_linkReset
  | secondBoundary => exact hs.exec_secondBoundary
  | ptpMessage => exact hs.exec_ptpMessage
  | ptpSyncTimer => exact hs.exec_ptpSyncTimer
  | dataFrame => exact hs.exec_dataFrame
  | addingUnitApply => exact hs.exec_addingUnitApply
  | armFrame => exact hs.exec_armFrame
  | doneFrame => exact hs.exec_doneFrame
  | linkFrame => exact hs.exec_linkFrame
  | openFrame => exact hs.arrives openIn
  | closeFrame => exact hs.exec_closeFrame
  | phaseFrame => exact hs.exec_phaseFrame
  | holdOn => exact hs.exec_holdOn
  | holdOff => exact hs.exec_holdOff
  | rateMessage => exact hs.exec_rateMessage
  | beaconFrame => exact hs.linkIn mergeBeacon
  | beaconHoldExpiry => exact hs.exec_beaconHoldExpiry
  | rebindFrame => exact hs.arrives rebind
  | trainFrame => exact hs.exec_trainFrame
  | normFrame => exact hs.arrives normArrives
  | creditFrame => exact hs.exec_creditFrame
  | frameForward => exact hs.exec_frameForward
  | ackTimer => exact hs.exec_ackTimer
  | replayTimeout => exact hs.exec_replayTimeout
  | laneFailure => exact hs.exec_laneFailure
  | lightLoss => exact hs.exec_lightLoss
  | breakTimeout => exact hs.exec_breakTimeout
  | ctxTimeout => exact hs.exec_ctxTimeout
  | openTimeout => exact hs.exec_openTimeout
  | journalBlockCopy => exact hs.exec_journalBlockCopy
  | refillCopyBlock => exact hs.exec_refillCopyBlock
  | packageCopyBlock => exact hs.exec_packageCopyBlock
  | crcScrub => exact hs.exec_crcScrub
  | rateWindowEnd => exact hs.exec_rateWindowEnd
  | autoRecovery => exact hs.exec_autoRecovery
  | fwActivation => exact hs.exec_fwActivation
  | fwHealthTimeout => exact hs.exec_fwHealthTimeout
  | sealWrite => exact hs.exec_sealWrite
  | identify => exact hs.cmdIdentify
  | openCmd => exact hs.cmdOpen
  | close => exact hs.cmdClose
  | loadImage => exact hs.cmdLoadImage
  | patch => exact hs.cmdPatch
  | commitImage => exact hs.cmdCommitImage
  | unload => exact hs.cmdUnload
  | start => exact hs.cmdStart
  | hold => exact hs.cmdHold
  | resume => exact hs.cmdResume
  | stop => exact hs.cmdStop
  | snapshot => exact hs.cmdSnapshot
  | restore => exact hs.cmdRestore
  | joinRing => exact hs.cmdJoinRing
  | pair => exact hs.cmdPair
  | leaveRing => exact hs.cmdLeaveRing
  | fwLoad => exact hs.cmdFwLoad
  | fwActivate => exact hs.cmdFwActivate
  | attest => exact hs.cmdAttest
  | eventQueue => exact hs.cmdEventQueue
  | faultClear => exact hs.cmdFaultClear
  | bar4Access => exact hs.exec_bar4Access
  | registerWrite => exact hs.exec_registerWrite
  | slLowRead => exact hs.exec_slLowRead
  | glbStrobe => exact hs.onlyIf strobe
  | strobeCommit => exact hs.exec_strobeCommit
  | idleOnlyCommit => exact hs.exec_idleOnlyCommit
  | fltEqTail => exact hs.onlyIf setTail
  | thySnapCtrl => exact hs.exec_thySnapCtrl
  | thyTodCtrl => exact hs.guarded takeTod
  | thyPrio => exact hs.guarded takePrio
  | thyRateCap => exact hs.guarded takeCap
  | tirCopyCtrl => exact hs.guarded takeCopy
  | rngBayCtrl => exact hs.guarded takeBays
  | mirFence => exact hs.guarded takeFence
  | detCtrl => exact hs.guarded takeStrict
  | glbCrcCtrl => exact hs.guarded takeReg
  | glbCfgCrcRef => exact hs.guarded takeRef
  | secRevoke => exact hs.guarded takeRevoke
  | secPolicy => exact hs.guarded takePolicy
  | secReset => exact hs.guarded takeReset
  | calSave => exact hs.guarded takeSave
  | pwrLimit => exact hs.guarded takeReg
  | passReadEnd => exact hs.exec_passReadEnd
  | vtloadRetire => exact hs.exec_vtloadRetire
  | unrmRetire => exact hs.exec_unrmRetire
  | ctxAppendRetire => exact hs.exec_ctxAppendRetire
  | digestWritten => exact hs.exec_digestWritten
  | holdMessage => exact hs.exec_holdMessage
  | portTrainTimeout => exact hs.exec_portTrainTimeout
  | patrolScrub => exact hs.exec_patrolScrub

end State.InvTo

theorem step_next {s : State} (hs : s.InvTo 255) : NextTo 255 (step s) := by
  unfold step
  split
  · exact hs.idle
  next c rest _ => exact State.InvTo.exec_next c { hs with }

/-! ### The obligations -/

/-- Settles O3: the state after reset is `State.resetOf` of a device and an empty queue. -/
theorem resetHasInvariant : Obligations.ResetHasInvariant := by
  unfold Obligations.ResetHasInvariant
  exact State.reset.inv_iff_invTo.2 ((State.InvTo.resetOf Device.reset []).mono (Nat.zero_le 255))

/-- Settles O4: every command and every idle cycle keeps the invariant. -/
theorem stepKeepsInvariant : Obligations.StepKeepsInvariant := by
  unfold Obligations.StepKeepsInvariant
  intro s t hs ht
  have h := step_next (s.inv_iff_invTo.1 hs)
  rw [ht] at h
  exact t.inv_iff_invTo.2 h

end Sys2Proof.Machine
end

section
/-! Observations of the state that an update does not change. Each structure below lists the single updates that an observation `f` does not read; each lemma says that a function of the model built from those updates keeps `f`. A proof then names what it observes (a register, the time system, the job) once, and cites one lemma per function. -/

namespace Sys2Proof.Machine

/-- Registers that count and flag event entries and fault records (R422, R436, R437). -/
def noteRegs : List Nat := [Reg.FLT_COUNT, Reg.FLT_STATUS, Reg.FLT_EVENTS, Reg.FLT_EVENTS_LOST, Reg.FLT_EVENTS_SUPPRESSED]

/-- `f` does not read what an event entry changes: host memory, the fault block beside the first record and the acknowledge flag, and the registers of `noteRegs`. -/
structure EventFree {α : Type} (f : State → α) : Prop where
  notes : ∀ (s : State) m x, x.first = s.flt.first → x.unacked = s.flt.unacked → f { s with hostMem := m, flt := x } = f s
  bump : ∀ s a n, a ∈ noteRegs → f (s.bump a n) = f s
  setBits : ∀ s a m, a ∈ noteRegs → f (s.setBits a m) = f s

/-- `f` reads no register. -/
def RegFree {α : Type} (f : State → α) : Prop := ∀ (s : State) x, f { s with regs := x } = f s

/-- `f` reads nothing of the fault block. -/
def FaultFree {α : Type} (f : State → α) : Prop := ∀ (s : State) x, f { s with flt := x } = f s

/-- `f` does not read what a substitution of a spare position changes, beside its events (R16, R17). -/
structure SpareFree {α : Type} (f : State → α) : Prop extends EventFree f where
  subst : ∀ (s : State) x, f { s with dev := { s.dev with subst := x } } = f s
  spares : ∀ (s : State) p w n r, f { s with host := { s.host with posFailed := p, substWaiting := w, noSpare := n, reload := r } } = f s

/-- `f` does not read what an ECC error changes: registers, the tiers and the positions under self-test (R209, R216). -/
structure EccFree {α : Type} (f : State → α) : Prop extends EventFree f where
  regs : RegFree f
  tiers : ∀ (s : State) x, f { s with tiers := x } = f s
  posTesting : ∀ (s : State) x, f { s with host := { s.host with posTesting := x } } = f s

/-- `f` does not read what frames and the master's duties change: registers, the ring engine, and the time system beside who is the master, Π and T (R245, R249, R250). -/
structure SendFree {α : Type} (f : State → α) : Prop where
  regs : RegFree f
  ring : ∀ (s : State) x, f { s with ring := x } = f s
  thy : ∀ (s : State) x, x.master = s.thy.master → x.masterAddr = s.thy.masterAddr → x.period = s.thy.period → x.tick = s.thy.tick →
    f { s with thy := x } = f s

/-- `f` does not read what a report to the ring changes: beside events and frames, the bytes of receives that end early and the mirror engine's record of the twin (R337 to R341, R355). -/
structure ReportFree {α : Type} (f : State → α) : Prop extends EventFree f, SendFree f where
  mem : ∀ (s : State) m c, f { s with mem := m, freeCtr := c } = f s
  mir : ∀ (s : State) x, x.testing = s.mir.testing → f { s with mir := x } = f s

/-- `f` does not read what a write to module memory changes, beside the ECC errors it meets (R216, R217, R358). -/
structure WriteFree {α : Type} (f : State → α) : Prop extends EccFree f where
  flt' : FaultFree f
  mem : ∀ (s : State) x, f { s with mem := x } = f s
  ring : ∀ (s : State) x, f { s with ring := x } = f s

variable {α β : Type} {f : State → α}

/-- A fold keeps what each of its steps keeps. -/
theorem foldl_keeps {g : State → β → State} (hg : ∀ s x, f (g s x) = f s) (l : List β) (s : State) : f (l.foldl g s) = f s := by
  induction l generalizing s with
  | nil => rfl
  | cons x l ih => exact (ih _).trans (hg s x)

theorem keeps_ite {c : Prop} [Decidable c] {s t : State} {y : α} (hs : f s = y) (ht : f t = y) : f (if c then s else t) = y := by
  split <;> assumption

/-- An update that is made only under a condition. -/
theorem keeps_onlyIf {c : Prop} [Decidable c] {s t : State} (ht : f t = f s) : f (if c then t else s) = f s := keeps_ite ht rfl

/-! ### Registers -/

theorem State.reg_setBits_ne (s : State) (a b m : Nat) (h : b ≠ a) : (s.setBits a m).reg b = s.reg b := State.reg_setReg_ne _ _ _ _ h

theorem State.reg_setRw_ne (s : State) (a b : Nat) (v : W32) (h : b ≠ a) : (s.setRw a v).reg b = s.reg b := State.reg_setReg_ne s _ _ _ h

theorem State.reg_setReg_same (s : State) (a : Nat) (v : W32) (hs : s.regsSorted) : (s.setReg a v).reg a = v := kvGet_kvSet_same _ _ _ _ hs

theorem State.reg_setRw_same (s : State) (a : Nat) (v : W32) (hs : s.regsSorted) : (s.setRw a v).reg a = v := s.reg_setReg_same a v hs

theorem State.reg_setBits_same (s : State) (a m : Nat) (hs : s.regsSorted) : (s.setBits a m).reg a = s.reg a ||| BitVec.ofNat 32 m :=
  State.reg_setReg_same _ _ _ hs

theorem State.reg_bump_same (s : State) (a n : Nat) (hs : s.regsSorted) (hn : n ≠ 0) : (s.bump a n).reg a = s.reg a + BitVec.ofNat 32 n := by
  simp only [State.bump, if_neg hn]
  exact s.reg_setReg_same a _ hs

theorem State.setReg_regsSorted {s : State} (hs : s.regsSorted) (a : Nat) (v : W32) : (s.setReg a v).regsSorted := kvSet_sorted _ _ _ _ hs

theorem State.setBits_regsSorted {s : State} (hs : s.regsSorted) (a m : Nat) : (s.setBits a m).regsSorted := kvSet_sorted _ _ _ _ hs

theorem State.bump_regsSorted {s : State} (hs : s.regsSorted) (a n : Nat) : (s.bump a n).regsSorted := by
  unfold State.bump
  split
  · exact hs
  · exact State.setReg_regsSorted hs a _

namespace RegFree

theorem setReg (hf : RegFree f) (s : State) (a : Nat) (v : W32) : f (s.setReg a v) = f s := hf s _

theorem setRw (hf : RegFree f) (s : State) (a : Nat) (v : W32) : f (s.setRw a v) = f s := hf s _

theorem setBits (hf : RegFree f) (s : State) (a m : Nat) : f (s.setBits a m) = f s := hf s _

theorem setReg64 (hf : RegFree f) (s : State) (a v : Nat) : f (s.setReg64 a v) = f s := hf s _

theorem bump (hf : RegFree f) (s : State) (a n : Nat) : f (s.bump a n) = f s := by
  unfold State.bump
  split
  · rfl
  · exact hf.setReg s a _

theorem bump64 (hf : RegFree f) (s : State) (a n : Nat) : f (s.bump64 a n) = f s := by
  unfold State.bump64
  split
  · rfl
  · exact hf.setReg64 s a _

end RegFree

/-! ### Events (R436 to R439) -/

namespace EventFree

/-- An observation of neither host memory nor the fault block nor registers. -/
theorem of_unread (h : ∀ s m x r, f { s with hostMem := m, flt := x, regs := r } = f s) : EventFree f :=
  have hr : RegFree f := fun s r => h s s.hostMem s.flt r
  ⟨fun s m x _ _ => h s m x s.regs, fun s a n _ => hr.bump s a n, fun s a m _ => hr.setBits s a m⟩

/-- A register that counts no events. -/
theorem of_reg {a : Nat} (ha : a ∉ noteRegs) : EventFree (fun s => s.reg a) where
  notes _ _ _ _ _ := rfl
  bump s b n hb := s.reg_bump_ne b a n fun h => ha (h ▸ hb)
  setBits s b m hb := s.reg_setBits_ne b a m fun h => ha (h ▸ hb)

theorem flt (hf : EventFree f) (s : State) (x : Faults) (h1 : x.first = s.flt.first := by rfl) (h2 : x.unacked = s.flt.unacked := by rfl) :
    f { s with flt := x } = f s := hf.notes s s.hostMem x h1 h2

theorem signalEvents (hf : EventFree f) (s : State) (v : Nat) : f (s.signalEvents v) = f s := by
  unfold State.signalEvents
  cases v == 1
  · exact keeps_onlyIf (hf.flt s _)
  · exact keeps_onlyIf (hf.flt s _)

/-- A counter of `noteRegs` and its flag. -/
theorem note (hf : EventFree f) (s : State) {a b : Nat} (n m : Nat) (ha : a ∈ noteRegs) (hb : b ∈ noteRegs) :
    f ((s.bump a n).setBits b m) = f s := (hf.setBits _ b m hb).trans (hf.bump s a n ha)

theorem loseEntry (hf : EventFree f) (s : State) : f s.loseEntry = f s := hf.note s 1 4 (by decide) (by decide)

theorem writeEntry (hf : EventFree f) (s : State) (e : EventEntry) : f (s.writeEntry e) = f s := by
  refine keeps_ite (hf.flt s _) (keeps_ite (hf.loseEntry s) ?_)
  split
  · exact hf.flt s _
  · exact (hf.signalEvents _ _).trans (hf.notes s _ _ rfl rfl)

theorem countEvent (hf : EventFree f) (s : State) : f s.countEvent = f s := hf.note s 1 2 (by decide) (by decide)

theorem postEvent (hf : EventFree f) (s : State) (c o a d : Nat) : f (s.postEvent c o a d) = f s := by
  have suppressed := hf.bump s.countEvent Reg.FLT_EVENTS_SUPPRESSED 1 (by decide)
  refine Eq.trans (keeps_ite (Eq.trans (hf.flt _ _) suppressed) ?_) (hf.countEvent s)
  exact (hf.writeEntry _ _).trans (keeps_onlyIf (hf.flt s.countEvent _))

theorem event (hf : EventFree f) (s : State) (c d : Nat) : f (s.event c d) = f s := hf.postEvent s c 0 _ d

/-- A reply of Sage writes host memory and signals a vector (R378, R383). -/
theorem putReply (hf : EventFree f) (s : State) (c : CmdHdr) (a op st ft d : Nat) (l : List Byte) : f (s.putReply c a op st ft d l) = f s := by
  unfold State.putReply State.signalReply
  refine keeps_ite rfl ?_
  split
  · exact hf.notes s _ _ rfl rfl
  · exact hf.notes s _ s.flt rfl rfl

theorem faultEntry (hf : EventFree f) (s : State) (r : FaultRec) : f (s.faultEntry r) = f s := by
  unfold State.faultEntry
  exact keeps_ite (hf.flt s _) (hf.flt s _)

/-- A fault record, with what the memory code does beside it (R427, R429, R430). -/
theorem recordFault (hf : EventFree f) (hflt : FaultFree f) (s : State) (r : FaultRec) : f (s.recordFault r) = f (s.eccEffects r) := by
  have counted : f (((s.eccEffects r).bump Reg.FLT_COUNT 1).setBits Reg.FLT_STATUS 1) = f (s.eccEffects r) :=
    hf.note _ 1 1 (by decide) (by decide)
  exact (keeps_onlyIf (hflt _ _)).trans ((hf.faultEntry _ r).trans ((hflt _ _).trans counted))

/-- What a fault record leaves in the fault block: an unacknowledged fault. -/
theorem recordFault_unacked (hf : EventFree f) {y : α} (hy : ∀ (s : State) x, x.unacked = true → f { s with flt := x } = y) (s : State) (r : FaultRec) :
    f (s.recordFault r) = y := (keeps_onlyIf (hf.flt _ _)).trans ((hf.faultEntry _ r).trans (hy _ _ rfl))

end EventFree

@[simp] theorem State.event_host (s : State) (c d : Nat) : (s.event c d).host = s.host :=
  (EventFree.of_unread (f := State.host) fun _ _ _ _ => rfl).event s c d

@[simp] theorem State.event_dev (s : State) (c d : Nat) : (s.event c d).dev = s.dev :=
  (EventFree.of_unread (f := State.dev) fun _ _ _ _ => rfl).event s c d

/-! ### ECC errors (R209, R216) -/

namespace EccFree

theorem startCopy (hf : EccFree f) (s : State) (c : Nat) : f (s.startCopy c) = f s := by
  refine keeps_ite rfl ?_
  split
  · exact keeps_ite rfl (hf.tiers s _)
  · split
    · exact hf.regs.setBits s _ _
    · exact (keeps_onlyIf ((hf.event _ _ _).trans (hf.regs.setBits _ _ _))).trans ((hf.regs.setReg64 _ _ _).trans (hf.tiers s _))

theorem selfTest (hf : EccFree f) (s : State) (n : Nat) : f (s.selfTest n) = f s := keeps_ite rfl (hf.posTesting s _)

theorem eccEffects (hf : EccFree f) (s : State) (r : FaultRec) : f (s.eccEffects r) = f s :=
  keeps_ite ((hf.selfTest _ _).trans (hf.regs.bump s _ _))
    (keeps_onlyIf ((hf.startCopy _ _).trans ((hf.regs.setBits _ _ _).trans (hf.tiers s _))))

theorem countCorrected (hf : EccFree f) (s : State) (c n : Nat) : f (s.countCorrected c n) = f s :=
  (keeps_onlyIf ((hf.startCopy _ _).trans (hf.regs.setBits _ _ _))).trans (hf.tiers s _)

theorem correctBlock (hf : EccFree f) (s : State) (x : Nat × Nat) : f (s.correctBlock x) = f s :=
  (hf.countCorrected _ _ _).trans (hf.tiers s _)

theorem correctWord (hf : EccFree f) (s : State) (w : Nat) : f (s.correctWord w) = f s :=
  Eq.trans (hf.regs.bump { s with tiers := { s.tiers with nearSoft := s.tiers.nearSoft.erase w } } _ 1) (hf.tiers s _)

theorem correctAt (hf : EccFree f) (s : State) (a n : Nat) : f (s.correctAt a n) = f s :=
  keeps_ite rfl (keeps_ite (foldl_keeps hf.correctBlock _ s) (foldl_keeps hf.correctWord _ s))

theorem corrected (hf : EccFree f) (s : State) (l : List (Nat × Nat)) (n : Nat) : f (s.corrected l n) = f s :=
  keeps_ite rfl (foldl_keeps (fun s (x : Nat × Nat) => hf.correctAt s x.1 x.2) _ s)

theorem recordFault (hf : EccFree f) (hflt : FaultFree f) (s : State) (r : FaultRec) : f (s.recordFault r) = f s :=
  (hf.toEventFree.recordFault hflt s r).trans (hf.eccEffects s r)

end EccFree

/-! ### Frames and the Thyme master (R245, R249, R250, R313) -/

namespace SendFree

theorem modPort (hf : SendFree f) (s : State) (p : Nat) (g : Port → Port) : f (s.modPort p g) = f s := hf.ring s _

theorem sendFrame (hf : SendFree f) (s : State) (p : Nat) (x : OutFrame) : f (s.sendFrame p x) = f s := hf.modPort s p _

theorem giveCredit (hf : SendFree f) (s : State) (p c v n : Nat) : f (s.giveCredit p c v n) = f s := hf.sendFrame s p _

theorem releaseHeld (hf : SendFree f) (s : State) (r : Recv) : f (s.releaseHeld r) = f s := foldl_keeps (fun s _ => hf.giveCredit s _ _ _ _) _ _

theorem flood (hf : SendFree f) (s : State) (p : Nat) (x : OutFrame) : f (s.flood p x) = f s := foldl_keeps (fun s _ => hf.sendFrame s _ _) _ _

theorem sendTo (hf : SendFree f) (s : State) (m : Bool) (d : Nat) (x : OutFrame) : f (s.sendTo m d x) = f s :=
  keeps_ite (hf.sendFrame s _ _) (keeps_ite (hf.regs.bump s _ _) (hf.sendFrame s _ _))

theorem sendPhase (hf : SendFree f) (s : State) (t : Nat) (l : List Nat) (i : PhaseInfo) : f (s.sendPhase t l i) = f s :=
  foldl_keeps (fun s _ => hf.sendFrame s _ _) _ _

theorem announce (hf : SendFree f) (s : State) : f s.announce = f s := hf.sendPhase s _ _ _

/-- A change of the Thyme block that leaves master, Π and T. -/
theorem modThy (hf : SendFree f) (s : State) (g : Thyme → Thyme) (hm : (g s.thy).master = s.thy.master := by rfl)
    (ha : (g s.thy).masterAddr = s.thy.masterAddr := by rfl) (hp : (g s.thy).period = s.thy.period := by rfl)
    (ht : (g s.thy).tick = s.thy.tick := by rfl) : f (s.modThy g) = f s := hf.thy s _ hm ha hp ht

theorem masterHoldOn (hf : SendFree f) (s : State) (a : Nat) : f (s.masterHoldOn a) = f s := by
  refine Eq.trans ?_ (hf.modThy s fun t => { t with levels := if t.levels.contains a then t.levels else t.levels ++ [a] })
  unfold State.masterHoldOn
  dsimp only
  split
  · exact (hf.announce _).trans (hf.modThy _ _)
  · split
    · rfl
    · exact keeps_ite ((hf.announce _).trans (hf.modThy _ _)) ((hf.announce _).trans (hf.modThy _ _))

theorem masterHoldOff (hf : SendFree f) (s : State) (a : Nat) : f (s.masterHoldOff a) = f s := by
  refine Eq.trans ?_ (hf.modThy s fun t => { t with levels := t.levels.filter (· != a) })
  unfold State.masterHoldOff
  dsimp only
  split
  · exact keeps_ite rfl ((hf.announce _).trans (hf.modThy _ _))
  · rfl

theorem masterRate (hf : SendFree f) (s : State) : f s.masterRate = f s :=
  keeps_ite ((hf.announce _).trans (hf.modThy s _)) (keeps_onlyIf ((hf.announce _).trans (hf.modThy s _)))

theorem retarget (hf : SendFree f) (s : State) (l : List (Nat × Nat)) : f (s.retarget l) = f s := (hf.masterRate _).trans (hf.modThy s _)

theorem masterRequest (hf : SendFree f) (s : State) (a r : Nat) : f (s.masterRequest a r) = f s := hf.retarget s _

theorem dropMember (hf : SendFree f) (s : State) (a : Nat) : f (s.dropMember a) = f s := keeps_onlyIf (hf.retarget s _)

theorem tellsLoss (hf : SendFree f) (s : State) (a c : Nat) : f (s.tellsLoss a c) = f s :=
  keeps_onlyIf ((hf.dropMember _ _).trans (hf.ring s _))

theorem thymeMsg (hf : SendFree f) (s : State) (k v : Nat) : f (s.thymeMsg k v) = f s :=
  keeps_ite (keeps_ite (hf.masterHoldOff s _) (keeps_ite (hf.masterHoldOn s _) (hf.masterRequest s _ _))) (hf.sendTo s _ _ _)

theorem holdOff (hf : SendFree f) (s : State) : f s.holdOff = f s := by
  unfold State.holdOff
  extract_lets t
  exact (hf.modThy t _).trans (keeps_onlyIf (hf.thymeMsg s _ _))

end SendFree

/-! ### Reports (R337 to R341, R355) -/

namespace ReportFree

theorem releasePartner (hf : ReportFree f) (s : State) (a : Nat) : f (s.releasePartner a) = f s := by
  refine Eq.trans (hf.ring _ _) (foldl_keeps (fun s r => ?_) _ s)
  exact (hf.releaseHeld _ r).trans (hf.mem s _ _)

theorem sendRebinds (hf : ReportFree f) (s : State) (a : Nat) : f (s.sendRebinds a) = f s := by
  unfold State.sendRebinds
  split
  · rfl
  · refine foldl_keeps (fun s e => ?_) _ s
    split
    · rfl
    · exact hf.sendTo s _ _ _

theorem twinLost (hf : ReportFree f) (s : State) : f s.twinLost = f s :=
  keeps_onlyIf ((hf.sendRebinds _ _).trans ((hf.postEvent _ _ _ _ _).trans ((hf.regs.setBits _ _ _).trans (hf.mir s _ rfl))))

theorem actOn (hf : ReportFree f) (s : State) (e : Merge) : f (s.actOn e) = f s := by
  have stops : f (({ s with flt := { s.flt with stopAsked := true } } : State).releasePartner e.subject).holdOff = f s :=
    (hf.holdOff _).trans ((hf.releasePartner _ _).trans (hf.flt s _))
  unfold State.actOn
  extract_lets x s₁ s₂ s₃
  have dropped : f s₃ = f s := Eq.trans (keeps_onlyIf (hf.masterHoldOff s₂ _)) stops
  exact keeps_ite dropped ((hf.writeEntry _ _).trans ((hf.countEvent _).trans dropped))

theorem noteEcc (hf : ReportFree f) (s : State) (a c : Nat) : f (s.noteEcc a c) = f s := keeps_onlyIf (hf.mir s _ rfl)

theorem enterBeacon (hf : ReportFree f) (s : State) (a c m k p : Nat) : f (s.enterBeacon a c m k p).1 = f s := by
  unfold State.enterBeacon
  split
  · extract_lets bm gained y x s₁ s₂
    have noted : f s₂ = f s := Eq.trans (keeps_onlyIf (hf.noteEcc s₁ _ _)) (hf.ring s _)
    show f (s₂.bump Reg.RNG_BEACON_MERGED 1) = f s
    exact (hf.regs.bump s₂ _ _).trans noted
  · split
    · exact (hf.flood _ _ _).trans ((hf.regs.setBits _ _ _).trans (hf.regs.bump s _ _))
    · exact (hf.noteEcc _ _ _).trans (hf.ring s _)

theorem entryActs (hf : ReportFree f) (x : State × Option Merge) : f (State.entryActs x) = f x.1 := by
  unfold State.entryActs
  split
  · rfl
  · exact keeps_onlyIf (hf.actOn _ _)

theorem enterReport (hf : ReportFree f) (s : State) (a c : Nat) : f (s.enterReport a c).1 = f s := by
  unfold State.enterReport
  extract_lets t
  have flagged : f t = f s := keeps_ite (hf.regs.setBits s _ _) (keeps_onlyIf (hf.regs.setBits s _ _))
  split
  · show f (t.bump Reg.RNG_FILTERED 1) = f s
    exact (hf.regs.bump t _ _).trans flagged
  · exact (hf.enterBeacon _ _ _ _ _ _).trans ((hf.ring t _).trans flagged)

theorem settleEntry (hf : ReportFree f) (x : State × Option Merge) : f (State.settleEntry x) = f x.1 := by
  unfold State.settleEntry
  refine Eq.trans ?_ (hf.entryActs x)
  extract_lets t
  split
  · rfl
  · exact keeps_ite rfl ((hf.twinLost _).trans (keeps_ite rfl ((hf.entryActs _).trans ((hf.enterReport _ _ _).trans (hf.tellsLoss t _ _)))))

theorem report (hf : ReportFree f) (s : State) (a c : Nat) : f (s.report a c) = f s :=
  (hf.settleEntry _).trans ((hf.enterReport _ _ _).trans (hf.tellsLoss s a c))

end ReportFree

/-! ### Faults (R422, R427) -/

/-- The unacknowledged flag is changed by no report. -/
theorem reportFree_unacked : ReportFree (fun s : State => s.flt.unacked) where
  notes _ _ _ _ h := h
  bump _ _ _ _ := RegFree.bump (f := fun s : State => s.flt.unacked) (fun _ _ => rfl) _ _ _
  setBits _ _ _ _ := rfl
  regs _ _ := rfl
  ring _ _ := rfl
  thy _ _ _ _ _ _ := rfl
  mem _ _ _ := rfl
  mir _ _ _ := rfl

theorem State.recordFault_unacked (s : State) (r : FaultRec) : (s.recordFault r).flt.unacked = true :=
  reportFree_unacked.recordFault_unacked (fun _ _ h => h) s r

/-- A report changes nothing that a fault record has not changed. -/
theorem ReportFree.raise_recordFault (hf : ReportFree f) (s : State) (r : FaultRec) : f (s.raise r) = f (s.recordFault r) :=
  keeps_onlyIf ((hf.report _ _ _).trans (hf.flt _ _))

/-- After a fault the module has one that the host has not acknowledged. -/
theorem State.raise_unacked (s : State) (r : FaultRec) : (s.raise r).flt.unacked = true :=
  (reportFree_unacked.raise_recordFault s r).trans (s.recordFault_unacked r)

/-- A fault changes nothing beside ECC records and reports. -/
theorem ReportFree.raise (hf : ReportFree f) (he : EccFree f) (hflt : FaultFree f) (s : State) (r : FaultRec) : f (s.raise r) = f s :=
  (hf.raise_recordFault s r).trans (he.recordFault hflt s r)

/-- The module state does not depend on ECC errors. -/
theorem eccFree_st : EccFree (fun s : State => s.host.st) where
  toEventFree := .of_unread fun _ _ _ _ => rfl
  regs _ _ := rfl
  tiers _ _ := rfl
  posTesting _ _ := rfl

/-- A module that does not run forms no report (R427). -/
theorem State.raise_of_not_running {s : State} (hs : s.host.st ≠ .running) (r : FaultRec) : s.raise r = s.recordFault r := by
  have hst : (s.recordFault r).host.st ≠ .running := by
    rw [eccFree_st.recordFault (fun _ _ => rfl) s r]
    exact hs
  simp [State.raise, hst]

/-! ### Writes to module memory (R216, R217, R358) -/

namespace WriteFree

theorem healed (hf : WriteFree f) (s : State) (a n : Nat) : f (s.healed a n) = f s := hf.tiers s _

theorem intoWindows (hf : WriteFree f) (s : State) (a : Nat) (l : List Byte) : f (s.intoWindows a l) = f s := by
  refine foldl_keeps (fun s x => keeps_ite rfl ?_) _ s
  split
  · rfl
  · exact keeps_onlyIf (hf.mem s _)

theorem forwardBytes (hf : WriteFree f) (s : State) (c k a : Nat) (l : List Byte) : f (s.forwardBytes c k a l) = f s :=
  foldl_keeps (fun s _ => hf.ring s _) _ s

theorem refillForward (hf : WriteFree f) (s : State) (a n : Nat) : f (s.refillForward a n) = f s := by
  unfold State.refillForward
  split
  · exact keeps_onlyIf (hf.forwardBytes s _ _ _ _)
  · rfl

theorem putPlain (hf : WriteFree f) (s : State) (a : Nat) (l : List Byte) : f (s.putPlain a l) = f s := by
  refine keeps_ite rfl (Eq.trans ?_ (hf.mem s (memPut s.mem a l)))
  exact (hf.refillForward _ _ _).trans ((hf.intoWindows _ _ _).trans ((hf.healed _ _ _).trans (keeps_onlyIf (hf.regs.bump64 _ _ _))))

/-- The module state does not depend on writes to memory. -/
theorem st : WriteFree (fun s : State => s.host.st) where
  toEccFree := eccFree_st
  flt' _ _ := rfl
  mem _ _ := rfl
  ring _ _ := rfl

/-- A write in a module that does not run: one that meets an uncorrectable block faults without a report. -/
theorem putMem (hf : WriteFree f) {s : State} (hs : s.host.st ≠ .running) (a : Nat) (l : List Byte) : f (s.putMem a l) = f s := by
  unfold State.putMem
  extract_lets n t
  have ht : f t = f s := hf.corrected s _ _
  have hst : t.host.st ≠ .running := (st.corrected s _ _).trans_ne hs
  split
  · exact (hf.putPlain t _ _).trans ht
  · extract_lets lo hi
    split
    rw [State.raise_of_not_running ((st.putPlain t _ _).trans_ne hst)]
    exact (hf.recordFault hf.flt' _ _).trans ((hf.putPlain t _ _).trans ht)

end WriteFree

end Sys2Proof.Machine
end

section
/-! Spare positions and the module step boundary (R16, R17, R265): what a substitution and the actions of a boundary leave alone, and O38. -/

namespace Sys2Proof.Machine

variable {α : Type} {f : State → α}

/-! ### Substitutions (R16, R17) -/

namespace SpareFree

theorem substitute (hf : SpareFree f) (s : State) (n p : Nat) : f (s.substitute n p) = f s := by
  unfold State.substitute
  split
  · exact (hf.event _ _ _).trans (hf.spares s s.host.posFailed s.host.substWaiting true s.host.reload)
  · exact (keeps_onlyIf (hf.event _ _ _)).trans ((hf.event _ _ _).trans (hf.subst s _))

theorem settleSubst (hf : SpareFree f) (s : State) : f s.settleSubst = f s :=
  (foldl_keeps (fun s (w : Nat × Nat) => hf.substitute s w.1 w.2) _ _).trans (hf.spares s s.host.posFailed [] s.host.noSpare s.host.reload)

end SpareFree

theorem State.substitute_substWaiting (s : State) (n p : Nat) : (s.substitute n p).host.substWaiting = s.host.substWaiting := by
  unfold State.substitute
  split
  · simp
  · exact (keeps_onlyIf (f := fun s : State => s.host.substWaiting) (by simp)).trans (by simp)

/-- After a boundary no array waits for a spare. -/
theorem State.settleSubst_substWaiting (s : State) : s.settleSubst.host.substWaiting = [] :=
  foldl_keeps (f := fun s : State => s.host.substWaiting) (fun s (w : Nat × Nat) => s.substitute_substWaiting w.1 w.2) _ _

/-! ### The step boundary (R265) -/

/-- `f` does not read what the end of a pending HOLD changes: the host interface beside the arrays that wait for a spare, and the count of commands (R393). -/
structure HoldFree {α : Type} (f : State → α) : Prop extends EventFree f where
  host : ∀ (s : State) x, x.substWaiting = s.host.substWaiting → f { s with host := x } = f s
  cmds : ∀ s : State, f (s.bump Reg.HST_CMDS 1) = f s

namespace HoldFree

theorem finalReply (hf : HoldFree f) (s : State) (st ft d : Nat) (l : List Byte) : f (s.finalReply st ft d l) = f s := by
  unfold State.finalReply
  split
  · rfl
  · exact (hf.cmds _).trans (Eq.trans (hf.host _ _ (by rfl)) (hf.putReply s _ _ _ _ _ _ _))

theorem reachHold (hf : HoldFree f) (s : State) : f s.reachHold = f s := by
  unfold State.reachHold
  split
  · exact keeps_onlyIf (Eq.trans (keeps_onlyIf (hf.finalReply _ _ _ _ _)) (hf.host s _ rfl))
  · rfl

end HoldFree

/-- `f` does not read what a step boundary does beside its own counters: substitutions, the mirror engine's generations, and the end of a pending HOLD. -/
structure BoundaryFree {α : Type} (f : State → α) : Prop extends SpareFree f, HoldFree f where
  mir : ∀ (s : State) x, f { s with mir := x } = f s

namespace BoundaryFree

theorem of_unread (h : ∀ s d m x r g o, f { s with dev := d, hostMem := m, flt := x, regs := r, mir := g, host := o } = f s) : BoundaryFree f where
  toEventFree := .of_unread fun s m x r => h s s.dev m x r s.mir s.host
  subst s _ := h s _ s.hostMem s.flt s.regs s.mir s.host
  spares s _ _ _ _ := h s s.dev s.hostMem s.flt s.regs s.mir _
  host s o _ := h s s.dev s.hostMem s.flt s.regs s.mir o
  cmds s := RegFree.bump (fun s r => h s s.dev s.hostMem s.flt r s.mir s.host) s _ _
  mir s g := h s s.dev s.hostMem s.flt s.regs g s.host

/-- A register that counts neither events nor commands. -/
theorem of_reg {a : Nat} (ha : a ∉ Reg.HST_CMDS :: noteRegs) : BoundaryFree (fun s => s.reg a) where
  toEventFree := .of_reg fun h => ha (.tail _ h)
  subst _ _ := rfl
  spares _ _ _ _ _ := rfl
  host _ _ _ := rfl
  cmds s := s.reg_bump_ne _ _ _ fun h => ha (h ▸ .head _)
  mir _ _ := rfl

theorem captureWeights (hf : BoundaryFree f) (s : State) (k : Nat) : f (s.captureWeights k) = f s := keeps_ite rfl (hf.mir s _)

theorem pruneGens (hf : BoundaryFree f) (s : State) : f s.pruneGens = f s := hf.mir s _

end BoundaryFree

/-- The state in its next step, before the boundary is counted. -/
def State.nextStep (s : State) : State :=
  { s with
    stp := { s.stp with
      step := s.stp.step + 1, base := s.stp.nextBase.getD s.stp.base, nextBase := none, verdict := 0, verdictSat := false
      since := s.period
      past := (s.stp.past ++ [(s.stp.step, s.stp.nextBase.getD s.stp.base)]).filter (fun e => s.anyIn e.1) }
    mask := { s.mask with weights := s.mask.weights.map (fun (w : Nat × Weight) => (w.1, w.2.publish)) }
    arrays := s.arrays.map ArrayState.newStep
    ring := { s.ring with normIn := none, normSat := false, normSent := false, g2 := none, g2Sat := false } }

/-- The boundary counted, and the applied update where one was (R191, R265). -/
def State.countStep (s : State) (applied : Bool) : State :=
  let s := s.bump Reg.STP_BOUNDARIES 1
  if applied then s.setRw Reg.UPD_TCOUNT (s.reg Reg.UPD_TCOUNT + 1) else s

theorem State.stepBoundary_eq (s : State) :
    s.stepBoundary = (((s.nextStep.countStep (s.stp.verdict == 1)).settleSubst.captureWeights (s.nextStep.countStep (s.stp.verdict == 1)).stp.step).pruneGens).reachHold :=
  rfl

theorem BoundaryFree.stepBoundary (hf : BoundaryFree f) (s : State) : f s.stepBoundary = f (s.nextStep.countStep (s.stp.verdict == 1)) :=
  (hf.reachHold _).trans ((hf.pruneGens _).trans ((hf.captureWeights _ _).trans (hf.settleSubst _)))

theorem State.countStep_stepBoundaries {s : State} (hs : s.regsSorted) (b : Bool) :
    (s.countStep b).reg Reg.STP_BOUNDARIES = s.reg Reg.STP_BOUNDARIES + 1 := by
  have counted := s.reg_bump_same Reg.STP_BOUNDARIES 1 hs (by decide)
  cases b
  · exact counted
  · exact (State.reg_setRw_ne _ _ _ _ (by decide)).trans counted

theorem State.countStep_tcount {s : State} (hs : s.regsSorted) (b : Bool) :
    (s.countStep b).reg Reg.UPD_TCOUNT = if b then s.reg Reg.UPD_TCOUNT + 1 else s.reg Reg.UPD_TCOUNT := by
  have kept : (s.bump Reg.STP_BOUNDARIES 1).reg Reg.UPD_TCOUNT = s.reg Reg.UPD_TCOUNT := s.reg_bump_ne _ _ _ (by decide)
  cases b
  · exact kept
  · exact (State.reg_setRw_same _ _ _ (State.bump_regsSorted hs _ _)).trans (congrArg (· + 1) kept)

/-- Counting a boundary changes registers alone. -/
theorem RegFree.countStep (hf : RegFree f) (s : State) (b : Bool) : f (s.countStep b) = f s :=
  (keeps_onlyIf (hf.setRw _ _ _)).trans (hf.bump s _ _)

/-- What the boundary leaves of the step, the arrays, the weights, the ring, memory and time. -/
def State.boundaryView (s : State) : Steps × List ArrayState × MaskEngine × Ring × Cells × Thyme × Tiers × List WorkCounter :=
  (s.stp, s.arrays, s.mask, s.ring, s.mem, s.thy, s.tiers, s.wct)

theorem State.stepBoundary_view (s : State) : s.stepBoundary.boundaryView = s.nextStep.boundaryView :=
  (BoundaryFree.of_unread (f := State.boundaryView) (fun _ _ _ _ _ _ _ => rfl)).stepBoundary s |>.trans
    (RegFree.countStep (f := State.boundaryView) (fun _ _ => rfl) _ _)

/-- The end of a HOLD lets every array wait that waited. -/
theorem holdFree_substWaiting : HoldFree (fun s : State => s.host.substWaiting) where
  toEventFree := .of_unread fun _ _ _ _ => rfl
  host _ _ h := h
  cmds s := by simp

theorem State.stepBoundary_substWaiting (s : State) : s.stepBoundary.host.substWaiting = [] := by
  rw [State.stepBoundary_eq]
  refine (holdFree_substWaiting.reachHold _).trans (Eq.trans ?_ (State.settleSubst_substWaiting (s.nextStep.countStep (s.stp.verdict == 1))))
  exact keeps_ite (f := fun s : State => s.host.substWaiting) rfl rfl

/-- A weight is found by its index before and after every weight has been published. -/
theorem State.weight?_nextStep (s : State) (wt : Nat) : s.nextStep.weight? wt = (s.weight? wt).map Weight.publish := by
  simp [State.weight?, State.nextStep, List.find?_map, Function.comp_def]

theorem Weight.publish_of_not_committed {w : Weight} (h : w.st ≠ .committed) : w.publish = w := by simp [Weight.publish, h]

theorem Weight.publish_of_committed {w : Weight} (h : w.st = .committed) :
    w.publish.st = .idle ∧ w.publish.curB = !w.curB ∧ w.publish.gen = (w.gen + 1) % 2 ^ 32 ∧ w.publish.decision = none ∧
      w.publish.maskA = w.maskA ∧ w.publish.maskB = w.maskB ∧ w.publish.master = w.master := by simp [Weight.publish, h]

/-- Settles O38: the actions before the counters are `nextStep`; the substitutions, the captured records and a HOLD that is reached change nothing that the statement observes. -/
theorem stepBoundary : Obligations.StepBoundary := by
  unfold Obligations.StepBoundary
  intro s
  refine ⟨fun h => ?_, fun hr h => ⟨s.stepBoundary, ?_, ?_⟩⟩
  · show execModuleStepBoundary s = _
    simp [execModuleStepBoundary, h]
  · show execModuleStepBoundary s = _
    simp [execModuleStepBoundary, h]
  · have hv := s.stepBoundary_view
    simp only [State.boundaryView, Prod.mk.injEq] at hv
    obtain ⟨hstp, harr, hmask, hring, hmem, hthy, htiers, hwct⟩ := hv
    have hw (wt : Nat) : s.stepBoundary.weight? wt = (s.weight? wt).map Weight.publish := by
      rw [← State.weight?_nextStep, State.weight?, hmask, State.weight?]
    refine ⟨by rw [hstp]; rfl, harr, fun wt w hf => ⟨w.publish, by rw [hw, hf]; rfl, Weight.publish_of_not_committed, Weight.publish_of_committed⟩,
      ?_, ?_, by rw [hring]; rfl, by rw [hring]; rfl, hmem, hthy, htiers, hwct, s.stepBoundary_substWaiting⟩
    · exact ((BoundaryFree.of_reg (by decide)).stepBoundary s).trans (State.countStep_stepBoundaries (s := s.nextStep) hr _)
    · refine ((BoundaryFree.of_reg (by decide)).stepBoundary s).trans ((State.countStep_tcount (s := s.nextStep) hr _).trans ?_)
      simp [State.nextStep, State.reg, State.regDefault]

end Sys2Proof.Machine
end

section
/-! Self-tests, boot and the oscillator (R16, R17, R238, R448 to R452): what a failed position changes, what the firmware's boot leaves, and O43. -/

namespace Sys2Proof.Machine

variable {α β : Type} {f : State → α}

/-! ### Faults, seen from the positions -/

/-- What a fault leaves of the device, the host interface and the mirror engine: all but the positions under self-test, and whether the self-test of R357 runs. -/
def State.faultView (s : State) : Device × HostIf × Bool := (s.dev, { s.host with posTesting := [] }, s.mir.testing)

theorem State.raise_view (s : State) (r : FaultRec) : (s.raise r).faultView = s.faultView := by
  have unread : EventFree State.faultView := .of_unread fun _ _ _ _ => rfl
  have reports : ReportFree State.faultView :=
    { unread with regs := fun _ _ => rfl, ring := fun _ _ => rfl, thy := fun _ _ _ _ _ _ => rfl, mem := fun _ _ _ => rfl
                  mir := fun s x h => congrArg (fun b => (s.dev, { s.host with posTesting := [] }, b)) h }
  exact reports.raise { unread with regs := fun _ _ => rfl, tiers := fun _ _ => rfl, posTesting := fun _ _ => rfl } (fun _ _ => rfl) s r

@[simp] theorem State.raise_dev (s : State) (r : FaultRec) : (s.raise r).dev = s.dev := congrArg Prod.fst (s.raise_view r)

@[simp] theorem State.raise_testing (s : State) (r : FaultRec) : (s.raise r).mir.testing = s.mir.testing := congrArg (·.2.2) (s.raise_view r)

@[simp] theorem State.raise_st (s : State) (r : FaultRec) : (s.raise r).host.st = s.host.st := congrArg (·.2.1.st) (s.raise_view r)

@[simp] theorem State.raise_posFailed (s : State) (r : FaultRec) : (s.raise r).host.posFailed = s.host.posFailed :=
  congrArg (·.2.1.posFailed) (s.raise_view r)

@[simp] theorem State.raise_substWaiting (s : State) (r : FaultRec) : (s.raise r).host.substWaiting = s.host.substWaiting :=
  congrArg (·.2.1.substWaiting) (s.raise_view r)

@[simp] theorem State.raise_noSpare (s : State) (r : FaultRec) : (s.raise r).host.noSpare = s.host.noSpare :=
  congrArg (·.2.1.noSpare) (s.raise_view r)

@[simp] theorem State.raise_reload (s : State) (r : FaultRec) : (s.raise r).host.reload = s.host.reload :=
  congrArg (·.2.1.reload) (s.raise_view r)

/-! ### A position is marked failed -/

section
variable (s : State) (p : Nat)

@[simp] theorem State.markFailed_dev : (s.markFailed p).dev = s.dev := rfl
@[simp] theorem State.markFailed_flt : (s.markFailed p).flt = s.flt := rfl
@[simp] theorem State.markFailed_st : (s.markFailed p).host.st = s.host.st := rfl
@[simp] theorem State.markFailed_substWaiting : (s.markFailed p).host.substWaiting = s.host.substWaiting := rfl
@[simp] theorem State.markFailed_noSpare : (s.markFailed p).host.noSpare = s.host.noSpare := rfl
@[simp] theorem State.markFailed_reload : (s.markFailed p).host.reload = s.host.reload := rfl

end

/-! ### The spare map after a failure (R13 to R16) -/

@[simp] theorem State.mapEntry_raise (s : State) (r : FaultRec) (q : Nat) : (s.raise r).mapEntry q = s.mapEntry q := by simp [State.mapEntry]

theorem State.mem_posFailed_markFailed (s : State) (p : Nat) : p ∈ (s.markFailed p).host.posFailed := by
  by_cases h : p ∈ s.host.posFailed <;> simp [State.markFailed, h]

/-- The map of a module in which one more position has failed. -/
theorem spareMap_append (d : Device) (l : List Nat) (p : Nat) : spareMap d (l ++ [p]) = (spareMap d l).set p 0xFD := by simp [spareMap]

theorem State.mapEntry_markFailed_ne (s : State) {p q : Nat} (h : q ≠ p) : (s.markFailed p).mapEntry q = s.mapEntry q := by
  by_cases hp : p ∈ s.host.posFailed
  · simp [State.markFailed, State.mapEntry, hp]
  · simp [State.markFailed, State.mapEntry, hp, spareMap_append, List.getD_eq_getElem?_getD, h.symm]

/-- A position that fails becomes no spare. -/
theorem State.mapEntry_markFailed_self (s : State) {p : Nat} (h : s.mapEntry p ≠ 0xFE) : (s.markFailed p).mapEntry p ≠ 0xFE := by
  by_cases hp : p ∈ s.host.posFailed
  · simpa [State.markFailed, State.mapEntry, hp] using h
  · simp only [State.markFailed, State.mapEntry, List.contains_iff_mem, hp, if_false, spareMap_append, List.getD_eq_getElem?_getD, List.getElem?_set_self']
    cases (spareMap s.dev s.host.posFailed)[p]? <;> simp

/-- The failure of a position that is no spare leaves the spares. -/
theorem State.sparePositions_markFailed (s : State) {p : Nat} (h : s.mapEntry p ≠ 0xFE) : (s.markFailed p).sparePositions = s.sparePositions := by
  refine List.filter_congr fun q _ => ?_
  by_cases hq : q = p
  · subst hq
    simp [h, s.mapEntry_markFailed_self h]
  · rw [s.mapEntry_markFailed_ne hq]

/-- Of two spares one is left when a position fails. -/
theorem State.sparePositions_markFailed_ne_nil (s : State) (p : Nat) (h : 2 ≤ s.sparePositions.length) : (s.markFailed p).sparePositions ≠ [] := by
  have hn : s.sparePositions.Nodup := List.nodup_range.filter _
  have : 0 < (s.sparePositions.erase p).length := by
    have := List.length_erase (a := p) (l := s.sparePositions)
    split at this <;> omega
  obtain ⟨q, hq⟩ := List.exists_mem_of_length_pos this
  obtain ⟨hqp, hqs⟩ := hn.mem_erase_iff.1 hq
  refine List.ne_nil_of_mem (a := q) ?_
  simpa [State.sparePositions, s.mapEntry_markFailed_ne hqp] using hqs

/-! ### Substitution of one position (R16, R17) -/

@[simp] theorem State.event_unacked (s : State) (c d : Nat) : (s.event c d).flt.unacked = s.flt.unacked := reportFree_unacked.event s c d

/-- The lowest spare takes the array's number. -/
theorem State.substitute_spare {s : State} {sp : Nat} {rest : List Nat} (h : s.sparePositions = sp :: rest) (n p : Nat) :
    (s.substitute n p).host = s.host ∧ (s.substitute n p).dev.subst = s.dev.subst ++ [(p, n, sp)] ∧
      (s.substitute n p).flt.unacked = s.flt.unacked := by
  unfold State.substitute
  rw [h]
  cases rest <;> simp

/-- Without a spare none remains. -/
theorem State.substitute_none {s : State} (h : s.sparePositions = []) (n p : Nat) :
    (s.substitute n p).host = { s.host with noSpare := true } ∧ (s.substitute n p).dev = s.dev ∧
      (s.substitute n p).flt.unacked = s.flt.unacked := by
  unfold State.substitute
  rw [h]
  simp

/-- The state in which a lone array is given its spare: none waits any more, and a held module is to be reloaded (R16). -/
def State.served (s : State) : State := { s with host := { s.host with substWaiting := [], reload := s.host.reload || s.host.st == .held } }

theorem State.served_sparePositions (s : State) : s.served.sparePositions = s.sparePositions := rfl

/-- Outside a step, with no other array waiting, the array is given its spare at once, and a held module is to be reloaded. -/
theorem State.awaitSpare_outside {s : State} (hi : s.insideStep = false) (hw : s.host.substWaiting = []) (n p : Nat) :
    s.awaitSpare n p = s.served.substitute n p := by
  have outside : ({ s with host := { s.host with substWaiting := [(n, p)] } } : State).insideStep = false := hi
  simp [State.awaitSpare, State.served, hw, outside, State.settleSubst, sortBy, sortFrom]

/-- Inside a step the array waits, and the module is to be reloaded. -/
theorem State.awaitSpare_inside {s : State} (hi : s.insideStep = true) (n p : Nat) :
    (s.awaitSpare n p).dev = s.dev ∧ (s.awaitSpare n p).flt = s.flt ∧ (s.awaitSpare n p).host.posFailed = s.host.posFailed ∧
      (s.awaitSpare n p).host.reload = true ∧ (s.awaitSpare n p).host.substWaiting = s.host.substWaiting ++ [(n, p)] := by
  have inside : ({ s with host := { s.host with substWaiting := s.host.substWaiting ++ [(n, p)] } } : State).insideStep = true := hi
  simp [State.awaitSpare, inside]

/-! ### A position that fails (R16, R435) -/

/-- The fault record of a failed position of an active array. -/
def positionFault (s : State) (p : Nat) : FaultRec := { FaultRec.of 0x52 1 with arr := s.mapEntry p, aux := p }

/-- The state in which the failure of an active array's position is recorded and marked. -/
def State.failedAt (s : State) (p : Nat) : State := (s.raise (positionFault s p)).markFailed p

theorem State.positionFails_active {s : State} {p : Nat} (h : s.mapEntry p < 64) : s.positionFails p = (s.failedAt p).awaitSpare (s.mapEntry p) p := if_pos h

theorem State.positionFails_spare {s : State} {p : Nat} (h : s.mapEntry p = 0xFE) :
    s.positionFails p = if (s.markFailed p).sparePositions.isEmpty then (s.markFailed p).event 0xA2 0 else s.markFailed p := by
  simp [State.positionFails, h]

theorem State.failedAt_unacked (s : State) (p : Nat) : (s.failedAt p).flt.unacked = true := by simp [State.failedAt, State.raise_unacked]

theorem State.mem_posFailed_failedAt (s : State) (p : Nat) : p ∈ (s.failedAt p).host.posFailed := State.mem_posFailed_markFailed _ p

@[simp] theorem State.failedAt_dev (s : State) (p : Nat) : (s.failedAt p).dev = s.dev := by simp [State.failedAt]

@[simp] theorem State.failedAt_substWaiting (s : State) (p : Nat) : (s.failedAt p).host.substWaiting = s.host.substWaiting := by
  simp [State.failedAt]

@[simp] theorem State.failedAt_noSpare (s : State) (p : Nat) : (s.failedAt p).host.noSpare = s.host.noSpare := by simp [State.failedAt]

@[simp] theorem State.failedAt_reload (s : State) (p : Nat) : (s.failedAt p).host.reload = s.host.reload := by simp [State.failedAt]

@[simp] theorem State.failedAt_st (s : State) (p : Nat) : (s.failedAt p).host.st = s.host.st := by simp [State.failedAt]

@[simp] theorem State.failedAt_insideStep (s : State) (p : Nat) : (s.failedAt p).insideStep = s.insideStep := by simp [State.insideStep]

theorem State.failedAt_sparePositions {s : State} {p : Nat} (h : s.mapEntry p < 64) : (s.failedAt p).sparePositions = s.sparePositions := by
  refine (State.sparePositions_markFailed _ ?_).trans ?_
  · rw [State.mapEntry_raise]
    omega
  · simp [State.sparePositions]

theorem SpareFree.markFailed (hf : SpareFree f) (s : State) (p : Nat) : f (s.markFailed p) = f s :=
  hf.spares s _ s.host.substWaiting s.host.noSpare s.host.reload

theorem SpareFree.awaitSpare (hf : SpareFree f) (s : State) (n p : Nat) : f (s.awaitSpare n p) = f s := by
  unfold State.awaitSpare
  extract_lets _ t
  have waits : f t = f s := hf.spares s s.host.posFailed _ s.host.noSpare s.host.reload
  refine Eq.trans (keeps_ite ?_ ?_) waits
  · exact hf.spares t t.host.posFailed t.host.substWaiting _ true
  · exact (hf.settleSubst _).trans (hf.spares t t.host.posFailed t.host.substWaiting t.host.noSpare _)

/-- A position that fails changes the spares, beside what its fault changes. -/
theorem SpareFree.positionFails (hf : SpareFree f) (s : State) (p : Nat) (hr : f (s.raise (positionFault s p)) = f s) : f (s.positionFails p) = f s :=
  keeps_ite ((hf.awaitSpare _ _ _).trans ((hf.markFailed _ _).trans hr))
    (keeps_onlyIf ((keeps_onlyIf (hf.event _ _ _)).trans (hf.markFailed s p)))

theorem State.positionFails_testing (s : State) (p : Nat) : (s.positionFails p).mir.testing = s.mir.testing := by
  have unread : SpareFree (fun s : State => s.mir.testing) := { toEventFree := .of_unread fun _ _ _ _ => rfl, subst := fun _ _ => rfl, spares := fun _ _ _ _ _ => rfl }
  exact unread.positionFails s p (s.raise_testing _)

/-! ### SELFTEST_COMPLETE -/

/-- The state in which a position is no more under self-test. -/
def State.tested (s : State) (p : Nat) : State := { s with host := { s.host with posTesting := s.host.posTesting.erase p } }

theorem exec_selftest_not_testing {s : State} {pos : Nat} (h : pos ∉ s.host.posTesting) (b : Bool) : exec (.selftestComplete pos b) s = .next s := by
  simp [exec, execSelftestComplete, h]

theorem exec_selftest_passed {s : State} {pos : Nat} (h : pos ∈ s.host.posTesting) (ht : s.mir.testing = false) :
    exec (.selftestComplete pos true) s = .next (s.tested pos) := by
  simp [exec, execSelftestComplete, h, ht, State.tested]

theorem exec_selftest_failed {s : State} {pos : Nat} (h : pos ∈ s.host.posTesting) :
    exec (.selftestComplete pos false) s =
      .next (if s.mir.testing then ((s.tested pos).positionFails pos).endDivergenceTest false else (s.tested pos).positionFails pos) := by
  have ht := State.positionFails_testing (s.tested pos) pos
  simp only [State.tested] at ht
  simp [exec, execSelftestComplete, h, ht, State.tested]

/-- A change of the Bays leaves the mirror engine. -/
theorem State.setBays_mir (s : State) (x y m : Bool) : (s.setBays x y m).mir = s.mir := by
  have train (new : Bool) (s : State) (p : Nat) :
      (if new then (s.modPort p fun q => { Port.reset with wire := q.wire }).trainPort p else s.modPort p fun q => { Port.reset with wire := q.wire }).mir = s.mir := by
    cases new <;> rfl
  have change (old new : Bool) (ps : List Nat) (s : State) := keeps_ite (c := (old == new) = true) (f := State.mir) (s := s) rfl (foldl_keeps (train new) ps s)
  unfold State.setBays
  exact (RegFree.bump (f := State.mir) (fun _ _ => rfl) _ _ _).trans ((change _ _ _ _).trans ((change _ _ _ _).trans (change _ _ _ _)))

theorem State.endDivergenceTest_failed (s : State) : (s.endDivergenceTest false).mir = { s.mir with testing := false, fenced := true } :=
  State.setBays_mir _ _ _ _

/-- A failed self-test of a position that is a spare: the fault block changes only when it was the last (R16, R435). -/
theorem State.positionFails_spare_keeps {s : State} {p : Nat} (h : s.mapEntry p = 0xFE) :
    p ∈ (s.positionFails p).host.posFailed ∧ (s.positionFails p).dev = s.dev ∧ (s.positionFails p).flt.first = s.flt.first ∧
      (s.positionFails p).flt.unacked = s.flt.unacked ∧ (2 ≤ s.sparePositions.length → (s.positionFails p).flt = s.flt) := by
  have first := EventFree.event (f := fun s : State => s.flt.first) ⟨fun _ _ _ h _ => h, fun _ _ _ _ => by simp, fun _ _ _ _ => rfl⟩ (s.markFailed p) 0xA2 0
  have failed := s.mem_posFailed_markFailed p
  rw [State.positionFails_spare h]
  split
  · next hn => exact ⟨by simpa using failed, State.event_dev _ _ _, first, State.event_unacked _ _ _,
      fun h2 => absurd (List.isEmpty_iff.1 hn) (s.sparePositions_markFailed_ne_nil p h2)⟩
  · exact ⟨failed, rfl, rfl, rfl, fun _ => rfl⟩

/-- A failed self-test outside a step, no array waiting: the array's number takes the lowest spare. -/
theorem State.positionFails_substituted {s : State} {p sp : Nat} {rest : List Nat} (h : s.mapEntry p < 64) (hi : s.insideStep = false)
    (hw : s.host.substWaiting = []) (hs : s.sparePositions = sp :: rest) :
    p ∈ (s.positionFails p).host.posFailed ∧ (s.positionFails p).flt.unacked = true ∧
      (s.positionFails p).dev.subst = s.dev.subst ++ [(p, s.mapEntry p, sp)] ∧ (s.positionFails p).host.noSpare = s.host.noSpare ∧
      (s.positionFails p).host.reload = (s.host.reload || s.host.st == .held) := by
  rw [State.positionFails_active h, State.awaitSpare_outside (by simpa using hi) (by simpa using hw)]
  have spares := ((State.served_sparePositions _).trans (State.failedAt_sparePositions h)).trans hs
  obtain ⟨hhost, hdev, hflt⟩ := State.substitute_spare (s := (s.failedAt p).served) spares (s.mapEntry p) p
  rw [hhost, hdev, hflt]
  exact ⟨s.mem_posFailed_failedAt p, s.failedAt_unacked p, by simp [State.served], by simp [State.served], by simp [State.served]⟩

/-- A failed self-test outside a step without a spare. -/
theorem State.positionFails_none {s : State} {p : Nat} (h : s.mapEntry p < 64) (hi : s.insideStep = false)
    (hw : s.host.substWaiting = []) (hs : s.sparePositions = []) :
    p ∈ (s.positionFails p).host.posFailed ∧ (s.positionFails p).flt.unacked = true ∧ (s.positionFails p).dev.subst = s.dev.subst ∧
      (s.positionFails p).host.noSpare = true := by
  rw [State.positionFails_active h, State.awaitSpare_outside (by simpa using hi) (by simpa using hw)]
  have spares := ((State.served_sparePositions _).trans (State.failedAt_sparePositions h)).trans hs
  obtain ⟨hhost, hdev, hflt⟩ := State.substitute_none (s := (s.failedAt p).served) spares (s.mapEntry p) p
  rw [hhost, hdev, hflt]
  exact ⟨s.mem_posFailed_failedAt p, s.failedAt_unacked p, by simp [State.served], rfl⟩

/-- A failed self-test inside a step: the array waits for the boundary. -/
theorem State.positionFails_waits {s : State} {p : Nat} (h : s.mapEntry p < 64) (hi : s.insideStep = true) :
    p ∈ (s.positionFails p).host.posFailed ∧ (s.positionFails p).flt.unacked = true ∧ (s.positionFails p).dev.subst = s.dev.subst ∧
      (s.positionFails p).host.reload = true ∧ (s.positionFails p).host.substWaiting = s.host.substWaiting ++ [(s.mapEntry p, p)] := by
  obtain ⟨hdev, hflt, hfailed, hreload, hwait⟩ := State.awaitSpare_inside (s := s.failedAt p) (by simpa using hi) (s.mapEntry p) p
  rw [State.positionFails_active h, hdev, hflt, hfailed, hreload, hwait]
  exact ⟨s.mem_posFailed_failedAt p, s.failedAt_unacked p, by simp, rfl, by simp⟩

end Sys2Proof.Machine
end

section
/-! Boot and the oscillator (R238, R448 to R452), and O43. -/

namespace Sys2Proof.Machine

variable {α β : Type} {f : State → α}

/-! ### The firmware's boot -/

/-- A fold keeps what each of its steps keeps under a condition that it keeps too. -/
theorem foldl_keeps_of {P : State → Prop} {g : State → β → State} (hP : ∀ s x, P s → P (g s x)) (hg : ∀ s x, P s → f (g s x) = f s)
    (l : List β) {s : State} (hs : P s) : f (l.foldl g s) = f s ∧ P (l.foldl g s) := by
  induction l generalizing s with
  | nil => exact ⟨rfl, hs⟩
  | cons x l ih =>
    obtain ⟨h1, h2⟩ := ih (hP s x hs)
    exact ⟨h1.trans (hg s x hs), h2⟩

theorem State.recordFault_position (hf : EventFree f) (hflt : FaultFree f) (s : State) (p : Nat) : f (s.recordFault (positionFault s p)) = f s :=
  hf.recordFault hflt s (positionFault s p)

/-- In a module that does not run, a position that fails changes the spares and the fault block alone. -/
theorem SpareFree.positionFails_of_not_running (hf : SpareFree f) (hflt : FaultFree f) {s : State} (hs : s.host.st ≠ .running) (p : Nat) :
    f (s.positionFails p) = f s :=
  hf.positionFails s p ((congrArg f (State.raise_of_not_running hs _)).trans (State.recordFault_position hf.toEventFree hflt s p))

theorem State.positionFails_st (s : State) (p : Nat) : (s.positionFails p).host.st = s.host.st := by
  have unread : SpareFree (fun s : State => s.host.st) := { toEventFree := .of_unread fun _ _ _ _ => rfl, subst := fun _ _ => rfl, spares := fun _ _ _ _ _ => rfl }
  exact unread.positionFails s p (s.raise_st _)

/-- The positions that fail their self-test at boot. -/
theorem SpareFree.positionsFail (hf : SpareFree f) (hflt : FaultFree f) (l : List Nat) {s : State} (hs : s.host.st ≠ .running) :
    f (l.foldl (fun (s : State) p => s.positionFails p) s) = f s ∧ (l.foldl (fun (s : State) p => s.positionFails p) s).host.st ≠ .running :=
  foldl_keeps_of (P := fun s => s.host.st ≠ .running) (fun s p h => (s.positionFails_st p).trans_ne h)
    (fun _ p h => hf.positionFails_of_not_running hflt h p) l hs

/-- The state after boot stages 0x03 to 0x0B: memory empty, overlays, channels and calibration in force (R221, R448, R466). -/
def State.bootCalibrated (s : State) (slotB : Bool) : State :=
  let s := { s with mem := [], host := { s.host with runB := slotB, bootDone := true, stage := 0x0F, st := .unopened } }
  ((s.setOverlays s.dev.savedOverlays).bootChannels).applyCal (fun _ => true)

/-- fw_fallback is set when the slot that runs is not the active one (R450). -/
def State.bootFlagged (s : State) (slotB : Bool) : State :=
  if slotB == (s.bootCalibrated slotB).dev.activeB then s.bootCalibrated slotB else (s.bootCalibrated slotB).setBits Reg.SEC_STATUS 0x10

theorem setOverlays_keeps (hr : RegFree f) (s : State) (l : List (Nat × Int)) : f (s.setOverlays l) = f s := by
  unfold State.setOverlays
  exact (keeps_ite rfl ((hr.setBits _ _ _).trans (hr.bump _ _ _))).trans (hr s _)

theorem bootChannels_keeps (hr : RegFree f) (ht : ∀ (s : State) x, f { s with tiers := x } = f s) (s : State) : f s.bootChannels = f s :=
  (keeps_onlyIf (hr.setBits _ _ _)).trans (ht s _)

/-- Observations of registers, tiers and the calibration in force excepted, the boot sets what its first assignment sets. -/
theorem bootCalibrated_keeps (hr : RegFree f) (ht : ∀ (s : State) x, f { s with tiers := x } = f s)
    (hc : ∀ (s : State) x, f { s with host := { s.host with applied := x } } = f s) (s : State) (b : Bool) :
    f (s.bootCalibrated b) = f { s with mem := [], host := { s.host with runB := b, bootDone := true, stage := 0x0F, st := .unopened } } :=
  (hc _ _).trans ((bootChannels_keeps hr ht _).trans (setOverlays_keeps hr _ _))

theorem bootFlagged_keeps (hr : RegFree f) (s : State) (b : Bool) : f (s.bootFlagged b) = f (s.bootCalibrated b) :=
  keeps_ite rfl (hr.setBits _ _ _)

theorem State.bootFlagged_st (s : State) (b : Bool) : (s.bootFlagged b).host.st ≠ .running := by
  have h : (s.bootFlagged b).host.st = .unopened :=
    (bootFlagged_keeps (f := fun s : State => s.host.st) (fun _ _ => rfl) s b).trans
      (bootCalibrated_keeps (f := fun s : State => s.host.st) (fun _ _ => rfl) (fun _ _ => rfl) (fun _ _ => rfl) s b)
  simp [h]

theorem SpareFree.bootFirmware (hf : SpareFree f) (hflt : FaultFree f) (s : State) (b : Bool) (fs : List Nat) :
    f (s.bootFirmware b fs) = f (s.bootFlagged b) := by
  unfold State.bootFirmware
  extract_lets _ t u v w order x
  obtain ⟨hx, hst⟩ := hf.positionsFail hflt (order.filter fun p => w.mapEntry p == 0xFE) (s.bootFlagged_st b)
  exact (hf.positionsFail hflt _ hst).1.trans hx

/-- What the boot leaves of memory and the host interface, and the slots of the device. -/
def State.bootView (s : State) : Cells × (Bool × Bool × Bool × ModState) × Nat × Pcie × List Nat × Bool :=
  (s.mem, (s.host.bootDone, s.host.recovery, s.host.runB, s.host.st), s.host.stage, s.host.pcie, s.host.visible, s.dev.activeB)

theorem State.bootFirmware_view (s : State) (b : Bool) (fs : List Nat) :
    (s.bootFirmware b fs).bootView = ([], (true, s.host.recovery, b, .unopened), 0x0F, s.host.pcie, s.host.visible, s.dev.activeB) := by
  have unread : SpareFree State.bootView := { toEventFree := .of_unread fun _ _ _ _ => rfl, subst := fun _ _ => rfl, spares := fun _ _ _ _ _ => rfl }
  exact (unread.bootFirmware (fun _ _ => rfl) s b fs).trans <| (bootFlagged_keeps (fun _ _ => rfl) s b).trans
    (bootCalibrated_keeps (fun _ _ => rfl) (fun _ _ => rfl) (fun _ _ => rfl) s b)

theorem State.bootCalibrated_activeB (s : State) (b : Bool) : (s.bootCalibrated b).dev.activeB = s.dev.activeB :=
  bootCalibrated_keeps (f := fun s : State => s.dev.activeB) (fun _ _ => rfl) (fun _ _ => rfl) (fun _ _ => rfl) s b

theorem State.bootCalibrated_regsSorted {s : State} (hs : s.regsSorted) (b : Bool) : (s.bootCalibrated b).regsSorted := by
  have overlays (t : State) (ht : t.regsSorted) (l) : (t.setOverlays l).regsSorted := by
    unfold State.setOverlays
    extract_lets changed n _ u
    split
    · exact ht
    · exact State.setBits_regsSorted (State.bump_regsSorted (s := u) ht _ _) _ _
  have channels (t : State) (ht : t.regsSorted) : t.bootChannels.regsSorted := by
    unfold State.bootChannels
    extract_lets _ u
    split
    · exact State.setBits_regsSorted (s := u) ht _ _
    · exact ht
  exact channels _ (overlays _ (by exact hs) _)

/-- A boot from the slot that is not the active one sets fw_fallback (R450). -/
theorem State.bootFirmware_fallback {s : State} (hs : s.regsSorted) (fs : List Nat) :
    ((s.bootFirmware (!s.dev.activeB) fs).reg Reg.SEC_STATUS).getLsbD 4 = true := by
  have unread : SpareFree (fun s : State => s.reg Reg.SEC_STATUS) :=
    { toEventFree := .of_reg (by decide), subst := fun _ _ => rfl, spares := fun _ _ _ _ _ => rfl }
  have other : ((!s.dev.activeB) == (s.bootCalibrated (!s.dev.activeB)).dev.activeB) = false := by
    rw [State.bootCalibrated_activeB]
    cases s.dev.activeB <;> rfl
  have flagged : (s.bootFirmware (!s.dev.activeB) fs).reg Reg.SEC_STATUS = _ := unread.bootFirmware (fun _ _ => rfl) s (!s.dev.activeB) fs
  rw [flagged, State.bootFlagged, other, if_neg Bool.false_ne_true, State.reg_setBits_same _ _ _ (State.bootCalibrated_regsSorted hs _)]
  simp

/-! ### BOOT -/

theorem State.takeSealed_of_none {s : State} (h : s.host.visible = []) : s.takeSealed = s := by simp [State.takeSealed, h, State.takeVisible]

/-- The state whose link has trained. -/
def State.linked (s : State) (l : LinkTrain) : State := { s with host := { s.host with pcie := { s.host.pcie with link := l } } }

/-- The firmware boots: no packet has been sealed before. -/
theorem bootFirmware_takeSealed {s : State} (h : s.host.visible = []) (b : Bool) (fs : List Nat) :
    (s.bootFirmware b fs).takeSealed = s.bootFirmware b fs :=
  State.takeSealed_of_none ((congrArg (·.2.2.2.2.1) (s.bootFirmware_view b fs)).trans h)

section
variable {s : State} (hp : s.powered = true) (hb : s.host.bootDone = false) (hr : s.host.recovery = false) (hf : s.host.failReason = 0) (fs : List Nat) (l : LinkTrain)
include hp hb hr hf

theorem exec_boot_unreadable (ho : s.dev.otpReadable = false) :
    exec (.boot fs l) s = .next { s.linked l with host := { (s.linked l).host with stage := 1, failReason := 1 } } := by
  simp [exec, execBoot, State.linked, hp, hb, hr, hf, ho]

theorem exec_boot_active (ho : s.dev.otpReadable = true) (hv : s.host.visible = []) (ha : s.dev.slotOk (s.dev.slot s.dev.activeB) = true) :
    exec (.boot fs l) s = .next ((s.linked l).bootFirmware s.dev.activeB fs) := by
  rw [← bootFirmware_takeSealed (s := s.linked l) hv]
  simp [exec, execBoot, State.linked, hp, hb, hr, hf, ho, ha]

theorem exec_boot_fallback (ho : s.dev.otpReadable = true) (hv : s.host.visible = []) (ha : s.dev.slotOk (s.dev.slot s.dev.activeB) = false)
    (hn : s.dev.slotOk (s.dev.slot (!s.dev.activeB)) = true) :
    exec (.boot fs l) s = .next ((s.linked l).bootFirmware (!s.dev.activeB) fs) := by
  rw [← bootFirmware_takeSealed (s := s.linked l) hv]
  simp [exec, execBoot, State.linked, hp, hb, hr, hf, ho, ha, hn]

theorem exec_boot_recovery (ho : s.dev.otpReadable = true) (hv : s.host.visible = []) (ha : s.dev.slotOk (s.dev.slot s.dev.activeB) = false)
    (hn : s.dev.slotOk (s.dev.slot (!s.dev.activeB)) = false) :
    exec (.boot fs l) s = .next { s with host := { s.host with recovery := true, stage := 0x0E, pcie := { s.host.pcie with link := l } } } := by
  simp [exec, execBoot, hp, hb, hr, hf, ho, ha, hn, State.takeSealed, hv, State.takeVisible]

end

/-! ### OSC_STABLE (R238, R452) -/

/-- What the election leaves: the host interface, who is the master, Π and T. -/
def State.officeView (s : State) : HostIf × Bool × Nat × Nat × Nat := (s.host, s.thy.master, s.thy.masterAddr, s.thy.period, s.thy.tick)

theorem sendFree_officeView : SendFree State.officeView where
  regs _ _ := rfl
  ring _ _ := rfl
  thy _ _ hm ha hp ht := by simp [State.officeView, hm, ha, hp, ht]

/-- A module that becomes the master goes on from its own counters (R241). -/
theorem State.becomeMaster_view (s : State) : s.becomeMaster.officeView = (s.host, true, s.ring.addr, s.thy.period, s.thy.tick) := by
  unfold State.becomeMaster
  extract_lets k t
  have office : t.officeView = (s.host, true, s.ring.addr, s.thy.period, s.thy.tick) := sendFree_officeView.masterRequest _ _ _
  exact (keeps_onlyIf (sendFree_officeView.masterHoldOn t _)).trans office

theorem exec_oscStable_master {s : State} (hp : s.powered = true) (hm : s.thy.master = true) :
    exec .oscStable s = .next { s with
      host := { s.host with oscStable := true }
      thy := { s.thy with masterPrio := s.regN Reg.THY_PRIO % 256 } } := by
  show execOscStable s = _
  have after : ({ s with host := { s.host with oscStable := true } } : State).prio = s.regN Reg.THY_PRIO % 256 := rfl
  simp [execOscStable, hp, State.prioRises, hm, State.modThy, after]

theorem exec_oscStable_member {s : State} (hp : s.powered = true) (hm : s.thy.master = false) (ho : s.host.oscStable = false)
    (hn : s.regN Reg.THY_PRIO % 256 ≠ 0) (hz : s.thy.masterPrio = 0) :
    exec .oscStable s = .next ({ s with host := { s.host with oscStable := true } } : State).becomeMaster := by
  show execOscStable s = _
  have before : s.prio = 0 := by simp [State.prio, ho]
  have after : ({ s with host := { s.host with oscStable := true } } : State).prio ≠ 0 := hn
  simp [execOscStable, hp, State.prioRises, hm, before, after, hz]

/-- Settles O43: each outcome of the boot, of a self-test and of the oscillator is one equation of `exec`, and the views say what it leaves. -/
theorem bootAndSelfTest : Obligations.BootAndSelfTest := by
  unfold Obligations.BootAndSelfTest
  refine ⟨fun fs l s hp hb hr hf => ⟨fun ho => ?_, fun ho hv ha => ?_, fun ho hv ha hn hs => ?_, exec_boot_recovery hp hb hr hf fs l⟩,
    fun pos s => ⟨exec_selftest_not_testing, fun hpos ht => ⟨exec_selftest_passed hpos ht, ?_⟩, fun hpos ht => ?_⟩, fun s hp => ⟨exec_oscStable_master hp, fun hm ho hn hz => ?_⟩⟩
  · exact ⟨_, exec_boot_unreadable hp hb hr hf fs l ho, rfl, hb⟩
  · have hv := (s.linked l).bootFirmware_view s.dev.activeB fs
    simp only [State.bootView, Prod.mk.injEq] at hv
    obtain ⟨hmem, ⟨hdone, hrec, hrun, hst⟩, hstage, hpcie, -⟩ := hv
    exact ⟨_, exec_boot_active hp hb hr hf fs l ho ‹_› ha, hdone, hrec.trans hr, hrun, hst, hstage, congrArg Pcie.link hpcie, fun _ => hmem⟩
  · have hview := (s.linked l).bootFirmware_view (!s.dev.activeB) fs
    simp only [State.bootView, Prod.mk.injEq] at hview
    obtain ⟨-, ⟨hdone, -, hrun, -⟩, -⟩ := hview
    exact ⟨_, exec_boot_fallback hp hb hr hf fs l ho hv ha hn, hdone, hrun, State.bootFirmware_fallback (s := s.linked l) hs fs⟩
  · have failed : exec (.selftestComplete pos false) s = .next ((s.tested pos).positionFails pos) := by simp [exec_selftest_failed hpos, ht]
    exact ⟨fun he => ⟨_, failed, State.positionFails_spare_keeps (s := s.tested pos) he⟩,
      fun sp rest hlt hi hw hs => ⟨_, failed, State.positionFails_substituted (s := s.tested pos) hlt hi hw hs⟩,
      fun hlt hi hw hs => ⟨_, failed, State.positionFails_none (s := s.tested pos) hlt hi hw hs⟩,
      fun hlt hi => ⟨_, failed, State.positionFails_waits (s := s.tested pos) hlt hi⟩⟩
  · refine ⟨((s.tested pos).positionFails pos).endDivergenceTest false, by simp [exec_selftest_failed hpos, ht], ?_⟩
    simp [State.endDivergenceTest_failed]
  · have office := State.becomeMaster_view { s with host := { s.host with oscStable := true } }
    simp only [State.officeView, Prod.mk.injEq] at office
    obtain ⟨hhost, hmaster, haddr, hperiod, htick⟩ := office
    exact ⟨_, exec_oscStable_member hp hm ho hn hz, congrArg HostIf.oscStable hhost, hmaster, haddr, hperiod, htick⟩

end Sys2Proof.Machine
end

section
/-! Replies of Sage (R378, R383 to R385) and the commands about images (R17, R210, R384, R399 to R401), and O54. -/

namespace Sys2Proof.Machine

variable {α : Type} {f : State → α}

/-! ### Replies over a link that is up -/

section
variable (s : State) (c : CmdHdr) (a op st ft d : Nat) (l : List Byte)

@[simp] theorem State.putReply_hostLink : (s.putReply c a op st ft d l).hostLink = s.hostLink :=
  (EventFree.of_unread (f := State.hostLink) fun _ _ _ _ => rfl).putReply s c a op st ft d l

@[simp] theorem State.putReply_period : (s.putReply c a op st ft d l).period = s.period :=
  (EventFree.of_unread (f := State.period) fun _ _ _ _ => rfl).putReply s c a op st ft d l

variable {s} (hl : s.hostLink = true)
include hl

theorem State.putReply_eq : s.putReply c a op st ft d l =
    { s with
      hostMem := memPut s.hostMem a (replyBytes c op st ft s.period d l)
      flt := { s.flt with msix := s.flt.msix ++ if c.irq then [0] else [] } } := by
  cases h : c.irq <;> simp [State.putReply, State.signalReply, hl, h]

theorem State.putReply_hostMem : (s.putReply c a op st ft d l).hostMem = memPut s.hostMem a (replyBytes c op st ft s.period d l) := by
  rw [State.putReply_eq c a op st ft d l hl]

theorem State.answered_reply : s.answered (s.reply c op st ft d l) c op st ft d l := by
  simp [State.answered, State.reply, State.putReply_eq _ _ _ _ _ _ _ hl]

theorem State.answeredTwice_replyBoth : s.answeredTwice (s.replyBoth c op st ft d l) c op st ft d l := by
  rw [State.answeredTwice, State.replyBoth, State.bump_hostMem, State.putReply_hostMem, State.putReply_hostMem _ _ _ _ _ _ _ hl, State.putReply_period]
  rwa [State.putReply_hostLink]

end

theorem State.onlyReply_refl (s : State) : s.onlyReply s := rfl

theorem State.onlyReply_setReg {s t : State} (h : s.onlyReply t) (a : Nat) (v : W32) : s.onlyReply (t.setReg a v) := by
  have set := congrArg (fun u : State => { u with regs := { u.regs with vals := kvSet (t.regDefault a) t.regs.vals a v } }) h
  exact set

theorem State.onlyReply_bump {s t : State} (h : s.onlyReply t) (a n : Nat) : s.onlyReply (t.bump a n) := by
  unfold State.bump
  split
  · exact h
  · exact State.onlyReply_setReg h _ _

theorem State.onlyReply_sent {s t : State} (h : s.onlyReply t) (m : Cells) (x : List Nat) :
    s.onlyReply { t with hostMem := m, flt := { t.flt with msix := x } } := by
  have sent := congrArg (fun u : State => { u with hostMem := m, flt := { u.flt with msix := x } }) h
  exact sent

theorem State.onlyReply_putReply {s t : State} (h : s.onlyReply t) (c : CmdHdr) (a op st ft d : Nat) (l : List Byte) :
    s.onlyReply (t.putReply c a op st ft d l) := by
  cases hl : t.hostLink
  · simpa [State.putReply, hl] using h
  · rw [State.putReply_eq _ _ _ _ _ _ _ hl]
    exact State.onlyReply_sent h _ _

theorem State.onlyReply_replyBoth (s : State) (c : CmdHdr) (op st ft d : Nat) (l : List Byte) : s.onlyReply (s.replyBoth c op st ft d l) :=
  State.onlyReply_bump (State.onlyReply_putReply (State.onlyReply_putReply s.onlyReply_refl _ _ _ _ _ _ _) _ _ _ _ _ _ _) _ _

theorem State.onlyReply_reply (s : State) (c : CmdHdr) (op st ft d : Nat) (l : List Byte) : s.onlyReply (s.reply c op st ft d l) :=
  State.onlyReply_bump (State.onlyReply_putReply s.onlyReply_refl _ _ _ _ _ _ _) _ _

/-- An observation of neither host memory nor the fault block nor registers is one of the state before the reply. -/
theorem State.onlyReply.keeps {s t : State} (h : s.onlyReply t) (hf : ∀ (s : State) m x r, f { s with hostMem := m, flt := x, regs := r } = f s) : f t = f s :=
  (congrArg f h).trans (hf s _ _ _)

/-- A command that Sage takes and that is legal in the state acts (R382, R385). -/
theorem State.command_takes {s : State} {c : CmdHdr} (h : s.takes c) (op : Nat) {legal : List ModState} (hl : s.host.st ∈ legal) (act : State → State) :
    s.command op c true legal act = act s := by
  obtain ⟨hup, -, haddr, hrec, hbusy⟩ := h
  simp [State.command, hup, haddr, hrec, hbusy, hl]

/-! ### LOAD_IMAGE (R399) -/

theorem State.hostReachable_within {s : State} (hl : s.hostLink = true) {a n : Nat} (h : a + n ≤ 2 ^ 64) : s.hostReachable a n = true := by
  simpa [State.hostReachable, hl] using h

theorem State.hostReachable_beyond {s : State} {a n : Nat} (h : 2 ^ 64 < a + n) : s.hostReachable a n = false := by
  simpa [State.hostReachable] using fun _ => h

/-- With no array waiting a boundary substitutes none. -/
theorem State.settleSubst_of_none {s : State} (h : s.host.substWaiting = []) :
    s.settleSubst = { s with host := { s.host with substWaiting := [] } } := by simp [State.settleSubst, h, sortBy, sortFrom]

/-- What a loaded image leaves: memory, time and the PCIe function. -/
def State.loadView (s : State) : Cells × Thyme × Pcie := (s.mem, s.thy, s.host.pcie)

theorem State.takeImage_view (s : State) (i : Image) : (s.takeImage i).loadView = s.loadView := by
  have unread : SpareFree State.loadView := { toEventFree := .of_unread fun _ _ _ _ => rfl, subst := fun _ _ => rfl, spares := fun _ _ _ _ _ => rfl }
  exact unread.settleSubst s.emptyQueues

theorem State.takeImage_of_none {s : State} (h : s.host.substWaiting = []) (i : Image) :
    (s.takeImage i).dev = s.dev ∧ (s.takeImage i).hostMem = s.hostMem := by
  have settled := State.settleSubst_of_none (s := s.emptyQueues) h
  have hdev := congrArg State.dev settled
  have hmem := congrArg State.hostMem settled
  exact ⟨hdev, hmem⟩

theorem State.takeImage_loaded (s : State) (i : Image) :
    (s.takeImage i).host.image = some i ∧ (s.takeImage i).host.st = .loaded ∧ (s.takeImage i).tiers.regions = i.regions ∧
      (s.takeImage i).mir.desc = i.pairing := ⟨rfl, rfl, rfl, rfl⟩

section
variable {s : State} {c : CmdHdr} (h : s.takes c) (hst : s.host.st ∈ [ModState.opened, .loaded, .ready]) {a n : BitVec 64}
include h hst

theorem exec_loadImage_noSpare (hn : s.host.noSpare = true) (hr : a.toNat + n.toNat ≤ 2 ^ 64) :
    exec (.loadImage c a n) s = .next (s.replyBoth c 0x10 Status.refused 0x52 0 []) := by
  show execLoadImage c a n s = _
  simp [execLoadImage, State.cmdLoadImage, State.command_takes h _ hst, State.hostReachable_within h.2.1 hr, hn]

theorem exec_loadImage_transfer (hr : 2 ^ 64 < a.toNat + n.toNat) :
    exec (.loadImage c a n) s = .next (s.replyBoth c 0x10 Status.transfer 0 0 []) := by
  show execLoadImage c a n s = _
  simp [execLoadImage, State.cmdLoadImage, State.command_takes h _ hst, State.hostReachable_beyond hr]

theorem exec_loadImage_taken (hn : s.host.noSpare = false) (hr : a.toNat + n.toNat ≤ 2 ^ 64) {i : Image}
    (hi : s.checkImage a.toNat (memGet s.hostMem a.toNat n.toNat) = .ok i) :
    exec (.loadImage c a n) s = .next (((s.used (n.toNat / 24 + 1)).takeImage i).replyBoth c 0x10 Status.done 0 0 []) := by
  show execLoadImage c a n s = _
  simp [execLoadImage, State.cmdLoadImage, State.command_takes h _ hst, State.hostReachable_within h.2.1 hr, hn, State.hostGet, hi]

theorem exec_loadImage_refused (hn : s.host.noSpare = false) (hr : a.toNat + n.toNat ≤ 2 ^ 64) {e : LoadErr}
    (he : s.checkImage a.toNat (memGet s.hostMem a.toNat n.toNat) = .error e) :
    exec (.loadImage c a n) s = .next ((s.used (n.toNat / 24 + 1)).refuseImage c e) := by
  show execLoadImage c a n s = _
  simp [execLoadImage, State.cmdLoadImage, State.command_takes h _ hst, State.hostReachable_within h.2.1 hr, hn, State.hostGet, he]

end

/-- A refused image is answered with its row's code, and changes nothing else but the record of a latency mismatch. -/
theorem State.refuseImage_answers {s : State} (hl : s.hostLink = true) (c : CmdHdr) (e : LoadErr) :
    s.onlyReply (s.refuseImage c e) ∧ s.answeredTwice (s.refuseImage c e) c 0x10 2 e.code e.detail [] := by
  unfold State.refuseImage
  split
  · next id v _ =>
    have noted : s.onlyReply ((s.setReg Reg.DET_MISMATCH_ID (BitVec.ofNat 32 id)).setReg Reg.DET_MISMATCH_VAL (BitVec.ofNat 32 v)) := rfl
    exact ⟨State.onlyReply_bump (State.onlyReply_putReply (State.onlyReply_putReply noted _ _ _ _ _ _ _) _ _ _ _ _ _ _) _ _,
      State.answeredTwice_replyBoth (s := (s.setReg Reg.DET_MISMATCH_ID (BitVec.ofNat 32 id)).setReg Reg.DET_MISMATCH_VAL (BitVec.ofNat 32 v)) _ _ _ _ _ _ hl⟩
  · exact ⟨s.onlyReply_replyBoth _ _ _ _ _ _, State.answeredTwice_replyBoth _ _ _ _ _ _ hl⟩

/-- A taken image is loaded and answered. -/
theorem State.takeImage_answers {s : State} (hl : s.hostLink = true) (c : CmdHdr) (i : Image) {t : State}
    (ht : t = (s.takeImage i).replyBoth c 0x10 Status.done 0 0 []) :
    t.host.image = some i ∧ t.host.st = .loaded ∧ t.tiers.regions = i.regions ∧ t.mir.desc = i.pairing ∧ t.mem = s.mem ∧ t.thy = s.thy ∧
      (s.host.substWaiting = [] → s.answeredTwice t c 0x10 0 0 0 [] ∧ t.dev = s.dev) := by
  have reply := (s.takeImage i).onlyReply_replyBoth c 0x10 Status.done 0 0 []
  obtain ⟨himage, hst, hregions, hdesc⟩ := s.takeImage_loaded i
  have hview := s.takeImage_view i
  simp only [State.loadView, Prod.mk.injEq] at hview
  obtain ⟨hmem, hthy, hpcie⟩ := hview
  rw [← ht] at reply
  refine ⟨(reply.keeps (f := fun s => s.host.image) fun _ _ _ _ => rfl).trans himage, (reply.keeps (f := fun s => s.host.st) fun _ _ _ _ => rfl).trans hst,
    (reply.keeps (f := fun s => s.tiers.regions) fun _ _ _ _ => rfl).trans hregions, (reply.keeps (f := fun s => s.mir.desc) fun _ _ _ _ => rfl).trans hdesc,
    (reply.keeps (f := State.mem) fun _ _ _ _ => rfl).trans hmem, (reply.keeps (f := State.thy) fun _ _ _ _ => rfl).trans hthy, fun hw => ?_⟩
  obtain ⟨hdev, hhost⟩ := State.takeImage_of_none hw i
  have link : (s.takeImage i).hostLink = true := by rw [State.hostLink, hpcie]; exact hl
  have period : (s.takeImage i).period = s.period := congrArg Thyme.period hthy
  have answer := State.answeredTwice_replyBoth c 0x10 Status.done 0 0 [] link
  rw [← ht, State.answeredTwice, hhost, period] at answer
  exact ⟨answer, (reply.keeps (f := State.dev) fun _ _ _ _ => rfl).trans hdev⟩

/-! ### PATCH (R400) -/

/-- The state whose image has one region moved. -/
def State.patched (s : State) (j : Image) : State :=
  { s with host := { s.host with image := some j }, tiers := { s.tiers with regions := j.regions } }

theorem exec_patch_moves {s : State} {c : CmdHdr} (h : s.takes c) (hst : s.host.st = .loaded) {i : Image} (hi : s.host.image = some i) {k : Nat} {r : Region}
    (hr : i.regions[k]? = some r) (h6 : r.kind ≠ 6) (hk : i.pForm = true ∨ (2 ≤ r.kind ∧ r.kind ≤ 4)) (hlt : k < 65536) {a : BitVec 64}
    (hfit : (i.moved k a.toNat).fits = true) :
    exec (.patch c (BitVec.ofNat 16 k) a) s = .next ((s.patched (i.moved k a.toNat)).reply c 0x11 Status.done 0 0 []) := by
  have movable : i.pForm = false → ¬ (r.kind ≤ 1 ∨ 4 < r.kind) := fun hp => by
    have : 2 ≤ r.kind ∧ r.kind ≤ 4 := hk.resolve_left (by simp [hp])
    omega
  have number : (BitVec.ofNat 16 k).toNat = k := by simpa using hlt
  show execPatch c (BitVec.ofNat 16 k) a s = _
  simpa [execPatch, State.cmdPatch, State.command_takes h _ (List.mem_singleton.2 hst), hi, State.patchImage, number, hr, h6, hfit,
    State.patched, State.replyDone] using fun hp hout => absurd hout (movable hp)

/-! ### COMMIT_IMAGE (R401) -/

/-- Images are placed while the module does not run. -/
theorem WriteFree.placeImages (hf : WriteFree f) {s : State} (hs : s.host.st ≠ .running) (rs : List Region) (imgs : List (Nat × List Byte)) :
    f (s.placeImages rs imgs) = f s := by
  have zeroed {β : Type} {g : State → β} (hg : WriteFree g) (s : State) :
      g (rs.foldl (fun (s : State) r => if r.kind == 0 || r.kind == 2 || r.kind == 5 then s.zeroFill r.base r.size else s) s) = g s :=
    foldl_keeps (fun s r => keeps_onlyIf ((hg.healed _ _ _).trans (hg.mem s _))) _ _
  refine (foldl_keeps_of (P := fun s => s.host.st ≠ .running) (fun s e h => ?_) (fun s e h => ?_) imgs ((zeroed WriteFree.st s).trans_ne hs)).1.trans (zeroed hf s)
  · split
    · split
      · exact (WriteFree.st.putMem h _ _).trans_ne h
      · exact h
    · exact h
  · split
    · exact keeps_onlyIf (hf.putMem h _ _)
    · rfl

/-- What the writes of a commit leave: the device, the image, the arrays and time. -/
def State.commitView (s : State) : Device × Option Image × List ArrayState × Thyme := (s.dev, s.host.image, s.arrays, s.thy)

theorem writeFree_commitView : WriteFree State.commitView where
  toEventFree := .of_unread fun _ _ _ _ => rfl
  regs _ _ := rfl
  tiers _ _ := rfl
  posTesting _ _ := rfl
  flt' _ _ := rfl
  mem _ _ := rfl
  ring _ _ := rfl

/-- The arrays with the context records of an image loaded (R401, step 5). -/
def State.loadedArrays (s : State) (i : Image) (ctxs : List (List Byte)) : List ArrayState :=
  s.arrays.zipIdx.map (fun (x : ArrayState × Nat) => x.1.loadCtx i.regions x.2 ((ctxs.take i.n).map readCtx)[x.2]?)

/-- A committed image: READY with the program's digest, its arrays loaded. -/
theorem State.commitAs_ready {s : State} (hs : s.host.st ≠ .running) (i : Image) (imgs : List (Nat × List Byte)) (ctxs : List (List Byte)) :
    (s.commitAs i imgs ctxs).host.st = .ready ∧ (s.commitAs i imgs ctxs).host.committed = true ∧ (s.commitAs i imgs ctxs).host.program = i.digest ∧
      (s.commitAs i imgs ctxs).host.image = s.host.image ∧ (s.commitAs i imgs ctxs).dev = s.dev ∧ (s.commitAs i imgs ctxs).thy = s.thy ∧
      (s.commitAs i imgs ctxs).arrays = s.loadedArrays i ctxs := by
  have placed := writeFree_commitView.placeImages hs i.regions imgs
  have pst : (s.placeImages i.regions imgs).host.st ≠ .running := (WriteFree.st.placeImages hs i.regions imgs).trans_ne hs
  unfold State.commitAs
  extract_lets p cs q d w
  have written : w.commitView = d.commitView := keeps_ite rfl (writeFree_commitView.putMem (s := d) pst _ _)
  simp only [State.commitView, Prod.mk.injEq] at placed written
  obtain ⟨pdev, pimage, parr, pthy⟩ := placed
  obtain ⟨wdev, wimage, warr, wthy⟩ := written
  refine ⟨rfl, rfl, rfl, wimage.trans pimage, wdev.trans pdev, wthy.trans pthy, warr.trans ?_⟩
  exact congrArg (fun l : List ArrayState => l.zipIdx.map (fun (x : ArrayState × Nat) => x.1.loadCtx i.regions x.2 cs[x.2]?)) parr

theorem ArrayState.loadCtx_empty (a : ArrayState) (rs : List Region) (n : Nat) (c : Option CtxRecord) :
    (a.loadCtx rs n c).ops = [] ∧ (a.loadCtx rs n c).tables = List.replicate 16 ⟨none, none⟩ ∧ (a.loadCtx rs n c).tsw = List.replicate 64 tswReset := by
  cases c <;> exact ⟨rfl, rfl, rfl⟩

section
variable {s : State} {c : CmdHdr} (h : s.takes c) (hst : s.host.st = .loaded) {i : Image} (hi : s.host.image = some i)
include h hst hi

theorem exec_commitImage : exec (.commitImage c) s = .next (s.commitImage c i) := by
  show execCommitImage c s = _
  simp [execCommitImage, State.cmdCommitImage, State.command_takes h _ (List.mem_singleton.2 hst), hi]

theorem exec_commitImage_transfer (hr : 2 ^ 64 < i.hostAddr + i.len) :
    exec (.commitImage c) s = .next (s.replyBoth c 0x12 Status.transfer 0 0 []) := by
  simp [exec_commitImage h hst hi, State.commitImage, State.hostReachable_beyond hr]

theorem exec_commitImage_changed (hr : i.hostAddr + i.len ≤ 2 ^ 64) (hd : beNat (sha256 (memGet s.hostMem i.hostAddr i.len)) ≠ i.sha) :
    exec (.commitImage c) s = .next (s.replyBoth c 0x12 Status.refused 0x03 0 []) := by
  simp [exec_commitImage h hst hi, State.commitImage, State.hostReachable_within h.2.1 hr, State.hostGet, hd]

theorem exec_commitImage_ready (hr : i.hostAddr + i.len ≤ 2 ^ 64) (hd : beNat (sha256 (memGet s.hostMem i.hostAddr i.len)) = i.sha)
    (he : regionErr s.dev.grade i.pForm i.n i.regions = none) {imgs : List (Nat × List Byte)} {ctxs : List (List Byte)}
    (hm : relocated i.regions i.images i.contexts i.relocs = some (imgs, ctxs)) :
    exec (.commitImage c) s = .next ((s.commitAs i imgs ctxs).replyBoth c 0x12 Status.done 0 0 []) := by
  simp [exec_commitImage h hst hi, State.commitImage, State.hostReachable_within h.2.1 hr, State.hostGet, hd, he, hm]

end

/-- Settles O54: each outcome is one equation of `exec`; a reply changes what `onlyReply` names, and the views say what loading and committing leave. -/
theorem imageCommands : Obligations.ImageCommands := by
  unfold Obligations.ImageCommands
  intro c a n s h
  have hl : s.hostLink = true := h.2.1
  refine ⟨fun hst hn hr => ?_, fun hst hr => ?_, fun i hst hn hr hi => ?_, fun e hst hn hr he => ?_, fun i r k hst hi hr h6 hk hlt hfit => ?_,
    fun i hst hi hr => ?_, fun i hst hi hr hd => ?_, fun i imgs ctxs hst hi hr hd he hm => ?_⟩
  · exact ⟨_, exec_loadImage_noSpare h hst hn hr, s.onlyReply_replyBoth _ _ _ _ _ _, State.answeredTwice_replyBoth _ _ _ _ _ _ hl⟩
  · exact ⟨_, exec_loadImage_transfer h hst hr, s.onlyReply_replyBoth _ _ _ _ _ _, State.answeredTwice_replyBoth _ _ _ _ _ _ hl⟩
  · exact ⟨_, exec_loadImage_taken h hst hn hr hi, State.takeImage_answers (s := s.used (n.toNat / 24 + 1)) hl c i rfl⟩
  · exact ⟨_, exec_loadImage_refused h hst hn hr he, State.refuseImage_answers (s := s.used (n.toNat / 24 + 1)) hl c e⟩
  · have reply := (s.patched (i.moved k a.toNat)).onlyReply_reply c 0x11 Status.done 0 0 []
    refine ⟨_, exec_patch_moves h hst hi hr h6 hk hlt hfit, State.answered_reply (s := s.patched (i.moved k a.toNat)) _ _ _ _ _ _ hl, ?_, ?_, ?_, ?_, ?_⟩
    · exact reply.keeps (f := fun s => s.host.image) fun _ _ _ _ => rfl
    · exact reply.keeps (f := fun s => s.tiers.regions) fun _ _ _ _ => rfl
    · exact (reply.keeps (f := fun s => s.host.st) fun _ _ _ _ => rfl).trans hst
    · exact reply.keeps (f := State.mem) fun _ _ _ _ => rfl
    · exact reply.keeps (f := State.arrays) fun _ _ _ _ => rfl
  · exact ⟨_, exec_commitImage_transfer h hst hi hr, s.onlyReply_replyBoth _ _ _ _ _ _, State.answeredTwice_replyBoth _ _ _ _ _ _ hl⟩
  · exact ⟨_, exec_commitImage_changed h hst hi hr hd, s.onlyReply_replyBoth _ _ _ _ _ _, State.answeredTwice_replyBoth _ _ _ _ _ _ hl⟩
  · have reply := (s.commitAs i imgs ctxs).onlyReply_replyBoth c 0x12 Status.done 0 0 []
    obtain ⟨ready, committed, program, image, dev, thy, arrays⟩ := State.commitAs_ready (s := s) (by simp [hst]) i imgs ctxs
    have loaded := (reply.keeps (f := State.arrays) fun _ _ _ _ => rfl).trans arrays
    refine ⟨_, exec_commitImage_ready h hst hi hr hd he hm, (reply.keeps (f := fun s => s.host.st) fun _ _ _ _ => rfl).trans ready,
      (reply.keeps (f := fun s => s.host.committed) fun _ _ _ _ => rfl).trans committed, (reply.keeps (f := fun s => s.host.program) fun _ _ _ _ => rfl).trans program,
      ((reply.keeps (f := fun s => s.host.image) fun _ _ _ _ => rfl).trans image).trans hi, ?_, (reply.keeps (f := State.dev) fun _ _ _ _ => rfl).trans dev,
      (reply.keeps (f := State.thy) fun _ _ _ _ => rfl).trans thy, fun x hx => ?_⟩
    · simp [loaded, State.loadedArrays]
    · rw [loaded, State.loadedArrays, List.mem_map] at hx
      obtain ⟨y, -, rfl⟩ := hx
      exact ArrayState.loadCtx_empty _ _ _ _

end Sys2Proof.Machine
end

section
/-! Issue of a product over absent tiles (R67, R71): the units of the tile-columns that a short set lacks become undefined, which draws free words (log 1), so the frame of O16 fails. -/

namespace Sys2Proof.Machine

/-! ### Free words of undefined units (R71) -/

theorem State.undefUnits_freeCtr (s : State) (n : Nat) (us : List Nat) : (s.undefUnits n us).freeCtr = s.freeCtr + 16384 * us.length := by
  induction us generalizing s with
  | nil => rfl
  | cons u us ih =>
    calc (s.undefUnits n (u :: us)).freeCtr
        = ((s.modArr n fun a => a.setUnit u s.freeUnit).used 16384).freeCtr + 16384 * us.length := ih _
      _ = s.freeCtr + 16384 * (us.length + 1) := by simp only [State.used, State.modArr_freeCtr]; omega

theorem State.skipSets_freeCtr (s : State) (n pipeAt : Nat) (p : Product) :
    (s.skipSets n p pipeAt).2.freeCtr = s.freeCtr + 16384 * (Product.skipEmpty (s.arr n) pipeAt p.plan.length p).2.2.length :=
  State.undefUnits_freeCtr _ _ _

/-- The first set of the plan is skipped: it has no tile present and its half is free (R71, R178). -/
structure Product.skipsFirst (p : Product) (g : Seg) (rest : List Seg) : Prop where
  plan : p.plan = g :: rest
  empty : g.empty = true
  free : p.halfFree p.setNo = true

/-- A skipped set leaves the units of its missing tile-columns undefined. -/
theorem Product.skipsFirst.missing_prefix {p : Product} {g : Seg} {rest : List Seg} (h : p.skipsFirst g rest) (a : ArrayState) (pipeAt n : Nat) :
    p.missingUnits p.setNo g.set <+: (Product.skipEmpty a pipeAt (n + 1) p).2.2 := by
  simp [Product.skipEmpty, h.plan, h.empty, h.free]

theorem Product.skipsFirst.freeCtr_lt {p : Product} {g : Seg} {rest : List Seg} (h : p.skipsFirst g rest)
    (hm : p.missingUnits p.setNo g.set ≠ []) (s : State) (n pipeAt : Nat) : s.freeCtr < (s.skipSets n p pipeAt).2.freeCtr := by
  have hlen := (h.missing_prefix (s.arr n) pipeAt rest.length).length_le
  have hpos := List.length_pos_of_ne_nil hm
  rw [State.skipSets_freeCtr, h.plan, List.length_cons]
  omega

/-! ### Issue -/

theorem State.recordUses_freeCtr (s : State) (n : Nat) (os : List ObjInfo) : (s.recordUses n os).freeCtr = s.freeCtr :=
  foldl_keeps (f := State.freeCtr) (g := fun s o => s.recordUse n o) (fun _ _ => rfl) os s

/-- Starting a product draws the free words of the sets it skips. -/
theorem State.startProduct_freeCtr (s0 s : State) (h : Head) (b : BodyP) (a : ProdArgs) (p : Product) (slot : Nat) :
    ∃ (s' : State) (preAt pipeAt : Nat), s'.freeCtr = s.freeCtr ∧
      (s0.startProduct s h b a p slot).freeCtr = (s'.skipSets h.arr { p with preAt := preAt } pipeAt).2.freeCtr := by
  refine ⟨_, _, _, ?_, (State.recordUses_freeCtr _ _ _).trans (keeps_onlyIf (f := State.freeCtr) rfl)⟩
  rfl

/-- A product whose first set is skipped with tile-columns missing does not keep the free words. -/
theorem Product.skipsFirst.startProduct_freeCtr_lt {p : Product} {g : Seg} {rest : List Seg} (hp : p.skipsFirst g rest)
    (hm : p.missingUnits p.setNo g.set ≠ []) (s0 s : State) (h : Head) (b : BodyP) (a : ProdArgs) (slot : Nat) :
    s.freeCtr < (s0.startProduct s h b a p slot).freeCtr := by
  obtain ⟨s', preAt, pipeAt, hs', hstart⟩ := s0.startProduct_freeCtr s h b a p slot
  rw [hstart, ← hs']
  exact Product.skipsFirst.freeCtr_lt (p := { p with preAt := preAt }) ⟨hp.plan, hp.empty, hp.free⟩ hm s' h.arr pipeAt

/-- What issue needs to know of an MMF. -/
def State.mmfInfo (s : State) (h : Head) (b : BodyP) (r : ProdRec) : IssueInfo :=
  s.prodInfo h b (s.mmArgs .mmf 0x20 h b r) (if b.fused || !r.sr then [] else [r.idxReg.toNat, r.seedReg.toNat])

/-- The product that an MMF starts. -/
def State.mmfProduct (s : State) (h : Head) (b : BodyP) (r : ProdRec) : Product :=
  s.mkProduct h b (s.mmArgs .mmf 0x20 h b r) r.sr (((s.ctx h.arr h.stream).sreg r.idxReg.toNat).toNat % 2 ^ 48) r.idxPitch.toNat
    ((s.ctx h.arr h.stream).sreg r.seedReg.toNat).toNat

/-- MMF from a clean fetch. -/
theorem exec_mmf_clean {s : State} {h : Head} {b : BodyP} {r : ProdRec} {slot : Nat} (hi : s.issuesClean h (s.mmfInfo h b r) slot) :
    exec (.mmf h b r) s =
      .next (s.startProduct (s.issued h (s.mmfInfo h b r)) h b (s.mmArgs .mmf 0x20 h b r) (s.mmfProduct h b r) slot) :=
  issue_clean (fun slot t => s.startProduct t h b (s.mmArgs .mmf 0x20 h b r) (s.mmfProduct h b r) slot) hi

/-- An MMF whose first set is skipped with tile-columns missing draws free words. -/
theorem exec_mmf_freeCtr_lt {s t : State} {h : Head} {b : BodyP} {r : ProdRec} {slot : Nat} {g : Seg} {rest : List Seg}
    (hi : s.issuesClean h (s.mmfInfo h b r) slot) (hp : (s.mmfProduct h b r).skipsFirst g rest)
    (hm : (s.mmfProduct h b r).missingUnits (s.mmfProduct h b r).setNo g.set ≠ []) (ht : exec (.mmf h b r) s = .next t) :
    s.freeCtr < t.freeCtr := by
  obtain rfl := Host.Outcome.next.inj ((exec_mmf_clean hi).symm.trans ht)
  calc s.freeCtr = (s.issued h (s.mmfInfo h b r)).freeCtr := (State.issued_freeCtr s h _).symm
    _ < _ := hp.startProduct_freeCtr_lt hm s _ h b _ slot

/-- The frame of issued work draws no free word. -/
theorem State.onlyWork.freeCtr {s t : State} {n : Nat} (h : s.onlyWork t n) : t.freeCtr = s.freeCtr := by
  obtain ⟨hframe, -⟩ := h
  rw [hframe]

/-! ### A short set with no tile present -/

/-- A directory of one tile-row and one tile-column with no tile present, for E4M3 tiles of cap 2. -/
def absentDir : Dir := ⟨0x100000, 1, true, Fmt.e4m3.code, 2, 2, 0, false, 1, 1, 0, 0⟩

/-- The F stream of array 0 at pc 0 of region 0, with base register 1 at the data region and all accumulator units. -/
def ArrayState.fRuns (a : ArrayState) : ArrayState :=
  { a with
    f := { a.f with st := .running, codeRegion := some 0, slotN := 8, abs := a.f.abs.set 1 0x100000 }
    accRegions := [(.f, 0, 64)] }

/-- A running module: a code region, and a data region with `absentDir`. -/
def State.absentTiles : State :=
  { State.reset.modArr 0 ArrayState.fRuns with
    host := { HostIf.reset with st := .running }
    stp := { State.reset.stp with started := true }
    tiers := { State.reset.tiers with regions := [⟨0, 4096, 1, 31, 7, 0⟩, ⟨0x100000, 0x100000, 5, 31, 7, 0⟩] }
    mem := memPut [] 0x100000 absentDir.bytes }

/-- Array 0's F stream, with cap 2 and FP16 runs, which double the density of E4M3 to two tile-columns a set (R30, R296). -/
def absentHead : Head := ⟨0, .f, 0x14, 0, 0⟩

/-- Accumulator units from 0; no weight; the record at 0x800 of the code region. -/
def absentBody : BodyP := ⟨0xFFFF, 0, false, false, false, false, false, ⟨0, 64⟩⟩

/-- One block of 128 rows times the one tile-row and tile-column of `absentDir`. -/
def absentRec : ProdRec :=
  ⟨⟨1, 3, 0, false, false, 0x10000⟩, 128, 128, ⟨1, 0⟩, ⟨1, 0x2000⟩, 0, 0, 0, 0, 0, 128, ⟨1, 3, 0, false, false, 0x20000⟩, 3, false, 0, 0, 0⟩

/-- The MMF meets every condition of issue. -/
theorem absentTiles_issues : State.absentTiles.issuesClean absentHead (State.absentTiles.mmfInfo absentHead absentBody absentRec) 0 := by
  have recordInside : State.absentTiles.recordInside absentHead absentBody.recRef 64 = true := by decide +kernel
  have stream : absentHead.stream ∈ allStreams := by decide
  exact State.issuesClean_of (by decide +kernel) stream rfl nofun rfl rfl (fun _ _ h => by cases h; exact recordInside)
    (by decide +kernel) (by decide +kernel) nofun (by decide +kernel)

/-- Its one set has no tile present, and lacks the second of its two tile-columns. -/
theorem absentTiles_skipsFirst : (State.absentTiles.mmfProduct absentHead absentBody absentRec).skipsFirst ⟨0, 0, 0, 0, true, true, true⟩ [] where
  plan := by decide +kernel
  empty := rfl
  free := by decide +kernel

theorem absentTiles_missingUnits :
    (State.absentTiles.mmfProduct absentHead absentBody absentRec).missingUnits
      (State.absentTiles.mmfProduct absentHead absentBody absentRec).setNo 0 = [1] := by decide +kernel

/-- Refutes O16: an MMF over one tile-column whose tile is absent, at a density of two tile-columns a set, meets every condition of issue and skips its set at once (R71); unit 1, which stands for the missing tile-column, becomes undefined and takes 16,384 free words, where `State.onlyWork` lets no free word be drawn. -/
theorem not_productIssue : ¬ Obligations.ProductIssue := by
  unfold Obligations.ProductIssue
  intro hall
  obtain ⟨hmmf, -⟩ := hall absentHead absentBody State.absentTiles 0
  obtain ⟨t, o, ht, ⟨hwork, -⟩, -⟩ := hmmf absentRec absentTiles_issues
  have missing := absentTiles_missingUnits.trans_ne (List.cons_ne_nil 1 [])
  have drawn : State.absentTiles.freeCtr < t.freeCtr := exec_mmf_freeCtr_lt absentTiles_issues absentTiles_skipsFirst missing ht
  exact drawn.ne hwork.freeCtr.symm

end Sys2Proof.Machine
end

section
/-! Totals that become final with the sat flag (R104, R406): they set a sticky bit of ARR_STATUS, and the register file remembers in which bus cycle hardware set it, so the frame of O17 fails. -/

namespace Sys2Proof.Machine

/-! ### Sticky bits of a final tile -/

/-- A final tile with the sat flag sets bits of ARR_STATUS in the present bus cycle (R104, R406). -/
theorem State.countFinal_raisedBus {s : State} {n u : Nat} (h : tswFlags ((s.arr n).tswAt u) % 2 = 1) :
    (s.countFinal n u).regs.raisedBus = s.thy.bus := by
  unfold State.countFinal
  simp only [h, beq_self_eq_true, if_true]
  split <;> exact congrArg Thyme.bus (State.bumpArr_thy s n Reg.ARR_ACC_SAT 1)

/-- The frame of one array and its counters keeps the bus cycle in which hardware last set bits. -/
theorem State.onlyArray.raisedBus {s t : State} {n : Nat} (h : s.onlyArray t n) : t.regs.raisedBus = s.regs.raisedBus := by
  obtain ⟨hframe, -⟩ := h
  rw [hframe]

/-! ### TOTALS_FINAL of an MMG -/

theorem State.corrected_of_no_errors {s : State} (hfar : s.tiers.soft = []) (hnear : s.tiers.nearSoft = []) (rs : List (Nat × Nat)) (own : Nat) :
    s.corrected rs own = s := by simp [State.corrected, hfar, hnear]

theorem State.setOp_tswAt {s : State} {n : Nat} (hn : n < s.arrays.length) (o : Op) (u : Nat) :
    ((s.setOp n o).arr n).tswAt u = (s.arr n).tswAt u := by
  rw [State.setOp, State.arr_modArr_same s n _ hn]
  rfl

/-- Final totals off the pipeline of an MMG, corrected and counted (R86, R104, R209). -/
def State.countMmg (s : State) (arr : Nat) (o : Op) (p : Product) (f : FinalTotals) (rest : List FinalTotals) : State :=
  ((s.corrected (p.totalReads arr f) arr).setOp arr { o with body := .prod { p with finals := rest } }).countFinal arr (p.accBase + f.setNo % 2)

/-- Final totals of an MMG join the tiles that wait for the adder (R86). -/
theorem exec_totalsFinal_mmg {s : State} {arr slot : Nat} {o : Op} {p : Product} {f : FinalTotals} {rest : List FinalTotals}
    (ho : s.op? arr slot = some o) (hb : o.body = .prod p) (hk : p.kind = .mmg) (hf : p.finals = f :: rest) (hat : f.at_ ≤ s.cycle)
    (hecc : s.eccRanges (p.totalReads arr f) arr = none) :
    exec (.totalsFinal arr slot) s = .next ((s.countMmg arr o p f rest).modArr arr fun a =>
      { a with gbWaiting := a.gbWaiting ++ [⟨o.slot, f.entry, f.values, (s.countMmg arr o p f rest).cycle⟩] }) := by
  show execTotalsFinal arr slot s = _
  simp only [execTotalsFinal, State.countMmg, ho, hb, hf, hecc, hk, Nat.not_lt.2 hat, if_false]

/-- A saturated total of an MMG leaves its mark on the register file. -/
theorem exec_totalsFinal_raisedBus {s t : State} {arr slot : Nat} {o : Op} {p : Product} {f : FinalTotals} {rest : List FinalTotals}
    (hn : arr < s.arrays.length) (hfar : s.tiers.soft = []) (hnear : s.tiers.nearSoft = [])
    (ho : s.op? arr slot = some o) (hb : o.body = .prod p) (hk : p.kind = .mmg) (hf : p.finals = f :: rest) (hat : f.at_ ≤ s.cycle)
    (hecc : s.eccRanges (p.totalReads arr f) arr = none) (hsat : tswFlags ((s.arr arr).tswAt (p.accBase + f.setNo % 2)) % 2 = 1)
    (ht : exec (.totalsFinal arr slot) s = .next t) : t.regs.raisedBus = s.thy.bus := by
  obtain rfl := Host.Outcome.next.inj ((exec_totalsFinal_mmg ho hb hk hf hat hecc).symm.trans ht)
  rw [State.modArr_regs, State.countMmg, State.corrected_of_no_errors hfar hnear]
  exact State.countFinal_raisedBus (State.setOp_tswAt hn _ _ ▸ hsat)

/-! ### A saturated total -/

/-- Array 0's B stream, with cap 2 and FP32 runs. -/
def saturatedHead : Head := ⟨0, .b, 0x10, 0, 0⟩

/-- One block of 128 rows for the one tile-row and tile-column of a directory, with E4M3 operands. -/
def saturatedRec : MmgRec :=
  ⟨⟨1, 3, 0, false, false, 0x10000⟩, 128, 128, ⟨1, 0⟩, ⟨1, 0x2000⟩, 0, 0, 0, 0, 1, 128, ⟨1, 3, 0, false, false, 0x20000⟩, 3, ⟨1, 0x40000⟩, ⟨0, 0⟩⟩

/-- An MMG whose segments have ended: the totals of entry 0 are still to become final and to be added. -/
def saturatedProduct : Product :=
  { State.reset.mkProduct saturatedHead absentBody (State.reset.mmgArgs saturatedHead saturatedRec) false 0 0 0 with
    finals := [⟨0, 0, 0, []⟩]
    addLeft := [0] }

/-- The MMG in slot 8. -/
def saturatedOp : Op :=
  { State.reset.newOp saturatedHead 0x22 8 0xFFFF 0 (.prod saturatedProduct) with units := [0, 1] }

/-- Bus cycle 1 of a module with that MMG, whose total in unit 0 has saturated in a run. -/
def State.saturatedTotal : State :=
  { State.reset.modArr 0 (fun a => { a with ops := [saturatedOp], tsw := a.tsw.set 0 (tswOf true 0 0 8 1 2) }) with
    thy := { Thyme.reset with bus := 1 } }

/-- Refutes O17: an MMG whose total has saturated in a run becomes final in bus cycle 1; that sets a bit of ARR_STATUS (R104), and the register file notes the bus cycle in which hardware has set it (R406), where `State.onlyArray` lets only the values of registers change. -/
theorem not_productPhases : ¬ Obligations.ProductPhases := by
  unfold Obligations.ProductPhases
  rintro ⟨-, -, htotals, -⟩
  have op : State.saturatedTotal.op? 0 8 = some saturatedOp := by decide +kernel
  have ecc : State.saturatedTotal.eccRanges (saturatedProduct.totalReads 0 ⟨0, 0, 0, []⟩) 0 = none := by decide +kernel
  obtain ⟨-, hmmg, -⟩ := htotals 0 8 saturatedOp saturatedProduct ⟨0, 0, 0, []⟩ [] State.saturatedTotal (by decide) op rfl rfl (Nat.zero_le _) ecc
  obtain ⟨t, ht, hframe, -⟩ := hmmg rfl
  have raised : t.regs.raisedBus = 1 :=
    exec_totalsFinal_raisedBus (by decide) rfl rfl op rfl rfl rfl (Nat.zero_le _) ecc (by decide +kernel) ht
  have kept : t.regs.raisedBus = 0 := hframe.raisedBus.trans (by rw [State.corrected_of_no_errors rfl rfl]; rfl)
  omega

end Sys2Proof.Machine
end

section
/-! What reset leaves (O2): every array as `ArrayState.reset`, every register at its table's value. -/

namespace Sys2Proof.Machine

@[simp] theorem State.resetOf_reg (d : Device) (p : List Instr) (off : Nat) :
    (State.resetOf d p).reg off = BitVec.ofNat 32 (regReset d.grade off) := rfl

/-- Every array is as after reset, an index outside the module included. -/
@[simp] theorem State.resetOf_arr (d : Device) (p : List Instr) (n : Nat) : (State.resetOf d p).arr n = ArrayState.reset :=
  List.getElem?_getD_replicate_default_eq _ 64 n

/-- Every port is as after reset, an index outside the module included. -/
@[simp] theorem State.resetOf_port (d : Device) (q : List Instr) (p : Nat) : (State.resetOf d q).port p = Port.reset :=
  List.getElem?_getD_replicate_default_eq _ 5 p

@[simp] theorem ArrayState.reset_ctx (st : Stream) : ArrayState.reset.ctx st = StreamCtx.reset := by cases st <;> rfl

/-- The status word of a unit after reset: undefined, without an owner (R103, R424). -/
theorem ArrayState.reset_tsw_getD {k : Nat} (hk : k < 64) (d : W32) : ArrayState.reset.tsw.getD k d = tswReset :=
  List.getD_replicate _ hk

/-- Settles O2: the register file, the arrays and the ports one by one, the single fields as the reset state is written. -/
theorem resetLeaves : Obligations.ResetLeaves := by
  unfold Obligations.ResetLeaves
  have idle (n : Nat) (st : Stream) : (State.reset.ctx n st).st = .idle := by
    rw [State.reset, State.ctx, State.resetOf_arr, ArrayState.reset_ctx]
    rfl
  have down (p : Nat) : (State.reset.port p).st = .down := congrArg Port.st (State.resetOf_port _ _ p)
  have free (n k : Nat) (hk : k < 64) : (State.reset.arr n).tsw.getD k 0 = 0x00FFC000#32 := by
    rw [State.reset, State.resetOf_arr, ArrayState.reset_tsw_getD hk]
    rfl
  exact ⟨State.resetOf_reg _ _, rfl, rfl, rfl, rfl, rfl, rfl, rfl, rfl, rfl, rfl, rfl, rfl, rfl, rfl,
    down, fun n st _ => idle n st, fun n k _ hk => free n k hk⟩

end Sys2Proof.Machine
end

section
/-! Retirement of a reduction (R104, R106 to R109): a tile that has saturated stays so, becomes final with its sat flag and sets a sticky bit of ARR_STATUS; the register file remembers in which bus cycle hardware set it (R406), so the frame of O18 fails. -/

namespace Sys2Proof.Machine

/-! ### The sat flag of a status word (R103) -/

/-- Bit 0 of a status word follows from sat_run and sat_total. -/
theorem tswFlags_tswOf_sat (dfn : Bool) (fmt kind owner stream flags : Nat) :
    tswFlags (tswOf dfn fmt kind owner stream flags) % 2 = bnat (flags / 2 % 4 != 0) := by
  have bit_le : bnat (flags / 2 % 4 != 0) < 2 := by cases flags / 2 % 4 != 0 <;> decide
  simp only [tswFlags, tswOf, bits, BitVec.toNat_ofNat]
  have half : flags / 2 * 2 / 2 = flags / 2 := by omega
  rw [half]
  generalize bnat (flags / 2 % 4 != 0) = sat at bit_le ⊢
  omega

/-- Raising flags lowers none: sat_run or sat_total stays set. -/
theorem or_sat_ne_zero {f : Nat} (hf : f / 2 % 4 ≠ 0) (g : Nat) : (f ||| g) / 2 % 4 ≠ 0 := by
  have parts : (f ||| g) / 2 % 4 = f / 2 % 4 ||| g / 2 % 4 := by
    rw [Nat.or_div_two, show 4 = 2 ^ 2 from rfl, Nat.or_mod_two_pow]
  rw [parts, Ne, Nat.or_eq_zero_iff]
  exact fun h => hf h.1

/-! ### The tile of a reduction -/

/-- The status word with flags raised: defined, the other fields kept (R103, R104). -/
def tswRaise (w : W32) (flags : Nat) : W32 :=
  tswOf true (tswFormat w) (tswKind w) (tswOwner w) (bits w.toNat 15 14) (tswFlags w ||| flags)

theorem ArrayState.flagTile_tswAt {a : ArrayState} {u : Nat} (hu : u < a.tsw.length) (two : Bool) (flags : Nat) :
    (a.flagTile u two flags).tswAt u = tswRaise (a.tswAt u) flags := by
  cases two <;> simp [ArrayState.flagTile, ArrayState.setTsw, ArrayState.tswAt, tswRaise, List.getD, hu]

/-- A reduction changes the status word of its tile by the flags it raises (R106 to R108). -/
theorem RedOp.apply_tswAt (p : RedOp) (m : Cells) {a : ArrayState} (hu : p.accBase < a.tsw.length) :
    ∃ flags, (p.apply m a).tswAt p.accBase = tswRaise (a.tswAt p.accBase) flags := by
  unfold RedOp.apply
  extract_lets lo hi idx es b c ws d e
  split
  case isTrue =>
    have kept : c.tsw = a.tsw := by unfold c b; split <;> rfl
    exact ⟨_, (ArrayState.flagTile_tswAt (kept ▸ hu) _ _).trans (by rw [ArrayState.tswAt, kept]; rfl)⟩
  case isFalse => exact ⟨_, ArrayState.flagTile_tswAt (a := e) hu _ _⟩

/-- A tile that has saturated keeps its sat flag through a reduction (R104). -/
theorem RedOp.apply_sat (p : RedOp) (m : Cells) {a : ArrayState} (hu : p.accBase < a.tsw.length)
    (hsat : tswFlags (a.tswAt p.accBase) / 2 % 4 ≠ 0) : tswFlags ((p.apply m a).tswAt p.accBase) % 2 = 1 := by
  obtain ⟨flags, hw⟩ := p.apply_tswAt m hu
  rw [hw, tswRaise, tswFlags_tswOf_sat, bne_iff_ne.2 (or_sat_ne_zero hsat flags)]
  rfl

/-! ### RED_RETIRE without emit -/

/-- The reduction's column, written, and its tile final (R104, R106 to R108). -/
def State.reduced (s : State) (arr : Nat) (o : Op) (p : RedOp) : State :=
  let c := s.corrected (p.reads arr o.units) arr
  (c.bumpArr arr Reg.ARR_VEC_CVT_SAT (p.inSats c.mem)).modArr arr (p.apply c.mem)

/-- A reduction whose elements have been read and correct retires (R106 to R109, R113). -/
theorem exec_redRetire_of_not_emit {s : State} {arr slot : Nat} {o : Op} {p : RedOp} (ho : s.op? arr slot = some o) (hb : o.body = .red p)
    (hat : o.readyAt ≤ s.cycle) (hq : (s.arr arr).waiting.any (fun q => q.op == o.seq) = false) (hecc : s.eccRanges (p.reads arr o.units) arr = none)
    (he : p.emit = false) : exec (.redRetire arr slot) s = .next (((s.reduced arr o p).countFinal arr p.accBase).retireOp arr o) := by
  show execRedRetire arr slot s = _
  simp only [execRedRetire, State.reduced, ho, hb, hq, hecc, he, Nat.not_lt.2 hat, decide_false, Bool.or_self, Bool.false_eq_true, if_false]

/-- Where no access corrects anything, the status word of a tile that has saturated has its sat flag behind the reduction. -/
theorem State.reduced_sat {s : State} {arr : Nat} (hn : arr < s.arrays.length) (hfar : s.tiers.soft = []) (hnear : s.tiers.nearSoft = [])
    (o : Op) (p : RedOp) (hu : p.accBase < (s.arr arr).tsw.length) (hsat : tswFlags ((s.arr arr).tswAt p.accBase) / 2 % 4 ≠ 0) :
    tswFlags (((s.reduced arr o p).arr arr).tswAt p.accBase) % 2 = 1 := by
  simp only [State.reduced, State.corrected_of_no_errors hfar hnear]
  rw [State.arr_modArr_same _ _ _ (by simpa using hn)]
  have counted : (s.bumpArr arr Reg.ARR_VEC_CVT_SAT (p.inSats s.mem)).arr arr = s.arr arr := by simp [State.arr]
  rw [counted]
  exact p.apply_sat s.mem hu hsat

/-- A saturated tile of a reduction leaves its mark on the register file. -/
theorem exec_redRetire_raisedBus {s t : State} {arr slot : Nat} {o : Op} {p : RedOp} (hn : arr < s.arrays.length)
    (hfar : s.tiers.soft = []) (hnear : s.tiers.nearSoft = []) (ho : s.op? arr slot = some o) (hb : o.body = .red p)
    (hat : o.readyAt ≤ s.cycle) (hq : (s.arr arr).waiting.any (fun q => q.op == o.seq) = false) (hecc : s.eccRanges (p.reads arr o.units) arr = none)
    (he : p.emit = false) (hu : p.accBase < (s.arr arr).tsw.length) (hsat : tswFlags ((s.arr arr).tswAt p.accBase) / 2 % 4 ≠ 0)
    (ht : exec (.redRetire arr slot) s = .next t) : t.regs.raisedBus = s.thy.bus := by
  obtain rfl := Host.Outcome.next.inj ((exec_redRetire_of_not_emit ho hb hat hq hecc he).symm.trans ht)
  have same : (s.reduced arr o p).thy = s.thy := by simp [State.reduced, State.corrected_of_no_errors hfar hnear]
  rw [State.retireOp, State.modArr_regs, State.dropOp_regs, State.countFinal_raisedBus (State.reduced_sat hn hfar hnear o p hu hsat), same]

/-! ### A saturated sum -/

/-- A RED.SUM into column 5 of the tile that starts at unit 0, which an earlier sum has left there. -/
def saturatedRedBody : BodyP := ⟨0xFFFF, 0, false, true, false, false, false, ⟨0, 64⟩⟩

/-- Its 128 rows have 128 elements each, in E4M3 at 0x10000. -/
def saturatedRedRec : RedRec := ⟨⟨1, 3, 0, false, false, 0x10000⟩, 128, 128, 5, 0, 0, false, 0, 0, ⟨0, 0, 0, false, false, 0⟩, ⟨0, 0, 0, false, false, 0⟩, 0⟩

/-- The reduction of that instruction on array 0's B stream. -/
def saturatedRed : RedOp := State.reset.mkRed saturatedHead 0 saturatedRedBody saturatedRedRec

/-- The RED.SUM in slot 8. -/
def saturatedRedOp : Op := { State.reset.newOp saturatedHead 0x28 8 0xFFFF 0 (.red saturatedRed) with units := [0] }

/-- Bus cycle 1 of a module with that RED.SUM, on a tile whose earlier sum has saturated in a run. -/
def State.saturatedSum : State :=
  { State.reset.modArr 0 (fun a => { a with ops := [saturatedRedOp], tsw := a.tsw.set 0 (tswOf true 0 0 8 1 2) }) with
    thy := { Thyme.reset with bus := 1 } }

/-- Refutes O18: a RED.SUM retires in bus cycle 1 on a tile that has saturated in a run; the tile becomes final with its sat flag, which sets a bit of ARR_STATUS (R104), and the register file notes the bus cycle in which hardware has set it (R406), where `State.onlyArray` lets only the values of registers change. -/
theorem not_reductions : ¬ Obligations.Reductions := by
  unfold Obligations.Reductions
  rintro ⟨-, hretire⟩
  have op : State.saturatedSum.op? 0 8 = some saturatedRedOp := by decide +kernel
  have ecc : State.saturatedSum.eccRanges (saturatedRed.reads 0 saturatedRedOp.units) 0 = none := by decide +kernel
  obtain ⟨t, ht, hframe, -⟩ := hretire 0 8 saturatedRedOp saturatedRed State.saturatedSum (by decide) op rfl (Nat.zero_le _) rfl ecc
  have raised : t.regs.raisedBus = 1 :=
    exec_redRetire_raisedBus (by decide) rfl rfl op rfl (Nat.zero_le _) rfl ecc rfl (by decide +kernel) (by decide +kernel) ht
  have kept : t.regs.raisedBus = 0 := hframe.raisedBus.trans (by rw [State.corrected_of_no_errors rfl rfl]; rfl)
  omega

end Sys2Proof.Machine
end

section
/-! The end of a mask operation (R130 to R132) and its report (R137): an MCOMMIT puts its record into the report ring, and that record is memory beside the writes of its result, so the frame of O22 fails. -/

namespace Sys2Proof.Machine

/-! ### The report ring (R137, R138) -/

/-- Where the next record of the report ring lies. -/
def State.reportSlot (s : State) : Nat := s.reg64 Reg.MSK_REPORT_BASE + 64 * (s.regN Reg.MSK_REPORT_HEAD % s.regN Reg.MSK_REPORT_SIZE)

/-- A report is a write to its place in the ring; what else it changes are registers. -/
theorem State.putReport_mem {s : State} (h : s.reportRing = true) (bs : List Byte) : (s.putReport bs).mem = (s.putMem s.reportSlot bs).mem := by
  unfold State.putReport
  simp only [h, if_true, State.bump_mem]
  split
  · rw [State.setBits_mem, State.bump_mem, State.reportSlot]
  · rfl

/-! ### MASK_OP_COMPLETE -/

/-- An operation whose time is over, which no lane or preload holds and whose accesses meet no error, leaves the engine with its result (R131, R132). -/
theorem exec_maskOpComplete_finished {s : State} {op : MaskOp} {at_ : Nat} (hrun : s.mask.running = some (op, at_, false)) (hat : at_ ≤ s.cycle)
    (hfar : s.tiers.soft = []) (hnear : s.tiers.nearSoft = []) (hecc : s.eccRanges (s.maskReads op.kind) = none)
    (hheld : s.maskHeld (s.maskReads op.kind) (spans (s.maskResult op).writes) = false)
    (hmerge : s.mergeBad (spans (s.maskResult op).writes) = none) (hlack : s.lacking op.step (spans (s.maskResult op).writes) = []) :
    exec .maskOpComplete s = .next ((s.maskResult op).after (s.putAll (s.maskResult op).writes).endMask) := by
  have finish : s.finishMask op at_ = (s.maskResult op).after (s.putAll (s.maskResult op).writes).endMask := by
    simp [State.finishMask, hheld, hecc, hmerge, State.corrected_of_no_errors hfar hnear, State.journaled, hlack]
  show execMaskOpComplete s = _
  simp only [execMaskOpComplete, hrun, if_neg (Nat.not_lt.2 hat), finish]

/-- The entry of a weight that has adopted the next generation (R130). -/
def Weight.adopts (w : Weight) : Weight := { w with st := .committed, gradGen := w.gen + 1 }

/-- The report of an adopting MCOMMIT: no decision and no counts (R130, R137). -/
def Weight.adoptReport (w : Weight) (m : Cells) (wt step : Nat) : List Byte :=
  ({ w with decision := none, pReq := 0, pDone := 0, gReq := 0, gDone := 0, nonfinite := false } : Weight).report wt true step
    (w.masks m w.curMask).count (w.masks m w.otherMask).count

/-- An adoption commits its weight and reports it (R130, R137). -/
theorem State.maskResult_adopt_after {s : State} {op : MaskOp} {wt tag : Nat} {w : Weight} (hk : op.kind = .adopt wt tag)
    (hw : s.weight? wt = some w) (t : State) :
    (s.maskResult op).after t = (t.modWeight wt Weight.adopts).putReport (w.adoptReport s.mem wt (t.stp.step + 1)) := by
  simp only [State.maskResult, hk, MaskKind.wt, hw]
  rfl

/-! ### An adoption in a module with a report ring -/

/-- A mask directory of one tile-row and one tile-column, without a tile, in generation `gen`. -/
def tilelessMask (base gen : Nat) : Dir := ⟨base, 1, true, 0, 2, 2, 0, true, 1, 1, 0, gen⟩

/-- A weight without a master: mask buffers at 0x101000 and 0x102000, working copies at 0x100000, its gradient plane in the slice of array 0. -/
def adopter : Weight :=
  { (bindAt [] 0).w with
    maskA := 0x101000, maskB := 0x102000, wc0 := 0x100000, wc1 := 0x100000, grad := gradBase, gen0 := 1, gen := 1, gradGen := 1 }

/-- The adoption of generation 2 of weight 7 in step 0, issued by array 0. -/
def adoption : MaskOp := ⟨.adopt 7 1, 0, 0x56, 0, 0, 0, 0, false, 0, [], false⟩

/-- A module whose engine is at the end of that adoption, with a report ring of 16 records at 0x104000. -/
def State.adopting : State :=
  { (State.reset.setReg Reg.MSK_REPORT_SIZE 16).setReg Reg.MSK_REPORT_BASE 0x104000 with
    mem := memPut (memPut [] 0x101000 (tilelessMask 0x101000 1).bytes) 0x102000 (tilelessMask 0x102000 2).bytes
    tiers := { State.reset.tiers with regions := [⟨0x100000, 0x100000, 5, 31, 7, 0⟩] }
    mask := ⟨[(7, adopter)], [], some (adoption, 0, false), []⟩ }

/-- What the adoption leaves before its report: its writes have landed, the engine is free, the weight is COMMITTED. -/
def State.adopted : State := ((State.adopting.putAll (State.adopting.maskResult adoption).writes).endMask).modWeight 7 Weight.adopts

theorem State.adopted_reportRing : State.adopted.reportRing = true := by decide +kernel

theorem State.adopted_reportSlot : State.adopted.reportSlot = 0x104000 := by decide +kernel

/-- Its report. -/
def adoptionReport : List Byte := adopter.adoptReport State.adopting.mem 7 (State.adopted.stp.step + 1)

/-- The first byte of the record is the weight's index. -/
theorem State.adopted_reportByte :
    memByte (State.adopted.putMem 0x104000 adoptionReport).mem 0x104000 = 7 := by decide +kernel

/-- Refutes O22: an adopting MCOMMIT completes in a module with a report ring and puts its record there (R137), where the statement lets memory be what the writes of `State.maskResult` make of it: the first byte of the record is the weight's index 7, and no write of the result reaches it. -/
theorem not_maskWork : ¬ Obligations.MaskWork := by
  unfold Obligations.MaskWork
  rintro ⟨-, -, -, hcomplete, -⟩
  have ecc : State.adopting.eccRanges (State.adopting.maskReads adoption.kind) = none := by decide +kernel
  have held : State.adopting.maskHeld (State.adopting.maskReads adoption.kind) (spans (State.adopting.maskResult adoption).writes) = false := by
    decide +kernel
  have merge : State.adopting.mergeBad (spans (State.adopting.maskResult adoption).writes) = none := by decide +kernel
  obtain ⟨t, ht, -, -, -, hmem, -⟩ := hcomplete adoption 0 State.adopting rfl (Nat.zero_le _) ecc held merge rfl
  have completes : exec .maskOpComplete State.adopting = .next (State.adopted.putReport adoptionReport) := by
    rw [exec_maskOpComplete_finished rfl (Nat.zero_le _) rfl rfl ecc held merge rfl, State.maskResult_adopt_after rfl rfl]
    rfl
  obtain rfl := Host.Outcome.next.inj (completes.symm.trans ht)
  have reported : memByte (State.adopted.putReport adoptionReport).mem 0x104000 = 7 := by
    rw [State.putReport_mem State.adopted_reportRing, State.adopted_reportSlot, State.adopted_reportByte]
  have unwritten : memByte (State.adopting.putAll (State.adopting.maskResult adoption).writes).mem 0x104000 = 0 := by decide +kernel
  rw [hmem, State.corrected_of_no_errors rfl rfl, unwritten] at reported
  exact absurd reported (by decide)

end Sys2Proof.Machine
end

section
/-! Frames of instructions that only move their stream or queue a message: what the common effect of issue leaves, and what an update of the stream's own context adds to it; O11. -/

namespace Sys2Proof.Machine

/-! ### The frame of the own stream -/

/-- The array of the frame `State.onlyStream`: its stream has context `c`, and its issue is noted. -/
def ArrayState.withIssued (a : ArrayState) (st : Stream) (c : StreamCtx) (cycle : Nat) : ArrayState :=
  { a.modCtx st (fun _ => c) with lastIssue := some cycle, issueSeq := a.issueSeq + 1 }

theorem ArrayState.modCtx_withIssued (a : ArrayState) (st : Stream) (c : StreamCtx) (k : Nat) (g : StreamCtx → StreamCtx) :
    (a.withIssued st c k).modCtx st g = a.withIssued st (g c) k := by cases st <;> rfl

theorem State.ctx_modCtx_same (s : State) (n : Nat) (st : Stream) (g : StreamCtx → StreamCtx) (hl : n < s.arrays.length) :
    (s.modCtx n st g).ctx n st = g (s.ctx n st) := by
  simp [State.ctx, State.modCtx, State.arr_modArr_same, hl]

theorem State.onlyStream_issued (s : State) (h : Head) (i : IssueInfo) (hl : h.arr < s.arrays.length) : s.onlyStream (s.issued h i) h := by
  refine ⟨s.onlyArray_issued h i, s.reg_issued h i, ?_⟩
  rw [State.issued_ctx s h i hl, State.issued_arr s h i hl]
  cases h.stream <;> rfl

/-- A further change of the own context keeps the frame. -/
theorem State.onlyStream.modCtx {s t : State} {h : Head} (ht : s.onlyStream t h) (hl : h.arr < s.arrays.length) (g : StreamCtx → StreamCtx) :
    s.onlyStream (t.modCtx h.arr h.stream g) h := by
  obtain ⟨harray, hregs, harr⟩ := ht
  obtain ⟨-, hlen, -⟩ := id harray
  have hlt : h.arr < t.arrays.length := hlen ▸ hl
  refine ⟨State.onlyArray_modArr harray _, hregs, ?_⟩
  rw [State.ctx_modCtx_same t _ _ g hlt]
  calc (t.modCtx h.arr h.stream g).arr h.arr = (t.arr h.arr).modCtx h.stream g := State.arr_modArr_same t _ _ hlt
    _ = ((s.arr h.arr).withIssued h.stream (t.ctx h.arr h.stream) s.cycle).modCtx h.stream g := congrArg (ArrayState.modCtx · h.stream g) harr
    _ = _ := ArrayState.modCtx_withIssued ..

/-! ### RCALL (R142, R144, R268) -/

/-- The needs of an RCALL. -/
def State.rcallInfo (s : State) (h : Head) (ref : SRef) (r : RcallRec) : IssueInfo :=
  { IssueInfo.simple 0x03 [r.stepReg.toNat] with
    streams := [.b]
    noRecompute := true
    record := some (ref, 64)
    check := s.rcallCheck h r
    target := some r.code.toNat }

/-- The recompute that an RCALL begins. -/
def StreamCtx.rcallRange (c : StreamCtx) (r : RcallRec) : Recompute :=
  ⟨r.code.toNat, r.count.toNat, c.pc + 16, r.delta.toInt, (c.sreg r.stepReg.toNat).toNat % 2 ^ 48⟩

/-- A range that is not empty, aligned and inside F's code region passes the checks of RCALL (R144). -/
theorem State.rcallCheck_none {s : State} {h : Head} {r : RcallRec} {i : Nat} {g : Region} (hcount : r.count ≠ 0) (halign : r.code.toNat % 16 = 0)
    (hregion : (s.arr h.arr).f.codeRegion = some i) (hg : s.tiers.regions[i]? = some g) (hin : r.code.toNat + 16 * r.count.toNat ≤ g.size) :
    s.rcallCheck h r = none := by
  have nonempty : r.count ≠ 0#16 := hcount
  simp [State.rcallCheck, nonempty, halign, hregion, hg, Nat.not_lt.2 hin]

/-- An RCALL whose checks pass issues from outside a range. -/
theorem State.rcall_issuesClean {s : State} {h : Head} {ref : SRef} {r : RcallRec} (hc : s.clear h [r.stepReg.toNat] = true) (hb : h.stream = .b)
    (hnone : (s.ctx h.arr h.stream).recompute = none) (hrec : s.recordInside h ref 64 = true) (hk : s.rcallCheck h r = none) :
    s.issuesClean h (s.rcallInfo h ref r) 0 :=
  State.issuesClean_of hc (by simp [State.rcallInfo, hb]) rfl (fun _ => hnone) rfl rfl
    (fun _ _ he => by cases he; exact hrec) rfl rfl (fun _ _ => by simp [StreamCtx.leavesRange, hnone]) hk

/-- RCALL from a clean fetch sets the recompute flag behind the common effect of issue. -/
theorem exec_rcall_clean {s : State} {h : Head} {ref : SRef} {r : RcallRec} (hi : s.issuesClean h (s.rcallInfo h ref r) 0) :
    exec (.rcall h ref r) s = .next ((s.issued h (s.rcallInfo h ref r)).modCtx h.arr h.stream
      (fun d => { d with recompute := some ((s.ctx h.arr h.stream).rcallRange r) })) :=
  issue_clean (fun _ t => t.modCtx h.arr h.stream (fun d => { d with recompute := some ((s.ctx h.arr h.stream).rcallRange r) })) hi

/-- Settles O11: the checks pass, the common effect of issue moves the pc to the range, and the own effect touches nothing but the recompute flag of the B stream. -/
theorem rcallResult : Obligations.RcallResult := by
  unfold Obligations.RcallResult
  intro h ref r s i g hc hb hnone hrec hcount halign hregion hg hin
  rw [← hb] at hnone ⊢
  have hl := State.clear_lt hc
  have hi := State.rcall_issuesClean hc hb hnone hrec (State.rcallCheck_none hcount halign hregion hg hin)
  refine ⟨_, exec_rcall_clean hi, (s.onlyStream_issued h _ hl).modCtx hl _, ?_⟩
  rw [State.ctx_modCtx_same _ _ _ _ (by simpa using hl), State.issued_ctx s h _ hl]
  simp [State.rcallInfo, StreamCtx.movePc, hnone, StreamCtx.rcallRange, StreamCtx.sreg]

end Sys2Proof.Machine
end

section
/-! RSEND and RRECV (R143, R306, R321, R327, R363): issue puts a message into its context and moves the stream on; O31. -/

namespace Sys2Proof.Machine

/-! ### Streams after issue -/

/-- Moving the pc counts neither fused tiles nor claims. -/
theorem StreamCtx.movePc_fused (c : StreamCtx) (target : Option Nat) (now pen : Nat) :
    (c.movePc target now pen).fusedMade = c.fusedMade ∧ (c.movePc target now pen).fusedClaimed = c.fusedClaimed := by
  unfold StreamCtx.movePc
  extract_lets npc
  split
  · split <;> exact ⟨rfl, rfl⟩
  · exact ⟨rfl, rfl⟩

/-- The context past an instruction has counted what it had. -/
theorem StreamCtx.past_fused (c : StreamCtx) : { c.past with fusedMade := c.fusedMade, fusedClaimed := c.fusedClaimed } = c.past := by
  unfold StreamCtx.past
  split <;> rfl

theorem State.ctx_issued_ne (s : State) (h : Head) (i : IssueInfo) (hl : h.arr < s.arrays.length) {st : Stream} (hst : st ≠ h.stream) :
    (s.issued h i).ctx h.arr st = s.ctx h.arr st := by
  unfold State.ctx
  rw [State.issued_arr s h i hl]
  exact ArrayState.ctx_modCtx_ne _ _ _ _ hst

/-- Without a target the stream is past its instruction (R293). -/
theorem State.issued_past (s : State) (h : Head) (i : IssueInfo) (hl : h.arr < s.arrays.length) (ht : i.target = none) :
    ((s.issued h i).ctx h.arr h.stream).sameAs (s.ctx h.arr h.stream).past := by
  rw [State.issued_ctx s h i hl, ht]
  exact StreamCtx.movePc_none _ _ _

theorem State.movedOn_issued (s : State) (h : Head) (i : IssueInfo) (hl : h.arr < s.arrays.length) (ht : i.target = none) :
    s.movedOn (s.issued h i) h := by
  obtain ⟨made, claimed⟩ := (s.ctx h.arr h.stream).movePc_fused i.target s.cycle (s.lat 0x33)
  refine ⟨?_, fun st hst => s.ctx_issued_ne h i hl hst⟩
  have hpast := s.issued_past h i hl ht
  rw [State.issued_ctx s h i hl] at hpast ⊢
  simpa only [made, claimed, StreamCtx.past_fused] using hpast

/-- Whether a stream has moved on is told by the arrays. -/
theorem State.movedOn.of_arrays {s t u : State} {h : Head} (ht : s.movedOn t h) (hu : u.arrays = t.arrays) : s.movedOn u h := by
  have hctx : ∀ n st, u.ctx n st = t.ctx n st := fun n st => by simp [State.ctx, State.arr, hu]
  simpa only [State.movedOn, hctx] using ht

/-! ### Uses and contexts -/

theorem State.recordUses_arrays (s : State) (n : Nat) (os : List ObjInfo) : (s.recordUses n os).arrays = s.arrays :=
  foldl_keeps (f := State.arrays) (g := fun s o => s.recordUse n o) (fun _ _ => rfl) os s

theorem State.recordUses_mem (s : State) (n : Nat) (os : List ObjInfo) : (s.recordUses n os).mem = s.mem :=
  foldl_keeps (f := State.mem) (g := fun s o => s.recordUse n o) (fun _ _ => rfl) os s

theorem State.recordUses_ring (s : State) (n : Nat) (os : List ObjInfo) : (s.recordUses n os).ring = s.ring :=
  foldl_keeps (f := State.ring) (g := fun s o => s.recordUse n o) (fun _ _ => rfl) os s

/-- A changed context entry. -/
theorem State.ctxE?_modCtxE (s : State) (i : Nat) (g : CtxEntry → CtxEntry) : (s.modCtxE i g).ctxE? i = (s.ctxE? i).map g := by
  have key : ((fun c : Nat × CtxEntry => c.1 == i) ∘ fun c => if c.1 == i then (c.1, g c.2) else c) = fun c => c.1 == i := by
    funext c
    by_cases hc : c.1 = i <;> simp [hc]
  simp only [State.ctxE?, State.modCtxE, List.find?_map, key]
  cases hfind : s.ring.ctxs.find? (fun c => c.1 == i) with
  | none => rfl
  | some c =>
    have hkey : c.1 = i := by simpa using List.find?_some hfind
    simp [hkey]

/-! ### Messages -/

/-- The message of an RSEND. -/
def State.sendMsg (s : State) (h : Head) (r : RingRec) : Send :=
  ⟨h.arr, h.stream, (s.ctx h.arr h.stream).pc, s.markOf h, s.markOf h + h.delta.toNat, (s.ctx h.arr h.stream).curStep, s.headLate h, r.tag.toNat,
    r.len.toNat, (s.ctx h.arr h.stream).oref r.buf, r.port.toNat, false, s.cycle + s.lat 0x37, s.cycle,
    (s.readObjs [((s.ctx h.arr h.stream).oref r.buf, r.len.toNat)]).map (·.obj)⟩

/-- The message of an RRECV. -/
def State.recvMsg (s : State) (h : Head) (r : RingRec) : Recv :=
  ⟨h.arr, h.stream, (s.ctx h.arr h.stream).pc, s.markOf h, s.markOf h + h.delta.toNat, (s.ctx h.arr h.stream).curStep, s.headLate h, r.tag.toNat,
    r.len.toNat, (s.ctx h.arr h.stream).oref r.buf, r.port.toNat, r.add, 0, (s.arr h.arr).issueSeq, [], [], false, s.cycle + s.lat 0x37, s.cycle,
    (s.readObjs [((s.ctx h.arr h.stream).oref r.buf, r.len.toNat)]).map (·.obj)⟩

/-- What a context becomes when a send is put in: on an OPEN one it is queued, on another nothing happens (R321, R327). -/
def CtxEntry.withSend (c : CtxEntry) (period : Nat) (x : Send) : CtxEntry :=
  if c.st == .open_ then { c.touch period with sends := insertMessage (fun y => (y.at_, y.arr)) x c.sends } else c

/-- What a context becomes when a receive is put in. -/
def CtxEntry.withRecv (c : CtxEntry) (period : Nat) (x : Recv) : CtxEntry :=
  if c.st == .open_ then { c.touch period with recvs := insertMessage (fun y => (y.at_, y.arr)) x c.recvs } else c

/-- A touch changes only the period from which silence counts. -/
theorem CtxEntry.touch_eq (c : CtxEntry) (p : Nat) : c.touch p = { c with lastFrame := (c.touch p).lastFrame } := by
  unfold CtxEntry.touch
  split <;> rfl

/-- What a send put into a context changes of it. -/
theorem CtxEntry.withSend_eq (c : CtxEntry) (p : Nat) (x : Send) :
    c.withSend p x = { c with
      sends := if c.st = .open_ then insertMessage (fun y => (y.at_, y.arr)) x c.sends else c.sends
      lastFrame := (c.withSend p x).lastFrame } := by
  unfold CtxEntry.withSend
  rw [CtxEntry.touch_eq]
  by_cases hst : c.st = .open_ <;> simp [hst]

/-- What a receive put into a context changes of it. -/
theorem CtxEntry.withRecv_eq (c : CtxEntry) (p : Nat) (x : Recv) :
    c.withRecv p x = { c with
      recvs := if c.st = .open_ then insertMessage (fun y => (y.at_, y.arr)) x c.recvs else c.recvs
      lastFrame := (c.withRecv p x).lastFrame } := by
  unfold CtxEntry.withRecv
  rw [CtxEntry.touch_eq]
  by_cases hst : c.st = .open_ <;> simp [hst]

/-! ### The effect of issue -/

/-- From `s` to `t` the stream of `h` has moved on and context `i` has become `c`; memory, the other arrays and the rest of the ring engine are as before. -/
structure State.messaged (s t : State) (h : Head) (i : Nat) (c : CtxEntry) : Prop where
  moved : s.movedOn t h
  mem : t.mem = s.mem
  others : ∀ m, m ≠ h.arr → t.arr m = s.arr m
  ring : t.ring = { s.ring with ctxs := t.ring.ctxs }
  entry : t.ctxE? i = some c

/-- A message issues by a change of its context behind the common effect of issue. -/
theorem State.messaged_issued {s u : State} {h : Head} {info : IssueInfo} {i : Nat} {c : CtxEntry} {g : CtxEntry → CtxEntry}
    (hl : h.arr < s.arrays.length) (ht : info.target = none) (hc : s.ctxE? i = some c)
    (harrays : u.arrays = (s.issued h info).arrays) (hmem : u.mem = s.mem) (hring : u.ring = s.ring) :
    s.messaged (u.modCtxE i g) h i (g c) where
  moved := (s.movedOn_issued h info hl ht).of_arrays harrays
  mem := hmem
  others m hm := by
    have harr : (u.modCtxE i g).arr m = (s.issued h info).arr m := congrArg (·.getD m ArrayState.reset) harrays
    exact harr.trans (State.issued_arr_ne s h info m hm)
  ring := by simp [State.modCtxE, hring]
  entry := by
    have hu : u.ctxE? i = some c := by rw [State.ctxE?, hring]; exact hc
    rw [State.ctxE?_modCtxE, hu]
    rfl

/-- An instruction that issues stands in an array of the module. -/
theorem State.issuesClean.lt {s : State} {h : Head} {i : IssueInfo} {slot : Nat} (hi : s.issuesClean h i slot) : h.arr < s.arrays.length := by
  obtain ⟨⟨hready, -⟩, -⟩ := hi
  obtain ⟨hlive, -⟩ := State.ready_parts hready
  simp only [State.streamLive, Bool.and_eq_true, decide_eq_true_eq] at hlive
  obtain ⟨⟨⟨⟨⟨-, hlt⟩, -⟩, -⟩, -⟩, -⟩ := hlive
  exact hlt

/-- The own effect of an RSEND: the uses of what it reads, and the message in its context (R229, R321). -/
def State.putSend (s : State) (h : Head) (r : RingRec) (t : State) : State :=
  (t.recordUses h.arr (if (t.ctxE? r.ctx.toNat).any (·.st == .open_)
    then s.readObjs [((s.ctx h.arr h.stream).oref r.buf, r.len.toNat)] else [])).modCtxE r.ctx.toNat (·.withSend s.period (s.sendMsg h r))

/-- Outside a recompute RSEND is the issue of its message. -/
theorem exec_rsend_outside {s : State} {h : Head} (ref : SRef) (r : RingRec) (hnone : (s.ctx h.arr h.stream).recompute.isSome = false) :
    exec (.rsend h ref r) s = issue h (s.ringInfo h ref r false) (fun _ t => s.putSend h r t) s := by
  show execRsend h ref r s = _
  simp only [execRsend, hnone, Bool.false_eq_true, if_false]
  rfl

/-- An RSEND that issues outside a recompute (R321, R327). -/
theorem exec_rsend_clean {s : State} {h : Head} {ref : SRef} {r : RingRec} {c : CtxEntry} (hc : s.ctxE? r.ctx.toNat = some c)
    (hnone : (s.ctx h.arr h.stream).recompute = none) (hi : s.issuesClean h (s.ringInfo h ref r false) 0) :
    ∃ t, exec (.rsend h ref r) s = .next t ∧ s.messaged t h r.ctx.toNat (c.withSend s.period (s.sendMsg h r)) := by
  have outside : (s.ctx h.arr h.stream).recompute.isSome = false := by rw [hnone]; rfl
  refine ⟨_, (exec_rsend_outside ref r outside).trans (issue_clean _ hi), ?_⟩
  refine State.messaged_issued (info := s.ringInfo h ref r false) hi.lt rfl hc ?_ ?_ ?_
  · exact State.recordUses_arrays _ _ _
  · exact (State.recordUses_mem _ _ _).trans (State.issued_mem s h _)
  · exact (State.recordUses_ring _ _ _).trans (State.issued_ring s h _)

/-- An RRECV that issues (R321, R327). -/
theorem exec_rrecv_clean {s : State} {h : Head} {ref : SRef} {r : RingRec} {c : CtxEntry} (hc : s.ctxE? r.ctx.toNat = some c)
    (hi : s.issuesClean h (s.ringInfo h ref r true) 0) :
    ∃ t, exec (.rrecv h ref r) s = .next t ∧ s.messaged t h r.ctx.toNat (c.withRecv s.period (s.recvMsg h r)) :=
  ⟨_, issue_clean (fun _ t => t.modCtxE r.ctx.toNat (·.withRecv s.period (s.recvMsg h r))) hi,
    State.messaged_issued (info := s.ringInfo h ref r true) hi.lt rfl hc rfl (State.issued_mem s h _) (State.issued_ring s h _)⟩

/-! ### Reserved formats and recomputes -/

/-- What an RSEND under the recompute flag needs (R143). -/
def rsendRecomputeInfo (ref : SRef) (r : RingRec) : IssueInfo :=
  { IssueInfo.simple 0x80 [] with record := some (ref, 64), decodeBad := ringBadFormat r }

/-- Under the recompute flag RSEND is a plain instruction (R143). -/
theorem exec_rsend_recompute {s : State} {h : Head} (ref : SRef) (r : RingRec) (hrec : (s.ctx h.arr h.stream).recompute.isSome = true) :
    exec (.rsend h ref r) s = issue h (rsendRecomputeInfo ref r) (fun _ t => t) s := by
  show execRsend h ref r s = _
  simp only [execRsend, hrec, if_true]
  rfl

/-- The row of a decode fault that another rule states, where the rows of R290 pass. -/
theorem State.decodeRow_decodeBad {s : State} {h : Head} {i : IssueInfo} (hc : s.clear h [] = true) (hs : h.stream ∈ i.streams)
    (hm : i.modOk = true) (hn : i.noRecompute = false) (hg : i.regsOk = true) : s.decodeRow h i = i.decodeBad := by
  obtain ⟨hready, -⟩ := State.clear_parts hc
  obtain ⟨-, -, -, -, -, hop, -⟩ := State.ready_parts hready
  simp [State.decodeRow, hop, hs, hm, hn, hg]

theorem mem_allStreams (st : Stream) : st ∈ allStreams := by cases st <;> decide

/-- An RSEND whose buffer names a reserved format code faults at decode (R20), inside a recompute and outside. -/
theorem exec_rsend_badFormat {s : State} {h : Head} {ref : SRef} {r : RingRec} {row : Nat} (hbad : ringBadFormat r = some row)
    (hc : s.clear h [] = true) (hrec : s.recordInside h ref 64 = true) :
    ∃ object, exec (.rsend h ref r) s = .next (s.faultHead h (s.issueFault h 0x80 object 0x24 row 0)) := by
  cases hr : (s.ctx h.arr h.stream).recompute with
  | some q =>
    have hrow : s.decodeRow h (rsendRecomputeInfo ref r) = some row :=
      (State.decodeRow_decodeBad hc (mem_allStreams _) rfl rfl rfl).trans hbad
    exact ⟨_, (exec_rsend_recompute ref r (by simp [hr])).trans
      (issue_fault _ (verdict_row hc (fun _ _ he => by cases he; exact hrec) hrow))⟩
  | none =>
    have hrow : s.decodeRow h (s.ringInfo h ref r false) = some row :=
      (State.decodeRow_decodeBad hc (mem_allStreams _) rfl rfl rfl).trans hbad
    exact ⟨_, (exec_rsend_outside ref r (by simp [hr])).trans
      (issue_fault _ (verdict_row hc (fun _ _ he => by cases he; exact hrec) hrow))⟩

/-- Settles O31: the message is inserted into its context where that is OPEN, behind the common effect of issue; a reserved format is row `decodeBad` of decode, and under the recompute flag RSEND has no effect of its own. -/
theorem messageIssue : Obligations.MessageIssue := by
  unfold Obligations.MessageIssue
  intro h ref r c s hctx
  refine ⟨fun hnone hi => ?_, fun hi => ?_, fun row hbad hc hrec _ => ?_, fun hrecompute hformat hc hrec => ?_⟩
  · obtain ⟨t, ht, hm⟩ := exec_rsend_clean hctx hnone hi
    rw [CtxEntry.withSend_eq] at hm
    exact ⟨t, _, s.sendMsg h r, ht, hm.moved, hm.mem, hm.others, hm.ring, hm.entry, rfl, rfl, rfl, rfl, rfl, rfl, rfl, rfl, rfl, rfl⟩
  · obtain ⟨t, ht, hm⟩ := exec_rrecv_clean hctx hi
    rw [CtxEntry.withRecv_eq] at hm
    exact ⟨t, _, s.recvMsg h r, ht, hm.moved, hm.mem, hm.others, hm.ring, hm.entry, rfl, rfl, rfl, rfl, rfl, rfl, rfl, rfl, rfl, rfl, rfl⟩
  · obtain ⟨object, ht⟩ := exec_rsend_badFormat hbad hc hrec
    exact ⟨_, ht, rfl, rfl⟩
  · have hi : s.issuesClean h (rsendRecomputeInfo ref r) 0 :=
      State.issuesClean_of hc (mem_allStreams _) rfl nofun rfl hformat (fun _ _ he => by cases he; exact hrec) rfl rfl nofun rfl
    exact ⟨_, (exec_rsend_recompute ref r hrecompute).trans (issue_clean _ hi), s.onlyStream_issued h _ hi.lt, State.issued_ring s h _⟩

end Sys2Proof.Machine
end

section
/-! An append into a block that does not correct (R216, R217): the fault of its partial write forms a STOP report about the module itself, and the report retires the receives of a context whose partner is the module, whose buffers become free values (R340). These bytes are no destination of the append, so the frame of O29 fails. -/

namespace Sys2Proof.Machine

/-! ### A write inside an uncorrectable block (R217) -/

/-- The fault of a write of `n` bytes at `a` whose merge does not correct in block `b` (R216, R217). -/
def State.mergeFault (s : State) (a n b : Nat) : FaultRec :=
  let x := (s.mergeBad [(a, n)]).getD (0x51, b * 2048)
  { FaultRec.of x.1 8 with addr := x.2, aux := s.faultAux 0xFF x.1 x.2 }

/-- A write inside one block that does not correct lands nowhere and faults. -/
theorem State.putMem_unmergeable {s : State} {a : Nat} {bs : List Byte} (hfar : s.tiers.soft = []) (hnear : s.tiers.nearSoft = [])
    (hbad : s.unmergeable a bs.length = [a / 2048]) (hin : (a + bs.length - 1) / 2048 = a / 2048) :
    s.putMem a bs = s.raise (s.mergeFault a bs.length (a / 2048)) := by
  have nothing : min (a + bs.length) (a / 2048 * 2048) - max a ((a / 2048 + 1) * 2048) = 0 := by omega
  simp [State.putMem, State.corrected_of_no_errors hfar hnear, hbad, hin, nothing, State.putPlain, State.mergeFault]

/-! ### Reports about the module itself (R340, R427) -/

/-- The report that a fault forms in a module that has not yet reported one: the merge table with the report in it, and its new entry (R338, R339, R427). -/
def State.reporting (s : State) (r : FaultRec) : State × Option Merge :=
  let t := s.recordFault r
  let u := { t with flt := { t.flt with beaconSent := true } }
  (u.tellsLoss (t.reportSubject r) r.code).enterReport (t.reportSubject r) r.code

theorem State.InvTo.reporting {s : State} {r : FaultRec} {b : Nat} (hs : s.InvTo b) : (s.reporting r).1.InvTo b :=
  hs.recordFault.withFlt.tellsLoss.enterReport

/-- A report whose new entry is about a member of the job, and does not say that the twin is lost, acts (R340, R353). -/
theorem State.raise_acts {s : State} {r : FaultRec} {e : Merge} (hrun : (s.recordFault r).host.st = .running)
    (hfirst : (s.recordFault r).flt.beaconSent = false) (he : (s.reporting r).2 = some e) (hacts : e.acted = true)
    (htwin : (s.reporting r).1.losesTwin e = false) : s.raise r = (s.reporting r).1.actOn e := by
  have hraise : s.raise r = State.settleEntry (s.reporting r) := by
    simp only [State.raise, hrun, hfirst]
    rfl
  simp [hraise, State.settleEntry, State.entryActs, he, hacts, htwin]

/-- The receives that stand in contexts with a partner. -/
def State.recvsWith (s : State) (partner : Nat) : List Recv :=
  s.ring.ctxs.flatMap (fun c => if c.2.partner == partner then c.2.recvs else [])

/-- Memory is no part of what frames and the master's duties change. -/
theorem sendFree_mem : SendFree State.mem := ⟨fun _ _ => rfl, fun _ _ => rfl, fun _ _ _ _ _ _ => rfl⟩

/-- Memory is no part of what an event changes. -/
theorem eventFree_mem : EventFree State.mem := .of_unread fun _ _ _ _ => rfl

/-- The one receive of a partner that is given up leaves free values in its buffer (R340). -/
theorem State.releasePartner_mem {s : State} {a : Nat} {r : Recv} (hr : s.recvsWith a = [r]) :
    (s.releasePartner a).mem = memPut s.mem r.buf (s.freeBytes r.len) := by
  unfold State.recvsWith at hr
  unfold State.releasePartner
  rw [hr]
  exact sendFree_mem.releaseHeld _ r

/-- So does the action on a report about that partner: the rest of it is holds and events. -/
theorem State.actOn_mem {s : State} {e : Merge} {r : Recv} (hr : s.recvsWith e.subject = [r]) :
    (s.actOn e).mem = memPut s.mem r.buf (s.freeBytes r.len) := by
  have released : (({ s with flt := { s.flt with stopAsked := true } } : State).releasePartner e.subject).holdOff.mem =
      memPut s.mem r.buf (s.freeBytes r.len) :=
    (sendFree_mem.holdOff _).trans (State.releasePartner_mem (s := { s with flt := { s.flt with stopAsked := true } }) hr)
  unfold State.actOn
  extract_lets x s₁ s₂ s₃
  have dropped : s₃.mem = memPut s.mem r.buf (s.freeBytes r.len) := Eq.trans (keeps_onlyIf (sendFree_mem.masterHoldOff s₂ _)) released
  exact keeps_ite (f := State.mem) dropped ((eventFree_mem.writeEntry _ _).trans ((eventFree_mem.countEvent _).trans dropped))

/-- The first byte of that buffer is the next free byte. -/
theorem State.actOn_firstByte {s : State} {e : Merge} {r : Recv} (hwf : Memory.wf s.mem) (hr : s.recvsWith e.subject = [r]) (hlen : 0 < r.len) :
    memByte (s.actOn e).mem r.buf = Config.freeByte s.freeCtr := by
  rw [State.actOn_mem hr, memByte_memPut _ _ _ _ hwf]
  simp [State.freeBytes, hlen]

end Sys2Proof.Machine
end

section
/-! O29: the append of 128 time steps of which the last lies in a block that does not correct, in a running module with a receive from itself. -/

namespace Sys2Proof.Machine

/-! ### An append whose last row meets an uncorrectable block -/

/-- A sequence entry of one block for 64 arrays, rows of 32 bytes, pages of 128 steps from 0x301020, head 0 (R223). -/
def loopEntry : List Byte :=
  leBytes 4 9 ++ leBytes 2 1 ++ leBytes 2 64 ++ leBytes 4 32 ++ leBytes 4 32 ++ leBytes 4 128 ++ leBytes 4 4 ++ leBytes 8 0x301020 ++
    leBytes 8 0 ++ leBytes 4 0 ++ leBytes 4 0x10000 ++ zeros 16

/-- The append of 128 rows from the scratchpad of array 0 to that entry, in slot 0. -/
def loopAppend : Op :=
  ⟨0, .f, 0x70, 0, 0, 0, 0, 0xFFFF, 0, none, none, 0, [], [], 0, false, .ctxAppend 0x300040 0 0 0x100000000000 64 128⟩

/-- A receive of 32 bytes at 0x400000. -/
def loopRecv : Recv := ⟨0, .f, 0, 0, 0, 0, false, 7, 32, 0x400000, 0, false, 0, 0, [], [], true, 0, 0, []⟩

/-- A running module at ring address 0, a member of its job, with an OPEN context to itself and a receive on it; the append is in flight, the block at 0x302000 does not correct, and the first byte of the receive's buffer is `v`. -/
def State.loopback (v : Byte) : State :=
  { State.reset.modArr 0 (fun a => { a with ops := [loopAppend], issueSeq := 1 }) with
    mem := memSet (memPut (memPut [] 0x300000 (leBytes 4 1 ++ leBytes 4 1)) 0x300040 loopEntry) 0x400000 v
    host := { HostIf.reset with st := .running }
    tiers := { State.reset.tiers with
      regions := [⟨0x300000, 0x100000, 3, 31, 7, 0⟩, ⟨0x400000, 0x100000, 5, 31, 7, 0⟩]
      bad := [0x302000 / 2048] }
    ring := { Ring.reset with members := 1, ctxs := [(5, ⟨.open_, 0, 5, 0, false, [], [loopRecv], [], 0, 0, false⟩)] } }

/-- The writes of the append. -/
def loopRows (v : Byte) : List (Nat × List Byte) := (State.loopback v).appendWrites 0x300040 0 0 0x100000000000 64 128

/-- All its rows but the last have landed. -/
def State.loopLanded (v : Byte) : State := (State.loopback v).putAll ((loopRows v).take 127)

/-- The fault of the last row. -/
def loopFault (v : Byte) : FaultRec := (State.loopLanded v).mergeFault 0x302000 32 (0x302000 / 2048)

/-- What its report enters. -/
def loopReport (v : Byte) : State × Option Merge := (State.loopLanded v).reporting (loopFault v)

/-- The module meets the invariant. -/
theorem State.loopback_inv (v : Byte) : (State.loopback v).InvTo 0 :=
  have empty : Memory.wf [] := ⟨.nil, nofun⟩
  { (State.InvTo.resetOf Device.reset []).modArr (n := 0) (g := fun a => { a with ops := [loopAppend], issueSeq := 1 }) with
    mem := memSet_wf _ _ _ (memPut_wf _ _ _ (memPut_wf _ _ _ empty))
    ports := rfl }

/-- Its merge entry: about module 0, class 0x51. -/
def loopMerge : Merge := ⟨0, 0x51, 1, 0, 0, some 8, 5, true⟩

/-- The append ends with its last row, the only one in the block that does not correct. -/
theorem loopRows_split {v : Byte} (hv : v ∈ [1#8, 2#8]) : loopRows v = (loopRows v).take 127 ++ [(0x302000, zeros 32)] := by
  revert v
  decide +kernel

/-- That row lands nowhere and faults (R217). -/
theorem State.loopback_putAll {v : Byte} (hv : v ∈ [1#8, 2#8]) :
    (State.loopback v).putAll (loopRows v) = (State.loopLanded v).raise (loopFault v) := by
  have errors : ∀ v ∈ [1#8, 2#8], (State.loopLanded v).tiers.soft = [] ∧ (State.loopLanded v).tiers.nearSoft = [] ∧
      (State.loopLanded v).unmergeable 0x302000 32 = [0x302000 / 2048] := by decide +kernel
  obtain ⟨hfar, hnear, hbad⟩ := errors v hv
  have last : (State.loopLanded v).putMem 0x302000 (zeros 32) = (State.loopLanded v).raise (loopFault v) :=
    State.putMem_unmergeable hfar hnear hbad rfl
  rw [loopRows_split hv, State.putAll, List.foldl_append]
  exact last

/-- Its fault reports the module itself, and the report acts (R340, R427). -/
theorem State.loopback_acts {v : Byte} (hv : v ∈ [1#8, 2#8]) :
    (State.loopLanded v).raise (loopFault v) = (loopReport v).1.actOn loopMerge := by
  have reports : ∀ v ∈ [1#8, 2#8], ((State.loopLanded v).recordFault (loopFault v)).host.st = .running ∧
      ((State.loopLanded v).recordFault (loopFault v)).flt.beaconSent = false ∧ (loopReport v).2 = some loopMerge ∧
      (loopReport v).1.losesTwin loopMerge = false := by decide +kernel
  obtain ⟨hrun, hfirst, hentry, htwin⟩ := reports v hv
  exact State.raise_acts hrun hfirst hentry rfl htwin

/-- After the append the first byte of the receive's buffer is a free value, whatever it was. -/
theorem State.loopback_freeByte {v : Byte} (hv : v ∈ [1#8, 2#8]) :
    memByte ((State.loopback v).putAll (loopRows v)).mem 0x400000 = Config.freeByte 0 := by
  have receive : ∀ v ∈ [1#8, 2#8], (loopReport v).1.recvsWith 0 = [loopRecv] ∧ (loopReport v).1.freeCtr = 0 := by decide +kernel
  obtain ⟨hrecv, hctr⟩ := receive v hv
  have hwf : Memory.wf (loopReport v).1.mem := (State.loopback_inv v).putAll.reporting.mem
  have released : memByte ((loopReport v).1.actOn loopMerge).mem loopRecv.buf = Config.freeByte (loopReport v).1.freeCtr :=
    State.actOn_firstByte (e := loopMerge) hwf hrecv (by decide)
  rw [State.loopback_putAll hv, State.loopback_acts hv, ← hctr]
  exact released

/-- The frame that O29 states for an append keeps that byte. -/
theorem State.loopback_kept (hall : Obligations.ContextStore) {v : Byte} (hv : v ∈ [1#8, 2#8]) :
    memByte ((State.loopback v).putAll (loopRows v)).mem 0x400000 = v := by
  unfold Obligations.ContextStore at hall
  obtain ⟨-, hretire, -⟩ := hall
  have premises : ∀ v ∈ [1#8, 2#8], (State.loopback v).op? 0 0 = some loopAppend ∧
      (State.loopback v).eccBad 0x100000000000 (appendSpan (seqAt (State.loopback v).mem 0x300040) 64 128) 0 = none ∧
      (∀ o ∈ ((State.loopback v).arr 0).ops, o = loopAppend) ∧ memByte (State.loopback v).mem 0x400000 = v ∧
      ∀ w ∈ loopRows v, 0x400000 < w.1 ∨ w.1 + w.2.length ≤ 0x400000 := by decide +kernel
  obtain ⟨hop, hecc, hops, hbyte, hrows⟩ := premises v hv
  have inModule : 0 < (State.loopback v).arrays.length := by
    simp [State.loopback, State.reset, State.resetOf]
  obtain ⟨t, -, -, -, hframe⟩ := hretire 0 0 0x300040 0 0 0x100000000000 64 128 loopAppend (State.loopback v) inModule hop rfl (Nat.zero_le _) hecc rfl
  obtain ⟨hmem, hkeeps⟩ := hframe fun o ho e k => by
    rw [hops o ho]
    nofun
  rw [State.corrected_of_no_errors rfl rfl] at hmem
  have kept : memByte t.mem 0x400000 = memByte (State.loopback v).mem 0x400000 := hkeeps nofun 0x400000 hrows
  calc memByte ((State.loopback v).putAll (loopRows v)).mem 0x400000 = memByte t.mem 0x400000 := congrArg (memByte · 0x400000) hmem.symm
    _ = v := kept.trans hbyte

/-- Refutes O29: where the last row of an append lies in a block that does not correct, its partial write faults (R217), and the STOP report of the fault retires the receive of a context whose partner is the module itself, whose buffer becomes free values (R340); the statement lets no byte but the rows change. The free value is the same for two modules that differ in the first byte of that buffer alone, so one of them refutes the frame. -/
theorem not_contextStore : ¬ Obligations.ContextStore := by
  intro hall
  have one : Config.freeByte 0 = 1#8 := (State.loopback_freeByte (by decide)).symm.trans (State.loopback_kept hall (by decide))
  have two : Config.freeByte 0 = 2#8 := (State.loopback_freeByte (by decide)).symm.trans (State.loopback_kept hall (by decide))
  exact absurd (one.symm.trans two) (by decide)

end Sys2Proof.Machine
end

section
/-! Issue of the vector instructions and of VTLOAD, and the load of a table half (R164, R167, R175, R181, R183, R300, R301); O19. -/

namespace Sys2Proof.Machine

/-! ### The frame of an instruction that takes a slot -/

theorem State.onlyArray.onlyWork {s t : State} {n : Nat} (ht : s.onlyArray t n) : s.onlyWork t n := by
  obtain ⟨hframe, hlen, hothers⟩ := ht
  have htiers : t.tiers = s.tiers := by rw [hframe]
  exact ⟨by rw [htiers]; exact hframe, hlen, hothers⟩

/-- Every array of a state whose arrays are another's. -/
theorem State.arr_of_arrays {s t : State} (h : t.arrays = s.arrays) (n : Nat) : t.arr n = s.arr n := congrArg (·.getD n ArrayState.reset) h

theorem State.onlyWork.modArr {s t : State} {n : Nat} (ht : s.onlyWork t n) (g : ArrayState → ArrayState) : s.onlyWork (t.modArr n g) n := by
  obtain ⟨hframe, hlen, hothers⟩ := ht
  refine ⟨by rw [hframe]; rfl, by simp [hlen], fun m hm => (State.arr_modArr_ne _ _ _ _ hm).trans (hothers m hm)⟩

/-- A use changes the use records alone (R229). -/
theorem State.onlyWork.recordUse {s t : State} {n : Nat} (ht : s.onlyWork t n) (k : Nat) (o : ObjInfo) : s.onlyWork (t.recordUse k o) n := by
  obtain ⟨hframe, hlen, hothers⟩ := ht
  exact ⟨by rw [hframe]; rfl, hlen, hothers⟩

theorem State.onlyWork.recordUses {s t : State} {n : Nat} (ht : s.onlyWork t n) (k : Nat) (os : List ObjInfo) :
    s.onlyWork (t.recordUses k os) n := by
  induction os generalizing t with
  | nil => exact ht
  | cons o os ih => exact ih (ht.recordUse k o)

/-- A change of an array that leaves its streams leaves every context. -/
theorem State.ctx_modArr {g : ArrayState → ArrayState} (hg : ∀ a st, (g a).ctx st = a.ctx st) (s : State) (n m : Nat) (st : Stream) :
    (s.modArr n g).ctx m st = s.ctx m st := by
  unfold State.ctx
  by_cases hm : m = n
  case neg => rw [State.arr_modArr_ne _ _ _ _ hm]
  case pos =>
    subst hm
    by_cases hl : m < s.arrays.length
    · rw [State.arr_modArr_same _ _ _ hl, hg]
    · simp [State.arr, State.modArr, List.getD_eq_getElem?_getD, hl]

/-- Adding an operation leaves the contexts. -/
theorem State.ctx_addOp (s : State) (n m : Nat) (o : Op) (st : Stream) : (s.addOp n o).ctx m st = s.ctx m st :=
  State.ctx_modArr (g := fun a => { a with ops := a.ops ++ [o] }) (fun _ st => by cases st <;> rfl) s n m st

/-- An instruction that has moved on starts with its operation in a slot, and leaves use records. -/
theorem State.starts_addOp {s t : State} {h : Head} {opcode slot : Nat} {o : Op} (hl : h.arr < s.arrays.length) (hwork : s.onlyWork t h.arr)
    (hmoved : s.movedOn t h) (hops : (t.arr h.arr).ops = (s.arr h.arr).ops) (ho : s.isOpOf h opcode slot o) (os : List ObjInfo) :
    s.starts ((t.recordUses h.arr os).addOp h.arr o) h opcode slot o := by
  have hused := hwork.recordUses h.arr os
  obtain ⟨-, hlen, -⟩ := id hused
  refine ⟨hused.modArr _, ?_, ?_, ho⟩
  · simpa only [State.movedOn, State.ctx_addOp] using hmoved.of_arrays (State.recordUses_arrays t h.arr os)
  · rw [State.addOp, State.arr_modArr_same _ _ _ (hlen ▸ hl), State.arr_of_arrays (State.recordUses_arrays t h.arr os), hops]

theorem State.issued_ops (s : State) (h : Head) (i : IssueInfo) (hl : h.arr < s.arrays.length) : ((s.issued h i).arr h.arr).ops = (s.arr h.arr).ops := by
  rw [State.issued_arr s h i hl]
  cases h.stream <;> rfl

/-- A new operation is its instruction's, whatever table slot and objects it holds (R183, R231, R243, R258, R266). -/
theorem State.isOpOf_newOp (s : State) (h : Head) (opcode slot wt readyAt : Nat) (body : OpBody) (table : Option Nat) (objs : List Nat) :
    s.isOpOf h opcode slot { s.newOp h opcode slot wt readyAt body with table := table, objs := objs } :=
  ⟨rfl, rfl, rfl, rfl, rfl, rfl, rfl, rfl⟩

/-! ### Fused entries (R175) -/

/-- The stream of a fused vector instruction claims the entries of all its passes; another claims nothing (R175). -/
def State.claim (s : State) (h : Head) (r : VecRec) : State :=
  if vecFused r then s.modCtx h.arr h.stream (fun c => { c with fusedClaimed := c.fusedClaimed + vecPasses r }) else s

theorem State.onlyWork.claim {s t : State} {h : Head} (ht : s.onlyWork t h.arr) (r : VecRec) : s.onlyWork (t.claim h r) h.arr := by
  unfold State.claim
  split
  · exact ht.modArr _
  · exact ht

/-- A claim is counted in the context of the instruction's stream, and changes no other. -/
theorem State.movedOn.claim {s t : State} {h : Head} (ht : s.movedOn t h) (hl : h.arr < t.arrays.length) (r : VecRec) : s.movedOn (t.claim h r) h := by
  unfold State.claim
  split
  case isFalse => exact ht
  case isTrue =>
    obtain ⟨hown, hothers⟩ := ht
    refine ⟨?_, fun st hst => ?_⟩
    · rw [State.ctx_modCtx_same _ _ _ _ hl]
      exact congrArg (fun c : StreamCtx => { c with fusedClaimed := (t.ctx h.arr h.stream).fusedClaimed + vecPasses r }) hown
    · rw [State.ctx, State.modCtx, State.arr_modArr_same _ _ _ hl, ArrayState.ctx_modCtx_ne _ _ _ _ hst]
      exact hothers st hst

theorem State.claim_ops {s : State} {h : Head} (hl : h.arr < s.arrays.length) (r : VecRec) : ((s.claim h r).arr h.arr).ops = (s.arr h.arr).ops := by
  unfold State.claim
  split
  · rw [State.modCtx, State.arr_modArr_same _ _ _ hl]
    cases h.stream <;> rfl
  · rfl

theorem State.claim_fusedClaimed {s : State} {h : Head} (hl : h.arr < s.arrays.length) (r : VecRec) :
    ((s.claim h r).ctx h.arr h.stream).fusedClaimed =
      (s.ctx h.arr h.stream).fusedClaimed + (if r.a.kind = 1#2 then r.rows.toNat / 128 * (r.cols.toNat / 128) else 0) := by
  by_cases hfused : r.a.kind = 1#2
  · simp [State.claim, vecFused, vecPasses, hfused, State.ctx_modCtx_same _ _ _ _ hl]
  · simp [State.claim, vecFused, hfused]

/-! ### The vector instructions -/

/-- The eleven vector instructions with their opcodes (R167, R300). -/
def vectorInstrs : List (Nat × (Head → BodyP → VecRec → Instr)) :=
  [(0x30, .vadd), (0x31, .vsub), (0x32, .vmul), (0x33, .vfma), (0x34, .vmax), (0x35, .vmin), (0x36, .vabs), (0x37, .vneg), (0x38, .vcvt),
    (0x39, .vfn), (0x3A, .vder)]

/-- They share issue. -/
theorem exec_vector {p : Nat × (Head → BodyP → VecRec → Instr)} (hp : p ∈ vectorInstrs) (h : Head) (b : BodyP) (r : VecRec) (s : State) :
    exec (p.2 h b r) s = s.issueVec p.1 h b r := by
  simp only [vectorInstrs, List.mem_cons, List.not_mem_nil, or_false] at hp
  rcases hp with rfl | rfl | rfl | rfl | rfl | rfl | rfl | rfl | rfl | rfl | rfl <;> rfl

/-- What issue adds for a vector instruction: its claim, its uses, and the operation with its operands resolved. -/
theorem State.startVec_adds (s0 s : State) (h : Head) (opcode : Nat) (r : VecRec) (slot : Nat) :
    ∃ v table uses objs, s0.startVec s h opcode r slot = ((s.claim h r).recordUses h.arr uses).addOp h.arr
        { s0.newOp h opcode slot 0xFFFF 0 (.vec v) with table := table, objs := objs } ∧
      v.opcode = opcode ∧ v.started = 0 ∧ v.rows = r.rows.toNat ∧ v.cols = r.cols.toNat ∧
      v.d.addr = (if r.d.kind == 2#2 then 0 else (s0.ctx h.arr h.stream).oref r.d) :=
  ⟨_, _, _, _, rfl, rfl, rfl, rfl, rfl, rfl⟩

/-- The common effect of issue counts neither fused tiles nor claims. -/
theorem State.issued_fusedClaimed (s : State) (h : Head) (i : IssueInfo) (hl : h.arr < s.arrays.length) :
    ((s.issued h i).ctx h.arr h.stream).fusedClaimed = (s.ctx h.arr h.stream).fusedClaimed := by
  obtain ⟨-, claimed⟩ := (s.ctx h.arr h.stream).movePc_fused i.target s.cycle (s.lat 0x33)
  rw [State.issued_ctx s h i hl]
  exact claimed

/-- A vector instruction that meets every condition of issue. -/
theorem exec_vector_clean {p : Nat × (Head → BodyP → VecRec → Instr)} (hp : p ∈ vectorInstrs) {h : Head} {b : BodyP} {r : VecRec} {s : State} {slot : Nat}
    (hi : s.issuesClean h (s.vecInfo h p.1 b r) slot) :
    ∃ t o v, exec (p.2 h b r) s = .next t ∧ s.starts t h p.1 slot o ∧ o.units = [] ∧ o.body = .vec v ∧ v.opcode = p.1 ∧ v.started = 0 ∧
      v.rows = r.rows.toNat ∧ v.cols = r.cols.toNat ∧ v.d.addr = (if r.d.kind == 2#2 then 0 else (s.ctx h.arr h.stream).oref r.d) ∧
      (t.ctx h.arr h.stream).fusedClaimed = (s.ctx h.arr h.stream).fusedClaimed + (if r.a.kind = 1#2 then r.rows.toNat / 128 * (r.cols.toNat / 128) else 0) := by
  have hl := hi.lt
  have hlt : h.arr < (s.issued h (s.vecInfo h p.1 b r)).arrays.length := by simpa using hl
  obtain ⟨v, table, uses, objs, hstart, hop, hstarted, hrows, hcols, haddr⟩ :=
    s.startVec_adds (s.issued h (s.vecInfo h p.1 b r)) h p.1 r slot
  have hexec := (exec_vector hp h b r s).trans (issue_clean _ hi)
  have hops := (State.claim_ops hlt r).trans (s.issued_ops h _ hl)
  have hclaimed := State.claim_fusedClaimed hlt r
  rw [State.issued_fusedClaimed s h _ hl] at hclaimed
  refine ⟨_, { s.newOp h p.1 slot 0xFFFF 0 (.vec v) with table := table, objs := objs }, v, hexec.trans (congrArg _ hstart), ?_,
    rfl, rfl, hop, hstarted, hrows, hcols, haddr, ?_⟩
  · exact State.starts_addOp hl ((s.onlyArray_issued h _).onlyWork.claim r) ((s.movedOn_issued h _ hl rfl).claim hlt r) hops
      (s.isOpOf_newOp h p.1 slot 0xFFFF 0 (.vec v) table objs) uses
  · rw [State.ctx_addOp, State.ctx, State.arr_of_arrays (State.recordUses_arrays _ _ _)]
    exact hclaimed

/-! ### VTLOAD (R181, R183, R301) -/

/-- What issue needs to know of a VTLOAD. -/
def State.vtloadInfo (s : State) (h : Head) (half : Bool) (n a : Nat) : IssueInfo :=
  { IssueInfo.simple 0x3F [] with
    needSlot := true
    hold := if (s.arr h.arr).ops.any (fun o => o.table == some n) then some .table else none
    check := (s.vtloadCheck h half n a).map (fun c => s.checkFault h 0x3F 0xFFFF { c with addr := a }) }

/-- The operation of a VTLOAD, with the words of its image as issue reads them. -/
def State.vtloadOp (s : State) (h : Head) (half : Bool) (n a slot : Nat) : Op :=
  { s.newOp h 0x3F slot 0xFFFF (s.cycle + s.lat 0x13 + cdiv (s.tableBytes a) 1024) (.vtload half n a (s.tableWords a)) with
    table := some n
    objs := (s.readObjs [(a, s.tableBytes a)]).map (·.obj) }

/-- A VTLOAD issues into a table slot that no operation holds. -/
theorem State.vtload_issuesClean {s : State} {h : Head} {half : Bool} {n a slot : Nat} (hc : s.clear h [] = true)
    (hslot : (s.arr h.arr).freeSlot h.stream = some slot) (hfree : ∀ o ∈ (s.arr h.arr).ops, o.table ≠ some n)
    (hk : s.vtloadCheck h half n a = none) : s.issuesClean h (s.vtloadInfo h half n a) slot := by
  have notHeld : (s.vtloadInfo h half n a).hold = none := by simpa [State.vtloadInfo] using hfree
  exact State.issuesClean_of hc (mem_allStreams _) rfl nofun rfl rfl nofun notHeld hslot nofun (by simp [State.vtloadInfo, hk])

/-- VTLOAD is the issue of its operation, with the uses of its image (R229). -/
theorem exec_vtload (h : Head) (half : Bool) (k : BitVec 4) (image : SRef) (s : State) :
    exec (.vtload h half k image) s = issue h (s.vtloadInfo h half k.toNat (s.tableAddr h image))
      (fun slot t => (t.recordUses h.arr (s.readObjs [(s.tableAddr h image, s.tableBytes (s.tableAddr h image))])).addOp h.arr
        (s.vtloadOp h half k.toNat (s.tableAddr h image) slot)) s := rfl

/-- VTLOAD from a clean fetch. -/
theorem exec_vtload_clean {s : State} {h : Head} {half : Bool} {k : BitVec 4} {image : SRef} {slot : Nat}
    (hi : s.issuesClean h (s.vtloadInfo h half k.toNat (s.tableAddr h image)) slot) :
    ∃ t, exec (.vtload h half k image) s = .next t ∧ s.starts t h 0x3F slot (s.vtloadOp h half k.toNat (s.tableAddr h image) slot) := by
  have hstarts := State.starts_addOp hi.lt (s.onlyArray_issued h (s.vtloadInfo h half k.toNat (s.tableAddr h image))).onlyWork
    (s.movedOn_issued h _ hi.lt rfl) (s.issued_ops h _ hi.lt)
    (o := s.vtloadOp h half k.toNat (s.tableAddr h image) slot) (s.isOpOf_newOp h 0x3F slot 0xFFFF _ _ _ _)
    (s.readObjs [(s.tableAddr h image, s.tableBytes (s.tableAddr h image))])
  exact ⟨_, (exec_vtload h half k image s).trans (issue_clean _ hi), hstarts⟩

/-! ### VTLOAD_RETIRE (R181, R183) -/

/-- ECC errors change no array. -/
theorem State.corrected_arrays (s : State) (rs : List (Nat × Nat)) (own : Nat) : (s.corrected rs own).arrays = s.arrays :=
  EccFree.corrected { EventFree.of_unread (f := State.arrays) (fun _ _ _ _ => rfl) with
    regs := fun _ _ => rfl
    tiers := fun _ _ => rfl
    posTesting := fun _ _ => rfl } s rs own

/-- The table slots of an array with a half loaded. -/
def ArrayState.loadTable (a : ArrayState) (half : Bool) (n : Nat) (ws : List W32) : ArrayState :=
  { a with tables := a.tables.modify n (fun t => t.load half (parseTable ws)) }

/-- A VTLOAD whose time has passed and whose image corrects leaves its slot and loads its half. -/
theorem exec_vtloadRetire_loads {s : State} {arr slot n a : Nat} {half : Bool} {ws : List W32} {o : Op} (ho : s.op? arr slot = some o)
    (hb : o.body = .vtload half n a ws) (hat : o.readyAt ≤ s.cycle) (hecc : s.eccBad a (4 * ws.length) arr = none) :
    exec (.vtloadRetire arr slot) s =
      .next (((s.corrected [(a, 4 * ws.length)] arr).dropOp arr slot).modArr arr (·.loadTable half n ws)) := by
  show execVtloadRetire arr slot s = _
  simp only [execVtloadRetire, ho, hb, hecc, Nat.not_lt.2 hat, if_false]
  rfl

/-- A derivative half joins the forward half; a forward half clears the derivative half (R181). -/
theorem TableSlot.load_halves (t : TableSlot) (half : Bool) (x : Option TableHalf) :
    if half then (t.load half x).der = x ∧ (t.load half x).fwd = t.fwd else (t.load half x).fwd = x ∧ (t.load half x).der = none := by
  cases half
  · exact ⟨rfl, rfl⟩
  · exact ⟨rfl, rfl⟩

theorem ArrayState.loadTable_same {a : ArrayState} {n : Nat} {t : TableSlot} (ht : a.tables[n]? = some t) (half : Bool) (ws : List W32) :
    (a.loadTable half n ws).tables[n]? = some (t.load half (parseTable ws)) := by
  simp [ArrayState.loadTable, ht]

theorem ArrayState.loadTable_ne (a : ArrayState) {n j : Nat} (hj : j ≠ n) (half : Bool) (ws : List W32) :
    (a.loadTable half n ws).tables[j]? = a.tables[j]? := by
  simp [ArrayState.loadTable, hj.symm]

/-- The array behind the retirement. -/
theorem State.arr_loaded {s : State} {arr : Nat} (hn : arr < s.arrays.length) (rs : List (Nat × Nat)) (slot n : Nat) (half : Bool) (ws : List W32) :
    (((s.corrected rs arr).dropOp arr slot).modArr arr (·.loadTable half n ws)).arr arr =
      { s.arr arr with ops := (s.arr arr).ops.filter (fun x => x.slot != slot) }.loadTable half n ws := by
  have hc : arr < (s.corrected rs arr).arrays.length := by rwa [State.corrected_arrays]
  rw [State.arr_modArr_same _ _ _ (by simpa [State.dropOp] using hc), State.dropOp, State.arr_modArr_same _ _ _ hc,
    State.arr_of_arrays (State.corrected_arrays s rs arr)]

/-- Settles O19: issue is the common effect, a claim and use records behind it, and one more operation; the retirement of a VTLOAD changes its array's operations and one table slot. -/
theorem vectorAndTableIssue : Obligations.VectorAndTableIssue := by
  unfold Obligations.VectorAndTableIssue
  refine ⟨fun p hp h b r s slot hi => exec_vector_clean hp hi, fun h half k image s slot hc hslot hfree hk => ?_,
    fun arr slot n a half ws o s hn ho hb hat hecc hlt => ?_⟩
  · obtain ⟨t, ht, hstarts⟩ := exec_vtload_clean (image := image) (State.vtload_issuesClean hc hslot hfree hk)
    exact ⟨t, _, ht, hstarts, rfl, rfl⟩
  · have hold : (s.arr arr).tables[n]? = some (s.arr arr).tables[n] := List.getElem?_eq_getElem hlt
    have harr := State.arr_loaded hn [(a, 4 * ws.length)] slot n half ws
    refine ⟨_, (s.arr arr).tables[n].load half (parseTable ws), exec_vtloadRetire_loads ho hb hat hecc, rfl, fun m hm => ?_, ?_, ?_, ?_, fun j hj => ?_⟩
    · rw [State.arr_modArr_ne _ _ _ _ hm, State.dropOp, State.arr_modArr_ne _ _ _ _ hm, State.arr_of_arrays (State.corrected_arrays _ _ _)]
    · rw [harr]
      rfl
    · rw [harr]
      exact ArrayState.loadTable_same hold half ws
    · have halves := TableSlot.load_halves (s.arr arr).tables[n] half (parseTable ws)
      cases half
      · exact halves
      · obtain ⟨hder, hfwd⟩ := halves
        exact ⟨hder, by rw [hold, hfwd]; rfl⟩
    · rw [harr]
      exact ArrayState.loadTable_ne _ hj half ws

end Sys2Proof.Machine
end

section
/-! A tile that enters the finished-tile queue may free the half of an accumulator set of which no tile is present (R71, R178): the set is skipped, the units of the tile-columns that it lacks become undefined, and that draws free words (log 1), so the frame of O20 fails. -/

namespace Sys2Proof.Machine

/-! ### FTQ_ENTRY (R173, R178) -/

/-- The front of the waiting tiles has moved to the end of the queue. -/
def State.moveTile (s : State) (arr : Nat) (q : QEntry) (rest : List QEntry) : State :=
  s.modArr arr (fun a =>
    let a : ArrayState := { a with
      waiting := rest
      queue := a.queue ++ [{ q with seqNo := ((s.arr arr).ctx q.stream).fusedEntered, readyAt := s.cycle }]
      xferAt := s.cycle + s.lat 0x03
      fullCycles := 0 }
    if q.fused && !q.index then a.modCtx q.stream (fun c => { c with fusedEntered := c.fusedEntered + 1 }) else a)

/-- A waiting tile whose transfer is due enters a queue with a free entry. -/
theorem exec_ftqEntry_moves {s : State} {arr : Nat} {q : QEntry} {rest : List QEntry} (hq : (s.arr arr).waiting = q :: rest)
    (hroom : (s.arr arr).queue.length < 8) (hat : (s.arr arr).xferAt ≤ s.cycle) :
    exec (.ftqEntry arr) s = .next (((s.moveTile arr q rest).tileEntered arr q).countStall arr) := by
  have inTime : ¬ (8 ≤ (s.arr arr).queue.length ∨ s.cycle < (s.arr arr).xferAt) := by omega
  show execFtqEntry arr s = _
  simp only [execFtqEntry, hq, Bool.or_eq_true, decide_eq_true_eq, inTime, if_false]
  rfl

/-- A stall counted draws no free word. -/
theorem State.countStall_freeCtr (s : State) (n : Nat) : (s.countStall n).freeCtr = s.freeCtr := by
  unfold State.countStall
  dsimp only
  split
  · exact keeps_onlyIf (f := State.freeCtr) (State.bumpArr_freeCtr _ _ _ _)
  · rfl

/-- One tile more of a product has entered the queue at cycle `now`, and has let its next set begin. -/
def Product.tileOut (p : Product) (now : Nat) : Product := { p with tilesOut := p.tilesOut + 1, segAt := max p.segAt now }

/-- A product waits for the half of its next set, which one more tile in the queue frees (R178). -/
structure Product.freedByTile (p : Product) : Prop where
  blocked : p.halfFree p.setNo = false
  freed : { p with tilesOut := p.tilesOut + 1 }.halfFree p.setNo = true

/-- A tile, not the last of its product, that frees the half of the next set lets the product skip its sets without a tile. -/
theorem State.tileEntered_freeCtr {s : State} {n : Nat} {q : QEntry} {o : Op} {p : Product} (ho : s.op? n q.slot = some o) (hseq : o.seq = q.op)
    (hb : o.body = .prod p) (hlast : q.last = false) (hp : p.freedByTile) :
    (s.tileEntered n q).freeCtr = (s.skipSets n (p.tileOut s.cycle) (s.cycle + s.lat 0x02)).2.freeCtr := by
  obtain ⟨blocked, freed⟩ := hp
  have producer : (s.op? n q.slot).filter (fun o => o.seq == q.op) = some o := by simp [ho, Option.filter_some, hseq]
  simp [State.tileEntered, producer, hb, hlast, blocked, freed, Product.tileOut]

/-- Where the set behind that half has no tile present and lacks tile-columns, the entry draws free words. -/
theorem exec_ftqEntry_freeCtr_lt {s t : State} {arr : Nat} {q : QEntry} {rest : List QEntry} {o : Op} {p : Product} {g : Seg} {segs : List Seg}
    (hq : (s.arr arr).waiting = q :: rest) (hroom : (s.arr arr).queue.length < 8) (hat : (s.arr arr).xferAt ≤ s.cycle)
    (ho : (s.moveTile arr q rest).op? arr q.slot = some o) (hseq : o.seq = q.op) (hb : o.body = .prod p) (hlast : q.last = false)
    (hp : p.freedByTile) (hskip : (p.tileOut s.cycle).skipsFirst g segs) (hmissing : p.missingUnits p.setNo g.set ≠ [])
    (ht : exec (.ftqEntry arr) s = .next t) : s.freeCtr < t.freeCtr := by
  obtain rfl := Host.Outcome.next.inj ((exec_ftqEntry_moves hq hroom hat).symm.trans ht)
  rw [State.countStall_freeCtr, State.tileEntered_freeCtr ho hseq hb hlast hp]
  exact hskip.freeCtr_lt hmissing (s.moveTile arr q rest) arr _

/-! ### Three blocks over absent tiles -/

/-- An MMF of three blocks of 128 rows over the one tile-row and tile-column of `absentDir`, at two tile-columns a set: the sets of the first two blocks are skipped, no tile has entered the queue, and the set of the third block waits for the half of the first. -/
def thirdSetWaits : Product :=
  { State.absentTiles.mmfProduct absentHead absentBody { absentRec with m := 384 } with
    plan := [⟨2, 0, 0, 0, true, true, true⟩]
    setNo := 2 }

/-- The MMF in slot 0. -/
def thirdSetOp : Op := { State.absentTiles.newOp absentHead 0x20 0 0xFFFF 0 (.prod thirdSetWaits) with units := [0, 1, 2, 3] }

/-- The tile of its first block, all zero, to be drained as FP32 to 0x20000. -/
def firstSetTile : QEntry :=
  ⟨.f, 0, 0, false, false, List.replicate 16384 0#32, tswOf true 0 0 0 0 0, 0x20000, 0, 0x200, false, false, 0, 0, 0, 0, 0, false, false, 0, 0⟩

/-- The module of `absentTiles` with that product in flight in array 0 and the tile waiting in front of an empty queue. -/
def State.thirdSet : State := State.absentTiles.modArr 0 (fun a => { a with ops := [thirdSetOp], waiting := [firstSetTile] })

/-- The one set left has no tile present, and its half is free once the tile has entered. -/
theorem thirdSetWaits_skipsFirst : (thirdSetWaits.tileOut State.thirdSet.cycle).skipsFirst ⟨2, 0, 0, 0, true, true, true⟩ [] where
  plan := rfl
  empty := rfl
  free := by decide +kernel

/-- Refutes O20: the tile of the first block of an MMF over an absent tile enters the queue and frees the half for which the third block waits; its set has no tile present, is skipped at once (R71, R178), and the unit that stands for its missing tile-column becomes undefined and takes 16,384 free words, where `State.onlyArray` lets no free word be drawn. -/
theorem not_drainsAndPasses : ¬ Obligations.DrainsAndPasses := by
  unfold Obligations.DrainsAndPasses
  rintro ⟨hentry, -⟩
  have tileWaits : (State.thirdSet.arr 0).waiting = firstSetTile :: [] := rfl
  have queueEmpty : (State.thirdSet.arr 0).queue.length < 8 := by decide
  obtain ⟨t, -, ht, -, -, -, -, -, -, -, -, -, hframe⟩ := hentry 0 firstSetTile [] State.thirdSet (by decide) tileWaits queueEmpty (Nat.zero_le _)
  have op : (State.thirdSet.moveTile 0 firstSetTile []).op? 0 firstSetTile.slot = some thirdSetOp := by decide +kernel
  have freed : thirdSetWaits.freedByTile := ⟨by decide +kernel, by decide +kernel⟩
  have missing : thirdSetWaits.missingUnits thirdSetWaits.setNo 0 ≠ [] := by decide +kernel
  have drawn : State.thirdSet.freeCtr < t.freeCtr :=
    exec_ftqEntry_freeCtr_lt tileWaits queueEmpty (Nat.zero_le _) op rfl rfl rfl freed thirdSetWaits_skipsFirst missing ht
  exact drawn.ne hframe.onlyWork.freeCtr.symm

end Sys2Proof.Machine
end

section
/-! Issue of the update-unit instructions (R188, R191, R201, R205, R304); O23. -/

namespace Sys2Proof.Machine

/-! ### What they share -/

section
variable {s : State} {h : Head} {k : Nat} {check : Option CheckFail}

/-- An update-unit instruction whose checks pass issues from a clear stream into the slot it is given, with its record. -/
theorem State.updInfo_record_issuesClean (hu : h.stream = .u) (hc : s.clear h [] = true)
    (hslot : (s.arr h.arr).freeSlot h.stream = some k) (hcheck : check = none) (opcode wt : Nat) {ref : SRef} (hrec : s.recordInside h ref 64 = true) :
    s.issuesClean h { s.updInfo h opcode wt check with record := some (ref, 64) } k :=
  State.issuesClean_of hc (by simp [State.updInfo, hu]) rfl nofun rfl rfl (fun _ _ he => by cases he; exact hrec) rfl hslot nofun
    (by simp [State.updInfo, hcheck])

/-- The same for one that has no record. -/
theorem State.updInfo_issuesClean (hu : h.stream = .u) (hc : s.clear h [] = true)
    (hslot : (s.arr h.arr).freeSlot h.stream = some k) (hcheck : check = none) (opcode wt : Nat) : s.issuesClean h (s.updInfo h opcode wt check) k :=
  State.issuesClean_of hc (by simp [State.updInfo, hu]) rfl nofun rfl rfl nofun rfl hslot nofun (by simp [State.updInfo, hcheck])

end

@[simp] theorem failIf_false (code row : Nat) : failIf false code row = none := rfl

/-- A change of an array that leaves its streams leaves them moved on. -/
theorem State.movedOn.modArr {s t : State} {h : Head} (ht : s.movedOn t h) (n : Nat) {g : ArrayState → ArrayState}
    (hg : ∀ a st, (g a).ctx st = a.ctx st) : s.movedOn (t.modArr n g) h := by
  simpa only [State.movedOn, State.ctx_modArr hg] using ht

/-- An instruction that issues with an operation as its whole effect starts with it. -/
theorem State.starts_issued {s : State} {h : Head} {i : IssueInfo} {slot : Nat} (hi : s.issuesClean h i slot) (ht : i.target = none)
    (opcode wt readyAt : Nat) (body : OpBody) :
    s.starts ((s.issued h i).addOp h.arr (s.newOp h opcode slot wt readyAt body)) h opcode slot (s.newOp h opcode slot wt readyAt body) :=
  State.starts_addOp hi.lt (s.onlyArray_issued h i).onlyWork (s.movedOn_issued h i hi.lt ht) (s.issued_ops h i hi.lt)
    (s.isOpOf_newOp h opcode slot wt readyAt body none []) []

/-! ### UNRM, UPD and UVER.CLOSE (R190, R191, R201) -/

/-- The cycle in which the entries of an UNRM are through the norm path (R191, R205). -/
def State.normDone (s : State) (h : Head) (wt : Nat) (r : UnrmRec) : Nat :=
  max (s.cycle + s.lat 0x22) (s.arr h.arr).normAt + (r.e1.toNat + 1 - r.e0.toNat) * updTileTime (((s.weight? wt).map fun w => (w.dir s.mem).capK).getD 0) false

theorem exec_unrm (h : Head) (wt : BitVec 16) (ref : SRef) (r : UnrmRec) (s : State) :
    exec (.unrm h wt ref r) s = issue h
      { s.updInfo h 0x60 wt.toNat (s.unrmCheck h wt.toNat r.e0.toNat r.e1.toNat ((s.ctx h.arr h.stream).optRef r.frz)) with record := some (ref, 64) }
      (fun slot t => (t.modArr h.arr (fun a => { a with normAt := s.normDone h wt.toNat r })).addOp h.arr
        (s.newOp h 0x60 slot wt.toNat (s.normDone h wt.toNat r)
          (.unrm wt.toNat r.e0.toNat r.e1.toNat ((s.ctx h.arr h.stream).optRef r.frz)))) s := by
  have cap : s.normDone h wt.toNat r = max (s.cycle + s.lat 0x22) (s.arr h.arr).normAt + (r.e1.toNat + 1 - r.e0.toNat) * updTileTime
      (match s.weight? wt.toNat with
        | some w => (w.dir s.mem).capK
        | none => 0) false := by
    unfold State.normDone
    cases s.weight? wt.toNat <;> rfl
  rw [cap]
  rfl

/-- UNRM starts with its entries, and the norm path is taken until they are through. -/
theorem exec_unrm_clean {s : State} {h : Head} {wt : BitVec 16} {ref : SRef} {r : UnrmRec} {k : Nat} (hu : h.stream = .u)
    (hc : s.clear h [] = true) (hslot : (s.arr h.arr).freeSlot h.stream = some k) (hrec : s.recordInside h ref 64 = true)
    (hcheck : s.unrmCheck h wt.toNat r.e0.toNat r.e1.toNat ((s.ctx h.arr h.stream).optRef r.frz) = none) :
    ∃ t o, exec (.unrm h wt ref r) s = .next t ∧ s.starts t h 0x60 k o ∧
      o.body = .unrm wt.toNat r.e0.toNat r.e1.toNat ((s.ctx h.arr h.stream).optRef r.frz) := by
  have hi := State.updInfo_record_issuesClean hu hc hslot hcheck 0x60 wt.toNat hrec
  have hl := hi.lt
  refine ⟨_, s.newOp h 0x60 k wt.toNat (s.normDone h wt.toNat r) _, (exec_unrm h wt ref r s).trans (issue_clean _ hi), ?_, rfl⟩
  refine State.starts_addOp hl ((s.onlyArray_issued h _).onlyWork.modArr _) ?_ ?_ (s.isOpOf_newOp h 0x60 k wt.toNat _ _ none []) []
  · exact (s.movedOn_issued h _ hl rfl).modArr h.arr fun _ st => by cases st <;> rfl
  · exact (congrArg ArrayState.ops (State.arr_modArr_same _ _ _ (by simpa using hl))).trans (s.issued_ops h _ hl)

theorem exec_upd (h : Head) (wt : BitVec 16) (ref : SRef) (r : UpdRec) (s : State) :
    exec (.upd h wt ref r) s = issue h
      { s.updInfo h 0x64 wt.toNat (s.updCheck h wt.toNat r.e0.toNat r.e1.toNat ((s.ctx h.arr h.stream).aref r.desc)
          ((s.ctx h.arr h.stream).optRef r.frz)) with record := some (ref, 64) }
      (fun slot t => t.addOp h.arr (s.newOp h 0x64 slot wt.toNat (s.cycle + s.lat 0x20)
        (.upd wt.toNat r.e0.toNat r.e1.toNat r.e0.toNat ((s.ctx h.arr h.stream).aref r.desc) ((s.ctx h.arr h.stream).optRef r.frz) 0))) s := rfl

theorem exec_upd_clean {s : State} {h : Head} {wt : BitVec 16} {ref : SRef} {r : UpdRec} {k : Nat} (hu : h.stream = .u)
    (hc : s.clear h [] = true) (hslot : (s.arr h.arr).freeSlot h.stream = some k) (hrec : s.recordInside h ref 64 = true)
    (hcheck : s.updCheck h wt.toNat r.e0.toNat r.e1.toNat ((s.ctx h.arr h.stream).aref r.desc) ((s.ctx h.arr h.stream).optRef r.frz) = none) :
    ∃ t o, exec (.upd h wt ref r) s = .next t ∧ s.starts t h 0x64 k o ∧ o.wt = wt.toNat ∧
      o.body = .upd wt.toNat r.e0.toNat r.e1.toNat r.e0.toNat ((s.ctx h.arr h.stream).aref r.desc) ((s.ctx h.arr h.stream).optRef r.frz) 0 := by
  have hi := State.updInfo_record_issuesClean hu hc hslot hcheck 0x64 wt.toNat hrec
  exact ⟨_, _, (exec_upd h wt ref r s).trans (issue_clean _ hi), State.starts_issued hi rfl _ _ _ _, rfl, rfl⟩

/-- Rows 1 and 2 of R204 as UVER.CLOSE tests them (R190). -/
def State.uverCloseCheck (s : State) (h : Head) (wt : Nat) : Option CheckFail :=
  firstFail [
    failIf (s.unbound wt) 0x21 1,
    failIf (s.onWeight wt (fun w => w.closed || (w.bufWith .writing (nextTag (s.ctx h.arr h.stream).curStep)).isNone)) 0x30 2]

/-- They hold for a weight that is neither COMMITTED nor FAULTED and has a buffer in writing under the next tag. -/
theorem State.uverCloseCheck_none {s : State} {h : Head} {wt : Nat} {w : Weight} (hw : s.weight? wt = some w) (hlt : wt < 1024)
    (hopen : w.closed = false) (hbuf : (w.bufWith .writing (nextTag (s.ctx h.arr h.stream).curStep)).isSome = true) :
    s.uverCloseCheck h wt = none := by
  have bound : s.unbound wt = false := by simp [State.unbound, hw, hlt]
  have buffered : (w.bufWith .writing (nextTag (s.ctx h.arr h.stream).curStep)).isNone = false := Option.isNone_eq_false_iff.2 hbuf
  simp [State.uverCloseCheck, bound, State.onWeight, hw, hopen, buffered, failIf, firstFail]

theorem exec_uverClose (h : Head) (wt : BitVec 16) (s : State) :
    exec (.uverClose h wt) s = issue h (s.updInfo h 0x65 wt.toNat (s.uverCloseCheck h wt.toNat))
      (fun slot t => t.addOp h.arr (s.newOp h 0x65 slot wt.toNat (s.cycle + s.lat 0x25) (.uverClose wt.toNat))) s := rfl

theorem exec_uverClose_clean {s : State} {h : Head} {wt : BitVec 16} {k : Nat} (hu : h.stream = .u) (hc : s.clear h [] = true)
    (hslot : (s.arr h.arr).freeSlot h.stream = some k) (hcheck : s.uverCloseCheck h wt.toNat = none) :
    ∃ t o, exec (.uverClose h wt) s = .next t ∧ s.starts t h 0x65 k o ∧ o.body = .uverClose wt.toNat := by
  have hi := State.updInfo_issuesClean hu hc hslot hcheck 0x65 wt.toNat
  exact ⟨_, _, (exec_uverClose h wt s).trans (issue_clean _ hi), State.starts_issued hi rfl _ _ _ _, rfl⟩

/-! ### UNRM.FIN (R191) -/

/-- An array that has not issued its UNRM.FIN has no final partial. -/
theorem ArrayState.normFinal_of_finIssued {a : ArrayState} (h : a.finIssued = false) : a.normFinal = false := by
  unfold ArrayState.finIssued at h
  exact (Bool.or_eq_false_iff.1 h).1

/-- Nor has it an UNRM.FIN in flight. -/
theorem ArrayState.body_ne_unrmFin {a : ArrayState} (h : a.finIssued = false) {o : Op} (ho : o ∈ a.ops) (b : Bool) : o.body ≠ .unrmFin b := by
  unfold ArrayState.finIssued at h
  intro hb
  have := List.any_eq_false.1 (Bool.or_eq_false_iff.1 h).2 o ho
  simp [hb] at this

/-- An UNRM.FIN after the array's UNRMs have retired: the partial is final, and it stays in its slot until `at_` (R191). -/
def Op.finished (o : Op) (at_ : Nat) : Op := { o with body := .unrmFin true, readyAt := at_ }

/-- The partial becomes final with the one UNRM.FIN in flight, once no UNRM is; until then nothing changes. -/
theorem State.arr_markFinal {s : State} {n : Nat} {rest : List Op} {fin : Op} (hn : n < s.arrays.length)
    (hlost : (s.arr n).lost.any Op.isUnrm = false) (hops : (s.arr n).ops = rest ++ [fin]) (hfin : fin.body = .unrmFin false)
    (hrest : ∀ o ∈ rest, o.body ≠ .unrmFin false) :
    (s.markFinal n).arr n = if (s.arr n).unrms.isEmpty
      then { s.arr n with normFinal := true, ops := rest ++ [fin.finished (s.cycle + s.lat 0x23)] } else s.arr n := by
  rw [State.markFinal, State.arr_modArr_same _ _ _ hn, if_neg (by simp [hlost])]
  cases hempty : (s.arr n).unrms.isEmpty
  case false => simp
  case true =>
    have kept : rest.map (fun o => if o.body = .unrmFin false then o.finished (s.cycle + s.lat 0x23) else o) = rest :=
      (List.map_congr_left (g := id) fun o ho => if_neg (hrest o ho)).trans rest.map_id
    simpa [hops, hfin, Op.finished] using kept

/-- Marking the partial final leaves the streams. -/
theorem State.ctx_markFinal (s : State) (n m : Nat) (st : Stream) : (s.markFinal n).ctx m st = s.ctx m st := by
  refine State.ctx_modArr (fun a st => ?_) s n m st
  split
  · cases st <;> rfl
  · split <;> cases st <;> rfl

theorem exec_unrmFin (h : Head) (s : State) :
    exec (.unrmFin h) s = issue h (s.updInfo h 0x61 0xFFFF (failIf (s.arr h.arr).finIssued 0x22 4))
      (fun slot t => (t.addOp h.arr (s.newOp h 0x61 slot 0xFFFF (s.cycle + s.lat 0x23) (.unrmFin false))).markFinal h.arr) s := rfl

/-- Issue of an instruction that takes a slot leaves what the array knows of its norm partial. -/
theorem State.norm_issued {s : State} {h : Head} (i : IssueInfo) (hl : h.arr < s.arrays.length) (o : Op) :
    (((s.issued h i).addOp h.arr o).arr h.arr).lost = (s.arr h.arr).lost ∧
      (((s.issued h i).addOp h.arr o).arr h.arr).normFinal = (s.arr h.arr).normFinal := by
  rw [State.addOp, State.arr_modArr_same _ _ _ (by simpa using hl), State.issued_arr s h i hl]
  cases h.stream <;> exact ⟨rfl, rfl⟩

/-- An UNRM.FIN that has started is the one that the final partial ends, so that the array's other operations stay as they are. -/
theorem State.starts.markFinal {s u : State} {h : Head} {k : Nat} {fin : Op} (hstarts : s.starts u h 0x61 k fin) (hl : h.arr < s.arrays.length)
    (hbody : fin.body = .unrmFin false) (hfin : (s.arr h.arr).finIssued = false) (hlost : (u.arr h.arr).lost.any Op.isUnrm = false)
    (hnot : (u.arr h.arr).normFinal = false) :
    ∃ o, s.starts (u.markFinal h.arr) h 0x61 k o ∧ o.body = .unrmFin (s.arr h.arr).unrms.isEmpty ∧
      ((u.markFinal h.arr).arr h.arr).normFinal = (s.arr h.arr).unrms.isEmpty := by
  obtain ⟨work, moved, hops, isOp⟩ := hstarts
  obtain ⟨-, hlen, -⟩ := id work
  have unrms : (u.arr h.arr).unrms = (s.arr h.arr).unrms := by simp [ArrayState.unrms, hops, Op.isUnrm, hbody]
  have marked := State.arr_markFinal (hlen ▸ hl) hlost hops hbody fun o ho => ArrayState.body_ne_unrmFin hfin ho false
  have moved' : s.movedOn (u.markFinal h.arr) h := by simpa only [State.movedOn, State.ctx_markFinal] using moved
  rw [unrms] at marked
  cases hempty : (s.arr h.arr).unrms.isEmpty
  case false =>
    simp only [hempty, Bool.false_eq_true, if_false] at marked
    exact ⟨fin, ⟨work.modArr _, moved', (congrArg ArrayState.ops marked).trans hops, isOp⟩, hbody, (congrArg ArrayState.normFinal marked).trans hnot⟩
  case true =>
    simp only [hempty, if_true] at marked
    exact ⟨_, ⟨work.modArr _, moved', congrArg ArrayState.ops marked, isOp⟩, rfl, congrArg ArrayState.normFinal marked⟩

/-- UNRM.FIN takes its slot; where no UNRM of the array is in flight and none has faulted, the partial is final at once. -/
theorem exec_unrmFin_clean {s : State} {h : Head} {k : Nat} (hu : h.stream = .u) (hc : s.clear h [] = true)
    (hslot : (s.arr h.arr).freeSlot h.stream = some k) (hfin : (s.arr h.arr).finIssued = false)
    (hlost : (s.arr h.arr).lost.any Op.isUnrm = false) :
    ∃ t o, exec (.unrmFin h) s = .next t ∧ s.starts t h 0x61 k o ∧ o.body = .unrmFin (s.arr h.arr).unrms.isEmpty ∧
      (t.arr h.arr).normFinal = (s.arr h.arr).unrms.isEmpty := by
  have hi := State.updInfo_issuesClean hu hc hslot (check := failIf (s.arr h.arr).finIssued 0x22 4) (by simp [hfin]) 0x61 0xFFFF
  have hl := hi.lt
  have hstarts := State.starts_issued hi rfl 0x61 0xFFFF (s.cycle + s.lat 0x23) (.unrmFin false)
  obtain ⟨lost, final⟩ := State.norm_issued _ hl (s.newOp h 0x61 k 0xFFFF (s.cycle + s.lat 0x23) (.unrmFin false))
  obtain ⟨o, hends⟩ := hstarts.markFinal hl rfl hfin (lost ▸ hlost) (final.trans (ArrayState.normFinal_of_finIssued hfin))
  exact ⟨_, o, (exec_unrmFin h s).trans (issue_clean _ hi), hends⟩

/-- Settles O23: each instruction meets every condition of issue and starts with its operation; no UNRM.FIN stands before a new one, so that the final partial ends it alone. -/
theorem updateIssue : Obligations.UpdateIssue := by
  unfold Obligations.UpdateIssue
  intro h wt ref s k hu hc hslot
  rw [← hu] at hslot ⊢
  refine ⟨fun r hrec hcheck => exec_unrm_clean hu hc hslot hrec hcheck, fun r hrec hcheck => exec_upd_clean hu hc hslot hrec hcheck,
    fun hfin hlost => exec_unrmFin_clean hu hc hslot hfin hlost, fun w hw hlt hopen hbuf => ?_⟩
  exact exec_uverClose_clean hu hc hslot (State.uverCloseCheck_none hw hlt hopen hbuf)

end Sys2Proof.Machine
end

section
/-! The last fault record is changed by no event and by no report (R423, R427). -/

namespace Sys2Proof.Machine

/-- The record of FLT_LAST (R423). -/
def State.lastFault (s : State) : Option FaultRec := s.flt.last

/-- Frames and the master's duties touch no fault record. -/
theorem sendFree_lastFault : SendFree State.lastFault := ⟨fun _ _ => rfl, fun _ _ => rfl, fun _ _ _ _ _ _ => rfl⟩

/-- What an event entry changes beside it: host memory and the rest of the fault block. -/
theorem State.lastFault_notes (s : State) (m : Cells) (x : Faults) (h : x.last = s.flt.last) :
    ({ s with hostMem := m, flt := x } : State).lastFault = s.lastFault := h

theorem State.signalEvents_lastFault (s : State) (v : Nat) : (s.signalEvents v).lastFault = s.lastFault := by
  unfold State.signalEvents
  cases v == 1 <;> exact keeps_onlyIf rfl

theorem State.writeEntry_lastFault (s : State) (e : EventEntry) : (s.writeEntry e).lastFault = s.lastFault := by
  refine keeps_ite rfl (keeps_ite (sendFree_lastFault.regs.bump s Reg.FLT_EVENTS_LOST 1) ?_)
  split
  · rfl
  · exact (State.signalEvents_lastFault _ _).trans (s.lastFault_notes _ _ rfl)

theorem State.countEvent_lastFault (s : State) : s.countEvent.lastFault = s.lastFault :=
  (sendFree_lastFault.regs.setBits _ _ _).trans (sendFree_lastFault.regs.bump s _ _)

theorem State.postEvent_lastFault (s : State) (c o a d : Nat) : (s.postEvent c o a d).lastFault = s.lastFault := by
  refine Eq.trans (keeps_ite (sendFree_lastFault.regs.bump s.countEvent Reg.FLT_EVENTS_SUPPRESSED 1) ?_) s.countEvent_lastFault
  exact (State.writeEntry_lastFault _ _).trans (keeps_onlyIf rfl)

theorem State.releasePartner_lastFault (s : State) (a : Nat) : (s.releasePartner a).lastFault = s.lastFault := by
  refine Eq.trans (sendFree_lastFault.ring _ _) (foldl_keeps (fun s r => ?_) _ s)
  exact sendFree_lastFault.releaseHeld _ r

theorem State.sendRebinds_lastFault (s : State) (a : Nat) : (s.sendRebinds a).lastFault = s.lastFault := by
  unfold State.sendRebinds
  split
  · rfl
  · refine foldl_keeps (fun s e => ?_) _ s
    split
    · rfl
    · exact sendFree_lastFault.sendTo s _ _ _

theorem State.twinLost_lastFault (s : State) : s.twinLost.lastFault = s.lastFault :=
  keeps_onlyIf ((State.sendRebinds_lastFault _ _).trans (State.postEvent_lastFault _ _ _ _ _))

theorem State.actOn_lastFault (s : State) (e : Merge) : (s.actOn e).lastFault = s.lastFault := by
  unfold State.actOn
  extract_lets x s₁ s₂ s₃
  have stops : s₂.lastFault = s.lastFault := (sendFree_lastFault.holdOff _).trans (State.releasePartner_lastFault s₁ e.subject)
  have dropped : s₃.lastFault = s.lastFault := Eq.trans (keeps_onlyIf (sendFree_lastFault.masterHoldOff s₂ _)) stops
  exact keeps_ite dropped ((State.writeEntry_lastFault _ _).trans (s₃.countEvent_lastFault.trans dropped))

theorem State.noteEcc_lastFault (s : State) (a c : Nat) : (s.noteEcc a c).lastFault = s.lastFault :=
  keeps_onlyIf rfl

theorem State.enterBeacon_lastFault (s : State) (a c m k p : Nat) : (s.enterBeacon a c m k p).1.lastFault = s.lastFault := by
  unfold State.enterBeacon
  split
  · extract_lets bm gained y x s₁ s₂
    exact (sendFree_lastFault.regs.bump s₂ Reg.RNG_BEACON_MERGED 1).trans (keeps_onlyIf (State.noteEcc_lastFault s₁ _ _))
  · split
    · exact (sendFree_lastFault.flood _ _ _).trans (sendFree_lastFault.regs.bump s Reg.RNG_BEACON_UNMERGED 1)
    · exact State.noteEcc_lastFault _ _ _

theorem State.entryActs_lastFault (x : State × Option Merge) : (State.entryActs x).lastFault = x.1.lastFault := by
  unfold State.entryActs
  split
  · rfl
  · exact keeps_onlyIf (State.actOn_lastFault _ _)

theorem State.enterReport_lastFault (s : State) (a c : Nat) : (s.enterReport a c).1.lastFault = s.lastFault := by
  unfold State.enterReport
  extract_lets t
  have flagged : t.lastFault = s.lastFault := keeps_ite rfl (keeps_onlyIf rfl)
  split
  · exact (sendFree_lastFault.regs.bump t Reg.RNG_FILTERED 1).trans flagged
  · exact (State.enterBeacon_lastFault _ _ _ _ _ _).trans flagged

theorem State.settleEntry_lastFault (x : State × Option Merge) : (State.settleEntry x).lastFault = x.1.lastFault := by
  unfold State.settleEntry
  refine Eq.trans ?_ (State.entryActs_lastFault x)
  extract_lets t
  split
  · rfl
  · refine keeps_ite rfl ((State.twinLost_lastFault _).trans (keeps_ite rfl ?_))
    exact (State.entryActs_lastFault _).trans ((State.enterReport_lastFault _ _ _).trans (sendFree_lastFault.tellsLoss t _ _))

theorem State.report_lastFault (s : State) (a c : Nat) : (s.report a c).lastFault = s.lastFault :=
  (State.settleEntry_lastFault _).trans ((State.enterReport_lastFault _ _ _).trans (sendFree_lastFault.tellsLoss s a c))

theorem State.faultEntry_lastFault (s : State) (r : FaultRec) : (s.faultEntry r).lastFault = s.lastFault := by
  unfold State.faultEntry
  exact keeps_ite rfl rfl

/-- After a fault record there is a last one: this, or the one that came later in the same bus cycle (R423). -/
theorem State.recordFault_lastFault (s : State) (r : FaultRec) : (s.recordFault r).lastFault.isSome = true := by
  unfold State.recordFault
  extract_lets t u newFirst newLast f f₁ f₂ f₃ v
  have first : f₁.last = u.flt.last := by
    unfold f₁
    split <;> rfl
  have recorded : f₂.last.isSome = true := by
    unfold f₂
    split
    case isTrue => rfl
    case isFalse hnot =>
      cases hlast : u.flt.last with
      | none => exact absurd (show newLast = true by unfold newLast; rw [hlast]) hnot
      | some l => exact (congrArg Option.isSome (first.trans hlast)).trans rfl
  have kept : v.lastFault = f₂.last := State.faultEntry_lastFault _ r
  exact keeps_ite (f := fun s : State => s.lastFault.isSome) (kept ▸ recorded) (kept ▸ recorded)

theorem State.raise_lastFault (s : State) (r : FaultRec) : (s.raise r).lastFault.isSome = true := by
  have reported : (s.raise r).lastFault = (s.recordFault r).lastFault :=
    keeps_onlyIf (State.report_lastFault _ _ _)
  rw [reported]
  exact s.recordFault_lastFault r

end Sys2Proof.Machine
end

section
/-! UVER.OPEN, UCHK, a deferred tile that times out, and UVER.CLOSE's end (R149, R153, R189, R190, R193, R203); O24. -/

namespace Sys2Proof.Machine

/-! ### The weight table -/

/-- A changed weight entry. -/
theorem State.weight?_modWeight_same (s : State) (n : Nat) (g : Weight → Weight) : (s.modWeight n g).weight? n = (s.weight? n).map g := by
  have key : ((fun e : Nat × Weight => e.1 == n) ∘ fun e => if e.1 == n then (e.1, g e.2) else e) = fun e => e.1 == n := by
    funext e
    by_cases he : e.1 = n <;> simp [he]
  simp only [State.weight?, State.modWeight, List.find?_map, key]
  cases hfind : s.mask.weights.find? (fun e => e.1 == n) with
  | none => rfl
  | some e =>
    have hkey : e.1 = n := by simpa using List.find?_some hfind
    simp [hkey]

/-- Every other one. -/
theorem State.weight?_modWeight_ne (s : State) {n m : Nat} (g : Weight → Weight) (hm : m ≠ n) : (s.modWeight n g).weight? m = s.weight? m := by
  have key : ((fun e : Nat × Weight => e.1 == m) ∘ fun e => if e.1 == n then (e.1, g e.2) else e) = fun e => e.1 == m := by
    funext e
    by_cases he : e.1 = n <;> simp [he]
  have value : ∀ e : Nat × Weight, e.1 = m → (if e.1 == n then (e.1, g e.2) else e) = e := fun e he => by simp [he, hm]
  simp only [State.weight?, State.modWeight, List.find?_map, key]
  cases hfind : s.mask.weights.find? (fun e => e.1 == m) with
  | none => rfl
  | some e =>
    have hkey : e.1 = m := by simpa using List.find?_some hfind
    simp only [Option.map_some, value e hkey]

@[simp] theorem State.modWeight_verWaits (s : State) (n : Nat) (g : Weight → Weight) : (s.modWeight n g).mask.verWaits = s.mask.verWaits := rfl

/-! ### UVER.OPEN (R153, R189) -/

/-- The buffer that UVER.OPEN chooses enters writing at once where no instruction in flight names an old version in it. -/
theorem exec_uverOpen_enters {h : Head} {wt : BitVec 16} {tag : BitVec 32} {s : State} {w : Weight} {b : Bool} (hw : s.weight? wt.toNat = some w)
    (hb : w.choose (BitVec.ofNat 32 (s.ctx h.arr h.stream).curStep) = some b)
    (hfree : (w.buf b).st ≠ .ready ∨ s.namesVersion wt.toNat (w.buf b).tag = false) :
    exec (.uverOpen h wt tag) s = issue h (s.updInfo h 0x63 wt.toNat (s.uverOpenCheck h wt.toNat tag)) (fun slot t =>
      (t.addOp h.arr (s.newOp h 0x63 slot wt.toNat (s.cycle + s.lat 0x25) (.uverOpen wt.toNat tag.toNat true))).enterWriting wt.toNat b tag) s := by
  have enters : ((w.buf b).st == .ready && s.namesVersion wt.toNat (w.buf b).tag) = false := by
    rcases hfree with hst | hname
    · simp [hst]
    · simp [hname]
  show execUverOpen h wt tag s = _
  simp only [execUverOpen, hw, hb, Option.bind_some, Option.map_some, enters, Bool.false_eq_true, if_false]

/-- A UVER.OPEN waits for the users of an old version (R153). -/
def State.waitVersion (s : State) (v : VerWait) : State :=
  ({ s with mask := { s.mask with verWaits := s.mask.verWaits ++ [v] } } : State).bump Reg.MSK_VER_WAIT 1

@[simp] theorem State.waitVersion_arrays (s : State) (v : VerWait) : (s.waitVersion v).arrays = s.arrays := State.bump_arrays _ _ _
@[simp] theorem State.waitVersion_mem (s : State) (v : VerWait) : (s.waitVersion v).mem = s.mem := State.bump_mem _ _ _
@[simp] theorem State.waitVersion_mask (s : State) (v : VerWait) : (s.waitVersion v).mask = { s.mask with verWaits := s.mask.verWaits ++ [v] } :=
  State.bump_mask _ _ _

/-- A ready buffer whose version an instruction in flight names is waited for. -/
theorem exec_uverOpen_waits {h : Head} {wt : BitVec 16} {tag : BitVec 32} {s : State} {w : Weight} {b : Bool} (hw : s.weight? wt.toNat = some w)
    (hb : w.choose (BitVec.ofNat 32 (s.ctx h.arr h.stream).curStep) = some b) (hst : (w.buf b).st = .ready)
    (hname : s.namesVersion wt.toNat (w.buf b).tag = true) :
    exec (.uverOpen h wt tag) s = issue h (s.updInfo h 0x63 wt.toNat (s.uverOpenCheck h wt.toNat tag)) (fun slot t =>
      (t.addOp h.arr (s.newOp h 0x63 slot wt.toNat (s.cycle + s.lat 0x25) (.uverOpen wt.toNat tag.toNat false))).waitVersion
        ⟨wt.toNat, b, (w.buf b).tag, s.cycle⟩) s := by
  have waits : ((w.buf b).st == .ready && s.namesVersion wt.toNat (w.buf b).tag) = true := by simp [hst, hname]
  show execUverOpen h wt tag s = _
  simp only [execUverOpen, hw, hb, Option.bind_some, Option.map_some, waits, if_true]
  rfl

/-- What an instruction that has started leaves of the mask engine and of memory. -/
theorem State.starts.mask_mem {s t : State} {h : Head} {opcode k : Nat} {o : Op} (ht : s.starts t h opcode k o) : t.mask = s.mask ∧ t.mem = s.mem := by
  obtain ⟨⟨hframe, -⟩, -⟩ := ht
  constructor <;> rw [hframe]

/-- What an update of the other parts of the state leaves of an instruction that has started: its stream, its slot and every other array. -/
theorem State.starts.of_arrays {s t u : State} {h : Head} {opcode k : Nat} {o : Op} (ht : s.starts t h opcode k o) (hu : u.arrays = t.arrays) :
    s.movedOn u h ∧ (u.arr h.arr).ops = (s.arr h.arr).ops ++ [o] ∧ s.isOpOf h opcode k o ∧ ∀ m, m ≠ h.arr → u.arr m = s.arr m := by
  obtain ⟨⟨-, -, hothers⟩, moved, hops, isOp⟩ := ht
  exact ⟨moved.of_arrays hu, (congrArg ArrayState.ops (State.arr_of_arrays hu _)).trans hops, isOp,
    fun m hm => (State.arr_of_arrays hu m).trans (hothers m hm)⟩

/-- UVER.OPEN into a buffer that no instruction in flight names (R189). -/
theorem exec_uverOpen_enters_clean {h : Head} {wt : BitVec 16} {tag : BitVec 32} {s : State} {w : Weight} {b : Bool} {k : Nat}
    (hi : s.issuesClean h (s.updInfo h 0x63 wt.toNat (s.uverOpenCheck h wt.toNat tag)) k) (hw : s.weight? wt.toNat = some w)
    (hb : w.choose (BitVec.ofNat 32 (s.ctx h.arr h.stream).curStep) = some b)
    (hfree : (w.buf b).st ≠ .ready ∨ s.namesVersion wt.toNat (w.buf b).tag = false) :
    ∃ t o, exec (.uverOpen h wt tag) s = .next t ∧ s.movedOn t h ∧ (t.arr h.arr).ops = (s.arr h.arr).ops ++ [o] ∧ s.isOpOf h 0x63 k o ∧
      t.weight? wt.toNat = some (w.modBuf b (fun v => { v with st := .writing, tag := tag })) ∧ t.mem = s.mem ∧
      t.mask.verWaits = s.mask.verWaits ∧ (∀ n, n ≠ wt.toNat → t.weight? n = s.weight? n) ∧ ∀ m, m ≠ h.arr → t.arr m = s.arr m := by
  have starts := State.starts_issued hi rfl 0x63 wt.toNat (s.cycle + s.lat 0x25) (.uverOpen wt.toNat tag.toNat true)
  obtain ⟨mask, mem⟩ := starts.mask_mem
  obtain ⟨moved, hops, isOp, hothers⟩ := starts.of_arrays (State.modWeight_arrays _ wt.toNat fun w => w.modBuf b fun v => { v with st := .writing, tag := tag })
  have same : ∀ n, State.weight? (State.addOp _ _ _) n = s.weight? n := fun n => by unfold State.weight?; rw [mask]
  refine ⟨_, _, (exec_uverOpen_enters hw hb hfree).trans (issue_clean _ hi), moved, hops, isOp, ?_, mem, ?_, fun n hn => ?_, hothers⟩
  · rw [State.enterWriting, State.weight?_modWeight_same, same, hw]
    rfl
  · rw [State.enterWriting, State.modWeight_verWaits, mask]
  · rw [State.enterWriting, State.weight?_modWeight_ne _ _ hn, same]

/-- UVER.OPEN into a buffer whose old version is still named (R153). -/
theorem exec_uverOpen_waits_clean {h : Head} {wt : BitVec 16} {tag : BitVec 32} {s : State} {w : Weight} {b : Bool} {k : Nat}
    (hi : s.issuesClean h (s.updInfo h 0x63 wt.toNat (s.uverOpenCheck h wt.toNat tag)) k) (hw : s.weight? wt.toNat = some w)
    (hb : w.choose (BitVec.ofNat 32 (s.ctx h.arr h.stream).curStep) = some b) (hst : (w.buf b).st = .ready)
    (hname : s.namesVersion wt.toNat (w.buf b).tag = true) :
    ∃ t o, exec (.uverOpen h wt tag) s = .next t ∧ s.movedOn t h ∧ (t.arr h.arr).ops = (s.arr h.arr).ops ++ [o] ∧ s.isOpOf h 0x63 k o ∧
      t.mask.weights = s.mask.weights ∧ t.mask.verWaits = s.mask.verWaits ++ [⟨wt.toNat, b, (w.buf b).tag, s.cycle⟩] ∧
      t.mem = s.mem ∧ ∀ m, m ≠ h.arr → t.arr m = s.arr m := by
  have starts := State.starts_issued hi rfl 0x63 wt.toNat (s.cycle + s.lat 0x25) (.uverOpen wt.toNat tag.toNat false)
  obtain ⟨mask, mem⟩ := starts.mask_mem
  obtain ⟨moved, hops, isOp, hothers⟩ := starts.of_arrays (State.waitVersion_arrays _ ⟨wt.toNat, b, (w.buf b).tag, s.cycle⟩)
  refine ⟨_, _, (exec_uverOpen_waits hw hb hst hname).trans (issue_clean _ hi), moved, hops, isOp, ?_, ?_, ?_, hothers⟩
  · rw [State.waitVersion_mask, mask]
  · rw [State.waitVersion_mask, mask]
  · rw [State.waitVersion_mem, mem]

/-! ### UCHK (R193) -/

theorem exec_uchk (h : Head) (s : State) :
    exec (.uchk h) s = issue h (s.updInfo h 0x62 0xFFFF none) (fun slot t => (t.addOp h.arr (s.newOp h 0x62 slot 0xFFFF s.cycle .uchk)).modCtx h.arr h.stream
      (fun c => { c with uchkStep := some (s.ctx h.arr h.stream).curStep })) s := rfl

/-- UCHK takes its slot, and its stream has issued it in this step. -/
theorem exec_uchk_clean {h : Head} {s : State} {k : Nat} (hi : s.issuesClean h (s.updInfo h 0x62 0xFFFF none) k) :
    ∃ t o, exec (.uchk h) s = .next t ∧ s.onlyArray t h.arr ∧ (t.arr h.arr).ops = (s.arr h.arr).ops ++ [o] ∧ s.isOpOf h 0x62 k o ∧
      (t.ctx h.arr h.stream).sameAs { (s.ctx h.arr h.stream).past with uchkStep := some (s.ctx h.arr h.stream).curStep } := by
  have hl := hi.lt
  have hlt : h.arr < ((s.issued h (s.updInfo h 0x62 0xFFFF none)).addOp h.arr (s.newOp h 0x62 k 0xFFFF s.cycle .uchk)).arrays.length := by
    simpa [State.addOp] using hl
  obtain ⟨-, -, hops, isOp⟩ := State.starts_issued hi rfl 0x62 0xFFFF s.cycle .uchk
  have past := s.issued_past h (s.updInfo h 0x62 0xFFFF none) hl rfl
  refine ⟨_, _, (exec_uchk h s).trans (issue_clean _ hi), State.onlyArray_modArr (State.onlyArray_modArr (s.onlyArray_issued h _) _) _, ?_, isOp, ?_⟩
  · rw [State.modCtx, State.arr_modArr_same _ _ _ hlt, ← hops]
    cases h.stream <;> rfl
  · rw [State.ctx_modCtx_same _ _ _ _ hlt, State.ctx_addOp]
    exact congrArg (fun c : StreamCtx => { c with uchkStep := some (s.ctx h.arr h.stream).curStep }) past

/-! ### DEFER_TIMEOUT (R203) -/

/-- A fault changes no array. -/
theorem State.raise_arrays (s : State) (r : FaultRec) : (s.raise r).arrays = s.arrays :=
  have notes : EventFree State.arrays := .of_unread fun _ _ _ _ => rfl
  have reports : ReportFree State.arrays := { notes with
    regs := fun _ _ => rfl
    ring := fun _ _ => rfl
    thy := fun _ _ _ _ _ _ => rfl
    mem := fun _ _ _ => rfl
    mir := fun _ _ _ => rfl }
  have ecc : EccFree State.arrays := { notes with
    regs := fun _ _ => rfl
    tiers := fun _ _ => rfl
    posTesting := fun _ _ => rfl }
  reports.raise ecc (fun _ _ => rfl) s r

/-- An update that is given up leaves its slot, and the unit where it works on one of its tiles (R203). -/
def State.giveUp (s : State) (n seq : Nat) (o : Op) : State :=
  if ((s.loseOp n o).arr n).updCur.any (fun c => c.op == seq) then (s.loseOp n o).leaveTile n else s.loseOp n o

theorem State.giveUp_arr_same {s : State} {n : Nat} (hn : n < s.arrays.length) (seq : Nat) (o : Op) :
    ((s.giveUp n seq o).arr n).ops = (s.arr n).ops.filter (fun x => x.slot != o.slot) ∧
      ((s.giveUp n seq o).arr n).lost = (s.arr n).lost ++ [o] ∧ ((s.giveUp n seq o).arr n).deferred = (s.arr n).deferred := by
  have lost : (s.loseOp n o).arr n = { s.arr n with ops := (s.arr n).ops.filter (fun x => x.slot != o.slot), lost := (s.arr n).lost ++ [o] } := by
    rw [State.loseOp, State.arr_modArr_same _ _ _ (by simpa [State.dropOp] using hn), State.dropOp, State.arr_modArr_same _ _ _ hn]
  unfold State.giveUp
  split
  · rw [State.leaveTile, State.arr_modArr_same _ _ _ (by simpa [State.loseOp, State.dropOp] using hn), lost]
    exact ⟨rfl, rfl, rfl⟩
  · rw [lost]
    exact ⟨rfl, rfl, rfl⟩

theorem State.giveUp_arr_ne (s : State) {n m : Nat} (hm : m ≠ n) (seq : Nat) (o : Op) : (s.giveUp n seq o).arr m = s.arr m := by
  have lost : (s.loseOp n o).arr m = s.arr m := (State.arr_modArr_ne _ _ _ _ hm).trans (State.arr_modArr_ne _ _ _ _ hm)
  unfold State.giveUp
  split
  · exact (State.arr_modArr_ne _ _ _ _ hm).trans lost
  · exact lost

/-- The update of a tile that has waited too long is given up, with a STATE_TIMEOUT. -/
theorem exec_deferTimeout_faults {arr : Nat} {d : Deferred} {o : Op} {s : State} (hd : s.overdueTile arr = some d) (ho : (s.arr arr).updOp d.op = some o) :
    exec (.deferTimeout arr) s = .next ((s.giveUp arr d.op o).raise ((s.giveUp arr d.op o).opFault o arr 0x31 0 0)) := by
  show execDeferTimeout arr s = _
  simp only [execDeferTimeout, hd, ho]
  rfl

/-! ### UVER.CLOSE (R149, R190) -/

/-- The buffer in writing under a tag, if any, becomes ready. -/
def Weight.endWriting (w : Weight) (m : Cells) (tag : W32) : Weight :=
  match w.bufWith .writing tag with
  | some b => w.modBuf b (fun v => { v with st := .ready, gen := w.genWritten m b })
  | none => w

theorem Weight.endWriting_of_bufWith {w : Weight} {tag : W32} {b : Bool} (hb : w.bufWith .writing tag = some b) (m : Cells) :
    w.endWriting m tag = w.modBuf b (fun v => { v with st := .ready, gen := w.genWritten m b }) := by simp [Weight.endWriting, hb]

/-- Behind the last update of its weight, and no faulted one, UVER.CLOSE makes the version ready. -/
theorem exec_uverCloseRetire_ready {arr slot wt : Nat} {o : Op} {s : State} (ho : s.op? arr slot = some o) (hbody : o.body = .uverClose wt)
    (hat : o.readyAt ≤ s.cycle) (hearlier : (s.arr arr).earlierUpd wt o.seq = false)
    (hlost : (s.arr arr).lost.any (fun x => x.updBefore wt o.seq) = false) :
    exec (.uverCloseRetire arr slot) s = .next ((s.dropOp arr slot).modWeight wt (·.endWriting s.mem (nextTag o.step))) := by
  show execUverCloseRetire arr slot s = _
  simp only [execUverCloseRetire, ho, hbody, hearlier, hlost, Nat.not_lt.2 hat, decide_false, Bool.or_false, Bool.false_eq_true, if_false]
  rfl

/-- Behind a faulted one it leaves its slot alone. -/
theorem exec_uverCloseRetire_lost {arr slot wt : Nat} {o : Op} {s : State} (ho : s.op? arr slot = some o) (hbody : o.body = .uverClose wt)
    (hlost : (s.arr arr).lost.any (fun x => x.updBefore wt o.seq) = true) :
    exec (.uverCloseRetire arr slot) s = .next (s.dropOp arr slot) := by
  show execUverCloseRetire arr slot s = _
  simp only [execUverCloseRetire, ho, hbody, hlost, if_true]

/-! ### O24 -/

/-- Settles O24: UVER.OPEN and UCHK issue with the effect of their case; a deferred tile's fault reports to the ring and changes no array but for the update that is given up; UVER.CLOSE ends in one of its two cases. -/
theorem versions : Obligations.Versions := by
  unfold Obligations.Versions
  refine ⟨fun h wt tag s k hu hc hslot => ?_, fun arr d o s hn hd ho => ?_, fun arr slot wt o s hn ho hbody => ⟨?_, fun hlost => ?_⟩⟩
  · rw [← hu] at hslot ⊢
    refine ⟨fun w b hcheck hw hb => ?_, exec_uchk_clean (State.updInfo_issuesClean hu hc hslot rfl 0x62 0xFFFF)⟩
    have hi := State.updInfo_issuesClean hu hc hslot hcheck 0x63 wt.toNat
    exact ⟨exec_uverOpen_enters_clean hi hw hb, exec_uverOpen_waits_clean hi hw hb⟩
  · obtain ⟨hops, hlost, hdeferred⟩ := State.giveUp_arr_same hn d.op o
    have raised := State.arr_of_arrays (State.raise_arrays (s.giveUp arr d.op o) ((s.giveUp arr d.op o).opFault o arr 0x31 0 0))
    refine ⟨_, exec_deferTimeout_faults hd ho, ?_, ?_, ?_, State.raise_unacked _ _, State.raise_lastFault _ _, fun m hm => ?_⟩
    · rw [raised, hops]
    · rw [raised, hlost]
    · rw [raised, hdeferred]
    · rw [raised, State.giveUp_arr_ne s hm]
  · intro b w hat hearlier hlost hw hb
    refine ⟨_, exec_uverCloseRetire_ready ho hbody hat hearlier hlost, rfl, ?_, ?_, fun n hne => ?_, fun m hm => ?_⟩
    · exact congrArg ArrayState.ops (State.arr_modArr_same _ _ _ hn)
    · rw [State.weight?_modWeight_same, ← Weight.endWriting_of_bufWith hb]
      exact congrArg (Option.map _) hw
    · exact State.weight?_modWeight_ne (s.dropOp arr slot) _ hne
    · exact State.arr_modArr_ne s _ _ _ hm
  · exact ⟨_, exec_uverCloseRetire_lost ho hbody hlost, rfl⟩

end Sys2Proof.Machine
end

section
/-! A global norm that is not finite where UPD_CTRL stops the U stream (R193, R194): the verdict is a fault, its STOP report is about the module itself, and the report retires the receives of a context whose partner is the module, whose buffers become free values (R340). O25 lets this verdict change no memory. -/

namespace Sys2Proof.Machine

/-! ### A verdict that is a fault (R194) -/

/-- The state in which the verdict, the clip factor and UPD_NORM of a global sum are recorded (R193). -/
def State.withVerdict (s : State) (g2 : DW) : State :=
  let x := evalNorm g2 (s.reg Reg.UPD_CLIP) (s.reg Reg.UPD_ABSURD)
  ({ s with stp := { s.stp with verdict := x.1, verdictSat := s.ring.g2Sat, clip := x.2.1 } } : State).setReg Reg.UPD_NORM x.2.2

/-- A sum that is not finite is a fault where UPD_CTRL says so. -/
theorem State.recordVerdict_nonfinite {s : State} {g2 : DW} (hv : (evalNorm g2 (s.reg Reg.UPD_CLIP) (s.reg Reg.UPD_ABSURD)).1 = 2)
    (hstop : ((s.withVerdict g2).regN Reg.UPD_CTRL).testBit 0 = true) (n : Nat) (o : Op) :
    s.recordVerdict n o g2 = (s.withVerdict g2).raise ((s.withVerdict g2).opFault o n 0x90 0 0) := by
  unfold State.recordVerdict
  unfold State.withVerdict at hstop ⊢
  generalize evalNorm g2 (s.reg Reg.UPD_CLIP) (s.reg Reg.UPD_ABSURD) = x at hv hstop ⊢
  obtain ⟨v, c, norm⟩ := x
  obtain rfl : v = 2 := hv
  exact if_pos hstop

/-- The first check of the step leaves in memory what recording the verdict does. -/
theorem exec_uchkVerdict_mem {arr slot : Nat} {o : Op} {g2 : DW} {s t : State} (ho : s.op? arr slot = some o) (hbody : o.body = .uchk)
    (hg : s.ring.g2 = some g2) (hat : s.ring.g2At + s.lat 0x24 ≤ s.cycle) (hfirst : s.stp.verdict = 0)
    (ht : exec (.uchkVerdict arr slot) s = .next t) : t.mem = (s.recordVerdict arr o g2).mem := by
  have heffect : execUchkVerdict arr slot s = .next t := ht
  simp only [execUchkVerdict, ho, hg, hbody, Nat.not_lt.2 hat, if_false, hfirst, beq_self_eq_true, if_true, Host.Outcome.next.injEq] at heffect
  rw [← heffect]
  exact keeps_ite (f := State.mem) rfl rfl

/-! ### A module that hears itself -/

/-- The check of array 0, in slot 16. -/
def normCheck : Op := ⟨16, .u, 0x62, 0, 0, 0, 0, 0xFFFF, 0, none, none, 0, [], [], 0, false, .uchk⟩

/-- The infinite sum. -/
def infiniteSum : DW := ⟨0x7F800000#32, 0⟩

/-- A running module at ring address 0, a member of its job, with an OPEN context to itself and a receive on it, the first byte of whose buffer is `v`; the check waits, the global sum has arrived and is infinite, and UPD_CTRL lets it stop the U stream. -/
def State.infiniteNorm (v : Byte) : State :=
  { (State.reset.modArr 0 (fun a => { a with ops := [normCheck], issueSeq := 1 })).setReg Reg.UPD_CTRL 1#32 with
    mem := memSet [] 0x400000 v
    host := { HostIf.reset with st := .running }
    thy := { State.reset.thy with cycle := 100000 }
    tiers := { State.reset.tiers with regions := [⟨0x400000, 0x100000, 5, 31, 7, 0⟩] }
    ring := { Ring.reset with members := 1, g2 := some infiniteSum, ctxs := [(5, ⟨.open_, 0, 5, 0, false, [], [loopRecv], [], 0, 0, false⟩)] } }

/-- The module meets the invariant. -/
theorem State.infiniteNorm_inv (v : Byte) : (State.infiniteNorm v).InvTo 0 :=
  { ((State.InvTo.resetOf Device.reset []).modArr (n := 0) (g := fun a => { a with ops := [normCheck], issueSeq := 1 })).setReg
      (off := Reg.UPD_CTRL) (v := 1#32) with
    mem := memSet_wf _ _ _ ⟨.nil, nofun⟩
    ports := rfl }

/-- Its verdict is recorded. -/
def State.infiniteVerdict (v : Byte) : State := (State.infiniteNorm v).withVerdict infiniteSum

/-- The fault of the check. -/
def infiniteFault (v : Byte) : FaultRec := (State.infiniteVerdict v).opFault normCheck 0 0x90 0 0

/-- What its report enters. -/
def infiniteReport (v : Byte) : State × Option Merge := (State.infiniteVerdict v).reporting (infiniteFault v)

/-- Its merge entry: about module 0, class 0x90. -/
def nonfiniteMerge : Merge := ⟨0, 0x90, 1, 0, 0, some 8, 5, true⟩

/-- Recording the verdict reports the module itself, and the report acts (R340, R427). -/
theorem State.infiniteNorm_acts {v : Byte} (hv : v ∈ [1#8, 2#8]) :
    (State.infiniteNorm v).recordVerdict 0 normCheck infiniteSum = (infiniteReport v).1.actOn nonfiniteMerge := by
  have reports : ∀ v ∈ [1#8, 2#8], ((State.infiniteVerdict v).recordFault (infiniteFault v)).host.st = .running ∧
      ((State.infiniteVerdict v).recordFault (infiniteFault v)).flt.beaconSent = false ∧ (infiniteReport v).2 = some nonfiniteMerge ∧
      (infiniteReport v).1.losesTwin nonfiniteMerge = false := by decide +kernel
  have stops : ∀ v ∈ [1#8, 2#8],
      (evalNorm infiniteSum ((State.infiniteNorm v).reg Reg.UPD_CLIP) ((State.infiniteNorm v).reg Reg.UPD_ABSURD)).1 = 2 ∧
      ((State.infiniteVerdict v).regN Reg.UPD_CTRL).testBit 0 = true := by decide +kernel
  obtain ⟨hrun, hfirst, hentry, htwin⟩ := reports v hv
  obtain ⟨hverdict, hstop⟩ := stops v hv
  rw [State.recordVerdict_nonfinite hverdict hstop]
  exact State.raise_acts hrun hfirst hentry rfl htwin

/-- After the verdict the first byte of the receive's buffer is a free value, whatever it was. -/
theorem State.infiniteNorm_freeByte {v : Byte} (hv : v ∈ [1#8, 2#8]) :
    memByte ((State.infiniteNorm v).recordVerdict 0 normCheck infiniteSum).mem 0x400000 = Config.freeByte 0 := by
  have receive : ∀ v ∈ [1#8, 2#8], (infiniteReport v).1.recvsWith 0 = [loopRecv] ∧ (infiniteReport v).1.freeCtr = 0 := by decide +kernel
  obtain ⟨hrecv, hctr⟩ := receive v hv
  have hwf : Memory.wf (infiniteReport v).1.mem := (State.InvTo.reporting (s := State.infiniteVerdict v) (State.infiniteNorm_inv v).withStp.setReg).mem
  have released : memByte ((infiniteReport v).1.actOn nonfiniteMerge).mem loopRecv.buf = Config.freeByte (infiniteReport v).1.freeCtr :=
    State.actOn_firstByte (e := nonfiniteMerge) hwf hrecv (by decide)
  rw [State.infiniteNorm_acts hv, ← hctr]
  exact released

/-- O25 keeps that byte. -/
theorem State.infiniteNorm_kept (hall : Obligations.NormVerdictAndTiles) {v : Byte} (hv : v ∈ [1#8, 2#8]) :
    memByte ((State.infiniteNorm v).recordVerdict 0 normCheck infiniteSum).mem 0x400000 = v := by
  unfold Obligations.NormVerdictAndTiles at hall
  obtain ⟨⟨-, hverdict⟩, -⟩ := hall
  have premises : ∀ v ∈ [1#8, 2#8], (State.infiniteNorm v).op? 0 16 = some normCheck ∧
      (State.infiniteNorm v).ring.g2At + (State.infiniteNorm v).lat 0x24 ≤ (State.infiniteNorm v).cycle ∧
      (evalNorm infiniteSum ((State.infiniteNorm v).reg Reg.UPD_CLIP) ((State.infiniteNorm v).reg Reg.UPD_ABSURD)).1 = 2 ∧
      ((State.infiniteNorm v).regN Reg.UPD_CTRL).testBit 0 = true ∧ memByte (State.infiniteNorm v).mem 0x400000 = v := by decide +kernel
  obtain ⟨hop, hat, hnorm, hstop, hbyte⟩ := premises v hv
  have inModule : 0 < (State.infiniteNorm v).arrays.length := by simp [(State.infiniteNorm_inv v).arrays]
  obtain ⟨-, -, hsuppress⟩ := hverdict 0 16 normCheck infiniteSum (State.infiniteNorm v) inModule hop rfl rfl hat
  obtain ⟨-, hfault⟩ := hsuppress 2 rfl hnorm (by decide) (State.infiniteNorm_inv v).regs
  obtain ⟨t, ht, -, -, -, -, hmem, -⟩ := hfault hstop
  rw [← exec_uchkVerdict_mem hop rfl rfl hat rfl ht, hmem, hbyte]

/-- Refutes O25: where the global norm is not finite and UPD_CTRL stops the U stream, the verdict is a fault (R194), and its STOP report retires the receive of a context whose partner is the module itself, whose buffer becomes free values (R340); the statement says that memory is as before. The free value is the same for two modules that differ in the first byte of that buffer alone, so one of them refutes the statement. -/
theorem not_normVerdictAndTiles : ¬ Obligations.NormVerdictAndTiles := by
  intro hall
  have one : Config.freeByte 0 = 1#8 := (State.infiniteNorm_freeByte (by decide)).symm.trans (State.infiniteNorm_kept hall (by decide))
  have two : Config.freeByte 0 = 2#8 := (State.infiniteNorm_freeByte (by decide)).symm.trans (State.infiniteNorm_kept hall (by decide))
  exact absurd (one.symm.trans two) (by decide)

end Sys2Proof.Machine
end

section
/-! A BAR4 read of a block that does not correct, in a running module: the fault of the read (R216, R377) forms a STOP report about the module itself, and the report retires the receives of a context whose partner is the module, whose buffers become free values (R340). O51 lets a read change no memory. -/

namespace Sys2Proof.Machine

/-! ### Reads of Sage and the host that do not correct (R209, R216) -/

/-- The fault of such a read. -/
def State.hostReadFault (s : State) (code bad : Nat) : FaultRec := { FaultRec.of code 8 with addr := bad, aux := s.faultAux 0xFF code bad }

/-- A read that does not correct raises its fault and brings free values. -/
theorem State.hostReads_uncorrectable {s : State} {a n code bad : Nat} (he : s.eccBad a n = some (code, bad)) :
    s.hostReads a n = ((s.raise (s.hostReadFault code bad)).used n, (s.raise (s.hostReadFault code bad)).freeBytes n) := by
  simp [State.hostReads, he, State.hostReadFault]

/-- Memory after such a read is memory after its fault. -/
theorem State.hostReads_uncorrectable_mem {s : State} {a n code bad : Nat} (he : s.eccBad a n = some (code, bad)) :
    (s.hostReads a n).1.mem = (s.raise (s.hostReadFault code bad)).mem := by
  rw [State.hostReads_uncorrectable he]
  rfl

/-- A permitted BAR4 read leaves in memory what its read of memory does. -/
theorem exec_bar4Read_mem {s t : State} {ofs : Nat} {data : List Byte} (hp : s.powered = true) (hb : s.host.bootDone = true)
    (hreach : s.bar4Reaches (s.bar4At ofs) data.length .read = true) (hin : ofs + data.length ≤ 2 ^ 36)
    (ht : exec (.bar4Access false false ofs data) s = .next t) : t.mem = (s.hostReads (s.bar4At ofs) data.length).1.mem := by
  have heffect : execBar4Access false false ofs data s = .next t := ht
  simp only [execBar4Access, hp, hb, hreach, Nat.not_lt.2 hin, Bool.not_true, Bool.or_self, Bool.and_self, Bool.false_eq_true, if_false,
    Host.Outcome.next.injEq] at heffect
  rw [← heffect]
  rfl

/-! ### A module that hears itself -/

/-- A running module with an image, at ring address 0 and a member of its job, with an OPEN context to itself and a receive on it, the first byte of whose buffer is `v`; the block at 0x480000 does not correct. -/
def State.badBlock (v : Byte) : State :=
  { State.reset with
    mem := memSet [] 0x400000 v
    host := { HostIf.reset with st := .running, bootDone := true, committed := true }
    tiers := { State.reset.tiers with regions := [⟨0x400000, 0x100000, 5, 31, 7, 0⟩], bad := [0x480000 / 2048] }
    ring := { Ring.reset with members := 1, ctxs := [(5, ⟨.open_, 0, 5, 0, false, [], [loopRecv], [], 0, 0, false⟩)] } }

/-- The module meets the invariant. -/
theorem State.badBlock_inv (v : Byte) : (State.badBlock v).InvTo 0 :=
  { State.InvTo.resetOf Device.reset [] with
    mem := memSet_wf _ _ _ ⟨.nil, nofun⟩
    ports := rfl }

/-- The fault of a read of the block. -/
def badBlockFault (v : Byte) : FaultRec := (State.badBlock v).hostReadFault 0x51 0x480000

/-- What its report enters. -/
def badBlockReport (v : Byte) : State × Option Merge := (State.badBlock v).reporting (badBlockFault v)

/-- The fault reports the module itself, in the entry `loopMerge`, and the report acts (R340, R427). -/
theorem State.badBlock_acts {v : Byte} (hv : v ∈ [1#8, 2#8]) :
    (State.badBlock v).raise (badBlockFault v) = (badBlockReport v).1.actOn loopMerge := by
  have reports : ∀ v ∈ [1#8, 2#8], ((State.badBlock v).recordFault (badBlockFault v)).host.st = .running ∧
      ((State.badBlock v).recordFault (badBlockFault v)).flt.beaconSent = false ∧ (badBlockReport v).2 = some loopMerge ∧
      (badBlockReport v).1.losesTwin loopMerge = false := by decide +kernel
  obtain ⟨hrun, hfirst, hentry, htwin⟩ := reports v hv
  exact State.raise_acts hrun hfirst hentry rfl htwin

/-- After the fault the first byte of the receive's buffer is a free value, whatever it was. -/
theorem State.badBlock_freeByte {v : Byte} (hv : v ∈ [1#8, 2#8]) :
    memByte ((State.badBlock v).raise (badBlockFault v)).mem 0x400000 = Config.freeByte 0 := by
  have receive : ∀ v ∈ [1#8, 2#8], (badBlockReport v).1.recvsWith 0 = [loopRecv] ∧ (badBlockReport v).1.freeCtr = 0 := by decide +kernel
  obtain ⟨hrecv, hctr⟩ := receive v hv
  have released : memByte ((badBlockReport v).1.actOn loopMerge).mem loopRecv.buf = Config.freeByte (badBlockReport v).1.freeCtr :=
    State.actOn_firstByte (e := loopMerge) (State.badBlock_inv v).reporting.mem hrecv (by decide)
  rw [State.badBlock_acts hv, ← hctr]
  exact released

/-- O51 would let the fault of a permitted read change no memory. -/
theorem State.bar4Read_fault_mem (hall : Obligations.Bar4AndPeriodicChecks) {s : State} {ofs code bad : Nat} {data : List Byte} (hp : s.powered = true)
    (hb : s.host.bootDone = true) (hreach : s.bar4Reaches (s.bar4At ofs) data.length .read = true) (hwait : s.host.bar4Waiting = [])
    (hin : ofs + data.length ≤ 2 ^ 36) (hwf : Memory.wf s.mem) (hecc : s.eccBad (s.bar4At ofs) data.length = some (code, bad)) :
    (s.raise (s.hostReadFault code bad)).mem = s.mem := by
  unfold Obligations.Bar4AndPeriodicChecks at hall
  obtain ⟨hbar4, -⟩ := hall
  obtain ⟨-, -, -, hread, -⟩ := hbar4 ofs data s hp hb
  obtain ⟨t, ht, -, hmem, -⟩ := (hread hreach hwait hin hwf).2 code bad hecc
  calc (s.raise (s.hostReadFault code bad)).mem
      = (s.hostReads (s.bar4At ofs) data.length).1.mem := (State.hostReads_uncorrectable_mem hecc).symm
    _ = t.mem := (exec_bar4Read_mem hp hb hreach hin ht).symm
    _ = s.mem := hmem

/-- The read of the block is permitted and does not correct, and the first byte of the receive's buffer is `v`. -/
theorem State.badBlock_read : ∀ v ∈ [1#8, 2#8], (State.badBlock v).powered = true ∧
    (State.badBlock v).bar4Reaches ((State.badBlock v).bar4At 0x480000) 1 .read = true ∧
    (State.badBlock v).eccBad ((State.badBlock v).bar4At 0x480000) 1 = some (0x51, 0x480000) ∧
    memByte (State.badBlock v).mem 0x400000 = v := by decide +kernel

/-- O51 would keep that byte. -/
theorem State.badBlock_kept (hall : Obligations.Bar4AndPeriodicChecks) {v : Byte} (hv : v ∈ [1#8, 2#8]) :
    memByte ((State.badBlock v).raise (badBlockFault v)).mem 0x400000 = v := by
  obtain ⟨hpowered, hreach, hecc, hbyte⟩ := State.badBlock_read v hv
  have hkept := State.bar4Read_fault_mem hall (ofs := 0x480000) (data := [0#8]) hpowered rfl hreach rfl (by decide) (State.badBlock_inv v).mem hecc
  exact (congrArg (memByte · 0x400000) hkept).trans hbyte

/-- Refutes O51: a permitted BAR4 read of a block that does not correct raises its fault (R216, R377), and in a running module the STOP report of the fault retires the receive of a context whose partner is the module itself, whose buffer becomes free values (R340); the statement says that memory is as before. The free value is the same for two modules that differ in the first byte of that buffer alone, so one of them refutes the statement. -/
theorem not_bar4AndPeriodicChecks : ¬ Obligations.Bar4AndPeriodicChecks := by
  intro hall
  have one : Config.freeByte 0 = 1#8 := (State.badBlock_freeByte (by decide)).symm.trans (State.badBlock_kept hall (by decide))
  have two : Config.freeByte 0 = 2#8 := (State.badBlock_freeByte (by decide)).symm.trans (State.badBlock_kept hall (by decide))
  exact absurd (one.symm.trans two) (by decide)

end Sys2Proof.Machine
end

section
/-! What a correction of an ECC error on the way of a read keeps (R209, R216, R219). It counts, may start the substitution of a package and posts that event: of the tiers it changes the counts, the copy and the blocks and words to correct alone. -/

namespace Sys2Proof.Machine

/-- `P` is kept by the single updates of a correction. -/
structure CorrectStable (P : State → Prop) : Prop where
  notes : ∀ {s : State} m x, x.first = s.flt.first → x.unacked = s.flt.unacked → P s → P { s with hostMem := m, flt := x }
  setReg : ∀ {s : State} a v, P s → P (s.setReg a v)
  setBits : ∀ {s : State} a m, P s → P (s.setBits a m)
  counts : ∀ {s : State} ce copy used waiting soft nearSoft, P s → P { s with
    tiers := { s.tiers with pkgCe := ce, copy := copy, usedSpares := used, copyWaiting := waiting, soft := soft, nearSoft := nearSoft } }

namespace CorrectStable

variable {P : State → Prop} {s : State}

theorem ite {c : Prop} [Decidable c] {u : State} (hs : P s) (hu : P u) : P (if c then s else u) := by split <;> assumption

theorem foldl {β : Type} {g : State → β → State} (hg : ∀ {s} x, P s → P (g s x)) (l : List β) (hs : P s) : P (l.foldl g s) := by
  induction l generalizing s with
  | nil => exact hs
  | cons x l ih => exact ih (hg x hs)

variable (hP : CorrectStable P)
include hP

theorem flt (x : Faults) (hs : P s) (h1 : x.first = s.flt.first := by rfl) (h2 : x.unacked = s.flt.unacked := by rfl) : P { s with flt := x } :=
  hP.notes s.hostMem x h1 h2 hs

theorem bump (a n : Nat) (hs : P s) : P (s.bump a n) := by
  unfold State.bump
  split
  · exact hs
  · exact hP.setReg a _ hs

theorem note (a b n m : Nat) (hs : P s) : P ((s.bump a n).setBits b m) := hP.setBits b m (hP.bump a n hs)

theorem signalEvents (v : Nat) (hs : P s) : P (s.signalEvents v) := by
  unfold State.signalEvents
  cases v == 1
  · exact ite (hP.flt _ hs) hs
  · exact ite (hP.flt _ hs) hs

theorem writeEntry (e : EventEntry) (hs : P s) : P (s.writeEntry e) := by
  unfold State.writeEntry
  split
  · exact hP.flt _ hs
  split
  · exact hP.note _ _ _ _ hs
  split
  · exact hP.flt _ hs
  · exact hP.signalEvents _ (hP.notes _ _ rfl rfl hs)

theorem event (c d : Nat) (hs : P s) : P (s.event c d) := by
  have counted : P s.countEvent := hP.note _ _ _ _ hs
  unfold State.event State.postEvent
  exact ite (hP.flt _ (hP.bump _ _ counted)) (hP.writeEntry _ (ite (hP.flt _ counted) counted))

theorem startCopy (c : Nat) (hs : P s) : P (s.startCopy c) := by
  unfold State.startCopy
  extract_lets slot
  split
  · exact hs
  split
  · split
    · exact hs
    · exact hP.counts _ _ _ _ _ _ hs
  split
  · exact hP.setBits _ _ hs
  next t rest _ =>
  have started : P (({ s with tiers := { s.tiers with copy := some ⟨slot, c, t, 0⟩, usedSpares := s.tiers.usedSpares ++ [t] } } : State).setReg64
      Reg.TIR_COPY_PTR 0) := hP.setReg _ _ (hP.setReg _ _ (hP.counts _ _ _ _ _ _ hs))
  split
  · exact hP.event _ _ (hP.setBits _ _ started)
  · exact started

theorem countCorrected (c n : Nat) (hs : P s) : P (s.countCorrected c n) := by
  have counted : ∀ ce, P { s with tiers := { s.tiers with pkgCe := ce } } := fun _ => hP.counts _ _ _ _ _ _ hs
  exact ite (hP.startCopy c (hP.setBits _ _ (counted _))) (counted _)

theorem correctBlock (b : Nat × Nat) (hs : P s) : P (s.correctBlock b) := hP.countCorrected _ _ (hP.counts _ _ _ _ _ _ hs)

theorem correctWord (w : Nat) (hs : P s) : P (s.correctWord w) :=
  hP.bump (s := { s with tiers := { s.tiers with nearSoft := s.tiers.nearSoft.erase w } }) _ 1 (hP.counts _ _ _ _ _ _ hs)

theorem correctAt (a n : Nat) (hs : P s) : P (s.correctAt a n) := by
  unfold State.correctAt
  split
  · exact hs
  split
  · exact foldl (fun b => hP.correctBlock b) _ hs
  · exact foldl (fun w => hP.correctWord w) _ hs

theorem corrected (rs : List (Nat × Nat)) (own : Nat) (hs : P s) : P (s.corrected rs own) := by
  unfold State.corrected
  split
  · exact hs
  · exact foldl (fun (r : Nat × Nat) => hP.correctAt r.1 r.2) _ hs

end CorrectStable

/-- An observation that reads nothing that a correction changes. -/
structure CorrectFree {α : Type} (f : State → α) : Prop where
  regs : RegFree f
  notes : ∀ (s : State) m x, x.first = s.flt.first → x.unacked = s.flt.unacked → f { s with hostMem := m, flt := x } = f s
  counts : ∀ (s : State) ce copy used waiting soft nearSoft, f { s with
    tiers := { s.tiers with pkgCe := ce, copy := copy, usedSpares := used, copyWaiting := waiting, soft := soft, nearSoft := nearSoft } } = f s

theorem CorrectFree.corrected {α : Type} {f : State → α} (hf : CorrectFree f) (s : State) (rs : List (Nat × Nat)) (own : Nat) :
    f (s.corrected rs own) = f s :=
  CorrectStable.corrected (P := fun t => f t = f s)
    { notes := fun m x h1 h2 hs => (hf.notes _ m x h1 h2).trans hs
      setReg := fun a v hs => (hf.regs.setReg _ a v).trans hs
      setBits := fun a m hs => (hf.regs.setBits _ a m).trans hs
      counts := fun _ _ _ _ _ _ hs => (hf.counts _ _ _ _ _ _ _).trans hs } rs own rfl

/-- A correction leaves the registers in their order. -/
theorem State.corrected_regsSorted {s : State} (hs : s.regsSorted) (rs : List (Nat × Nat)) (own : Nat) : (s.corrected rs own).regsSorted :=
  CorrectStable.corrected (P := State.regsSorted)
    { notes := fun _ _ _ _ hs => hs
      setReg := fun a v hs => State.setReg_regsSorted hs a v
      setBits := fun a m hs => State.setBits_regsSorted hs a m
      counts := fun _ _ _ _ _ _ hs => hs } rs own hs

section
variable (s : State) (rs : List (Nat × Nat)) (own : Nat)

@[simp] theorem State.corrected_mem : (s.corrected rs own).mem = s.mem :=
  CorrectFree.corrected (f := State.mem) ⟨fun _ _ => rfl, fun _ _ _ _ _ => rfl, fun _ _ _ _ _ _ _ => rfl⟩ s rs own

@[simp] theorem State.corrected_host : (s.corrected rs own).host = s.host :=
  CorrectFree.corrected (f := State.host) ⟨fun _ _ => rfl, fun _ _ _ _ _ => rfl, fun _ _ _ _ _ _ _ => rfl⟩ s rs own

@[simp] theorem State.corrected_staged : (s.corrected rs own).tiers.staged = s.tiers.staged :=
  CorrectFree.corrected (f := fun s => s.tiers.staged) ⟨fun _ _ => rfl, fun _ _ _ _ _ => rfl, fun _ _ _ _ _ _ _ => rfl⟩ s rs own

@[simp] theorem State.corrected_regions : (s.corrected rs own).tiers.regions = s.tiers.regions :=
  CorrectFree.corrected (f := fun s => s.tiers.regions) ⟨fun _ _ => rfl, fun _ _ _ _ _ => rfl, fun _ _ _ _ _ _ _ => rfl⟩ s rs own

end

end Sys2Proof.Machine
end

section
/-! PSTAGE, the placement engine's tick, the end of a staging and of a staging hold (R216, R226 to R232, R304); O30. -/

namespace Sys2Proof.Machine

/-! ### PSTAGE (R229, R304) -/

/-- What PSTAGE needs to issue. -/
def pstageInfo (ref : SRef) : IssueInfo := { IssueInfo.simple 0x72 [] with record := some (ref, 64) }

theorem State.pstage_issues {s : State} {h : Head} {ref : SRef} (hc : s.clear h [] = true) (hrec : s.recordInside h ref 64 = true) :
    s.issuesClean h (pstageInfo ref) 0 :=
  State.issuesClean_of hc (mem_allStreams _) rfl nofun rfl rfl (fun _ _ he => by cases he; exact hrec) rfl rfl nofun rfl

/-- PSTAGE of an object's address leaves a hint. -/
theorem exec_pstage_named {s : State} {h : Head} {ref : SRef} {r : PstageRec} {o : ObjInfo} (hi : s.issuesClean h (pstageInfo ref) 0)
    (ho : s.objAt ((s.ctx h.arr h.stream).aref r.obj) = some o) (hname : o.obj = (s.ctx h.arr h.stream).aref r.obj) :
    exec (.pstage h ref r) s = .next ((s.issued h (pstageInfo ref)).setHint h.arr ((s.ctx h.arr h.stream).aref r.obj)
      ((s.ctx h.arr h.stream).mark r.tick).toNat) := by
  refine Eq.trans (issue_clean (fun _ t => match s.objAt ((s.ctx h.arr h.stream).aref r.obj) with
    | some o => if o.obj == (s.ctx h.arr h.stream).aref r.obj then
        t.setHint h.arr ((s.ctx h.arr h.stream).aref r.obj) ((s.ctx h.arr h.stream).mark r.tick).toNat else t
    | none => t) hi) ?_
  simp [ho, hname, pstageInfo]

/-- PSTAGE of an address of no object issues and does nothing else. -/
theorem exec_pstage_unnamed {s : State} {h : Head} {ref : SRef} {r : PstageRec} (hi : s.issuesClean h (pstageInfo ref) 0)
    (ho : s.objAt ((s.ctx h.arr h.stream).aref r.obj) = none) : exec (.pstage h ref r) s = .next (s.issued h (pstageInfo ref)) := by
  refine Eq.trans (issue_clean (fun _ t => match s.objAt ((s.ctx h.arr h.stream).aref r.obj) with
    | some o => if o.obj == (s.ctx h.arr h.stream).aref r.obj then
        t.setHint h.arr ((s.ctx h.arr h.stream).aref r.obj) ((s.ctx h.arr h.stream).mark r.tick).toNat else t
    | none => t) hi) ?_
  simp [ho, pstageInfo]

/-- A hint changes the use records alone. -/
theorem State.onlyWork.setHint {s t : State} {n : Nat} (ht : s.onlyWork t n) (k obj tick : Nat) : s.onlyWork (t.setHint k obj tick) n := by
  obtain ⟨hframe, hlen, hothers⟩ := ht
  exact ⟨by rw [hframe]; rfl, hlen, hothers⟩

/-- The hint stands on the object's record, a new one where it had none. -/
theorem State.setHint_hint (s : State) (n obj tick : Nat) (hroom : s.tiers.records.length < 65536) :
    ∃ x ∈ (s.setHint n obj tick).tiers.records, x.key = obj ∧ (n, tick) ∈ x.hints := by
  unfold State.setHint
  dsimp only
  by_cases hany : s.tiers.records.any (fun r => !r.paged && r.key == obj)
  case pos =>
    obtain ⟨y, hy, hkey⟩ := List.any_eq_true.1 hany
    rw [if_pos hany]
    refine ⟨_, List.mem_map_of_mem hy, ?_, ?_⟩
    · rw [if_pos hkey]
      simp only [Bool.and_eq_true, beq_iff_eq] at hkey
      exact hkey.2
    · simp [hkey]
  case neg =>
    rw [if_neg hany, addRecord, if_pos hroom]
    exact ⟨_, List.mem_append_right _ (List.mem_singleton.2 rfl), rfl, by simp⟩

/-- PSTAGE (R229, R304). -/
theorem exec_pstage (h : Head) (ref : SRef) (r : PstageRec) (s : State) (hc : s.clear h [] = true) (hrec : s.recordInside h ref 64 = true) :
    (∀ o, s.objAt ((s.ctx h.arr h.stream).aref r.obj) = some o → o.obj = (s.ctx h.arr h.stream).aref r.obj → s.tiers.records.length < 65536 →
      ∃ t, exec (.pstage h ref r) s = .next t ∧ s.onlyWork t h.arr ∧ s.movedOn t h ∧ (t.arr h.arr).ops = (s.arr h.arr).ops ∧
        ∃ x ∈ t.tiers.records, x.key = (s.ctx h.arr h.stream).aref r.obj ∧
          (h.arr, ((s.ctx h.arr h.stream).mark r.tick).toNat) ∈ x.hints) ∧
    (s.objAt ((s.ctx h.arr h.stream).aref r.obj) = none →
      ∃ t, exec (.pstage h ref r) s = .next t ∧ s.onlyStream t h ∧ t.tiers = s.tiers) := by
  have hi := State.pstage_issues hc hrec
  have hl := State.clear_lt hc
  refine ⟨fun o ho hname hroom => ⟨_, exec_pstage_named hi ho hname, (s.onlyArray_issued h _).onlyWork.setHint _ _ _,
      (s.movedOn_issued h (pstageInfo ref) hl rfl).of_arrays rfl, s.issued_ops h (pstageInfo ref) hl, ?_⟩,
    fun ho => ⟨_, exec_pstage_unnamed hi ho, s.onlyStream_issued h _ hl, s.issued_tiers h _⟩⟩
  exact State.setHint_hint _ _ _ _ (by rwa [State.issued_tiers])

/-! ### The engine's tick (R230, R231) -/

/-- What one candidate does: nothing, or a staging begins in the window, after the copies that make room for it have left it. -/
theorem State.placeOne_cases (s : State) (c : StageCand) :
    s.placeOne c = s ∨ ∃ u vs need, (u = s ∨ ∃ moved, u = (s.unstage [moved]).bump Reg.TIR_MIGRATE 1) ∧
      s.placeOne c = ((u.unstage vs).bump64 Reg.TIR_EVICT vs.length).beginStage c need := by
  unfold State.placeOne
  split
  · exact .inl rfl
  split
  · exact .inl rfl
  extract_lets need moveOk free u
  generalize moveOk = ok
  split
  · exact .inl rfl
  split
  · exact .inl rfl
  next vs _ =>
  split
  · exact .inl rfl
  refine .inr ⟨u, vs, need, ?_, rfl⟩
  unfold u
  cases s.elsewhere c with
  | none => exact .inl rfl
  | some moved => exact .inr ⟨moved, rfl⟩

/-- `f` reads neither a register nor which copies stand in the windows. -/
structure StageFree {α : Type} (f : State → α) : Prop where
  regs : RegFree f
  staged : ∀ (s : State) l, f { s with tiers := { s.tiers with staged := l } } = f s

namespace StageFree

variable {α : Type} {f : State → α}

theorem unstage (hf : StageFree f) (s : State) (ts : List Staged) : f (s.unstage ts) = f s := (hf.regs.bump64 _ _ _).trans (hf.staged s _)

theorem beginStage (hf : StageFree f) (s : State) (c : StageCand) (need : Nat) : f (s.beginStage c need) = f s :=
  (hf.regs.bump _ _ _).trans (hf.staged s _)

theorem placeOne (hf : StageFree f) (s : State) (c : StageCand) : f (s.placeOne c) = f s := by
  obtain hsame | ⟨u, vs, need, hu, hplace⟩ := s.placeOne_cases c
  · rw [hsame]
  · have moved : f u = f s := by
      obtain rfl | ⟨y, rfl⟩ := hu
      · rfl
      · exact (hf.regs.bump _ _ _).trans (hf.unstage s _)
    rw [hplace]
    exact (hf.beginStage _ _ _).trans ((hf.regs.bump64 _ _ _).trans ((hf.unstage _ _).trans moved))

theorem writeBackDirty (hf : StageFree f) (s : State) : f s.writeBackDirty = f s := (hf.regs.bump64 _ _ _).trans (hf.staged s _)

/-- The tick changes registers and the windows' copies alone. -/
theorem placementTick (hf : StageFree f) (s : State) (cs : List StageCand) : f (cs.foldl (fun s c => s.placeOne c) s.writeBackDirty) = f s :=
  (foldl_keeps (fun s c => hf.placeOne s c) cs _).trans (hf.writeBackDirty s)

end StageFree

theorem State.bump_staged (s : State) (a n : Nat) : (s.bump a n).tiers.staged = s.tiers.staged :=
  RegFree.bump (f := fun s : State => s.tiers.staged) (fun _ _ => rfl) s a n

theorem State.bump64_staged (s : State) (a n : Nat) : (s.bump64 a n).tiers.staged = s.tiers.staged :=
  RegFree.bump64 (f := fun s : State => s.tiers.staged) (fun _ _ => rfl) s a n

theorem State.mem_unstage {s : State} {ts : List Staged} {y : Staged} (hy : y ∈ (s.unstage ts).tiers.staged) : y ∈ s.tiers.staged := by
  rw [State.unstage, State.bump64_staged] at hy
  exact List.mem_of_mem_filter hy

/-- A copy in a window after a candidate is one of before, or the candidate's, arriving. -/
theorem State.mem_placeOne {s : State} {c : StageCand} {y : Staged} (hy : y ∈ (s.placeOne c).tiers.staged) :
    y ∈ s.tiers.staged ∨ (y.arriving = true ∧ c.obj = y.obj ∧ c.arr = y.arr) := by
  obtain hsame | ⟨u, vs, need, hu, hplace⟩ := s.placeOne_cases c
  · exact .inl (hsame ▸ hy)
  · rw [hplace, State.beginStage, State.bump_staged] at hy
    obtain hold | hnew := List.mem_append.1 hy
    · rw [State.bump64_staged] at hold
      have hu' := State.mem_unstage hold
      obtain rfl | ⟨moved, rfl⟩ := hu
      · exact .inl hu'
      · rw [State.bump_staged] at hu'
        exact .inl (State.mem_unstage hu')
    · rw [List.mem_singleton.1 hnew]
      exact .inr ⟨rfl, rfl, rfl⟩

/-- A copy in a window after the candidates is one of before, or a candidate's, arriving. -/
theorem State.mem_placeAll {cs : List StageCand} {s : State} {y : Staged} (hy : y ∈ (cs.foldl (fun (s : State) c => s.placeOne c) s).tiers.staged) :
    y ∈ s.tiers.staged ∨ (y.arriving = true ∧ ∃ c ∈ cs, c.obj = y.obj ∧ c.arr = y.arr) := by
  induction cs generalizing s with
  | nil => exact .inl hy
  | cons c cs ih =>
    obtain hold | ⟨harriving, d, hd, hobj⟩ := ih hy
    · obtain hold | ⟨harriving, hobj⟩ := State.mem_placeOne hold
      · exact .inl hold
      · exact .inr ⟨harriving, c, List.mem_cons_self, hobj⟩
    · exact .inr ⟨harriving, d, List.mem_cons_of_mem _ hd, hobj⟩

/-- Writing back makes copies clean and moves none. -/
theorem State.mem_writeBackDirty {s : State} {y : Staged} (hy : y ∈ s.writeBackDirty.tiers.staged) :
    ∃ x ∈ s.tiers.staged, x.obj = y.obj ∧ x.arr = y.arr ∧ x.arriving = y.arriving := by
  rw [State.writeBackDirty, State.bump64_staged] at hy
  obtain ⟨x, hx, rfl⟩ := List.mem_map.1 hy
  exact ⟨x, hx, by split <;> exact ⟨rfl, rfl, rfl⟩⟩

/-- PLACEMENT_TICK (R230, R231). -/
theorem exec_placementTick (s : State) : (s.writeBackDirty.candidates = [] → exec .placementTick s = .next s.writeBackDirty) ∧
    ∃ t, exec .placementTick s = .next t ∧ t.mem = s.mem ∧ t.arrays = s.arrays ∧ t.ring = s.ring ∧
      ∀ y ∈ t.tiers.staged, (∃ x ∈ s.tiers.staged, x.obj = y.obj ∧ x.arr = y.arr ∧ x.arriving = y.arriving) ∨
        (y.arriving = true ∧ ∃ c ∈ s.writeBackDirty.candidates, c.obj = y.obj ∧ c.arr = y.arr) := by
  have heffect : exec .placementTick s = .next (s.writeBackDirty.candidates.foldl (fun s c => s.placeOne c) s.writeBackDirty) := rfl
  refine ⟨fun hnone => by rw [heffect, hnone]; rfl, _, heffect, ?_, ?_, ?_, fun y hy => (State.mem_placeAll hy).imp_left State.mem_writeBackDirty⟩
  · exact StageFree.placementTick (f := State.mem) ⟨fun _ _ => rfl, fun _ _ => rfl⟩ s _
  · exact StageFree.placementTick (f := State.arrays) ⟨fun _ _ => rfl, fun _ _ => rfl⟩ s _
  · exact StageFree.placementTick (f := State.ring) ⟨fun _ _ => rfl, fun _ _ => rfl⟩ s _

/-! ### The end of a staging (R216, R226, R231) -/

/-- The state in which the copy `y` of an object with the pieces `ps` has arrived: its request is gone, what the far tier corrected is counted. -/
def State.arrived (s : State) (window obj : Nat) (y : Staged) (ps : List (Nat × Nat)) : State :=
  let done := ({ s with tiers := { s.tiers with requests := s.tiers.requests.filter (fun q => q != (⟨obj, window⟩ : PlRequest)) } } : State).corrected ps
  { done with tiers := { done.tiers with staged := done.tiers.staged.map (fun (x : Staged) => if x == y then { x with arriving := false } else x) } }

theorem exec_stagingComplete_arrives {window obj : Nat} {y : Staged} {o : ObjInfo} {s : State} (hy : s.staged? window obj = some y)
    (ho : s.objAt obj = some o) (harriving : y.arriving = true) (hecc : s.eccRanges o.pieces = none) :
    exec (.stagingComplete window obj) s = .next ((((s.arrived window obj y o.pieces).fillFrames y
      (o.bytes (s.arrived window obj y o.pieces).mem)).bump64 Reg.TIR_STAGED 1).endDeferral window obj) := by
  show execStagingComplete window obj s = _
  unfold execStagingComplete
  simp only [hy, ho, harriving, hecc]
  rfl

/-- What a correction leaves and no request touches is as before the arrival. -/
theorem State.arrived_keeps {α : Type} {f : State → α} (hf : CorrectFree f)
    (hr : ∀ (s : State) q, f { s with tiers := { s.tiers with requests := q } } = f s)
    (hs : ∀ (s : State) l, f { s with tiers := { s.tiers with staged := l } } = f s) (s : State) (window obj : Nat) (y : Staged) (ps : List (Nat × Nat)) :
    f (s.arrived window obj y ps) = f s := (hs _ _).trans ((hf.corrected _ ps _).trans (hr s _))

section
variable (s : State) (window obj : Nat) (y : Staged) (ps : List (Nat × Nat))

theorem State.arrived_mem : (s.arrived window obj y ps).mem = s.mem := State.corrected_mem _ _ _

theorem State.arrived_arrays : (s.arrived window obj y ps).arrays = s.arrays := State.corrected_arrays _ _ _

theorem State.arrived_window (n : Nat) : (s.arrived window obj y ps).window n = s.window n := by
  simp only [State.window, State.arrived, State.corrected_regions]

theorem State.arrived_records : (s.arrived window obj y ps).tiers.records = s.tiers.records :=
  State.arrived_keeps (f := fun s => s.tiers.records) ⟨fun _ _ => rfl, fun _ _ _ _ _ => rfl, fun _ _ _ _ _ _ _ => rfl⟩ (fun _ _ => rfl) (fun _ _ => rfl) s _ _ _ _

theorem State.arrived_requests : (s.arrived window obj y ps).tiers.requests = s.tiers.requests.filter (fun q => q != ⟨obj, window⟩) :=
  CorrectFree.corrected (f := fun s => s.tiers.requests) ⟨fun _ _ => rfl, fun _ _ _ _ _ => rfl, fun _ _ _ _ _ _ _ => rfl⟩ _ ps _

theorem State.arrived_staged :
    (s.arrived window obj y ps).tiers.staged = s.tiers.staged.map (fun (x : Staged) => if x == y then { x with arriving := false } else x) := by
  simp only [State.arrived, State.corrected_staged]

end

/-- An arrival leaves the copy of the object it is for where it was found, usable now. -/
theorem State.arrived_isStaged {s : State} {window obj : Nat} {y : Staged} (hy : s.staged? window obj = some y) (ps : List (Nat × Nat)) :
    (s.arrived window obj y ps).isStaged window obj = true := by
  have same : ((fun x : Staged => x.arr == window && x.obj == obj) ∘ fun x => if x == y then { x with arriving := false } else x) =
      fun x => x.arr == window && x.obj == obj := by
    funext x
    dsimp only [Function.comp]
    split <;> rfl
  have hfind : s.tiers.staged.find? (fun x => x.arr == window && x.obj == obj) = some y := hy
  rw [State.isStaged, State.staged?, State.arrived_staged, List.find?_map, same, hfind]
  simp

/-- The waits that end are counted, nothing else. -/
theorem RegFree.endDeferral {α : Type} {f : State → α} (hf : RegFree f) (s : State) (n obj : Nat) : f (s.endDeferral n obj) = f s := by
  refine foldl_keeps (fun s d => ?_) _ s
  split
  · exact keeps_onlyIf (hf.bump64 s _ _)
  · rfl

/-- The bytes that fill frames go by the window and memory alone. -/
theorem State.fillFrames_mem {s t : State} {y : Staged} (hw : t.window y.arr = s.window y.arr) (hm : t.mem = s.mem) (bs : List Byte) :
    (t.fillFrames y bs).mem = (s.fillFrames y bs).mem := by simp only [State.fillFrames, hw, hm]

/-- STAGING_COMPLETE (R216, R226, R231). -/
theorem exec_stagingComplete (window obj : Nat) (y : Staged) (o : ObjInfo) (s : State) (hy : s.staged? window obj = some y)
    (ho : s.objAt obj = some o) (harriving : y.arriving = true) (hecc : s.eccRanges o.pieces = none) :
    ∃ t, exec (.stagingComplete window obj) s = .next t ∧ t.isStaged window obj = true ∧
      t.mem = (s.fillFrames y (o.bytes s.mem)).mem ∧ t.tiers.requests = s.tiers.requests.filter (fun q => q != ⟨obj, window⟩) ∧
      t.arrays = s.arrays ∧ t.tiers.records = s.tiers.records := by
  have counted : ∀ {α : Type} {f : State → α}, RegFree f → ∀ u : State, f ((u.bump64 Reg.TIR_STAGED 1).endDeferral window obj) = f u :=
    fun hf u => (hf.endDeferral _ _ _).trans (hf.bump64 u _ _)
  refine ⟨_, exec_stagingComplete_arrives hy ho harriving hecc, ?_, ?_, ?_, ?_, ?_⟩
  · rw [counted (f := fun s => s.isStaged window obj) fun _ _ => rfl]
    exact State.arrived_isStaged hy o.pieces
  · rw [counted (f := State.mem) fun _ _ => rfl, State.arrived_mem]
    exact State.fillFrames_mem (State.arrived_window _ _ _ _ _ _) (State.arrived_mem _ _ _ _ _) _
  · rw [counted (f := fun s => s.tiers.requests) fun _ _ => rfl]
    exact s.arrived_requests window obj y o.pieces
  · rw [counted (f := State.arrays) fun _ _ => rfl]
    exact s.arrived_arrays window obj y o.pieces
  · rw [counted (f := fun s => s.tiers.records) fun _ _ => rfl]
    exact s.arrived_records window obj y o.pieces

/-! ### A staging hold that lasts too long (R232) -/

theorem State.failHead_arrays (s : State) (n : Nat) (st : Stream) (hi : HeadInfo) (code addr : Nat) :
    (s.failHead n st hi code addr).arrays = (s.modCtx n st (fun c => { c with failed := true, head := some { hi with hold := .step } })).arrays :=
  State.raise_arrays _ _

theorem State.failHead_unacked (s : State) (n : Nat) (st : Stream) (hi : HeadInfo) (code addr : Nat) :
    (s.failHead n st hi code addr).flt.unacked = true := State.raise_unacked _ _

/-- A head that faults while it is held leaves the stream failed at it. -/
theorem State.failHead_ctx {s : State} {n : Nat} (hl : n < s.arrays.length) (st : Stream) (hi : HeadInfo) (code addr : Nat) :
    (s.failHead n st hi code addr).ctx n st = { s.ctx n st with failed := true, head := some { hi with hold := .step } } := by
  rw [State.ctx, State.arr_of_arrays (s.failHead_arrays n st hi code addr)]
  exact s.ctx_modCtx_same n st _ hl

theorem State.failHead_arr_ne (s : State) {n m : Nat} (hm : m ≠ n) (st : Stream) (hi : HeadInfo) (code addr : Nat) :
    (s.failHead n st hi code addr).arr m = s.arr m :=
  (State.arr_of_arrays (s.failHead_arrays n st hi code addr) m).trans (s.arr_modArr_ne n m _ hm)

theorem exec_stageHoldTimeout_fails {arr : Nat} {st : Stream} {hi : HeadInfo} {w : Nat × Nat} {s : State} (hhead : (s.ctx arr st).head = some hi)
    (hhold : hi.hold = .staging) (hok : (s.ctx arr st).failed = false) (hmay : s.mayTimeOut = true)
    (hw : hi.wants.find? (fun x => !s.isStaged x.2 x.1) = some w) (hlimit : hi.sinceTick + s.regN Reg.TIR_STAGE_LIMIT ≤ s.tick) :
    exec (.stageHoldTimeout arr st) s = .next (s.failHead arr st hi 0x31 w.1) := by
  show execStageHoldTimeout arr st s = _
  simp [execStageHoldTimeout, hhead, hhold, hok, hmay, hw, Nat.not_lt.2 hlimit]

/-- STAGE_HOLD_TIMEOUT (R232). -/
theorem exec_stageHoldTimeout (arr : Nat) (st : Stream) (hi : HeadInfo) (w : Nat × Nat) (s : State) (hl : arr < s.arrays.length)
    (hhead : (s.ctx arr st).head = some hi) (hhold : hi.hold = .staging) (hok : (s.ctx arr st).failed = false) (hmay : s.mayTimeOut = true)
    (hw : hi.wants.find? (fun x => !s.isStaged x.2 x.1) = some w) (hlimit : hi.sinceTick + s.regN Reg.TIR_STAGE_LIMIT ≤ s.tick) :
    ∃ t, exec (.stageHoldTimeout arr st) s = .next t ∧ (t.ctx arr st).failed = true ∧ (t.ctx arr st).pc = (s.ctx arr st).pc ∧
      t.flt.unacked = true ∧ ∀ m, m ≠ arr → t.arr m = s.arr m := by
  refine ⟨_, exec_stageHoldTimeout_fails hhead hhold hok hmay hw hlimit, ?_, ?_, s.failHead_unacked _ _ _ _ _, fun m hm => s.failHead_arr_ne hm _ _ _ _⟩
  · rw [State.failHead_ctx hl]
  · rw [State.failHead_ctx hl]

/-- Settles O30: a clause for each of the four instructions. -/
theorem placement : Obligations.Placement := by
  unfold Obligations.Placement
  exact ⟨⟨exec_pstage, exec_placementTick⟩, exec_stagingComplete, exec_stageHoldTimeout⟩

end Sys2Proof.Machine
end

section
/-! Registers, selectors and pairs under frames, the master's duties, events and reports: all these change registers of their own alone (R238, R249, R313, R337, R427). -/

namespace Sys2Proof.Machine

/-- Registers that count and flag what frames and reports do, beside those of `noteRegs`. -/
def reportRegs : List Nat :=
  [Reg.RNG_DISCARD, Reg.RNG_STATUS, Reg.RNG_FILTERED, Reg.RNG_BEACON_MERGED, Reg.RNG_BEACON_UNMERGED, Reg.MIR_STATUS] ++ noteRegs

theorem reportRegs_of_noteRegs {a : Nat} (ha : a ∈ noteRegs) : a ∈ reportRegs := List.mem_append_right _ ha

/-- `f` reads the register file alone (and the device, from which reset values come), and in it no register of `reportRegs`. -/
structure ReportRead {α : Type} (f : State → α) : Prop where
  other : ∀ (s t : State), t.regs = s.regs → t.dev = s.dev → f t = f s
  bump : ∀ (s : State) a n, a ∈ reportRegs → f (s.bump a n) = f s
  setBits : ∀ (s : State) a m, a ∈ reportRegs → f (s.setBits a m) = f s

namespace ReportRead

variable {α : Type} {f : State → α}

theorem toEventFree (hf : ReportRead f) : EventFree f where
  notes _ _ _ _ _ := hf.other _ _ rfl rfl
  bump s a n ha := hf.bump s a n (reportRegs_of_noteRegs ha)
  setBits s a m ha := hf.setBits s a m (reportRegs_of_noteRegs ha)

/-! Single updates beside the register file -/

theorem ring (hf : ReportRead f) (s : State) (x : Ring) : f { s with ring := x } = f s := hf.other _ _ rfl rfl

theorem modThy (hf : ReportRead f) (s : State) (g : Thyme → Thyme) : f (s.modThy g) = f s := hf.other _ _ rfl rfl

theorem flt (hf : ReportRead f) (s : State) (x : Faults) : f { s with flt := x } = f s := hf.other _ _ rfl rfl

theorem mir (hf : ReportRead f) (s : State) (x : Mirror) : f { s with mir := x } = f s := hf.other _ _ rfl rfl

/-! Frames and the Thyme master -/

theorem sendFrame (hf : ReportRead f) (s : State) (p : Nat) (x : OutFrame) : f (s.sendFrame p x) = f s := hf.other _ _ rfl rfl

theorem releaseHeld (hf : ReportRead f) (s : State) (r : Recv) : f (s.releaseHeld r) = f s :=
  foldl_keeps (g := fun s (h : HeldFrame) => s.giveCredit h.port 3 h.vc 1) (fun s _ => hf.other s _ rfl rfl) _ s

theorem flood (hf : ReportRead f) (s : State) (p : Nat) (x : OutFrame) : f (s.flood p x) = f s := foldl_keeps (fun s _ => hf.sendFrame s _ _) _ _

theorem sendTo (hf : ReportRead f) (s : State) (m : Bool) (d : Nat) (x : OutFrame) : f (s.sendTo m d x) = f s :=
  keeps_ite (hf.sendFrame s _ _) (keeps_ite (hf.bump s _ _ (by decide)) (hf.sendFrame s _ _))

theorem announce (hf : ReportRead f) (s : State) : f s.announce = f s := foldl_keeps (fun s _ => hf.sendFrame s _ _) _ _

/-- A changed Thyme block that is announced. -/
theorem announceThy (hf : ReportRead f) (s : State) (g : Thyme → Thyme) : f (s.modThy g).announce = f s := (hf.announce _).trans (hf.modThy s g)

theorem masterHoldOn (hf : ReportRead f) (s : State) (a : Nat) : f (s.masterHoldOn a) = f s := by
  refine Eq.trans ?_ (hf.modThy s (fun t => { t with levels := if t.levels.contains a then t.levels else t.levels ++ [a] }))
  unfold State.masterHoldOn
  dsimp only
  split
  · exact hf.announceThy _ _
  · split
    · rfl
    · exact keeps_ite (hf.announceThy _ _) (hf.announceThy _ _)

theorem masterHoldOff (hf : ReportRead f) (s : State) (a : Nat) : f (s.masterHoldOff a) = f s := by
  refine Eq.trans ?_ (hf.modThy s (fun t => { t with levels := t.levels.filter (· != a) }))
  unfold State.masterHoldOff
  dsimp only
  split
  · exact keeps_ite rfl (hf.announceThy _ _)
  · rfl

theorem retarget (hf : ReportRead f) (s : State) (l : List (Nat × Nat)) : f (s.retarget l) = f s :=
  Eq.trans (keeps_ite (hf.announceThy _ _) (keeps_onlyIf (hf.announceThy _ _)))
    (hf.modThy s (fun t => { t with reqRates := l, target := l.foldl (fun m e => min m e.2) 64 }))

theorem thymeMsg (hf : ReportRead f) (s : State) (k v : Nat) : f (s.thymeMsg k v) = f s :=
  keeps_ite (keeps_ite (hf.masterHoldOff s _) (keeps_ite (hf.masterHoldOn s _) (hf.retarget s _))) (hf.sendTo s _ _ _)

theorem becomeMaster (hf : ReportRead f) (s : State) : f s.becomeMaster = f s := by
  unfold State.becomeMaster
  extract_lets k t
  have requested : f t = f s := (hf.retarget _ _).trans (hf.modThy _ _)
  exact keeps_ite ((hf.masterHoldOn t _).trans requested) requested

/-! Reports -/

theorem releasePartner (hf : ReportRead f) (s : State) (a : Nat) : f (s.releasePartner a) = f s := by
  unfold State.releasePartner
  extract_lets rs t keep
  refine (hf.ring t _).trans (foldl_keeps (fun s r => ?_) rs s)
  exact (hf.releaseHeld _ r).trans (hf.other s _ rfl rfl)

theorem sendRebinds (hf : ReportRead f) (s : State) (a : Nat) : f (s.sendRebinds a) = f s := by
  unfold State.sendRebinds
  split
  · rfl
  · refine foldl_keeps (fun s e => ?_) _ s
    split
    · rfl
    · exact hf.sendTo s _ _ _

theorem twinLost (hf : ReportRead f) (s : State) : f s.twinLost = f s :=
  keeps_onlyIf ((hf.sendRebinds _ _).trans ((hf.toEventFree.postEvent _ _ _ _ _).trans ((hf.setBits _ _ _ (by decide)).trans (hf.mir s _))))

theorem holdOff (hf : ReportRead f) (s : State) : f s.holdOff = f s := by
  unfold State.holdOff
  extract_lets t
  exact (hf.modThy t _).trans (keeps_onlyIf (hf.thymeMsg s _ _))

theorem actOn (hf : ReportRead f) (s : State) (e : Merge) : f (s.actOn e) = f s := by
  have stops : f (({ s with flt := { s.flt with stopAsked := true } } : State).releasePartner e.subject).holdOff = f s :=
    (hf.holdOff _).trans ((hf.releasePartner _ _).trans (hf.flt s _))
  unfold State.actOn
  extract_lets x s₁ s₂ s₃
  have dropped : f s₃ = f s := Eq.trans (keeps_onlyIf (hf.masterHoldOff s₂ _)) stops
  exact keeps_ite dropped ((hf.toEventFree.writeEntry _ _).trans ((hf.toEventFree.countEvent _).trans dropped))

theorem noteEcc (hf : ReportRead f) (s : State) (a c : Nat) : f (s.noteEcc a c) = f s := keeps_onlyIf (hf.mir s _)

theorem enterBeacon (hf : ReportRead f) (s : State) (a c m k p : Nat) : f (s.enterBeacon a c m k p).1 = f s := by
  unfold State.enterBeacon
  split
  · extract_lets bm gained y x s₁ s₂
    have noted : f s₂ = f s := Eq.trans (keeps_onlyIf (hf.noteEcc s₁ _ _)) (hf.ring s _)
    show f (s₂.bump Reg.RNG_BEACON_MERGED 1) = f s
    exact (hf.bump s₂ _ _ (by decide)).trans noted
  · split
    · exact (hf.flood _ _ _).trans ((hf.setBits _ _ _ (by decide)).trans (hf.bump s _ _ (by decide)))
    · exact (hf.noteEcc _ _ _).trans (hf.ring s _)

theorem entryActs (hf : ReportRead f) (x : State × Option Merge) : f (State.entryActs x) = f x.1 := by
  unfold State.entryActs
  split
  · rfl
  · exact keeps_onlyIf (hf.actOn _ _)

theorem enterReport (hf : ReportRead f) (s : State) (a c : Nat) : f (s.enterReport a c).1 = f s := by
  unfold State.enterReport
  extract_lets t
  have flagged : f t = f s := keeps_ite (hf.setBits s _ _ (by decide)) (keeps_onlyIf (hf.setBits s _ _ (by decide)))
  split
  · show f (t.bump Reg.RNG_FILTERED 1) = f s
    exact (hf.bump t _ _ (by decide)).trans flagged
  · exact (hf.enterBeacon _ _ _ _ _ _).trans ((hf.ring t _).trans flagged)

theorem tellsLoss (hf : ReportRead f) (s : State) (a c : Nat) : f (s.tellsLoss a c) = f s :=
  keeps_onlyIf (Eq.trans (keeps_onlyIf (hf.retarget _ _)) (hf.ring s _))

theorem settleEntry (hf : ReportRead f) (x : State × Option Merge) : f (State.settleEntry x) = f x.1 := by
  unfold State.settleEntry
  refine Eq.trans ?_ (hf.entryActs x)
  extract_lets t
  split
  · rfl
  · exact keeps_ite rfl ((hf.twinLost _).trans (keeps_ite rfl ((hf.entryActs _).trans ((hf.enterReport _ _ _).trans (hf.tellsLoss t _ _)))))

theorem report (hf : ReportRead f) (s : State) (a c : Nat) : f (s.report a c) = f s :=
  (hf.settleEntry _).trans ((hf.enterReport _ _ _).trans (hf.tellsLoss s a c))

/-- A fault without an ECC error behind it. -/
theorem raise (hf : ReportRead f) (s : State) (r : FaultRec) (hecc : s.eccEffects r = s) : f (s.raise r) = f s := by
  have recorded : f (s.recordFault r) = f s := (hf.toEventFree.recordFault hf.flt s r).trans (by rw [hecc])
  exact Eq.trans (keeps_onlyIf ((hf.report _ _ _).trans (hf.flt _ _))) recorded

end ReportRead

end Sys2Proof.Machine
end

section
/-! What a completed pair on each guarded register does (R219, R238, R249, R252, R334, R354, R371, R414 to R417, R446, R451, R455, R456, R468, R476); O48. -/

namespace Sys2Proof.Machine

/-! ### A completed pair (R414) -/

/-- The register file with the pair of a requester closed. -/
def RegState.closed (x : RegState) : Requester → RegState
  | .host => { x with host := { x.host with pair := none } }
  | .sage => { x with sage := { x.sage with pair := none } }

/-- The state with the pair of a requester closed. -/
def State.closePair (s : State) (q : Requester) : State := { s with regs := s.regs.closed q }

theorem State.closePair_eq (s : State) (q : Requester) : s.modRequester q (fun r => { r with pair := none }) = s.closePair q := by cases q <;> rfl

section
variable (s : State) (q : Requester)

@[simp] theorem State.closePair_vals : (s.closePair q).regs.vals = s.regs.vals := by cases q <;> rfl

@[simp] theorem State.closePair_guardWaiting : (s.closePair q).regs.guardWaiting = s.regs.guardWaiting := by cases q <;> rfl

@[simp] theorem State.closePair_overlays : (s.closePair q).regs.overlays = s.regs.overlays := by cases q <;> rfl

@[simp] theorem State.closePair_reg (a : Nat) : (s.closePair q).reg a = s.reg a := by cases q <;> rfl

@[simp] theorem State.closePair_pair : ((s.closePair q).requester q).pair = none := by cases q <;> rfl

theorem State.closePair_regsSorted (hs : s.regsSorted) : (s.closePair q).regsSorted := by
  rw [State.regsSorted, State.closePair_vals]
  exact hs

/-- The pair of a requester stands beside the registers. -/
@[simp] theorem State.requester_setReg (a : Nat) (v : W32) : (s.setReg a v).requester q = s.requester q := by cases q <;> rfl

@[simp] theorem State.requester_setBits (a m : Nat) : (s.setBits a m).requester q = s.requester q := by cases q <;> rfl

theorem State.requester_bump (a n : Nat) : (s.bump a n).requester q = s.requester q := by
  unfold State.bump
  split
  · rfl
  · exact s.requester_setReg q a _

end

/-- A pair completed in time takes effect; but for the reference the CRC is stale then (R414, R417). -/
theorem State.guarded_completes {s : State} {q : Requester} {off : Nat} {v : W32} (take : W32 → State → State) (h : s.pairOpen q off v) :
    s.guarded q off true (~~~v) take = if off == Reg.GLB_CFG_CRC_REF then take v (s.closePair q) else (take v (s.closePair q)).crcStale := by
  obtain ⟨hup, at_, hpair, htime⟩ := h
  simp [State.guarded, hup, hpair, htime, State.closePair_eq]

theorem State.guarded_stale {s : State} {q : Requester} {off : Nat} {v : W32} (take : W32 → State → State) (h : s.pairOpen q off v)
    (hoff : off ≠ Reg.GLB_CFG_CRC_REF) : s.guarded q off true (~~~v) take = (take v (s.closePair q)).crcStale := by
  rw [State.guarded_completes take h, if_neg (by simpa using hoff)]

/-- The effect of a completed pair, after which the CRC is stale, is the command's. -/
theorem exec_guarded_stale {s : State} {q : Requester} {off : Nat} {v : W32} {i : Instr} {take : W32 → State → State} (h : s.pairOpen q off v)
    (hi : exec i s = .next (s.guarded q off true (~~~v) take)) (hoff : off ≠ Reg.GLB_CFG_CRC_REF) :
    exec i s = .next (take v (s.closePair q)).crcStale := by rw [hi, State.guarded_stale take h hoff]

/-! ### A stale CRC (R417) -/

theorem State.crcStale_reg_ne (s : State) {a : Nat} (ha : a ≠ Reg.GLB_CRC_STATUS) : s.crcStale.reg a = s.reg a := s.reg_setBits_ne _ _ _ ha

theorem State.crcStale_status {s : State} (hs : s.regsSorted) : (s.crcStale.reg Reg.GLB_CRC_STATUS).getLsbD 1 = true := by
  rw [State.crcStale, State.reg_setBits_same _ _ _ hs]
  simp

@[simp] theorem State.crcStale_requester (s : State) (q : Requester) : s.crcStale.requester q = s.requester q := s.requester_setBits q _ _

@[simp] theorem State.crcStale_dev (s : State) : s.crcStale.dev = s.dev := rfl

@[simp] theorem State.crcStale_host (s : State) : s.crcStale.host = s.host := rfl

/-! ### Stored values (R415, R417, R476) -/

/-- A value that is only stored. -/
theorem State.takeReg_effect {s : State} {q : Requester} {off mask : Nat} {v : W32} {i : Instr} (hs : s.regsSorted) (h : s.pairOpen q off v)
    (hi : exec i s = .next (s.guarded q off true (~~~v) (State.takeReg off mask))) (hoff : off ≠ Reg.GLB_CFG_CRC_REF) (hst : off ≠ Reg.GLB_CRC_STATUS) :
    ∃ t, exec i s = .next t ∧ t = { s with regs := t.regs } ∧ (t.requester q).pair = none ∧ t.reg off = v &&& BitVec.ofNat 32 mask ∧
      (∀ o, o ≠ off → o ≠ Reg.GLB_CRC_STATUS → t.reg o = s.reg o) ∧ (t.reg Reg.GLB_CRC_STATUS).getLsbD 1 = true := by
  have sorted := s.closePair_regsSorted q hs
  refine ⟨_, exec_guarded_stale h hi hoff, rfl, ?_, ?_, fun o ho hso => ?_, State.crcStale_status (State.setReg_regsSorted sorted _ _)⟩
  · simp [State.takeReg]
  · rw [State.crcStale_reg_ne _ hst]
    exact State.reg_setReg_same _ _ _ sorted
  · rw [State.crcStale_reg_ne _ hso, State.takeReg, State.reg_setReg_ne _ _ _ _ ho, State.closePair_reg]

/-! ### THY_PRIO (R238) -/

/-- Registers, pairs and the result of the CRC comparison, as no report changes them. -/
theorem reportRead_reg {a : Nat} (ha : a ∉ reportRegs) : ReportRead (fun s => s.reg a) where
  other s t hr hd := by simp only [State.reg, State.regDefault, hr, hd]
  bump s b n hb := s.reg_bump_ne b a n fun h => ha (h ▸ hb)
  setBits s b m hb := s.reg_setBits_ne b a m fun h => ha (h ▸ hb)

theorem reportRead_requester (q : Requester) : ReportRead (fun s => s.requester q) where
  other s t hr _ := by cases q <;> simp only [State.requester, hr]
  bump s b n _ := s.requester_bump q b n
  setBits s b m _ := s.requester_setBits q b m

theorem reportRead_crcBad : ReportRead (fun s => s.regs.crcBad) where
  other s t hr _ := by simp only [hr]
  bump s b n _ := by
    unfold State.bump
    split <;> rfl
  setBits s b m _ := rfl

theorem ReportRead.prioRises {α : Type} {f : State → α} (hf : ReportRead f) (s : State) (n : Nat) : f (s.prioRises n) = f s :=
  keeps_ite (hf.modThy s _) (keeps_onlyIf (hf.becomeMaster s))

/-- The master takes the priority of the register at once. -/
theorem State.prioRises_master {s : State} (hm : s.thy.master = true) (n : Nat) : s.prioRises n = s.modThy (fun t => { t with masterPrio := s.prio }) := by
  simp [State.prioRises, hm]

theorem toNat_and_255 (v : W32) : (v &&& BitVec.ofNat 32 0xFF).toNat % 256 = v.toNat % 256 := by
  have := Nat.and_two_pow_sub_one_eq_mod v.toNat 8
  simp only [BitVec.toNat_and, BitVec.toNat_ofNat]
  norm_num at this ⊢
  omega

theorem exec_thyPrio {s : State} {q : Requester} {v : W32} (hs : s.regsSorted) (h : s.pairOpen q Reg.THY_PRIO v) :
    ∃ t, exec (.thyPrio q true (~~~v)) s = .next t ∧ (t.requester q).pair = none ∧ t.reg Reg.THY_PRIO = v &&& 0xFF ∧
      (s.thy.master = true → t.thy = { s.thy with masterPrio := if s.host.oscStable then v.toNat % 256 else 0 }) := by
  have stored := State.reg_setReg_same _ Reg.THY_PRIO (v &&& BitVec.ofNat 32 0xFF) (s.closePair_regsSorted q hs)
  refine ⟨_, exec_guarded_stale h rfl (by decide), ?_, ?_, fun hm => ?_⟩
  · rw [State.crcStale_requester, State.takePrio, (reportRead_requester q).prioRises]
    simp [State.takeReg]
  · rw [State.crcStale_reg_ne _ (by decide), State.takePrio, (reportRead_reg (by decide)).prioRises]
    exact stored
  · have prio : (State.takeReg Reg.THY_PRIO 0xFF v (s.closePair q)).prio = if s.host.oscStable then v.toNat % 256 else 0 := by
      simp only [State.prio, State.regN, State.takeReg, stored, toNat_and_255]
      rfl
    have taken := State.prioRises_master (s := State.takeReg Reg.THY_PRIO 0xFF v (s.closePair q)) hm (s.closePair q).prio
    rw [prio] at taken
    exact congrArg State.thy taken

/-! ### THY_RATE_CAP (R249) -/

theorem ReportRead.withRate {α : Type} {f : State → α} (hf : ReportRead f) (s : State) (g : State → State) : f (s.withRate g) = f (g s) :=
  keeps_ite rfl (hf.thymeMsg _ _ _)

/-- What bounds a module's own rate, beside its cap: the rate in force and the limits of power and temperature (R249, R476, R477). -/
def State.rates (s : State) : Nat × Nat × Nat := (s.thy.rate, s.thy.powerRate, s.thy.thermalRate)

theorem State.announce_thy (s : State) : s.announce.thy = s.thy := by
  unfold State.announce State.sendPhase
  exact foldl_keeps (f := State.thy) (fun s _ => show (s.sendFrame _ _).thy = s.thy from rfl) _ s

theorem State.rates_announce (s : State) : s.announce.rates = s.rates := by rw [State.rates, State.announce_thy, State.rates]

theorem State.rates_masterRate (s : State) : s.masterRate.rates = s.rates :=
  keeps_ite (f := State.rates) (State.rates_announce _) (keeps_onlyIf (f := State.rates) (State.rates_announce _))

/-- A rate message changes no rate at once (R249, R250). -/
theorem State.rates_rateMsg (s : State) (r : Nat) : (s.thymeMsg 2 r).rates = s.rates := by
  unfold State.thymeMsg
  split
  · exact State.rates_masterRate _
  · rw [State.rates, State.sendTo_thy, State.rates]

theorem State.rates_withRate (s : State) (g : State → State) : (s.withRate g).rates = (g s).rates :=
  keeps_ite (f := State.rates) rfl (State.rates_rateMsg _ _)

/-- The requested rate goes by the limits and the cap. -/
theorem State.rateReq_eq {s t : State} (hr : t.rates = s.rates) :
    t.rateReq = min s.thy.powerRate (min s.thy.thermalRate (min 64 (max 32 ((t.reg Reg.THY_RATE_CAP).toNat % 128)))) := by
  simp only [State.rates, Prod.mk.injEq] at hr
  obtain ⟨-, hpower, hthermal⟩ := hr
  rw [State.rateReq, hpower, hthermal]
  rfl

theorem toNat_and_127 (v : W32) : (v &&& BitVec.ofNat 32 0x7F).toNat % 128 = v.toNat % 128 := by
  have := Nat.and_two_pow_sub_one_eq_mod v.toNat 7
  simp only [BitVec.toNat_and, BitVec.toNat_ofNat]
  norm_num at this ⊢
  omega

theorem exec_thyRateCap {s : State} {q : Requester} {v : W32} (hs : s.regsSorted) (h : s.pairOpen q Reg.THY_RATE_CAP v) :
    ∃ t, exec (.thyRateCap q true (~~~v)) s = .next t ∧ (t.requester q).pair = none ∧
      t.reg Reg.THY_RATE_CAP = v &&& 0x7F ∧ t.thy.rate = s.thy.rate ∧
      t.rateReq = min s.thy.powerRate (min s.thy.thermalRate (min 64 (max 32 (v.toNat % 128)))) := by
  have rates : ((s.closePair q).takeCap v).crcStale.rates = s.rates := State.rates_withRate _ _
  have stored : ((s.closePair q).takeCap v).crcStale.reg Reg.THY_RATE_CAP = v &&& BitVec.ofNat 32 0x7F := by
    rw [State.crcStale_reg_ne _ (by decide), State.takeCap, (reportRead_reg (by decide)).withRate]
    exact State.reg_setReg_same _ Reg.THY_RATE_CAP _ (s.closePair_regsSorted q hs)
  refine ⟨_, exec_guarded_stale h rfl (by decide), ?_, stored, congrArg Prod.fst rates, ?_⟩
  · rw [State.crcStale_requester, State.takeCap, (reportRead_requester q).withRate]
    simp [State.takeReg]
  · rw [State.rateReq_eq rates, stored, toNat_and_127]

/-! ### THY_TOD_CTRL (R252) -/

theorem State.takeTod_master {s : State} (hm : s.thy.master = true) (v : W32) :
    s.takeTod v = s.modThy (fun t => if v.getLsbD 0 then { t with todPending := true } else t) := by
  simp only [State.takeTod, hm, Bool.not_true, Bool.false_eq_true, if_false]
  split
  · rfl
  · rfl

theorem State.takeTod_member {s : State} (hm : s.thy.master = false) (v : W32) : s.takeTod v = s.bump Reg.THY_TOD_IGNORED 1 := by
  simp [State.takeTod, hm]

theorem exec_thyTodCtrl {s : State} {q : Requester} {v : W32} (hs : s.regsSorted) (h : s.pairOpen q Reg.THY_TOD_CTRL v) :
    ∃ t, exec (.thyTodCtrl q true (~~~v)) s = .next t ∧ (t.requester q).pair = none ∧ t = { s with thy := t.thy, regs := t.regs } ∧
      (s.thy.master = true → t.thy = (if v.getLsbD 0 then { s.thy with todPending := true } else s.thy) ∧
        t.reg Reg.THY_TOD_IGNORED = s.reg Reg.THY_TOD_IGNORED) ∧
      (s.thy.master = false → t.thy = s.thy ∧ t.reg Reg.THY_TOD_IGNORED = s.reg Reg.THY_TOD_IGNORED + 1) := by
  refine ⟨_, exec_guarded_stale h rfl (by decide), ?_⟩
  cases hm : s.thy.master with
  | true =>
    have taken := State.takeTod_master (s := s.closePair q) hm v
    rw [taken]
    refine ⟨?_, rfl, fun _ => ⟨rfl, ?_⟩, nofun⟩
    · rw [State.crcStale_requester]
      exact s.closePair_pair q
    · rw [State.crcStale_reg_ne _ (by decide)]
      exact s.closePair_reg q _
  | false =>
    have taken := State.takeTod_member (s := s.closePair q) hm v
    rw [taken]
    refine ⟨?_, rfl, nofun, fun _ => ⟨rfl, ?_⟩⟩
    · rw [State.crcStale_requester, State.requester_bump, State.closePair_pair]
    · rw [State.crcStale_reg_ne _ (by decide), State.reg_bump_same _ _ _ (s.closePair_regsSorted q hs) one_ne_zero, State.closePair_reg]
      rfl

/-! ### TIR_COPY_CTRL (R219, R451) -/

theorem exec_tirCopyCtrl_recovery {s : State} {q : Requester} {v : W32} (hs : s.regsSorted) (h : s.pairOpen q Reg.TIR_COPY_CTRL v)
    (hrec : s.host.recovery = true) :
    ∃ t, exec (.tirCopyCtrl q true (~~~v)) s = .next t ∧ t.tiers = s.tiers ∧ t.reg Reg.TIR_COPY_CTRL = v &&& 0x3F := by
  have taken : (s.closePair q).takeCopy v = State.takeReg Reg.TIR_COPY_CTRL 0x3F v (s.closePair q) := by
    have hrec' : (State.takeReg Reg.TIR_COPY_CTRL 0x3F v (s.closePair q)).host.recovery = true := hrec
    simp [State.takeCopy, hrec']
  refine ⟨_, exec_guarded_stale h rfl (by decide), ?_, ?_⟩
  · rw [taken]
    rfl
  · rw [taken, State.crcStale_reg_ne _ (by decide)]
    exact State.reg_setReg_same _ Reg.TIR_COPY_CTRL _ (s.closePair_regsSorted q hs)

/-- The state with the substitution of channel `c` by spare `sp` begun: the copy's pointer starts at 0. -/
def State.copying (s : State) (slot c sp : Nat) : State :=
  ({ s with tiers := { s.tiers with copy := some ⟨slot, c, sp, 0⟩, usedSpares := s.tiers.usedSpares ++ [sp] } } : State).setReg64 Reg.TIR_COPY_PTR 0

/-- A free spare takes the channel's package; that it is the last is flagged and posted (R219, R222). -/
theorem State.startCopy_starts {s : State} {c sp : Nat} {rest : List Nat} (hcopy : s.tiers.copy = none) (hspare : s.spares = sp :: rest)
    (hc : c ∈ s.tiers.chmap) : s.startCopy c = if rest.isEmpty then
      ((s.copying (s.tiers.chmap.findIdx (· == c)) c sp).setBits Reg.TIR_STATUS 0x10).event 0xA2 1 else s.copying (s.tiers.chmap.findIdx (· == c)) c sp := by
  have hslot : s.tiers.chmap.findIdx (· == c) < s.tiers.chmap.length := List.findIdx_lt_length_of_exists ⟨c, hc, by simp⟩
  simp only [State.startCopy, if_neg (Nat.not_le.2 hslot), hcopy, hspare]
  rfl

/-- What neither an event nor the flag of the spares changes is as the copy's start left it. -/
theorem EventFree.startCopy_starts {α : Type} {f : State → α} (hf : EventFree f) (hb : ∀ (s : State) m, f (s.setBits Reg.TIR_STATUS m) = f s) {s : State}
    {c sp : Nat} {rest : List Nat} (hcopy : s.tiers.copy = none) (hspare : s.spares = sp :: rest) (hc : c ∈ s.tiers.chmap) :
    f (s.startCopy c) = f (s.copying (s.tiers.chmap.findIdx (· == c)) c sp) := by
  rw [State.startCopy_starts hcopy hspare hc]
  exact keeps_onlyIf ((hf.event _ _ _).trans (hb _ _))

theorem State.reg64_setReg64_zero {s : State} (hs : s.regsSorted) (a : Nat) : (s.setReg64 a 0).reg64 a = 0 := by
  have high : (s.setReg64 a 0).reg (a + 4) = 0#32 := State.reg_setReg_same _ _ _ (State.setReg_regsSorted hs a _)
  have low : (s.setReg64 a 0).reg a = 0#32 := (State.reg_setReg_ne _ (a + 4) a _ (by omega)).trans (State.reg_setReg_same _ _ _ hs)
  simp [State.reg64, State.regN, high, low]

theorem exec_tirCopyCtrl_starts {s : State} {q : Requester} {v : W32} (hs : s.regsSorted) (sp : Nat) (rest : List Nat)
    (h : s.pairOpen q Reg.TIR_COPY_CTRL v) (hrec : s.host.recovery = false) (hv : v.getLsbD 31 = true) (hcopy : s.tiers.copy = none)
    (hspare : s.spares = sp :: rest) (hc : (v.toNat % 64) ∈ s.tiers.chmap) :
    ∃ t, exec (.tirCopyCtrl q true (~~~v)) s = .next t ∧
      t.tiers.copy = some ⟨s.tiers.chmap.findIdx (· == v.toNat % 64), v.toNat % 64, sp, 0⟩ ∧ t.tiers.usedSpares = s.tiers.usedSpares ++ [sp] ∧
      t.reg64 Reg.TIR_COPY_PTR = 0 ∧ t.tiers.chmap = s.tiers.chmap ∧ t.mem = s.mem := by
  have taken : (s.closePair q).takeCopy v = (State.takeReg Reg.TIR_COPY_CTRL 0x3F v (s.closePair q)).startCopy (v.toNat % 64) := by
    have hrec' : (State.takeReg Reg.TIR_COPY_CTRL 0x3F v (s.closePair q)).host.recovery = false := hrec
    simp [State.takeCopy, hrec', hv]
  have started : ∀ {α : Type} {f : State → α}, EventFree f → (∀ (s : State) m, f (s.setBits Reg.TIR_STATUS m) = f s) →
      f ((s.closePair q).takeCopy v) = f ((State.takeReg Reg.TIR_COPY_CTRL 0x3F v (s.closePair q)).copying
        (s.tiers.chmap.findIdx (· == v.toNat % 64)) (v.toNat % 64) sp) := fun hf hb => by
    rw [taken]
    exact hf.startCopy_starts hb (s := State.takeReg Reg.TIR_COPY_CTRL 0x3F v (s.closePair q)) hcopy hspare hc
  have tiers := started (f := State.tiers) (.of_unread fun _ _ _ _ => rfl) fun _ _ => rfl
  have low := started (f := fun s => s.reg Reg.TIR_COPY_PTR) (.of_reg (by decide)) fun s m => s.reg_setBits_ne _ _ m (by decide)
  have high := started (f := fun s => s.reg (Reg.TIR_COPY_PTR + 4)) (.of_reg (by decide)) fun s m => s.reg_setBits_ne _ _ m (by decide)
  refine ⟨_, exec_guarded_stale h rfl (by decide), congrArg Tiers.copy tiers, congrArg Tiers.usedSpares tiers, ?_, (congrArg Tiers.chmap tiers).trans rfl,
    started (f := State.mem) (.of_unread fun _ _ _ _ => rfl) fun _ _ => rfl⟩
  rw [State.reg64, State.regN, State.regN, State.crcStale_reg_ne _ (by decide), State.crcStale_reg_ne _ (by decide), low, high]
  exact State.reg64_setReg64_zero (State.setReg_regsSorted (s.closePair_regsSorted q hs) _ _) _

/-! ### RNG_BAY_CTRL (R334, R451) -/

/-- `f` does not read the ports, the calibration applied to their lanes, or the count of Bay changes. -/
theorem State.setBays_keeps {α : Type} {f : State → α} (hring : ∀ (s : State) x, f { s with ring := x } = f s)
    (hhost : ∀ (s : State) x, f { s with host := { s.host with applied := x } } = f s)
    (hbump : ∀ (s : State) n, f (s.bump Reg.RNG_BAY_CHANGES n) = f s) (s : State) (x y m : Bool) : f (s.setBays x y m) = f s := by
  have reset (s : State) (p : Nat) : f (s.modPort p fun q => { Port.reset with wire := q.wire }) = f s := hring s _
  have train (s : State) (p : Nat) : f (s.trainPort p) = f s := Eq.trans (hring _ _) (hhost s _)
  have port (new : Bool) (s : State) (p : Nat) :
      f (if new then (s.modPort p fun q => { Port.reset with wire := q.wire }).trainPort p else s.modPort p fun q => { Port.reset with wire := q.wire }) = f s :=
    keeps_ite ((train _ p).trans (reset s p)) (reset s p)
  have change (old new : Bool) (ps : List Nat) (s : State) := keeps_ite (c := (old == new) = true) (f := f) (s := s) rfl (foldl_keeps (port new) ps s)
  unfold State.setBays
  exact (hbump _ _).trans ((hring _ _).trans ((change _ _ _ _).trans ((change _ _ _ _).trans (change _ _ _ _))))

theorem State.setBays_reg (s : State) (x y m : Bool) {a : Nat} (ha : a ≠ Reg.RNG_BAY_CHANGES) : (s.setBays x y m).reg a = s.reg a :=
  State.setBays_keeps (f := fun s => s.reg a) (fun _ _ => rfl) (fun _ _ => rfl) (fun s n => s.reg_bump_ne _ _ n ha) s x y m

/-- The Bays stand as they were set (R332, R334). -/
theorem State.setBays_bays (s : State) (x y m : Bool) :
    (s.setBays x y m).ring.bayX = x ∧ (s.setBays x y m).ring.bayY = y ∧ (s.setBays x y m).ring.bayM = m := by
  have counted := fun (u : State) n => RegFree.bump (f := State.ring) (fun _ _ => rfl) u Reg.RNG_BAY_CHANGES n
  unfold State.setBays
  simp only [counted, and_self]

/-- A change that a job, a fence or recovery forbids is not made. -/
theorem State.takeBays_refused {s : State} {v : W32}
    (hno : s.hopsBusy (v.getLsbD 0) (v.getLsbD 1) (v.getLsbD 2) = true ∨ s.mir.fenced = true ∨ s.host.recovery = true) : s.takeBays v = s.used 1 := by
  have hbusy : (s.hopsBusy (v.getLsbD 0) (v.getLsbD 1) (v.getLsbD 2) || (s.used 1).mir.fenced || (s.used 1).host.recovery) = true := by
    simpa only [Bool.or_eq_true, or_assoc, State.used] using hno
  simp only [State.takeBays, hbusy, if_true]

theorem State.takeBays_made {s : State} {v : W32} (hbusy : s.hopsBusy (v.getLsbD 0) (v.getLsbD 1) (v.getLsbD 2) = false)
    (hfence : s.mir.fenced = false) (hrec : s.host.recovery = false) :
    s.takeBays v = (State.takeReg Reg.RNG_BAY_CTRL 7 v (s.used 1)).setBays (v.getLsbD 0) (v.getLsbD 1) (v.getLsbD 2) := by
  have hfree : (s.hopsBusy (v.getLsbD 0) (v.getLsbD 1) (v.getLsbD 2) || (s.used 1).mir.fenced || (s.used 1).host.recovery) = false := by
    simp only [hbusy, State.used, hfence, hrec, Bool.or_self]
  simp only [State.takeBays, hfree, Bool.false_eq_true, if_false]

theorem exec_rngBayCtrl_refused {s : State} {q : Requester} {v : W32} (h : s.pairOpen q Reg.RNG_BAY_CTRL v)
    (hno : s.hopsBusy (v.getLsbD 0) (v.getLsbD 1) (v.getLsbD 2) = true ∨ s.mir.fenced = true ∨ s.host.recovery = true) :
    ∃ t, exec (.rngBayCtrl q true (~~~v)) s = .next t ∧ t.ring = s.ring ∧ t.reg Reg.RNG_BAY_CTRL = s.reg Reg.RNG_BAY_CTRL := by
  have taken := State.takeBays_refused (s := s.closePair q) hno
  refine ⟨_, exec_guarded_stale h rfl (by decide), ?_, ?_⟩
  · rw [taken]
    rfl
  · rw [State.crcStale_reg_ne _ (by decide), taken]
    exact s.closePair_reg q _

theorem exec_rngBayCtrl_made {s : State} {q : Requester} {v : W32} (hs : s.regsSorted) (h : s.pairOpen q Reg.RNG_BAY_CTRL v)
    (hfence : s.mir.fenced = false) (hrec : s.host.recovery = false) (hbusy : s.hopsBusy (v.getLsbD 0) (v.getLsbD 1) (v.getLsbD 2) = false) :
    ∃ t, exec (.rngBayCtrl q true (~~~v)) s = .next t ∧
      t.ring.bayX = v.getLsbD 0 ∧ t.ring.bayY = v.getLsbD 1 ∧ t.ring.bayM = v.getLsbD 2 ∧ t.reg Reg.RNG_BAY_CTRL = v &&& 7 := by
  have taken := State.takeBays_made (s := s.closePair q) hbusy hfence hrec
  obtain ⟨hx, hy, hm⟩ :=
    State.setBays_bays (State.takeReg Reg.RNG_BAY_CTRL 7 v ((s.closePair q).used 1)) (v.getLsbD 0) (v.getLsbD 1) (v.getLsbD 2)
  rw [← taken] at hx hy hm
  refine ⟨_, exec_guarded_stale h rfl (by decide), hx, hy, hm, ?_⟩
  rw [State.crcStale_reg_ne _ (by decide), taken, State.setBays_reg _ _ _ _ (by decide)]
  exact State.reg_setReg_same _ Reg.RNG_BAY_CTRL _ (s.closePair_regsSorted q hs)

/-! ### MIR_FENCE (R354) -/

theorem State.fence_stopped (s : State) : s.fence.mir.fenced = true ∧ s.fence.flt.stopped = true ∧ s.fence.host.restart = none := by
  have kept {α : Type} {f : State → α} (hring : ∀ (s : State) x, f { s with ring := x } = f s)
      (hhost : ∀ (s : State) x, f { s with host := { s.host with applied := x } } = f s) (hreg : RegFree f) (u : State) :
      f (u.setBays false false false) = f u := State.setBays_keeps hring hhost (fun s n => hreg.bump s _ n) u _ _ _
  exact ⟨kept (f := fun s => s.mir.fenced) (fun _ _ => rfl) (fun _ _ => rfl) (fun _ _ => rfl) _,
    kept (f := fun s => s.flt.stopped) (fun _ _ => rfl) (fun _ _ => rfl) (fun _ _ => rfl) _,
    kept (f := fun s => s.host.restart) (fun _ _ => rfl) (fun _ _ => rfl) (fun _ _ => rfl) _⟩

theorem exec_mirFence {s : State} {q : Requester} {v : W32} (h : s.pairOpen q Reg.MIR_FENCE v) (hv : v.getLsbD 0 = true) :
    ∃ t, exec (.mirFence q true (~~~v)) s = .next t ∧ t.mir.fenced = true ∧
      t.flt.stopped = true ∧ t.host.restart = none ∧ t.ring.bayX = false ∧ t.ring.bayY = false ∧ t.ring.bayM = false := by
  have taken : (s.closePair q).takeFence v = (State.takeReg Reg.MIR_FENCE 1 v (s.closePair q)).fence := by simp [State.takeFence, hv]
  obtain ⟨hfenced, hstopped, hrestart⟩ := State.fence_stopped (State.takeReg Reg.MIR_FENCE 1 v (s.closePair q))
  obtain ⟨hx, hy, hm⟩ := State.setBays_bays
    ({ State.takeReg Reg.MIR_FENCE 1 v (s.closePair q) with
      mir := { s.mir with fenced := true }, flt := { s.flt with stopAsked := true, stopped := true }, host := { s.host with restart := none } } : State)
    false false false
  refine ⟨_, exec_guarded_stale h rfl (by decide), ?_⟩
  rw [taken]
  exact ⟨hfenced, hstopped, hrestart, hx, hy, hm⟩

/-! ### DET_CTRL (R371, R415) -/

theorem exec_detCtrl {s : State} {q : Requester} {v : W32} (hs : s.regsSorted) (h : s.pairOpen q Reg.DET_CTRL v) :
    (v.getLsbD 0 = true → s.choiceInUse = true → ∃ t, exec (.detCtrl q true (~~~v)) s = .next t ∧
      t.reg Reg.DET_CTRL = s.reg Reg.DET_CTRL ∧ t.reg Reg.DET_STRICT_REFUSED = s.reg Reg.DET_STRICT_REFUSED + 1) ∧
    ((v.getLsbD 0 = false ∨ s.choiceInUse = false) → s.strictIdle = true → ∃ t, exec (.detCtrl q true (~~~v)) s = .next t ∧
      t.reg Reg.DET_CTRL = v &&& 1 ∧ ∀ w ∈ t.regs.guardWaiting, w.1 ≠ Reg.DET_CTRL) ∧
    ((v.getLsbD 0 = false ∨ s.choiceInUse = false) → s.strictIdle = false → ∃ t, exec (.detCtrl q true (~~~v)) s = .next t ∧
      t.reg Reg.DET_CTRL = s.reg Reg.DET_CTRL ∧
      t.regs.guardWaiting = (Reg.DET_CTRL, v &&& 1) :: s.regs.guardWaiting.filter (fun w => w.1 != Reg.DET_CTRL)) := by
  have choice : (s.closePair q).choiceInUse = s.choiceInUse := by
    simp only [State.choiceInUse, State.elastic, State.regN, State.closePair_reg]
    rfl
  have idle : (s.closePair q).strictIdle = s.strictIdle := rfl
  have sorted := s.closePair_regsSorted q hs
  have allowed (hno : v.getLsbD 0 = false ∨ s.choiceInUse = false) : (v.getLsbD 0 && (s.closePair q).choiceInUse) = false := by
    rw [choice]
    obtain hv | huse := hno
    · rw [hv, Bool.false_and]
    · rw [huse, Bool.and_false]
  refine ⟨fun hv huse => ?_, fun hno hidle => ?_, fun hno hbusy => ?_⟩
  · have taken : (s.closePair q).takeStrict v = (s.closePair q).bump Reg.DET_STRICT_REFUSED 1 := by simp [State.takeStrict, hv, choice, huse]
    refine ⟨_, exec_guarded_stale h rfl (by decide), ?_, ?_⟩
    · rw [State.crcStale_reg_ne _ (by decide), taken, State.reg_bump_ne _ _ _ _ (by decide), State.closePair_reg]
    · rw [State.crcStale_reg_ne _ (by decide), taken, State.reg_bump_same _ _ _ sorted one_ne_zero, State.closePair_reg]
      rfl
  · have taken : (s.closePair q).takeStrict v = State.takeReg Reg.DET_CTRL 1 v { s.closePair q with
        regs := { (s.closePair q).regs with guardWaiting := s.regs.guardWaiting.filter (fun w => w.1 != Reg.DET_CTRL) } } := by
      simp only [State.takeStrict, allowed hno, idle, hidle, State.closePair_guardWaiting, Bool.false_eq_true, if_false, if_true]
    refine ⟨_, exec_guarded_stale h rfl (by decide), ?_, fun w hw => ?_⟩
    · rw [State.crcStale_reg_ne _ (by decide), taken]
      exact State.reg_setReg_same _ Reg.DET_CTRL _ sorted
    · rw [taken] at hw
      have hmem : w ∈ s.regs.guardWaiting.filter (fun w => w.1 != Reg.DET_CTRL) := hw
      simpa using (List.mem_filter.1 hmem).2
  · have taken : (s.closePair q).takeStrict v = { s.closePair q with
        regs := { (s.closePair q).regs with guardWaiting := (Reg.DET_CTRL, v &&& 1#32) :: s.regs.guardWaiting.filter (fun w => w.1 != Reg.DET_CTRL) } } := by
      simp only [State.takeStrict, allowed hno, idle, hbusy, State.closePair_guardWaiting, Bool.false_eq_true, if_false]
    refine ⟨_, exec_guarded_stale h rfl (by decide), ?_, ?_⟩
    · rw [State.crcStale_reg_ne _ (by decide), taken]
      exact s.closePair_reg q _
    · rw [taken]
      rfl

/-! ### GLB_CFG_CRC_REF (R416 to R418) -/

/-- Neither the reference nor the status of the comparison is in the configuration set (R416). -/
theorem configSet_ne : ∀ e ∈ configSet, e.1 ≠ Reg.GLB_CFG_CRC_REF ∧ e.1 ≠ Reg.GLB_CRC_STATUS := by decide +kernel

/-- The configuration CRC goes by the registers of its set, the committed overlays and the table of the calibration (R416, R468). -/
theorem State.cfgCrc_of_reg {s t : State} (hdev : t.dev = s.dev) (hover : t.regs.overlays = s.regs.overlays)
    (hreg : ∀ a, a ≠ Reg.GLB_CFG_CRC_REF → a ≠ Reg.GLB_CRC_STATUS → t.reg a = s.reg a) : t.cfgCrc = s.cfgCrc := by
  have bytes : t.overlayBytes = s.overlayBytes := by simp only [State.overlayBytes, hdev, hover]
  have words : ∀ e ∈ configSet, (if e.1 == Reg.CAL_USER then t.overlayBytes else leBytes 4 ((t.reg e.1 &&& BitVec.ofNat 32 e.2).toNat)) =
      if e.1 == Reg.CAL_USER then s.overlayBytes else leBytes 4 ((s.reg e.1 &&& BitVec.ofNat 32 e.2).toNat) := fun e he => by
    obtain ⟨href, hstatus⟩ := configSet_ne e he
    rw [bytes, hreg e.1 href hstatus]
  rw [State.cfgCrc, State.cfgCrc, List.flatMap_congr words]

/-- CRC_MISMATCH is no ECC error. -/
theorem State.eccEffects_crc (s : State) : s.eccEffects (FaultRec.of 0x40 0) = s := rfl

/-- The comparison finds the reference good. -/
theorem State.crcCompare_good {s : State} (h : s.reg Reg.GLB_CFG_CRC_REF = s.cfgCrc) : s.crcCompare = { s with regs := { s.regs with crcBad := false } } := by
  simp [State.crcCompare, h]

/-- The result of a comparison that finds a difference. -/
def State.markCrcBad (s : State) : State := { s with regs := { s.regs with crcBad := true } }

/-- The comparison finds a difference: it is flagged and is a fault (R418). -/
theorem State.crcCompare_bad {s : State} (h : s.reg Reg.GLB_CFG_CRC_REF ≠ s.cfgCrc) :
    s.crcCompare = (s.markCrcBad.setBits Reg.GLB_CRC_STATUS 4).raise (FaultRec.of 0x40 0) := by
  simp only [State.crcCompare, beq_iff_eq, h, if_false]
  rfl

theorem State.crcCompare_crcBad (s : State) : s.crcCompare.regs.crcBad = decide (s.reg Reg.GLB_CFG_CRC_REF ≠ s.cfgCrc) := by
  by_cases h : s.reg Reg.GLB_CFG_CRC_REF = s.cfgCrc
  · rw [State.crcCompare_good h]
    simp [h]
  · rw [State.crcCompare_bad h, reportRead_crcBad.raise _ _ (State.eccEffects_crc _)]
    simp [h, State.setBits, State.setReg, State.noteRaised, State.markCrcBad]

theorem State.crcCompare_reg (s : State) {a : Nat} (ha : a ∉ reportRegs) (hne : a ≠ Reg.GLB_CRC_STATUS) : s.crcCompare.reg a = s.reg a := by
  by_cases h : s.reg Reg.GLB_CFG_CRC_REF = s.cfgCrc
  · rw [State.crcCompare_good h]
    rfl
  · rw [State.crcCompare_bad h, (reportRead_reg ha).raise _ _ (State.eccEffects_crc _), State.reg_setBits_ne _ _ _ _ hne]
    rfl

/-- A difference leaves an unacknowledged fault and the flag mismatch. -/
theorem State.crcCompare_mismatch {s : State} (hs : s.regsSorted) (h : s.reg Reg.GLB_CFG_CRC_REF ≠ s.cfgCrc) :
    s.crcCompare.flt.unacked = true ∧ (s.crcCompare.reg Reg.GLB_CRC_STATUS).getLsbD 2 = true := by
  rw [State.crcCompare_bad h]
  refine ⟨State.raise_unacked _ _, ?_⟩
  rw [(reportRead_reg (by decide)).raise _ _ (State.eccEffects_crc _), State.reg_setBits_same s.markCrcBad _ _ hs]
  simp

/-- The state in which the new reference is compared. -/
def State.withRef (s : State) (v : W32) : State :=
  (s.setReg Reg.GLB_CFG_CRC_REF v).setReg Reg.GLB_CRC_STATUS ((s.setReg Reg.GLB_CFG_CRC_REF v).reg Reg.GLB_CRC_STATUS &&& 4#32)

theorem State.withRef_reg_ne (s : State) (v : W32) {a : Nat} (href : a ≠ Reg.GLB_CFG_CRC_REF) (hstatus : a ≠ Reg.GLB_CRC_STATUS) :
    (s.withRef v).reg a = s.reg a := (State.reg_setReg_ne _ _ _ _ hstatus).trans (State.reg_setReg_ne _ _ _ _ href)

theorem State.withRef_ref {s : State} (hs : s.regsSorted) (v : W32) : (s.withRef v).reg Reg.GLB_CFG_CRC_REF = v :=
  (State.reg_setReg_ne _ _ _ _ (by decide)).trans (State.reg_setReg_same _ _ _ hs)

theorem State.takeRef_on {s : State} (hon : s.crcOn = true) (v : W32) : s.takeRef v = (s.withRef v).crcCompare := by
  have hon' : (s.setReg Reg.GLB_CFG_CRC_REF v).crcOn = true := by rw [State.crcOn, State.reg_setReg_ne _ _ _ _ (by decide)]; exact hon
  simp only [State.takeRef, hon', if_true]
  rfl

theorem State.takeRef_off {s : State} (hoff : s.crcOn = false) (v : W32) : s.takeRef v = (s.setReg Reg.GLB_CFG_CRC_REF v).crcStale := by
  have hoff' : (s.setReg Reg.GLB_CFG_CRC_REF v).crcOn = false := by rw [State.crcOn, State.reg_setReg_ne _ _ _ _ (by decide)]; exact hoff
  simp only [State.takeRef, hoff', Bool.false_eq_true, if_false]

theorem exec_glbCfgCrcRef {s : State} {q : Requester} {v : W32} (hs : s.regsSorted) (h : s.pairOpen q Reg.GLB_CFG_CRC_REF v) :
    ∃ t, exec (.glbCfgCrcRef q true (~~~v)) s = .next t ∧ t.reg Reg.GLB_CFG_CRC_REF = v ∧
      (s.crcOn = true → t.regs.crcBad = decide (v ≠ s.cfgCrc) ∧ (v ≠ s.cfgCrc → t.flt.unacked = true ∧ (t.reg Reg.GLB_CRC_STATUS).getLsbD 2 = true)) := by
  have sorted := s.closePair_regsSorted q hs
  have heffect : exec (.glbCfgCrcRef q true (~~~v)) s = .next ((s.closePair q).takeRef v) :=
    congrArg Host.Outcome.next (State.guarded_completes State.takeRef h)
  have on : (s.closePair q).crcOn = s.crcOn := by rw [State.crcOn, State.closePair_reg, State.crcOn]
  refine ⟨_, heffect, ?_⟩
  cases hon : s.crcOn with
  | false =>
    rw [State.takeRef_off (on.trans hon)]
    exact ⟨(State.crcStale_reg_ne _ (by decide)).trans (State.reg_setReg_same _ _ _ sorted), nofun⟩
  | true =>
    have ref := State.withRef_ref sorted v
    have crc : ((s.closePair q).withRef v).cfgCrc = s.cfgCrc := State.cfgCrc_of_reg rfl (s.closePair_overlays q) fun a href hstatus =>
      ((s.closePair q).withRef_reg_ne v href hstatus).trans (s.closePair_reg q a)
    rw [State.takeRef_on (on.trans hon)]
    refine ⟨(State.crcCompare_reg _ (by decide) (by decide)).trans ref, fun _ => ⟨?_, fun hne => ?_⟩⟩
    · rw [State.crcCompare_crcBad, ref, crc]
    · exact State.crcCompare_mismatch (State.setReg_regsSorted (State.setReg_regsSorted sorted _ _) _ _) (by rwa [ref, crc])

/-! ### SEC_REVOKE, SEC_POLICY, SEC_RESET, CAL_SAVE (R446, R455, R456, R468) -/

theorem State.guardErr_dev (s : State) (off : Nat) (half : Bool) : (s.guardErr off half).dev = s.dev :=
  (EventFree.postEvent (f := State.dev) (.of_unread fun _ _ _ _ => rfl) _ _ _ _ _).trans (RegFree.bump (f := State.dev) (fun _ _ => rfl) s _ _)

/-- A discarded guarded write is counted (R414). -/
theorem State.guardErr_errs {s : State} (hs : s.regsSorted) (off : Nat) (half : Bool) :
    (s.guardErr off half).reg Reg.GLB_GUARD_ERRS = s.reg Reg.GLB_GUARD_ERRS + 1 := by
  have noted := EventFree.of_reg (a := Reg.GLB_GUARD_ERRS) (by decide)
  rw [State.guardErr, noted.postEvent, State.reg_setBits_ne _ _ _ _ (by decide), State.reg_setReg_ne _ _ _ _ (by decide),
    State.reg_bump_same _ _ _ hs one_ne_zero]
  rfl

/-- The device with the revoke bits of `v` burnt. -/
def Device.revoked (d : Device) (v : W32) : Device :=
  { d with
    fwRevoked := d.fwRevoked.zipIdx.map (fun x => x.1 || v.getLsbD x.2)
    progRevoked := d.progRevoked.zipIdx.map (fun x => x.1 || v.getLsbD (4 + x.2)) }

theorem State.takeRevoke_made {s : State} {v : W32} (h : s.mayRevoke v = true) : s.takeRevoke v = { s with dev := s.dev.revoked v } := if_pos h

theorem State.takeRevoke_refused {s : State} {v : W32} (h : s.mayRevoke v = false) : s.takeRevoke v = s.guardErr Reg.SEC_REVOKE true :=
  if_neg (by simp [h])

theorem State.closePair_mayRevoke (s : State) (q : Requester) (v : W32) : (s.closePair q).mayRevoke v = s.mayRevoke v := rfl

theorem exec_secRevoke {s : State} {q : Requester} {v : W32} (hs : s.regsSorted) (h : s.pairOpen q Reg.SEC_REVOKE v) :
    (s.mayRevoke v = true → ∃ t, exec (.secRevoke q true (~~~v)) s = .next t ∧ t.dev = s.dev.revoked v) ∧
    (s.mayRevoke v = false → ∃ t, exec (.secRevoke q true (~~~v)) s = .next t ∧ t.dev = s.dev ∧
      t.reg Reg.GLB_GUARD_ERRS = s.reg Reg.GLB_GUARD_ERRS + 1) := by
  have may := s.closePair_mayRevoke q v
  refine ⟨fun hyes => ⟨_, exec_guarded_stale (take := State.takeRevoke) h rfl (by decide), ?_⟩,
    fun hno => ⟨_, exec_guarded_stale (take := State.takeRevoke) h rfl (by decide), ?_, ?_⟩⟩
  · rw [State.takeRevoke_made (may.trans hyes)]
    rfl
  · rw [State.crcStale_dev, State.takeRevoke_refused (may.trans hno), State.guardErr_dev]
    rfl
  · rw [State.crcStale_reg_ne _ (by decide), State.takeRevoke_refused (may.trans hno), State.guardErr_errs (s.closePair_regsSorted q hs),
      State.closePair_reg]

theorem exec_secPolicy {s : State} {q : Requester} {v : W32} (hs : s.regsSorted) (h : s.pairOpen q Reg.SEC_POLICY v) :
    ∃ t, exec (.secPolicy q true (~~~v)) s = .next t ∧ t.host = { s.host with requireSigned := v.getLsbD 0 } ∧
      t.reg Reg.SEC_POLICY = v &&& 1 ∧ t.dev = s.dev := by
  refine ⟨_, exec_guarded_stale (take := State.takePolicy) h rfl (by decide), ?_, ?_, ?_⟩
  · rw [State.crcStale_host]
    rfl
  · rw [State.crcStale_reg_ne _ (by decide)]
    exact State.reg_setReg_same _ Reg.SEC_POLICY _ (s.closePair_regsSorted q hs)
  · rw [State.crcStale_dev]
    rfl

theorem exec_secReset {s : State} {q : Requester} {v : W32} (h : s.pairOpen q Reg.SEC_RESET v) (hv : v.getLsbD 0 = true) :
    ∃ t, exec (.secReset q true (~~~v)) s = .next t ∧ t.dev = s.dev ∧
      t.hostMem = s.hostMem ∧ t.host = { HostIf.reset with oscStable := s.host.oscStable } ∧ t.mem = [] ∧ t.arrays = State.reset.arrays ∧
      t.ring = Ring.reset ∧ t.thy = { Thyme.reset with masterPrio := t.prio } ∧ t.flt = Faults.reset ∧ t.pwr = { Power.reset with trip := s.pwr.trip } := by
  have taken : (s.closePair q).takeReset v = (s.closePair q).moduleReset true { Power.reset with trip := s.pwr.trip } := by
    rw [State.takeReset, if_pos hv]
    rfl
  have prio (t : State) : t.crcStale.prio = t.prio := by
    simp only [State.prio, State.regN, State.crcStale_reg_ne _ (show Reg.THY_PRIO ≠ Reg.GLB_CRC_STATUS by decide)]
    rfl
  refine ⟨_, exec_guarded_stale h rfl (by decide), ?_⟩
  rw [prio, taken]
  exact ⟨rfl, rfl, rfl, rfl, rfl, rfl, rfl, rfl, rfl⟩

theorem exec_calSave {s : State} {q : Requester} {v : W32} (h : s.pairOpen q Reg.CAL_SAVE v) (hv : v.getLsbD 0 = true) :
    ∃ t, exec (.calSave q true (~~~v)) s = .next t ∧ t.dev = { s.dev with savedOverlays := s.regs.overlays } := by
  refine ⟨_, exec_guarded_stale h rfl (by decide), ?_⟩
  rw [State.takeSave, if_pos hv, State.closePair_overlays]
  rfl

/-- Settles O48: a clause for each of the guarded registers. -/
theorem guardedEffects : Obligations.GuardedEffects := by
  unfold Obligations.GuardedEffects
  intro q v s hs
  refine ⟨fun p hp h => ?_, exec_thyPrio hs, exec_thyRateCap hs, exec_thyTodCtrl hs, exec_tirCopyCtrl_recovery hs, exec_tirCopyCtrl_starts hs,
    fun h hno => exec_rngBayCtrl_refused h (.inr hno), fun h hfence hrec => ⟨exec_rngBayCtrl_made hs h hfence hrec, fun hbusy => ?_⟩,
    exec_mirFence, exec_detCtrl hs, exec_glbCfgCrcRef hs, exec_secRevoke hs, exec_secPolicy hs, exec_secReset, exec_calSave⟩
  · simp only [List.mem_cons, List.not_mem_nil, or_false] at hp
    obtain rfl | rfl := hp
    · exact State.takeReg_effect hs h rfl (by decide) (by decide)
    · exact State.takeReg_effect hs h rfl (by decide) (by decide)
  · exact exec_rngBayCtrl_refused h (.inl hbusy)

end Sys2Proof.Machine
end

section
/-! Numbers, words and memory as bytes (R8), and pieces of lists of fixed length. -/

namespace Sys2Proof.Machine

/-! ### Little-endian numbers (R8) -/

theorem leBytes_length (n v : Nat) : (leBytes n v).length = n := by simp [leBytes]

theorem leBytes_succ (n v : Nat) : leBytes (n + 1) v = BitVec.ofNat 8 v :: leBytes n (v / 256) := by
  have shift (i : Nat) : v / 2 ^ (8 * (i + 1)) = v / 256 / 2 ^ (8 * i) := by
    rw [Nat.div_div_eq_div_mul, Nat.mul_succ, pow_add, mul_comm]
    norm_num
  simp [leBytes, List.range_succ_eq_map, Function.comp_def, shift]

theorem leNat_cons (b : Byte) (bs : List Byte) : leNat (b :: bs) = b.toNat + 256 * leNat bs := rfl

/-- A number that fits its bytes is read back. -/
theorem leNat_leBytes (n : Nat) : ∀ v, v < 256 ^ n → leNat (leBytes n v) = v := by
  induction n with
  | zero =>
    intro v hv
    have : v = 0 := by simpa using hv
    simp [leBytes, leNat, this]
  | succ n ih =>
    intro v hv
    have hdiv : v / 256 < 256 ^ n := Nat.div_lt_of_lt_mul (by rwa [pow_succ, mul_comm] at hv)
    rw [leBytes_succ, leNat_cons, ih _ hdiv, BitVec.toNat_ofNat]
    exact Nat.mod_add_div v 256

/-- Bytes are the little-endian form of their number. -/
theorem leBytes_leNat {n : Nat} {bs : List Byte} (hn : bs.length = n) : leBytes n (leNat bs) = bs := by
  subst hn
  induction bs with
  | nil => rfl
  | cons b bs ih =>
    have high : (b.toNat + 256 * leNat bs) / 256 = leNat bs := by have := b.isLt; omega
    have low : BitVec.ofNat 8 (b.toNat + 256 * leNat bs) = b := BitVec.eq_of_toNat_eq (by have := b.isLt; rw [BitVec.toNat_ofNat]; omega)
    rw [List.length_cons, leNat_cons, leBytes_succ, high, ih, low]

/-! ### Pieces of fixed length -/

/-- Items of one length, laid end to end, are the first pieces. -/
theorem chunks_flatMap {α β : Type} {g : β → List α} {k : Nat} (m : Nat) (rest : List α) (l : List β) (hg : ∀ x ∈ l, (g x).length = k) :
    chunks (l.length + m) k (l.flatMap g ++ rest) = l.map g ++ chunks m k rest := by
  induction l with
  | nil => simp
  | cons x l ih =>
    have hx : (g x).length = k := hg x List.mem_cons_self
    have tail := ih fun y hy => hg y (List.mem_cons_of_mem _ hy)
    rw [List.length_cons, Nat.add_right_comm, chunks, List.flatMap_cons, List.append_assoc, List.take_left' hx, List.drop_left' hx, tail]
    rfl

theorem length_flatMap_fixed {α β : Type} {g : β → List α} {k : Nat} (l : List β) (hg : ∀ x ∈ l, (g x).length = k) :
    (l.flatMap g).length = l.length * k := by
  rw [List.length_flatMap, List.map_congr_left hg]
  simp

/-- Taking items of fixed length undoes laying them end to end. -/
theorem takeFixed_flatMap {β γ : Type} {k : Nat} (f : List Nat → γ) {g : β → List Nat} (l : List β) (rest : List Nat) (hg : ∀ x ∈ l, (g x).length = k) :
    takeFixed k f l.length (l.flatMap g ++ rest) = (l.map (fun x => f (g x)), rest) := by
  have pieces := chunks_flatMap 0 rest l hg
  rw [Nat.add_zero] at pieces
  rw [takeFixed, pieces, List.drop_left' (length_flatMap_fixed l hg)]
  simp [chunks]

/-! ### Memory as bytes -/

theorem kvGet_absent {β : Type} (d : β) {r : List (Nat × β)} {a : Nat} (h : ∀ c ∈ r, c.1 ≠ a) : kvGet d r a = d := by
  induction r with
  | nil => rfl
  | cons c r ih => rw [kvGet, if_neg (h c List.mem_cons_self), ih fun x hx => h x (List.mem_cons_of_mem _ hx)]

/-- Entries of other keys do not matter. -/
theorem kvGet_filter {β : Type} (d : β) (r : List (Nat × β)) (p : Nat → Bool) {a : Nat} (ha : p a = true) :
    kvGet d (r.filter (fun c => p c.1)) a = kvGet d r a := by
  induction r with
  | nil => rfl
  | cons c r ih =>
    by_cases hk : c.1 = a
    · rw [List.filter_cons_of_pos (by rw [hk]; exact ha), kvGet, kvGet, if_pos hk, if_pos hk]
    · by_cases hp : p c.1
      · rw [List.filter_cons_of_pos (by exact hp), kvGet, kvGet, if_neg hk, if_neg hk, ih]
      · rw [List.filter_cons_of_neg (by exact hp), kvGet, if_neg hk, ih]

theorem readFrom_eq (n : Nat) : ∀ (a : Nat) (r : Cells), r.Pairwise (fun x y => x.1 < y.1) → (∀ c ∈ r, a ≤ c.1) →
    readFrom n a r = (List.range n).map (fun i => kvGet 0#8 r (a + i)) := by
  induction n with
  | zero => intro _ _ _ _; rfl
  | succ n ih =>
    intro a r hr ha
    have next : (List.range (n + 1)).map (fun i => kvGet 0#8 r (a + i)) = kvGet 0#8 r a :: (List.range n).map (fun i => kvGet 0#8 r (a + 1 + i)) := by
      simp only [List.range_succ_eq_map, List.map_cons, List.map_map, Function.comp_def, Nat.succ_eq_add_one, Nat.add_zero, Nat.add_comm 1, Nat.add_assoc]
    rw [next]
    cases r with
    | nil => rw [readFrom, ih _ _ hr nofun]; rfl
    | cons c r =>
      obtain ⟨hc, hr'⟩ := List.pairwise_cons.1 hr
      by_cases hk : c.1 = a
      · have above : ∀ x ∈ r, a + 1 ≤ x.1 := fun x hx => hk ▸ hc x hx
        have later (i : Nat) : kvGet 0#8 (c :: r) (a + 1 + i) = kvGet 0#8 r (a + 1 + i) := by rw [kvGet, if_neg (by omega)]
        rw [readFrom, if_pos hk, ih _ _ hr' above, kvGet, if_pos hk]
        simp only [later]
      · have above : ∀ x ∈ c :: r, a + 1 ≤ x.1 := by
          have hca : a + 1 ≤ c.1 := by have := ha c List.mem_cons_self; omega
          intro x hx
          obtain rfl | hx := List.mem_cons.1 hx
          · exact hca
          · exact hca.trans (Nat.le_of_lt (hc x hx))
        have absent : kvGet 0#8 (c :: r) a = 0#8 := kvGet_absent _ fun x hx => by have := above x hx; omega
        rw [readFrom, if_neg hk, ih _ _ hr above, absent]

/-- The bytes of a memory in canonical form, one by one. -/
theorem memGet_eq {m : Cells} (hm : Memory.wf m) (a n : Nat) : memGet m a n = (List.range n).map (fun i => memByte m (a + i)) := by
  have slice : ∀ c ∈ memSlice m a n, a ≤ c.1 := fun c hc => by
    have := (List.mem_filter.1 hc).2
    simp only [Bool.and_eq_true, decide_eq_true_eq] at this
    exact this.1
  have sorted : (memSlice m a n).Pairwise (fun x y => x.1 < y.1) := hm.1.filter _
  rw [memGet, readFrom_eq n a _ sorted slice]
  refine List.map_congr_left fun i hi => ?_
  have hin : (decide (a ≤ a + i) && decide (a + i < a + n)) = true := by
    have := List.mem_range.1 hi
    simp [this]
  exact kvGet_filter 0#8 m (fun k => decide (a ≤ k) && decide (k < a + n)) hin

/-- What a write leaves is read back, with what follows it. -/
theorem memGet_memPut {m : Cells} (hm : Memory.wf m) (a : Nat) {n : Nat} (bs : List Byte) (hn : bs.length ≤ n) :
    ∃ rest, memGet (memPut m a bs) a n = bs ++ rest := by
  refine ⟨(memGet (memPut m a bs) a n).drop bs.length, ?_⟩
  have first : (memGet (memPut m a bs) a n).take bs.length = bs := by
    rw [memGet_eq (memPut_wf _ _ _ hm)]
    refine List.ext_getElem (by simp [hn]) fun i hi hb => ?_
    rw [List.getElem_take, List.getElem_map, List.getElem_range, memByte_memPut _ _ _ _ hm, if_pos (by omega)]
    simp [hb]
  calc memGet (memPut m a bs) a n
      = (memGet (memPut m a bs) a n).take bs.length ++ (memGet (memPut m a bs) a n).drop bs.length := (List.take_append_drop _ _).symm
    _ = bs ++ (memGet (memPut m a bs) a n).drop bs.length := by rw [first]

end Sys2Proof.Machine
end

section
/-! The record of module state, written as words and bytes and read back (R350, R359, R395; log 41). -/

namespace Sys2Proof.Machine

/-! ### Words -/

theorem wordAt_zero (x : Nat) (w : List Nat) : wordAt (x :: w) 0 = x := rfl

theorem wordAt_succ (x : Nat) (w : List Nat) (i : Nat) : wordAt (x :: w) (i + 1) = wordAt w i := rfl

theorem wordAt_append_right (a b : List Nat) {n : Nat} (hn : a.length = n) (i : Nat) : wordAt (a ++ b) (n + i) = wordAt b i := by
  rw [wordAt, List.getD_append_right _ _ _ _ (by omega), hn, Nat.add_sub_cancel_left, wordAt]

theorem wordAt_map_range (f : Nat → Nat) (b : List Nat) {n i : Nat} (hi : i < n) : wordAt ((List.range n).map f ++ b) i = f i := by
  rw [wordAt, List.getD_append _ _ _ _ (by simpa using hi), List.getD_eq_getElem _ _ (by simpa using hi), List.getElem_map, List.getElem_range]

/-- Registers of 64 bits from their words. -/
theorem map_ofNat_toNat {n : Nat} (l : List W64) (hl : l.length = n) : (List.range n).map (fun i => BitVec.ofNat 64 (l.getD i 0#64).toNat) = l := by
  subst hl
  refine List.ext_getElem (by simp) fun i _ hi => ?_
  rw [List.getElem_map, List.getElem_range, List.getD_eq_getElem _ _ hi, BitVec.ofNat_toNat, BitVec.setWidth_eq]

/-! ### Entry records of streams -/

/-- Two contexts hold the same entry record: pc, registers, address bases, version, mark base and step. -/
def StreamCtx.sameEntry (c d : StreamCtx) : Prop :=
  c.pc = d.pc ∧ c.sregs = d.sregs ∧ c.abs = d.abs ∧ c.ver = d.ver ∧ c.base = d.base ∧ c.step = d.step

theorem StreamCtx.words_length (c : StreamCtx) : c.words.length = 53 := by simp [StreamCtx.words]

theorem streamOf_words (c : StreamCtx) (hsregs : c.sregs.length = 32) (habs : c.abs.length = 16) : (streamOf c.words).sameEntry c := by
  have layout : c.words = [c.pc] ++ ((List.range 32).map (fun i => (c.sregs.getD i 0#64).toNat) ++
      ((List.range 16).map (fun i => (c.abs.getD i 0#64).toNat) ++ [c.ver.toNat, c.base, c.step, c.st.recordCode])) := by
    simp only [StreamCtx.words, List.append_assoc]
  have past1 (i : Nat) := wordAt_append_right [c.pc] ((List.range 32).map (fun i => (c.sregs.getD i 0#64).toNat) ++
      ((List.range 16).map (fun i => (c.abs.getD i 0#64).toNat) ++ [c.ver.toNat, c.base, c.step, c.st.recordCode])) (n := 1) rfl i
  have past33 (i : Nat) : wordAt c.words (33 + i) =
      wordAt ((List.range 16).map (fun i => (c.abs.getD i 0#64).toNat) ++ [c.ver.toNat, c.base, c.step, c.st.recordCode]) i := by
    rw [layout, show 33 + i = 1 + (32 + i) by omega, past1, wordAt_append_right _ _ (by simp)]
  have past49 (i : Nat) : wordAt c.words (49 + i) = wordAt [c.ver.toNat, c.base, c.step, c.st.recordCode] i := by
    rw [show 49 + i = 33 + (16 + i) by omega, past33, wordAt_append_right _ _ (by simp)]
  have sregs : ∀ i ∈ List.range 32, BitVec.ofNat 64 (wordAt c.words (1 + i)) = BitVec.ofNat 64 (c.sregs.getD i 0#64).toNat := fun i hi => by
    rw [layout, past1, wordAt_map_range _ _ (List.mem_range.1 hi)]
  have abs : ∀ i ∈ List.range 16, BitVec.ofNat 64 (wordAt c.words (33 + i)) = BitVec.ofNat 64 (c.abs.getD i 0#64).toNat := fun i hi => by
    rw [past33, wordAt_map_range _ _ (List.mem_range.1 hi)]
  refine ⟨rfl, ?_, ?_, ?_, past49 1, past49 2⟩
  · exact (List.map_congr_left sregs).trans (map_ofNat_toNat _ hsregs)
  · exact (List.map_congr_left abs).trans (map_ofNat_toNat _ habs)
  · show BitVec.ofNat 32 (wordAt c.words (49 + 0)) = c.ver
    rw [past49]
    exact (BitVec.ofNat_toNat 32 c.ver).trans (BitVec.setWidth_eq _)

/-! ### Weights -/

theorem bnat_beq_one (b : Bool) : (bnat b == 1) = b := by cases b <;> rfl

theorem wstateOf_code (x : WState) : wstateOf x.code = x := by cases x <;> rfl

theorem bufStateOf_code (x : BufState) : bufStateOf x.code = x := by cases x <;> rfl

theorem Weight.words_length (w : Weight) : w.words.length = 39 := by
  cases h : w.decision <;> simp [Weight.words, decisionWords, VBuf.words, h]

theorem weightOf_words (w : Weight) : weightOf w.words = w := by
  obtain ⟨partR0, partR1, owner, dw32, stochastic, maskA, maskB, wc0, wc1, master, moment1, moment2, grad, extra, seed, ctrl, st, gen0, gen, gradGen, curB,
    decision, pReq, pDone, gReq, gDone, nonfinite, v0, v1⟩ := w
  cases decision with
  | none => simp [weightOf, Weight.words, decisionWords, VBuf.words, wordAt, vbufOf, bnat_beq_one, wstateOf_code, bufStateOf_code]
  | some d => simp [weightOf, Weight.words, decisionWords, VBuf.words, wordAt, vbufOf, bnat_beq_one, wstateOf_code, bufStateOf_code]

/-! ### Work counters -/

/-- Words of a counter with its log. -/
def WorkCounter.allWords (c : WorkCounter) : List Nat := c.words ++ c.log.flatMap (fun l => [l.tag, l.requester, l.grant])

/-- What a record keeps of a counter: nothing that waits. -/
def WorkCounter.kept (c : WorkCounter) : WorkCounter := { c with arriving := [], table := [], sets := [] }

theorem takeCounters_words (cs : List WorkCounter) (rest : List Nat) :
    takeCounters cs.length (cs.flatMap WorkCounter.allWords ++ rest) = (cs.map WorkCounter.kept, rest) := by
  induction cs with
  | nil => rfl
  | cons c cs ih =>
    have log : takeFixed 3 (fun l => (⟨wordAt l 0, wordAt l 1, wordAt l 2⟩ : WcLog)) c.log.length
        (c.log.flatMap (fun l => [l.tag, l.requester, l.grant]) ++ (cs.flatMap WorkCounter.allWords ++ rest)) =
          (c.log, cs.flatMap WorkCounter.allWords ++ rest) := by
      rw [takeFixed_flatMap (k := 3) (g := fun l => [l.tag, l.requester, l.grant]) _ c.log _ fun _ _ => rfl]
      exact congrArg (·, cs.flatMap WorkCounter.allWords ++ rest) (List.map_id' c.log)
    have layout : (c :: cs).flatMap WorkCounter.allWords ++ rest = c.value :: c.e :: c.logged :: c.log.length ::
        (c.log.flatMap (fun l => [l.tag, l.requester, l.grant]) ++ (cs.flatMap WorkCounter.allWords ++ rest)) := by
      simp [WorkCounter.allWords, WorkCounter.words]
    rw [layout, List.length_cons, takeCounters]
    simp only [wordAt_zero, wordAt_succ, List.drop_succ_cons, List.drop_zero, log, ih]
    rfl

/-! ### The digest -/

theorem flatMap_take_drop {α : Type} (k : Nat) : ∀ l : List α, l.length = 8 * k → (List.range k).flatMap (fun i => (l.drop (8 * i)).take 8) = l := by
  induction k with
  | zero => exact fun l hl => (List.length_eq_zero_iff.1 hl).symm
  | succ k ih =>
    intro l hl
    have rest := ih (l.drop 8) (by rw [List.length_drop]; omega)
    have later (i : Nat) : (l.drop (8 * (i + 1))).take 8 = ((l.drop 8).drop (8 * i)).take 8 := by rw [List.drop_drop, Nat.mul_succ, Nat.add_comm]
    simp only [List.range_succ_eq_map, List.flatMap_cons, List.flatMap_map, Nat.succ_eq_add_one, later, rest]
    simp

theorem digest_words {d : List Byte} (hd : d.length = 32) :
    (List.range 4).flatMap (fun i => leBytes 8 (leNat ((d.drop (8 * i)).take 8))) = d := by
  have word : ∀ i ∈ List.range 4, leBytes 8 (leNat ((d.drop (8 * i)).take 8)) = (d.drop (8 * i)).take 8 := fun i hi => by
    have := List.mem_range.1 hi
    exact leBytes_leNat (by rw [List.length_take, List.length_drop]; omega)
  rw [List.flatMap_congr word, flatMap_take_drop 4 d hd]

/-! ### The whole record -/

theorem streamAt_idx (st : Stream) : streamAt st.idx = st := by cases st <;> rfl

/-- The words after the header: streams, weights, counters. -/
def StateRecord.bodyWords (r : StateRecord) : List Nat :=
  r.streams.flatMap (fun e => [e.1, e.2.1.idx] ++ e.2.2.words) ++ (r.weights.flatMap (fun e => e.1 :: e.2.words) ++ r.counters.flatMap WorkCounter.allWords)

/-- Word `i` of the digest. -/
def StateRecord.digestWord (r : StateRecord) (i : Nat) : Nat := leNat ((r.digest.drop (8 * i)).take 8)

/-- A record without function tables: ten words of header and the body. -/
theorem StateRecord.words_eq {r : StateRecord} (ht : r.tables = []) (junk : List Nat) : r.words ++ junk =
    r.step :: r.tcount.toNat :: r.digestWord 0 :: r.digestWord 1 :: r.digestWord 2 :: r.digestWord 3 ::
      r.streams.length :: r.weights.length :: r.counters.length :: 0 :: (r.bodyWords ++ junk) := by
  have counter : WorkCounter.allWords = fun c => c.words ++ c.log.flatMap (fun l => [l.tag, l.requester, l.grant]) := rfl
  simp [StateRecord.words, StateRecord.bodyWords, StateRecord.digestWord, counter, ht, List.range_succ_eq_map]

/-- What the words of a record give back: its entry records, and a counter without what waits at it. -/
def StateRecord.kept (r : StateRecord) : StateRecord :=
  { r with
    streams := r.streams.map (fun e => (e.1, e.2.1, streamOf e.2.2.words))
    counters := r.counters.map WorkCounter.kept }

theorem takeFixed_streams (l : List (Nat × Stream × StreamCtx)) (rest : List Nat) :
    takeFixed 55 (fun l => (wordAt l 0, streamAt (wordAt l 1), streamOf (l.drop 2))) l.length
      (l.flatMap (fun e => [e.1, e.2.1.idx] ++ e.2.2.words) ++ rest) = (l.map (fun e => (e.1, e.2.1, streamOf e.2.2.words)), rest) := by
  rw [takeFixed_flatMap (g := fun e : Nat × Stream × StreamCtx => [e.1, e.2.1.idx] ++ e.2.2.words) _ l rest fun e _ => by
    rw [List.length_append, StreamCtx.words_length]; rfl]
  exact congrArg (·, rest) (List.map_congr_left fun e _ => congrArg (fun st => (e.1, st, streamOf e.2.2.words)) (streamAt_idx e.2.1))

theorem takeFixed_weights (l : List (Nat × Weight)) (rest : List Nat) :
    takeFixed 40 (fun l => (wordAt l 0, weightOf (l.drop 1))) l.length (l.flatMap (fun e => e.1 :: e.2.words) ++ rest) = (l, rest) := by
  rw [takeFixed_flatMap (g := fun e : Nat × Weight => e.1 :: e.2.words) _ l rest fun e _ => by rw [List.length_cons, Weight.words_length]]
  have same : l.map (fun e => (wordAt (e.1 :: e.2.words) 0, weightOf ((e.1 :: e.2.words).drop 1))) = l.map id :=
    List.map_congr_left fun e _ => by rw [List.drop_succ_cons, List.drop_zero, weightOf_words]; rfl
  rw [same, List.map_id]

/-- Reading the words of a record, whatever stands behind them, gives it back. -/
theorem recordOf_words {r : StateRecord} (ht : r.tables = []) (hd : r.digest.length = 32) (junk : List Nat) : recordOf (r.words ++ junk) = r.kept := by
  have digest : (List.range 4).flatMap (fun i => leBytes 8 (r.digestWord i)) = r.digest := digest_words hd
  have header (w : List Nat) : (List.range 4).flatMap (fun i => leBytes 8 (wordAt (r.step :: r.tcount.toNat :: r.digestWord 0 :: r.digestWord 1 ::
      r.digestWord 2 :: r.digestWord 3 :: w) (2 + i))) = (List.range 4).flatMap (fun i => leBytes 8 (r.digestWord i)) := rfl
  have tcount : BitVec.ofNat 32 r.tcount.toNat = r.tcount := (BitVec.ofNat_toNat 32 r.tcount).trans (BitVec.setWidth_eq _)
  rw [StateRecord.words_eq ht]
  unfold recordOf
  simp only [wordAt_zero, wordAt_succ, List.drop_succ_cons, List.drop_zero, StateRecord.bodyWords, List.append_assoc, takeFixed_streams, takeFixed_weights,
    takeCounters_words, takeTables, header, digest, tcount]
  rw [← ht]
  rfl

/-- Reading the bytes of a record, whatever stands behind them, gives it back (R395). -/
theorem recordOfBytes_bytes {r : StateRecord} (ht : r.tables = []) (hd : r.digest.length = 32) (hw : ∀ w ∈ r.words, w < 2 ^ 64) (junk : List Byte) :
    recordOfBytes (r.bytes ++ junk) = r.kept := by
  have hlen : r.bytes.length = r.words.length * 8 := length_flatMap_fixed _ fun w _ => leBytes_length 8 w
  have hcount : (r.bytes ++ junk).length / 8 = r.words.length + junk.length / 8 := by rw [List.length_append, hlen]; omega
  have pieces := chunks_flatMap (junk.length / 8) junk r.words fun w _ => leBytes_length 8 w
  have words : (r.words.map (leBytes 8)).map leNat = r.words := by
    rw [List.map_map]
    exact (List.map_congr_left fun w hm => leNat_leBytes 8 w (hw w hm)).trans (List.map_id' _)
  rw [recordOfBytes, hcount]
  show recordOf ((chunks (r.words.length + junk.length / 8) 8 (r.words.flatMap (leBytes 8) ++ junk)).map leNat) = r.kept
  rw [pieces, List.map_append, words, recordOf_words ht hd]

end Sys2Proof.Machine
end

section
/-! SNAPSHOT: what it writes and what it leaves (R216, R217, R231, R395). -/

namespace Sys2Proof.Machine

/-! ### Every staged copy is written back (R231) -/

theorem StageFree.writeBackAll {α : Type} {f : State → α} (hf : StageFree f) (s : State) : f s.writeBackAll = f s :=
  (hf.regs.bump64 _ _ _).trans (hf.staged s _)

theorem State.writeBackAll_staged (s : State) :
    s.writeBackAll.tiers.staged = s.tiers.staged.map (fun (y : Staged) => { y with dirty := false }) := State.bump64_staged _ _ _

theorem State.writeBackAll_clean {s : State} {y : Staged} (hy : y ∈ s.writeBackAll.tiers.staged) : y.dirty = false := by
  rw [State.writeBackAll_staged] at hy
  obtain ⟨x, -, rfl⟩ := List.mem_map.1 hy
  rfl

/-- The record does not depend on which copies are clean. -/
theorem State.writeBackAll_record (s : State) : s.writeBackAll.stateRecord false = s.stateRecord false := by
  have rest := StageFree.writeBackAll (f := fun s => { s.stateRecord false with tcount := 0 }) ⟨fun _ _ => rfl, fun _ _ => rfl⟩ s
  have tcount : s.writeBackAll.reg Reg.UPD_TCOUNT = s.reg Reg.UPD_TCOUNT := State.reg_bump64_ne _ _ _ _ (by decide) (by decide)
  calc s.writeBackAll.stateRecord false
      = { ({ s.writeBackAll.stateRecord false with tcount := 0 } : StateRecord) with tcount := s.writeBackAll.reg Reg.UPD_TCOUNT } := rfl
    _ = { ({ s.stateRecord false with tcount := 0 } : StateRecord) with tcount := s.reg Reg.UPD_TCOUNT } := by rw [rest, tcount]
    _ = s.stateRecord false := rfl

/-- Where the bytes of a range stand does not depend on which copies are clean. -/
theorem State.writeBackAll_reached (s : State) (own a n : Nat) : s.writeBackAll.reached own a n = s.reached own a n := by
  have counted := RegFree.bump64 (f := fun s => s.reached own a n) (fun _ _ => rfl)
    { s with tiers := { s.tiers with staged := s.tiers.staged.map (fun (y : Staged) => { y with dirty := false }) } } Reg.TIR_WRITEBACK
    (s.tiers.staged.filter (fun (y : Staged) => y.dirty)).length
  refine Eq.trans counted ?_
  simp only [State.reached, List.filter_map, List.isEmpty_map, ← List.map_append, List.foldl_map]
  rfl

theorem State.writeBackAll_eccBad (s : State) (a n own : Nat) : s.writeBackAll.eccBad a n own = s.eccBad a n own := by
  have bad : s.writeBackAll.eccAt = s.eccAt := StageFree.writeBackAll (f := State.eccAt) ⟨fun _ _ => rfl, fun _ _ => rfl⟩ s
  simp only [State.eccBad, State.writeBackAll_reached, bad]

theorem State.writeBackAll_unmergeable (s : State) (a n : Nat) : s.writeBackAll.unmergeable a n = s.unmergeable a n := by
  have merged : s.writeBackAll.mergedBlocks a n = s.mergedBlocks a n :=
    StageFree.writeBackAll (f := fun s => s.mergedBlocks a n) ⟨fun _ _ => rfl, fun _ _ => rfl⟩ s
  simp only [State.unmergeable, merged, State.writeBackAll_eccBad]

/-! ### A write that meets no uncorrectable block (R209, R216, R217, R358) -/

/-- `f` does not read what a write to memory changes, whatever ECC errors stood there: memory, registers, the ring engine, and the errors it replaces. -/
structure PutFree {α : Type} (f : State → α) : Prop where
  regs : RegFree f
  mem : ∀ (s : State) x, f { s with mem := x } = f s
  ring : ∀ (s : State) x, f { s with ring := x } = f s
  healed : ∀ (s : State) a n, f (s.healed a n) = f s

namespace PutFree

variable {α : Type} {f : State → α}

theorem intoWindows (hf : PutFree f) (s : State) (a : Nat) (l : List Byte) : f (s.intoWindows a l) = f s := by
  refine foldl_keeps (fun s x => keeps_ite rfl ?_) _ s
  split
  · rfl
  · exact keeps_onlyIf (hf.mem s _)

theorem refillForward (hf : PutFree f) (s : State) (a n : Nat) : f (s.refillForward a n) = f s := by
  unfold State.refillForward
  split
  · exact keeps_onlyIf (foldl_keeps (fun s _ => hf.ring s _) _ s)
  · rfl

theorem putPlain (hf : PutFree f) (s : State) (a : Nat) (l : List Byte) : f (s.putPlain a l) = f s := by
  refine keeps_ite rfl (Eq.trans ?_ (hf.mem s (memPut s.mem a l)))
  exact (hf.refillForward _ _ _).trans ((hf.intoWindows _ _ _).trans ((hf.healed _ _ _).trans (keeps_onlyIf (hf.regs.bump64 _ _ _))))

end PutFree

/-- A write that no copy and no twin takes changes memory at its bytes. -/
theorem State.putPlain_mem {s : State} (hstaged : s.tiers.staged = []) (hrefill : s.mir.refillPtr = none) (a : Nat) (bs : List Byte) :
    (s.putPlain a bs).mem = memPut s.mem a bs := by
  unfold State.putPlain
  split
  next hempty => rw [List.isEmpty_iff.1 hempty]; rfl
  next =>
  extract_lets t u
  have kept : ∀ {β : Type} {f : State → β}, RegFree f → f u = f t := fun hf => keeps_onlyIf (hf.bump64 t _ _)
  have staged : (u.healed a bs.length).tiers.staged = [] := (kept (f := fun s => s.tiers.staged) fun _ _ => rfl).trans hstaged
  have refill : (u.healed a bs.length).mir.refillPtr = none := (kept (f := fun s => s.mir.refillPtr) fun _ _ => rfl).trans hrefill
  have into : (u.healed a bs.length).intoWindows a bs = u.healed a bs.length := by rw [State.intoWindows, staged]; rfl
  rw [into, State.refillForward, refill]
  exact kept (f := State.mem) fun _ _ => rfl

/-- A correction does not change which blocks do not correct. -/
theorem State.corrected_unmergeable (s : State) (rs : List (Nat × Nat)) (own a n : Nat) : (s.corrected rs own).unmergeable a n = s.unmergeable a n :=
  CorrectFree.corrected (f := fun s => s.unmergeable a n) ⟨fun _ _ => rfl, fun _ _ _ _ _ => rfl, fun _ _ _ _ _ _ _ => rfl⟩ s rs own

/-- The write of mergeable blocks: what corrects is counted, then the bytes land. -/
theorem State.putMem_mergeable {s : State} {a : Nat} {bs : List Byte} (h : s.unmergeable a bs.length = []) :
    s.putMem a bs = (s.corrected ((s.mergedBlocks a bs.length).map fun b => (b * 2048, 2048))).putPlain a bs := by
  simp only [State.putMem, State.corrected_unmergeable, h]

/-! ### SNAPSHOT (R395) -/

/-- Two replies from a state with the host memory and the period of another. -/
theorem State.answeredTwice.of_same {s u t : State} {c : CmdHdr} {op st ft d : Nat} {l : List Byte} (h : u.answeredTwice t c op st ft d l)
    (hm : u.hostMem = s.hostMem) (hp : u.period = s.period) : s.answeredTwice t c op st ft d l := by
  rw [State.answeredTwice, ← hm, ← hp]
  exact h

/-- The state with the record in the region at `a`. -/
def State.saved (s : State) (a : Nat) : State := s.writeBackAll.putMem a (s.stateRecord false).bytes

theorem exec_snapshot_noRegion {s : State} {c : CmdHdr} {k : BitVec 16} (h : s.takes c) (hst : s.host.st = .held) (hk : s.kind4 k.toNat = none) :
    exec (.snapshot c k) s = .next (s.refuse c 0x30 0x01 k.toNat) := by
  show execSnapshot c k s = _
  simp [execSnapshot, State.cmdSnapshot, State.command_takes h _ (show s.host.st ∈ [ModState.held] by simp [hst]), hk]

theorem exec_snapshot_saves {s : State} {c : CmdHdr} {k : BitVec 16} {r : Region} (h : s.takes c) (hst : s.host.st = .held)
    (hk : s.kind4 k.toNat = some r) (hfits : (s.stateRecord false).bytes.length ≤ r.size) :
    exec (.snapshot c k) s = .next ((s.saved r.base).replyBoth c 0x30 Status.done 0 0 (leBytes 8 (s.stateRecord false).bytes.length)) := by
  show execSnapshot c k s = _
  simp only [execSnapshot, State.cmdSnapshot, State.command_takes h _ (show s.host.st ∈ [ModState.held] by simp [hst]), hk, State.snapshotIn,
    State.writeBackAll_record, if_neg (Nat.not_lt.2 hfits), State.saved]

section
variable {s : State} {a : Nat} (hmerge : s.unmergeable a (s.stateRecord false).bytes.length = [])
include hmerge

theorem State.saved_eq : s.saved a = (s.writeBackAll.corrected
    ((s.writeBackAll.mergedBlocks a (s.stateRecord false).bytes.length).map fun b => (b * 2048, 2048))).putPlain a (s.stateRecord false).bytes :=
  State.putMem_mergeable ((s.writeBackAll_unmergeable _ _).trans hmerge)

/-- What neither a write nor a correction changes is as before. -/
theorem State.saved_keeps {α : Type} {f : State → α} (hput : PutFree f) (hcorr : CorrectFree f) (hstage : StageFree f) : f (s.saved a) = f s := by
  rw [State.saved_eq hmerge]
  exact (hput.putPlain _ _ _).trans ((hcorr.corrected _ _ _).trans (hstage.writeBackAll s))

theorem State.saved_clean {y : Staged} (hy : y ∈ (s.saved a).tiers.staged) : y.dirty = false := by
  rw [State.saved_eq hmerge, PutFree.putPlain (f := fun s => s.tiers.staged) ⟨fun _ _ => rfl, fun _ _ => rfl, fun _ _ => rfl, fun _ _ _ => rfl⟩,
    State.corrected_staged] at hy
  exact State.writeBackAll_clean hy

/-- Without staged copies and a twin to refill, memory takes the bytes of the record. -/
theorem State.saved_mem (hstaged : s.tiers.staged = []) (hrefill : s.mir.refillPtr = none) :
    (s.saved a).mem = memPut s.mem a (s.stateRecord false).bytes := by
  have refill : s.writeBackAll.mir.refillPtr = none :=
    (StageFree.writeBackAll (f := fun s => s.mir.refillPtr) ⟨fun _ _ => rfl, fun _ _ => rfl⟩ s).trans hrefill
  have mem : s.writeBackAll.mem = s.mem := StageFree.writeBackAll (f := State.mem) ⟨fun _ _ => rfl, fun _ _ => rfl⟩ s
  rw [State.saved_eq hmerge, State.putPlain_mem, State.corrected_mem, mem]
  · rw [State.corrected_staged, State.writeBackAll_staged, hstaged]
    rfl
  · exact (CorrectFree.corrected (f := fun s => s.mir.refillPtr) ⟨fun _ _ => rfl, fun _ _ _ _ _ => rfl, fun _ _ _ _ _ _ _ => rfl⟩ _ _ _).trans refill

/-- With no error to correct host memory is as before. -/
theorem State.saved_hostMem (hfar : s.tiers.soft = []) (hnear : s.tiers.nearSoft = []) : (s.saved a).hostMem = s.hostMem := by
  have far : s.writeBackAll.tiers.soft = [] := (StageFree.writeBackAll (f := fun s => s.tiers.soft) ⟨fun _ _ => rfl, fun _ _ => rfl⟩ s).trans hfar
  have near : s.writeBackAll.tiers.nearSoft = [] :=
    (StageFree.writeBackAll (f := fun s => s.tiers.nearSoft) ⟨fun _ _ => rfl, fun _ _ => rfl⟩ s).trans hnear
  rw [State.saved_eq hmerge, State.corrected_of_no_errors far near]
  exact (PutFree.putPlain (f := State.hostMem) ⟨fun _ _ => rfl, fun _ _ => rfl, fun _ _ => rfl, fun _ _ _ => rfl⟩ _ _ _).trans
    (StageFree.writeBackAll (f := State.hostMem) ⟨fun _ _ => rfl, fun _ _ => rfl⟩ s)

/-- Whether the link carries a reply, and the period that the reply names, are as before. -/
theorem State.saved_link : (s.saved a).hostLink = s.hostLink ∧ (s.saved a).period = s.period :=
  ⟨State.saved_keeps (f := State.hostLink) hmerge ⟨fun _ _ => rfl, fun _ _ => rfl, fun _ _ => rfl, fun _ _ _ => rfl⟩
      ⟨fun _ _ => rfl, fun _ _ _ _ _ => rfl, fun _ _ _ _ _ _ _ => rfl⟩ ⟨fun _ _ => rfl, fun _ _ => rfl⟩,
    State.saved_keeps (f := State.period) hmerge ⟨fun _ _ => rfl, fun _ _ => rfl, fun _ _ => rfl, fun _ _ _ => rfl⟩
      ⟨fun _ _ => rfl, fun _ _ _ _ _ => rfl, fun _ _ _ _ _ _ _ => rfl⟩ ⟨fun _ _ => rfl, fun _ _ => rfl⟩⟩

/-- The module itself is as before: its host interface, arrays, step and time. -/
theorem State.saved_module : (s.saved a).host = s.host ∧ (s.saved a).arrays = s.arrays ∧ (s.saved a).stp = s.stp ∧ (s.saved a).thy = s.thy := by
  have same : ((s.saved a).host, (s.saved a).arrays, (s.saved a).stp, (s.saved a).thy) = (s.host, s.arrays, s.stp, s.thy) :=
    State.saved_keeps (f := fun s => (s.host, s.arrays, s.stp, s.thy)) hmerge ⟨fun _ _ => rfl, fun _ _ => rfl, fun _ _ => rfl, fun _ _ _ => rfl⟩
      ⟨fun _ _ => rfl, fun _ _ _ _ _ => rfl, fun _ _ _ _ _ _ _ => rfl⟩ ⟨fun _ _ => rfl, fun _ _ => rfl⟩
  simpa only [Prod.mk.injEq] using same

end

/-- A record that lies where the write put it, and nothing else has changed. -/
theorem memPut_written {m : Cells} (hm : Memory.wf m) (a : Nat) (bs : List Byte) :
    onlyWrites m (memPut m a bs) [(a, bs)] ∧ ∀ i, i < bs.length → memByte (memPut m a bs) (a + i) = bs.getD i 0 := by
  refine ⟨fun x hx => ?_, fun i hi => ?_⟩
  · have outside := hx (a, bs) List.mem_cons_self
    rw [memByte_memPut _ _ _ _ hm, if_neg (by dsimp only at outside; omega)]
  · rw [memByte_memPut _ _ _ _ hm, if_pos (by omega), Nat.add_sub_cancel_left]

/-- SNAPSHOT (R231, R395). -/
theorem exec_snapshot {s : State} {c : CmdHdr} {k : BitVec 16} {r : Region} (h : s.takes c) (hst : s.host.st = .held)
    (hk : s.kind4 k.toNat = some r) (hfits : (s.stateRecord false).bytes.length ≤ r.size)
    (hmerge : s.unmergeable r.base (s.stateRecord false).bytes.length = []) :
    ∃ t, exec (.snapshot c k) s = .next t ∧ t.host = s.host ∧ t.arrays = s.arrays ∧ t.stp = s.stp ∧ t.thy = s.thy ∧
      (∀ y ∈ t.tiers.staged, y.dirty = false) ∧
      (s.tiers.soft = [] → s.tiers.nearSoft = [] → s.answeredTwice t c 0x30 0 0 0 (leBytes 8 (s.stateRecord false).bytes.length)) ∧
      (Memory.wf s.mem → s.tiers.staged = [] → s.mir.refillPtr = none →
        onlyWrites s.mem t.mem [(r.base, (s.stateRecord false).bytes)] ∧
        ∀ i, i < (s.stateRecord false).bytes.length → memByte t.mem (r.base + i) = (s.stateRecord false).bytes.getD i 0) := by
  obtain ⟨hhost, harrays, hstp, hthy⟩ := State.saved_module hmerge
  obtain ⟨hlink, hperiod⟩ := State.saved_link hmerge
  have replied := State.onlyReply_replyBoth (s.saved r.base) c 0x30 Status.done 0 0 (leBytes 8 (s.stateRecord false).bytes.length)
  refine ⟨_, exec_snapshot_saves h hst hk hfits, (replied.keeps (f := State.host) fun _ _ _ _ => rfl).trans hhost,
    (replied.keeps (f := State.arrays) fun _ _ _ _ => rfl).trans harrays, (replied.keeps (f := State.stp) fun _ _ _ _ => rfl).trans hstp,
    (replied.keeps (f := State.thy) fun _ _ _ _ => rfl).trans hthy, fun y hy => ?_, fun hfar hnear => ?_, fun hwf hstaged hrefill => ?_⟩
  · rw [replied.keeps (f := fun s => s.tiers.staged) fun _ _ _ _ => rfl] at hy
    exact State.saved_clean hmerge hy
  · exact (State.answeredTwice_replyBoth _ _ _ _ _ _ (hlink.trans h.2.1)).of_same (State.saved_hostMem hmerge hfar hnear) hperiod
  · rw [replied.keeps (f := State.mem) fun _ _ _ _ => rfl, State.saved_mem hmerge hstaged hrefill]
    exact memPut_written hwf _ _

end Sys2Proof.Machine
end

section
/-! RESTORE, what it loads, and the round trip with SNAPSHOT (R216, R350, R359, R395); O56. -/

namespace Sys2Proof.Machine

/-! ### What a record loads (R359) -/

/-- `f` does not read what a record loads: arrays, weight table, counters, step, registers, the journal's generations, the module state. -/
structure LoadFree {α : Type} (f : State → α) : Prop where
  loads : ∀ (s : State) a m w p r, f { s with arrays := a, mask := m, wct := w, stp := p, regs := r } = f s
  mir : ∀ (s : State) x, f { s with mir := x } = f s
  st : ∀ (s : State) x, f (s.setSt x) = f s

/-- A captured entry record changes the journal alone (R348). -/
theorem State.captureAll_keeps {α : Type} {f : State → α} (hf : ∀ (s : State) x, f { s with mir := x } = f s) (s : State) (k : Nat) :
    f (s.captureAll k) = f s := by
  have gen (s : State) (k : Nat) (g : JGen → JGen) : f (s.modGen k g) = f s := hf s _
  have stream (s : State) (n : Nat) (st : Stream) : f (s.captureStream n st) = f s := keeps_ite rfl (gen s _ _)
  have streams : f ((List.range s.nArrays).foldl (fun (s : State) n => allStreams.foldl (fun (s : State) st => s.captureStream n st) s) s) = f s :=
    foldl_keeps (fun s n => foldl_keeps (fun s st => stream s n st) _ s) _ s
  exact Eq.trans (keeps_ite rfl (gen _ _ _)) (Eq.trans (keeps_ite rfl (gen _ _ _)) streams)

/-- The module with a record loaded, held at its step. -/
def State.restored (s : State) (r : StateRecord) : State :=
  let t := s.loadRecord r
  (({ t with stp := { t.stp with started := true, since := t.period }, mir := { t.mir with gens := [] } } : State).captureAll r.step).setSt .held

/-- What neither the capture nor the module state changes is as the record left it. -/
theorem State.restored_keeps {α : Type} {f : State → α} (hmir : ∀ (s : State) x, f { s with mir := x } = f s) (hst : ∀ (s : State) x, f (s.setSt x) = f s)
    (hstp : ∀ (s : State) x y, f { s with stp := { s.stp with started := x, since := y } } = f s) (s : State) (r : StateRecord) :
    f (s.restored r) = f (s.loadRecord r) :=
  (hst _ _).trans ((State.captureAll_keeps hmir _ _).trans (Eq.trans (hmir { s.loadRecord r with
    stp := { (s.loadRecord r).stp with started := true, since := (s.loadRecord r).period } } _) (hstp _ _ _)))

theorem State.loadStreams_keeps {α : Type} {f : State → α} (hf : ∀ (s : State) x, f { s with arrays := x } = f s) (s : State)
    (es : List (Nat × Stream × StreamCtx)) : f (s.loadStreams es) = f s := foldl_keeps (fun s _ => hf s _) _ s

/-- A record changes nothing but what it loads. -/
theorem LoadFree.restored {α : Type} {f : State → α} (hf : LoadFree f) (s : State) (r : StateRecord) : f (s.restored r) = f s := by
  have stp (s : State) (x : Bool) (y : Nat) : f { s with stp := { s.stp with started := x, since := y } } = f s := hf.loads s _ _ _ _ _
  have record : f (s.loadRecord r) = f (s.loadStreams r.streams) :=
    hf.loads (s.loadStreams r.streams) (s.loadRecord r).arrays (s.loadRecord r).mask (s.loadRecord r).wct (s.loadRecord r).stp (s.loadRecord r).regs
  exact (State.restored_keeps hf.mir hf.st stp s r).trans (record.trans (State.loadStreams_keeps (fun s x => hf.loads s x _ _ _ _) s r.streams))

section
variable (s : State) (r : StateRecord)

theorem State.restored_st : (s.restored r).host.st = .held := rfl

theorem State.restored_step : (s.restored r).stp.step = r.step :=
  State.captureAll_keeps (f := fun s => s.stp.step) (fun _ _ => rfl) _ _

theorem State.restored_weights : (s.restored r).mask.weights = r.weights :=
  State.restored_keeps (f := fun s => s.mask.weights) (fun _ _ => rfl) (fun _ _ => rfl) (fun _ _ _ => rfl) s r

theorem State.restored_tcount (hs : s.regsSorted) : (s.restored r).reg Reg.UPD_TCOUNT = r.tcount := by
  have sorted : (s.loadStreams r.streams).regsSorted := by
    rw [State.regsSorted, State.loadStreams_keeps (f := State.regs) fun _ _ => rfl]
    exact hs
  rw [State.restored_keeps (f := fun s => s.reg Reg.UPD_TCOUNT) (fun _ _ => rfl) (fun _ _ => rfl) (fun _ _ _ => rfl) s r]
  exact State.reg_setRw_same _ _ _ sorted

theorem State.loadStreams_length (es : List (Nat × Stream × StreamCtx)) : (s.loadStreams es).arrays.length = s.arrays.length :=
  foldl_keeps (f := fun s => s.arrays.length) (fun s _ => State.modArr_length s _ _) _ s

theorem State.restored_length : (s.restored r).arrays.length = s.arrays.length := by
  rw [State.restored_keeps (f := fun s => s.arrays.length) (fun _ _ => rfl) (fun _ _ => rfl) (fun _ _ _ => rfl) s r, ← s.loadStreams_length r.streams]
  simp [State.loadRecord, State.setRw, State.setReg]

/-- The counters are the record's where it has as many as the module. -/
theorem State.restored_wct (hlen : s.wct.length = r.counters.length) : (s.restored r).wct = r.counters := by
  have loaded : (s.loadStreams r.streams).wct = s.wct := State.loadStreams_keeps (f := State.wct) (fun _ _ => rfl) _ _
  have record : (s.loadRecord r).wct = s.wct.zipIdx.map (fun x => r.counters.getD x.2 x.1) := by
    rw [← loaded]
    rfl
  rw [State.restored_keeps (f := State.wct) (fun _ _ => rfl) (fun _ _ => rfl) (fun _ _ _ => rfl) s r, record]
  exact List.ext_getElem (by simpa using hlen) fun i _ hi => by simp [hi]

end

/-! ### Entry records loaded into streams (R359) -/

theorem StreamCtx.load_sameEntry (c e : StreamCtx) : (c.load e).sameEntry e := ⟨rfl, rfl, rfl, rfl, rfl, rfl⟩

theorem StreamCtx.sameEntry.trans {c d e : StreamCtx} (h : c.sameEntry d) (h' : d.sameEntry e) : c.sameEntry e := by
  obtain ⟨hpc, hsregs, habs, hver, hbase, hstep⟩ := h
  obtain ⟨hpc', hsregs', habs', hver', hbase', hstep'⟩ := h'
  exact ⟨hpc.trans hpc', hsregs.trans hsregs', habs.trans habs', hver.trans hver', hbase.trans hbase', hstep.trans hstep'⟩

/-- A change of one stream leaves every other. -/
theorem State.ctx_modCtx_ne (s : State) {n m : Nat} {st st' : Stream} (h : ¬(n = m ∧ st = st')) (g : StreamCtx → StreamCtx) :
    (s.modCtx n st g).ctx m st' = s.ctx m st' := by
  by_cases hm : n = m
  case neg => rw [State.ctx, State.modCtx, State.arr_modArr_ne _ _ _ _ (Ne.symm hm), State.ctx]
  case pos =>
    subst hm
    have hst : st' ≠ st := fun he => h ⟨rfl, he.symm⟩
    by_cases hl : n < s.arrays.length
    · rw [State.ctx, State.modCtx, State.arr_modArr_same _ _ _ hl, ArrayState.ctx_modCtx_ne _ _ _ _ hst, State.ctx]
    · simp [State.ctx, State.modCtx, State.arr, State.modArr, List.getD_eq_getElem?_getD, hl]

/-- A stream holds the entry record that a list names for it, if it held it before or the list does name one. -/
theorem State.loadStreams_entry {n : Nat} {st : Stream} {e : StreamCtx} (es : List (Nat × Stream × StreamCtx)) :
    ∀ s : State, n < s.arrays.length → (∀ x ∈ es, x.1 = n → x.2.1 = st → x.2.2.sameEntry e) →
      ((s.ctx n st).sameEntry e ∨ ∃ x ∈ es, x.1 = n ∧ x.2.1 = st) → ((s.loadStreams es).ctx n st).sameEntry e := by
  induction es with
  | nil =>
    intro s _ _ h
    exact h.resolve_right (by simp)
  | cons x es ih =>
    intro s hl hall h
    have hl' : n < (s.modCtx x.1 x.2.1 (fun c => c.load x.2.2)).arrays.length := by rwa [State.modCtx, State.modArr_length]
    refine ih _ hl' (fun y hy => hall y (List.mem_cons_of_mem _ hy)) ?_
    by_cases hx : x.1 = n ∧ x.2.1 = st
    · obtain ⟨hn, hst⟩ := hx
      have loaded : ((s.modCtx x.1 x.2.1 (fun c => c.load x.2.2)).ctx n st).sameEntry x.2.2 := by
        rw [hn, hst, State.ctx_modCtx_same _ _ _ _ hl]
        exact StreamCtx.load_sameEntry _ _
      exact .inl (loaded.trans (hall x List.mem_cons_self hn hst))
    · obtain hold | ⟨y, hy, hname⟩ := h
      · exact .inl (by rwa [s.ctx_modCtx_ne hx])
      · obtain rfl | hy := List.mem_cons.1 hy
        · exact absurd hname hx
        · exact .inr ⟨y, hy, hname⟩

/-- Loaded function tables leave the contexts. -/
theorem State.ctx_loadTables (s : State) (g : ArrayState × Nat → List TableSlot) (n : Nat) (st : Stream) :
    ({ s with arrays := s.arrays.zipIdx.map (fun x => { x.1 with tables := g x }) } : State).ctx n st = s.ctx n st := by
  have same (x : ArrayState × Nat) : ({ x.1 with tables := g x } : ArrayState).ctx st = x.1.ctx st := by cases st <;> rfl
  by_cases hl : n < s.arrays.length
  · have loaded : ({ s with arrays := s.arrays.zipIdx.map (fun x => { x.1 with tables := g x }) } : State).arr n =
        { s.arrays[n] with tables := g (s.arrays[n], n) } := by
      simp [State.arr, List.getD_eq_getElem?_getD, hl]
    have old : s.arr n = s.arrays[n] := by simp [State.arr, List.getD_eq_getElem?_getD, hl]
    rw [State.ctx, loaded, same (s.arrays[n], n), State.ctx, old]
  · simp [State.ctx, State.arr, List.getD_eq_getElem?_getD, hl]

/-- The contexts of a restored module are those that the record's streams leave. -/
theorem State.restored_ctx (s : State) (r : StateRecord) (n : Nat) (st : Stream) : (s.restored r).ctx n st = (s.loadStreams r.streams).ctx n st := by
  rw [State.restored_keeps (f := fun s => s.ctx n st) (fun _ _ => rfl) (fun _ _ => rfl) (fun _ _ _ => rfl) s r]
  exact (s.loadStreams r.streams).ctx_loadTables (fun x => r.tables.getD x.2 x.1.tables) n st

/-! ### RESTORE (R395) -/

/-- The bytes and the state from which Sage restores: the region's, where it corrects (R209, R216). -/
theorem State.hostReads_correctable {s : State} {a n : Nat} (he : s.eccBad a n = none) : s.hostReads a n = (s.corrected [(a, n)], s.get a n) := by
  simp [State.hostReads, he]

theorem exec_restore_reads {s : State} {c : CmdHdr} {k : BitVec 16} {r : Region} (h : s.takes c) (hst : s.host.st = .ready)
    (hk : s.kind4 k.toNat = some r) : exec (.restore c k) s = .next (s.restoreFrom c r) := by
  show execRestore c k s = _
  simp [execRestore, State.cmdRestore, State.command_takes h _ (show s.host.st ∈ [ModState.ready] by simp [hst]), hk]

/-- A record of another program is refused. -/
theorem State.restoreFrom_refuses {s u : State} {r : Region} {bs : List Byte} (c : CmdHdr) (hread : s.hostReads r.base r.size = (u, bs))
    (hother : (recordOfBytes bs).digest ≠ u.host.program) : s.restoreFrom c r = u.replyBoth c 0x31 Status.refused 0x05 0 [] := by
  simp [State.restoreFrom, hread, hother]

theorem State.restoreFrom_loads {s u : State} {r : Region} {bs : List Byte} (c : CmdHdr) (hread : s.hostReads r.base r.size = (u, bs))
    (hsame : (recordOfBytes bs).digest = u.host.program) :
    s.restoreFrom c r = (u.restored (recordOfBytes bs)).replyBoth c 0x31 Status.done 0 0 [] := by
  simp [State.restoreFrom, hread, hsame, State.restored]

/-- RESTORE of a record of another program. -/
theorem exec_restore_refused {s : State} {c : CmdHdr} {k : BitVec 16} {r : Region} (h : s.takes c) (hst : s.host.st = .ready)
    (hk : s.kind4 k.toNat = some r) (hecc : s.eccBad r.base r.size = none)
    (hother : (recordOfBytes (s.get r.base r.size)).digest ≠ s.host.program) :
    ∃ t, exec (.restore c k) s = .next t ∧ t.host = s.host ∧ t.arrays = s.arrays ∧ t.mem = s.mem ∧ t.mask = s.mask ∧
      (s.tiers.soft = [] → s.tiers.nearSoft = [] → s.onlyReply t ∧ s.answeredTwice t c 0x31 2 0x05 0 []) := by
  have heffect := (exec_restore_reads h hst hk).trans (congrArg Host.Outcome.next
    (State.restoreFrom_refuses c (State.hostReads_correctable hecc) (by rwa [State.corrected_host])))
  have replied := State.onlyReply_replyBoth (s.corrected [(r.base, r.size)]) c 0x31 Status.refused 0x05 0 []
  have module : ((s.corrected [(r.base, r.size)]).host, (s.corrected [(r.base, r.size)]).arrays, (s.corrected [(r.base, r.size)]).mem,
      (s.corrected [(r.base, r.size)]).mask) = (s.host, s.arrays, s.mem, s.mask) :=
    CorrectFree.corrected (f := fun s => (s.host, s.arrays, s.mem, s.mask)) ⟨fun _ _ => rfl, fun _ _ _ _ _ => rfl, fun _ _ _ _ _ _ _ => rfl⟩ s _ _
  simp only [Prod.mk.injEq] at module
  obtain ⟨hhost, harrays, hmem, hmask⟩ := module
  refine ⟨_, heffect, (replied.keeps (f := State.host) fun _ _ _ _ => rfl).trans hhost, (replied.keeps (f := State.arrays) fun _ _ _ _ => rfl).trans harrays,
    (replied.keeps (f := State.mem) fun _ _ _ _ => rfl).trans hmem, (replied.keeps (f := State.mask) fun _ _ _ _ => rfl).trans hmask, fun hfar hnear => ?_⟩
  rw [State.corrected_of_no_errors hfar hnear]
  exact ⟨s.onlyReply_replyBoth _ _ _ _ _ _, State.answeredTwice_replyBoth _ _ _ _ _ _ h.2.1⟩

/-- What a restored module keeps of the one before: memory, time and whether the link carries replies. -/
theorem State.restored_frame (s : State) (r : StateRecord) : (s.restored r).mem = s.mem ∧ (s.restored r).thy = s.thy ∧
    (s.restored r).hostMem = s.hostMem ∧ (s.restored r).period = s.period ∧ (s.restored r).hostLink = s.hostLink ∧ (s.restored r).flt = s.flt := by
  have same : ((s.restored r).mem, (s.restored r).thy, (s.restored r).hostMem, (s.restored r).period, (s.restored r).hostLink, (s.restored r).flt) =
      (s.mem, s.thy, s.hostMem, s.period, s.hostLink, s.flt) :=
    LoadFree.restored (f := fun s => (s.mem, s.thy, s.hostMem, s.period, s.hostLink, s.flt)) ⟨fun _ _ _ _ _ _ => rfl, fun _ _ => rfl, fun _ _ => rfl⟩ s r
  simpa only [Prod.mk.injEq] using same

/-- RESTORE of a record of the program. -/
theorem exec_restore_loads {s : State} {c : CmdHdr} {k : BitVec 16} {r : Region} (h : s.takes c) (hst : s.host.st = .ready)
    (hk : s.kind4 k.toNat = some r) (hecc : s.eccBad r.base r.size = none)
    (hsame : (recordOfBytes (s.get r.base r.size)).digest = s.host.program) :
    exec (.restore c k) s = .next (((s.corrected [(r.base, r.size)]).restored (recordOfBytes (s.get r.base r.size))).replyBoth c 0x31 Status.done 0 0 []) :=
  (exec_restore_reads h hst hk).trans (congrArg Host.Outcome.next
    (State.restoreFrom_loads c (State.hostReads_correctable hecc) (by rwa [State.corrected_host])))

theorem exec_restore_held {s : State} {c : CmdHdr} {k : BitVec 16} {r : Region} (h : s.takes c) (hst : s.host.st = .ready)
    (hk : s.kind4 k.toNat = some r) (hecc : s.eccBad r.base r.size = none)
    (hsame : (recordOfBytes (s.get r.base r.size)).digest = s.host.program) :
    ∃ t, exec (.restore c k) s = .next t ∧ t.host.st = .held ∧
      t.stp.step = (recordOfBytes (s.get r.base r.size)).step ∧ t.mask.weights = (recordOfBytes (s.get r.base r.size)).weights ∧
      t.mem = s.mem ∧ t.thy = s.thy ∧ t.arrays.length = s.arrays.length ∧
      (s.tiers.soft = [] → s.tiers.nearSoft = [] → s.answeredTwice t c 0x31 0 0 0 []) := by
  obtain ⟨hmem, hthy, hhostMem, hperiod, hlink, -⟩ := (s.corrected [(r.base, r.size)]).restored_frame (recordOfBytes (s.get r.base r.size))
  have replied := State.onlyReply_replyBoth ((s.corrected [(r.base, r.size)]).restored (recordOfBytes (s.get r.base r.size))) c 0x31 Status.done 0 0 []
  have thy : (s.corrected [(r.base, r.size)]).thy = s.thy :=
    CorrectFree.corrected (f := State.thy) ⟨fun _ _ => rfl, fun _ _ _ _ _ => rfl, fun _ _ _ _ _ _ _ => rfl⟩ s _ _
  refine ⟨_, exec_restore_loads h hst hk hecc hsame, (replied.keeps (f := fun s => s.host.st) fun _ _ _ _ => rfl).trans (State.restored_st _ _),
    (replied.keeps (f := fun s => s.stp.step) fun _ _ _ _ => rfl).trans (State.restored_step _ _),
    (replied.keeps (f := fun s => s.mask.weights) fun _ _ _ _ => rfl).trans (State.restored_weights _ _),
    (replied.keeps (f := State.mem) fun _ _ _ _ => rfl).trans (hmem.trans (State.corrected_mem _ _ _)),
    (replied.keeps (f := State.thy) fun _ _ _ _ => rfl).trans (hthy.trans thy), ?_, fun hfar hnear => ?_⟩
  · rw [replied.keeps (f := fun s => s.arrays.length) fun _ _ _ _ => rfl, State.restored_length, State.corrected_arrays]
  · rw [State.corrected_of_no_errors hfar hnear] at hhostMem hperiod hlink ⊢
    exact (State.answeredTwice_replyBoth _ _ _ _ _ _ (hlink.trans h.2.1)).of_same hhostMem hperiod

/-! ### A record that does not correct (R216, R427) -/

/-- The first record is no event's to change. -/
theorem eventFree_first : EventFree (fun s : State => s.flt.first) where
  notes _ _ _ h _ := h
  bump _ _ _ _ := RegFree.bump (f := fun s : State => s.flt.first) (fun _ _ => rfl) _ _ _
  setBits _ _ _ _ := rfl

/-- A fault is the first record where there is none (R427). -/
theorem State.recordFault_first {s : State} (hnone : s.flt.first = none) (x : FaultRec) : (s.recordFault x).flt.first = some x := by
  have effects : EccFree (fun s : State => s.flt.first) :=
    { eventFree_first with regs := fun _ _ => rfl, tiers := fun _ _ => rfl, posTesting := fun _ _ => rfl }
  have counted : (((s.eccEffects x).bump Reg.FLT_COUNT 1).setBits Reg.FLT_STATUS 1).flt.first = none :=
    (eventFree_first.note _ 1 1 (by decide) (by decide)).trans ((effects.eccEffects s x).trans hnone)
  unfold State.recordFault
  extract_lets t u newFirst newLast f₀ f₁ f₂ f₃ w
  have first : newFirst = true := by
    unfold newFirst
    rw [show u.flt.first = none from counted]
  have entered : w.flt.first = f₂.first := eventFree_first.faultEntry _ x
  refine (keeps_onlyIf (f := fun s => s.flt.first) (eventFree_first.flt w _)).trans (entered.trans ?_)
  unfold f₂
  split
  · simp only [f₁, first, if_true]
  · simp only [f₁, first, if_true]

/-- What the answer to RESTORE leaves of a fault before it. -/
def State.faultAndMem (s : State) : Bool × Option FaultRec × Cells := (s.flt.unacked, s.flt.first, s.mem)

theorem State.replyBoth_faultAndMem (s : State) (c : CmdHdr) (op st ft d : Nat) (l : List Byte) : (s.replyBoth c op st ft d l).faultAndMem = s.faultAndMem := by
  have events : EventFree State.faultAndMem :=
    { notes := fun s m x h1 h2 => by rw [State.faultAndMem, h1, h2, State.faultAndMem]
      bump := fun s a n _ => RegFree.bump (f := State.faultAndMem) (fun _ _ => rfl) s a n
      setBits := fun _ _ _ _ => rfl }
  exact (RegFree.bump (f := State.faultAndMem) (fun _ _ => rfl) _ _ _).trans ((events.putReply _ _ _ _ _ _ _ _).trans (events.putReply _ _ _ _ _ _ _ _))

theorem State.restored_faultAndMem (s : State) (r : StateRecord) : (s.restored r).faultAndMem = s.faultAndMem := by
  obtain ⟨hmem, -, -, -, -, hflt⟩ := s.restored_frame r
  rw [State.faultAndMem, hmem, hflt, State.faultAndMem]

/-- Whatever Sage has read, the answer leaves faults and memory as the read did. -/
theorem State.restoreFrom_faultAndMem (s : State) (c : CmdHdr) (r : Region) : (s.restoreFrom c r).faultAndMem = (s.hostReads r.base r.size).1.faultAndMem := by
  by_cases hsame : (recordOfBytes (s.hostReads r.base r.size).2).digest = (s.hostReads r.base r.size).1.host.program
  · rw [State.restoreFrom_loads (u := (s.hostReads r.base r.size).1) c rfl hsame, State.replyBoth_faultAndMem, State.restored_faultAndMem]
  · rw [State.restoreFrom_refuses (u := (s.hostReads r.base r.size).1) c rfl hsame, State.replyBoth_faultAndMem]

theorem exec_restore_uncorrectable {s : State} {c : CmdHdr} {k : BitVec 16} {r : Region} (h : s.takes c) {code bad : Nat} (hst : s.host.st = .ready)
    (hk : s.kind4 k.toNat = some r) (hecc : s.eccBad r.base r.size = some (code, bad)) :
    ∃ t, exec (.restore c k) s = .next t ∧ t.flt.unacked = true ∧ t.mem = s.mem ∧
      (s.flt.first = none → ∃ f, t.flt.first = some f ∧ f.code = code ∧ f.addr = bad) := by
  have view : (s.restoreFrom c r).faultAndMem = (s.recordFault (s.hostReadFault code bad)).faultAndMem := by
    rw [State.restoreFrom_faultAndMem, State.hostReads_uncorrectable hecc, State.raise_of_not_running (by rw [hst]; decide)]
    rfl
  have mem : (s.recordFault (s.hostReadFault code bad)).mem = s.mem :=
    EccFree.recordFault (f := State.mem) { EventFree.of_unread (f := State.mem) (fun _ _ _ _ => rfl) with
      regs := fun _ _ => rfl, tiers := fun _ _ => rfl, posTesting := fun _ _ => rfl } (fun _ _ => rfl) s _
  simp only [State.faultAndMem, Prod.mk.injEq] at view
  obtain ⟨hunacked, hfirst, hmem⟩ := view
  exact ⟨_, exec_restore_reads h hst hk, hunacked.trans (s.recordFault_unacked _), hmem.trans mem,
    fun hnone => ⟨_, hfirst.trans (State.recordFault_first hnone _), rfl, rfl⟩⟩

/-! ### The round trip (R395) -/

theorem State.stateRecord_tables (s : State) : (s.stateRecord false).tables = [] := rfl

/-- A module's record names every stream of its arrays with its entry record, and no other. -/
theorem State.mem_streams {s : State} {e : Nat × Stream × StreamCtx} :
    e ∈ (s.stateRecord false).streams ↔ e.1 < s.nArrays ∧ e.2.2 = s.entryCtx e.1 e.2.1 := by
  show e ∈ (List.range s.nArrays).flatMap (fun n => allStreams.map (fun st => (n, st, s.entryCtx n st))) ↔ _
  simp only [List.mem_flatMap, List.mem_map, List.mem_range]
  constructor
  · rintro ⟨n, hn, st, -, rfl⟩
    exact ⟨hn, rfl⟩
  · rintro ⟨hn, he⟩
    exact ⟨e.1, hn, e.2.1, mem_allStreams _, by rw [← he]⟩

/-- The counters of a record hold nothing that waits. -/
theorem State.stateRecord_kept_counters (s : State) : (s.stateRecord false).kept.counters = (s.stateRecord false).counters := by
  show (s.wct.map WorkCounter.kept).map WorkCounter.kept = s.wct.map WorkCounter.kept
  rw [List.map_map]
  rfl

/-- A module that loads what a record keeps holds the entry records it names (R350, R359). -/
theorem State.restored_entry {s u : State} (hregs : ∀ e ∈ (s.stateRecord false).streams, e.2.2.sregs.length = 32 ∧ e.2.2.abs.length = 16)
    {n : Nat} (hn : n < s.nArrays) (hl : s.nArrays ≤ u.arrays.length) (st : Stream) :
    ((u.restored (s.stateRecord false).kept).ctx n st).sameEntry (s.entryCtx n st) := by
  rw [State.restored_ctx]
  refine State.loadStreams_entry _ u (hn.trans_le hl) (fun x hx hxn hxst => ?_) (.inr ?_)
  · obtain ⟨e, he, rfl⟩ := List.mem_map.1 hx
    obtain ⟨hsregs, habs⟩ := hregs e he
    obtain ⟨-, hentry⟩ := State.mem_streams.1 he
    have hctx : e.2.2 = s.entryCtx n st := by rw [hentry, show e.1 = n from hxn, show e.2.1 = st from hxst]
    exact hctx ▸ streamOf_words e.2.2 hsregs habs
  · exact ⟨_, List.mem_map_of_mem (State.mem_streams.2 (show (n, st, s.entryCtx n st).1 < s.nArrays ∧ _ from ⟨hn, rfl⟩)), rfl, rfl⟩

/-- SNAPSHOT and then RESTORE (R395). -/
theorem snapshot_restore {c d : CmdHdr} {k : BitVec 16} {r : Region} {s t u : State} (hs : s.takes c) (hheld : s.host.st = .held)
    (hk : s.kind4 k.toNat = some r) (hfits : (s.stateRecord false).bytes.length ≤ r.size)
    (hmerge : s.unmergeable r.base (s.stateRecord false).bytes.length = []) (hwf : Memory.wf s.mem) (hstaged : s.tiers.staged = [])
    (hrefill : s.mir.refillPtr = none) (ht : exec (.snapshot c k) s = .next t) (hwords : ∀ w ∈ (s.stateRecord false).words, w < 2 ^ 64)
    (hregs : ∀ e ∈ (s.stateRecord false).streams, e.2.2.sregs.length = 32 ∧ e.2.2.abs.length = 16) (hdigest : s.host.program.length = 32)
    (hu : u.takes d) (hready : u.host.st = .ready) (hk' : u.kind4 k.toNat = some r) (hmem : u.mem = t.mem) (hecc : u.eccBad r.base r.size = none)
    (hprogram : u.host.program = s.host.program) (hwct : u.wct.length = s.wct.length) (hl : s.nArrays ≤ u.arrays.length) :
    ∃ v, exec (.restore d k) u = .next v ∧ v.host.st = .held ∧ v.stp.step = s.stp.step ∧ v.mask.weights = s.mask.weights ∧
      v.wct = s.wct.map (fun w => { w with arriving := [], table := [], sets := [] }) ∧
      (u.regsSorted → v.reg Reg.UPD_TCOUNT = s.reg Reg.UPD_TCOUNT) ∧
      ∀ n st, n < s.nArrays → (v.ctx n st).sameEntry (s.entryCtx n st) := by
  have saved : u.mem = memPut s.mem r.base (s.stateRecord false).bytes := by
    obtain rfl : _ = t := Host.Outcome.next.inj ((exec_snapshot_saves hs hheld hk hfits).symm.trans ht)
    have replied := State.onlyReply_replyBoth (s.saved r.base) c 0x30 Status.done 0 0 (leBytes 8 (s.stateRecord false).bytes.length)
    exact hmem.trans ((replied.keeps (f := State.mem) fun _ _ _ _ => rfl).trans (State.saved_mem hmerge hstaged hrefill))
  have record : recordOfBytes (u.get r.base r.size) = (s.stateRecord false).kept := by
    obtain ⟨rest, hread⟩ := memGet_memPut hwf r.base (s.stateRecord false).bytes hfits
    rw [State.get, saved, hread]
    exact recordOfBytes_bytes s.stateRecord_tables hdigest hwords rest
  have effect := exec_restore_loads hu hready hk' hecc (by rw [record]; exact hprogram.symm)
  rw [record] at effect
  have replied := State.onlyReply_replyBoth ((u.corrected [(r.base, r.size)]).restored (s.stateRecord false).kept) d 0x31 Status.done 0 0 []
  have counters : (u.corrected [(r.base, r.size)]).wct.length = (s.stateRecord false).kept.counters.length := by
    rw [CorrectFree.corrected (f := State.wct) ⟨fun _ _ => rfl, fun _ _ _ _ _ => rfl, fun _ _ _ _ _ _ _ => rfl⟩, hwct, State.stateRecord_kept_counters]
    exact (List.length_map _).symm
  refine ⟨_, effect, (replied.keeps (f := fun s => s.host.st) fun _ _ _ _ => rfl).trans (State.restored_st _ _),
    (replied.keeps (f := fun s => s.stp.step) fun _ _ _ _ => rfl).trans (State.restored_step _ _),
    (replied.keeps (f := fun s => s.mask.weights) fun _ _ _ _ => rfl).trans (State.restored_weights _ _),
    (replied.keeps (f := State.wct) fun _ _ _ _ => rfl).trans ((State.restored_wct _ _ counters).trans s.stateRecord_kept_counters),
    fun hsorted => ?_, fun n st hn => ?_⟩
  · have kept := EventFree.of_reg (a := Reg.UPD_TCOUNT) (by decide)
    rw [State.replyBoth, State.reg_bump_ne _ _ _ _ (by decide), kept.putReply, kept.putReply]
    exact State.restored_tcount _ _ (State.corrected_regsSorted hsorted _ _)
  · rw [replied.keeps (f := fun s => s.ctx n st) fun _ _ _ _ => rfl]
    exact State.restored_entry hregs hn (by rwa [State.corrected_arrays]) st

/-- Settles O56: SNAPSHOT and RESTORE clause by clause, then the round trip, in which the bytes that SNAPSHOT writes are read back as the record they were made of. -/
theorem snapshotAndRestore : Obligations.SnapshotAndRestore := by
  unfold Obligations.SnapshotAndRestore
  refine ⟨fun c k s h => ⟨fun hst hk => ⟨_, exec_snapshot_noRegion h hst hk, s.onlyReply_reply _ _ _ _ _ _, State.answered_reply _ _ _ _ _ _ h.2.1⟩,
    fun r => exec_snapshot h, fun r hst hk hecc => ⟨exec_restore_refused h hst hk hecc, exec_restore_held h hst hk hecc⟩,
    fun r code bad => exec_restore_uncorrectable h⟩, ?_⟩
  intro c d k r s t u hs hheld hk hfits hmerge hwf hstaged hrefill ht hwords hregs hdigest hu hready hk' hmem hecc hprogram hwct hl
  exact snapshot_restore hs hheld hk hfits hmerge hwf hstaged hrefill ht hwords hregs hdigest hu hready hk' hmem hecc hprogram hwct hl

end Sys2Proof.Machine
end

section
/-! PERIOD_BOUNDARY in a running module with an overflow to record (R179, R234, R248): QUEUE_OVERFLOW forms a STOP report about the module itself, and the report retires the receives of a context whose partner is the module, whose buffers become free values (R340). O37 says that memory is then as at the end of the period. -/

namespace Sys2Proof.Machine

/-! ### The parts of a boundary -/

/-- The period that ends, its entries written and its calibration in force. -/
def State.periodClosed (s : State) : State := s.periodEnd.flushEntries.applyCal periodCal

/-- The next period, with lateness and hold level settled, before faults and stops of the boundary. -/
def State.periodOpened (s : State) : State :=
  let t := s.periodClosed
  (t.advancePeriod.countLate (t.advancePeriod.tick != t.tick)).behindTest

theorem exec_periodBoundary {s : State} (hb : s.host.bootDone = true) :
    exec .periodBoundary s = .next (s.periodOpened.recordOverflows.stopDue s.periodClosed.flt.stopAsked).phaseDuties := by
  show execPeriodBoundary s = _
  simp only [execPeriodBoundary, hb, Bool.not_true, Bool.false_eq_true, if_false]
  rfl

/-- The duties of master and members at a boundary are frames and marks of the time system. -/
theorem SendFree.phaseDuties {α : Type} {f : State → α} (hf : SendFree f) (s : State) : f s.phaseDuties = f s := by
  unfold State.phaseDuties
  refine keeps_ite ((hf.masterRate _).trans (keeps_onlyIf (hf.sendPhase s _ _ _))) (keeps_ite rfl ?_)
  exact hf.modThy s _

/-- Where no stop is due, memory after the boundary is memory after its overflows. -/
theorem exec_periodBoundary_mem {s t : State} (hb : s.host.bootDone = true) (hstop : s.periodClosed.flt.stopAsked = false)
    (ht : exec .periodBoundary s = .next t) : t.mem = s.periodOpened.recordOverflows.mem := by
  rw [exec_periodBoundary hb, hstop] at ht
  obtain rfl := Host.Outcome.next.inj ht
  exact sendFree_mem.phaseDuties _

/-! ### QUEUE_OVERFLOW at a boundary (R179) -/

/-- The arrays start the period with no overflow to record. -/
def State.overflowsTaken (s : State) : State := { s with arrays := s.arrays.map (fun a => { a with overflowed := false }) }

/-- The record of an overflow of array `n` whose queue has emptied since. -/
def overflowFault (n : Nat) : FaultRec := { FaultRec.of 0x12 1 with arr := n }

/-- One array has overflowed, and its queue has emptied since. -/
theorem State.recordOverflows_one {s : State} {n : Nat} (hmay : s.mayTimeOut = true)
    (hone : (List.range s.arrays.length).filter (fun k => (s.arr k).overflowed) = [n]) (hempty : (s.overflowsTaken.arr n).queue = []) :
    s.recordOverflows = s.overflowsTaken.raise (overflowFault n) := by
  unfold State.overflowsTaken at hempty
  simp only [State.recordOverflows, hone, hmay, Bool.not_true, Bool.false_eq_true, if_false, List.foldl_cons, List.foldl_nil, hempty]
  rfl

/-- So far the boundary keeps the invariant. -/
theorem State.InvTo.periodOpened {s : State} {b : Nat} (hs : s.InvTo b) : s.periodOpened.InvTo 0 :=
  have closed : s.periodClosed.InvTo (b + (256 - s.thy.cyc)) := hs.periodEnd.flushEntries.applyCal
  closed.advancePeriod.countLate.behindTest

/-! ### A module that hears itself -/

/-- A running module in the last cycle of period 0, at ring address 0 and a member of its job, with an OPEN context to itself and a receive on it, the first byte of whose buffer is `v`; the queue of array 0 has overflowed in this period. -/
def State.overflowing (v : Byte) : State :=
  { State.reset.modArr 0 (fun a => { a with overflowed := true }) with
    mem := memSet [] 0x400000 v
    host := { HostIf.reset with st := .running, bootDone := true }
    thy := { Thyme.reset with cyc := 255, cycle := 255 }
    tiers := { State.reset.tiers with regions := [⟨0x400000, 0x100000, 5, 31, 7, 0⟩] }
    ring := { Ring.reset with members := 1, ctxs := [(5, ⟨.open_, 0, 5, 0, false, [], [loopRecv], [], 0, 0, false⟩)] } }

/-- The module meets the invariant. -/
theorem State.overflowing_inv (v : Byte) : (State.overflowing v).InvTo 255 :=
  { (State.InvTo.resetOf Device.reset []).modArr (n := 0) (g := fun a => { a with overflowed := true }) with
    mem := memSet_wf _ _ _ ⟨.nil, nofun⟩
    ports := rfl
    cyc := Nat.le_refl 255 }

/-- Its next period, in which the overflow is recorded. -/
def State.overflowTaken (v : Byte) : State := (State.overflowing v).periodOpened.overflowsTaken

/-- What the report of the overflow enters. -/
def overflowReport (v : Byte) : State × Option Merge := (State.overflowTaken v).reporting (overflowFault 0)

theorem State.overflowTaken_inv (v : Byte) : (State.overflowTaken v).InvTo 0 := (State.overflowing_inv v).periodOpened.mapArrays

theorem overflowReport_inv (v : Byte) : (overflowReport v).1.InvTo 0 := State.InvTo.reporting (State.overflowTaken_inv v)

/-- Its merge entry: about module 0, class 0x12. -/
def overflowMerge : Merge := ⟨0, 0x12, 1, 1, 1, some 9, 5, true⟩

/-- The receive at that boundary: it has become late (R244). -/
def lateRecv : Recv := { loopRecv with late := true }

/-- The overflow reports the module itself, and the report acts (R340, R427). -/
theorem State.overflowing_acts {v : Byte} (hv : v ∈ [1#8, 2#8]) :
    (State.overflowing v).periodOpened.recordOverflows = (overflowReport v).1.actOn overflowMerge := by
  have overflows : ∀ v ∈ [1#8, 2#8], (State.overflowing v).periodOpened.mayTimeOut = true ∧
      (List.range (State.overflowing v).periodOpened.arrays.length).filter (fun k => ((State.overflowing v).periodOpened.arr k).overflowed) = [0] ∧
      ((State.overflowTaken v).arr 0).queue = [] := by decide +kernel
  have reports : ∀ v ∈ [1#8, 2#8], ((State.overflowTaken v).recordFault (overflowFault 0)).host.st = .running ∧
      ((State.overflowTaken v).recordFault (overflowFault 0)).flt.beaconSent = false ∧ (overflowReport v).2 = some overflowMerge ∧
      (overflowReport v).1.losesTwin overflowMerge = false := by decide +kernel
  obtain ⟨hmay, hone, hempty⟩ := overflows v hv
  obtain ⟨hrun, hfirst, hentry, htwin⟩ := reports v hv
  calc (State.overflowing v).periodOpened.recordOverflows
      = (State.overflowTaken v).raise (overflowFault 0) := State.recordOverflows_one hmay hone hempty
    _ = (overflowReport v).1.actOn overflowMerge := State.raise_acts hrun hfirst hentry rfl htwin

/-- After the boundary the first byte of the receive's buffer is a free value, whatever it was. -/
theorem State.overflowing_freeByte {v : Byte} (hv : v ∈ [1#8, 2#8]) :
    memByte (State.overflowing v).periodOpened.recordOverflows.mem 0x400000 = Config.freeByte 0 := by
  have receive : ∀ v ∈ [1#8, 2#8], (overflowReport v).1.recvsWith 0 = [lateRecv] ∧ (overflowReport v).1.freeCtr = 0 := by decide +kernel
  obtain ⟨hrecv, hctr⟩ := receive v hv
  have released : memByte ((overflowReport v).1.actOn overflowMerge).mem lateRecv.buf = Config.freeByte (overflowReport v).1.freeCtr :=
    State.actOn_firstByte (e := overflowMerge) (overflowReport_inv v).mem hrecv (by decide)
  rw [State.overflowing_acts hv, ← hctr]
  exact released

/-- O37 would keep that byte. -/
theorem State.overflowing_kept (hall : Obligations.PeriodBoundary) {v : Byte} (hv : v ∈ [1#8, 2#8]) :
    memByte (State.overflowing v).periodOpened.recordOverflows.mem 0x400000 = v := by
  unfold Obligations.PeriodBoundary at hall
  have ends : ∀ v ∈ [1#8, 2#8], (State.overflowing v).periodClosed.flt.stopAsked = false ∧
      memByte (State.overflowing v).periodEnd.mem 0x400000 = v := by decide +kernel
  obtain ⟨hstop, hbyte⟩ := ends v hv
  obtain ⟨-, hboundary, -⟩ := hall (State.overflowing v)
  obtain ⟨t, ht, -, -, -, -, hmem, -⟩ := hboundary rfl (Nat.le_succ 255) (Nat.le_of_ble_eq_true rfl)
  rw [← exec_periodBoundary_mem rfl hstop ht, hmem, hbyte]

/-- Refutes O37: a queue that has overflowed in the period is recorded at its boundary (R179), and in a running module the STOP report of the fault retires the receive of a context whose partner is the module itself, whose buffer becomes free values (R340); the statement says that memory is as at the end of the period. The free value is the same for two modules that differ in the first byte of that buffer alone, so one of them refutes the statement. -/
theorem not_periodBoundary : ¬ Obligations.PeriodBoundary := by
  intro hall
  have one : Config.freeByte 0 = 1#8 := (State.overflowing_freeByte (by decide)).symm.trans (State.overflowing_kept hall (by decide))
  have two : Config.freeByte 0 = 2#8 := (State.overflowing_freeByte (by decide)).symm.trans (State.overflowing_kept hall (by decide))
  exact absurd (one.symm.trans two) (by decide)

end Sys2Proof.Machine
end

section
/-! Seconds, the edges of the time outputs and the PTP port (R252 to R254, R477); O41. -/

namespace Sys2Proof.Machine

/-! ### SECOND_BOUNDARY (R252, R254) -/

/-- The edge of one time output: it rises where it is enabled and not held low (R254). -/
def State.edge (s : State) (i : Nat) : Nat := if s.thy.outLow = false ∧ (s.reg Reg.THY_OUT_CTRL).getLsbD i = true then 1 else 0

/-- Both edges of a second counted. -/
def State.withEdges (s : State) : State := s.modThy (fun t => { t with pps := t.pps + s.edge 0, edges10 := t.edges10 + s.edge 1 })

theorem State.secondEdges_eq (s : State) : s.secondEdges = s.withEdges := by
  cases hlow : s.thy.outLow with
  | true =>
    have none (i : Nat) : s.edge i = 0 := if_neg (by simp [hlow])
    rw [State.withEdges, none, none]
    exact if_pos hlow
  | false =>
    have one (i : Nat) : s.edge i = bnat ((s.reg Reg.THY_OUT_CTRL).getLsbD i) := by simp [State.edge, hlow, bnat]
    rw [State.withEdges, one, one]
    exact if_neg (by simp [hlow])

/-- The value set on the master takes effect. -/
theorem State.nextSecond_set {s : State} (hset : s.thy.todPending = true) (hm : s.thy.master = true) :
    s.nextSecond = { s with thy := { s.thy with
      todS := s.regN Reg.THY_TOD_SET_SL + 2 ^ 32 * (s.regN Reg.THY_TOD_SET_SH % 65536)
      todNs := s.regN Reg.THY_TOD_SET_NS
      todPending := false } } :=
  if_pos (by simp [hset, hm])

/-- Any other second counts one further. -/
theorem State.nextSecond_counts {s : State} (h : ¬ (s.thy.todPending = true ∧ s.thy.master = true)) :
    s.nextSecond = { s with thy := { s.thy with todS := (s.thy.todS + 1) % 2 ^ 48, todNs := 0, todPending := false } } :=
  if_neg (by simpa using h)

theorem exec_secondBoundary {s : State} (hp : s.powered = true) : exec .secondBoundary s = .next s.withEdges.nextSecond := by
  show execSecondBoundary s = _
  simp [execSecondBoundary, hp, State.secondEdges_eq]

theorem exec_secondBoundary_unpowered {s : State} (hp : s.powered = false) : exec .secondBoundary s = .next s := by
  show execSecondBoundary s = _
  simp [execSecondBoundary, hp]

/-! ### The PTP port (R253) -/

theorem exec_ptpMessage (m : PtpMsg) (s : State) : exec (.ptpMessage m) s = execPtpMessage m s := rfl

theorem exec_ptpSyncTimer (b : Bool) (s : State) : exec (.ptpSyncTimer b) s = execPtpSyncTimer b s := rfl

theorem State.ptpWhere_domain (s : State) : s.ptpWhere.1 = s.regN Reg.THY_PTP_CFG / 256 % 256 := rfl

theorem exec_ptpMessage_off {s : State} (hoff : s.ptpOn = false) (m : PtpMsg) : exec (.ptpMessage m) s = .next s := by
  simp [exec_ptpMessage, execPtpMessage, hoff]

theorem exec_ptpMessage_other (s : State) : exec (.ptpMessage .other) s = .next s := by simp [exec_ptpMessage, execPtpMessage]

theorem exec_ptpSyncTimer_off {s : State} (hoff : s.ptpOn = false) (b : Bool) :
    exec (.ptpSyncTimer b) s = .next { s with thy := { s.thy with ptp := 0 } } := by
  simp [exec_ptpSyncTimer, execPtpSyncTimer, hoff, State.modThy]

theorem exec_ptpMessage_ignored {s : State} {ds : PtpSet} {d : Nat} (h : ptpBetter ds s.ptpSet = false ∨ d ≠ s.regN Reg.THY_PTP_CFG / 256 % 256) :
    exec (.ptpMessage (.announce d ds)) s = .next s := by
  rcases h with h | h <;> simp [exec_ptpMessage, execPtpMessage, State.ptpWhere_domain, h]

section
variable {s : State} (hon : s.ptpOn = true)
include hon

/-- A better clock makes the port PASSIVE. -/
theorem exec_ptpMessage_better {ds : PtpSet} (hbetter : ptpBetter ds s.ptpSet = true) (hp : s.thy.ptp ≠ 3) :
    exec (.ptpMessage (.announce (s.regN Reg.THY_PTP_CFG / 256 % 256) ds)) s =
      .next (({ s with thy := { s.thy with ptp := 3 } } : State).bump Reg.THY_PTP_PASSIVE 1) := by
  simp [exec_ptpMessage, execPtpMessage, hon, State.ptpWhere_domain, hbetter, hp, State.modThy]

/-- A delay request to the master is answered. -/
theorem exec_ptpMessage_delayReq (x : Nat) (src : Nat) (hp : s.thy.ptp = 2) :
    exec (.ptpMessage (.delayReq (s.regN Reg.THY_PTP_CFG / 256 % 256) x src)) s =
      .next { s with thy := { s.thy with ptpLog := s.thy.ptpLog ++
        [.delayResp (s.regN Reg.THY_PTP_CFG / 256 % 256) s.ptpWhere.2 x src s.thy.todS s.thy.todNs] } } := by
  simp [exec_ptpMessage, execPtpMessage, hon, State.ptpWhere_domain, hp, State.ptpSend, State.modThy]

/-- A port that has heard no better clock sends as the master. -/
theorem exec_ptpSyncTimer_sends (b : Bool) (hp : s.thy.ptp ≠ 3) :
    exec (.ptpSyncTimer b) s = .next { s with thy := { s.thy with
      ptp := 2
      ptpLog := s.thy.ptpLog ++ (if b then [s.ptpAnnounce] else s.ptpSync) } } := by
  simp [exec_ptpSyncTimer, execPtpSyncTimer, hon, hp, State.ptpSend, State.modThy]

theorem exec_ptpSyncTimer_passive (b : Bool) (hp : s.thy.ptp = 3) : exec (.ptpSyncTimer b) s = .next s := by
  simp [exec_ptpSyncTimer, execPtpSyncTimer, hon, hp]

end

/-- Settles O41: one equation of `exec` for each outcome of a second, a message and the port's timer. -/
theorem timeOfDay : Obligations.TimeOfDay := by
  unfold Obligations.TimeOfDay
  intro s
  refine ⟨exec_secondBoundary_unpowered, fun hp => ⟨_, exec_secondBoundary hp, ?_⟩, fun m hoff => exec_ptpMessage_off hoff m, exec_ptpMessage_other s,
    fun b hoff => exec_ptpSyncTimer_off hoff b, fun hon => ⟨fun ds hs hbetter hp => ⟨_, exec_ptpMessage_better hon hbetter hp, rfl, ?_⟩,
      fun ds d h => exec_ptpMessage_ignored h, fun x src => exec_ptpMessage_delayReq hon x src,
      fun hp => ⟨exec_ptpSyncTimer_sends hon true hp, exec_ptpSyncTimer_sends hon false hp⟩, fun b => exec_ptpSyncTimer_passive hon b⟩⟩
  · by_cases h : s.thy.todPending = true ∧ s.thy.master = true
    · obtain ⟨hset, hm⟩ := h
      rw [State.nextSecond_set (s := s.withEdges) hset hm]
      exact ⟨rfl, fun hno => absurd ⟨hset, hm⟩ hno, fun _ _ => ⟨rfl, rfl⟩, rfl, rfl⟩
    · rw [State.nextSecond_counts (s := s.withEdges) h]
      exact ⟨rfl, fun _ => ⟨rfl, rfl⟩, fun hset hm => absurd ⟨hset, hm⟩ h, rfl, rfl⟩
  · exact State.reg_bump_same { s with thy := { s.thy with ptp := 3 } } Reg.THY_PTP_PASSIVE 1 hs (by decide)

end Sys2Proof.Machine
end

section
/-! The power and thermal controllers at the end of a window (R249, R466, R467, R476, R477); O44. -/

namespace Sys2Proof.Machine

/-! ### What a window records -/

/-- Windows in a row far over the grade's maximum at the lowest rate, this one included (R477). -/
def State.hotWindows (s : State) (w : Nat) : Nat := if s.thy.rate == 32 && 11 * s.dev.grade.maxWatts < 10 * w then s.pwr.overWindows + 1 else 0

/-- Whether a controller holds the module below the full rate (R476). -/
def State.throttled (s : State) : Bool := s.thy.powerRate < 64 || s.thy.thermalRate < 64

/-- The counter of throttled windows and the mean power in their registers. -/
def State.withInput (s : State) (w : Nat) : State :=
  (s.bump Reg.PWR_THROTTLED (bnat s.throttled)).setReg Reg.PWR_INPUT ((s.reg Reg.PWR_INPUT &&& 0xFFFF0000#32) ||| BitVec.ofNat 32 (w % 65536))

/-- The readings in the power stage. -/
def State.withReadings (s : State) (w : Nat) (temps : List Int) : State :=
  { s.withInput w with pwr := { (s.withInput w).pwr with
    watts := w, temp := s.hottest temps, overWindows := s.hotWindows w, overLimit := s.powerLimit < w, thermalHigh := s.throttlePoint < s.hottest temps
    windowAt := (s.withInput w).ctrlWindow } }

/-- The window recorded: a limit that the lowest rate does not keep shows in PWR_STATUS. -/
def State.measured (s : State) (w : Nat) (temps : List Int) : State :=
  if s.thy.rate == 32 && s.powerLimit < w then (s.withReadings w temps).setBits Reg.PWR_STATUS 4 else s.withReadings w temps

/-- Both controllers make their step. -/
def State.stepRates (s : State) (w : Nat) (temps : List Int) (t : Thyme) : Thyme :=
  { t with
    powerRate := stepRate t.powerRate (s.powerLimit < w) (100 * w < 95 * s.powerLimit)
    thermalRate := stepRate t.thermalRate (s.throttlePoint < s.hottest temps) (s.hottest temps < s.throttlePoint - 80) }

section
variable {α : Type} {f : State → α} (s : State) (w : Nat) (temps : List Int)

theorem RegFree.withInput (hf : RegFree f) : f (s.withInput w) = f s := (hf.setReg _ _ _).trans (hf.bump s _ _)

/-- Readings are registers and the power stage. -/
theorem RegFree.measured (hf : RegFree f) (hp : ∀ (s : State) x, f { s with pwr := x } = f s) : f (s.measured w temps) = f s :=
  (keeps_onlyIf (hf.setBits _ _ _)).trans ((hp _ _).trans (hf.withInput s w))

theorem State.measured_thy : (s.measured w temps).thy = s.thy := RegFree.measured (f := State.thy) s w temps (fun _ _ => rfl) fun _ _ => rfl

theorem State.measured_pwr : (s.measured w temps).pwr.tripped = s.pwr.tripped ∧ (s.measured w temps).pwr.windowAt = s.ctrlWindow := by
  have pwr : (s.measured w temps).pwr = (s.withReadings w temps).pwr := keeps_onlyIf (f := State.pwr) rfl
  have tripped : (s.withInput w).pwr.tripped = s.pwr.tripped := RegFree.withInput (f := fun s => s.pwr.tripped) s w fun _ _ => rfl
  have window : (s.withInput w).ctrlWindow = s.ctrlWindow := RegFree.withInput (f := State.ctrlWindow) s w fun _ _ => rfl
  rw [pwr]
  exact ⟨tripped, window⟩

/-- A throttled window is counted. -/
theorem State.measured_throttled {s : State} (hs : s.regsSorted) :
    (s.measured w temps).reg Reg.PWR_THROTTLED =
      if s.thy.powerRate < 64 ∨ s.thy.thermalRate < 64 then s.reg Reg.PWR_THROTTLED + 1 else s.reg Reg.PWR_THROTTLED := by
  have flagged : (s.measured w temps).reg Reg.PWR_THROTTLED = (s.withInput w).reg Reg.PWR_THROTTLED :=
    (keeps_onlyIf (f := fun s => s.reg Reg.PWR_THROTTLED) (State.reg_setBits_ne _ _ _ _ (by decide))).trans rfl
  have input : (s.withInput w).reg Reg.PWR_THROTTLED = (s.bump Reg.PWR_THROTTLED (bnat s.throttled)).reg Reg.PWR_THROTTLED :=
    State.reg_setReg_ne _ _ _ _ (by decide)
  have slow : s.throttled = decide (s.thy.powerRate < 64 ∨ s.thy.thermalRate < 64) := by simp [State.throttled]
  rw [flagged, input, slow]
  split
  next h => simpa [bnat, h] using s.reg_bump_same Reg.PWR_THROTTLED 1 hs (by decide)
  next h => simp [bnat, h, State.bump]

end

/-! ### CONTROLLER_WINDOW -/

/-- A trip of the power stage leaves reset, the host's memory and the reason (R446, R477). -/
theorem State.trip_eq (s : State) (k : Nat) : s.trip k = { State.resetOf s.dev s.pending with
    hostMem := s.hostMem
    freeCtr := s.freeCtr
    pwr := { Power.reset with tripped := true, trip := k } } := rfl

/-- What a trip keeps. -/
theorem State.measured_trip (s : State) (w : Nat) (temps : List Int) (k : Nat) : (s.measured w temps).trip k = s.trip k := by
  have kept := RegFree.measured (f := fun s => (s.dev, s.pending, s.hostMem, s.freeCtr)) s w temps (fun _ _ => rfl) fun _ _ => rfl
  simp only [Prod.mk.injEq] at kept
  obtain ⟨hdev, hpending, hhost, hctr⟩ := kept
  rw [State.trip_eq, State.trip_eq, hdev, hpending, hhost, hctr]

theorem exec_controllerWindow_none {s : State} {w : Nat} {temps : List Int}
    (h : s.powered = false ∨ s.host.bootDone = false ∨ s.ctrlWindow = s.pwr.windowAt) : exec (.controllerWindow w temps) s = .next s := by
  show execControllerWindow w temps s = _
  rcases h with h | h | h <;> simp [execControllerWindow, h]

/-- Both rates have made their step, and a changed request is sent (R249). -/
def State.controlled (s : State) (w : Nat) (temps : List Int) : State := (s.measured w temps).withRate (fun u => u.modThy (s.stepRates w temps))

/-- What the controllers do at the end of a window. -/
theorem exec_controllerWindow {s : State} (hp : s.powered = true) (hb : s.host.bootDone = true) (hw : s.ctrlWindow ≠ s.pwr.windowAt) (w : Nat)
    (temps : List Int) : exec (.controllerWindow w temps) s =
      if 1760 ≤ s.hottest temps then .next ((s.measured w temps).trip 1)
      else if 8 ≤ s.hotWindows w then .next ((s.measured w temps).trip 2)
      else .next (s.controlled w temps) :=
  if_neg (by simp [hp, hb, hw])

/-- The message of a changed request is a frame, or the master's own business (R249). -/
theorem SendFree.withRate {α : Type} {f : State → α} (hf : SendFree f) (s : State) (g : State → State) : f (s.withRate g) = f (g s) :=
  keeps_ite rfl (hf.thymeMsg _ _ _)

/-- What the controllers leave: T, the power stage, arrays and memory. -/
def State.windowView (s : State) : Nat × Power × List ArrayState × Cells := (s.thy.tick, s.pwr, s.arrays, s.mem)

theorem sendFree_windowView : SendFree State.windowView where
  regs _ _ := rfl
  ring _ _ := rfl
  thy _ _ _ _ _ ht := by simp [State.windowView, ht]

/-- Each controller steps its own rate; the rate in force stays. -/
theorem State.controlled_rates (s : State) (w : Nat) (temps : List Int) : (s.controlled w temps).rates =
    (s.thy.rate, stepRate s.thy.powerRate (s.powerLimit < w) (100 * w < 95 * s.powerLimit),
      stepRate s.thy.thermalRate (s.throttlePoint < s.hottest temps) (s.hottest temps < s.throttlePoint - 80)) := by
  have stepped : ((s.measured w temps).modThy (s.stepRates w temps)).thy = s.stepRates w temps s.thy :=
    congrArg (s.stepRates w temps) (s.measured_thy w temps)
  rw [State.controlled, State.rates_withRate, State.rates, stepped]
  rfl

theorem State.controlled_view (s : State) (w : Nat) (temps : List Int) :
    (s.controlled w temps).windowView = (s.thy.tick, (s.measured w temps).pwr, s.arrays, s.mem) := by
  have kept := RegFree.measured (f := fun s => (s.thy.tick, s.arrays, s.mem)) s w temps (fun _ _ => rfl) fun _ _ => rfl
  simp only [Prod.mk.injEq] at kept
  obtain ⟨htick, harrays, hmem⟩ := kept
  rw [State.controlled, sendFree_windowView.withRate, ← htick, ← harrays, ← hmem]
  rfl

/-- Fewer than eight windows in a row are far over the maximum. -/
theorem State.hotWindows_lt {s : State} {w : Nat} (h : s.pwr.overWindows < 7 ∨ s.thy.rate ≠ 32 ∨ 11 * s.dev.grade.maxWatts ≥ 10 * w) :
    ¬ 8 ≤ s.hotWindows w := by
  unfold State.hotWindows
  split
  next hot =>
    simp only [Bool.and_eq_true, beq_iff_eq, decide_eq_true_eq] at hot
    omega
  next => omega

/-- The eighth window at the lowest rate. -/
theorem State.hotWindows_ge {s : State} {w : Nat} (hrate : s.thy.rate = 32) (hover : 11 * s.dev.grade.maxWatts < 10 * w) (h : 7 ≤ s.pwr.overWindows) :
    8 ≤ s.hotWindows w := by
  simp only [State.hotWindows, hrate, hover, beq_self_eq_true, decide_true, Bool.and_self, if_true]
  omega

/-- Settles O44: a window trips the module or steps both rates; the message of a changed request leaves the rates, the power stage and the counter. -/
theorem controllerWindow : Obligations.ControllerWindow := by
  unfold Obligations.ControllerWindow
  refine fun w temps s => ⟨exec_controllerWindow_none, fun hs hp hb hw hcool hless => ⟨s.controlled w temps, ?_, ?_⟩, fun hp hb hw htrip => ?_⟩
  · rw [exec_controllerWindow hp hb hw, if_neg (Int.not_le.2 hcool), if_neg (State.hotWindows_lt hless)]
  · have rates := s.controlled_rates w temps
    have view := s.controlled_view w temps
    simp only [State.rates, State.windowView, stepRate, decide_eq_true_eq, Prod.mk.injEq] at rates view
    obtain ⟨hrate, hpower, hthermal⟩ := rates
    obtain ⟨htick, hpwr, harrays, hmem⟩ := view
    obtain ⟨htripped, hwindow⟩ := s.measured_pwr w temps
    have counted : (s.controlled w temps).reg Reg.PWR_THROTTLED = (s.measured w temps).reg Reg.PWR_THROTTLED :=
      (reportRead_reg (by decide)).withRate _ _
    exact ⟨hpower, hthermal, hrate, htick, (congrArg Power.tripped hpwr).trans htripped, (congrArg Power.windowAt hpwr).trans hwindow, harrays, hmem,
      counted.trans (State.measured_throttled w temps hs)⟩
  · rw [exec_controllerWindow hp hb hw, s.measured_trip, s.measured_trip]
    by_cases hot : 1760 ≤ s.hottest temps
    · rw [if_pos hot, if_pos hot]
      rfl
    · obtain ⟨hrate, hover, hwindows⟩ := htrip.resolve_left hot
      rw [if_neg hot, if_neg hot, if_pos (State.hotWindows_ge hrate hover hwindows)]
      rfl

end Sys2Proof.Machine
end

section
/-! A frame that the link layer of an up port takes (R313, R317, R320): beside the effect of the frame itself only the ring engine changes. -/

namespace Sys2Proof.Machine

/-- `f` reads nothing of the ring engine. -/
def RingFree {α : Type} (f : State → α) : Prop := ∀ (s : State) x, f { s with ring := x } = f s

/-- The module without its ring engine. -/
def State.offRing (s : State) : State := { s with ring := Ring.reset }

theorem State.eq_of_offRing {s t : State} (h : t.offRing = s.offRing) : t = { s with ring := t.ring } := by
  have put := congrArg (fun u : State => { u with ring := t.ring }) h
  exact put

theorem State.onlyRing_of_offRing {s t : State} (h : t.offRing = s.offRing) : s.onlyRing t := by
  have hregs : t.offRing.regs = s.offRing.regs := congrArg State.regs h
  have hregs : t.regs = s.regs := hregs
  unfold State.onlyRing
  rw [hregs]
  exact State.eq_of_offRing h

/-! ### The port after a frame -/

/-- Acknowledgement, sequence and waiting frames of a port that takes a frame (R320). -/
def Port.receives (q : Port) (ack : Nat) : Port :=
  ({ q.acked ack with rxSeq := (q.rxSeq + 1) % 65536, rxSinceAck := q.rxSinceAck + 1 } : Port).pumped

theorem Port.put_st (q : Port) (x : OutFrame) : (q.put x).st = q.st := by
  unfold Port.put
  extract_lets w i
  exact (apply_ite Port.st _ _ _).trans (ite_self _)

theorem Port.pump_st (n : Nat) (q : Port) : (q.pump n).st = q.st := by
  induction n generalizing q with
  | zero => rfl
  | succ n ih =>
    unfold Port.pump
    split
    · rfl
    · split
      · exact (ih _).trans (q.put_st _)
      · rfl

theorem Port.receives_st (q : Port) (ack : Nat) : (q.receives ack).st = q.st := by
  refine (Port.pump_st _ _).trans ?_
  unfold Port.acked
  extract_lets n
  exact (apply_ite Port.st _ _ _).trans (ite_self _)

theorem State.modPort_port_st {g : Port → Port} (hg : ∀ q, (g q).st = q.st) (s : State) (p k : Nat) : ((s.modPort p g).port k).st = (s.port k).st := by
  simp only [State.port, State.modPort, List.getD_eq_getElem?_getD, List.getElem?_modify]
  split
  · cases s.ring.ports[k]? <;> simp [hg]
  · simp

theorem State.sendFrame_port_st (s : State) (p k : Nat) (x : OutFrame) : ((s.sendFrame p x).port k).st = (s.port k).st := by
  refine State.modPort_port_st (fun q => ?_) s p k
  split
  · rfl
  · exact Port.pump_st _ _

/-! ### The module after a frame has passed the link layer -/

/-- The frame is heard, and its port has taken it. -/
def State.taken (s : State) (x : Frame) : State := (s.hears x).modPort x.port (fun q => q.receives x.ackSeq)

/-- A due acknowledgement has gone out. -/
def State.received (s : State) (x : Frame) : State :=
  if 32 ≤ ((s.taken x).port x.port).rxSinceAck then (s.taken x).sendAck x.port false else s.taken x

section
variable {α : Type} {f : State → α} {s : State} {x : Frame}

theorem RingFree.received (hf : RingFree f) (s : State) (x : Frame) : f (s.received x) = f s :=
  have heard : f (s.hears x) = f s := keeps_ite rfl (hf s _)
  (keeps_onlyIf (hf _ _)).trans ((hf _ _).trans heard)

theorem ringFree_offRing : RingFree State.offRing := fun _ _ => rfl

theorem State.received_thy : (s.received x).thy = s.thy := RingFree.received (f := State.thy) (fun _ _ => rfl) s x

/-- Where the module and its neighbours stand. -/
def State.place (s : State) : Nat × Nat × Nat := (s.ring.addr, s.ring.xn, s.ring.yn)

theorem State.received_place (s : State) (x : Frame) : (s.received x).place = s.place :=
  have heard : (s.hears x).place = s.place := keeps_ite (f := State.place) rfl rfl
  have acked : ((s.taken x).sendAck x.port false).place = (s.taken x).place := rfl
  (keeps_onlyIf acked).trans heard

theorem State.received_addr : (s.received x).ring.addr = s.ring.addr := congrArg Prod.fst (s.received_place x)

theorem State.received_port_st (k : Nat) : ((s.received x).port k).st = (s.port k).st :=
  have heard : ((s.hears x).port k).st = (s.port k).st := keeps_ite (f := fun s => (s.port k).st) rfl rfl
  (keeps_onlyIf (f := fun s => (s.port k).st) (State.sendFrame_port_st _ _ _ _)).trans
    ((State.modPort_port_st (fun q => q.receives_st _) _ _ _).trans heard)

/-- A frame that the link takes has its effect on the module that has received it, and gives back its credit. -/
theorem RingFree.linkIn (hf : RingFree f) (h : s.linkTakes x) (typ : Nat) (k : State → State) : f (s.linkIn typ x k) = f (k (s.received x)) := by
  obtain ⟨hport, hup, hcrc, hseq⟩ := h
  have takes : s.linkIn typ x k =
      if (k (s.received x)).holdsCredit x (s.received x) then k (s.received x) else (k (s.received x)).giveCredit x.port (typeClass typ) x.vc 1 := by
    simp only [State.linkIn, hup, hcrc, hseq, Nat.not_le.2 hport, decide_false, bne_self_eq_false, Bool.or_self, Bool.not_true, Bool.false_eq_true, if_false]
    rfl
  rw [takes]
  exact keeps_ite rfl (hf _ _)

/-- One that is for this module reaches it. -/
theorem RingFree.arrives (hf : RingFree f) (h : s.linkTakes x) (hme : s.forMe x) (typ : Nat) (k : State → State) :
    f (s.arrives typ x k) = f (k (s.received x)) := by
  have mine : (x.port == 4 || x.dst == (s.received x).ring.addr) = true := by
    rw [State.received_addr]
    simpa [State.forMe] using hme
  exact (hf.linkIn h typ _).trans (congrArg f (if_pos mine))

/-- A frame without an effect of its own. -/
theorem State.onlyRing_linkIn (h : s.linkTakes x) {typ : Nat} {k : State → State} (hk : k (s.received x) = s.received x) :
    s.onlyRing (s.linkIn typ x k) :=
  State.onlyRing_of_offRing ((ringFree_offRing.linkIn h typ k).trans ((congrArg State.offRing hk).trans (ringFree_offRing.received s x)))

theorem State.onlyRing_arrives (h : s.linkTakes x) (hme : s.forMe x) {typ : Nat} {k : State → State} (hk : k (s.received x) = s.received x) :
    s.onlyRing (s.arrives typ x k) :=
  State.onlyRing_of_offRing ((ringFree_offRing.arrives h hme typ k).trans ((congrArg State.offRing hk).trans (ringFree_offRing.received s x)))

end

end Sys2Proof.Machine
end

section
/-! HOLD_ON, HOLD_OFF and RATE at the master, and its announcements at a member (R245, R249, R250); O40. -/

namespace Sys2Proof.Machine

/-! ### The master's duties change the time system and send frames -/

/-- `f` reads neither the time system nor the ring engine. -/
def OfficeFree {α : Type} (f : State → α) : Prop := ∀ (s : State) x y, f { s with thy := x, ring := y } = f s

namespace OfficeFree

variable {α : Type} {f : State → α}

theorem ringFree (hf : OfficeFree f) : RingFree f := fun s x => hf s s.thy x

theorem modThy (hf : OfficeFree f) (s : State) (g : Thyme → Thyme) : f (s.modThy g) = f s := hf s _ s.ring

theorem sendPhase (hf : OfficeFree f) (s : State) (t : Nat) (l : List Nat) (i : PhaseInfo) : f (s.sendPhase t l i) = f s :=
  foldl_keeps (fun s _ => hf s s.thy _) _ _

/-- A changed Thyme block that is announced. -/
theorem announceThy (hf : OfficeFree f) (s : State) (g : Thyme → Thyme) : f (s.modThy g).announce = f s := (hf.sendPhase _ _ _ _).trans (hf.modThy s g)

theorem masterHoldOn (hf : OfficeFree f) (s : State) (a : Nat) : f (s.masterHoldOn a) = f s := by
  refine Eq.trans ?_ (hf.modThy s fun t => { t with levels := if t.levels.contains a then t.levels else t.levels ++ [a] })
  unfold State.masterHoldOn
  dsimp only
  split
  · exact hf.announceThy _ _
  · split
    · rfl
    · exact keeps_ite (hf.announceThy _ _) (hf.announceThy _ _)

theorem masterHoldOff (hf : OfficeFree f) (s : State) (a : Nat) : f (s.masterHoldOff a) = f s := by
  refine Eq.trans ?_ (hf.modThy s fun t => { t with levels := t.levels.filter (· != a) })
  unfold State.masterHoldOff
  dsimp only
  split
  · exact keeps_ite rfl (hf.announceThy _ _)
  · rfl

theorem masterRequest (hf : OfficeFree f) (s : State) (a r : Nat) : f (s.masterRequest a r) = f s :=
  Eq.trans (keeps_ite (hf.announceThy _ _) (keeps_onlyIf (hf.announceThy _ _)))
    (hf.modThy s fun t => { t with
      reqRates := (a, r) :: s.thy.reqRates.filter (fun e => e.1 != a)
      target := ((a, r) :: s.thy.reqRates.filter (fun e => e.1 != a)).foldl (fun m e => min m e.2) 64 })

end OfficeFree

/-- The module without its time system and its ring engine. -/
def State.offOffice (s : State) : State := { s with thy := Thyme.reset, ring := Ring.reset }

theorem officeFree_offOffice : OfficeFree State.offOffice := fun _ _ _ => rfl

theorem State.eq_of_offOffice {s t : State} (h : t.offOffice = s.offOffice) : t = { s with thy := t.thy, ring := t.ring } := by
  have put := congrArg (fun u : State => { u with thy := t.thy, ring := t.ring }) h
  exact put

/-! ### What they leave in the time system -/

/-- A HOLD_ON that finds no hold announces one from the lead on. -/
theorem State.masterHoldOn_thy {s : State} (hnone : s.thy.holds = []) (a : Nat) : (s.masterHoldOn a).thy = { s.thy with
    levels := if s.thy.levels.contains a then s.thy.levels else s.thy.levels ++ [a]
    holds := [⟨s.thy.period + s.thy.lead, none, a⟩] } := by
  simp [State.masterHoldOn, State.announce_thy, State.modThy, hnone]

/-- The last HOLD_OFF ends the hold that is announced without an end. -/
theorem State.masterHoldOff_thy {s : State} {a : Nat} {k : PhaseHold} {ks : List PhaseHold} (hlevels : ∀ m ∈ s.thy.levels, m = a)
    (hholds : s.thy.holds = ks ++ [k]) (hopen : k.stop = none) : (s.masterHoldOff a).thy = { s.thy with
      levels := []
      holds := ks ++ [{ k with stop := some (max (k.start + 1) (s.thy.period + s.thy.lead)) }] } := by
  have off : s.thy.levels.filter (· != a) = [] := List.filter_eq_nil_iff.2 fun m hm => by simp [hlevels m hm]
  simp [State.masterHoldOff, State.announce_thy, State.modThy, off, hholds, hopen]

/-- What a rate step leaves: requests, target, rate and holds. -/
def State.requests (s : State) : List (Nat × Nat) × Nat × Nat × List PhaseHold := (s.thy.reqRates, s.thy.target, s.thy.rate, s.thy.holds)

theorem State.requests_announce (s : State) : s.announce.requests = s.requests := by rw [State.requests, State.announce_thy, State.requests]

theorem State.requests_masterRequest (s : State) (a r : Nat) :
    (s.masterRequest a r).requests = ((a, r) :: s.thy.reqRates.filter (fun e => e.1 != a),
      ((a, r) :: s.thy.reqRates.filter (fun e => e.1 != a)).foldl (fun m e => min m e.2) 64, s.thy.rate, s.thy.holds) :=
  keeps_ite (f := State.requests) (State.requests_announce _) (keeps_ite (f := State.requests) (State.requests_announce _) rfl)

/-! ### HOLD_ON, HOLD_OFF and RATE -/

theorem exec_holdOn {s : State} {x : Frame} : exec (.holdOn x) s = .next (s.arrives 7 x fun u => if u.thy.master then u.masterHoldOn x.src else u) := rfl

theorem exec_holdOff {s : State} {x : Frame} : exec (.holdOff x) s = .next (s.arrives 7 x fun u => if u.thy.master then u.masterHoldOff x.src else u) := rfl

theorem exec_rateMessage {s : State} {x : Frame} :
    exec (.rateMessage x) s = .next (s.arrives 7 x fun u => if u.thy.master then u.masterRequest x.src x.aux.toNat else u) := rfl

section
variable {s : State} {x : Frame} (h : s.linkTakes x) (hme : s.forMe x) (g : State → State)
include h hme

/-- At a member the three messages change the link alone. -/
theorem State.onlyRing_member (hm : s.thy.master = false) : s.onlyRing (s.arrives 7 x fun u => if u.thy.master then g u else u) :=
  State.onlyRing_arrives h hme (if_neg (by simp [State.received_thy, hm]))

/-- At the master they have their effect on the module that has received them. -/
theorem RingFree.atMaster {α : Type} {f : State → α} (hf : RingFree f) (hm : s.thy.master = true) :
    f (s.arrives 7 x fun u => if u.thy.master then g u else u) = f (g (s.received x)) :=
  (hf.arrives h hme 7 _).trans (congrArg f (if_pos (by rw [State.received_thy, hm])))

theorem State.officeOnly_atMaster {t : State} (ht : t = s.arrives 7 x fun u => if u.thy.master then g u else u) (hm : s.thy.master = true)
    (hg : (g (s.received x)).offOffice = (s.received x).offOffice) : t = { s with thy := t.thy, ring := t.ring } := by
  refine State.eq_of_offOffice ?_
  calc t.offOffice = (g (s.received x)).offOffice := (congrArg State.offOffice ht).trans (officeFree_offOffice.ringFree.atMaster h hme g hm)
    _ = (s.received x).offOffice := hg
    _ = s.offOffice := officeFree_offOffice.ringFree.received s x

end

/-! ### HOLD_MESSAGE -/

theorem exec_holdMessage {s : State} {x : Frame} {i : PhaseInfo} : exec (.holdMessage x i) s = .next (s.linkIn 7 x fun u => u.announced x.port i) := rfl

/-- A new hold of an announcement is taken without an end. -/
theorem State.absorbHold_new {s : State} {i : PhaseInfo} (hhold : i.hold = 1 ∨ i.hold = 2) (hnew : ∀ k ∈ s.thy.holds, k.start ≠ i.holdStart) :
    s.absorbHold i = (s.used 1).modThy (fun t => { t with holds := t.holds ++ [⟨i.holdStart, none, s.freeWord.toNat % 65536⟩] }) := by
  have new : s.thy.holds.any (fun k => k.start == i.holdStart) = false := by simpa using hnew
  rcases hhold with hhold | hhold <;> simp [State.absorbHold, hhold, new]

theorem State.absorbHold_none {s : State} {i : PhaseInfo} (hnone : i.hold = 0) : s.absorbHold i = s := by simp [State.absorbHold, hnone]

/-- A new rate step is taken. -/
theorem State.absorbRate_new {s : State} {i : PhaseInfo} (hdue : s.thy.period < i.rateAt) (hnew : (i.rateNext, i.rateAt) ∉ s.thy.rateNext) :
    s.absorbRate i = s.modThy (fun t => { t with rateNext := t.rateNext ++ [(i.rateNext, i.rateAt)] }) :=
  if_neg (by simp [State.period, Nat.not_le.2 hdue, hnew])

/-- An announcement that brings a member something new is taken and sent on. -/
theorem State.announced_new {s : State} {i : PhaseInfo} (hm : s.thy.master = false)
    (hnew : (s.absorb i).thy.holds ≠ s.thy.holds ∨ (s.absorb i).thy.rateNext ≠ s.thy.rateNext) (p : Nat) :
    s.announced p i = (s.absorb i).sendPhase 7 ([0, 1, 2, 3].filter (· != p)) i := by
  have new : ((s.absorb i).thy.holds == s.thy.holds && (s.absorb i).thy.rateNext == s.thy.rateNext) = false := by
    rcases hnew with hnew | hnew <;> simp [hnew]
  simp [State.announced, hm, new]

theorem RingFree.sendPhase {α : Type} {f : State → α} (hf : RingFree f) (s : State) (t : Nat) (l : List Nat) (i : PhaseInfo) : f (s.sendPhase t l i) = f s :=
  foldl_keeps (fun s _ => hf s _) _ _

/-- What a hold message with a new hold leaves. -/
def State.holdView (s : State) : List PhaseHold × Nat × Nat × List ArrayState × Faults × RegState × Cells :=
  (s.thy.holds, s.thy.tick, s.thy.rate, s.arrays, s.flt, s.regs, s.mem)

theorem State.announced_hold {s : State} {i : PhaseInfo} (hm : s.thy.master = false) (hhold : i.hold = 1 ∨ i.hold = 2)
    (hnew : ∀ k ∈ s.thy.holds, k.start ≠ i.holdStart) (p : Nat) : (s.announced p i).holdView =
      (s.thy.holds ++ [⟨i.holdStart, none, s.freeWord.toNat % 65536⟩], s.thy.tick, s.thy.rate, s.arrays, s.flt, s.regs, s.mem) := by
  have absorbed : (s.absorb i).holdView =
      (s.thy.holds ++ [⟨i.holdStart, none, s.freeWord.toNat % 65536⟩], s.thy.tick, s.thy.rate, s.arrays, s.flt, s.regs, s.mem) := by
    rw [State.absorb, State.absorbHold_new hhold hnew]
    exact keeps_ite (f := State.holdView) rfl rfl
  have longer : (s.absorb i).thy.holds ≠ s.thy.holds := by
    rw [show (s.absorb i).thy.holds = _ from congrArg Prod.fst absorbed]
    exact fun h => by simpa using congrArg List.length h
  rw [State.announced_new hm (.inl longer)]
  exact (RingFree.sendPhase (f := State.holdView) (fun _ _ => rfl) _ _ _ _).trans absorbed

theorem State.announced_rate {s : State} {i : PhaseInfo} (hm : s.thy.master = false) (hnone : i.hold = 0) (hdue : s.thy.period < i.rateAt)
    (hnew : (i.rateNext, i.rateAt) ∉ s.thy.rateNext) (p : Nat) : (s.announced p i).offRing =
      ({ s with thy := { s.thy with rateNext := s.thy.rateNext ++ [(i.rateNext, i.rateAt)] } } : State).offRing := by
  have absorbed : s.absorb i = { s with thy := { s.thy with rateNext := s.thy.rateNext ++ [(i.rateNext, i.rateAt)] } } := by
    rw [State.absorb, State.absorbHold_none hnone, State.absorbRate_new hdue hnew]
    rfl
  have longer : (s.absorb i).thy.rateNext ≠ s.thy.rateNext := by
    rw [absorbed]
    exact fun h => by simpa using congrArg List.length h
  rw [State.announced_new hm (.inr longer), absorbed]
  exact ringFree_offRing.sendPhase _ _ _ _

/-- Settles O40: each message has its effect on the module that has received the frame, beside the link; the master's effects are equations of the time system. -/
theorem masterMessages : Obligations.MasterMessages := by
  unfold Obligations.MasterMessages
  refine ⟨fun x s h hme hm c hc => ?_, fun x s h hme hm hnone => ⟨_, exec_holdOn, State.officeOnly_atMaster h hme _ rfl hm (officeFree_offOffice.masterHoldOn _ _), ?_⟩,
    fun x k ks s h hme hm hlevels hholds hopen => ⟨_, exec_holdOff, State.officeOnly_atMaster h hme _ rfl hm (officeFree_offOffice.masterHoldOff _ _), ?_⟩,
    fun x s h hme hm => ⟨_, exec_rateMessage, State.officeOnly_atMaster h hme _ rfl hm (officeFree_offOffice.masterRequest _ _ _), ?_⟩,
    fun x i s h => ⟨fun hm => ⟨_, exec_holdMessage, State.onlyRing_linkIn h (if_pos (by rw [State.received_thy, hm]))⟩, fun hm hhold hnew => ?_,
      fun hm hnone hdue hnew => ?_⟩⟩
  · simp only [List.mem_cons, List.not_mem_nil, or_false] at hc
    rcases hc with rfl | rfl | rfl
    · exact ⟨_, exec_holdOn, State.onlyRing_member h hme _ hm⟩
    · exact ⟨_, exec_holdOff, State.onlyRing_member h hme _ hm⟩
    · exact ⟨_, exec_rateMessage, State.onlyRing_member h hme _ hm⟩
  · have thy := (RingFree.atMaster (f := State.thy) h hme (·.masterHoldOn x.src) (fun _ _ => rfl) hm).trans
      (State.masterHoldOn_thy (s := s.received x) (by rw [State.received_thy, hnone]) x.src)
    rw [thy, State.received_thy]
    refine ⟨rfl, ?_, rfl, rfl⟩
    show x.src ∈ if s.thy.levels.contains x.src then s.thy.levels else s.thy.levels ++ [x.src]
    split
    next hin => simpa using hin
    next => simp
  · have thy := (RingFree.atMaster (f := State.thy) h hme (·.masterHoldOff x.src) (fun _ _ => rfl) hm).trans
      (State.masterHoldOff_thy (s := s.received x) (by rwa [State.received_thy]) (by rw [State.received_thy, hholds]) hopen)
    rw [thy, State.received_thy]
    exact ⟨rfl, rfl, rfl⟩
  · have requests := (RingFree.atMaster (f := State.requests) h hme (·.masterRequest x.src x.aux.toNat) (fun _ _ => rfl) hm).trans
      (State.requests_masterRequest (s.received x) x.src x.aux.toNat)
    rw [State.received_thy] at requests
    simp only [State.requests, Prod.mk.injEq] at requests
    obtain ⟨hreq, htarget, hrate, hholds⟩ := requests
    exact ⟨hreq, htarget.trans (by rw [hreq]), hrate, hholds⟩
  · have view := (RingFree.linkIn (f := State.holdView) (fun _ _ => rfl) h 7 fun u => u.announced x.port i).trans
      (State.announced_hold (s := s.received x) (by rw [State.received_thy, hm]) hhold (by rwa [State.received_thy]) x.port)
    have kept : (s.received x).holdView = s.holdView := RingFree.received (f := State.holdView) (fun _ _ => rfl) s x
    simp only [State.holdView, Prod.mk.injEq] at view kept
    obtain ⟨hholds, htick, hrate, harrays, hflt, hregs, hmem⟩ := view
    obtain ⟨hholds', htick', hrate', harrays', hflt', hregs', hmem'⟩ := kept
    exact ⟨_, _, exec_holdMessage, hholds' ▸ hholds, htick.trans htick', hrate.trans hrate', harrays.trans harrays', hflt.trans hflt', hregs.trans hregs',
      hmem.trans hmem'⟩
  · have effect := (ringFree_offRing.linkIn h 7 fun u => u.announced x.port i).trans
      (State.announced_rate (s := s.received x) (by rw [State.received_thy, hm]) hnone (by rwa [State.received_thy]) (by rwa [State.received_thy]) x.port)
    have kept := RingFree.received (f := fun s => ({ s with thy := { s.thy with rateNext := s.thy.rateNext ++ [(i.rateNext, i.rateAt)] } } : State).offRing)
      (fun _ _ => rfl) s x
    exact ⟨_, exec_holdMessage, State.eq_of_offRing (effect.trans kept)⟩

end Sys2Proof.Machine
end

section
/-! What the master's duties, reports and faults leave of the time system (R245, R249, R340, R427): everything but hold levels, holds, requested rates and rate steps. -/

namespace Sys2Proof.Machine

/-- The time system beside hold levels, holds, requested rates and rate steps. -/
def Thyme.aside (t : Thyme) : Thyme :=
  { t with holds := [], levels := [], reqRates := [], target := 0, rateNext := [], lastDown := none, lastUp := none, level := false, quiet := false }

/-- That part of the module's time system. -/
def State.aside (s : State) : Thyme := s.thy.aside

theorem eventFree_aside : EventFree State.aside := .of_unread fun _ _ _ _ => rfl

theorem State.aside_announceThy (s : State) (g : Thyme → Thyme) (hg : (g s.thy).aside = s.thy.aside) : (s.modThy g).announce.aside = s.aside := by
  rw [State.aside, State.announce_thy]
  exact hg

theorem State.aside_masterHoldOn (s : State) (a : Nat) : (s.masterHoldOn a).aside = s.aside := by
  unfold State.masterHoldOn
  dsimp only
  split
  · exact State.aside_announceThy _ _ rfl
  · split
    · rfl
    · exact keeps_ite (State.aside_announceThy _ _ rfl) (State.aside_announceThy _ _ rfl)

theorem State.aside_masterHoldOff (s : State) (a : Nat) : (s.masterHoldOff a).aside = s.aside := by
  unfold State.masterHoldOff
  dsimp only
  split
  · exact keeps_ite rfl (State.aside_announceThy _ _ rfl)
  · rfl

theorem State.aside_retarget (s : State) (l : List (Nat × Nat)) : (s.retarget l).aside = s.aside :=
  keeps_ite (State.aside_announceThy _ _ rfl) (keeps_ite (State.aside_announceThy _ _ rfl) rfl)

theorem State.aside_sendTo (s : State) (m : Bool) (d : Nat) (x : OutFrame) : (s.sendTo m d x).aside = s.aside := by
  rw [State.aside, State.sendTo_thy, State.aside]

theorem State.aside_thymeMsg (s : State) (k v : Nat) : (s.thymeMsg k v).aside = s.aside :=
  keeps_ite (keeps_ite (s.aside_masterHoldOff _) (keeps_ite (s.aside_masterHoldOn _) (s.aside_retarget _))) (s.aside_sendTo _ _ _)

theorem State.aside_holdOff (s : State) : s.holdOff.aside = s.aside := by
  unfold State.holdOff
  extract_lets t
  exact keeps_onlyIf (f := State.aside) (s.aside_thymeMsg 0 0)

theorem State.aside_releaseHeld (s : State) (r : Recv) : (s.releaseHeld r).aside = s.aside :=
  foldl_keeps (f := State.aside) (g := fun s (h : HeldFrame) => s.giveCredit h.port 3 h.vc 1) (fun _ _ => rfl) _ s

theorem State.aside_flood (s : State) (p : Nat) (x : OutFrame) : (s.flood p x).aside = s.aside :=
  foldl_keeps (f := State.aside) (g := fun s p => s.sendFrame p x) (fun _ _ => rfl) _ s

theorem State.aside_releasePartner (s : State) (a : Nat) : (s.releasePartner a).aside = s.aside := by
  unfold State.releasePartner
  extract_lets rs t keep
  have given : t.aside = s.aside := by
    refine foldl_keeps (fun s r => ?_) rs s
    exact State.aside_releaseHeld _ r
  exact given

theorem State.aside_sendRebinds (s : State) (a : Nat) : (s.sendRebinds a).aside = s.aside := by
  unfold State.sendRebinds
  split
  · rfl
  · refine foldl_keeps (fun s e => ?_) _ s
    split
    · rfl
    · exact s.aside_sendTo _ _ _

theorem State.aside_twinLost (s : State) : s.twinLost.aside = s.aside :=
  keeps_onlyIf ((State.aside_sendRebinds _ _).trans (eventFree_aside.postEvent _ _ _ _ _))

theorem State.aside_actOn (s : State) (e : Merge) : (s.actOn e).aside = s.aside := by
  unfold State.actOn
  extract_lets x s₁ s₂ s₃
  have stops : s₂.aside = s.aside := (State.aside_holdOff _).trans (s₁.aside_releasePartner _)
  have dropped : s₃.aside = s.aside := Eq.trans (keeps_onlyIf (s₂.aside_masterHoldOff _)) stops
  exact keeps_ite dropped ((eventFree_aside.writeEntry _ _).trans ((eventFree_aside.countEvent _).trans dropped))

theorem State.aside_enterBeacon (s : State) (a c m k p : Nat) : (s.enterBeacon a c m k p).1.aside = s.aside := by
  have noted (s : State) : (s.noteEcc a c).aside = s.aside := keeps_onlyIf rfl
  have counted (s : State) (r : Nat) : (s.bump r 1).aside = s.aside := RegFree.bump (f := State.aside) (fun _ _ => rfl) s r 1
  unfold State.enterBeacon
  split
  · extract_lets bm gained y x s₁ s₂
    exact (counted s₂ Reg.RNG_BEACON_MERGED).trans (keeps_onlyIf (noted s₁))
  · split
    · exact (State.aside_flood _ _ _).trans (counted s Reg.RNG_BEACON_UNMERGED)
    · exact noted _

theorem State.aside_entryActs (x : State × Option Merge) : (State.entryActs x).aside = x.1.aside := by
  unfold State.entryActs
  split
  · rfl
  · exact keeps_onlyIf (State.aside_actOn _ _)

theorem State.aside_enterReport (s : State) (a c : Nat) : (s.enterReport a c).1.aside = s.aside := by
  unfold State.enterReport
  extract_lets t
  have flagged : t.aside = s.aside := keeps_ite rfl (keeps_onlyIf rfl)
  split
  · exact (RegFree.bump (f := State.aside) (fun _ _ => rfl) t Reg.RNG_FILTERED 1).trans flagged
  · exact (State.aside_enterBeacon _ _ _ _ _ _).trans flagged

theorem State.aside_tellsLoss (s : State) (a c : Nat) : (s.tellsLoss a c).aside = s.aside :=
  keeps_onlyIf (keeps_ite (f := State.aside) (State.aside_retarget _ _) rfl)

theorem State.aside_settleEntry (x : State × Option Merge) : (State.settleEntry x).aside = x.1.aside := by
  unfold State.settleEntry
  refine Eq.trans ?_ (State.aside_entryActs x)
  extract_lets t
  split
  · rfl
  · refine keeps_ite rfl ((State.aside_twinLost _).trans (keeps_ite rfl ?_))
    exact (State.aside_entryActs _).trans ((State.aside_enterReport _ _ _).trans (t.aside_tellsLoss _ _))

theorem State.aside_report (s : State) (a c : Nat) : (s.report a c).aside = s.aside :=
  (State.aside_settleEntry _).trans ((State.aside_enterReport _ _ _).trans (s.aside_tellsLoss _ _))

/-- A fault without an ECC error behind it. -/
theorem State.aside_raise (s : State) (r : FaultRec) (hecc : s.eccEffects r = s) : (s.raise r).aside = s.aside := by
  have recorded : (s.recordFault r).aside = s.aside := (eventFree_aside.recordFault (fun _ _ => rfl) s r).trans (by rw [hecc])
  exact Eq.trans (keeps_onlyIf ((State.aside_report _ _ _).trans rfl)) recorded

/-! ### PHASE_LOSS (R240) -/

/-- The module has lost the phase. -/
def State.markLost (s : State) : State :=
  (s.modThy (fun t => { t with phaseLost := true, lostIn := t.period, holdover := true })).setBits Reg.THY_STATUS 0x20

theorem State.losePhase_eq {s : State} (h : s.thy.phaseLost = false) : s.losePhase = s.markLost.raiseCode 0x61 0x0A := if_neg (by simp [h])

theorem State.losePhase_unacked {s : State} (h : s.thy.phaseLost = false) : s.losePhase.flt.unacked = true := by
  rw [State.losePhase_eq h]
  exact State.raise_unacked _ _

theorem State.losePhase_aside {s : State} (h : s.thy.phaseLost = false) : s.losePhase.aside = s.markLost.aside := by
  rw [State.losePhase_eq h]
  exact State.aside_raise _ _ rfl

theorem State.losePhase_status {s : State} (h : s.thy.phaseLost = false) (hs : s.regsSorted) : (s.losePhase.reg Reg.THY_STATUS).getLsbD 5 = true := by
  have kept : s.losePhase.reg Reg.THY_STATUS = s.markLost.reg Reg.THY_STATUS := by
    rw [State.losePhase_eq h]
    exact (reportRead_reg (by decide)).raise _ _ rfl
  have set : s.markLost.reg Reg.THY_STATUS = s.reg Reg.THY_STATUS ||| BitVec.ofNat 32 0x20 :=
    State.reg_setBits_same (s.modThy fun t => { t with phaseLost := true, lostIn := t.period, holdover := true }) _ _ hs
  rw [kept, set, BitVec.getLsbD_or]
  simp

/-- What is observed of a module that has lost the phase: it has, its counters and the time outputs. -/
def State.lossView (s : State) : Bool × Nat × Nat × Bool := (s.thy.phaseLost, s.thy.period, s.thy.tick, s.thy.outLow)

theorem State.losePhase_view {s : State} (h : s.thy.phaseLost = false) : s.losePhase.lossView = (true, s.thy.period, s.thy.tick, s.thy.outLow) :=
  congrArg (fun t : Thyme => (t.phaseLost, t.period, t.tick, t.outLow)) (State.losePhase_aside h)

end Sys2Proof.Machine
end

section
/-! Phase frames, elections and the loss of the master (R235, R238 to R241, R254, R396, R441), up to obligation O39. -/

namespace Sys2Proof.Machine

variable {α : Type} {f : State → α}

/-! ### What a phase frame changes beside the counters -/

/-- `f` reads neither the ring engine nor the free values, and of the time system neither parent port, holdover, holds, rate steps nor the time of day. -/
def PhaseFree (f : State → α) : Prop := ∀ (s : State) r n p h hs rs a b, f { s with
  ring := r
  freeCtr := n
  thy := { s.thy with parent := p, holdover := h, holds := hs, rateNext := rs, todS := a, todNs := b } } = f s

/-- Holds and rate steps of a frame take free values, and change the lists of both alone. -/
theorem State.absorb_keeps (hf : ∀ (s : State) n hs rs, f { s with freeCtr := n, thy := { s.thy with holds := hs, rateNext := rs } } = f s)
    (s : State) (i : PhaseInfo) : f (s.absorb i) = f s := by
  have hold : f (s.absorbHold i) = f s := keeps_ite rfl (keeps_ite (hf s s.freeCtr _ s.thy.rateNext) (hf s _ _ s.thy.rateNext))
  exact Eq.trans (keeps_ite rfl (hf (s.absorbHold i) (s.absorbHold i).freeCtr (s.absorbHold i).thy.holds _)) hold

namespace PhaseFree

theorem ringFree (hf : PhaseFree f) : RingFree f := fun s r => hf s r s.freeCtr s.thy.parent s.thy.holdover s.thy.holds s.thy.rateNext s.thy.todS s.thy.todNs

theorem absorb (hf : PhaseFree f) (s : State) (i : PhaseInfo) : f (s.absorb i) = f s :=
  State.absorb_keeps (fun s n hs rs => hf s s.ring n s.thy.parent s.thy.holdover hs rs s.thy.todS s.thy.todNs) s i

theorem settleParent (hf : PhaseFree f) (s : State) : f s.settleParent = f s :=
  keeps_ite rfl (hf s s.ring s.freeCtr _ _ s.thy.holds s.thy.rateNext s.thy.todS s.thy.todNs)

theorem reparent (hf : PhaseFree f) (s : State) : f s.reparent = f s :=
  keeps_ite rfl (hf s s.ring s.freeCtr _ s.thy.holdover s.thy.holds s.thy.rateNext s.thy.todS s.thy.todNs)

end PhaseFree

/-! ### A frame is taken (R239, R240, R252) -/

/-- The port carries phase again, and no frame is missing. -/
def State.hearsPhase (s : State) (port : Nat) : State :=
  s.modThy (fun t => { t with carry := t.carry.set port (some t.period), sinceFrame := 0, outLow := false })

/-- The frame with its holds, before the time of day. -/
def State.phaseHeard (s : State) (port : Nat) (i : PhaseInfo) : State := (s.hearsPhase port).settleParent.absorb i

theorem State.takePhase_master {s : State} (hm : s.thy.master = true) (port : Nat) (i : PhaseInfo) : s.takePhase port i = s := if_pos hm

theorem State.takePhase_member {s : State} (hm : s.thy.master = false) (port : Nat) (i : PhaseInfo) : s.takePhase port i =
    if port == (s.phaseHeard port i).thy.parent then
      ((s.phaseHeard port i).modThy (fun t => { t with todS := i.todS, todNs := i.todNs })).sendPhase 6 ([0, 1, 2, 3].filter (· != port)) i
    else s.phaseHeard port i := if_neg (by simp [hm])

theorem PhaseFree.phaseHeard (hf : PhaseFree f) (s : State) (port : Nat) (i : PhaseInfo) : f (s.phaseHeard port i) = f (s.hearsPhase port) :=
  (hf.absorb _ _).trans (hf.settleParent _)

theorem PhaseFree.takePhase (hf : PhaseFree f) {s : State} (hm : s.thy.master = false) (port : Nat) (i : PhaseInfo) :
    f (s.takePhase port i) = f (s.hearsPhase port) := by
  rw [State.takePhase_member hm]
  refine keeps_ite ?_ (hf.phaseHeard s port i)
  refine (hf.ringFree.sendPhase _ _ _ _).trans (Eq.trans ?_ (hf.phaseHeard s port i))
  exact hf (s.phaseHeard port i) _ _ _ _ _ _ i.todS i.todNs

/-- The parent port's frames bring the time of day. -/
theorem State.takePhase_tod {s : State} (hm : s.thy.master = false) (hup : s.parentUp = true) (i : PhaseInfo) :
    (s.takePhase s.thy.parent i).thy.todS = i.todS ∧ (s.takePhase s.thy.parent i).thy.todNs = i.todNs := by
  have up : (s.hearsPhase s.thy.parent).parentUp = true := hup
  have settled : (s.hearsPhase s.thy.parent).settleParent.thy.parent = s.thy.parent :=
    keeps_ite (f := fun s => s.thy.parent) rfl (if_pos up)
  have parent : (s.phaseHeard s.thy.parent i).thy.parent = s.thy.parent :=
    (State.absorb_keeps (f := fun s => s.thy.parent) (fun _ _ _ _ => rfl) _ i).trans settled
  have taken := State.takePhase_member hm s.thy.parent i
  rw [if_pos (by simp [parent])] at taken
  have tod : (s.takePhase s.thy.parent i).thy = { (s.phaseHeard s.thy.parent i).thy with todS := i.todS, todNs := i.todNs } := by
    rw [taken]
    exact RingFree.sendPhase (f := State.thy) (fun _ _ => rfl) _ _ _ _
  rw [tod]
  exact ⟨rfl, rfl⟩

/-! ### Elections (R238, R241) -/

/-- What is observed of a member: the master it follows, its counters, whether it has lost the phase or joins, and the rest of the module. -/
def State.memberView (s : State) : (Bool × Nat × Nat) × (Nat × Nat × Nat) × (Bool × Bool) × List ArrayState × Cells × HostIf :=
  ((s.thy.master, s.thy.masterAddr, s.thy.sinceMaster), (s.thy.period, s.thy.tick, s.thy.rate), (s.thy.phaseLost, s.thy.adopt), s.arrays, s.mem, s.host)

/-- A member that follows the master at an address. -/
def State.following (s : State) (a : Nat) : (Bool × Nat × Nat) × (Nat × Nat × Nat) × (Bool × Bool) × List ArrayState × Cells × HostIf :=
  ((false, a, 0), s.memberView.2)

theorem phaseFree_memberView : PhaseFree State.memberView := fun _ _ _ _ _ _ _ _ _ => rfl

theorem State.followMaster_view (s : State) (k : Nat × Nat) (joining : Bool) : (s.followMaster k joining).memberView = s.following k.2 := rfl

theorem State.countMasterChange_view (s : State) : s.countMasterChange.memberView = s.memberView :=
  ((EventFree.of_unread (f := State.memberView) fun _ _ _ _ => rfl).event _ _ _).trans
    (RegFree.bump (f := State.memberView) (fun _ _ => rfl) s Reg.THY_MASTER_CHANGE 1)

/-- The master that a member follows already. -/
theorem State.elect_same {s : State} {k : Nat × Nat} (hm : s.thy.master = false) (hk : s.masterKey = k) :
    s.elect k false = s.modThy (fun t => { t with sinceMaster := 0 }) := by
  simp [State.elect, hm, hk]

/-- A module that does not win, and one that is neither joining nor the master, follows the master that is named. -/
theorem State.elect_member {s : State} {k : Nat × Nat} {joining : Bool} (h : if joining then keyWins s.key k = false else s.thy.master = false) :
    (s.elect k joining).memberView = s.following k.2 := by
  have loses : ¬ (joining && keyWins s.key k) = true := by cases joining <;> simp_all
  have office : ¬ (s.thy.master && !joining && keyWins s.key k) = true := by cases joining <;> simp_all
  rw [State.elect, if_neg loses, if_neg office]
  split
  next same =>
    simp only [Bool.and_eq_true, beq_iff_eq, Bool.not_eq_true'] at same
    obtain ⟨hkey, hm⟩ := same
    have addr : s.thy.masterAddr = k.2 := congrArg Prod.snd hkey
    show ((s.thy.master, s.thy.masterAddr, 0), s.memberView.2) = s.following k.2
    rw [hm, addr, State.following]
  next =>
    have followed : (s.followMaster k joining).reparent.memberView = s.following k.2 :=
      (phaseFree_memberView.reparent _).trans (s.followMaster_view k joining)
    exact keeps_ite ((State.countMasterChange_view _).trans followed) followed

/-- A module that joins and wins becomes the master. -/
theorem State.elect_wins {s : State} {k : Nat × Nat} (hk : keyWins s.key k = true) : s.elect k true = s.becomeMaster := if_pos hk

/-- After the election the frame of that master is taken. -/
theorem State.elect_takePhase_view {s : State} {k : Nat × Nat} {joining : Bool} (h : if joining then keyWins s.key k = false else s.thy.master = false)
    (port : Nat) (i : PhaseInfo) : ((s.elect k joining).takePhase port i).memberView = s.following k.2 := by
  have elected := State.elect_member h
  exact (phaseFree_memberView.takePhase (congrArg (·.1.1) elected) port i).trans elected

theorem State.elect_takePhase_sinceFrame {s : State} {k : Nat × Nat} {joining : Bool}
    (h : if joining then keyWins s.key k = false else s.thy.master = false) (port : Nat) (i : PhaseInfo) :
    ((s.elect k joining).takePhase port i).thy.sinceFrame = 0 :=
  PhaseFree.takePhase (f := fun s => s.thy.sinceFrame) (fun _ _ _ _ _ _ _ _ _ => rfl) (congrArg (·.1.1) (State.elect_member h)) port i

/-! ### The effect of a phase frame -/

section
variable {s : State} {i : PhaseInfo} {port : Nat}

theorem State.phaseDiffers_false (hp : i.period = s.thy.period) (ht : i.tick = s.thy.tick) (hr : i.rate = s.thy.rate) : s.phaseDiffers i = false := by
  simp [State.phaseDiffers, hp, ht, hr]

theorem State.phaseDiffers_true (h : ¬ (i.period = s.thy.period ∧ i.tick = s.thy.tick ∧ i.rate = s.thy.rate)) : s.phaseDiffers i = true := by
  by_contra hno
  simp only [State.phaseDiffers, Bool.or_eq_true, bne_iff_ne, ne_eq, not_or, not_not] at hno
  obtain ⟨⟨hp, ht⟩, hr⟩ := hno
  exact h ⟨hp, ht, hr⟩

/-- The master's own frame comes back to it. -/
theorem State.phaseArrives_own (hm : s.thy.master = true) (ha : i.masterAddr = s.ring.addr) (hadopt : s.thy.adopt = false) :
    s.phaseArrives port i = if s.phaseDiffers i then s.losePhase else s := by
  simp [State.phaseArrives, hm, ha, hadopt]

/-- The frame is not one of this module's own. -/
def State.foreign (s : State) (i : PhaseInfo) : Prop := i.masterAddr ≠ s.ring.addr ∨ s.thy.master = false

theorem State.foreign.test (h : s.foreign i) : (i.masterAddr == s.ring.addr && s.thy.master) = false := by
  rcases h with h | h <;> simp [h]

/-- A member that is neither joining nor lost takes a frame that agrees. -/
theorem State.phaseArrives_agrees (hf : s.foreign i) (hadopt : s.thy.adopt = false) (hlost : s.thy.phaseLost = false) (hd : s.phaseDiffers i = false) :
    s.phaseArrives port i = (s.elect (i.masterPrio, i.masterAddr) false).takePhase port i := by
  simp [State.phaseArrives, hf.test, hadopt, hlost, hd]

/-- One that differs is PHASE_LOSS, and is only sent on. -/
theorem RingFree.phaseArrives_differs (hr : RingFree f) (hf : s.foreign i) (hadopt : s.thy.adopt = false) (hlost : s.thy.phaseLost = false)
    (hd : s.phaseDiffers i = true) : f (s.phaseArrives port i) = f s.losePhase := by
  have effect : s.phaseArrives port i =
      if port == s.losePhase.thy.parent then s.losePhase.sendPhase 6 ([0, 1, 2, 3].filter (· != port)) i else s.losePhase := by
    simp [State.phaseArrives, hf.test, hadopt, hlost, hd]
  rw [effect]
  exact keeps_onlyIf (hr.sendPhase _ _ _ _)

/-- A frame from another port than the nearest to the master changes nothing in a module that joins. -/
theorem State.phaseArrives_elsewhere (hf : s.foreign i) (hadopt : s.thy.adopt = true) (hp : port ≠ s.bestParent i.masterAddr) :
    s.phaseArrives port i = s := by
  simp [State.phaseArrives, hf.test, hadopt, hp]

theorem State.phaseArrives_joins (hf : s.foreign i) (hadopt : s.thy.adopt = true) (hp : port = s.bestParent i.masterAddr) :
    s.phaseArrives port i = (((s.adopt i).elect (i.masterPrio, i.masterAddr) true).takePhase port i).settleJoin := by
  simp [State.phaseArrives, hf.test, hadopt, hp]

theorem State.phaseArrives_clears (hf : s.foreign i) (hadopt : s.thy.adopt = false) (hlost : s.thy.phaseLost = true) (hwait : s.pendingIs 0x71 = true)
    (hp : port = s.bestParent i.masterAddr) :
    s.phaseArrives port i = (((s.adopt i).elect (i.masterPrio, i.masterAddr) false).takePhase port i).settleClear := by
  simp [State.phaseArrives, hf.test, hadopt, hlost, hwait, hp]

end

/-! ### The ring's phase is adopted (R235, R396, R441) -/

/-- The counters of a frame in place of the module's own. -/
def State.withPhase (s : State) (i : PhaseInfo) : State :=
  s.modThy (fun t => { t with
    period := i.period, tick := i.tick, rate := i.rate, holds := [], rateNext := [], levels := [], lastDown := none, lastUp := none
    adopt := false, phaseLost := false })

theorem State.adopt_view (s : State) (i : PhaseInfo) : (s.adopt i).memberView = (s.withPhase i).memberView := phaseFree_memberView.absorb _ _

theorem State.adopt_key (s : State) (i : PhaseInfo) : (s.adopt i).key = s.key :=
  State.absorb_keeps (f := State.key) (fun _ _ _ _ => rfl) (s.withPhase i) i

theorem State.adopt_addr (s : State) (i : PhaseInfo) : (s.adopt i).ring.addr = s.ring.addr := congrArg Prod.snd (s.adopt_key i)

/-- The pending command has ended: neither the time system nor the acknowledge flag reads its reply. -/
theorem holdFree_thy : HoldFree State.thy where
  toEventFree := .of_unread fun _ _ _ _ => rfl
  host _ _ _ := rfl
  cmds s := RegFree.bump (f := State.thy) (fun _ _ => rfl) s _ _

theorem holdFree_unacked : HoldFree (fun s => s.flt.unacked) where
  toEventFree := reportFree_unacked.toEventFree
  host _ _ _ := rfl
  cmds s := RegFree.bump (f := fun s => s.flt.unacked) (fun _ _ => rfl) s _ _

theorem State.finalReply_pendingCmd (s : State) (st ft d : Nat) (l : List Byte) : (s.finalReply st ft d l).host.pendingCmd = none := by
  unfold State.finalReply
  split
  next h => exact h
  next => rw [State.bump_host]

theorem State.settleJoin_thy (s : State) : s.settleJoin.thy = s.thy := keeps_onlyIf (holdFree_thy.finalReply s _ _ _ _)

theorem State.settleJoin_pendingIs (s : State) : s.settleJoin.pendingIs 0x40 = false := by
  unfold State.settleJoin
  split
  · simp [State.pendingIs, State.finalReply_pendingCmd]
  next h => simpa using h

theorem State.clearFaults_thy (s : State) (a : Nat) : (s.clearFaults a).thy = s.thy :=
  keeps_ite (f := State.thy) (keeps_ite (f := State.thy) rfl rfl) (keeps_ite (f := State.thy) rfl rfl)

theorem State.clearFaults_unacked (s : State) (a : Nat) : (s.clearFaults a).flt.unacked = false :=
  keeps_ite (f := fun s => s.flt.unacked) (keeps_ite (f := fun s => s.flt.unacked) rfl rfl) (keeps_ite (f := fun s => s.flt.unacked) rfl rfl)

/-- A FAULT_CLEAR that waits goes on. -/
theorem State.settleClear_eq {s : State} {c : PendingCmd} (hc : s.host.pendingCmd = some c) :
    s.settleClear = (s.clearFaults (c.arg % 4)).finalReply Status.done 0 0 [] := by
  unfold State.settleClear
  rw [hc]

/-! ### PHASE_FRAME -/

theorem exec_phaseFrame {s : State} {x : Frame} {i : PhaseInfo} : exec (.phaseFrame x i) s = .next (s.linkIn 6 x fun u => u.phaseArrives x.port i) := rfl

theorem State.hopsBy_eq {s t : State} (hplace : t.place = s.place) (p dst : Nat) : t.hopsBy p dst = s.hopsBy p dst := by
  simp only [State.place, Prod.mk.injEq] at hplace
  obtain ⟨haddr, hxn, hyn⟩ := hplace
  simp only [State.hopsBy, haddr, hxn, hyn]

/-- The port nearest to a master goes by the place of the module and the ports that are up. -/
theorem State.bestParent_eq {s t : State} (hplace : t.place = s.place) (hst : ∀ k, (t.port k).st = (s.port k).st) (m : Nat) :
    t.bestParent m = s.bestParent m := by
  simp only [State.bestParent, State.upPorts, State.nearest, hst, State.hopsBy_eq hplace]

section
variable {s : State} {x : Frame}

theorem State.received_bestParent (m : Nat) : (s.received x).bestParent m = s.bestParent m :=
  State.bestParent_eq (s.received_place x) (fun _ => State.received_port_st _) m

theorem State.received_key : (s.received x).key = s.key :=
  Prod.ext (RingFree.received (f := State.prio) (fun _ _ => rfl) s x) State.received_addr

theorem State.received_parentUp : (s.received x).parentUp = s.parentUp := by
  simp only [State.parentUp, State.received_thy, State.received_port_st]

theorem State.received_foreign {i : PhaseInfo} (h : s.foreign i) : (s.received x).foreign i := by
  rwa [State.foreign, State.received_addr, State.received_thy]

theorem State.received_following (a : Nat) : (s.received x).following a = s.following a :=
  RingFree.received (f := fun s => s.following a) (fun _ _ => rfl) s x

end

end Sys2Proof.Machine
end

section
/-! Obligation O39: phase frames of the link layer, holdover and the takeover by the backup (R235, R238 to R241, R254, R396, R441). -/

namespace Sys2Proof.Machine

section
variable {α : Type} {f : State → α} {s : State} {x : Frame} {i : PhaseInfo}

/-- A phase frame has its effect on the module that has received it. -/
theorem RingFree.phaseFrame (hf : RingFree f) (h : s.linkTakes x) :
    f (s.linkIn 6 x fun u => u.phaseArrives x.port i) = f ((s.received x).phaseArrives x.port i) := hf.linkIn h 6 _

theorem ringFree_lossView : RingFree State.lossView := fun _ _ => rfl

theorem State.received_phaseDiffers : (s.received x).phaseDiffers i = s.phaseDiffers i := by
  simp only [State.phaseDiffers, State.received_thy]

theorem State.received_host : (s.received x).host = s.host := RingFree.received (f := State.host) (fun _ _ => rfl) s x

theorem State.received_regsSorted (hs : s.regsSorted) : (s.received x).regsSorted :=
  Eq.mpr (RingFree.received (f := State.regsSorted) (fun _ _ => rfl) s x) hs

/-! ### A frame at a member that is neither joining nor lost -/

/-- One that agrees: the member follows the master that the frame names. -/
theorem phaseFrame_agrees (h : s.linkTakes x) (hadopt : s.thy.adopt = false) (hlost : s.thy.phaseLost = false) (hm : s.thy.master = false)
    (hd : s.phaseDiffers i = false) : (s.linkIn 6 x fun u => u.phaseArrives x.port i).memberView = s.following i.masterAddr ∧
      (s.linkIn 6 x fun u => u.phaseArrives x.port i).thy.sinceFrame = 0 := by
  have member : (s.received x).thy.master = false := by rw [State.received_thy, hm]
  have effect : (s.received x).phaseArrives x.port i = ((s.received x).elect (i.masterPrio, i.masterAddr) false).takePhase x.port i :=
    State.phaseArrives_agrees (State.received_foreign (.inr hm)) (by rw [State.received_thy, hadopt]) (by rw [State.received_thy, hlost])
      (State.received_phaseDiffers.trans hd)
  refine ⟨?_, ?_⟩
  · rw [RingFree.phaseFrame (f := State.memberView) (fun _ _ => rfl) h, effect, State.elect_takePhase_view (by exact member), State.received_following]
  · rw [RingFree.phaseFrame (f := fun s => s.thy.sinceFrame) (fun _ _ => rfl) h, effect]
    exact State.elect_takePhase_sinceFrame (by exact member) _ _

/-- What the frames of the parent port bring, faults and registers. -/
def State.todView (s : State) : (Nat × Nat) × Faults × RegState := ((s.thy.todS, s.thy.todNs), s.flt, s.regs)

theorem State.takePhase_todView (hm : s.thy.master = false) (hup : s.parentUp = true) :
    (s.takePhase s.thy.parent i).todView = ((i.todS, i.todNs), s.flt, s.regs) := by
  obtain ⟨secs, nanos⟩ := State.takePhase_tod hm hup i
  have flt := PhaseFree.takePhase (f := State.flt) (fun _ _ _ _ _ _ _ _ _ => rfl) hm s.thy.parent i
  have regs := PhaseFree.takePhase (f := State.regs) (fun _ _ _ _ _ _ _ _ _ => rfl) hm s.thy.parent i
  exact Prod.ext (Prod.ext secs nanos) (Prod.ext flt regs)

/-- A frame of the master that the member follows already, from its parent port, brings the time of day and changes neither registers nor faults. -/
theorem State.phaseArrives_parent (hadopt : s.thy.adopt = false) (hlost : s.thy.phaseLost = false) (hm : s.thy.master = false)
    (hd : s.phaseDiffers i = false) (hk : s.masterKey = (i.masterPrio, i.masterAddr)) (hup : s.parentUp = true) :
    (s.phaseArrives s.thy.parent i).todView = ((i.todS, i.todNs), s.flt, s.regs) := by
  rw [State.phaseArrives_agrees (.inr hm) hadopt hlost hd, State.elect_same hm hk]
  exact State.takePhase_todView (s := s.modThy fun t => { t with sinceMaster := 0 }) hm hup

theorem phaseFrame_parent (h : s.linkTakes x) (hadopt : s.thy.adopt = false) (hlost : s.thy.phaseLost = false) (hm : s.thy.master = false)
    (hd : s.phaseDiffers i = false) (hk : s.masterKey = (i.masterPrio, i.masterAddr)) (hup : s.parentUp = true) (hp : x.port = s.thy.parent) :
    (s.linkIn 6 x fun u => u.phaseArrives x.port i).todView = ((i.todS, i.todNs), s.flt, s.regs) := by
  have port : x.port = (s.received x).thy.parent := by rw [State.received_thy, hp]
  have key : (s.received x).masterKey = (i.masterPrio, i.masterAddr) := by rw [State.masterKey, State.received_thy]; exact hk
  have flt : (s.received x).flt = s.flt := RingFree.received (f := State.flt) (fun _ _ => rfl) s x
  have regs : (s.received x).regs = s.regs := RingFree.received (f := State.regs) (fun _ _ => rfl) s x
  rw [RingFree.phaseFrame (f := State.todView) (fun _ _ => rfl) h, port, State.phaseArrives_parent (by rw [State.received_thy, hadopt])
    (by rw [State.received_thy, hlost]) (by rw [State.received_thy, hm]) (State.received_phaseDiffers.trans hd) key (State.received_parentUp.trans hup), flt, regs]

/-- What the loss of the phase leaves, after a frame that differs. -/
theorem phaseFrame_differs (h : s.linkTakes x) (hadopt : s.thy.adopt = false) (hlost : s.thy.phaseLost = false) (hm : s.thy.master = false)
    (hd : s.phaseDiffers i = true) (hf : RingFree f) : f (s.linkIn 6 x fun u => u.phaseArrives x.port i) = f (s.received x).losePhase :=
  (hf.phaseFrame h).trans (hf.phaseArrives_differs (State.received_foreign (.inr hm)) (by rw [State.received_thy, hadopt])
    (by rw [State.received_thy, hlost]) (State.received_phaseDiffers.trans hd))

/-- The module that has received the frame loses the phase. -/
theorem State.losePhase_received (hlost : s.thy.phaseLost = false) :
    (s.received x).losePhase.lossView = (true, s.thy.period, s.thy.tick, s.thy.outLow) ∧ (s.received x).losePhase.flt.unacked = true := by
  have lost : (s.received x).thy.phaseLost = false := by rw [State.received_thy, hlost]
  refine ⟨?_, State.losePhase_unacked lost⟩
  rw [State.losePhase_view lost, State.received_thy]

/-! ### The master's own frame -/

theorem phaseFrame_own (h : s.linkTakes x) (hadopt : s.thy.adopt = false) (hm : s.thy.master = true) (ha : i.masterAddr = s.ring.addr) (hf : RingFree f) :
    f (s.linkIn 6 x fun u => u.phaseArrives x.port i) = f (if s.phaseDiffers i then (s.received x).losePhase else s.received x) := by
  rw [hf.phaseFrame h, State.phaseArrives_own (by rw [State.received_thy, hm]) (by rw [State.received_addr, ha]) (by rw [State.received_thy, hadopt]),
    State.received_phaseDiffers]

/-! ### A module that joins -/

section
variable (h : s.linkTakes x) (hadopt : s.thy.adopt = true) (hforeign : s.foreign i)
include h hadopt hforeign

theorem State.onlyRing_phaseFrame_elsewhere (hp : x.port ≠ s.bestParent i.masterAddr) : s.onlyRing (s.linkIn 6 x fun u => u.phaseArrives x.port i) :=
  State.onlyRing_linkIn h (State.phaseArrives_elsewhere (State.received_foreign hforeign) (by rw [State.received_thy, hadopt])
    (by rwa [State.received_bestParent]))

/-- The module that joins adopts the frame's phase, holds its election and has joined. -/
theorem phaseFrame_joins (hp : x.port = s.bestParent i.masterAddr) (hf : RingFree f) : f (s.linkIn 6 x fun u => u.phaseArrives x.port i) =
    f (((((s.received x).adopt i).elect (i.masterPrio, i.masterAddr) true).takePhase x.port i).settleJoin) := by
  rw [hf.phaseFrame h, State.phaseArrives_joins (State.received_foreign hforeign) (by rw [State.received_thy, hadopt]) (by rwa [State.received_bestParent])]

theorem phaseFrame_joined (hp : x.port = s.bestParent i.masterAddr) : (s.linkIn 6 x fun u => u.phaseArrives x.port i).pendingIs 0x40 = false :=
  (phaseFrame_joins (f := fun s => s.pendingIs 0x40) h hadopt hforeign hp fun _ _ => rfl).trans (State.settleJoin_pendingIs _)

/-- One that loses follows the master of the ring, in the ring's phase. -/
theorem phaseFrame_joins_member (hp : x.port = s.bestParent i.masterAddr) (hk : keyWins s.key (i.masterPrio, i.masterAddr) = false) :
    let t := (s.linkIn 6 x fun u => u.phaseArrives x.port i).thy
    ((t.master, t.masterAddr), (t.period, t.tick, t.rate), t.phaseLost, t.adopt) =
      ((false, i.masterAddr), (i.period, i.tick, i.rate), false, false) := by
  intro t
  have key : ((s.received x).adopt i).key = s.key := ((s.received x).adopt_key i).trans State.received_key
  have loses : keyWins ((s.received x).adopt i).key (i.masterPrio, i.masterAddr) = false := by rw [key, hk]
  have view := State.elect_takePhase_view (joining := true) (by exact loses) x.port i
  have joined : t = ((((s.received x).adopt i).elect (i.masterPrio, i.masterAddr) true).takePhase x.port i).thy :=
    (phaseFrame_joins (f := State.thy) h hadopt hforeign hp fun _ _ => rfl).trans (State.settleJoin_thy _)
  have adopted : (((s.received x).adopt i).following i.masterAddr) = ((s.received x).withPhase i).following i.masterAddr :=
    congrArg (fun v => ((false, i.masterAddr, 0), v.2)) (State.adopt_view _ i)
  have whole := view.trans adopted
  rw [joined]
  exact congrArg (fun v => ((v.1.1, v.1.2.1), v.2.1, v.2.2.1)) whole

/-- One that wins is the master of the ring, in the ring's phase. -/
theorem phaseFrame_joins_master (hp : x.port = s.bestParent i.masterAddr) (hk : keyWins s.key (i.masterPrio, i.masterAddr) = true) :
    let t := (s.linkIn 6 x fun u => u.phaseArrives x.port i).thy
    (t.master, t.masterAddr, t.period, t.tick) = (true, s.ring.addr, i.period, i.tick) := by
  intro t
  have key : ((s.received x).adopt i).key = s.key := ((s.received x).adopt_key i).trans State.received_key
  have wins : keyWins ((s.received x).adopt i).key (i.masterPrio, i.masterAddr) = true := by rw [key, hk]
  have office := State.becomeMaster_view ((s.received x).adopt i)
  have joined : t = ((s.received x).adopt i).becomeMaster.thy := by
    rw [show t = _ from (phaseFrame_joins (f := State.thy) h hadopt hforeign hp fun _ _ => rfl).trans (State.settleJoin_thy _), State.elect_wins wins,
      State.takePhase_master (congrArg (·.2.1) office)]
  have addr : ((s.received x).adopt i).ring.addr = s.ring.addr := (State.adopt_addr _ i).trans State.received_addr
  have adopted : ((s.received x).adopt i).memberView.2.1 = ((s.received x).withPhase i).memberView.2.1 := congrArg (·.2.1) (State.adopt_view _ i)
  rw [joined]
  refine (congrArg Prod.snd office).trans ?_
  rw [addr]
  exact congrArg (fun v : Nat × Nat × Nat => (true, s.ring.addr, v.1, v.2.1)) adopted

end

/-! ### A FAULT_CLEAR that waits -/

/-- The phase is the ring's again, and the FAULT_CLEAR has ended. -/
theorem phaseFrame_clears {c : PendingCmd} (h : s.linkTakes x) (hadopt : s.thy.adopt = false) (hm : s.thy.master = false) (hlost : s.thy.phaseLost = true)
    (hc : s.host.pendingCmd = some c) (hop : c.opcode = 0x71) (hp : x.port = s.bestParent i.masterAddr) :
    let t := s.linkIn 6 x fun u => u.phaseArrives x.port i
    ((t.thy.period, t.thy.tick, t.thy.phaseLost), t.flt.unacked, t.host.pendingCmd) = ((i.period, i.tick, false), false, none) := by
  intro t
  have member : ((s.received x).adopt i).thy.master = false := by
    have adopted := congrArg (·.1.1) (State.adopt_view (s.received x) i)
    exact adopted.trans (show (s.received x).thy.master = false by rw [State.received_thy, hm])
  have view := (State.elect_takePhase_view (k := (i.masterPrio, i.masterAddr)) (joining := false) (by exact member) x.port i).trans
    (congrArg (fun v => ((false, i.masterAddr, 0), v.2)) (State.adopt_view (s.received x) i))
  have waits : (s.received x).pendingIs 0x71 = true := by simp [State.pendingIs, State.received_host, hc, hop]
  have pending : ((((s.received x).adopt i).elect (i.masterPrio, i.masterAddr) false).takePhase x.port i).host.pendingCmd = some c := by
    refine (congrArg (fun v => v.2.2.2.2.2.pendingCmd) view).trans ?_
    exact (congrArg HostIf.pendingCmd State.received_host).trans hc
  have effect : (s.received x).phaseArrives x.port i = _ :=
    (State.phaseArrives_clears (State.received_foreign (.inr hm)) (by rw [State.received_thy, hadopt]) (by rw [State.received_thy, hlost]) waits
      (by rwa [State.received_bestParent])).trans (State.settleClear_eq pending)
  have passed : ((t.thy.period, t.thy.tick, t.thy.phaseLost), t.flt.unacked, t.host.pendingCmd) = _ :=
    RingFree.phaseFrame (f := fun s => ((s.thy.period, s.thy.tick, s.thy.phaseLost), s.flt.unacked, s.host.pendingCmd)) (fun _ _ => rfl) h
  rw [passed, effect]
  have thy := (holdFree_thy.finalReply (((((s.received x).adopt i).elect (i.masterPrio, i.masterAddr) false).takePhase x.port i).clearFaults (c.arg % 4))
    Status.done 0 0 []).trans (State.clearFaults_thy _ _)
  refine Prod.ext ?_ (Prod.ext ?_ (State.finalReply_pendingCmd _ _ _ _ _))
  · exact (congrArg (fun t : Thyme => (t.period, t.tick, t.phaseLost)) thy).trans (congrArg (fun v => (v.2.1.1, v.2.1.2.1, v.2.2.1.1)) view)
  · exact (holdFree_unacked.finalReply _ _ _ _ _).trans (State.clearFaults_unacked _ _)

end

/-! ### Holdover (R240, R254, R441) -/

/-- The time outputs go low when frames have been missing for THY_HOLDOVER_MAX periods. -/
def State.holdsOver (s : State) : State :=
  s.modThy (fun t => { t with outLow := t.outLow || decide (s.regN Reg.THY_HOLDOVER_MAX ≤ s.thy.sinceFrame) })

section
variable {s : State}

theorem exec_holdoverTimeout_master (hm : s.thy.master = true) : exec .holdoverTimeout s = .next s := by
  show execHoldoverTimeout s = _
  simp [execHoldoverTimeout, hm]

theorem exec_holdoverTimeout_past (hm : s.thy.master = false) (hlost : s.thy.phaseLost = false) (hpast : s.regN Reg.THY_HOLDOVER_MAX ≤ s.thy.sinceFrame) :
    exec .holdoverTimeout s = .next s.holdsOver.losePhase := by
  show execHoldoverTimeout s = _
  simp [execHoldoverTimeout, State.holdsOver, hm, hlost, hpast]

theorem exec_holdoverTimeout_refuses {c : PendingCmd} (hm : s.thy.master = false) (hlost : s.thy.phaseLost = true) (hc : s.host.pendingCmd = some c)
    (hop : c.opcode = 0x71) (hdue : c.arg / 4 + 8203125 ≤ s.thy.sinceFrame) :
    exec .holdoverTimeout s = .next (s.holdsOver.finalReply Status.refused 0x61 0 []) := by
  show execHoldoverTimeout s = _
  simp [execHoldoverTimeout, State.holdsOver, State.pendingIs, hm, hlost, hc, hop, hdue]

/-! ### The backup takes over (R241) -/

theorem exec_masterLostTimeout_stays (h : s.thy.master = true ∨ s.hearsOthers = false) : exec .masterLostTimeout s = .next s := by
  show execMasterLostTimeout s = _
  rcases h with h | h <;> simp [execMasterLostTimeout, h]

theorem exec_masterLostTimeout_takes (hm : s.thy.master = false) (hb : s.thy.backup = true) (hlost : s.thy.phaseLost = false) (hdue : 256 ≤ s.thy.sinceMaster)
    (hhears : s.hearsOthers = true) : exec .masterLostTimeout s = .next s.becomeMaster.countMasterChange := by
  show execMasterLostTimeout s = _
  simp [execMasterLostTimeout, hm, hb, hlost, hdue, hhears]

end

theorem OfficeFree.becomeMaster {α : Type} {f : State → α} (hf : OfficeFree f) (s : State) : f s.becomeMaster = f s := by
  unfold State.becomeMaster
  extract_lets k t
  have requested : f t = f s := (hf.masterRequest _ _ _).trans (hf.modThy _ _)
  exact (keeps_onlyIf (hf.masterHoldOn t _)).trans requested

/-- The time system of a module that becomes the master goes on, beside hold levels, holds, requested rates and rate steps. -/
theorem State.becomeMaster_aside (s : State) : s.becomeMaster.aside = { s.aside with
    master := true, backup := false, masterPrio := s.prio, masterAddr := s.ring.addr, parent := 7, holdover := false, outLow := false } := by
  unfold State.becomeMaster
  extract_lets k t
  have requested : t.aside = _ := State.aside_retarget _ _
  exact (keeps_onlyIf (State.aside_masterHoldOn t _)).trans requested

theorem State.countMasterChange_aside (s : State) : s.countMasterChange.aside = s.aside :=
  (eventFree_aside.event _ _ _).trans (RegFree.bump (f := State.aside) (fun _ _ => rfl) s Reg.THY_MASTER_CHANGE 1)

/-- A backup that takes over is the master, and goes on from its own counters. -/
theorem State.takesOver_office (s : State) : let t := s.becomeMaster.countMasterChange.thy
    ((t.master, t.backup, t.masterAddr), t.period, t.tick, t.rate) = ((true, false, s.ring.addr), s.thy.period, s.thy.tick, s.thy.rate) :=
  congrArg (fun t : Thyme => ((t.master, t.backup, t.masterAddr), t.period, t.tick, t.rate)) (s.becomeMaster.countMasterChange_aside.trans s.becomeMaster_aside)

theorem State.countMasterChange_counts {s : State} (hs : s.regsSorted) :
    s.countMasterChange.reg Reg.THY_MASTER_CHANGE = s.reg Reg.THY_MASTER_CHANGE + 1 :=
  ((EventFree.of_reg (by decide)).event _ _ _).trans (s.reg_bump_same Reg.THY_MASTER_CHANGE 1 hs one_ne_zero)

/-- Settles O39: a phase frame has its effect on the module that has received it, and views of that effect follow the election, the adopted phase and PHASE_LOSS. -/
theorem followingTheMaster : Obligations.FollowingTheMaster := by
  unfold Obligations.FollowingTheMaster
  refine ⟨fun x i s h => ⟨fun hadopt hlost hm => ⟨fun hp ht hr => ?_, fun hs hdiff => ?_⟩, fun hadopt hm ha => ⟨fun hp ht hr => ?_, fun hlost hdiff => ?_⟩,
    fun hadopt hforeign => ⟨fun hp => ⟨_, exec_phaseFrame, State.onlyRing_phaseFrame_elsewhere h hadopt hforeign hp⟩, fun hp hk => ?_, fun hp hk => ?_⟩,
    fun c hadopt hm hlost hc hop hp => ?_⟩,
    fun s => ⟨fun hm => ⟨exec_holdoverTimeout_master hm, exec_masterLostTimeout_stays (.inl hm)⟩, fun hs hm hlost hpast => ?_, fun c hm hlost hc hop hdue => ?_,
      fun hs hm hb hlost hdue hhears => ?_, fun hhears => exec_masterLostTimeout_stays (.inr hhears)⟩⟩
  · have agrees := State.phaseDiffers_false hp ht hr
    obtain ⟨view, since⟩ := phaseFrame_agrees h hadopt hlost hm agrees
    simp only [State.memberView, State.following, Prod.mk.injEq] at view
    obtain ⟨⟨master, addr, sinceMaster⟩, ⟨period, tick, -⟩, ⟨lost, -⟩, arrays, mem, -⟩ := view
    refine ⟨_, exec_phaseFrame, since, sinceMaster, lost.trans hlost, master, addr, period, tick, arrays, mem, fun hprio haddr hup hport => ?_⟩
    have parent := phaseFrame_parent h hadopt hlost hm agrees (Prod.ext hprio haddr) hup hport
    simp only [State.todView, Prod.mk.injEq] at parent
    obtain ⟨⟨secs, nanos⟩, flt, regs⟩ := parent
    exact ⟨secs, nanos, flt, regs⟩
  · have differs := State.phaseDiffers_true hdiff
    obtain ⟨view, unacked⟩ := State.losePhase_received (x := x) hlost
    have view := (phaseFrame_differs h hadopt hlost hm differs ringFree_lossView).trans view
    have unacked := (phaseFrame_differs h hadopt hlost hm differs (f := fun s => s.flt.unacked) fun _ _ => rfl).trans unacked
    have status := (phaseFrame_differs h hadopt hlost hm differs (f := fun s => (s.reg Reg.THY_STATUS).getLsbD 5) fun _ _ => rfl).trans
      (State.losePhase_status (by rw [State.received_thy, hlost]) (State.received_regsSorted hs))
    simp only [State.lossView, Prod.mk.injEq] at view
    obtain ⟨lost, period, tick, -⟩ := view
    exact ⟨_, exec_phaseFrame, lost, unacked, status, period, tick⟩
  · have agrees : ∀ {β : Type} {f : State → β}, RingFree f → f (s.linkIn 6 x fun u => u.phaseArrives x.port i) = f s := fun hf => by
      rw [phaseFrame_own h hadopt hm ha hf, State.phaseDiffers_false hp ht hr]
      exact hf.received s x
    have thy := agrees (f := State.thy) fun _ _ => rfl
    refine ⟨_, exec_phaseFrame, congrArg Thyme.phaseLost thy, (congrArg Thyme.master thy).trans hm, congrArg Thyme.period thy, congrArg Thyme.tick thy,
      agrees (f := State.flt) fun _ _ => rfl, agrees (f := State.arrays) fun _ _ => rfl, agrees (f := State.mem) fun _ _ => rfl⟩
  · obtain ⟨view, unacked⟩ := State.losePhase_received (x := x) hlost
    have differs : ∀ {β : Type} {f : State → β}, RingFree f → f (s.linkIn 6 x fun u => u.phaseArrives x.port i) = f (s.received x).losePhase := fun hf => by
      rw [phaseFrame_own h hadopt hm ha hf, State.phaseDiffers_true hdiff, if_pos rfl]
    have view := (differs ringFree_lossView).trans view
    have unacked := (differs (f := fun s => s.flt.unacked) fun _ _ => rfl).trans unacked
    simp only [State.lossView, Prod.mk.injEq] at view
    obtain ⟨lost, period, tick, -⟩ := view
    exact ⟨_, exec_phaseFrame, lost, unacked, period, tick⟩
  · have joined := phaseFrame_joins_member h hadopt hforeign hp hk
    simp only [Prod.mk.injEq] at joined
    obtain ⟨⟨master, addr⟩, ⟨period, tick, rate⟩, lost, adopt⟩ := joined
    exact ⟨_, exec_phaseFrame, period, tick, rate, master, addr, adopt, lost, phaseFrame_joined h hadopt hforeign hp⟩
  · have joined := phaseFrame_joins_master h hadopt hforeign hp hk
    simp only [Prod.mk.injEq] at joined
    obtain ⟨master, addr, period, tick⟩ := joined
    exact ⟨_, exec_phaseFrame, period, tick, master, addr, phaseFrame_joined h hadopt hforeign hp⟩
  · have cleared := phaseFrame_clears h hadopt hm hlost hc hop hp
    simp only [Prod.mk.injEq] at cleared
    obtain ⟨⟨period, tick, lost⟩, unacked, pending⟩ := cleared
    exact ⟨_, exec_phaseFrame, period, tick, lost, unacked, pending⟩
  · have view := State.losePhase_view (s := s.holdsOver) hlost
    simp only [State.lossView, Prod.mk.injEq] at view
    obtain ⟨lost, -, tick, outLow⟩ := view
    have low : s.holdsOver.thy.outLow = true := by simp [State.holdsOver, State.modThy, hpast]
    exact ⟨_, exec_holdoverTimeout_past hm hlost hpast, outLow.trans low, lost, State.losePhase_status (s := s.holdsOver) hlost hs,
      State.losePhase_unacked (s := s.holdsOver) hlost, tick⟩
  · exact ⟨_, exec_holdoverTimeout_refuses hm hlost hc hop hdue, State.finalReply_pendingCmd _ _ _ _ _, holdFree_unacked.finalReply _ _ _ _ _,
      holdFree_thy.finalReply _ _ _ _ _⟩
  · have sorted : s.becomeMaster.regsSorted := Eq.mpr (OfficeFree.becomeMaster (f := State.regsSorted) (fun _ _ _ => rfl) s) hs
    have counted : s.becomeMaster.reg Reg.THY_MASTER_CHANGE = s.reg Reg.THY_MASTER_CHANGE :=
      OfficeFree.becomeMaster (f := fun s => s.reg Reg.THY_MASTER_CHANGE) (fun _ _ _ => rfl) s
    have office := s.takesOver_office
    simp only [Prod.mk.injEq] at office
    obtain ⟨⟨master, backup, addr⟩, period, tick, rate⟩ := office
    have view := State.countMasterChange_view s.becomeMaster
    have kept := OfficeFree.becomeMaster (f := fun s => (s.arrays, s.mem)) (fun _ _ _ => rfl) s
    exact ⟨_, exec_masterLostTimeout_takes hm hb hlost hdue hhears, master, backup, addr, period, tick, rate, (State.countMasterChange_counts sorted).trans (by rw [counted]),
      (congrArg (fun v => v.2.2.2.1) view).trans (congrArg Prod.fst kept), (congrArg (fun v => v.2.2.2.2.1) view).trans (congrArg Prod.snd kept)⟩

end Sys2Proof.Machine
end

section
/-! When an instruction issues, and which fault its fetch raises (R209, R216, R256 to R260, R287, R290, R431); O6. -/

namespace Sys2Proof.Machine

/-! ### What fetch and decode ask (R256, R287, R290) -/

/-- A fetch lies inside its region when its word and its record do. -/
theorem State.fetchOk_iff {s : State} {h : Head} {i : IssueInfo} :
    s.fetchOk h i = true ↔ s.pcInside h.arr h.stream = true ∧ ∀ ref len, i.record = some (ref, len) → s.recordAt h ref len = true := by
  refine ⟨fun hok => ?_, fun ⟨hpc, hrec⟩ => State.fetchOk_of hpc hrec⟩
  unfold State.fetchOk at hok
  unfold State.pcInside State.recordAt
  cases hr : s.fetchRegion h.arr h.stream with
  | none => simp [hr] at hok
  | some r =>
    simp only [hr, Bool.and_eq_true] at hok ⊢
    obtain ⟨hpc, hrec⟩ := hok
    refine ⟨hpc, fun ref len he => ?_⟩
    simpa [he] using hrec

/-- A fetch raises no fault exactly when it lies inside its region and meets nothing uncorrectable. -/
theorem State.fetchFault_eq_none {s : State} {h : Head} {i : IssueInfo} :
    s.fetchFault h i = none ↔ s.fetchOk h i = true ∧ s.fetchBad h i = none := by
  unfold State.fetchFault
  cases s.fetchOk h i <;> simp

/-- A fetch outside its region names the first byte outside (R256, R287, R431). -/
theorem State.fetchFault_outside {s : State} {h : Head} {i : IssueInfo} (hok : s.fetchOk h i = false) :
    s.fetchFault h i = some { s.issueFault h i.opcode i.object 0x10 0 (s.fetchOutside h i) with aux := (s.fetchIdx h.arr h.stream).getD 0 } := by
  simp [State.fetchFault, hok]

/-- One that meets an uncorrectable block or word names that (R209, R216). -/
theorem State.fetchFault_uncorrectable {s : State} {h : Head} {i : IssueInfo} {code a : Nat} (hok : s.fetchOk h i = true)
    (hbad : s.fetchBad h i = some (code, a)) : s.fetchFault h i = some (s.issueFault h i.opcode i.object code 0 a) := by
  simp [State.fetchFault, hok, hbad]

/-- A row of R290 that is tested has not failed. -/
theorem rowTest_eq_none {c : Prop} [Decidable c] {row : Nat} {x : Option Nat} : (if c then some row else x) = none ↔ ¬ c ∧ x = none := by
  split <;> simp [*]

/-- No row of R290 fails, and no decode fault that another rule states. -/
theorem State.decodeRow_eq_none {s : State} {h : Head} {i : IssueInfo} :
    s.decodeRow h i = none ↔ s.opcodeOk h.arr h.stream = true ∧ h.stream ∈ i.streams ∧ i.modOk = true ∧
      (i.noRecompute = true → (s.ctx h.arr h.stream).recompute = none) ∧ i.regsOk = true ∧ i.decodeBad = none := by
  unfold State.decodeRow
  simp only [rowTest_eq_none]
  simp

theorem State.decodeFault_eq_none {s : State} {h : Head} {i : IssueInfo} :
    s.decodeFault h i = none ↔ s.decodeRow h i = none ∧ i.formatFault = none := by
  unfold State.decodeFault
  cases s.decodeRow h i <;> simp

/-! ### The verdict (R257) -/

/-- A test of the verdict that does not let the instruction go has failed where it goes. -/
theorem Verdict.go_of_ite {c : Prop} [Decidable c] {v w : Verdict} {k : Nat} (h : (if c then v else w) = .go k)
    (hv : ∀ j, v ≠ .go j := by nofun) : ¬ c ∧ w = .go k := by
  split at h
  · exact absurd h (hv k)
  · exact ⟨‹¬ c›, h⟩

/-- An instruction whose verdict is to go has met every condition, in the order of the tests. -/
theorem State.issuesIn_of_verdict {s : State} {h : Head} {i : IssueInfo} {slot : Nat} (hv : s.verdict h i = .go slot) : s.issuesIn h i slot := by
  obtain ⟨hlive, hv⟩ := Verdict.go_of_ite hv
  obtain ⟨hpenalty, hv⟩ := Verdict.go_of_ite hv
  split at hv
  · nomatch hv
  next hfetch =>
  obtain ⟨hmark, hv⟩ := Verdict.go_of_ite hv
  obtain ⟨hholds, hv⟩ := Verdict.go_of_ite hv
  split at hv
  · nomatch hv
  next hdecode =>
  split at hv
  · nomatch hv
  next hstep =>
  obtain ⟨hsreg, hv⟩ := Verdict.go_of_ite hv
  split at hv
  · nomatch hv
  next hhold =>
  split at hv
  · nomatch hv
  next k hslot =>
  obtain ⟨harb, hv⟩ := Verdict.go_of_ite hv
  obtain ⟨htarget, hv⟩ := Verdict.go_of_ite hv
  split at hv
  · nomatch hv
  next hcheck =>
  obtain rfl : k = slot := by simpa using hv
  obtain ⟨hok, hbad⟩ := State.fetchFault_eq_none.1 hfetch
  obtain ⟨hpc, hrec⟩ := State.fetchOk_iff.1 hok
  obtain ⟨hrow, -⟩ := State.decodeFault_eq_none.1 hdecode
  obtain ⟨hop, hs, hm, hr, hg, hd⟩ := State.decodeRow_eq_none.1 hrow
  have hready : s.ready h i.sregs = true := by
    simp_all [State.ready, State.markOf]
  exact ⟨hready, hbad, hs, hm, hr, hg, hd, hrec, hhold, hslot, fun t ht => by simpa [ht] using htarget, hcheck⟩

/-- R257: an instruction issues exactly when it meets every condition. -/
theorem State.verdict_eq_go_iff {s : State} {h : Head} {i : IssueInfo} {slot : Nat} : s.verdict h i = .go slot ↔ s.issuesIn h i slot :=
  ⟨State.issuesIn_of_verdict, verdict_go⟩

/-- A live stream past its penalty faults with what its fetch raises, before anything else of the instruction is asked. -/
theorem State.verdict_of_fetchFault {s : State} {h : Head} {i : IssueInfo} {r : FaultRec} (hlive : s.streamLive h.arr h.stream = true)
    (hpenalty : (s.ctx h.arr h.stream).notBefore ≤ s.cycle) (hf : s.fetchFault h i = some r) : s.verdict h i = .fault r := by
  simp [State.verdict, hlive, Nat.not_lt.2 hpenalty, hf]

/-! ### What a fetch corrects (R209, R216) -/

/-- What an observation of nothing that a correction changes keeps through a fetch. -/
theorem CorrectFree.fetched {α : Type} {f : State → α} (hf : CorrectFree f) (s : State) (h : Head) (i : IssueInfo) : f (s.fetched h i) = f s := by
  have stable : CorrectStable (fun t => f t = f s) :=
    { notes := fun m x h1 h2 hs => (hf.notes _ m x h1 h2).trans hs
      setReg := fun a v hs => (hf.regs.setReg _ a v).trans hs
      setBits := fun a m hs => (hf.regs.setBits _ a m).trans hs
      counts := fun _ _ _ _ _ _ hs => (hf.counts _ _ _ _ _ _ _).trans hs }
  exact CorrectStable.foldl (P := fun t => f t = f s) (g := fun t (x : Nat × Nat) => t.correctAt x.1 x.2) (fun (x : Nat × Nat) ht => stable.correctAt x.1 x.2 ht) _ rfl

/-- A fetch leaves memory, the arrays and every uncorrectable block and word. -/
theorem State.fetched_keeps (s : State) (h : Head) (i : IssueInfo) :
    (s.fetched h i).mem = s.mem ∧ (s.fetched h i).arrays = s.arrays ∧ (s.fetched h i).tiers.bad = s.tiers.bad ∧
      (s.fetched h i).tiers.nearBad = s.tiers.nearBad := by
  have kept := CorrectFree.fetched (f := fun s => (s.mem, s.arrays, s.tiers.bad, s.tiers.nearBad))
    ⟨fun _ _ => rfl, fun _ _ _ _ _ => rfl, fun _ _ _ _ _ _ _ => rfl⟩ s h i
  simpa only [Prod.mk.injEq] using kept

/-- Settles O6: the tests of the verdict are the conditions of `State.issuesIn`, and those of the fetch come first. -/
theorem issueConditions : Obligations.IssueConditions := by
  unfold Obligations.IssueConditions
  refine ⟨fun s h i slot => State.verdict_eq_go_iff, fun s h i slot act hi => ⟨issue_go act (verdict_go hi), s.fetched_keeps h i⟩,
    fun s h i hlive hpenalty => ⟨fun hok => ?_, fun code a hok hbad => ?_⟩⟩
  · exact ⟨_, State.verdict_of_fetchFault hlive hpenalty (State.fetchFault_outside hok), rfl, rfl⟩
  · exact ⟨_, State.verdict_of_fetchFault hlive hpenalty (State.fetchFault_uncorrectable hok hbad), rfl, rfl⟩

end Sys2Proof.Machine
end

section
/-! STEPB and END at step boundaries (R262 to R264, R267, R350): their effect, their faults and where a STEPB waits; O10. -/

namespace Sys2Proof.Machine

/-! ### Verdicts behind decode (R257, R290) -/

/-- A clear stream with a clean record raises no fault at its fetch. -/
theorem State.fetchFault_of_clear {s : State} {h : Head} {i : IssueInfo} {regs : List Nat} (hc : s.clear h regs = true)
    (hrec : ∀ ref len, i.record = some (ref, len) → s.recordInside h ref len = true) : s.fetchFault h i = none := by
  obtain ⟨hready, hw⟩ := State.clear_parts hc
  obtain ⟨-, -, hpc, -⟩ := State.ready_parts hready
  refine State.fetchFault_none hpc (fun ref len he => ?_) (State.fetchBad_none hw hrec)
  have hin := hrec ref len he
  simp only [State.recordInside, Bool.and_eq_true] at hin
  exact hin.1

section
variable {s : State} {h : Head} {i : IssueInfo} (hc : s.clear h i.sregs = true) (hdecode : s.decodeFault h i = none)
  (hrec : ∀ ref len, i.record = some (ref, len) → s.recordInside h ref len = true)
include hc hdecode hrec

/-- From a clear stream the verdict on an instruction that decodes begins with the hold of its class. -/
theorem verdict_hold {k : Hold} (hk : i.hold = some k) : s.verdict h i = .hold k := by
  obtain ⟨hready, -⟩ := State.clear_parts hc
  obtain ⟨hlive, hpenalty, -, hmark, hholds, -, -, hstep, hsreg, -⟩ := State.ready_parts hready
  unfold State.markOf at hholds
  simp [State.verdict, hlive, Nat.not_lt.2 hpenalty, State.fetchFault_of_clear hc hrec, hmark, hholds, hdecode, hstep, hsreg, hk]

/-- Without a hold, and with its resource, it ends with the issue checks. -/
theorem verdict_check {slot : Nat} {r : FaultRec} (hk : i.hold = none)
    (hslot : (if i.needSlot then (s.arr h.arr).freeSlot h.stream else some 0) = some slot)
    (ht : ∀ t, i.target = some t → (s.ctx h.arr h.stream).leavesRange t = false) (hr : i.check = some r) : s.verdict h i = .fault r := by
  obtain ⟨hready, -⟩ := State.clear_parts hc
  obtain ⟨hlive, hpenalty, -, hmark, hholds, -, hissue, hstep, hsreg, hyields⟩ := State.ready_parts hready
  unfold State.markOf at hholds hyields
  simp only [State.verdict, hlive, Nat.not_lt.2 hpenalty, State.fetchFault_of_clear hc hrec, hmark, hholds, hdecode, hstep, hsreg, hk, hslot, hyields, hr, Bool.not_true,
    Bool.false_eq_true, if_false]
  cases htarget : i.target with
  | none => simp [hissue]
  | some t => simp [hissue, ht t htarget]

end

/-- Under the recompute flag an instruction that is illegal there fails row 4 of R290. -/
theorem State.decodeRow_recompute {s : State} {h : Head} {i : IssueInfo} (hc : s.clear h [] = true) (hs : h.stream ∈ i.streams)
    (hm : i.modOk = true) (hn : i.noRecompute = true) (hr : (s.ctx h.arr h.stream).recompute.isSome = true) : s.decodeRow h i = some 4 := by
  obtain ⟨hready, -⟩ := State.clear_parts hc
  obtain ⟨-, -, -, -, -, hop, -⟩ := State.ready_parts hready
  simp [State.decodeRow, hop, hs, hm, hn, hr]

/-! ### STEPB (R262 to R264) -/

/-- What a STEPB needs. -/
def State.stepbInfo (s : State) (h : Head) (b : BodyB) : IssueInfo :=
  { IssueInfo.simple 0x02 [] with
    noRecompute := true
    hold := s.stepbHold h
    check := s.stepbCheck h
    target := some b.target.toNat }

/-- The stream in its next step and, of a STEPB of the module's own step, the base of the next one, before the entry records are captured. -/
def State.enterStep (s : State) (h : Head) (t : State) : State :=
  let t := t.modCtx h.arr h.stream (fun c => c.stepped h.stream (s.markOf h))
  if (s.ctx h.arr h.stream).step == s.stp.step then { t with stp := { t.stp with nextBase := some (s.markOf h) } } else t

theorem exec_stepb (h : Head) (b : BodyB) (s : State) :
    exec (.stepb h b) s = issue h (s.stepbInfo h b) (fun _ t =>
      ((s.enterStep h t).captureStream h.arr h.stream).captureCounters ((s.enterStep h t).ctx h.arr h.stream).step) s := rfl

/-- Captured entry records change the journal alone (R348, R350). -/
theorem State.captured_keeps {α : Type} {f : State → α} (hf : ∀ (s : State) x, f { s with mir := x } = f s) (s : State) (n : Nat) (st : Stream) (k : Nat) :
    f ((s.captureStream n st).captureCounters k) = f s :=
  Eq.trans (keeps_ite rfl (hf _ _)) (keeps_ite rfl (hf s _))

/-- What a STEPB changes of the module beside arrays, counters and the journal. -/
theorem State.enterStep_stp (s : State) (h : Head) (t : State) :
    (s.enterStep h t).stp = if (s.ctx h.arr h.stream).step = s.stp.step then { t.stp with nextBase := some (s.markOf h) } else t.stp := by
  by_cases hstep : (s.ctx h.arr h.stream).step = s.stp.step <;> simp [State.enterStep, hstep, State.modCtx]

/-- Of the arrays it changes the context of its own stream. -/
theorem State.enterStep_arrays (s : State) (h : Head) (t : State) :
    (s.enterStep h t).arrays = (t.modCtx h.arr h.stream (fun c => c.stepped h.stream (s.markOf h))).arrays :=
  keeps_ite (f := State.arrays) rfl rfl

/-- An observation of neither the step nor the arrays. -/
theorem State.enterStep_keeps {α : Type} {f : State → α} (hf : ∀ (s : State) x y, f { s with stp := x, arrays := y } = f s) (s : State) (h : Head) (t : State) :
    f (s.enterStep h t) = f t :=
  keeps_ite (hf t _ _) (hf t _ _)

/-- Outside a recompute an effective mark is the mark base and P (R242). -/
theorem State.markOf_of_none {s : State} {h : Head} (hnone : (s.ctx h.arr h.stream).recompute = none) :
    s.markOf h = (s.ctx h.arr h.stream).base + h.p.toNat := by
  simp only [State.markOf, StreamCtx.mark, hnone, Int.add_zero]
  omega

/-- No step rule holds a STEPB of a U stream, nor one of a step that the module has reached (R264). -/
theorem State.stepbHold_none {s : State} {h : Head} (hstep : h.stream = .u ∨ (s.ctx h.arr h.stream).step ≤ s.stp.step) : s.stepbHold h = none := by
  rcases hstep with hu | hle
  · simp [State.stepbHold, hu]
  · simp [State.stepbHold, Nat.not_le.2 (Nat.lt_succ_of_le hle)]

section
variable {s : State} {h : Head} {b : BodyB} (hc : s.clear h [] = true) (hnone : (s.ctx h.arr h.stream).recompute = none)
include hc hnone

theorem State.stepb_decodes : s.decodeFault h (s.stepbInfo h b) = none := by
  obtain ⟨hready, -⟩ := State.clear_parts hc
  obtain ⟨-, -, -, -, -, hop, -⟩ := State.ready_parts hready
  have format : (s.stepbInfo h b).formatFault = none := by simp [IssueInfo.formatFault, State.stepbInfo, IssueInfo.simple]
  exact State.decodeFault_eq_none.2 ⟨State.decodeRow_eq_none.2 ⟨hop, mem_allStreams _, rfl, fun _ => hnone, rfl, rfl⟩, format⟩

/-- A STEPB that no step rule holds and whose mark agrees with the earlier ones of its step issues. -/
theorem State.stepb_issuesClean (hstep : h.stream = .u ∨ (s.ctx h.arr h.stream).step ≤ s.stp.step)
    (hmark : ∀ m, s.stepbMark (s.ctx h.arr h.stream).step = some m → m = s.markOf h) : s.issuesClean h (s.stepbInfo h b) 0 := by
  refine State.issuesClean_of hc (mem_allStreams _) rfl (fun _ => hnone) rfl rfl nofun (State.stepbHold_none hstep) rfl
    (fun t _ => by simp [StreamCtx.leavesRange, hnone]) ?_
  cases hm : s.stepbMark (s.ctx h.arr h.stream).step with
  | none => simp [State.stepbInfo, State.stepbCheck, hm]
  | some m => simp [State.stepbInfo, State.stepbCheck, hm, hmark m hm]

/-- A STEPB of F or B one step ahead of the module waits (R264). -/
theorem exec_stepb_waits (hu : h.stream ≠ .u) (hlt : s.stp.step < (s.ctx h.arr h.stream).step) :
    exec (.stepb h b) s = .next (s.holdHead h (IssueInfo.simple 0x02 []) .skew) := by
  have hold : (s.stepbInfo h b).hold = some .skew := by simp [State.stepbInfo, State.stepbHold, hu, hlt]
  exact (exec_stepb h b s).trans (issue_hold _ (verdict_hold hc (State.stepb_decodes hc hnone) nofun hold))

/-- A STEPB whose mark differs from that of an earlier one of its step faults with ORDER (R263). -/
theorem exec_stepb_order {m : Nat} (hstep : h.stream = .u ∨ (s.ctx h.arr h.stream).step ≤ s.stp.step)
    (hm : s.stepbMark (s.ctx h.arr h.stream).step = some m) (hne : m ≠ s.markOf h) :
    exec (.stepb h b) s = .next (s.faultHead h (s.issueFault h 0x02 0xFFFF 0x22 0 0)) := by
  have check : (s.stepbInfo h b).check = some (s.issueFault h 0x02 0xFFFF 0x22 0 0) := by simp [State.stepbInfo, State.stepbCheck, hm, hne]
  exact (exec_stepb h b s).trans (issue_fault _ (verdict_check hc (State.stepb_decodes hc hnone) nofun (State.stepbHold_none hstep) rfl
    (fun t _ => by simp [StreamCtx.leavesRange, hnone]) check))

end

/-- STEPB and END are illegal inside a recompute (R262). -/
theorem exec_stepb_recompute {s : State} {h : Head} (hc : s.clear h [] = true) (hr : (s.ctx h.arr h.stream).recompute.isSome = true) (b : BodyB) :
    exec (.stepb h b) s = .next (s.faultHead h (s.issueFault h 0x02 0xFFFF 0x24 4 0)) :=
  (exec_stepb h b s).trans (issue_fault _ (verdict_row hc (i := s.stepbInfo h b) nofun (State.decodeRow_recompute hc (mem_allStreams _) rfl rfl hr)))

/-- What END needs. -/
def endInfo : IssueInfo := { IssueInfo.simple 0x01 [] with noRecompute := true }

theorem exec_endStream (h : Head) (s : State) :
    exec (.endStream h) s = issue h endInfo (fun _ t => t.modCtx h.arr h.stream (fun c => { c with st := .ended })) s := rfl

theorem exec_endStream_recompute {s : State} {h : Head} (hc : s.clear h [] = true) (hr : (s.ctx h.arr h.stream).recompute.isSome = true) :
    exec (.endStream h) s = .next (s.faultHead h (s.issueFault h 0x01 0xFFFF 0x24 4 0)) :=
  (exec_endStream h s).trans (issue_fault _ (verdict_row hc (i := endInfo) nofun (State.decodeRow_recompute hc (mem_allStreams _) rfl rfl hr)))

/-! ### The effect of a STEPB -/

/-- The stream behind a STEPB that issues outside a recompute. -/
theorem State.ctx_enterStep {s : State} {h : Head} {b : BodyB} (hl : h.arr < s.arrays.length) (hnone : (s.ctx h.arr h.stream).recompute = none) :
    ((s.enterStep h (s.issued h (s.stepbInfo h b))).ctx h.arr h.stream).sameAs
      { s.ctx h.arr h.stream with
        pc := b.target.toNat
        head := none
        base := (s.ctx h.arr h.stream).base + h.p.toNat
        step := (s.ctx h.arr h.stream).step + 1
        stepbDone := decide (h.stream = .u) } := by
  have own : (s.enterStep h (s.issued h (s.stepbInfo h b))).ctx h.arr h.stream =
      ((s.issued h (s.stepbInfo h b)).ctx h.arr h.stream).stepped h.stream (s.markOf h) :=
    (congrArg (fun a => ArrayState.ctx a h.stream) (State.arr_of_arrays (s.enterStep_arrays h _) h.arr)).trans
      (State.ctx_modCtx_same _ _ _ _ (by simpa using hl))
  rw [own, State.issued_ctx s h _ hl, State.markOf_of_none hnone]
  simp [StreamCtx.sameAs, StreamCtx.stepped, StreamCtx.movePc, State.stepbInfo, hnone]
  rfl

/-- Settles O10: a STEPB that issues takes its stream to the next step behind the common effect of issue, and the entry records it captures change the journal alone; its faults and its wait are verdicts. -/
theorem stepbAtBoundaries : Obligations.StepbAtBoundaries := by
  unfold Obligations.StepbAtBoundaries
  refine ⟨fun h b s hc hnone hstep hmark => ?_, fun h b s hc hr => ⟨⟨_, exec_stepb_recompute hc hr b, rfl⟩, ⟨_, exec_endStream_recompute hc hr, rfl⟩⟩,
    fun h b s hc hnone => ⟨exec_stepb_waits hc hnone, fun m hstep hm hne => exec_stepb_order hc hnone hstep hm hne⟩⟩
  have hi := State.stepb_issuesClean (b := b) hc hnone hstep hmark
  have hl := hi.lt
  refine ⟨_, (exec_stepb h b s).trans (issue_clean _ hi), ?_⟩
  generalize ht : State.captureCounters _ _ = t
  have captured : ∀ {β : Type} {f : State → β}, (∀ (s : State) x, f { s with mir := x } = f s) → f t = f (s.enterStep h (s.issued h (s.stepbInfo h b))) :=
    fun hf => ht ▸ State.captured_keeps hf _ _ _ _
  have arrays := (captured (f := State.arrays) fun _ _ => rfl).trans (s.enterStep_arrays h _)
  have rest : (t.mem, t.hostMem, t.flt, t.ring, t.thy, t.mask, t.wct) = (s.mem, s.hostMem, s.flt, s.ring, s.thy, s.mask, s.wct) := by
    refine (captured (f := fun s => (s.mem, s.hostMem, s.flt, s.ring, s.thy, s.mask, s.wct)) fun _ _ => rfl).trans ?_
    rw [State.enterStep_keeps (f := fun s => (s.mem, s.hostMem, s.flt, s.ring, s.thy, s.mask, s.wct)) fun _ _ _ => rfl]
    simp
  simp only [Prod.mk.injEq] at rest
  obtain ⟨mem, hostMem, flt, ring, thy, mask, wct⟩ := rest
  have arr (n : Nat) := State.arr_of_arrays arrays n
  have issuedLt : h.arr < (s.issued h (s.stepbInfo h b)).arrays.length := by simpa using hl
  refine ⟨?_, ?_, mem, hostMem, flt, ring, thy, mask, wct, ?_, fun st hst => ?_, fun m hm => ?_⟩
  · rw [captured (f := fun s => s.ctx h.arr h.stream) fun _ _ => rfl]
    exact State.ctx_enterStep hl hnone
  · rw [captured (f := State.stp) fun _ _ => rfl, State.enterStep_stp, State.issued_stp, State.markOf_of_none hnone]
  · rw [arr, State.modCtx, State.arr_modArr_same _ _ _ issuedLt, ← s.issued_ops h (s.stepbInfo h b) hl]
    cases h.stream <;> rfl
  · rw [State.ctx, arr, State.modCtx, State.arr_modArr_same _ _ _ issuedLt, ArrayState.ctx_modCtx_ne _ _ _ _ hst]
    exact s.ctx_issued_ne h _ hl hst
  · rw [arr, State.modCtx, State.arr_modArr_ne _ _ _ _ hm]
    exact State.issued_arr_ne s h _ m hm

end Sys2Proof.Machine
end

section
/-! What a waiting and a faulting head leave alone (R257, R260, R427); O7. -/

namespace Sys2Proof.Machine

/-! ### Heads are recorded in arrays of the module -/

/-- A verdict other than absent is about an instruction of a live stream, and so of an array of the module. -/
theorem State.lt_of_verdict {s : State} {h : Head} {i : IssueInfo} (hv : s.verdict h i ≠ .absent) : h.arr < s.arrays.length := by
  have hlive : s.streamLive h.arr h.stream = true := by
    by_contra hdead
    exact hv (if_pos (by simpa using hdead))
  simp only [State.streamLive, Bool.and_eq_true, decide_eq_true_eq] at hlive
  obtain ⟨⟨⟨⟨⟨-, hlt⟩, -⟩, -⟩, -⟩, -⟩ := hlive
  exact hlt

/-! ### A head that waits (R232, R257, R260, R348) -/

/-- From `s` to `t` nothing has changed but counters, the stagings asked for and the journal copies asked for. -/
def State.onlyAsks (s t : State) : Prop :=
  t = { s with
    regs := { s.regs with vals := t.regs.vals }
    tiers := { s.tiers with requests := t.tiers.requests }
    mir := { s.mir with jrnWait := t.mir.jrnWait } }

theorem State.onlyAsks.trans {s t u : State} (h1 : s.onlyAsks t) (h2 : t.onlyAsks u) : s.onlyAsks u := by
  unfold State.onlyAsks at *
  rw [h2, h1]

theorem State.onlyAsks_countHold (s : State) (h : Head) (k : Hold) (counted : List Hold) : s.onlyAsks (s.countHold h k counted) := by
  unfold State.countHold
  split
  · split
    · rfl
    · unfold State.bump
      split <;> rfl
  · rfl

theorem State.onlyAsks_askStage (s : State) (obj arr : Nat) : s.onlyAsks (s.askStage obj arr) := by
  unfold State.askStage
  split <;> rfl

theorem State.onlyAsks_askFor (s : State) (h : Head) (i : IssueInfo) (k : Hold) : s.onlyAsks (s.askFor h i k) := by
  unfold State.askFor
  split
  · generalize i.wants.filter _ = ws
    induction ws generalizing s with
    | nil => rfl
    | cons w ws ih => exact (s.onlyAsks_askStage w.1 w.2).trans (ih _)
  · rfl
  · rfl

/-- A head that waits is recorded, and its hold is counted and asks for what it needs. -/
theorem State.holdHead_eq (s : State) (h : Head) (i : IssueInfo) (k : Hold) : ∃ u x, s.onlyAsks u ∧ s.holdHead h i k = u.setHead h x := by
  have asks (counted : List Hold) := (s.onlyAsks_countHold h k counted).trans (State.onlyAsks_askFor _ h i k)
  unfold State.holdHead
  dsimp only
  split
  · split
    · exact ⟨_, _, s.onlyAsks_askFor h i k, rfl⟩
    · exact ⟨_, _, asks _, rfl⟩
  · exact ⟨_, _, asks _, rfl⟩

/-! ### A head that faults (R427) -/

/-- What a fault leaves of the time system beside hold levels, holds, requested rates and rate steps. -/
theorem State.raise_aside (s : State) (r : FaultRec) : (s.raise r).aside = s.aside := by
  have ecc : EccFree State.aside := { eventFree_aside with
    regs := fun _ _ => rfl
    tiers := fun _ _ => rfl
    posTesting := fun _ _ => rfl }
  have reported : (s.raise r).aside = (s.recordFault r).aside := keeps_onlyIf (State.aside_report _ _ _)
  exact reported.trans (ecc.recordFault (fun _ _ => rfl) s r)

theorem State.raise_cycle (s : State) (r : FaultRec) : (s.raise r).thy.cycle = s.thy.cycle :=
  show (s.raise r).thy.aside.cycle = s.thy.aside.cycle from congrArg Thyme.cycle (s.raise_aside r)

/-- The first record is no report's to change. -/
theorem reportFree_first : ReportFree (fun s : State => s.flt.first) :=
  { eventFree_first with
    regs := fun _ _ => rfl
    ring := fun _ _ => rfl
    thy := fun _ _ _ _ _ _ => rfl
    mem := fun _ _ _ => rfl
    mir := fun _ _ _ => rfl }

/-- After a fault record there is a first one: that which stood there, or this (R427). -/
theorem State.recordFault_first_isSome (s : State) (r : FaultRec) : (s.recordFault r).flt.first.isSome = true := by
  unfold State.recordFault
  extract_lets t u newFirst newLast f₀ f₁ f₂ f₃ w
  have recorded : f₁.first.isSome = true := by
    unfold f₁
    split
    case isTrue => rfl
    case isFalse hnot =>
      cases hfirst : u.flt.first with
      | none => exact absurd (show newFirst = true by unfold newFirst; rw [hfirst]) hnot
      | some x => rfl
  have kept : f₂.first = f₁.first := by
    unfold f₂
    split <;> rfl
  have entered : w.flt.first = f₂.first := eventFree_first.faultEntry _ r
  refine (keeps_onlyIf (f := fun s : State => s.flt.first.isSome) ?_).trans ((congrArg Option.isSome (entered.trans kept)).trans recorded)
  rfl

theorem State.raise_first_isSome (s : State) (r : FaultRec) : (s.raise r).flt.first.isSome = true :=
  (congrArg Option.isSome (reportFree_first.raise_recordFault s r)).trans (s.recordFault_first_isSome r)

theorem State.arr_raise (s : State) (r : FaultRec) (n : Nat) : (s.raise r).arr n = s.arr n := State.arr_of_arrays (s.raise_arrays r) n

theorem State.arr_faultHead_ne (s : State) {h : Head} (r : FaultRec) {m : Nat} (hm : m ≠ h.arr) : (s.faultHead h r).arr m = s.arr m :=
  (State.arr_raise _ _ _).trans (State.arr_modArr_ne _ _ _ _ hm)

/-- The stream of a head that faults is marked, and its head is known or none. -/
theorem State.arr_faultHead_same (s : State) {h : Head} (r : FaultRec) (hl : h.arr < s.arrays.length) :
    ∃ hd, (s.faultHead h r).arr h.arr = (s.arr h.arr).modCtx h.stream (fun c => { c with head := hd, failed := true }) := by
  refine ⟨((s.faultHead h r).ctx h.arr h.stream).head, ?_⟩
  unfold State.ctx State.faultHead
  rw [State.arr_raise, State.modCtx, State.arr_modArr_same _ _ _ hl]
  cases h.stream <;> rfl

/-- Settles O7: a head that waits is recorded behind what its hold asks for; a head that faults is recorded before the fault is raised, which changes no array and no cycle. -/
theorem waitAndFaultFrame : Obligations.WaitAndFaultFrame := by
  unfold Obligations.WaitAndFaultFrame
  intro s h i act
  refine ⟨fun k hv => ⟨_, issue_hold act hv, ?_⟩, fun r hv => ⟨_, issue_fault act hv, ?_⟩⟩
  · have hl := State.lt_of_verdict (hv.trans_ne nofun)
    obtain ⟨u, x, hasks, heq⟩ := s.holdHead_eq h i k
    have arrays : u.arrays = s.arrays := by rw [hasks]
    rw [heq]
    refine ⟨?_, fun m hm => ?_, x, ?_⟩
    · unfold State.onlyAsks at hasks
      rw [hasks]
      rfl
    · exact (State.arr_modArr_ne _ _ _ _ hm).trans (State.arr_of_arrays arrays m)
    · exact (State.arr_modArr_same _ _ _ (arrays ▸ hl)).trans (by rw [State.arr_of_arrays arrays])
  · have hl := State.lt_of_verdict (hv.trans_ne nofun)
    exact ⟨State.raise_cycle _ _, fun m hm => s.arr_faultHead_ne r hm, s.arr_faultHead_same r hl, State.raise_unacked _ _, State.raise_first_isSome _ _⟩

end Sys2Proof.Machine
end

section
/-! Work counters: WCREQ, WCSET, and what a counter does with a request (R271 to R277, R288, R307); O26. -/

namespace Sys2Proof.Machine

/-- A counter changed behind an update of the rest of the state. -/
theorem State.modCounter_wct {s t : State} (h : t.wct = s.wct) (c : Nat) (g : WorkCounter → WorkCounter) :
    (t.modCounter c g).wct = s.wct.modify c g := congrArg (·.modify c g) h

/-! ### WCREQ (R271) -/

/-- What a WCREQ needs. -/
def State.wcreqInfo (s : State) (h : Head) (b : BodyW) : IssueInfo :=
  { IssueInfo.simple 0x90 [b.reg.toNat] with
    needSlot := true
    check := (s.wcreqCheck h b).map (s.checkFault h 0x90 b.counter.toNat)
    object := b.counter.toNat }

/-- Its operation, to whose register the grant will be written. -/
def State.wcreqOp (s : State) (h : Head) (b : BodyW) (slot : Nat) : Op :=
  { s.newOp h 0x90 slot 0xFFFF (s.cycle + s.lat 0x28) (.wcreq b.counter.toNat b.reg.toNat) with sreg := some b.reg.toNat }

/-- Its request. -/
def State.wcRequest (s : State) (h : Head) (b : BodyW) (slot : Nat) : WcRequest :=
  ⟨requesterOf h.arr h.stream (s.ctx h.arr h.stream).recompute.isSome, h.arr, h.stream, slot, b.reg.toNat, b.n.toNat, b.tag.toNat, s.cycle⟩

theorem exec_wcreq (h : Head) (b : BodyW) (s : State) :
    exec (.wcreq h b) s = issue h (s.wcreqInfo h b) (fun slot t =>
      (t.addOp h.arr (s.wcreqOp h b slot)).modCounter b.counter.toNat (fun w => { w with arriving := w.arriving ++ [s.wcRequest h b slot] })) s := rfl

/-- A WCREQ of one of the 16 counters, of n > 0, and not of a U stream whose module journals, passes its checks (R271, R350). -/
theorem State.wcreqCheck_none {s : State} {h : Head} {b : BodyW} (hcounter : b.counter.toNat < 16) (hn : b.n ≠ 0)
    (hu : h.stream = .u → s.journaling = false) : s.wcreqCheck h b = none := by
  have allowed : (b.n == 0#16 || (h.stream == .u && s.journaling)) = false := by
    have nonzero : b.n ≠ 0#16 := hn
    by_cases hst : h.stream = .u
    · simp [nonzero, hu hst]
    · simp [nonzero, hst]
  simp [State.wcreqCheck, Nat.not_le.2 hcounter, allowed, failIf, firstFail]

/-- A WCREQ that issues takes its slot, and its request arrives at the counter. -/
theorem exec_wcreq_clean {s : State} {h : Head} {b : BodyW} {k : Nat} (hi : s.issuesClean h (s.wcreqInfo h b) k) :
    ∃ t, exec (.wcreq h b) s = .next t ∧ s.movedOn t h ∧ (t.arr h.arr).ops = (s.arr h.arr).ops ++ [s.wcreqOp h b k] ∧
      t.wct = s.wct.modify b.counter.toNat (fun w => { w with arriving := w.arriving ++ [s.wcRequest h b k] }) ∧ t.mem = s.mem ∧
      ∀ m, m ≠ h.arr → t.arr m = s.arr m := by
  have isOp : s.isOpOf h 0x90 k (s.wcreqOp h b k) := ⟨rfl, rfl, rfl, rfl, rfl, rfl, rfl, rfl⟩
  have starts := State.starts_addOp hi.lt (s.onlyArray_issued h (s.wcreqInfo h b)).onlyWork (s.movedOn_issued h _ hi.lt rfl)
    (s.issued_ops h _ hi.lt) isOp []
  obtain ⟨-, mem⟩ := starts.mask_mem
  obtain ⟨moved, hops, -, others⟩ := starts.of_arrays rfl
  have counters : ((s.issued h (s.wcreqInfo h b)).addOp h.arr (s.wcreqOp h b k)).wct = s.wct := by
    rw [State.addOp, State.modArr_wct, State.issued_wct]
  exact ⟨_, (exec_wcreq h b s).trans (issue_clean _ hi), moved, hops, State.modCounter_wct counters _ _, mem, others⟩

/-! ### WCSET (R276) -/

/-- What a WCSET needs. -/
def State.wcsetInfo (s : State) (h : Head) (b : BodyW) : IssueInfo :=
  { IssueInfo.simple 0x91 [b.reg.toNat] with
    check := (failIf (16 ≤ b.counter.toNat && (s.ctx h.arr h.stream).recompute.isNone) 0x21 0).map (s.checkFault h 0x91 b.counter.toNat)
    object := b.counter.toNat }

/-- What it leaves in its counter. -/
def State.wcSet (s : State) (h : Head) (b : BodyW) : WcSetReq :=
  ⟨((s.ctx h.arr h.stream).sreg b.reg.toNat).toNat, b.tag.toNat, s.cycle + s.lat 0x29⟩

theorem exec_wcset (h : Head) (b : BodyW) (s : State) :
    exec (.wcset h b) s = issue h (s.wcsetInfo h b) (fun _ t =>
      if (s.ctx h.arr h.stream).recompute.isSome then t
      else t.modCounter b.counter.toNat (fun w => { w with sets := w.sets ++ [s.wcSet h b] })) s := rfl

/-- A WCSET of one of the 16 counters issues. -/
theorem State.wcset_issuesClean {s : State} {h : Head} {b : BodyW} (hc : s.clear h [b.reg.toNat] = true) (hcounter : b.counter.toNat < 16) :
    s.issuesClean h (s.wcsetInfo h b) 0 :=
  State.issuesClean_of hc (mem_allStreams _) rfl nofun rfl rfl nofun rfl rfl nofun (by simp [State.wcsetInfo, Nat.not_le.2 hcounter])

/-! ### What a counter decides (R273) -/

section
variable {w : WorkCounter} {q : WcRequest}

/-- A request whose tag is logged for its requester gets the same grant. -/
theorem WorkCounter.judge_retry {l : WcLog} {elastic : Bool} (hl : w.log.find? (fun l => l.tag == q.tag) = some l) (hr : l.requester = q.requester) :
    w.judge elastic q = .retry l.grant := by
  simp [WorkCounter.judge, hl, hr]

/-- The expected request without an overflow is granted. -/
theorem WorkCounter.judge_grant (hl : w.log.find? (fun l => l.tag == q.tag) = none) (htag : q.tag = w.e) (hfits : w.value + q.n < 2 ^ 64) :
    w.judge false q = .grant := by
  simp only [WorkCounter.judge, hl]
  simpa [htag] using hfits

/-- A request ahead of its turn waits. -/
theorem WorkCounter.judge_wait (hl : w.log.find? (fun l => l.tag == q.tag) = none) (htag : w.e < q.tag) : w.judge false q = .wait := by
  simp [WorkCounter.judge, hl, htag, Nat.not_lt.2 (Nat.le_of_lt htag)]

/-- A grant is the last entry of the log. -/
theorem WorkCounter.granted_last (elastic : Bool) : (w.granted elastic q).log.getLast? = some ⟨q.tag, q.requester, w.value⟩ := by
  simp [WorkCounter.granted]

end

/-! ### WORK_COUNTER_REQUEST (R272 to R277) -/

theorem State.counter_modCounter (s : State) {c : Nat} (hc : c < s.wct.length) (g : WorkCounter → WorkCounter) :
    (s.modCounter c g).counter c = g (s.counter c) := by
  simp [State.counter, State.modCounter, List.getD_eq_getElem?_getD, hc]

/-- A counter is told by the list of counters. -/
theorem State.counter_of_wct {s t : State} (h : t.wct = s.wct) (c : Nat) : t.counter c = s.counter c := congrArg (·.getD c WorkCounter.reset) h

/-- The counter handled, one of its registers counted, and a grant written. -/
def State.answerRequest (s : State) (c : Nat) (g : WorkCounter → WorkCounter) (off : Nat) (q : WcRequest) (grant : Nat) : State :=
  ((s.modCounter c g).bump off 1).writeGrant q grant

section
variable {s : State} {c : Nat} (g : WorkCounter → WorkCounter) (off : Nat) {q : WcRequest} (grant : Nat)

theorem State.counter_answerRequest (hc : c < s.wct.length) : (s.answerRequest c g off q grant).counter c = g (s.counter c) :=
  (State.counter_of_wct ((s.modCounter c g).bump_wct off 1) c).trans (s.counter_modCounter hc g)

theorem State.answerRequest_mem : (s.answerRequest c g off q grant).mem = s.mem := (s.modCounter c g).bump_mem off 1

theorem State.arr_countedRequest (n : Nat) : ((s.modCounter c g).bump off 1).arr n = s.arr n :=
  State.arr_of_arrays ((s.modCounter c g).bump_arrays off 1) n

/-- The grant stands in its register (R271). -/
theorem State.ctx_answerRequest (hl : q.arr < s.arrays.length) :
    (s.answerRequest c g off q grant).ctx q.arr q.stream = { s.ctx q.arr q.stream with
      sregs := (s.ctx q.arr q.stream).sregs.set q.rd (BitVec.ofNat 64 grant) } := by
  have counted : q.arr < ((s.modCounter c g).bump off 1).arrays.length := ((s.modCounter c g).bump_arrays off 1).symm ▸ hl
  rw [State.answerRequest, State.writeGrant, State.ctx_modCtx_same _ _ _ _ (by simpa [State.dropOp] using counted), State.dropOp,
    State.ctx_modArr (fun _ st => by cases st <;> rfl), State.ctx, State.arr_countedRequest]
  rfl

/-- The WCREQ has left its slot (R271). -/
theorem State.ops_answerRequest (hl : q.arr < s.arrays.length) :
    ((s.answerRequest c g off q grant).arr q.arr).ops = (s.arr q.arr).ops.filter (fun y => y.slot != q.slot) := by
  have counted : q.arr < ((s.modCounter c g).bump off 1).arrays.length := ((s.modCounter c g).bump_arrays off 1).symm ▸ hl
  rw [State.answerRequest, State.writeGrant, State.modCtx, State.arr_modArr_same _ _ _ (by simpa [State.dropOp] using counted), State.dropOp,
    State.arr_modArr_same _ _ _ counted, State.arr_countedRequest]
  cases q.stream <;> rfl

end

section
variable {s : State} {c : Nat}

/-- A WCSET that is due takes effect. -/
theorem exec_workCounterRequest_sets {x : WcSetReq} (hx : s.dueSet c = some x) :
    exec (.workCounterRequest c) s =
      .next { s with wct := s.wct.modify c (fun w => { w with value := x.value, e := x.tag, log := [], sets := w.sets.drop 1 }) } := by
  show execWorkCounterRequest c s = _
  simp only [execWorkCounterRequest, hx]
  rfl

variable {q : WcRequest} (hset : s.dueSet c = none) (hq : s.nextRequest c = some q) (hat : q.at_ + s.lat 0x28 ≤ s.cycle)
include hset hq hat

/-- Otherwise the counter's next request, once it is due, is handled. -/
theorem exec_workCounterRequest_handles : exec (.workCounterRequest c) s = .next (s.handleRequest c q) := by
  show execWorkCounterRequest c s = _
  simp [execWorkCounterRequest, hset, hq, State.requestDue, hat]

/-- What is left of a request that is granted in order. -/
theorem exec_workCounterRequest_grants (hel : s.elastic c = false) (hj : (s.counter c).judge false q = .grant) :
    exec (.workCounterRequest c) s =
      .next (s.answerRequest c (fun w => (w.without q).granted false q) (wctBase c + Reg.WCT_GRANTS) q (s.counter c).value) := by
  rw [exec_workCounterRequest_handles hset hq hat]
  simp [State.handleRequest, State.answerRequest, hel, hj]

theorem exec_workCounterRequest_repeats {g : Nat} (hj : (s.counter c).judge (s.elastic c) q = .retry g) :
    exec (.workCounterRequest c) s = .next (s.answerRequest c (·.without q) (wctBase c + Reg.WCT_RETRIES) q g) := by
  rw [exec_workCounterRequest_handles hset hq hat]
  simp [State.handleRequest, State.answerRequest, hj]

theorem exec_workCounterRequest_waits (hj : (s.counter c).judge (s.elastic c) q = .wait) :
    exec (.workCounterRequest c) s = .next (s.modCounter c (fun w => { w.without q with table := w.table.erase q ++ [q] })) := by
  rw [exec_workCounterRequest_handles hset hq hat]
  simp [State.handleRequest, hj]

end

/-- Settles O26: WCREQ and WCSET issue and leave their request in the counter; a counter's next step is a due WCSET, a grant, a repeated grant or a wait. -/
theorem workCounters : Obligations.WorkCounters := by
  unfold Obligations.WorkCounters
  refine ⟨fun h b s hc hcounter _ => ⟨fun k hslot hn hu => ?_, fun hnone => ?_, fun hrec => ?_⟩,
    fun c s hlt => ⟨fun x hx => exec_workCounterRequest_sets hx, fun q hset hq hat hel hl => ⟨fun hlog htag hfits => ?_, fun l hlog hr => ?_, fun hlog htag => ?_⟩⟩⟩
  · have hi : s.issuesClean h (s.wcreqInfo h b) k := State.issuesClean_of hc (mem_allStreams _) rfl nofun rfl rfl nofun rfl hslot nofun
      (by simp [State.wcreqInfo, State.wcreqCheck_none hcounter hn hu])
    obtain ⟨t, ht, moved, hops, counters, mem, others⟩ := exec_wcreq_clean hi
    exact ⟨t, _, s.wcRequest h b k, ht, hops, ⟨rfl, rfl, rfl, rfl, rfl, rfl, rfl, rfl⟩, rfl, moved, counters, rfl, rfl, rfl, rfl, rfl, rfl, mem, others⟩
  · have hi := State.wcset_issuesClean hc hcounter
    have heffect := (exec_wcset h b s).trans (issue_clean _ hi)
    have counters := State.modCounter_wct (State.issued_wct s h (s.wcsetInfo h b)) b.counter.toNat (fun w => { w with sets := w.sets ++ [s.wcSet h b] })
    simp only [hnone, Option.isSome_none, Bool.false_eq_true, if_false] at heffect
    exact ⟨_, s.wcSet h b, heffect, (s.movedOn_issued h (s.wcsetInfo h b) hi.lt rfl).of_arrays rfl, counters, rfl, rfl,
      State.issued_mem s h (s.wcsetInfo h b), fun m hm => State.issued_arr_ne s h (s.wcsetInfo h b) m hm⟩
  · have hi := State.wcset_issuesClean hc hcounter
    have heffect := (exec_wcset h b s).trans (issue_clean _ hi)
    simp only [hrec, if_true] at heffect
    exact ⟨_, heffect, s.onlyStream_issued h _ hi.lt, State.issued_wct s h _⟩
  · have heffect := exec_workCounterRequest_grants hset hq hat hel (WorkCounter.judge_grant hlog htag hfits)
    have counter := State.counter_answerRequest (fun w => (w.without q).granted false q) (wctBase c + Reg.WCT_GRANTS) (q := q) (s.counter c).value hlt
    refine ⟨_, heffect, by rw [counter]; rfl, by rw [counter]; rfl, ?_, State.ctx_answerRequest _ _ _ hl, State.ops_answerRequest _ _ _ hl,
      State.answerRequest_mem _ _ _⟩
    rw [counter]
    exact WorkCounter.granted_last (w := (s.counter c).without q) false
  · have hj : (s.counter c).judge (s.elastic c) q = .retry l.grant := WorkCounter.judge_retry hlog hr
    have heffect := exec_workCounterRequest_repeats hset hq hat hj
    have counter := State.counter_answerRequest (·.without q) (wctBase c + Reg.WCT_RETRIES) (q := q) l.grant hlt
    exact ⟨_, heffect, by rw [counter]; rfl, by rw [counter]; rfl, State.ctx_answerRequest _ _ _ hl⟩
  · have hj : (s.counter c).judge (s.elastic c) q = .wait := hel ▸ WorkCounter.judge_wait hlog htag
    have heffect := exec_workCounterRequest_waits hset hq hat hj
    have counter := s.counter_modCounter hlt (fun w => { w.without q with table := w.table.erase q ++ [q] })
    refine ⟨_, heffect, by rw [counter]; rfl, by rw [counter]; rfl, by rw [counter]; simp, rfl⟩

end Sys2Proof.Machine
end

section
/-! The last write of a DFILL in a block that does not correct (R216, R217, R303): its fault forms a STOP report about the module itself, and the report retires the receive of a context whose partner is the module, whose buffer becomes free values (R340). These bytes are none that the descriptor writes, so the frame of O21 fails. -/

namespace Sys2Proof.Machine

/-! ### DESCRIPTOR_COMPLETE of a fill (R303) -/

/-- A zero fill whose transfer time has passed writes its zeros and frees its lane. -/
theorem exec_descriptorComplete_fills {s : State} {arr : Nat} {l : Lane} (hl : (s.arr arr).lane = some l) (hkind : l.desc.kind = .fill)
    (hfetched : l.fetched = true) (htiles : l.tiles = []) (hat : l.readyAt ≤ s.cycle) (hlack : s.lacking l.desc.step (l.desc.lastSpans s.mem) = [])
    (hfar : s.tiers.soft = []) (hnear : s.tiers.nearSoft = []) :
    exec (.descriptorComplete arr) s =
      .next ((s.putMem l.desc.dst (zeros l.desc.len)).modArr arr (fun a => { a with lane := none })) := by
  show execDescriptorComplete arr s = _
  simp [execDescriptorComplete, hl, hfetched, htiles, Nat.not_lt.2 hat, hkind, Desc.moveReads, State.eccRanges, State.corrected_of_no_errors hfar hnear,
    State.journaled, hlack, State.moved]

/-! ### A fill of bytes in an uncorrectable block -/

/-- A zero fill of 32 bytes at 0x480000, from the F stream of array 0. -/
def badFill : Desc where
  kind := .fill
  arr := 0
  stream := .f
  opcode := 0x46
  pc := 0
  mark := 0
  due := 0
  step := 0
  late := false
  seq := 0
  misaligned := false
  src := 0
  srcFmt := 0
  srcKind := 0
  srcAxis := false
  srcZero := false
  srcPay := 0
  dst := 0x480000
  dstFmt := 0
  dstKind := 0
  dstAxis := false
  dstZero := false
  dstPay := 0
  mask := 0
  r0 := 0
  r1 := 0
  j0 := 0
  j1 := 0
  stride := 0
  len := 32
  positions := 0
  vtag := 0
  objs := []

/-- Its lane, before the last write. -/
def fillLane : Lane := ⟨badFill, true, false, [], 0, []⟩

/-- The module of `State.badBlock`, whose block at 0x480000 does not correct, with that fill on the lane of array 0. -/
def State.filling (v : Byte) : State := (State.badBlock v).modArr 0 (fun a => { a with lane := some fillLane })

/-- The module meets the invariant. -/
theorem State.filling_inv (v : Byte) : (State.filling v).InvTo 0 := (State.badBlock_inv v).modArr

/-- The fault of the write of the fill. -/
def fillFault (v : Byte) : FaultRec := (State.filling v).mergeFault 0x480000 32 (0x480000 / 2048)

/-- What its report enters. -/
def fillReport (v : Byte) : State × Option Merge := (State.filling v).reporting (fillFault v)

/-- The write lands nowhere and faults (R217). -/
theorem State.filling_putMem {v : Byte} (hv : v ∈ [1#8, 2#8]) :
    (State.filling v).putMem 0x480000 (zeros 32) = (State.filling v).raise (fillFault v) := by
  have bad : ∀ v ∈ [1#8, 2#8], (State.filling v).unmergeable 0x480000 32 = [0x480000 / 2048] := by decide +kernel
  exact State.putMem_unmergeable (a := 0x480000) (bs := zeros 32) rfl rfl (bad v hv) rfl

/-- The fault reports the module itself, in the entry `loopMerge`, and the report acts (R340, R427). -/
theorem State.filling_acts {v : Byte} (hv : v ∈ [1#8, 2#8]) :
    (State.filling v).raise (fillFault v) = (fillReport v).1.actOn loopMerge := by
  have reports : ∀ v ∈ [1#8, 2#8], ((State.filling v).recordFault (fillFault v)).host.st = .running ∧
      ((State.filling v).recordFault (fillFault v)).flt.beaconSent = false ∧ (fillReport v).2 = some loopMerge ∧
      (fillReport v).1.losesTwin loopMerge = false := by decide +kernel
  obtain ⟨hrun, hfirst, hentry, htwin⟩ := reports v hv
  exact State.raise_acts hrun hfirst hentry rfl htwin

/-- After the write the first byte of the receive's buffer is a free value, whatever it was. -/
theorem State.filling_freeByte {v : Byte} (hv : v ∈ [1#8, 2#8]) :
    memByte ((State.filling v).putMem 0x480000 (zeros 32)).mem 0x400000 = Config.freeByte 0 := by
  have receive : ∀ v ∈ [1#8, 2#8], (fillReport v).1.recvsWith 0 = [loopRecv] ∧ (fillReport v).1.freeCtr = 0 := by decide +kernel
  obtain ⟨hrecv, hctr⟩ := receive v hv
  have released : memByte ((fillReport v).1.actOn loopMerge).mem loopRecv.buf = Config.freeByte (fillReport v).1.freeCtr :=
    State.actOn_firstByte (e := loopMerge) (State.filling_inv v).reporting.mem hrecv (by decide)
  rw [State.filling_putMem hv, State.filling_acts hv, ← hctr]
  exact released

/-- The fill is at its last write, for which no journal copy lacks, and the first byte of the receive's buffer is `v`. -/
theorem State.filling_ends : ∀ v ∈ [1#8, 2#8], ((State.filling v).arr 0).lane = some fillLane ∧
    (State.filling v).lacking 0 (badFill.lastSpans (State.filling v).mem) = [] ∧ memByte (State.filling v).mem 0x400000 = v ∧
    ∀ w ∈ badFill.lastSpans (State.filling v).mem, 0x400000 < w.1 ∨ w.1 + w.2 ≤ 0x400000 := by decide +kernel

/-- O21 would keep that byte. -/
theorem State.filling_kept (hall : Obligations.DmaWork) {v : Byte} (hv : v ∈ [1#8, 2#8]) :
    memByte ((State.filling v).putMem 0x480000 (zeros 32)).mem 0x400000 = v := by
  unfold Obligations.DmaWork at hall
  obtain ⟨-, -, -, hcomplete⟩ := hall
  obtain ⟨hlane, hlack, hbyte, hspans⟩ := State.filling_ends v hv
  have inModule : 0 < (State.filling v).arrays.length := by simp [(State.filling_inv v).arrays]
  obtain ⟨t, ht, -, -, -, hframe⟩ := hcomplete 0 fillLane (State.filling v) inModule hlane rfl rfl (Nat.zero_le _) nofun rfl hlack
  obtain ⟨hkeeps, -⟩ := hframe (State.filling_inv v).mem nofun
  have effect := exec_descriptorComplete_fills hlane (by rfl) (by rfl) (by rfl) (Nat.zero_le _) hlack (by rfl) (by rfl)
  have heffect := Host.Outcome.next.inj (effect.symm.trans ht)
  have kept := hkeeps 0x400000 hspans
  rw [← heffect, State.modArr_mem] at kept
  exact kept.trans hbyte

/-- Refutes O21: where the bytes of a DFILL lie in a block that does not correct, their write faults (R217), and in a running module the STOP report of the fault retires the receive of a context whose partner is the module itself, whose buffer becomes free values (R340); the statement lets no byte outside the range of the fill change. The free value is the same for two modules that differ in the first byte of that buffer alone, so one of them refutes the frame. -/
theorem not_dmaWork : ¬ Obligations.DmaWork := by
  intro hall
  have one : Config.freeByte 0 = 1#8 := (State.filling_freeByte (by decide)).symm.trans (State.filling_kept hall (by decide))
  have two : Config.freeByte 0 = 2#8 := (State.filling_freeByte (by decide)).symm.trans (State.filling_kept hall (by decide))
  exact absurd (one.symm.trans two) (by decide)

end Sys2Proof.Machine
end

section
/-! A RESUME in place of a module on which a failed array awaits a spare (R16, R394). The restart serves it, as a step boundary does, and the event of the substitution goes to the host's queue before the reply; the clause of O55 on RESUME with mode 0 promises the reply and its interrupt alone, where the clause on mode 1 asks that no array awaits a spare. -/

namespace Sys2Proof.Machine

/-! ### RESUME in place (R351, R394) -/

/-- An accepted restart takes place at once where nothing is in flight and no reload or spare is asked for (R351). -/
theorem State.acceptRestart_now {s : State} {r : Restart} (hspare : s.host.noSpare = false) (hreload : s.host.reload = false)
    (hq : s.nothingInFlight = true) :
    s.acceptRestart r = ({ s with host := { s.host with restart := some r } } : State).restartNow r := by
  have goesOn : (s.host.noSpare || s.host.reload) ≠ true := by simp [hspare, hreload]
  exact (if_neg goesOn).trans (if_pos hq)

/-- A RESUME with mode 0 that nothing refuses restarts the held step once nothing is in flight. -/
theorem exec_resume_inPlace {s : State} {c : CmdHdr} {step : BitVec 48} {tick : BitVec 64} (ht : s.takes c) (hst : s.host.st = .held)
    (hspare : s.host.noSpare = false) (hreload : s.host.reload = false) (hr : s.resumeRefusal false step.toNat tick.toNat = none)
    (hq : s.nothingInFlight = true) :
    exec (.resume c 0 0 step tick) s =
      .next (({ s with host := { s.host with restart := some ⟨some c, false, false, step.toNat, tick.toNat⟩ } } : State).restartNow
        ⟨some c, false, false, step.toNat, tick.toNat⟩) := by
  show execResume c 0 0 step tick s = _
  have legal : s.host.st ∈ [ModState.held, .stopped, .ready] := by simp [hst]
  simp [execResume, State.cmdResume, State.command_takes ht _ legal, hr, State.acceptRestart_now hspare hreload hq]

/-! ### A held module with a failed array -/

/-- A module in HELD on which logical array 0 awaits a spare for its failed position 0, with an event queue of 64 entries in host memory at 0x10000. -/
def State.awaitingSpare : State :=
  { State.reset with
    host := { HostIf.reset with
      st := .held
      bootDone := true
      substWaiting := [(0, 0)]
      pcie := { Pcie.reset with link := { Pcie.reset.link with width := 16 } } }
    flt := { Faults.reset with eqAddr := some 0x10000, eqSize := 64 } }

/-- A command without an interrupt, replied to at address 64. -/
def quietHdr : CmdHdr := ⟨false, 7, 64⟩

/-- Sage takes the command. -/
theorem State.awaitingSpare_takes : State.awaitingSpare.takes quietHdr := by
  unfold State.takes
  decide +kernel

/-- Nothing is in flight, and a RESUME of the module's step is not refused. -/
theorem State.awaitingSpare_resumes : State.awaitingSpare.nothingInFlight = true ∧ State.awaitingSpare.resumeRefusal false 0 0 = none := by
  decide +kernel

/-- The restart of that RESUME. -/
def State.resumedInPlace : State :=
  ({ State.awaitingSpare with host := { State.awaitingSpare.host with restart := some ⟨some quietHdr, false, false, 0, 0⟩ } } : State).restartNow
    ⟨some quietHdr, false, false, 0, 0⟩

/-- The restart puts the spare in place, and the event of the substitution is signalled (R16, R435). -/
theorem State.resumedInPlace_signals : State.resumedInPlace.dev.subst = [(0, 0, 64)] ∧ State.resumedInPlace.flt.msix = [1] := by decide +kernel

/-- Refutes O55: a RESUME with mode 0 on a module where a failed array awaits a spare is accepted and serves the array (R16), whose event 0xA0 is written to the host's queue and signalled beside the reply; the statement lets the command without an interrupt signal nothing. -/
theorem not_runControl : ¬ Obligations.RunControl := by
  intro hall
  unfold Obligations.RunControl at hall
  obtain ⟨-, hinPlace, -⟩ := hall
  obtain ⟨hquiet, haccept⟩ := State.awaitingSpare_resumes
  obtain ⟨hnow, -⟩ := hinPlace quietHdr 0 0 State.awaitingSpare State.awaitingSpare_takes (.inl rfl) haccept
  obtain ⟨t, ht, ⟨-, hsignals⟩, -⟩ := hnow hquiet
  have effect : exec (.resume quietHdr 0 0 0 0) State.awaitingSpare = .next State.resumedInPlace :=
    exec_resume_inPlace State.awaitingSpare_takes rfl rfl rfl haccept hquiet
  have hfinal : State.resumedInPlace = t := Host.Outcome.next.inj (effect.symm.trans ht)
  obtain ⟨-, hone⟩ := State.resumedInPlace_signals
  have none : State.resumedInPlace.flt.msix = [] := (congrArg (·.flt.msix) hfinal).trans hsignals
  exact absurd (hone.symm.trans none) (by decide)

end Sys2Proof.Machine
end

section
/-! Instructions whose whole effect is on the context of their own stream: the ALU instructions, SLI, SLIH, NOP and END (R267, R291, R292), the branches (R142, R144, R293), SETBASE and SETVER (R294); O8, O9 and O12. -/

namespace Sys2Proof.Machine

/-! ### Contexts past an instruction (R142, R293) -/

@[simp] theorem StreamCtx.past_sregs (c : StreamCtx) : c.past.sregs = c.sregs := by unfold StreamCtx.past; split <;> rfl

@[simp] theorem StreamCtx.past_abs (c : StreamCtx) : c.past.abs = c.abs := by unfold StreamCtx.past; split <;> rfl

/-- Outside a recompute a stream is past an instruction at the next one. -/
theorem StreamCtx.past_of_none {c : StreamCtx} (hc : c.recompute = none) : c.past = { c with pc := c.pc + 16, head := none } := by
  simp [StreamCtx.past, StreamCtx.lastOfRange, hc]

/-! ### Issue of an instruction that changes its own context -/

section
variable {s : State} {h : Head} {i : IssueInfo}

/-- Without an effect of its own an instruction leaves what issue leaves: its stream is past it. -/
theorem issue_past (hi : s.issuesClean h i 0) (ht : i.target = none) :
    ∃ t, issue h i (fun _ t => t) s = .next t ∧ s.onlyStream t h ∧ (t.ctx h.arr h.stream).sameAs (s.ctx h.arr h.stream).past :=
  ⟨_, issue_clean _ hi, s.onlyStream_issued h i hi.lt, s.issued_past h i hi.lt ht⟩

/-- An instruction whose own effect is the update `g` of its context, which makes `d` of the context past the instruction, up to the cycle of the next issue. -/
theorem issue_updates {act : Nat → State → State} {g : StreamCtx → StreamCtx} {d : StreamCtx} (hi : s.issuesClean h i 0) (ht : i.target = none)
    (hact : act 0 (s.issued h i) = (s.issued h i).modCtx h.arr h.stream g)
    (hg : ∀ n, (g { (s.ctx h.arr h.stream).past with notBefore := n }).sameAs d) :
    ∃ t, issue h i act s = .next t ∧ s.onlyStream t h ∧ (t.ctx h.arr h.stream).sameAs d := by
  have hl := hi.lt
  have past : (s.issued h i).ctx h.arr h.stream = _ := s.issued_past h i hl ht
  refine ⟨_, issue_clean act hi, hact ▸ (s.onlyStream_issued h i hl).modCtx hl g, ?_⟩
  rw [hact, State.ctx_modCtx_same _ _ _ _ (by simpa using hl), past]
  exact hg _

/-- An instruction with no needs but its registers issues from a clear stream. -/
theorem State.simple_issuesClean {opcode : Nat} {regs : List Nat} (hc : s.clear h regs = true) :
    s.issuesClean h (IssueInfo.simple opcode regs) 0 :=
  State.issuesClean_of hc (mem_allStreams _) rfl nofun rfl rfl nofun rfl rfl nofun rfl

/-- The write of a scalar result by such an instruction. -/
theorem issue_writesScalar {opcode rd : Nat} {regs : List Nat} {v : W64} (hc : s.clear h regs = true) :
    ∃ t, issue h (IssueInfo.simple opcode regs) (fun _ t => t.writeScalar h rd v) s = .next t ∧ s.onlyStream t h ∧
      (t.ctx h.arr h.stream).sameAs { (s.ctx h.arr h.stream).past with sregs := (s.ctx h.arr h.stream).sregs.set rd v } := by
  refine issue_updates (State.simple_issuesClean hc) rfl rfl fun n => ?_
  simp [StreamCtx.sameAs, StreamCtx.setSreg]

end

/-! ### ALU instructions, SLI, SLIH, NOP and END (R267, R291, R292) -/

/-- The result of an ALU instruction in its register (R292). -/
theorem alu_result (opcode : Nat) (f : W64 → W64 → W64) (h : Head) (b : BodyR) (s : State)
    (hc : s.clear h ([b.rd.toNat, b.rs1.toNat] ++ if h.mod.getLsbD 0 then [] else [b.rs2.toNat]) = true) :
    ∃ t, alu opcode f h b s = .next t ∧ s.onlyStream t h ∧ (t.ctx h.arr h.stream).sameAs
      { (s.ctx h.arr h.stream).past with
        sregs := (s.ctx h.arr h.stream).sregs.set b.rd.toNat
          (f ((s.ctx h.arr h.stream).sregs.getD b.rs1.toNat 0)
            (if h.mod.getLsbD 0 then b.imm.signExtend 64 else (s.ctx h.arr h.stream).sregs.getD b.rs2.toNat 0)) } :=
  issue_writesScalar hc

/-- What SLIH writes, in numbers. -/
theorem slihValue_eq (old : W64) (imm : BitVec 32) : slihValue old imm = BitVec.ofNat 64 (imm.toNat * 2 ^ 32 + old.toNat % 2 ^ 32) := by
  apply BitVec.eq_of_toNat_eq
  have himm := imm.isLt
  have hlow : old.toNat % 2 ^ 32 < 2 ^ 32 := Nat.mod_lt _ (by decide)
  have joined : (slihValue old imm).toNat = imm.toNat <<< 32 ||| old.toNat % 2 ^ 32 := by
    simp only [slihValue, BitVec.toNat_append, BitVec.truncate_eq_setWidth, BitVec.toNat_setWidth]
  have fits : imm.toNat * 2 ^ 32 + old.toNat % 2 ^ 32 < 2 ^ 64 := by omega
  rw [joined, ← Nat.shiftLeft_add_eq_or_of_lt hlow, Nat.shiftLeft_eq, BitVec.toNat_ofNat, Nat.mod_eq_of_lt fits]

/-- END outside a recompute stops its stream behind itself (R267). -/
theorem exec_endStream_ends {s : State} {h : Head} (hc : s.clear h [] = true) (hr : (s.ctx h.arr h.stream).recompute = none) :
    ∃ t, exec (.endStream h) s = .next t ∧ s.onlyStream t h ∧ (t.ctx h.arr h.stream).sameAs
      { s.ctx h.arr h.stream with pc := (s.ctx h.arr h.stream).pc + 16, head := none, st := .ended } := by
  have hi : s.issuesClean h endInfo 0 := State.issuesClean_of hc (mem_allStreams _) rfl (fun _ => hr) rfl rfl nofun rfl rfl nofun rfl
  rw [exec_endStream]
  refine issue_updates hi rfl rfl fun n => ?_
  simp [StreamCtx.sameAs, StreamCtx.past_of_none hr]

/-- Settles O8: each instruction issues, and its own effect writes one register or ends the stream. -/
theorem scalarResults : Obligations.ScalarResults := by
  unfold Obligations.ScalarResults
  refine ⟨?_, fun h b s hc => ⟨issue_writesScalar hc, ?_⟩, fun h s hc => ⟨issue_past (State.simple_issuesClean hc) rfl, exec_endStream_ends hc⟩⟩
  · simp only [List.forall_mem_cons, List.not_mem_nil, false_implies, implies_true, and_true]
    exact ⟨alu_result 0x10 (· + ·), alu_result 0x11 (· - ·), alu_result 0x12 (· * ·), alu_result 0x13 (· &&& ·), alu_result 0x14 (· ||| ·),
      alu_result 0x15 (· ^^^ ·), alu_result 0x16 (fun a x => a <<< (x.toNat % 64)), alu_result 0x17 (fun a x => a >>> (x.toNat % 64)),
      alu_result 0x18 (fun a x => a.sshiftRight (x.toNat % 64))⟩
  · rw [← slihValue_eq]
    exact issue_writesScalar hc

/-! ### Branches (R142, R144, R293) -/

/-- A branch past its checks. -/
def branchInfo (opcode : Nat) (regs : List Nat) (b : BodyB) (taken : Bool) : IssueInfo :=
  { IssueInfo.simple opcode regs with target := if taken then some b.target.toNat else none }

section
variable {s : State} {h : Head} {b : BodyB} {opcode : Nat} {regs : List Nat} {taken : Bool}

/-- A branch whose target stays inside a recompute, or that no recompute binds, issues from a clear stream. -/
theorem State.branch_issuesClean (hc : s.clear h regs = true) (hin : taken = true → (s.ctx h.arr h.stream).leavesRange b.target.toNat = false) :
    s.issuesClean h (branchInfo opcode regs b taken) 0 := by
  refine State.issuesClean_of hc (mem_allStreams _) rfl nofun rfl rfl nofun rfl rfl (fun t ht => ?_) rfl
  cases taken with
  | false => cases ht
  | true => exact Option.some.inj ht ▸ hin rfl

/-- A branch that issues leaves what issue leaves. -/
theorem branch_clean (hc : s.clear h regs = true) (hin : taken = true → (s.ctx h.arr h.stream).leavesRange b.target.toNat = false) :
    branch opcode h b regs taken s = .next (s.issued h (branchInfo opcode regs b taken)) :=
  issue_clean (fun _ t => t) (State.branch_issuesClean hc hin)

/-- Outside a recompute a branch goes to its target when it is taken, after the branch penalty, and to the next instruction otherwise. -/
theorem branch_result {P : Prop} (hc : s.clear h regs = true) (hr : (s.ctx h.arr h.stream).recompute = none) (hP : taken = true ↔ P) :
    ∃ t, branch opcode h b regs taken s = .next t ∧ s.onlyStream t h ∧
      (P → (t.ctx h.arr h.stream).sameAs { s.ctx h.arr h.stream with pc := b.target.toNat, head := none } ∧
        (t.ctx h.arr h.stream).notBefore = s.cycle + s.lat 0x33) ∧
      (¬ P → (t.ctx h.arr h.stream).sameAs { s.ctx h.arr h.stream with pc := (s.ctx h.arr h.stream).pc + 16, head := none }) := by
  have hl := State.clear_lt hc
  refine ⟨_, branch_clean hc fun _ => by simp [StreamCtx.leavesRange, hr], s.onlyStream_issued h _ hl, fun hp => ?_, fun hp => ?_⟩
  · rw [State.issued_ctx s h _ hl]
    simp [branchInfo, hP.2 hp, StreamCtx.movePc, hr, StreamCtx.sameAs]
  · have notTaken : taken = false := Bool.eq_false_iff.2 fun h => hp (hP.1 h)
    rw [← StreamCtx.past_of_none hr]
    exact s.issued_past h _ hl (by simp [branchInfo, notTaken])

end

/-- A branch out of a recompute's range faults before the issue checks (R144). -/
theorem verdict_leavesRange {s : State} {h : Head} {i : IssueInfo} {slot t : Nat} (hc : s.clear h i.sregs = true) (hdecode : s.decodeFault h i = none)
    (hrec : ∀ ref len, i.record = some (ref, len) → s.recordInside h ref len = true) (hk : i.hold = none)
    (hslot : (if i.needSlot then (s.arr h.arr).freeSlot h.stream else some 0) = some slot)
    (ht : i.target = some t) (hleaves : (s.ctx h.arr h.stream).leavesRange t = true) :
    s.verdict h i = .fault (s.issueFault h i.opcode i.object 0x24 0 0) := by
  obtain ⟨hready, -⟩ := State.clear_parts hc
  obtain ⟨hlive, hpenalty, -, hmark, hholds, -, hissue, hstep, hsreg, hyields⟩ := State.ready_parts hready
  unfold State.markOf at hholds hyields
  simp [State.verdict, hlive, Nat.not_lt.2 hpenalty, State.fetchFault_of_clear hc hrec, hmark, hholds, hdecode, hstep, hsreg, hk, hslot, hissue, hyields, ht,
    hleaves]

/-- An instruction with no needs but its registers decodes. -/
theorem State.decodes_of_clear {s : State} {h : Head} {i : IssueInfo} {regs : List Nat} (hc : s.clear h regs = true) (hs : h.stream ∈ i.streams)
    (hm : i.modOk = true) (hn : i.noRecompute = false) (hg : i.regsOk = true) (hd : i.decodeBad = none) (hk : i.check = none) :
    s.decodeFault h i = none := by
  obtain ⟨hready, -⟩ := State.clear_parts hc
  obtain ⟨-, -, -, -, -, hop, -⟩ := State.ready_parts hready
  exact State.decodeFault_eq_none.2 ⟨State.decodeRow_eq_none.2 ⟨hop, hs, hm, by simp [hn], hg, hd⟩, by simp [IssueInfo.formatFault, hk]⟩

section
variable {s : State} {h : Head} {b : BodyB} {r : Recompute} (hc : s.clear h [] = true) (hr : (s.ctx h.arr h.stream).recompute = some r)
include hc hr

/-- BR inside a recompute's range. -/
theorem exec_br_stays (hlo : r.code ≤ b.target.toNat) (hhi : b.target.toNat < r.code + 16 * r.count) :
    ∃ t, exec (.br h b) s = .next t ∧ (t.ctx h.arr h.stream).pc = b.target.toNat ∧ (t.ctx h.arr h.stream).recompute = some r := by
  have inside : (s.ctx h.arr h.stream).leavesRange b.target.toNat = false := by simp [StreamCtx.leavesRange, hr]; omega
  refine ⟨_, branch_clean hc fun _ => inside, ?_⟩
  rw [State.issued_ctx s h _ (State.clear_lt hc)]
  simp [branchInfo, StreamCtx.movePc, hr, Nat.ne_of_lt hhi]

/-- BR to the end of the range returns from the recompute (R142). -/
theorem exec_br_returns (hend : b.target.toNat = r.code + 16 * r.count) :
    ∃ t, exec (.br h b) s = .next t ∧ (t.ctx h.arr h.stream).pc = r.ret ∧ (t.ctx h.arr h.stream).recompute = none := by
  have inside : (s.ctx h.arr h.stream).leavesRange b.target.toNat = false := by simp [StreamCtx.leavesRange, hr, hend]
  refine ⟨_, branch_clean hc fun _ => inside, ?_⟩
  rw [State.issued_ctx s h _ (State.clear_lt hc)]
  simp [branchInfo, StreamCtx.movePc, hr, hend]

/-- BR out of the range faults (R144). -/
theorem exec_br_leaves (hout : b.target.toNat < r.code ∨ r.code + 16 * r.count < b.target.toNat) :
    exec (.br h b) s = .next (s.faultHead h (s.issueFault h 0x08 0xFFFF 0x24 0 0)) := by
  have leaves : (s.ctx h.arr h.stream).leavesRange b.target.toNat = true := by simpa [StreamCtx.leavesRange, hr] using hout
  have decodes : s.decodeFault h (branchInfo 0x08 [] b true) = none := State.decodes_of_clear hc (mem_allStreams _) rfl rfl rfl rfl rfl
  exact issue_fault (fun _ t => t) (verdict_leavesRange hc decodes nofun rfl rfl rfl leaves)

end

/-- Settles O9: outside a recompute each branch is taken under its condition; inside one the target of BR lies in the range, at its end or outside. -/
theorem branches : Obligations.Branches := by
  unfold Obligations.Branches
  refine ⟨?_, fun h b r s hc hr => ⟨exec_br_stays hc hr, exec_br_returns hc hr, exec_br_leaves hc hr⟩⟩
  simp only [List.forall_mem_cons, List.not_mem_nil, false_implies, implies_true, and_true]
  exact ⟨fun h b s hc hr => branch_result (State.clear_of_regs hc nofun) hr (by simp),
    fun h b s hc hr => branch_result hc hr beq_iff_eq,
    fun h b s hc hr => branch_result hc hr bne_iff_ne,
    fun h b s hc hr => branch_result hc hr BitVec.ult_iff_lt,
    fun h b s hc hr => branch_result hc hr BitVec.slt_iff_toInt_lt⟩

/-! ### SETBASE and SETVER (R294) -/

/-- What SETBASE needs. -/
def setbaseInfo (h : Head) (b : BodyR) : IssueInfo :=
  { IssueInfo.simple 0x04 (if h.mod.getLsbD 0 then [] else [b.rs1.toNat]) with
    regsOk := b.rd.toNat < 16 && (!h.mod.getLsbD 0 || b.rs1.toNat < 16) }

/-- What SETBASE adds to its immediate. -/
def StreamCtx.setbaseSource (c : StreamCtx) (h : Head) (b : BodyR) : W64 :=
  if h.mod.getLsbD 0 then c.base_ (b.rs1.toNat % 16) else c.sreg b.rs1.toNat

theorem exec_setbase (h : Head) (b : BodyR) (s : State) :
    exec (.setbase h b) s = issue h (setbaseInfo h b) (fun _ t => t.modCtx h.arr h.stream (fun d =>
      { d with abs := d.abs.set b.rd.toNat ((s.ctx h.arr h.stream).setbaseSource h b + sext64 b.imm) })) s := rfl

/-- SETBASE of registers that exist writes its base register. -/
theorem exec_setbase_writes {s : State} {h : Head} {b : BodyR} (hc : s.clear h (if h.mod.getLsbD 0 then [] else [b.rs1.toNat]) = true)
    (hrd : b.rd.toNat < 16) (hrs : h.mod.getLsbD 0 = true → b.rs1.toNat < 16) :
    ∃ t, exec (.setbase h b) s = .next t ∧ s.onlyStream t h ∧ (t.ctx h.arr h.stream).sameAs
      { (s.ctx h.arr h.stream).past with
        abs := (s.ctx h.arr h.stream).abs.set b.rd.toNat ((s.ctx h.arr h.stream).setbaseSource h b + sext64 b.imm) } := by
  have exist : (setbaseInfo h b).regsOk = true := by
    cases hmod : h.mod.getLsbD 0 with
    | false => simp only [setbaseInfo, hmod, hrd]; rfl
    | true => simp only [setbaseInfo, hmod, hrd, hrs hmod]; rfl
  have hi : s.issuesClean h (setbaseInfo h b) 0 := State.issuesClean_of hc (mem_allStreams _) rfl nofun exist rfl nofun rfl rfl nofun rfl
  rw [exec_setbase]
  refine issue_updates hi rfl rfl fun n => ?_
  simp [StreamCtx.sameAs]

/-- A register that does not exist fails row 5 of R290. -/
theorem State.decodeRow_regs {s : State} {h : Head} {i : IssueInfo} (hc : s.clear h [] = true) (hs : h.stream ∈ i.streams)
    (hm : i.modOk = true) (hn : i.noRecompute = false) (hg : i.regsOk = false) : s.decodeRow h i = some 5 := by
  obtain ⟨hready, -⟩ := State.clear_parts hc
  obtain ⟨-, -, -, -, -, hop, -⟩ := State.ready_parts hready
  simp [State.decodeRow, hop, hs, hm, hn, hg]

/-- An instruction without a record that names such a register faults at decode. -/
theorem issue_noSuchRegister {s : State} {h : Head} {i : IssueInfo} (act : Nat → State → State) (hc : s.clear h [] = true) (hs : h.stream ∈ i.streams)
    (hm : i.modOk = true) (hn : i.noRecompute = false) (hrec : i.record = none) (hg : i.regsOk = false) :
    ∃ k, issue h i act s = .next (s.faultHead h k) ∧ k.code = 0x24 ∧ k.check = 5 :=
  ⟨_, issue_fault act (verdict_row hc (by simp [hrec]) (State.decodeRow_regs hc hs hm hn hg)), rfl, rfl⟩

theorem setbaseInfo_regsOk {h : Head} {b : BodyR} (hbad : 16 ≤ b.rd.toNat ∨ (h.mod.getLsbD 0 = true ∧ 16 ≤ b.rs1.toNat)) :
    (setbaseInfo h b).regsOk = false := by
  rcases hbad with hrd | ⟨hmod, hrs⟩
  · simp only [setbaseInfo, Nat.not_lt.2 hrd, decide_false, Bool.false_and]
  · simp only [setbaseInfo, hmod, Nat.not_lt.2 hrs, Bool.not_true, decide_false, Bool.or_self, Bool.and_false]

/-- What SETVER writes. -/
def StreamCtx.setverValue (c : StreamCtx) (h : Head) (b : BodyR) : W32 :=
  if h.mod.getLsbD 0 then (c.sreg b.rs1.toNat).truncate 32 else b.imm

theorem setverValue_eq (c : StreamCtx) (h : Head) (b : BodyR) :
    c.setverValue h b = if h.mod.getLsbD 0 then BitVec.ofNat 32 (c.sregs.getD b.rs1.toNat 0).toNat else b.imm := by
  rw [BitVec.ofNat_toNat]
  rfl

theorem exec_setver (h : Head) (b : BodyR) (s : State) :
    exec (.setver h b) s = issue h (IssueInfo.simple 0x05 (if h.mod.getLsbD 0 then [b.rs1.toNat] else []))
      (fun _ t => t.modCtx h.arr h.stream (fun d => { d with ver := (s.ctx h.arr h.stream).setverValue h b })) s := rfl

/-- Settles O12: SETBASE and SETVER update one field of their context; a register that does not exist is row 5 of decode. -/
theorem baseAndVersionResult : Obligations.BaseAndVersionResult := by
  unfold Obligations.BaseAndVersionResult
  refine fun h b s => ⟨fun hc hrd hrs => ?_, fun hc hbad => ?_, fun hc => ?_⟩
  · have source : (s.ctx h.arr h.stream).setbaseSource h b =
        if h.mod.getLsbD 0 then (s.ctx h.arr h.stream).abs.getD b.rs1.toNat 0 else (s.ctx h.arr h.stream).sregs.getD b.rs1.toNat 0 := by
      cases hmod : h.mod.getLsbD 0 with
      | false => simp only [StreamCtx.setbaseSource, hmod]; rfl
      | true => simp [StreamCtx.setbaseSource, hmod, StreamCtx.base_, Nat.mod_eq_of_lt (hrs hmod)]
    rw [← source]
    exact exec_setbase_writes hc hrd hrs
  · rw [exec_setbase]
    exact issue_noSuchRegister _ hc (mem_allStreams _) rfl rfl rfl (setbaseInfo_regsOk hbad)
  · rw [exec_setver, ← setverValue_eq]
    refine issue_updates (State.simple_issuesClean hc) rfl rfl fun n => ?_
    simp [StreamCtx.sameAs]

end Sys2Proof.Machine
end

section
/-! SLD and SST (R209, R216, R285, R288, R292, R310): what issues, what a load writes and where a store lands; O13, O14 and O15. -/

namespace Sys2Proof.Machine

/-! ### SLD at issue (R288, R292) -/

/-- What SLD needs. -/
def State.sldInfo (s : State) (h : Head) (b : BodyR) : IssueInfo :=
  { IssueInfo.simple 0x1B [b.rd.toNat] with
    regsOk := b.rs1.toNat < 16
    needSlot := true
    check := s.sCheck h 0x1B (s.sAddr h b) .read }

/-- The load as it takes its slot. -/
def State.sldOp (s : State) (h : Head) (b : BodyR) (slot : Nat) : Op :=
  { s.newOp h 0x1B slot 0xFFFF (s.cycle + s.lat 0x31) (.sld b.rd.toNat (s.sAddr h b) none) with
    sreg := some b.rd.toNat
    objs := (s.readObjs [(s.sAddr h b, 8)]).map (·.obj) }

theorem exec_sld (h : Head) (b : BodyR) (s : State) :
    exec (.sld h b) s = issue h (s.sldInfo h b) (fun slot t =>
      (t.recordUses h.arr (s.readObjs [(s.sAddr h b, 8)])).addOp h.arr (s.sldOp h b slot)) s := rfl

/-- The address of SLD and SST as 64-bit words give it (R285). -/
theorem State.sAddr_eq (s : State) (h : Head) (b : BodyR) :
    s.sAddr h b = ((s.ctx h.arr h.stream).abs.getD (b.rs1.toNat % 16) 0 + b.imm.zeroExtend 64).toNat := by
  have wide : (b.imm.zeroExtend 64).toNat = b.imm.toNat := BitVec.toNat_setWidth_of_le (by decide)
  rw [BitVec.toNat_add, wide]
  rfl

/-- An aligned address of its own slice in a permitted region passes the check of SLD and SST. -/
theorem State.sCheck_none {s : State} {h : Head} {opcode a : Nat} {acc : Access} (halign : a % 8 = 0) (hown : ownSlice h.arr a = true)
    (hallowed : s.allowed a 8 h.stream.idx acc false = true) : s.sCheck h opcode a acc = none := by
  simp [State.sCheck, halign, hown, hallowed]

section
variable {s : State} {h : Head} {b : BodyR} {k : Nat} (hrs : b.rs1.toNat < 16) (hslot : (s.arr h.arr).freeSlot h.stream = some k)
  (halign : s.sAddr h b % 8 = 0) (hown : ownSlice h.arr (s.sAddr h b) = true)
include hrs hslot halign hown

/-- A load from a permitted address issues and takes its slot. -/
theorem exec_sld_starts (hc : s.clear h [b.rd.toNat] = true) (hallowed : s.allowed (s.sAddr h b) 8 h.stream.idx .read false = true) :
    ∃ t, exec (.sld h b) s = .next t ∧ s.starts t h 0x1B k (s.sldOp h b k) := by
  have hi : s.issuesClean h (s.sldInfo h b) k :=
    State.issuesClean_of hc (mem_allStreams _) rfl nofun (decide_eq_true hrs) rfl nofun rfl hslot nofun (State.sCheck_none halign hown hallowed)
  have issued := (exec_sld h b s).trans (issue_clean _ hi)
  exact ⟨_, issued, State.starts_addOp hi.lt (s.onlyArray_issued h (s.sldInfo h b)).onlyWork (s.movedOn_issued h _ hi.lt rfl) (s.issued_ops h _ hi.lt)
    ⟨rfl, rfl, rfl, rfl, rfl, rfl, rfl, rfl⟩ _⟩

/-! ### SST at issue (R292, R348) -/

/-- The store as it takes its slot. -/
def State.sstOp (s : State) (h : Head) (b : BodyR) (slot : Nat) : Op :=
  { s.newOp h 0x1C slot 0xFFFF (s.cycle + s.lat 0x32) (.sst (s.sAddr h b) ((s.ctx h.arr h.stream).sreg b.rs2.toNat)) with
    objs := (s.readObjs [(s.sAddr h b, 8)]).map (·.obj) }

omit hrs hslot halign hown in
theorem exec_sst (h : Head) (b : BodyR) (s : State) :
    exec (.sst h b) s = issue h (s.sstInfo h b) (fun slot t => t.addOp h.arr (s.sstOp h b slot)) s := rfl

/-- A store to a permitted address whose journal block is copied issues and takes its slot. -/
theorem exec_sst_starts (hc : s.clear h [b.rs2.toNat] = true) (hallowed : s.allowed (s.sAddr h b) 8 h.stream.idx .write false = true)
    (hlack : s.lacking (s.ctx h.arr h.stream).curStep [(s.sAddr h b, 8)] = []) :
    ∃ t, exec (.sst h b) s = .next t ∧ s.starts t h 0x1C k (s.sstOp h b k) := by
  have hi : s.issuesClean h (s.sstInfo h b) k :=
    State.issuesClean_of hc (mem_allStreams _) rfl nofun (decide_eq_true hrs) rfl nofun (by simp [State.sstInfo, hlack]) hslot nofun
      (State.sCheck_none halign hown hallowed)
  have issued := (exec_sst h b s).trans (issue_clean _ hi)
  exact ⟨_, issued, State.starts_addOp hi.lt (s.onlyArray_issued h (s.sstInfo h b)).onlyWork (s.movedOn_issued h _ hi.lt rfl) (s.issued_ops h _ hi.lt)
    ⟨rfl, rfl, rfl, rfl, rfl, rfl, rfl, rfl⟩ []⟩

end

/-- Settles O13: the base register is an operand register of row 5 of decode. -/
theorem noSuchBaseRegister : Obligations.NoSuchBaseRegister := by
  unfold Obligations.NoSuchBaseRegister
  intro h b s hc hrs
  have absent : decide (b.rs1.toNat < 16) = false := decide_eq_false (Nat.not_lt.2 hrs)
  rw [exec_sld, exec_sst]
  exact ⟨issue_noSuchRegister _ hc (mem_allStreams _) rfl rfl rfl absent, issue_noSuchRegister _ hc (mem_allStreams _) rfl rfl rfl absent⟩

/-! ### SLD_REGISTER_WRITTEN (R288, R292) -/

theorem readFrom_length (n : Nat) : ∀ (a : Nat) (m : Cells), (readFrom n a m).length = n := by
  induction n with
  | zero => exact fun _ _ => rfl
  | succ n ih =>
    intro a m
    cases m with
    | nil => simp [readFrom, ih]
    | cons c m => rw [readFrom]; split <;> simp [ih]

/-- With no store of its stream before it a load reads memory (R292). -/
theorem State.loadWord_of_no_stores {s : State} {arr a : Nat} {o : Op} (hnone : (s.arr arr).earlierStores o.stream o.seq = []) :
    s.loadWord arr o a = BitVec.ofNat 64 (leNat (memGet s.mem a 8)) := by
  have hlen : (memGet s.mem a 8).length = 8 := readFrom_length _ _ _
  obtain ⟨rest, hrest⟩ := memGet_memPut (m := []) ⟨List.Pairwise.nil, nofun⟩ a (memGet s.mem a 8) hlen.le
  have empty : rest = [] := by
    have total := congrArg List.length hrest
    rw [memGet, readFrom_length, List.length_append, hlen] at total
    exact List.eq_nil_of_length_eq_zero (by omega)
  rw [empty, List.append_nil] at hrest
  simp only [State.loadWord, hnone, List.foldl_nil, memNat, State.get, hrest]

/-- A load whose latency has passed, of bytes that correct, writes its register and leaves its slot. -/
theorem exec_sldRegisterWritten {s : State} {arr slot rd a : Nat} {got : Option W64} {o : Op} (ho : s.op? arr slot = some o)
    (hb : o.body = .sld rd a got) (hat : o.readyAt ≤ s.cycle) (hecc : s.eccBad a 8 arr = none) :
    exec (.sldRegisterWritten arr slot) s = .next (((s.corrected [(a, 8)] arr).dropOp arr slot).modCtx arr o.stream
      (fun c => c.setSreg rd (got.getD (s.loadWord arr o a)))) := by
  show execSldRegisterWritten arr slot s = _
  simp only [execSldRegisterWritten, ho, hb, hecc, Nat.not_lt.2 hat, if_false]

theorem State.onlyArray_refl (s : State) (n : Nat) : s.onlyArray s n := ⟨rfl, rfl, fun _ _ => rfl⟩

/-- Settles O14: the load takes its slot at issue; when it is due it writes one register of its stream and leaves the slot. -/
theorem sldResult : Obligations.SldResult := by
  unfold Obligations.SldResult
  refine ⟨fun h b s k hc hrs hslot halign hown hallowed => ?_, fun arr slot rd a got o s hl ho hb hat hecc => ?_⟩
  · obtain ⟨t, ht, hstarts⟩ := exec_sld_starts hrs hslot halign hown hc hallowed
    exact ⟨t, _, ht, hstarts, rfl, by rw [← State.sAddr_eq]; rfl, rfl⟩
  · have hlc : arr < (s.corrected [(a, 8)] arr).arrays.length := by rwa [State.corrected_arrays]
    have hld : arr < ((s.corrected [(a, 8)] arr).dropOp arr slot).arrays.length := by simpa [State.dropOp] using hlc
    refine ⟨_, exec_sldRegisterWritten ho hb hat hecc, State.onlyArray_modArr (State.onlyArray_modArr (State.onlyArray_refl _ _) _) _, rfl, ?_,
      State.loadWord_of_no_stores, ?_⟩
    · rw [State.ctx_modCtx_same _ _ _ _ hld, State.dropOp, State.ctx_modArr (fun _ st => by cases st <;> rfl), State.ctx,
        State.arr_of_arrays (State.corrected_arrays _ _ _)]
      rfl
    · rw [State.modCtx, State.arr_modArr_same _ _ _ hld, State.dropOp, State.arr_modArr_same _ _ _ hlc, State.arr_of_arrays (State.corrected_arrays _ _ _)]
      cases o.stream <;> rfl

/-! ### A store lands (R292, R310) -/

theorem leBytes_getD (n v : Nat) {i : Nat} (hi : i < n) : (leBytes n v).getD i 0 = BitVec.ofNat 8 (v / 256 ^ i) := by
  have power : 2 ^ (8 * i) = 256 ^ i := Nat.pow_mul 2 8 i
  simp [leBytes, List.getD_eq_getElem?_getD, hi, power]

/-- Copies that have not arrived take no write (R228). -/
theorem State.intoWindows_arriving {s : State} (hs : ∀ x ∈ s.tiers.staged, x.arriving = true) (a : Nat) (bs : List Byte) : s.intoWindows a bs = s := by
  unfold State.intoWindows
  generalize s.tiers.staged = l at hs
  induction l with
  | nil => rfl
  | cons x l ih =>
    rw [List.foldl_cons, if_pos (hs x List.mem_cons_self)]
    exact ih fun y hy => hs y (List.mem_cons_of_mem _ hy)

/-- A refill forwards a write to the twin and leaves memory (R358). -/
theorem State.refillForward_mem (s : State) (a n : Nat) : (s.refillForward a n).mem = s.mem := by
  unfold State.refillForward
  split
  · exact keeps_onlyIf (f := State.mem) (foldl_keeps (fun s _ => s.sendFrame_mem _ _) _ s)
  · rfl

/-- A write that no copy takes changes memory at its bytes. -/
theorem State.putPlain_mem_arriving {s : State} (hs : ∀ x ∈ s.tiers.staged, x.arriving = true) (a : Nat) (bs : List Byte) :
    (s.putPlain a bs).mem = memPut s.mem a bs := by
  unfold State.putPlain
  split
  next hempty => rw [List.isEmpty_iff.1 hempty]; rfl
  next =>
  extract_lets t u
  have kept : ∀ {β : Type} {f : State → β}, RegFree f → f u = f t := fun hf => keeps_onlyIf (hf.bump64 t _ _)
  have staged : (u.healed a bs.length).tiers.staged = s.tiers.staged := kept (f := fun s => s.tiers.staged) fun _ _ => rfl
  rw [State.intoWindows_arriving (staged ▸ hs), State.refillForward_mem]
  exact kept (f := State.mem) fun _ _ => rfl

/-- The loads that a store waits for read before it, and change operations alone. -/
theorem State.landStore_sst {s : State} {arr a : Nat} {v : W64} {o : Op} (hb : o.body = .sst a v) :
    s.landStore arr o = (s.readBefore arr o).putMem a (leBytes 8 v.toNat) := by simp only [State.landStore, hb]

/-- A store changes the 8 bytes at its address. -/
theorem State.landStore_mem {s : State} {arr a : Nat} {v : W64} {o : Op} (hb : o.body = .sst a v) (hstaged : ∀ x ∈ s.tiers.staged, x.arriving = true)
    (hmerge : s.unmergeable a 8 = []) : (s.landStore arr o).mem = memPut s.mem a (leBytes 8 v.toNat) := by
  have merges : (s.readBefore arr o).unmergeable a (leBytes 8 v.toNat).length = [] := by rwa [leBytes_length]
  rw [State.landStore_sst hb, State.putMem_mergeable merges, State.putPlain_mem_arriving (by rw [State.corrected_staged]; exact hstaged), State.corrected_mem]
  rfl

/-- An array without a UVER.CLOSE moves no latency (R190, R205). -/
theorem State.closeWaits_of_no_close {s : State} {n : Nat} (hs : ∀ o ∈ (s.arr n).ops, ∀ wt, o.body ≠ .uverClose wt) : s.closeWaits n = s := by
  unfold State.closeWaits
  refine if_neg ?_
  rw [List.any_eq_true]
  rintro ⟨o, ho, hmoved⟩
  split at hmoved
  next wt hwt => exact hs o ho wt hwt
  · cases hmoved

/-- An array whose only operation is a store: the store lands and leaves its slot when its latency has passed, and nothing happens before. -/
theorem State.expireArray_sst {s : State} {arr a : Nat} {v : W64} {o : Op} (hops : (s.arr arr).ops = [o]) (hb : o.body = .sst a v) :
    s.expireArray arr = if o.readyAt ≤ s.cycle then (s.landStore arr o).retireOp arr o else s := by
  have noClose : s.closeWaits arr = s := State.closeWaits_of_no_close fun x hx wt => by
    rw [hops, List.mem_singleton] at hx
    rw [hx, hb]
    nofun
  have expires : o.expires s.cycle = decide (o.readyAt ≤ s.cycle) := by simp [Op.expires, hb]
  simp only [State.expireArray, noClose, hops]
  by_cases hat : o.readyAt ≤ s.cycle
  · simp [hat, expires]
  · simp [hat, expires]

/-- Settles O15: the store takes its slot at issue, and lands by one write of 8 bytes. -/
theorem sstResult : Obligations.SstResult := by
  unfold Obligations.SstResult
  refine ⟨fun h b s k hc hrs hslot halign hown hallowed hlack => ?_, fun arr a v o s hb hm hstaged hmerge x => ?_,
    fun arr a v o s _ hops hb => ⟨fun hat => ?_, fun hat => ?_⟩⟩
  · obtain ⟨t, ht, hstarts⟩ := exec_sst_starts hrs hslot halign hown hc hallowed hlack
    exact ⟨t, _, ht, hstarts, rfl, by rw [← State.sAddr_eq]; rfl⟩
  · rw [State.landStore_mem hb hstaged hmerge, memByte_memPut _ _ _ _ hm, leBytes_length]
    by_cases hin : a ≤ x ∧ x < a + 8
    · rw [if_pos hin, if_pos hin, leBytes_getD 8 _ (by omega)]
    · rw [if_neg hin, if_neg hin]
  · rw [State.expireArray_sst hops hb, if_pos hat]
  · rw [State.expireArray_sst hops hb, if_neg (Nat.not_le.2 hat)]

end Sys2Proof.Machine
end

section
/-! Faults whose report is about the module itself (R340, R427): the report retires the receive of a context whose partner is the module, and its buffer becomes free values. Where a statement lets such a step change no memory but its own writes, two modules that differ in the first byte of that buffer alone refute it. The first such statement is O27: the write of a digest in a block that does not correct faults (R217, R309). -/

namespace Sys2Proof.Machine

/-! ### A fault that gives up the receive of the module itself -/

/-- In a running module that has reported nothing yet, fault `r` enters report `e` about a partner whose one receive is `x`; no free word has been drawn. -/
abbrev State.losesRecv (s : State) (r : FaultRec) (e : Merge) (x : Recv) : Prop :=
  (s.recordFault r).host.st = .running ∧ (s.recordFault r).flt.beaconSent = false ∧ (s.reporting r).2 = some e ∧ e.acted = true ∧
    (s.reporting r).1.losesTwin e = false ∧ (s.reporting r).1.recvsWith e.subject = [x] ∧ 0 < x.len ∧ (s.reporting r).1.freeCtr = 0

/-- Then the first byte of the buffer is the first free byte, whatever it was. -/
theorem State.raise_freesByte {s : State} {b : Nat} {r : FaultRec} {e : Merge} {x : Recv} (hs : s.InvTo b) (hr : s.losesRecv r e x) :
    memByte (s.raise r).mem x.buf = Config.freeByte 0 := by
  obtain ⟨hrun, hfirst, hentry, hacts, htwin, hrecv, hlen, hctr⟩ := hr
  rw [State.raise_acts hrun hfirst hentry hacts htwin, State.actOn_firstByte hs.reporting.mem hrecv hlen, hctr]

/-- The free byte is one value; it cannot be that of each of two modules. -/
theorem freeByte_not_both (h : ∀ v ∈ [1#8, 2#8], Config.freeByte 0 = v) : False :=
  absurd ((h 1#8 (by decide)).symm.trans (h 2#8 (by decide))) (by decide)

theorem State.putAll_single (s : State) (a : Nat) (bs : List Byte) : s.putAll [(a, bs)] = s.putMem a bs := rfl

/-! ### A digest in an uncorrectable block (R217, R309) -/

/-- A DIG.H of no bytes whose chaining record goes to 0x480000, in slot 0 of array 0. -/
def badDigest : Op := ⟨0, .f, 0x98, 0, 0, 0, 0, 0xFFFF, 0, none, none, 0, [], [], 0, false, .digH 0 0 0 (some 0x480000) true false⟩

/-- The module of `State.badBlock`, whose block at 0x480000 does not correct, with that DIG.H on Dill engine 0. -/
def State.digesting (v : Byte) : State :=
  { (State.badBlock v).modArr 0 (fun a => { a with ops := [badDigest] }) with dill := [some (⟨0, 0, 0⟩, 0), none, none, none] }

/-- The module meets the invariant. -/
theorem State.digesting_inv (v : Byte) : (State.digesting v).InvTo 0 :=
  { (State.badBlock_inv v).modArr (n := 0) (g := fun a => { a with ops := [badDigest] }) with dill := rfl }

/-- The record that the engine writes. -/
def digestRecord : List Byte := chainBytes shaInit 0

/-- The fault of that write. -/
def digestFault (v : Byte) : FaultRec := (State.digesting v).mergeFault 0x480000 digestRecord.length (0x480000 / 2048)

theorem State.digesting_fails : ∀ v ∈ [1#8, 2#8], (State.digesting v).unmergeable 0x480000 digestRecord.length = [0x480000 / 2048] ∧
    (State.digesting v).losesRecv (digestFault v) loopMerge loopRecv ∧ memByte (State.digesting v).mem 0x400000 = v := by decide +kernel

/-- The writes of the engine in that module. -/
theorem State.digesting_output (v : Byte) :
    (digOutput (State.digesting v).mem badDigest.step badDigest.body).toList = [(0x480000, digestRecord)] := rfl

/-- The write lands nowhere and faults, and the first byte of the receive's buffer is a free value. -/
theorem State.digesting_freeByte {v : Byte} (hv : v ∈ [1#8, 2#8]) :
    memByte ((State.digesting v).putAll [(0x480000, digestRecord)]).mem 0x400000 = Config.freeByte 0 := by
  obtain ⟨hbad, hloses, -⟩ := State.digesting_fails v hv
  have faults : (State.digesting v).putMem 0x480000 digestRecord = (State.digesting v).raise (digestFault v) :=
    State.putMem_unmergeable (by rfl) (by rfl) hbad (by decide)
  have freed : memByte ((State.digesting v).raise (digestFault v)).mem loopRecv.buf = Config.freeByte 0 := State.raise_freesByte (State.digesting_inv v) hloses
  rw [State.putAll_single, faults]
  exact freed

/-- O27 would keep that byte. -/
theorem State.digesting_kept (hall : Obligations.DillWork) {v : Byte} (hv : v ∈ [1#8, 2#8]) : Config.freeByte 0 = v := by
  unfold Obligations.DillWork at hall
  obtain ⟨-, -, -, hwritten⟩ := hall
  obtain ⟨-, -, hbyte⟩ := State.digesting_fails v hv
  have inModule : 0 < (State.digesting v).arrays.length := by simp [(State.digesting_inv v).arrays]
  obtain ⟨t, -, hmem, honly, -⟩ := hwritten 0 ⟨0, 0, 0⟩ 0 badDigest (State.digesting v) rfl (Nat.zero_le _) inModule rfl rfl rfl
  have clean : (State.digesting v).corrected (digReads badDigest.body) = State.digesting v := State.corrected_of_no_errors rfl rfl _ _
  rw [clean, State.digesting_output] at hmem
  rw [State.digesting_output] at honly
  have kept : memByte t.mem 0x400000 = memByte (State.digesting v).mem 0x400000 := honly nofun 0x400000 (by decide)
  rw [hmem, State.digesting_freeByte hv, hbyte] at kept
  exact kept

/-- Refutes O27: where the record of a DIG.H lies in a block that does not correct, its write faults (R217), and in a running module the STOP report of the fault retires the receive of a context whose partner is the module itself, whose buffer becomes free values (R340); the statement lets no byte but the record change. The free value is the same for two modules that differ in the first byte of that buffer alone, so one of them refutes the frame. -/
theorem not_dillWork : ¬ Obligations.DillWork := fun hall => freeByte_not_both fun _ hv => State.digesting_kept hall hv

end Sys2Proof.Machine
end

section
/-! A forwarded write that no region allows (R212, R345): it is discarded and faults, the fault forms a STOP report about the module itself, and the report retires the receive of a context whose partner is the module, whose buffer becomes free values (R340). O33 lets this frame change no memory. -/

namespace Sys2Proof.Machine

/-- A module that has received a frame meets the invariant. -/
theorem State.InvTo.received {s : State} {b : Nat} (hs : s.InvTo b) (x : Frame) : (s.received x).InvTo b :=
  have taken : (s.taken x).InvTo b := hs.hears.modPort
  taken.sendAck.ite taken

/-- A DATA frame that asks for no journal copy has its effect as it arrives. -/
theorem exec_dataFrame_arrives {s : State} {x : Frame} (h : s.linkTakes x) (hlack : s.lacking (s.dataSpans x).1 (s.dataSpans x).2 = []) :
    exec (.dataFrame x) s = .next (s.arrives 0 x (fun s => if s.isForward x then s.forwardIn x else s.dataIn x)) := by
  obtain ⟨hport, hup, hcrc, hseq⟩ := h
  have accepts : s.linkAccepts x = true := by simp [State.linkAccepts, hport, hup, hcrc, hseq]
  show execDataFrame x s = _
  simp only [execDataFrame, accepts, if_true, State.journaled, hlack]

/-- A forwarded write outside every region that would permit it. -/
theorem State.forwardIn_discarded {s : State} {x : Frame} (hbits : ∀ i ∈ [27, 28, 29, 30, 31], x.aux.getLsbD i = false) (hctx : x.dstCtx = forwardCtx)
    (hout : s.allowed (forwardAddr x) (forwardBody x).length ringUser .write false = false) :
    s.forwardIn x = (s.bump Reg.RNG_DISCARD 1).raise { FaultRec.of 0x10 0x0C with addr := forwardAddr x, aux := s.regionIdx (forwardAddr x) } := by
  simp only [List.forall_mem_cons, List.not_mem_nil, false_implies, implies_true, and_true] at hbits
  obtain ⟨h27, h28, h29, h30, h31⟩ := hbits
  simp only [State.forwardIn, h27, h28, h29, h30, h31, hctx, State.forwardedPut, hout, beq_self_eq_true, Bool.false_eq_true, if_true, if_false]

/-- A frame on the mirror port that forwards 32 bytes for address 0. -/
def strayFrame : Frame := ⟨4, 0, 0, 0, true, 0, 1, forwardCtx, 0, 0, 0, 0x200000#32, zeros 32⟩

/-- The module of `State.badBlock`, whose only region begins at 0x400000, with its mirror port up. -/
def State.mirrored (v : Byte) : State := (State.badBlock v).modPort 4 (fun q => { q with st := .up })

/-- The module meets the invariant. -/
theorem State.mirrored_inv (v : Byte) : (State.mirrored v).InvTo 0 := (State.badBlock_inv v).modPort

/-- The fault of the frame. -/
def strayFault (v : Byte) : FaultRec :=
  { FaultRec.of 0x10 0x0C with addr := forwardAddr strayFrame, aux := ((State.mirrored v).received strayFrame).regionIdx (forwardAddr strayFrame) }

/-- What the report enters. -/
def strayMerge : Merge := ⟨0, 0x10, 1, 0, 0, some 8, 5, true⟩

/-- The frame forwards a write that no region allows, its fault gives up the receive, and the first byte of the receive's buffer is `v`. -/
theorem State.mirrored_receives : ∀ v ∈ [1#8, 2#8], (State.mirrored v).isForward strayFrame = true ∧
    (State.mirrored v).allowed (forwardAddr strayFrame) (forwardBody strayFrame).length ringUser .write false = false ∧
    ((State.mirrored v).received strayFrame).isForward strayFrame = true ∧
    ((State.mirrored v).received strayFrame).allowed (forwardAddr strayFrame) (forwardBody strayFrame).length ringUser .write false = false ∧
    (((State.mirrored v).received strayFrame).bump Reg.RNG_DISCARD 1).losesRecv (strayFault v) strayMerge loopRecv ∧
    memByte (State.mirrored v).mem 0x400000 = v := by decide +kernel

/-- The link takes the frame. -/
theorem State.mirrored_takes (v : Byte) : (State.mirrored v).linkTakes strayFrame := ⟨by decide, rfl, rfl, rfl⟩

/-- After the frame the first byte of the receive's buffer is a free value, whatever it was. -/
theorem State.mirrored_freeByte {v : Byte} (hv : v ∈ [1#8, 2#8]) :
    memByte ((State.mirrored v).arrives 0 strayFrame (fun s => if s.isForward strayFrame then s.forwardIn strayFrame else s.dataIn strayFrame)).mem 0x400000 =
      Config.freeByte 0 := by
  obtain ⟨-, -, hforward, hout, hloses, -⟩ := State.mirrored_receives v hv
  have effect := RingFree.arrives (f := State.mem) (fun _ _ => rfl) (State.mirrored_takes v) (.inl rfl) 0
    (fun s => if s.isForward strayFrame then s.forwardIn strayFrame else s.dataIn strayFrame)
  have freed : memByte ((((State.mirrored v).received strayFrame).bump Reg.RNG_DISCARD 1).raise (strayFault v)).mem loopRecv.buf = Config.freeByte 0 :=
    State.raise_freesByte ((State.mirrored_inv v).received strayFrame).bump hloses
  rw [effect, if_pos hforward, State.forwardIn_discarded (by decide) rfl hout]
  exact freed

/-- O33 would keep that byte. -/
theorem State.mirrored_kept (hall : Obligations.DataFrames) {v : Byte} (hv : v ∈ [1#8, 2#8]) : Config.freeByte 0 = v := by
  unfold Obligations.DataFrames at hall
  obtain ⟨-, hforwards, -⟩ := hall
  obtain ⟨hforward, hout, -, -, -, hbyte⟩ := State.mirrored_receives v hv
  obtain ⟨-, hdiscards⟩ := hforwards strayFrame (State.mirrored v) (State.mirrored_takes v) hforward (by decide) (by rfl)
  obtain ⟨t, ht, hmem, -⟩ := hdiscards rfl hout
  have arrives := Host.Outcome.next.inj ((exec_dataFrame_arrives (State.mirrored_takes v) (by rfl)).symm.trans ht)
  have kept : memByte t.mem 0x400000 = v := (congrArg (memByte · 0x400000) hmem).trans hbyte
  rw [← arrives, State.mirrored_freeByte hv] at kept
  exact kept

/-- Refutes O33: a forwarded write that no region allows is discarded and faults (R345), and in a running module the STOP report of the fault retires the receive of a context whose partner is the module itself, whose buffer becomes free values (R340); the statement says that memory is as before. The free value is the same for two modules that differ in the first byte of that buffer alone, so one of them refutes the statement. -/
theorem not_dataFrames : ¬ Obligations.DataFrames := fun hall => freeByte_not_both fun _ hv => State.mirrored_kept hall hv

end Sys2Proof.Machine
end

section
/-! What frames leave of the ring engine, and corrections of ECC errors beside it (R209, R216, R317, R320). -/

namespace Sys2Proof.Machine

/-! ### Observations that a link does not change -/

/-- `f` reads of the ring engine neither the ports nor when another module was last heard: a frame that is sent or taken leaves it. -/
def LinkFree {α : Type} (f : State → α) : Prop := ∀ (s : State) p h, f { s with ring := { s.ring with ports := p, heardAt := h } } = f s

section
variable {α : Type} {f : State → α} {s : State} {x : Frame}

theorem LinkFree.sendFrame (hf : LinkFree f) (s : State) (p : Nat) (y : OutFrame) : f (s.sendFrame p y) = f s := hf s _ _

theorem LinkFree.received (hf : LinkFree f) (s : State) (x : Frame) : f (s.received x) = f s :=
  have heard : f (s.hears x) = f s := keeps_ite rfl (hf s s.ring.ports _)
  (keeps_onlyIf (hf.sendFrame _ _ _)).trans ((hf (s.hears x) _ (s.hears x).ring.heardAt).trans heard)

/-- A frame that the link takes has its effect on the module that has received it, and gives back its credit. -/
theorem LinkFree.linkIn (hf : LinkFree f) (h : s.linkTakes x) (typ : Nat) (k : State → State) : f (s.linkIn typ x k) = f (k (s.received x)) := by
  obtain ⟨hport, hup, hcrc, hseq⟩ := h
  have takes : s.linkIn typ x k =
      if (k (s.received x)).holdsCredit x (s.received x) then k (s.received x) else (k (s.received x)).giveCredit x.port (typeClass typ) x.vc 1 := by
    simp only [State.linkIn, hup, hcrc, hseq, Nat.not_le.2 hport, decide_false, bne_self_eq_false, Bool.or_self, Bool.not_true, Bool.false_eq_true, if_false]
    rfl
  rw [takes]
  exact keeps_ite rfl (hf.sendFrame _ _ _)

theorem LinkFree.arrives (hf : LinkFree f) (h : s.linkTakes x) (hme : s.forMe x) (typ : Nat) (k : State → State) :
    f (s.arrives typ x k) = f (k (s.received x)) := by
  have mine : (x.port == 4 || x.dst == (s.received x).ring.addr) = true := by
    rw [State.received_addr]
    simpa [State.forMe] using hme
  exact (hf.linkIn h typ _).trans (congrArg f (if_pos mine))

/-- A routed frame is sent, or counted as discarded. -/
theorem LinkFree.sendTo (hf : LinkFree f) (hr : RegFree f) (s : State) (m : Bool) (d : Nat) (y : OutFrame) : f (s.sendTo m d y) = f s :=
  keeps_ite (hf.sendFrame _ _ _) (keeps_ite (hr.bump _ _ _) (hf.sendFrame _ _ _))

theorem linkFree_ctxE? (i : Nat) : LinkFree (fun s => s.ctxE? i) := fun _ _ _ => rfl

theorem regFree_ctxE? (i : Nat) : RegFree (fun s => s.ctxE? i) := fun _ _ => rfl

end

/-! ### The module beside its ring engine and counters -/

/-- The module without its ring engine and the values of its registers. -/
def State.offCounters (s : State) : State := { s with ring := Ring.reset, regs := { s.regs with vals := [] } }

theorem State.onlyRing_iff {s t : State} : s.onlyRing t ↔ t.offCounters = s.offCounters := by
  constructor
  · intro h
    have framed : t = { s with ring := t.ring, regs := { s.regs with vals := t.regs.vals } } := h
    have off := congrArg State.offCounters framed
    exact off
  · intro h
    exact congrArg (fun u : State => { u with ring := t.ring, regs := { u.regs with vals := t.regs.vals } }) h

theorem State.onlyRing.trans {s t u : State} (h : s.onlyRing t) (h' : t.onlyRing u) : s.onlyRing u :=
  State.onlyRing_iff.2 ((State.onlyRing_iff.1 h').trans (State.onlyRing_iff.1 h))

theorem ringFree_offCounters : RingFree State.offCounters := fun _ _ => rfl

theorem State.offCounters_bump (s : State) (a n : Nat) : (s.bump a n).offCounters = s.offCounters := by
  unfold State.bump
  split <;> rfl

theorem State.offCounters_sendTo (s : State) (m : Bool) (d : Nat) (y : OutFrame) : (s.sendTo m d y).offCounters = s.offCounters :=
  keeps_ite rfl (keeps_ite (s.offCounters_bump _ _) rfl)

/-- A frame whose effect is on the ring engine and counters alone. -/
theorem State.onlyRing_of_arrives {s : State} {x : Frame} (h : s.linkTakes x) (hme : s.forMe x) {typ : Nat} {k : State → State}
    (hk : (s.received x).onlyRing (k (s.received x))) : s.onlyRing (s.arrives typ x k) :=
  State.onlyRing_iff.2 ((ringFree_offCounters.arrives h hme typ k).trans ((State.onlyRing_iff.1 hk).trans (ringFree_offCounters.received s x)))

/-! ### Corrections in another ring state -/

/-- `u` is `s` with another ring engine at the same address. -/
def State.besideRing (s u : State) : Prop := ∃ r : Ring, u = { s with ring := r } ∧ r.addr = s.ring.addr

namespace State.besideRing

variable {s u t v : State}

theorem ite {c d : Prop} [Decidable c] [Decidable d] (hcd : c ↔ d) (h : s.besideRing u) (h' : t.besideRing v) :
    (if c then s else t).besideRing (if d then u else v) := by
  by_cases hc : c
  · rwa [if_pos hc, if_pos (hcd.1 hc)]
  · rwa [if_neg hc, if_neg (mt hcd.2 hc)]

theorem foldl {β : Type} {g : State → β → State} (hg : ∀ {s u : State} x, s.besideRing u → (g s x).besideRing (g u x)) (l : List β) (h : s.besideRing u) :
    (l.foldl g s).besideRing (l.foldl g u) := by
  induction l generalizing s u with
  | nil => exact h
  | cons x l ih => exact ih (hg x h)

theorem setReg (h : s.besideRing u) (a : Nat) (v : W32) : (s.setReg a v).besideRing (u.setReg a v) := by
  obtain ⟨r, rfl, hr⟩ := h
  exact ⟨r, rfl, hr⟩

theorem setBits (h : s.besideRing u) (a m : Nat) : (s.setBits a m).besideRing (u.setBits a m) := by
  obtain ⟨r, rfl, hr⟩ := h
  exact ⟨r, rfl, hr⟩

theorem bump (h : s.besideRing u) (a n : Nat) : (s.bump a n).besideRing (u.bump a n) := by
  obtain ⟨r, rfl, hr⟩ := h
  exact ite Iff.rfl ⟨r, rfl, hr⟩ ⟨r, rfl, hr⟩

theorem signalEvents (h : s.besideRing u) (v : Nat) : (s.signalEvents v).besideRing (u.signalEvents v) := by
  obtain ⟨r, rfl, hr⟩ := h
  exact ite Iff.rfl ⟨r, rfl, hr⟩ ⟨r, rfl, hr⟩

theorem writeEntry (h : s.besideRing u) (e : EventEntry) : (s.writeEntry e).besideRing (u.writeEntry e) := by
  obtain ⟨r, rfl, hr⟩ := h
  unfold State.writeEntry
  refine ite Iff.rfl ⟨r, rfl, hr⟩ (ite Iff.rfl ((bump ⟨r, rfl, hr⟩ _ _).setBits _ _) ?_)
  dsimp only
  split
  · exact ⟨r, rfl, hr⟩
  · apply signalEvents
    refine ⟨r, ?_, hr⟩
    simp only [hr]

/-- An entry that the state beside the ring engine gives. -/
theorem writeEntryOf (h : s.besideRing u) {e : State → EventEntry} (he : ∀ (s : State) r, e { s with ring := r } = e s) :
    (s.writeEntry (e s)).besideRing (u.writeEntry (e u)) := by
  obtain ⟨r, rfl, hr⟩ := id h
  rw [he s r]
  exact writeEntry h (e s)

theorem postEvent (h : s.besideRing u) (c o a d : Nat) : (s.postEvent c o a d).besideRing (u.postEvent c o a d) := by
  have counted : s.countEvent.besideRing u.countEvent := (h.bump _ _).setBits _ _
  unfold State.postEvent
  generalize s.countEvent = s' at counted ⊢
  generalize u.countEvent = u' at counted ⊢
  obtain ⟨r, rfl, hr⟩ := counted
  refine ite Iff.rfl ?_ ?_
  · obtain ⟨r', he, hr'⟩ := bump (s := s') ⟨r, rfl, hr⟩ Reg.FLT_EVENTS_SUPPRESSED 1
    dsimp only
    rw [he]
    exact ⟨r', rfl, hr'⟩
  · dsimp only
    apply writeEntryOf (e := fun t => ⟨c, 0, o, 1, t.period, a, 0, d⟩) _ fun _ _ => rfl
    exact ite Iff.rfl ⟨r, rfl, hr⟩ ⟨r, rfl, hr⟩

theorem event (h : s.besideRing u) (c d : Nat) : (s.event c d).besideRing (u.event c d) := by
  obtain ⟨r, rfl, hr⟩ := h
  have posted := postEvent (s := s) ⟨r, rfl, hr⟩ c 0 s.ring.addr d
  rwa [State.event, State.event, show ({ s with ring := r } : State).ring.addr = s.ring.addr from hr]

theorem tiers_eq (h : s.besideRing u) : u.tiers = s.tiers := by
  obtain ⟨r, rfl, -⟩ := h
  rfl

theorem reg_eq (h : s.besideRing u) (a : Nat) : u.reg a = s.reg a := by
  obtain ⟨r, rfl, -⟩ := h
  rfl

theorem withTiers (h : s.besideRing u) (x : Tiers) : ({ s with tiers := x } : State).besideRing { u with tiers := x } := by
  obtain ⟨r, rfl, hr⟩ := h
  exact ⟨r, rfl, hr⟩

theorem startCopy (h : s.besideRing u) (c : Nat) : (s.startCopy c).besideRing (u.startCopy c) := by
  have hspares : u.spares = s.spares := by simp only [State.spares, h.tiers_eq]
  unfold State.startCopy
  simp only [h.tiers_eq, hspares]
  split
  · exact h
  split
  · exact ite Iff.rfl h (h.withTiers _)
  split
  · exact h.setBits _ _
  · exact ite Iff.rfl ((setBits (((h.withTiers _).setReg _ _).setReg _ _) _ _).event _ _) (((h.withTiers _).setReg _ _).setReg _ _)

theorem countCorrected (h : s.besideRing u) (c n : Nat) : (s.countCorrected c n).besideRing (u.countCorrected c n) := by
  have limit (k : Nat) : s.regN Reg.TIR_CE_LIMIT < k ↔ u.regN Reg.TIR_CE_LIMIT < k := by simp only [State.regN, h.reg_eq]
  unfold State.countCorrected
  simp only [h.tiers_eq]
  exact ite (limit _) (((h.withTiers _).setBits _ _).startCopy _) (h.withTiers _)

theorem correctBlock (h : s.besideRing u) (b : Nat × Nat) : (s.correctBlock b).besideRing (u.correctBlock b) := by
  have hchannel : u.channelOf (b.1 * 2048) = s.channelOf (b.1 * 2048) := by
    obtain ⟨r, rfl, -⟩ := h
    rfl
  simp only [State.correctBlock, h.tiers_eq, hchannel]
  exact (h.withTiers _).countCorrected _ _

theorem bumpArr (h : s.besideRing u) (n k m : Nat) : (s.bumpArr n k m).besideRing (u.bumpArr n k m) := by
  have hreg : u.arrReg n k = s.arrReg n k := by
    obtain ⟨r, rfl, -⟩ := h
    rfl
  simp only [State.bumpArr, hreg]
  exact h.bump _ _

theorem correctWord (h : s.besideRing u) (w : Nat) : (s.correctWord w).besideRing (u.correctWord w) := by
  simp only [State.correctWord, h.tiers_eq]
  exact (h.withTiers _).bumpArr _ _ _

theorem correctAt (h : s.besideRing u) (a n : Nat) : (s.correctAt a n).besideRing (u.correctAt a n) := by
  obtain ⟨r, rfl, hr⟩ := id h
  exact ite Iff.rfl h (ite Iff.rfl (foldl (fun b h => correctBlock h b) _ h) (foldl (fun w h => correctWord h w) _ h))

/-- A correction does not meet the ring engine, but for the module's address in its events. -/
theorem corrected (h : s.besideRing u) (rs : List (Nat × Nat)) (own : Nat) : (s.corrected rs own).besideRing (u.corrected rs own) := by
  obtain ⟨r, rfl, hr⟩ := id h
  exact ite Iff.rfl h (foldl (fun x h => correctAt h x.1 x.2) _ h)

/-- The two are the same beside their ring engines. -/
theorem onlyRing (h : s.besideRing u) : s.onlyRing u := by
  obtain ⟨r, rfl, -⟩ := h
  exact State.onlyRing_iff.2 rfl

/-- A module that has received a frame. -/
theorem received (s : State) (x : Frame) : s.besideRing (s.received x) :=
  ⟨(s.received x).ring, State.eq_of_offRing (ringFree_offRing.received s x), State.received_addr⟩

theorem modCtxE (h : s.besideRing u) (i : Nat) (g : CtxEntry → CtxEntry) : s.besideRing (u.modCtxE i g) := by
  obtain ⟨r, rfl, hr⟩ := h
  exact ⟨_, rfl, hr⟩

end State.besideRing

end Sys2Proof.Machine
end

section
/-! ARM and DONE (R321): their effect on the context of a message; O34. -/

namespace Sys2Proof.Machine

/-! ### Messages of a context -/

/-- A protocol frame for an OPEN context. -/
theorem State.protoIn_open {s : State} {f : Frame} {c : CtxEntry} (hc : s.ctxE? f.dstCtx = some c) (ho : c.st = .open_) (k : CtxEntry → State → State) :
    s.protoIn f k = k c (s.modCtxE f.dstCtx (fun e => { e with lastFrame := s.period })) := by
  simp [State.protoIn, hc, ho]

/-- Without an RSEND that waits nothing is sent. -/
theorem State.sendDue_none {s : State} {i : Nat} {c : CtxEntry} (hc : s.ctxE? i = some c) (hnone : c.sends.find? (fun x => !x.sent) = none) (n : Nat) :
    State.sendDue n i s = s := by
  cases n with
  | zero => rfl
  | succ n => simp [State.sendDue, hc, hnone]

/-- Without an ARM nothing is sent. -/
theorem State.sendDue_unarmed {s : State} {i : Nat} {c : CtxEntry} (hc : s.ctxE? i = some c) (hnone : c.arms = []) (n : Nat) :
    State.sendDue n i s = s := by
  cases n with
  | zero => rfl
  | succ n =>
    cases hfind : c.sends.find? (fun x => !x.sent) <;> simp only [State.sendDue, hc, hnone, hfind]

/-- The frames of a message. -/
def State.sendData (s : State) (i : Nat) (c : CtxEntry) (x : Send) (data : List Byte) : State :=
  (chunks (cdiv x.len 512) 512 data).zipIdx.foldl (fun (s : State) (b : List Byte × Nat) =>
    s.toPartner i c x.port 0 (BitVec.ofNat 32 x.tag) (16 * b.2) 0 b.1) s

/-- The message of an RSEND whose ARM agrees and whose bytes correct goes out (R321). -/
theorem State.sendOne_sends {s : State} {i : Nat} {c : CtxEntry} {x : Send} {arm : Nat × Nat} {arms : List (Nat × Nat)} (htag : arm.1 = x.tag) (hlen : arm.2 = x.len)
    (hecc : s.eccBad x.buf x.len = none) :
    s.sendOne i c x arm arms =
      (State.sendData ((s.modCtxE i (fun e => { e with arms := arms })).corrected [(x.buf, x.len)]) i c x (s.get x.buf x.len)).modCtxE i
        (fun e => { e with sends := e.sends.map (fun (y : Send) => if y == x then { y with sent := true } else y) }) := by
  simp [State.sendOne, htag, hlen, hecc, State.sendData]

theorem State.sendData_ctxE? (s : State) (i j : Nat) (c : CtxEntry) (x : Send) (data : List Byte) : (s.sendData i c x data).ctxE? j = s.ctxE? j :=
  foldl_keeps (f := fun s => s.ctxE? j) (fun s _ => (linkFree_ctxE? j).sendTo (regFree_ctxE? j) s _ _ _) _ s

theorem State.onlyRing_sendData (s : State) (i : Nat) (c : CtxEntry) (x : Send) (data : List Byte) : s.onlyRing (s.sendData i c x data) :=
  State.onlyRing_iff.2 (foldl_keeps (f := State.offCounters) (fun s _ => s.offCounters_sendTo _ _ _) _ s)

theorem State.onlyRing_modCtxE (s : State) (i : Nat) (g : CtxEntry → CtxEntry) : s.onlyRing (s.modCtxE i g) := State.onlyRing_iff.2 rfl

@[simp] theorem State.corrected_ring (s : State) (rs : List (Nat × Nat)) (own : Nat) : (s.corrected rs own).ring = s.ring :=
  CorrectFree.corrected (f := State.ring) ⟨fun _ _ => rfl, fun _ _ _ _ _ => rfl, fun _ _ _ _ _ _ _ => rfl⟩ s rs own

theorem State.corrected_ctxE? (s : State) (rs : List (Nat × Nat)) (own i : Nat) : (s.corrected rs own).ctxE? i = s.ctxE? i :=
  CorrectFree.corrected (f := fun s => s.ctxE? i) ⟨fun _ _ => rfl, fun _ _ _ _ _ => rfl, fun _ _ _ _ _ _ _ => rfl⟩ s rs own

/-! ### ARM -/

/-- The context as a frame that has been received meets it. -/
theorem State.received_ctxE? {s : State} {f : Frame} {c : CtxEntry} (hc : s.ctxE? f.dstCtx = some c) : (s.received f).ctxE? f.dstCtx = some c :=
  ((linkFree_ctxE? f.dstCtx).received s f).trans hc

/-- The effect of an ARM: it is kept, and may let the waiting RSEND of its context send. -/
def State.armIn (f : Frame) (s : State) : State :=
  s.protoIn f (fun c s => State.sendDue c.sends.length f.dstCtx (s.modCtxE f.dstCtx (fun e => { e with arms := e.arms ++ [(f.tag.toNat, f.aux.toNat)] })))

theorem exec_armFrame (f : Frame) (s : State) : exec (.armFrame f) s = .next (s.arrives 1 f (State.armIn f)) := rfl

/-- The effect of a DONE: the RSEND that has sent retires. -/
def State.doneIn (f : Frame) (s : State) : State :=
  s.protoIn f (fun c s => match c.sends.find? (fun x => x.sent) with
    | some x => s.modCtxE f.dstCtx (fun e => { e with sends := e.sends.erase x })
    | none => s)

/-- The module with the ARM kept. -/
def State.withArm (s : State) (f : Frame) : State :=
  ((s.received f).modCtxE f.dstCtx (fun e => { e with lastFrame := s.period })).modCtxE f.dstCtx
    (fun e => { e with arms := e.arms ++ [(f.tag.toNat, f.aux.toNat)] })

/-- The context with the ARM kept. -/
def CtxEntry.withArm (c : CtxEntry) (f : Frame) (period : Nat) : CtxEntry :=
  { c with arms := c.arms ++ [(f.tag.toNat, f.aux.toNat)], lastFrame := period }

theorem State.besideRing.withArm (s : State) (f : Frame) : s.besideRing (s.withArm f) := ((State.besideRing.received s f).modCtxE _ _).modCtxE _ _

section
variable {s : State} {f : Frame} {c : CtxEntry} (h : s.linkTakes f) (hme : s.forMe f) (hc : s.ctxE? f.dstCtx = some c) (ho : c.st = .open_)
include hc

theorem State.withArm_ctxE? : (s.withArm f).ctxE? f.dstCtx = some (c.withArm f s.period) := by
  rw [State.withArm, State.ctxE?_modCtxE, State.ctxE?_modCtxE, State.received_ctxE? hc]
  rfl

include ho

theorem State.armIn_received : State.armIn f (s.received f) = State.sendDue c.sends.length f.dstCtx (s.withArm f) := by
  have now : (s.received f).period = s.period := RingFree.received (f := State.period) (fun _ _ => rfl) s f
  rw [State.armIn, State.protoIn_open (State.received_ctxE? hc) ho, now]
  rfl

include h hme

/-- An ARM that no RSEND waits for is kept. -/
theorem exec_armFrame_kept (hnone : c.sends.find? (fun x => !x.sent) = none) :
    ∃ t, exec (.armFrame f) s = .next t ∧ s.onlyRing t ∧ t.ctxE? f.dstCtx = some (c.withArm f s.period) := by
  have effect : State.armIn f (s.received f) = s.withArm f :=
    (State.armIn_received hc ho).trans (State.sendDue_none (State.withArm_ctxE? hc) hnone _)
  refine ⟨_, exec_armFrame f s, ?_, ?_⟩
  · refine State.onlyRing_of_arrives h hme ?_
    rw [effect]
    exact (State.onlyRing_modCtxE _ _ _).trans (State.onlyRing_modCtxE _ _ _)
  · rw [(linkFree_ctxE? f.dstCtx).arrives h hme, effect, State.withArm_ctxE? hc]

/-- An ARM that the waiting RSEND agrees with lets it send. -/
theorem exec_armFrame_sends {x : Send} (harms : c.arms = []) (hx : c.sends.find? (fun x => !x.sent) = some x) (hat : x.readyAt ≤ s.cycle)
    (htag : f.tag.toNat = x.tag) (hlen : f.aux.toNat = x.len) (hecc : s.eccBad x.buf x.len = none) :
    ∃ t, exec (.armFrame f) s = .next t ∧ (s.corrected [(x.buf, x.len)]).onlyRing t ∧ t.ctxE? f.dstCtx =
      some { c with lastFrame := s.period, sends := c.sends.map (fun y => if y == x then { y with sent := true } else y) } := by
  obtain ⟨r, hr, -⟩ := State.besideRing.withArm s f
  have arms : (c.withArm f s.period).arms = [(f.tag.toNat, f.aux.toNat)] := by simp [CtxEntry.withArm, harms]
  have waits : (c.withArm f s.period).sends.find? (fun x => !x.sent) = some x := hx
  have due : ¬ (s.withArm f).cycle < x.readyAt := by rw [hr]; exact Nat.not_lt.2 hat
  have bytes : (s.withArm f).eccBad x.buf x.len = none := by rw [hr]; exact hecc
  obtain ⟨n, hn⟩ : ∃ n, c.sends.length = n + 1 := Nat.exists_eq_succ_of_ne_zero fun h0 => by
    rw [List.eq_nil_of_length_eq_zero h0] at hx
    cases hx
  have first : State.armIn f (s.received f) = State.sendDue n f.dstCtx ((s.withArm f).sendOne f.dstCtx (c.withArm f s.period) x (f.tag.toNat, f.aux.toNat) []) := by
    rw [State.armIn_received hc ho, hn]
    simp only [State.sendDue, State.withArm_ctxE? hc, waits, arms, due, if_false]
  have sent := State.sendOne_sends (s := s.withArm f) (i := f.dstCtx) (c := c.withArm f s.period) (arms := []) (arm := (f.tag.toNat, f.aux.toNat)) htag hlen bytes
  have context : ((s.withArm f).sendOne f.dstCtx (c.withArm f s.period) x (f.tag.toNat, f.aux.toNat) []).ctxE? f.dstCtx =
      some { c with lastFrame := s.period, sends := c.sends.map (fun y => if y == x then { y with sent := true } else y) } := by
    rw [sent, State.ctxE?_modCtxE, State.sendData_ctxE?, State.corrected_ctxE?, State.ctxE?_modCtxE, State.withArm_ctxE? hc, ← harms]
    rfl
  have effect : State.armIn f (s.received f) = (s.withArm f).sendOne f.dstCtx (c.withArm f s.period) x (f.tag.toNat, f.aux.toNat) [] :=
    first.trans (State.sendDue_unarmed context harms n)
  refine ⟨_, exec_armFrame f s, ?_, ?_⟩
  · have corrected := ((State.besideRing.withArm s f).modCtxE f.dstCtx (fun e => { e with arms := [] })).corrected [(x.buf, x.len)] 64
    have onlyRing : (s.corrected [(x.buf, x.len)]).onlyRing (State.armIn f (s.received f)) := by
      rw [effect, sent]
      exact (corrected.onlyRing.trans (State.onlyRing_sendData _ _ _ _ _)).trans (State.onlyRing_modCtxE _ _ _)
    exact State.onlyRing_iff.2 ((ringFree_offCounters.arrives h hme 1 _).trans (State.onlyRing_iff.1 onlyRing))
  · rw [(linkFree_ctxE? f.dstCtx).arrives h hme, effect, context]

/-! ### DONE -/

omit h hme hc ho in
theorem exec_doneFrame (f : Frame) (s : State) : exec (.doneFrame f) s = .next (s.arrives 2 f (State.doneIn f)) := rfl

/-- A DONE retires the RSEND that has sent. -/
theorem exec_doneFrame_retires {x : Send} (hx : c.sends.find? (fun x => x.sent) = some x) :
    ∃ t, exec (.doneFrame f) s = .next t ∧ s.onlyRing t ∧ t.ctxE? f.dstCtx = some { c with sends := c.sends.erase x, lastFrame := s.period } := by
  have now : (s.received f).period = s.period := RingFree.received (f := State.period) (fun _ _ => rfl) s f
  have effect : State.doneIn f (s.received f) =
      ((s.received f).modCtxE f.dstCtx (fun e => { e with lastFrame := s.period })).modCtxE f.dstCtx (fun e => { e with sends := e.sends.erase x }) := by
    rw [State.doneIn, State.protoIn_open (State.received_ctxE? hc) ho, now]
    simp only [hx]
  refine ⟨_, exec_doneFrame f s, ?_, ?_⟩
  · refine State.onlyRing_of_arrives h hme ?_
    rw [effect]
    exact (State.onlyRing_modCtxE _ _ _).trans (State.onlyRing_modCtxE _ _ _)
  · rw [(linkFree_ctxE? f.dstCtx).arrives h hme, effect, State.ctxE?_modCtxE, State.ctxE?_modCtxE, State.received_ctxE? hc]
    rfl

end

/-- Settles O34: ARM and DONE change their context behind the link layer; the message that goes out corrects what its read meets. -/
theorem armAndDone : Obligations.ArmAndDone := by
  unfold Obligations.ArmAndDone
  exact fun f c s h hme hc ho => ⟨exec_armFrame_kept h hme hc ho, fun x => exec_armFrame_sends h hme hc ho, fun x => exec_doneFrame_retires h hme hc ho⟩

end Sys2Proof.Machine
end

section
/-! A frame with a bad CRC at a port whose queue still holds a frame that can go (R319, R320): the negative acknowledgement lets the port send, and that frame takes its credit. O32 lets the rejected frame leave the credits of its port. -/

namespace Sys2Proof.Machine

/-- The module after a frame with a bad CRC: it is counted at its port and answered by a negative acknowledgement (R320). -/
def State.crcRejected (s : State) (f : Frame) : State := (s.bump (portReg f.port Reg.RNG_P_CRC) 1).sendAck f.port true

/-- The link layer of an up port rejects a frame with a bad CRC. -/
theorem State.linkIn_crc {s : State} {f : Frame} (hport : f.port < 5) (hup : (s.port f.port).st = .up) (hcrc : f.crcOk = false) (typ : Nat) (k : State → State) :
    s.linkIn typ f k = s.crcRejected f := by
  simp [State.linkIn, Nat.not_le.2 hport, hup, hcrc, State.crcRejected]

/-- A DATA frame for module 1 that waits in a port. -/
def waitingData : OutFrame := ctlFrame 0 1 0 0 0 0 0 0

/-- A module whose port 0 is up, with one credit of each class and channel, and a DATA frame in its queue. -/
def State.frameWaits : State :=
  State.reset.modPort 0 (fun q => { q with st := .up, outQ := [waitingData], credits := List.replicate 8 1 })

/-- An ARM with a bad CRC. -/
def brokenArm : Frame := ⟨0, 0, 0, 0, false, 0, 1, 0, 0, 0, 0, 0, []⟩

/-- The rejection of the ARM lets the DATA frame go, and its credit is used. -/
theorem State.frameWaits_credits : (State.frameWaits.port 0).st = .up ∧ (State.frameWaits.port 0).credits = List.replicate 8 1 ∧
    ((State.frameWaits.crcRejected brokenArm).port 0).credits = [1, 1, 1, 1, 1, 1, 0, 1] := by decide +kernel

/-- Refutes O32: an ARM with a bad CRC is answered by a negative acknowledgement; where a DATA frame stands in the queue of the port and may go, the port sends it behind the acknowledgement, and it takes its credit (R319). The statement lets the credits of the port stay. -/
theorem not_linkRejects : ¬ Obligations.LinkRejects := by
  intro hall
  unfold Obligations.LinkRejects at hall
  obtain ⟨hup, hcredits, hused⟩ := State.frameWaits_credits
  obtain ⟨hrejects, -⟩ := hall brokenArm ⟨0, 0, 0, 0, 0, 0, 0, 0, 0, 0, 0, 0⟩ 0 State.frameWaits (by decide) hup (.inl rfl)
  obtain ⟨t, ht, -, -, -, -, -, hkept, -⟩ := hrejects (.armFrame brokenArm) (by simp)
  have effect : exec (.armFrame brokenArm) State.frameWaits = .next (State.frameWaits.crcRejected brokenArm) :=
    congrArg Host.Outcome.next (State.linkIn_crc (by decide) hup rfl 1 _)
  have hfinal : State.frameWaits.crcRejected brokenArm = t := Host.Outcome.next.inj (effect.symm.trans ht)
  have kept : ((State.frameWaits.crcRejected brokenArm).port 0).credits = (State.frameWaits.port 0).credits := by
    rw [hfinal]
    exact hkept
  rw [hused, hcredits] at kept
  exact absurd kept (by decide)

end Sys2Proof.Machine
end

section
/-! A step always answers a next state (log 47): the outcome of issue, of an event and of every other command is `.next`. -/

namespace Sys2Proof.Machine

/-- The outcome is a next state. -/
def Answers : Host.Outcome State Fault Refusal → Prop
  | .next _ => True
  | _ => False

theorem Answers.exists_next {o : Host.Outcome State Fault Refusal} (h : Answers o) : ∃ t, o = .next t := by
  cases o with
  | next t => exact ⟨t, rfl⟩
  | fault => exact h.elim
  | refused => exact h.elim

/-- Each verdict of issue gives a next state, also the fault of the module (R431). -/
theorem issue_answers {h : Head} {i : IssueInfo} {act : Nat → State → State} {s : State} : Answers (issue h i act s) := by
  unfold issue
  split <;> exact trivial

theorem answers_ite {c : Prop} [Decidable c] {x y : Host.Outcome State Fault Refusal} (hx : Answers x) (hy : Answers y) :
    Answers (if c then x else y) := by
  split <;> assumption

theorem execRsend_answers {h : Head} {ref : SRef} {r : RingRec} {s : State} : Answers (execRsend h ref r s) :=
  answers_ite issue_answers issue_answers

/-- Recovery ends in one of its cases, whatever the plan and the margin are. -/
theorem execAutoRecovery_answers {l r : List Nat} {a : Bool} {s : State} : Answers (execAutoRecovery l r a s) := by
  unfold execAutoRecovery
  refine answers_ite trivial ?_
  split
  · exact trivial
  · extract_lets lead low tr plan u
    clear_value u lead plan tr
    refine answers_ite trivial ?_
    split <;> exact trivial

/-- Every command answers a next state: instructions through issue, commands of one effect directly, and the rest in each of their branches. -/
theorem exec_answers (i : Instr) (s : State) : Answers (exec i s) := by
  cases i
  case rsend => exact execRsend_answers
  case autoRecovery => exact execAutoRecovery_answers
  case
      placementTick | junctionOvertemp | leakDetected | railFault | inputOutOfRange | bodyWithdrawn | powerOn | rstNPulse |
      secondBoundary | dataFrame | armFrame | doneFrame | openFrame | closeFrame | phaseFrame | holdOn | holdOff | rateMessage |
      beaconFrame | rebindFrame | normFrame | identify | openCmd | close | loadImage | patch | commitImage | unload | start | hold |
      resume | stop | snapshot | restore | joinRing | pair | leaveRing | fwLoad | fwActivate | attest | eventQueue | faultClear |
      registerWrite | glbStrobe | fltEqTail | thySnapCtrl | thyTodCtrl | thyPrio | thyRateCap | tirCopyCtrl | rngBayCtrl | mirFence |
      detCtrl | glbCrcCtrl | glbCfgCrcRef | secRevoke | secPolicy | secReset | calSave | pwrLimit | holdMessage => exact trivial
  case
      nop | endStream | stepb | rcall | setbase | setver | br | beq | bne | bltu | blt | sadd | ssub | smul | sand | sor | sxor | sshl |
      sshr | ssra | sli | slih | sld | sst | mmf | mmt | mmg | mmgCand | redSum | redMax | redMin | vadd | vsub | vmul | vfma | vmax |
      vmin | vabs | vneg | vcvt | vfn | vder | vtload | dloadC | dloadD | dloadT | dbuild | dcopy | dadd | dfill | mbind | mdec |
      pruneG | pruneL | regrowM | regrowR | mcommit | mcommitAdopt | unrm | unrmFin | uchk | uverOpen | upd | uverClose | ctxAppend |
      ctxAdv | pstage | rrecv | wcreq | wcset | digH | digProv =>
    simp only [issue_answers, exec,
      State.issueDma, State.issueMM, State.issueMask, State.issueRed, State.issueVec, alu, branch, execNop, execEndStream, execStepb,
      execRcall, execSetbase, execSetver, execBr, execBeq, execBne, execBltu, execBlt, execSadd, execSsub, execSmul, execSand, execSor,
      execSxor, execSshl, execSshr, execSsra, execSli, execSlih, execSld, execSst, execMmf, execMmt, execMmg, execMmgCand, execRedSum,
      execRedMax, execRedMin, execVadd, execVsub, execVmul, execVfma, execVmax, execVmin, execVabs, execVneg, execVcvt, execVfn,
      execVder, execVtload, execDloadC, execDloadD, execDloadT, execDbuild, execDcopy, execDadd, execDfill, execMbind, execMdec,
      execPruneG, execPruneL, execRegrowM, execRegrowR, execMcommit, execMcommitAdopt, execUnrm, execUnrmFin, execUchk, execUverOpen,
      execUpd, execUverClose, execCtxAppend, execCtxAdv, execPstage, execRrecv, execWcreq, execWcset, execDigH, execDigProv]
  case
      sldRegisterWritten | preloadEnd | segmentEnd | totalsFinal | ftqEntry | gbAddition | redRetire | vectorPassStart |
      vectorWriteLanded | drain | queueOverflow | descriptorFetch | codecTile | descriptorComplete | maskEngineStart | maskOpComplete |
      uchkVerdict | updTile | deferTimeout | uverCloseRetire | stagingComplete | stageHoldTimeout | workCounterRequest |
      dillEngineStart | periodBoundary | phaseHoldLimit | moduleStepBoundary | selftestComplete | holdoverTimeout | masterLostTimeout |
      controllerWindow | boot | oscStable | linkReset | ptpMessage | ptpSyncTimer | addingUnitApply | linkFrame | beaconHoldExpiry |
      trainFrame | creditFrame | frameForward | ackTimer | replayTimeout | laneFailure | lightLoss | breakTimeout | ctxTimeout |
      openTimeout | journalBlockCopy | refillCopyBlock | packageCopyBlock | crcScrub | rateWindowEnd | fwActivation | fwHealthTimeout |
      sealWrite | bar4Access | slLowRead | strobeCommit | idleOnlyCommit | passReadEnd | vtloadRetire | unrmRetire | ctxAppendRetire |
      digestWritten | portTrainTimeout | patrolScrub =>
    dsimp only [exec,
      execSldRegisterWritten, execPreloadEnd, execSegmentEnd, execTotalsFinal, execFtqEntry, execGbAddition, execRedRetire,
      execVectorPassStart, execVectorWriteLanded, execDrain, execQueueOverflow, execDescriptorFetch, execCodecTile,
      execDescriptorComplete, execMaskEngineStart, execMaskOpComplete, execUchkVerdict, execUpdTile, execDeferTimeout,
      execUverCloseRetire, execStagingComplete, execStageHoldTimeout, execWorkCounterRequest, execDillEngineStart, execPeriodBoundary,
      execPhaseHoldLimit, execModuleStepBoundary, execSelftestComplete, execHoldoverTimeout, execMasterLostTimeout, execControllerWindow,
      execBoot, execOscStable, execLinkReset, execPtpMessage, execPtpSyncTimer, execAddingUnitApply, execLinkFrame, execBeaconHoldExpiry,
      execTrainFrame, execCreditFrame, execFrameForward, execAckTimer, execReplayTimeout, execLaneFailure, execLightLoss,
      execBreakTimeout, execCtxTimeout, execOpenTimeout, execJournalBlockCopy, execRefillCopyBlock, execPackageCopyBlock, execCrcScrub,
      execRateWindowEnd, execFwActivation, execFwHealthTimeout, execSealWrite, execBar4Access, execSlLowRead, execStrobeCommit,
      execIdleOnlyCommit, execPassReadEnd, execVtloadRetire, execUnrmRetire, execCtxAppendRetire, execDigestWritten,
      execPortTrainTimeout, execPatrolScrub]
    repeat' split
    all_goals exact trivial

/-- Settles O5: an idle cycle answers a next state, and a command from the queue does. -/
theorem stepAlwaysNext : Obligations.StepAlwaysNext := by
  intro s
  unfold step
  split
  · exact ⟨s.idle, rfl⟩
  · exact (exec_answers _ _).exists_next

end Sys2Proof.Machine
end

section
/-! What the record of a conflict or of a discarded guarded write leaves (R411, R414, R436), and the two statements about them. -/

namespace Sys2Proof.Machine

/-! ### An event entry in the host's queue (R436) -/

theorem State.signalEvents_hostMem (s : State) (v : Nat) : (s.signalEvents v).hostMem = s.hostMem := by
  unfold State.signalEvents
  exact keeps_ite rfl rfl

theorem State.writeEntry_hostMem {s : State} {e : EventEntry} {a : Nat} (hact : s.activating = none) (hfit : s.entryFits e.kind = true)
    (hq : s.flt.eqAddr = some a) :
    (s.writeEntry e).hostMem = memPut s.hostMem (a + 32 * s.flt.head) (eventBytes e s.ring.addr ((s.flt.seq + 1) % 2 ^ 32)) := by
  simp only [State.writeEntry, hact, hfit, hq, Option.isSome_none, Bool.not_true, Bool.false_eq_true, if_false, State.signalEvents_hostMem]

/-- An event that is written counts, and uses up its window. -/
def State.windowed (s : State) (code subject : Nat) : State :=
  let t := s.countEvent
  { t with flt := { t.flt with windowCounts :=
      (code, subject, windowCount t.flt.windowCounts code subject + 1) :: t.flt.windowCounts.filter (fun e => !(e.1 == code && e.2.1 == subject)) } }

theorem State.countEvent_rate (s : State) : s.countEvent.regN Reg.FLT_RATE = s.regN Reg.FLT_RATE := by
  rw [State.regN, State.countEvent, State.reg_setBits_ne _ _ _ _ (by decide), State.reg_bump_ne _ _ _ _ (by decide), State.regN]

/-- An event within its rate that fits the queue is one entry. -/
theorem State.postEvent_within {s : State} {code outcome subject detail : Nat} (hfit : s.entryFits 0 = true)
    (hrate : windowCount s.flt.windowCounts code subject < s.regN Reg.FLT_RATE % 65536) :
    s.postEvent code outcome subject detail = (s.windowed code subject).writeEntry ⟨code, 0, outcome, 1, s.period, subject, 0, detail⟩ := by
  have fits : s.countEvent.entryFits 0 = true := hfit
  have counts : windowCount s.countEvent.flt.windowCounts code subject < s.regN Reg.FLT_RATE % 65536 := hrate
  simp only [State.postEvent, State.countEvent_rate, Nat.not_le.mpr counts, fits, decide_false, Bool.and_false, Bool.false_eq_true, if_false,
    if_true]
  rfl

theorem State.postEvent_hostMem {s : State} {code outcome subject detail a : Nat} (hact : s.activating = none) (hfit : s.entryFits 0 = true)
    (hq : s.flt.eqAddr = some a) (hrate : windowCount s.flt.windowCounts code subject < s.regN Reg.FLT_RATE % 65536) :
    (s.postEvent code outcome subject detail).hostMem = memPut s.hostMem (a + 32 * s.flt.head)
      (eventBytes ⟨code, 0, outcome, 1, s.period, subject, 0, detail⟩ s.ring.addr ((s.flt.seq + 1) % 2 ^ 32)) := by
  have act : (s.windowed code subject).activating = none := hact
  have fits : (s.windowed code subject).entryFits 0 = true := hfit
  have queue : (s.windowed code subject).flt.eqAddr = some a := hq
  rw [State.postEvent_within hfit hrate, State.writeEntry_hostMem act fits queue]
  rfl

theorem eventBytes_length (e : EventEntry) (r k : Nat) : (eventBytes e r k).length = 32 := by simp [eventBytes, leBytes]

theorem eventBytes_code (e : EventEntry) (r k : Nat) : (eventBytes e r k).getD 0 0 = BitVec.ofNat 8 e.code := by simp [eventBytes, leBytes]

theorem eventBytes_detail (e : EventEntry) (r k : Nat) : (eventBytes e r k).getD 24 0 = BitVec.ofNat 8 e.detail := by
  simp [eventBytes, leBytes, List.range_succ]

/-- An event leaves the registers beside those that count events. -/
theorem State.postEvent_reg {a : Nat} (ha : a ∉ noteRegs) (s : State) (c o x d : Nat) : (s.postEvent c o x d).reg a = s.reg a :=
  (EventFree.of_reg ha).postEvent s c o x d

/-- An entry changes host memory and the fault block, or counts as lost. -/
theorem writeEntry_keeps {α : Type} {f : State → α} (hf : ∀ (s : State) m x, f { s with hostMem := m, flt := x } = f s)
    (hlost : ∀ s : State, f s.loseEntry = f s) (s : State) (e : EventEntry) : f (s.writeEntry e) = f s := by
  have signals : ∀ (s : State) v, f (s.signalEvents v) = f s := fun s v => by
    unfold State.signalEvents
    exact keeps_onlyIf (hf s s.hostMem _)
  refine keeps_ite (hf s s.hostMem _) (keeps_ite (hlost s) ?_)
  split
  · exact hf s s.hostMem _
  · exact (signals _ _).trans (hf s _ _)

/-- What neither an entry nor a suppressed event changes is as the count of the event leaves it. -/
theorem postEvent_counted {α : Type} {f : State → α} (hf : ∀ (s : State) m x, f { s with hostMem := m, flt := x } = f s)
    (hlost : ∀ s : State, f s.loseEntry = f s) (hsup : ∀ s : State, f (s.bump Reg.FLT_EVENTS_SUPPRESSED 1) = f s)
    (s : State) (c o x d : Nat) : f (s.postEvent c o x d) = f s.countEvent :=
  keeps_ite ((hf _ _ _).trans (hsup _)) ((writeEntry_keeps hf hlost _ _).trans (keeps_onlyIf (hf _ _ _)))

theorem State.postEvent_events {s : State} (hs : s.regsSorted) (c o x d : Nat) :
    (s.postEvent c o x d).reg Reg.FLT_EVENTS = s.reg Reg.FLT_EVENTS + 1 := by
  have counted : s.countEvent.reg Reg.FLT_EVENTS = s.reg Reg.FLT_EVENTS + 1 := by
    rw [State.countEvent, State.reg_setBits_ne _ _ _ _ (by decide), State.reg_bump_same _ _ _ hs (by decide)]
    rfl
  have lost : ∀ t : State, t.loseEntry.reg Reg.FLT_EVENTS = t.reg Reg.FLT_EVENTS := fun t => by
    rw [State.loseEntry, State.reg_setBits_ne _ _ _ _ (by decide), State.reg_bump_ne _ _ _ _ (by decide)]
  have suppressed : ∀ t : State, (t.bump Reg.FLT_EVENTS_SUPPRESSED 1).reg Reg.FLT_EVENTS = t.reg Reg.FLT_EVENTS := fun t =>
    t.reg_bump_ne _ _ _ (by decide)
  exact (postEvent_counted (f := fun t => t.reg Reg.FLT_EVENTS) (fun _ _ _ => rfl) lost suppressed s c o x d).trans counted

/-! ### What an event leaves -/

theorem eventFree_requester (q : Requester) : EventFree (fun s => s.requester q) where
  notes _ _ _ _ _ := by cases q <;> rfl
  bump s b n _ := s.requester_bump q b n
  setBits s b m _ := s.requester_setBits q b m

theorem eventFree_shadows : EventFree (fun s => s.regs.shadows) where
  notes _ _ _ _ _ := rfl
  bump _ _ _ _ := keeps_ite (f := fun t => t.regs.shadows) rfl rfl
  setBits _ _ _ _ := rfl

theorem eventFree_strobes : EventFree (fun s => s.regs.strobes) where
  notes _ _ _ _ _ := rfl
  bump _ _ _ _ := keeps_ite (f := fun t => t.regs.strobes) rfl rfl
  setBits _ _ _ _ := rfl

/-! ### A record in three registers: a count, an address and a flag -/

/-- Counts in `c`, sets `a` to a value and bit 0 of `st`. -/
def State.noted (s : State) (c a st : Nat) (v : W32) : State := ((s.bump c 1).setReg a v).setBits st 1

theorem State.strobeConflict_eq (s : State) (off : Nat) : s.strobeConflict off =
    (s.noted Reg.GLB_STROBE_CONFLICTS Reg.GLB_STROBE_CONFLICT_ADDR Reg.GLB_STROBE_STATUS (BitVec.ofNat 32 off)).postEvent 0x42 0 s.ring.addr off := by
  simp only [State.strobeConflict, State.noted, State.bump, if_neg Nat.one_ne_zero]
  rfl

theorem State.guardErr_eq (s : State) (off : Nat) (half : Bool) : s.guardErr off half =
    (s.noted Reg.GLB_GUARD_ERRS Reg.GLB_GUARD_ADDR Reg.GLB_GUARD_STATUS (BitVec.ofNat 32 (bnat half * 2 ^ 31 + off))).postEvent 0x41 0 s.ring.addr off := by
  simp only [State.guardErr, State.noted, State.bump, if_neg Nat.one_ne_zero]
  rfl

section
variable {s : State} {c a st : Nat} {v : W32}

theorem State.noted_regsSorted (hs : s.regsSorted) : (s.noted c a st v).regsSorted :=
  State.setBits_regsSorted (State.setReg_regsSorted (State.bump_regsSorted hs _ _) _ _) _ _

theorem State.noted_count (hs : s.regsSorted) (ha : c ≠ a) (hst : c ≠ st) : (s.noted c a st v).reg c = s.reg c + 1 := by
  rw [State.noted, State.reg_setBits_ne _ _ _ _ hst, State.reg_setReg_ne _ _ _ _ ha, State.reg_bump_same _ _ _ hs Nat.one_ne_zero]
  rfl

theorem State.noted_value (hs : s.regsSorted) (hst : a ≠ st) : (s.noted c a st v).reg a = v := by
  rw [State.noted, State.reg_setBits_ne _ _ _ _ hst, State.reg_setReg_same _ _ _ (State.bump_regsSorted hs _ _)]

theorem State.noted_flag (hs : s.regsSorted) : ((s.noted c a st v).reg st).getLsbD 0 = true := by
  rw [State.noted, State.reg_setBits_same _ _ _ (State.setReg_regsSorted (State.bump_regsSorted hs _ _) _ _)]
  simp

theorem State.noted_reg_ne {b : Nat} (hc : b ≠ c) (ha : b ≠ a) (hst : b ≠ st) : (s.noted c a st v).reg b = s.reg b := by
  rw [State.noted, State.reg_setBits_ne _ _ _ _ hst, State.reg_setReg_ne _ _ _ _ ha, State.reg_bump_ne _ _ _ _ hc]

theorem RegFree.noted {α : Type} {f : State → α} (hf : RegFree f) : f (s.noted c a st v) = f s :=
  (hf.setBits _ _ _).trans ((hf.setReg _ _ _).trans (hf.bump _ _ _))

theorem State.noted_shadows : (s.noted c a st v).regs.shadows = s.regs.shadows := keeps_ite (f := fun t => t.regs.shadows) rfl rfl

theorem State.noted_strobes : (s.noted c a st v).regs.strobes = s.regs.strobes := keeps_ite (f := fun t => t.regs.strobes) rfl rfl

theorem State.noted_requester (q : Requester) : (s.noted c a st v).requester q = s.requester q := by
  rw [State.noted, State.requester_setBits, State.requester_setReg, State.requester_bump]

end

/-- A conflict changes nothing that neither registers nor events change. -/
theorem EventFree.strobeConflict {α : Type} {f : State → α} (hf : EventFree f) (hr : RegFree f) (s : State) (off : Nat) : f (s.strobeConflict off) = f s := by
  rw [State.strobeConflict_eq, hf.postEvent, hr.noted]

theorem EventFree.guardErr {α : Type} {f : State → α} (hf : EventFree f) (hr : RegFree f) (s : State) (off : Nat) (b : Bool) : f (s.guardErr off b) = f s := by
  rw [State.guardErr_eq, hf.postEvent, hr.noted]

/-! ### A write to a committing group (R411) -/

theorem State.strobeConflict_shadows (s : State) (off : Nat) : (s.strobeConflict off).regs.shadows = s.regs.shadows := by
  rw [State.strobeConflict_eq, eventFree_shadows.postEvent, State.noted_shadows]

theorem State.strobeConflict_strobes (s : State) (off : Nat) : (s.strobeConflict off).regs.strobes = s.regs.strobes := by
  rw [State.strobeConflict_eq, eventFree_strobes.postEvent, State.noted_strobes]

theorem State.strobeConflict_records {s : State} (hs : s.regsSorted) (off : Nat) :
    (s.strobeConflict off).reg Reg.GLB_STROBE_CONFLICTS = s.reg Reg.GLB_STROBE_CONFLICTS + 1 ∧
      (s.strobeConflict off).reg Reg.GLB_STROBE_CONFLICT_ADDR = BitVec.ofNat 32 off ∧
      ((s.strobeConflict off).reg Reg.GLB_STROBE_STATUS).getLsbD 0 = true ∧
      (s.strobeConflict off).reg Reg.FLT_EVENTS = s.reg Reg.FLT_EVENTS + 1 := by
  rw [State.strobeConflict_eq]
  refine ⟨?_, ?_, ?_, ?_⟩
  · rw [State.postEvent_reg (by decide), State.noted_count hs (by decide) (by decide)]
  · rw [State.postEvent_reg (by decide), State.noted_value hs (by decide)]
  · rw [State.postEvent_reg (by decide), State.noted_flag hs]
  · rw [State.postEvent_events (State.noted_regsSorted hs), State.noted_reg_ne (by decide) (by decide) (by decide)]

/-- The entry of a conflict begins with its code, and its detail is the offset. -/
theorem State.strobeConflict_hostMem {s : State} {off a : Nat} (hwf : Memory.wf s.hostMem) (hact : s.activating = none) (hfit : s.entryFits 0 = true)
    (hq : s.flt.eqAddr = some a) (hrate : windowCount s.flt.windowCounts 0x42 s.ring.addr < s.regN Reg.FLT_RATE % 65536) :
    memByte (s.strobeConflict off).hostMem (a + 32 * s.flt.head) = 0x42 ∧
      memByte (s.strobeConflict off).hostMem (a + 32 * s.flt.head + 24) = BitVec.ofNat 8 off := by
  have noted : ∀ {α : Type} (g : State → α), RegFree g → g (s.noted Reg.GLB_STROBE_CONFLICTS Reg.GLB_STROBE_CONFLICT_ADDR Reg.GLB_STROBE_STATUS
      (BitVec.ofNat 32 off)) = g s := fun g hg => hg.noted
  have flt := noted State.flt fun _ _ => rfl
  have rate : (s.noted Reg.GLB_STROBE_CONFLICTS Reg.GLB_STROBE_CONFLICT_ADDR Reg.GLB_STROBE_STATUS (BitVec.ofNat 32 off)).regN Reg.FLT_RATE = s.regN Reg.FLT_RATE := by
    rw [State.regN, State.noted_reg_ne (by decide) (by decide) (by decide), State.regN]
  rw [State.strobeConflict_eq, State.postEvent_hostMem ((noted State.activating fun _ _ => rfl).trans hact)
    ((noted (fun t => t.entryFits 0) fun _ _ => rfl).trans hfit) (by rw [flt, hq]) (by rw [flt, rate]; exact hrate)]
  rw [flt, noted State.hostMem fun _ _ => rfl]
  constructor
  · rw [memByte_memPut _ _ _ _ hwf, if_pos (by rw [eventBytes_length]; omega), Nat.sub_self, eventBytes_code]
    rfl
  · rw [memByte_memPut _ _ _ _ hwf, if_pos (by rw [eventBytes_length]; omega), Nat.add_sub_cancel_left, eventBytes_detail]

theorem exec_registerWrite_conflict {q : Requester} {off : Nat} {r : RegRow} {v : W32} {s : State} (hb : s.barUp = true) (hm : msixOffset off = false)
    (hr : regRow off = some r) (ho : off < 0x100000 ∨ 0x540000 ≤ off) (ha : r.acc = .rw ∨ r.acc = .slw ∨ r.acc = .slwHi)
    (hst : s.strobing r.group = true) : exec (.registerWrite q off (.word 0xF v)) s = .next (s.strobeConflict off) := by
  have array : (decide (0x100000 ≤ off) && decide (off < 0x540000)) = false := by
    rw [Bool.and_eq_false_iff, decide_eq_false_iff_not, decide_eq_false_iff_not]
    omega
  have reg : s.writeReg q off v = s.strobeConflict off := by
    simp only [State.writeReg, hr, array, Bool.false_and, Bool.false_eq_true, if_false]
    obtain h | h | h := ha <;> simp only [h, State.writeShadow, hst, if_true]
  show Host.Outcome.next (s.writeWord q off 0xF#4 v) = _
  simp only [State.writeWord, hb, hm, bne_self_eq_false, Bool.not_true, Bool.or_self, Bool.false_eq_true, if_false, reg]

/-- Settles O50: the write becomes the record of its conflict, which is a count, the offset, a flag and an event. -/
theorem strobeConflict : Obligations.StrobeConflict := by
  intro q off r v s hb hm hr ho ha hs hst
  obtain ⟨count, addr, flag, events⟩ := State.strobeConflict_records hs off
  refine ⟨_, exec_registerWrite_conflict hb hm hr ho ha hst, s.strobeConflict_shadows off, s.strobeConflict_strobes off, count, addr, flag, events,
    (EventFree.of_unread fun _ _ _ _ => rfl).strobeConflict (fun _ _ => rfl) s off, (EventFree.of_unread fun _ _ _ _ => rfl).strobeConflict (fun _ _ => rfl) s off,
    fun a hwf hfit hact hq hrate => State.strobeConflict_hostMem hwf hact hfit hq hrate⟩

end Sys2Proof.Machine
end

section
/-! When a guarded pair opens, is discarded, and is the same as a register write (R414); O47. -/

namespace Sys2Proof.Machine

/-- The state with the pair of a requester open at an offset. -/
def State.openPair (s : State) (q : Requester) (off : Nat) (v : W32) : State :=
  s.modRequester q (fun r => { r with pair := some ⟨off, v, s.thy.bus⟩ })

theorem State.openPair_reg (s : State) (q : Requester) (off a : Nat) (v : W32) : (s.openPair q off v).reg a = s.reg a := by cases q <;> rfl

theorem State.openPair_pair (s : State) (q : Requester) (off : Nat) (v : W32) : ((s.openPair q off v).requester q).pair = some ⟨off, v, s.thy.bus⟩ := by
  cases q <;> rfl

theorem RegFree.openPair {α : Type} {f : State → α} (hf : RegFree f) (s : State) (q : Requester) (off : Nat) (v : W32) : f (s.openPair q off v) = f s := by
  cases q <;> exact hf s _

theorem RegFree.closePair {α : Type} {f : State → α} (hf : RegFree f) (s : State) (q : Requester) : f (s.closePair q) = f s := hf s _

/-! ### What the record of a discarded write leaves -/

theorem State.guardErr_requester (s : State) (off : Nat) (b : Bool) (q : Requester) : (s.guardErr off b).requester q = s.requester q := by
  rw [State.guardErr_eq, (eventFree_requester q).postEvent, State.noted_requester]

/-- Registers that a discarded guarded write changes, beside those that count events. -/
def guardRegs : List Nat := [Reg.GLB_GUARD_ERRS, Reg.GLB_GUARD_ADDR, Reg.GLB_GUARD_STATUS]

theorem State.guardErr_reg {a : Nat} (hn : a ∉ noteRegs) (hg : a ∉ guardRegs) (s : State) (off : Nat) (b : Bool) : (s.guardErr off b).reg a = s.reg a := by
  simp only [guardRegs, List.mem_cons, List.not_mem_nil, or_false, not_or] at hg
  obtain ⟨herrs, haddr, hstatus⟩ := hg
  rw [State.guardErr_eq, State.postEvent_reg hn, State.noted_reg_ne herrs haddr hstatus]

theorem State.guardErr_records {s : State} (hs : s.regsSorted) (off : Nat) (b : Bool) :
    (s.guardErr off b).reg Reg.GLB_GUARD_ERRS = s.reg Reg.GLB_GUARD_ERRS + 1 ∧ ((s.guardErr off b).reg Reg.GLB_GUARD_STATUS).getLsbD 0 = true := by
  rw [State.guardErr_eq, State.postEvent_reg (by decide), State.postEvent_reg (by decide), State.noted_count hs (by decide) (by decide), State.noted_flag hs]
  exact ⟨rfl, rfl⟩

/-- A state that differs from another in the registers, the fault block and host memory alone. -/
theorem State.guardErr_frame (s : State) (off : Nat) (b : Bool) :
    (s.guardErr off b).arrays = s.arrays ∧ (s.guardErr off b).mem = s.mem ∧ (s.guardErr off b).thy = s.thy ∧ (s.guardErr off b).mir = s.mir ∧
      (s.guardErr off b).dev = s.dev ∧ (s.guardErr off b).ring = s.ring ∧ (s.guardErr off b).tiers = s.tiers := by
  have unread : ∀ {α : Type} (f : State → α), (∀ s m x r, f { s with hostMem := m, flt := x, regs := r } = f s) → f (s.guardErr off b) = f s :=
    fun f hf => (EventFree.of_unread hf).guardErr (fun s r => hf s s.hostMem s.flt r) s off b
  exact ⟨unread (·.arrays) fun _ _ _ _ => rfl, unread (·.mem) fun _ _ _ _ => rfl, unread (·.thy) fun _ _ _ _ => rfl, unread (·.mir) fun _ _ _ _ => rfl,
    unread (·.dev) fun _ _ _ _ => rfl, unread (·.ring) fun _ _ _ _ => rfl, unread (·.tiers) fun _ _ _ _ => rfl⟩

/-! ### The two writes of a pair -/

section
variable {s : State} {q : Requester} {off : Nat} {v : W32} {take : W32 → State → State}

theorem State.guarded_down (hb : s.barUp = false) (c : Bool) : s.guarded q off c v take = s := by simp [State.guarded, hb]

theorem State.guarded_opens (hb : s.barUp = true) (hp : (s.requester q).pair = none) : s.guarded q off false v take = s.openPair q off v := by
  simp [State.guarded, hb, hp, State.openPair]

theorem State.guarded_replaces (hb : s.barUp = true) (hp : (s.requester q).pair.isSome = true) :
    s.guarded q off false v take = (s.guardErr off false).openPair q off v := by
  simp [State.guarded, hb, hp, State.openPair]

/-- The pair of the requester is not one that this complement completes. -/
def State.noMatch (s : State) (q : Requester) (off : Nat) (v : W32) : Prop :=
  ∀ g, (s.requester q).pair = some g → g.offset ≠ off ∨ v ≠ ~~~g.value ∨ g.openedAt + 64 < s.thy.bus

theorem State.guarded_discards (hb : s.barUp = true) (hn : s.noMatch q off v) :
    s.guarded q off true v take = (s.closePair q).guardErr off true := by
  cases hp : (s.requester q).pair with
  | none =>
    have closed : s.closePair q = s := by
      rw [← State.closePair_eq]
      cases q with
      | host =>
        show { s with regs := { s.regs with host := { s.regs.host with pair := none } } } = s
        rw [← show s.regs.host.pair = none from hp]
      | sage =>
        show { s with regs := { s.regs with sage := { s.regs.sage with pair := none } } } = s
        rw [← show s.regs.sage.pair = none from hp]
    simp [State.guarded, hb, hp, closed]
  | some g =>
    have mismatch : (g.offset == off && v == ~~~g.value && decide (s.thy.bus ≤ g.openedAt + 64)) = false := by
      simp only [Bool.and_eq_false_iff, beq_eq_false_iff_ne, decide_eq_false_iff_not, or_assoc, Nat.not_le]
      exact hn g hp
    simp only [State.guarded, hb, hp, mismatch, State.closePair_eq, Bool.not_true, Bool.false_eq_true, if_false]

theorem State.guarded_replaces_effect (hs : s.regsSorted) (hn : off ∉ noteRegs) (hg : off ∉ guardRegs) (hb : s.barUp = true)
    (hp : (s.requester q).pair.isSome = true) (t : State) (ht : t = s.guarded q off false v take) :
    (t.requester q).pair = some ⟨off, v, s.thy.bus⟩ ∧ t.reg off = s.reg off ∧ t.reg Reg.GLB_GUARD_ERRS = s.reg Reg.GLB_GUARD_ERRS + 1 ∧
      (t.reg Reg.GLB_GUARD_STATUS).getLsbD 0 = true ∧ t.arrays = s.arrays ∧ t.mem = s.mem ∧ t.thy = s.thy ∧ t.mir = s.mir ∧ t.dev = s.dev ∧
      t.ring = s.ring ∧ t.tiers = s.tiers := by
  obtain ⟨errs, status⟩ := State.guardErr_records hs off false
  obtain ⟨arrays, mem, thy, mir, dev, ring, tiers⟩ := s.guardErr_frame off false
  have beside : ∀ {α : Type} (f : State → α), RegFree f → f t = f (s.guardErr off false) := fun f hf => by
    rw [ht, State.guarded_replaces hb hp, hf.openPair]
  have reg : ∀ a, t.reg a = (s.guardErr off false).reg a := fun a => by rw [ht, State.guarded_replaces hb hp, State.openPair_reg]
  refine ⟨?_, by rw [reg, State.guardErr_reg hn hg], by rw [reg, errs], by rw [reg, status], (beside (·.arrays) fun _ _ => rfl).trans arrays,
    (beside (·.mem) fun _ _ => rfl).trans mem, (beside (·.thy) fun _ _ => rfl).trans thy, (beside (·.mir) fun _ _ => rfl).trans mir,
    (beside (·.dev) fun _ _ => rfl).trans dev, (beside (·.ring) fun _ _ => rfl).trans ring, (beside (·.tiers) fun _ _ => rfl).trans tiers⟩
  rw [ht, State.guarded_replaces hb hp, State.openPair_pair, thy]

theorem State.guarded_discards_effect (hs : s.regsSorted) (hn : off ∉ noteRegs) (hg : off ∉ guardRegs) (hb : s.barUp = true)
    (hp : s.noMatch q off v) (t : State) (ht : t = s.guarded q off true v take) :
    (t.requester q).pair = none ∧ t.reg off = s.reg off ∧ t.reg Reg.GLB_GUARD_ERRS = s.reg Reg.GLB_GUARD_ERRS + 1 ∧
      (t.reg Reg.GLB_GUARD_STATUS).getLsbD 0 = true ∧ t.arrays = s.arrays ∧ t.mem = s.mem ∧ t.thy = s.thy ∧ t.mir = s.mir ∧ t.dev = s.dev ∧
      t.ring = s.ring ∧ t.tiers = s.tiers := by
  obtain rfl : t = (s.closePair q).guardErr off true := ht.trans (State.guarded_discards hb hp)
  obtain ⟨errs, status⟩ := State.guardErr_records (s.closePair_regsSorted q hs) off true
  obtain ⟨arrays, mem, thy, mir, dev, ring, tiers⟩ := (s.closePair q).guardErr_frame off true
  refine ⟨?_, by rw [State.guardErr_reg hn hg, State.closePair_reg], by rw [errs, State.closePair_reg], status, arrays, mem, thy, mir, dev, ring, tiers⟩
  rw [State.guardErr_requester, State.closePair_pair]

end

/-! ### The fourteen registers -/

/-- The command of each guarded register. -/
def guardedCmds : List ((Requester → Bool → BitVec 32 → Instr) × Nat) :=
  [(Instr.thyTodCtrl, Reg.THY_TOD_CTRL), (Instr.thyPrio, Reg.THY_PRIO), (Instr.thyRateCap, Reg.THY_RATE_CAP),
    (Instr.tirCopyCtrl, Reg.TIR_COPY_CTRL), (Instr.rngBayCtrl, Reg.RNG_BAY_CTRL), (Instr.mirFence, Reg.MIR_FENCE),
    (Instr.detCtrl, Reg.DET_CTRL), (Instr.glbCrcCtrl, Reg.GLB_CRC_CTRL), (Instr.glbCfgCrcRef, Reg.GLB_CFG_CRC_REF),
    (Instr.secRevoke, Reg.SEC_REVOKE), (Instr.secPolicy, Reg.SEC_POLICY), (Instr.secReset, Reg.SEC_RESET),
    (Instr.calSave, Reg.CAL_SAVE), (Instr.pwrLimit, Reg.PWR_LIMIT)]

theorem exec_guardedCmd : ∀ p ∈ guardedCmds, ∀ q b v s, exec (p.1 q b v) s = .next (s.guarded q p.2 b v (State.take p.2)) := by
  intro p hp
  fin_cases hp <;> exact fun _ _ _ _ => rfl

/-- Where a guarded register and its complement stand: outside the array blocks and the MSI-X table, and beside the registers of events and discards. -/
abbrev guardedOffset (off : Nat) : Prop :=
  (regRow off).map (·.acc) = some .wg ∧ regRow (off + 0x800) = none ∧ complementOf (off + 0x800) = some off ∧ msixOffset off = false ∧
    msixOffset (off + 0x800) = false ∧ (off < 0x100000 ∨ 0x540000 ≤ off) ∧ off ∉ noteRegs ∧ off ∉ guardRegs

theorem guardedCmd_offset : ∀ p ∈ guardedCmds, guardedOffset p.2 := by
  intro p hp
  fin_cases hp <;> decide

section
variable {off : Nat} {s : State} {q : Requester} {v : W32}

theorem State.writeReg_guarded (ho : guardedOffset off) : s.writeReg q off v = s.guarded q off false v (State.take off) := by
  obtain ⟨row, -, -, -, -, outside, -, -⟩ := ho
  obtain ⟨r, hr, hacc⟩ := Option.map_eq_some_iff.mp row
  have array : (decide (0x100000 ≤ off) && decide (off < 0x540000)) = false := by
    rw [Bool.and_eq_false_iff, decide_eq_false_iff_not, decide_eq_false_iff_not]
    omega
  simp only [State.writeReg, hr, array, hacc, Bool.false_and, Bool.false_eq_true, if_false]

theorem State.writeReg_complement (ho : guardedOffset off) : s.writeReg q (off + 0x800) v = s.guarded q off true v (State.take off) := by
  obtain ⟨-, row, complement, -⟩ := ho
  simp only [State.writeReg, row, complement]

/-- A word of the register bus outside the MSI-X table; before the register file is up nothing happens (R402, R449). -/
theorem exec_registerWrite_word (hm : msixOffset off = false) :
    exec (.registerWrite q off (.word 0xF v)) s = .next (if s.barUp then s.writeReg q off v else s) := by
  show Host.Outcome.next (s.writeWord q off 0xF#4 v) = _
  cases hb : s.barUp <;> simp [State.writeWord, hb, hm]

theorem State.guarded_ifUp (b : Bool) (take : W32 → State → State) :
    (if s.barUp then s.guarded q off b v take else s) = s.guarded q off b v take := by
  cases hb : s.barUp <;> simp [State.guarded, hb]

end

/-- Settles O47: each of the fourteen commands is the guarded write of its register, and so are the two register writes. -/
theorem guardedPairs : Obligations.GuardedPairs := by
  intro p hp q v s
  have cmd := exec_guardedCmd p hp
  have off := guardedCmd_offset p hp
  have ⟨_, _, _, hm, hmc, _, hn, hg⟩ := off
  refine ⟨fun hb b => ?_, fun hb hq => ?_, fun hb hs hq => ?_, fun hb hs hq => ?_, ?_, ?_⟩
  · rw [cmd, State.guarded_down hb]
  · rw [cmd, State.guarded_opens hb hq]
    rfl
  · exact ⟨_, cmd q false v s, State.guarded_replaces_effect hs hn hg hb hq _ rfl⟩
  · exact ⟨_, cmd q true v s, State.guarded_discards_effect hs hn hg hb hq _ rfl⟩
  · rw [exec_registerWrite_word hm, State.writeReg_guarded off, State.guarded_ifUp, cmd]
  · rw [exec_registerWrite_word hmc, State.writeReg_complement off, State.guarded_ifUp, cmd]

end Sys2Proof.Machine
end

section
/-! What the resets keep and take (R375, R379, R446, R471 to R477); O42. -/

namespace Sys2Proof.Machine

/-- A cold reset leaves reset, the host's memory and what the power stage holds (R446). -/
theorem State.moduleReset_cold (s : State) (pwr : Power) : s.moduleReset false pwr = { State.resetOf s.dev s.pending with
    hostMem := s.hostMem
    freeCtr := s.freeCtr
    pwr := pwr } := rfl

/-- Each of the three events trips a powered module, with a reason of its own (R475, R477). -/
theorem exec_trips : ∀ p ∈ ([(Instr.junctionOvertemp, 1), (Instr.railFault, 3), (Instr.leakDetected, 4)] : List (Instr × Nat)),
    ∀ s : State, exec p.1 s = .next (if s.powered then s.trip p.2 else s) := by
  intro p hp
  fin_cases hp <;> exact fun _ => rfl

theorem exec_inputOutOfRange {s : State} (h : s.pwr.on = true) :
    exec .inputOutOfRange s = .next (s.moduleReset false { Power.reset with tripped := s.pwr.tripped, trip := s.pwr.trip }) :=
  congrArg Host.Outcome.next (if_pos h)

theorem exec_rstNPulse {s : State} (h : s.pwr.on = true) :
    exec .rstNPulse s = .next (s.moduleReset (!s.pwr.tripped) { Power.reset with trip := s.pwr.trip }) :=
  congrArg Host.Outcome.next (if_pos h)

/-- The configuration of the PCIe function is at reset, but for a link that a function-level reset does not train again. -/
def State.functionReset (s : State) (c : FnReset) (l : LinkTrain) : State :=
  { s with host := { s.host with
      slots := []
      visible := []
      msixTable := []
      pcie := { Pcie.reset with link := if c = .flr then s.host.pcie.link else l } } }

theorem exec_linkReset_powered {s : State} (h : s.powered = true) (c : FnReset) (l : LinkTrain) :
    exec (.linkReset c l) s = .next ((s.functionReset c l).bump Reg.HST_LINK_DOWN (bnat (c == .linkDown))) := by
  show execLinkReset c l s = _
  simp only [execLinkReset, h, Bool.not_true, Bool.false_eq_true, if_false, State.functionReset, beq_iff_eq]

theorem State.bump_onlyRegs (s : State) (a n : Nat) : s.bump a n = { s with regs := (s.bump a n).regs } := by
  unfold State.bump
  split <;> rfl

/-- A link-down is counted, and no other reset of the function is. -/
theorem State.functionReset_linkDown {s : State} (hs : s.regsSorted) (c : FnReset) (l : LinkTrain) :
    ((s.functionReset c l).bump Reg.HST_LINK_DOWN (bnat (c == .linkDown))).reg Reg.HST_LINK_DOWN =
      if c = .linkDown then s.reg Reg.HST_LINK_DOWN + 1 else s.reg Reg.HST_LINK_DOWN := by
  by_cases h : c = .linkDown
  · rw [if_pos h, h]
    exact State.reg_bump_same (s.functionReset .linkDown l) _ 1 hs Nat.one_ne_zero
  · rw [if_neg h, beq_false_of_ne h]
    rfl

/-- Settles O42: a trip and the cold resets are `State.resetOf` with what outlives them; RST_N may keep the oscillator warm; a reset of the function changes the host interface and one counter. -/
theorem powerEvents : Obligations.PowerEvents := by
  intro s
  refine ⟨fun p hp => ⟨fun h => ?_, fun h => ?_⟩, fun h => exec_inputOutOfRange h, rfl, rfl, fun h => ?_, fun c l hs h => ?_, fun h c l => ?_⟩
  · rw [exec_trips p hp, if_neg (by simp [h])]
  · rw [exec_trips p hp, if_pos h, State.trip_eq]
  · exact ⟨_, exec_rstNPulse h, rfl, rfl, rfl, rfl, rfl, rfl, rfl, rfl, rfl, rfl, rfl⟩
  · exact ⟨_, exec_linkReset_powered h c l, State.bump_onlyRegs _ _ _, State.functionReset_linkDown hs c l⟩
  · show execLinkReset c l s = _
    simp [execLinkReset, h]

end Sys2Proof.Machine
end

section
/-! IDENTIFY, OPEN, CLOSE, UNLOAD and LEAVE_RING (R332, R387 to R391); O53. -/

namespace Sys2Proof.Machine

variable {α : Type} {f : State → α}

/-! ### The master's duties (R241, R245, R249) -/

section
variable (hthy : ∀ (s : State) g, f (s.modThy g) = f s) (hsaid : ∀ s : State, f s.announce = f s)
include hthy hsaid

/-- What neither the time system nor an announcement changes stays when a requested rate comes. -/
theorem masterRequest_keeps (s : State) (a r : Nat) : f (s.masterRequest a r) = f s := by
  have told (s : State) (g : Thyme → Thyme) : f (s.modThy g).announce = f s := (hsaid _).trans (hthy s g)
  exact (keeps_ite (told _ _) (keeps_onlyIf (told _ _))).trans (hthy s _)

theorem masterHoldOn_keeps (s : State) (a : Nat) : f (s.masterHoldOn a) = f s := by
  have told (s : State) (g : Thyme → Thyme) : f (s.modThy g).announce = f s := (hsaid _).trans (hthy s g)
  refine Eq.trans ?_ (hthy s fun t => { t with levels := if t.levels.contains a then t.levels else t.levels ++ [a] })
  unfold State.masterHoldOn
  dsimp only
  split
  · exact told _ _
  · split
    · rfl
    · exact keeps_ite (told _ _) (told _ _)

theorem becomeMaster_keeps (s : State) : f s.becomeMaster = f s := by
  unfold State.becomeMaster
  extract_lets k t
  have requested : f t = f s := (masterRequest_keeps hthy hsaid _ _ _).trans (hthy _ _)
  exact (keeps_onlyIf (masterHoldOn_keeps hthy hsaid t _)).trans requested

end

/-- The module without its time system and what a link changes of the ring engine. -/
def State.offDuty (s : State) : State := { s with thy := Thyme.reset, ring := { s.ring with ports := [], heardAt := none } }

theorem linkFree_offDuty : LinkFree State.offDuty := fun _ _ _ => rfl

theorem State.becomeMaster_offDuty (s : State) : s.becomeMaster.offDuty = s.offDuty :=
  becomeMaster_keeps (fun _ _ => rfl) (fun u => foldl_keeps (fun v _ => linkFree_offDuty.sendFrame v _ _) _ u) s

/-! ### The Bays go to THROUGH (R332, R334) -/

/-- Bays that go to THROUGH train no port. -/
theorem State.setBays_through (hring : ∀ (s : State) p x y m, f { s with ring := { s.ring with ports := p, bayX := x, bayY := y, bayM := m } } = f s)
    (hbump : ∀ (s : State) n, f (s.bump Reg.RNG_BAY_CHANGES n) = f s) (s : State) : f (s.setBays false false false) = f s := by
  have reset (u : State) (p : Nat) : f (u.modPort p fun q => { Port.reset with wire := q.wire }) = f u :=
    hring u _ u.ring.bayX u.ring.bayY u.ring.bayM
  have change (old : Bool) (ps : List Nat) (u : State) :
      f (if old == false then u else ps.foldl (fun v p => v.modPort p fun q => { Port.reset with wire := q.wire }) u) = f u :=
    keeps_ite rfl (foldl_keeps reset ps u)
  unfold State.setBays
  exact (hbump _ _).trans ((hring _ _ _ _ _).trans ((change _ _ _).trans ((change _ _ _).trans (change _ _ _))))

theorem State.setBays_through_ctxs (s : State) : (s.setBays false false false).ring.ctxs = s.ring.ctxs :=
  State.setBays_through (f := fun u => u.ring.ctxs) (fun _ _ _ _ _ => rfl) (fun u n => RegFree.bump (f := fun v => v.ring.ctxs) (fun _ _ => rfl) u _ n) s

theorem State.setBays_through_thy (s : State) : (s.setBays false false false).thy = s.thy :=
  State.setBays_through (f := State.thy) (fun _ _ _ _ _ => rfl) (fun u n => RegFree.bump (f := State.thy) (fun _ _ => rfl) u _ n) s

/-! ### In no ring and no pair (R311, R332) -/

/-- The module in no ring and no pair, before it goes on as its own master. -/
def State.alone (s : State) : State :=
  let t := s.setBays false false false
  ({ t with
    ring := { t.ring with addr := 0, xn := 1, yn := 1, joined := false, gone := [], ctxs := t.ring.ctxs.filter (fun e => e.2.st != CtxState.service) }
    mir := { t.mir with
      paired := false, twin := 0, twinNo := 0, survivor := false, refillPtr := none, refillDone := false, closing := false, entryStep := none, inbox := []
      service := none, passOwn := false, passTwin := false } }).modThy (fun x => { x with
    holds := [], levels := [], reqRates := [], rateNext := [], adopt := false, phaseLost := false, backup := false
    carry := List.replicate 4 none })

theorem State.leaveAll_eq (s : State) : s.leaveAll = s.alone.becomeMaster := rfl

theorem State.leaveAll_offDuty (s : State) : s.leaveAll.offDuty = s.alone.offDuty := s.alone.becomeMaster_offDuty

/-- `f` reads none of what leaving changes: ring engine, time system, mirror engine, registers. -/
def LeaveFree (f : State → α) : Prop := ∀ (s : State) r y m x, f { s with ring := r, thy := y, mir := m, regs := x } = f s

theorem LeaveFree.leaveAll (hf : LeaveFree f) (s : State) : f s.leaveAll = f s := by
  have thy (u : State) (g : Thyme → Thyme) : f (u.modThy g) = f u := hf u u.ring _ u.mir u.regs
  have ring : RingFree f := fun u x => hf u x u.thy u.mir u.regs
  have regs : RegFree f := fun u x => hf u u.ring u.thy u.mir x
  have said (u : State) : f u.announce = f u := foldl_keeps (fun v _ => ring v _) _ u
  have bays := State.setBays_through (fun u _ _ _ _ => ring u _) (fun u n => regs.bump u _ n) s
  exact (becomeMaster_keeps thy said s.alone).trans ((hf (s.setBays false false false) _ _ _ _).trans bays)

/-- What of the ring engine and the mirror engine stands after leaving. -/
theorem State.leaveAll_ring (s : State) : s.leaveAll.ring.addr = 0 ∧ s.leaveAll.ring.xn = 1 ∧ s.leaveAll.ring.yn = 1 ∧
    s.leaveAll.ring.bayX = false ∧ s.leaveAll.ring.bayY = false ∧ s.leaveAll.ring.bayM = false ∧
    s.leaveAll.ring.ctxs = s.alone.ring.ctxs := by
  have ring := congrArg State.ring s.leaveAll_offDuty
  have ctxs := congrArg (fun u : State => u.ring.ctxs) s.leaveAll_offDuty
  obtain ⟨hx, hy, hm⟩ := s.setBays_bays false false false
  have bayX : s.alone.ring.bayX = false := hx
  have bayY : s.alone.ring.bayY = false := hy
  have bayM : s.alone.ring.bayM = false := hm
  exact ⟨congrArg Ring.addr ring, congrArg Ring.xn ring, congrArg Ring.yn ring, (congrArg Ring.bayX ring).trans bayX,
    (congrArg Ring.bayY ring).trans bayY, (congrArg Ring.bayM ring).trans bayM, ctxs⟩

theorem State.leaveAll_mir (s : State) : s.leaveAll.mir.paired = false ∧ s.leaveAll.mir.fenced = s.mir.fenced := by
  have mir := congrArg State.mir s.leaveAll_offDuty
  have fenced : s.alone.mir.fenced = s.mir.fenced := by
    show (s.setBays false false false).mir.fenced = _
    rw [State.setBays_mir]
  exact ⟨congrArg Mirror.paired mir, (congrArg Mirror.fenced mir).trans fenced⟩

/-- It is the master of a ring of one, and T goes on. -/
theorem State.leaveAll_thy (s : State) : s.leaveAll.thy.master = true ∧ s.leaveAll.thy.period = s.thy.period ∧ s.leaveAll.thy.tick = s.thy.tick := by
  have office := s.alone.becomeMaster_view
  simp only [State.officeView, Prod.mk.injEq] at office
  obtain ⟨-, master, -, period, tick⟩ := office
  have kept : s.alone.thy.period = s.thy.period ∧ s.alone.thy.tick = s.thy.tick := by
    show (s.setBays false false false).thy.period = _ ∧ (s.setBays false false false).thy.tick = _
    rw [State.setBays_through_thy]
    exact ⟨rfl, rfl⟩
  exact ⟨master, period.trans kept.1, tick.trans kept.2⟩

/-! ### The image goes (R389, R427) -/

/-- What no event, no spare and no queue changes. -/
theorem State.unloadImage_keeps (hf : SpareFree f) (s : State) : f s.emptyQueues.settleSubst = f s.emptyQueues := hf.settleSubst _

theorem spareFree_of_unread (h : ∀ (s : State) m x r d p w n e, f { s with
    hostMem := m, flt := x, regs := r, dev := { s.dev with subst := d },
    host := { s.host with posFailed := p, substWaiting := w, noSpare := n, reload := e } } = f s) : SpareFree f where
  toEventFree := .of_unread fun s m x r => h s m x r s.dev.subst s.host.posFailed s.host.substWaiting s.host.noSpare s.host.reload
  subst s d := h s s.hostMem s.flt s.regs d s.host.posFailed s.host.substWaiting s.host.noSpare s.host.reload
  spares s p w n e := h s s.hostMem s.flt s.regs s.dev.subst p w n e

theorem State.unloadImage_frame (s : State) : s.unloadImage.mem = s.mem ∧ s.unloadImage.mask.weights = s.mask.weights ∧
    s.unloadImage.host.owner = s.host.owner ∧ s.unloadImage.thy = s.thy ∧ s.unloadImage.hostLink = s.hostLink ∧
    s.unloadImage.mir.fenced = s.mir.fenced := by
  have unread := fun {β : Type} (g : State → β) (hg : SpareFree g) => hg.settleSubst s.emptyQueues
  exact ⟨unread (·.mem) (spareFree_of_unread fun _ _ _ _ _ _ _ _ _ => rfl), unread (·.mask.weights) (spareFree_of_unread fun _ _ _ _ _ _ _ _ _ => rfl),
    unread (·.host.owner) (spareFree_of_unread fun _ _ _ _ _ _ _ _ _ => rfl), unread (·.thy) (spareFree_of_unread fun _ _ _ _ _ _ _ _ _ => rfl),
    unread (·.hostLink) (spareFree_of_unread fun _ _ _ _ _ _ _ _ _ => rfl), unread (·.mir.fenced) (spareFree_of_unread fun _ _ _ _ _ _ _ _ _ => rfl)⟩

theorem State.unloadImage_arrays (s : State) : s.unloadImage.arrays = s.arrays.map (fun a => a.emptied.unloaded) := by
  have settled : s.emptyQueues.settleSubst.arrays = s.arrays.map (·.emptied) :=
    (spareFree_of_unread (f := State.arrays) fun _ _ _ _ _ _ _ _ _ => rfl).settleSubst s.emptyQueues
  show s.emptyQueues.settleSubst.arrays.map ArrayState.unloaded = _
  rw [settled, List.map_map]
  rfl

/-- With no array waiting for a spare nothing is announced to the host. -/
theorem State.unloadImage_of_none {s : State} (h : s.host.substWaiting = []) :
    s.unloadImage.hostMem = s.hostMem ∧ s.unloadImage.dev = s.dev ∧ s.unloadImage.flt.msix = s.flt.msix := by
  have settled := State.settleSubst_of_none (s := s.emptyQueues) h
  have hostMem := congrArg State.hostMem settled
  have dev := congrArg State.dev settled
  have msix := congrArg (fun u : State => u.flt.msix) settled
  exact ⟨hostMem, dev, msix⟩

/-! ### CLOSE (R388) -/

/-- The module behind UNLOAD's actions and LEAVE_RING's, with no context. -/
def State.released (s : State) : State :=
  let u := s.unloadImage
  State.leaveAll { u with ring := { u.ring with ctxs := [] } }

/-- Memory, arrays, weights and the session are gone. -/
def State.wiped (s : State) : State :=
  let u := s.released
  { u with
    mem := []
    tiers := { u.tiers with bad := [], nearBad := [], soft := [], nearSoft := [], records := [] }
    arrays := u.arrays.map (fun (_ : ArrayState) => ArrayState.reset)
    mask := { u.mask with weights := [] }
    stp := ⟨false, 0, 0, none, [], 0, 0, 0, false, f32one⟩
    host := { u.host with owner := none, version := 0, faultMode := 0, requireSigned := false, st := .unopened } }

/-- What remains of CLOSE are registers. -/
theorem RegFree.closeActions (hf : RegFree f) (s : State) : f s.closeActions = f s.wiped := by
  have keys (u : State) : f ((List.range 8).foldl (fun (v : State) i => v.setRw (Reg.SEC_SESSION_KEY0 + 4 * i) 0#32) u) = f u :=
    foldl_keeps (fun v _ => hf.setRw v _ _) _ u
  unfold State.closeActions
  extract_lets
  refine (hf _ _).trans ((hf.setBits _ _ _).trans ((hf.setReg _ _ _).trans ((keys _).trans ?_)))
  exact hf.setRw s.wiped _ _

theorem State.released_keeps (hf : LeaveFree f) (s : State) : f s.released = f s.unloadImage :=
  (hf.leaveAll _).trans (hf s.unloadImage _ s.unloadImage.thy s.unloadImage.mir s.unloadImage.regs)

theorem State.released_arrays (s : State) : s.released.arrays.map (fun (_ : ArrayState) => ArrayState.reset) = s.arrays.map fun _ => ArrayState.reset := by
  rw [State.released_keeps (f := State.arrays) (fun _ _ _ _ _ => rfl), State.unloadImage_arrays, List.map_map]
  rfl

theorem State.released_regions (s : State) : s.released.tiers.regions = [] := State.released_keeps (f := fun u => u.tiers.regions) (fun _ _ _ _ _ => rfl) s

theorem State.released_image (s : State) : s.released.host.image = none := State.released_keeps (f := fun u => u.host.image) (fun _ _ _ _ _ => rfl) s

theorem State.released_ctxs (s : State) : s.released.ring.ctxs = [] := by
  obtain ⟨-, -, -, -, -, -, ctxs⟩ := State.leaveAll_ring { s.unloadImage with ring := { s.unloadImage.ring with ctxs := [] } }
  refine ctxs.trans ?_
  show List.filter _ (State.setBays _ false false false).ring.ctxs = []
  rw [State.setBays_through_ctxs]
  rfl

/-! ### Replies behind an effect (R378, R383) -/

/-- A reply is the answer to the command where its effect has left host memory, the signals and the period. -/
theorem State.answered_from {s u : State} {c : CmdHdr} {op st ft d : Nat} {l : List Byte} (hl : u.hostLink = true) (hm : u.hostMem = s.hostMem)
    (hx : u.flt.msix = s.flt.msix) (hp : u.period = s.period) : s.answered (u.reply c op st ft d l) c op st ft d l := by
  obtain ⟨written, signalled⟩ := State.answered_reply c op st ft d l hl
  rw [hm, hp] at written
  rw [hx] at signalled
  exact ⟨written, signalled⟩

theorem State.answeredTwice_from {s u : State} {c : CmdHdr} {op st ft d : Nat} {l : List Byte} (hl : u.hostLink = true) (hm : u.hostMem = s.hostMem)
    (hp : u.period = s.period) : s.answeredTwice (u.replyBoth c op st ft d l) c op st ft d l := by
  have written := State.answeredTwice_replyBoth c op st ft d l hl
  rw [State.answeredTwice, hm, hp] at written
  exact written

/-! ### The commands -/

section
variable {s : State} {c : CmdHdr} (h : s.takes c)
include h

theorem exec_identify : exec (.identify c) s = .next (s.reply c 0x01 Status.done 0 0 s.identity) := by
  have legal : s.host.st ∈ allStates := by cases s.host.st <;> decide
  exact congrArg Host.Outcome.next (State.command_takes h 0x01 legal _)

theorem exec_close (hst : s.host.st ∈ [ModState.opened, .loaded, .ready, .held, .stopped]) :
    exec (.close c) s = .next (s.closeActions.replyBoth c 0x03 Status.done 0 0 []) := congrArg Host.Outcome.next (State.command_takes h 0x03 hst _)

theorem exec_unload (hst : s.host.st ∈ [ModState.loaded, .ready, .stopped]) :
    exec (.unload c) s = .next ((s.unloadImage.setSt .opened).replyDone c 0x13) := congrArg Host.Outcome.next (State.command_takes h 0x13 hst _)

theorem exec_leaveRing (hst : s.host.st ∈ [ModState.opened, .loaded, .ready, .stopped]) :
    exec (.leaveRing c) s = .next (s.baysFor c 0x42 false false false fun u => u.leaveAll.replyDone c 0x42) :=
  congrArg Host.Outcome.next (State.command_takes h 0x42 hst _)

section
variable {hi lo : BitVec 16} {mode : BitVec 8} {b : Bool} {owner : BitVec 64} (hm : mode.toNat ≤ 1) (ho : owner ≠ 0)
include hm ho

theorem exec_openCmd : exec (.openCmd c hi lo mode b owner) s = .next (s.openAs c hi.toNat lo.toNat mode.toNat b owner.toNat) := by
  have legal : s.host.st ∈ allStates := by cases s.host.st <;> decide
  have named : owner.toNat ≠ 0 := fun h0 => ho (BitVec.eq_of_toNat_eq h0)
  have ok : (decide (mode.toNat ≤ 1) && owner.toNat != 0) = true := by simp [hm, named]
  show Host.Outcome.next (s.cmdOpen c hi.toNat lo.toNat mode.toNat b owner.toNat) = _
  rw [State.cmdOpen, ok, State.command_takes h 0x02 legal]

end

end

/-! ### OPEN (R387, R391) -/

theorem State.negotiate_reaches {s : State} {hi lo : Nat} (h1 : lo ≤ min hi s.ifRange.1) (h2 : s.ifRange.2 ≤ min hi s.ifRange.1) :
    s.negotiate hi lo = some (min hi s.ifRange.1) := by
  simp only [State.negotiate, Nat.not_lt.mpr h1, Nat.not_lt.mpr h2, decide_false, Bool.or_self, Bool.false_eq_true, if_false]

theorem State.negotiate_fails {s : State} {hi lo : Nat} (h : min hi s.ifRange.1 < lo ∨ min hi s.ifRange.1 < s.ifRange.2) : s.negotiate hi lo = none := by
  have apart : (decide (min hi s.ifRange.1 < lo) || decide (min hi s.ifRange.1 < s.ifRange.2)) = true := by simpa using h
  simp only [State.negotiate, apart, if_true]

section
variable {s : State} {c : CmdHdr} {hi lo mode owner : Nat} {b : Bool}

/-- An unopened module belongs to its caller at the version that the negotiation reaches. -/
theorem State.openAs_fresh (hb : s.busy = false) (hst : s.host.st = .unopened) {v : Nat} (hv : s.negotiate hi lo = some v) :
    s.openAs c hi lo mode b owner = (s.takeOwner owner v mode).reply c 0x02 Status.done 0 0 (leBytes 2 v) := by
  simp [State.openAs, hb, hst, hv]

theorem State.openAs_version (hb : s.busy = false) (hst : s.host.st = .unopened) (hv : s.negotiate hi lo = none) :
    s.openAs c hi lo mode b owner = s.refuse c 0x02 0x05 0 := by
  simp [State.openAs, hb, hst, hv]

theorem State.openAs_other (hst : s.host.st ≠ .unopened) (ho : s.host.owner ≠ some owner) :
    s.openAs c hi lo mode false owner = s.reply c 0x02 Status.owner 0 0 [] := by
  have fresh : (s.host.st == ModState.unopened) = false := beq_false_of_ne hst
  have same : (s.host.owner == some owner) = false := beq_false_of_ne ho
  simp only [State.openAs, fresh, same, Bool.not_false, Bool.and_self, if_true]

end

/-! ### LEAVE_RING (R332, R334) -/

theorem State.baysFor_busy {s : State} {x y m : Bool} (h : s.hopsBusy x y m = true) (c : CmdHdr) (op : Nat) (act : State → State) :
    s.baysFor c op x y m act = (s.used 1).refuse c op 0x05 0 := if_pos h

theorem State.baysFor_free {s : State} {x y m : Bool} (h : s.hopsBusy x y m = false) (c : CmdHdr) (op : Nat) (act : State → State) :
    s.baysFor c op x y m act = act (s.used 1) := if_neg (by simp [h])

/-- LEAVE_RING is carried out or refused; either way memory, arrays, the host interface and T stay. -/
theorem exec_leaveRing_answers {s : State} {c : CmdHdr} (h : s.takes c) (hst : s.host.st ∈ [ModState.opened, .loaded, .ready, .stopped]) :
    ∃ t, exec (.leaveRing c) s = .next t ∧ t.mem = s.mem ∧ t.arrays = s.arrays ∧ t.host = s.host ∧ t.thy.tick = s.thy.tick ∧
      (s.hopsBusy false false false = true → (s.used 1).onlyReply t ∧ s.answered t c 0x42 2 0x05 0 []) ∧
      (s.hopsBusy false false false = false → s.answered t c 0x42 0 0 0 [] ∧
        t.ring.addr = 0 ∧ t.ring.xn = 1 ∧ t.ring.yn = 1 ∧ t.ring.bayX = false ∧ t.ring.bayY = false ∧ t.ring.bayM = false ∧
        t.mir.paired = false ∧ t.thy.master = true) := by
  obtain ⟨-, hl, -⟩ := id h
  refine ⟨_, exec_leaveRing h hst, ?_⟩
  cases hb : s.hopsBusy false false false with
  | true =>
    rw [State.baysFor_busy hb]
    have only := (s.used 1).onlyReply_reply c 0x42 2 0x05 0 []
    have answer : (s.used 1).answered ((s.used 1).refuse c 0x42 0x05 0) c 0x42 2 0x05 0 [] := State.answered_reply c 0x42 2 0x05 0 [] hl
    exact ⟨only.keeps (f := State.mem) fun _ _ _ _ => rfl, only.keeps (f := State.arrays) fun _ _ _ _ => rfl,
      only.keeps (f := State.host) fun _ _ _ _ => rfl, only.keeps (f := fun u => u.thy.tick) fun _ _ _ _ => rfl, fun _ => ⟨only, answer⟩, by simp⟩
  | false =>
    rw [State.baysFor_free hb]
    have left := fun {β : Type} (g : State → β) (hg : LeaveFree g) => hg.leaveAll (s.used 1)
    have link : (s.used 1).leaveAll.hostLink = true := (left State.hostLink fun _ _ _ _ _ => rfl).trans hl
    have only := (s.used 1).leaveAll.onlyReply_reply c 0x42 0 0 0 []
    obtain ⟨master, period, tick⟩ := (s.used 1).leaveAll_thy
    obtain ⟨addr, xn, yn, bayX, bayY, bayM, -⟩ := (s.used 1).leaveAll_ring
    obtain ⟨paired, -⟩ := (s.used 1).leaveAll_mir
    have answer : s.answered ((s.used 1).leaveAll.replyDone c 0x42) c 0x42 0 0 0 [] :=
      State.answered_from link (left State.hostMem fun _ _ _ _ _ => rfl) (left (fun u => u.flt.msix) fun _ _ _ _ _ => rfl) period
    have kept := fun {β : Type} (g : State → β) (hg : ∀ s m x r, g { s with hostMem := m, flt := x, regs := r } = g s) => only.keeps hg
    exact ⟨(kept State.mem fun _ _ _ _ => rfl).trans (left State.mem fun _ _ _ _ _ => rfl),
      (kept State.arrays fun _ _ _ _ => rfl).trans (left State.arrays fun _ _ _ _ _ => rfl),
      (kept State.host fun _ _ _ _ => rfl).trans (left State.host fun _ _ _ _ _ => rfl),
      (kept (fun u => u.thy.tick) fun _ _ _ _ => rfl).trans tick, by simp, fun _ => ⟨answer,
        (kept (fun u => u.ring.addr) fun _ _ _ _ => rfl).trans addr, (kept (fun u => u.ring.xn) fun _ _ _ _ => rfl).trans xn,
        (kept (fun u => u.ring.yn) fun _ _ _ _ => rfl).trans yn, (kept (fun u => u.ring.bayX) fun _ _ _ _ => rfl).trans bayX,
        (kept (fun u => u.ring.bayY) fun _ _ _ _ => rfl).trans bayY, (kept (fun u => u.ring.bayM) fun _ _ _ _ => rfl).trans bayM,
        (kept (fun u => u.mir.paired) fun _ _ _ _ => rfl).trans paired, (kept (fun u => u.thy.master) fun _ _ _ _ => rfl).trans master⟩⟩

/-! ### UNLOAD and CLOSE -/

theorem exec_unload_answers {s : State} {c : CmdHdr} (h : s.takes c) (hst : s.host.st ∈ [ModState.loaded, .ready, .stopped]) :
    ∃ t, exec (.unload c) s = .next t ∧ (s.host.substWaiting = [] → s.answered t c 0x13 0 0 0 [] ∧ t.dev = s.dev) ∧ t.mem = s.mem ∧
      t.mask.weights = s.mask.weights ∧ t.tiers.regions = [] ∧ t.host.image = none ∧ t.host.committed = false ∧ t.host.st = .opened ∧
      t.host.owner = s.host.owner ∧ t.host.reload = false ∧ t.thy = s.thy := by
  obtain ⟨-, hl, -⟩ := id h
  obtain ⟨mem, weights, owner, thy, link, -⟩ := s.unloadImage_frame
  have only := (s.unloadImage.setSt .opened).onlyReply_reply c 0x13 0 0 0 []
  have kept := fun {β : Type} (g : State → β) (hg : ∀ s m x r, g { s with hostMem := m, flt := x, regs := r } = g s) => only.keeps hg
  refine ⟨_, exec_unload h hst, fun hw => ?_, (kept State.mem fun _ _ _ _ => rfl).trans mem, (kept (fun u => u.mask.weights) fun _ _ _ _ => rfl).trans weights,
    kept (fun u => u.tiers.regions) fun _ _ _ _ => rfl, kept (fun u => u.host.image) fun _ _ _ _ => rfl, kept (fun u => u.host.committed) fun _ _ _ _ => rfl,
    kept (fun u => u.host.st) fun _ _ _ _ => rfl, (kept (fun u => u.host.owner) fun _ _ _ _ => rfl).trans owner,
    kept (fun u => u.host.reload) fun _ _ _ _ => rfl, (kept State.thy fun _ _ _ _ => rfl).trans thy⟩
  obtain ⟨hostMem, dev, msix⟩ := State.unloadImage_of_none hw
  exact ⟨State.answered_from (link.trans hl) hostMem msix (congrArg Thyme.period thy), (kept State.dev fun _ _ _ _ => rfl).trans dev⟩

/-- CLOSE leaves the module as its actions leave it, behind its two replies. -/
theorem State.closeActions_replied (s : State) (c : CmdHdr) (hf : ∀ (s : State) m x r, f { s with hostMem := m, flt := x, regs := r } = f s) :
    f (s.closeActions.replyBoth c 0x03 Status.done 0 0 []) = f s.wiped :=
  ((s.closeActions.onlyReply_replyBoth c 0x03 Status.done 0 0 []).keeps hf).trans (RegFree.closeActions (fun u r => hf u u.hostMem u.flt r) s)

theorem exec_close_answers {s : State} {c : CmdHdr} (h : s.takes c) (hst : s.host.st ∈ [ModState.opened, .loaded, .ready, .held, .stopped]) :
    ∃ t, exec (.close c) s = .next t ∧ (s.host.substWaiting = [] → s.answeredTwice t c 0x03 0 0 0 [] ∧ t.dev = s.dev) ∧ t.mem = [] ∧
      t.arrays = s.arrays.map (fun _ => ArrayState.reset) ∧ t.mask.weights = [] ∧ t.tiers.regions = [] ∧ t.ring.ctxs = [] ∧
      t.ring.addr = 0 ∧ t.ring.xn = 1 ∧ t.ring.yn = 1 ∧ t.host.owner = none ∧ t.host.image = none ∧ t.host.st = .unopened ∧ t.tiers.bad = [] ∧
      t.tiers.soft = [] ∧ t.mir.paired = false ∧ t.mir.fenced = s.mir.fenced ∧ t.thy.master = true ∧ t.thy.tick = s.thy.tick := by
  obtain ⟨-, hl, -⟩ := id h
  obtain ⟨-, -, -, thy, link, unfenced⟩ := s.unloadImage_frame
  obtain ⟨addr, xn, yn, -⟩ := State.leaveAll_ring { s.unloadImage with ring := { s.unloadImage.ring with ctxs := [] } }
  obtain ⟨paired, fenced⟩ := State.leaveAll_mir { s.unloadImage with ring := { s.unloadImage.ring with ctxs := [] } }
  obtain ⟨master, period, tick⟩ := State.leaveAll_thy { s.unloadImage with ring := { s.unloadImage.ring with ctxs := [] } }
  have kept := fun {β : Type} (g : State → β) (hg : ∀ s m x r, g { s with hostMem := m, flt := x, regs := r } = g s) => s.closeActions_replied c hg
  refine ⟨_, exec_close h hst, fun hw => ?_, kept State.mem fun _ _ _ _ => rfl, (kept State.arrays fun _ _ _ _ => rfl).trans s.released_arrays,
    kept (fun u => u.mask.weights) fun _ _ _ _ => rfl, (kept (fun u => u.tiers.regions) fun _ _ _ _ => rfl).trans s.released_regions,
    (kept (fun u => u.ring.ctxs) fun _ _ _ _ => rfl).trans s.released_ctxs, (kept (fun u => u.ring.addr) fun _ _ _ _ => rfl).trans addr,
    (kept (fun u => u.ring.xn) fun _ _ _ _ => rfl).trans xn, (kept (fun u => u.ring.yn) fun _ _ _ _ => rfl).trans yn,
    kept (fun u => u.host.owner) fun _ _ _ _ => rfl, (kept (fun u => u.host.image) fun _ _ _ _ => rfl).trans s.released_image,
    kept (fun u => u.host.st) fun _ _ _ _ => rfl, kept (fun u => u.tiers.bad) fun _ _ _ _ => rfl, kept (fun u => u.tiers.soft) fun _ _ _ _ => rfl,
    (kept (fun u => u.mir.paired) fun _ _ _ _ => rfl).trans paired, ((kept (fun u => u.mir.fenced) fun _ _ _ _ => rfl).trans fenced).trans unfenced,
    (kept (fun u => u.thy.master) fun _ _ _ _ => rfl).trans master,
    ((kept (fun u => u.thy.tick) fun _ _ _ _ => rfl).trans tick).trans (congrArg Thyme.tick thy)⟩
  obtain ⟨hostMem, dev, -⟩ := State.unloadImage_of_none hw
  have closed := fun {β : Type} (g : State → β) (hg : RegFree g) => hg.closeActions s
  have left := fun {β : Type} (g : State → β) (hg : LeaveFree g) => s.released_keeps hg
  refine ⟨State.answeredTwice_from ?_ ?_ ?_, ((kept State.dev fun _ _ _ _ => rfl).trans (left State.dev fun _ _ _ _ _ => rfl)).trans dev⟩
  · exact ((closed State.hostLink fun _ _ => rfl).trans (left State.hostLink fun _ _ _ _ _ => rfl)).trans (link.trans hl)
  · exact ((closed State.hostMem fun _ _ => rfl).trans (left State.hostMem fun _ _ _ _ _ => rfl)).trans hostMem
  · exact ((closed State.period fun _ _ => rfl).trans period).trans (congrArg Thyme.period thy)

/-- Settles O53: each command is one equation of `exec`; what leaving, closing and unloading clear is read off the state before the reply. -/
theorem ownership : Obligations.Ownership := by
  refine ⟨⟨fun c s h => ?_, fun c hi lo mode b owner s h hm ho => ⟨fun hst h1 h2 => ?_, fun hst hv => ?_, fun hst hown => ?_⟩⟩,
    fun c s h => ⟨exec_close_answers h, exec_unload_answers h, exec_leaveRing_answers h⟩⟩ <;> obtain ⟨-, hl, -, -, hbusy⟩ := id h
  · exact ⟨_, exec_identify h, s.onlyReply_reply _ _ _ _ _ _, State.answered_reply _ _ _ _ _ _ hl⟩
  · refine ⟨_, (exec_openCmd h hm ho).trans (congrArg Host.Outcome.next (State.openAs_fresh hbusy hst (State.negotiate_reaches h1 h2))),
      State.answered_from hl rfl rfl rfl, ?_⟩
    have only := (s.takeOwner owner.toNat (min hi.toNat s.ifRange.1) mode.toNat).onlyReply_reply c 0x02 0 0 0 (leBytes 2 (min hi.toNat s.ifRange.1))
    exact ⟨only.keeps (f := State.host) fun _ _ _ _ => rfl, only.keeps (f := State.mem) fun _ _ _ _ => rfl, only.keeps (f := State.arrays) fun _ _ _ _ => rfl⟩
  · exact ⟨_, (exec_openCmd h hm ho).trans (congrArg Host.Outcome.next (State.openAs_version hbusy hst (State.negotiate_fails hv))),
      s.onlyReply_reply _ _ _ _ _ _, State.answered_reply _ _ _ _ _ _ hl⟩
  · exact ⟨_, (exec_openCmd h hm ho).trans (congrArg Host.Outcome.next (State.openAs_other hst hown)),
      s.onlyReply_reply _ _ _ _ _ _, State.answered_reply _ _ _ _ _ _ hl⟩

end Sys2Proof.Machine
end

section
/-! JOIN_RING and PAIR (R334, R342, R396); O57. -/

namespace Sys2Proof.Machine

variable {α : Type} {f : State → α}

/-! ### Bays and ports (R315, R332) -/

/-- `f` does not read what a change of the Bays changes: ports and Bays, the calibration applied to lanes, the count of changes. -/
structure BayFree (f : State → α) : Prop where
  ring : ∀ (s : State) p x y m, f { s with ring := { s.ring with ports := p, bayX := x, bayY := y, bayM := m } } = f s
  applied : ∀ (s : State) x, f { s with host := { s.host with applied := x } } = f s
  count : ∀ (s : State) n, f (s.bump Reg.RNG_BAY_CHANGES n) = f s

/-- Ports that train send frames, and their lanes take their calibration. -/
theorem State.trainRing_keeps (hports : ∀ (s : State) p, f { s with ring := { s.ring with ports := p } } = f s)
    (happlied : ∀ (s : State) x, f { s with host := { s.host with applied := x } } = f s) (s : State) : f s.trainRing = f s := by
  have train (u : State) (p : Nat) : f (u.trainPort p) = f u := (hports _ _).trans (happlied u _)
  exact foldl_keeps (fun u p => keeps_ite rfl (train u p)) _ s

/-- The parent port is a matter of the time system. -/
theorem State.reparent_keeps (hthy : ∀ (s : State) g, f (s.modThy g) = f s) (s : State) : f s.reparent = f s := keeps_ite rfl (hthy _ _)

namespace BayFree

theorem of_unread (hring : ∀ (s : State) p x y m, f { s with ring := { s.ring with ports := p, bayX := x, bayY := y, bayM := m } } = f s)
    (happlied : ∀ (s : State) x, f { s with host := { s.host with applied := x } } = f s) (hr : RegFree f) : BayFree f :=
  ⟨hring, happlied, fun s n => hr.bump s _ n⟩

theorem modPort (hf : BayFree f) (s : State) (p : Nat) (g : Port → Port) : f (s.modPort p g) = f s := hf.ring s _ s.ring.bayX s.ring.bayY s.ring.bayM

theorem trainPort (hf : BayFree f) (s : State) (p : Nat) : f (s.trainPort p) = f s := (hf.modPort _ _ _).trans (hf.applied s _)

theorem trainRing (hf : BayFree f) (s : State) : f s.trainRing = f s :=
  State.trainRing_keeps (fun u p => hf.ring u p u.ring.bayX u.ring.bayY u.ring.bayM) hf.applied s

theorem setBays (hf : BayFree f) (s : State) (x y m : Bool) : f (s.setBays x y m) = f s := by
  have port (new : Bool) (u : State) (p : Nat) :
      f (if new then (u.modPort p fun q => { Port.reset with wire := q.wire }).trainPort p else u.modPort p fun q => { Port.reset with wire := q.wire }) = f u :=
    keeps_ite ((hf.trainPort _ p).trans (hf.modPort u _ _)) (hf.modPort u _ _)
  have change (old new : Bool) (ps : List Nat) (u : State) := keeps_ite (c := (old == new) = true) (f := f) (s := u) rfl (foldl_keeps (port new) ps u)
  unfold State.setBays
  exact (hf.count _ _).trans ((hf.ring _ _ _ _ _).trans ((change _ _ _ _).trans ((change _ _ _ _).trans (change _ _ _ _))))

end BayFree

/-! ### Ports in training (R315) -/

theorem State.port_modPort_same (s : State) {p : Nat} (hp : p < s.ring.ports.length) (g : Port → Port) : (s.modPort p g).port p = g (s.port p) := by
  simp [State.port, State.modPort, List.getD_eq_getElem?_getD, hp]

theorem State.port_modPort_ne (s : State) {p q : Nat} (hq : q ≠ p) (g : Port → Port) : (s.modPort p g).port q = s.port q := by
  simp [State.port, State.modPort, List.getD_eq_getElem?_getD, hq.symm]

theorem State.length_modPort (s : State) (p : Nat) (g : Port → Port) : (s.modPort p g).ring.ports.length = s.ring.ports.length := List.length_modify _ _ _

theorem State.trainPort_st (s : State) {p : Nat} (hp : p < s.ring.ports.length) : ((s.trainPort p).port p).st = .training :=
  congrArg Port.st (State.port_modPort_same _ hp _)

theorem State.trainPort_ne (s : State) {p q : Nat} (hq : q ≠ p) : (s.trainPort p).port q = s.port q := State.port_modPort_ne _ hq _

theorem State.trainPort_length (s : State) (p : Nat) : (s.trainPort p).ring.ports.length = s.ring.ports.length := State.length_modPort _ _ _

/-- A port that does not train begins to. -/
def State.trainOne (s : State) (p : Nat) : State := if (s.port p).st == .training then s else s.trainPort p

theorem State.trainOne_st (s : State) {p q : Nat} (hp : p < s.ring.ports.length) (hq : q = p ∨ (s.port q).st = .training) :
    ((s.trainOne p).port q).st = .training := by
  unfold State.trainOne
  split
  next h =>
    obtain rfl | hq := hq
    · exact eq_of_beq h
    · exact hq
  next h =>
    by_cases hqp : q = p
    · rw [hqp]
      exact s.trainPort_st hp
    · rw [State.trainPort_ne s hqp]
      exact hq.resolve_left hqp

theorem State.trainOne_length (s : State) (p : Nat) : (s.trainOne p).ring.ports.length = s.ring.ports.length :=
  keeps_ite (f := fun u => u.ring.ports.length) rfl (s.trainPort_length p)

/-- Ports that are put into training one after the other all train. -/
theorem State.foldl_trainOne_st (l : List Nat) {s : State} (hl : ∀ p ∈ l, p < s.ring.ports.length) {q : Nat} (hq : q ∈ l ∨ (s.port q).st = .training) :
    ((l.foldl State.trainOne s).port q).st = .training := by
  induction l generalizing s with
  | nil => exact hq.resolve_left (List.not_mem_nil)
  | cons p l ih =>
    have hp := hl p (List.mem_cons_self ..)
    refine ih (fun x hx => by rw [State.trainOne_length]; exact hl x (List.mem_cons_of_mem _ hx)) ?_
    obtain hq | hq := hq
    · obtain rfl | hq := List.mem_cons.mp hq
      · exact .inr (s.trainOne_st hp (.inl rfl))
      · exact .inl hq
    · exact .inr (s.trainOne_st hp (.inr hq))

theorem State.trainRing_st {s : State} (hl : 4 ≤ s.ring.ports.length) {p : Nat} (hp : p < 4) : (s.trainRing.port p).st = .training := by
  refine State.foldl_trainOne_st [0, 1, 2, 3] (fun q hq => ?_) (.inl ?_)
  · simp only [List.mem_cons, List.not_mem_nil, or_false] at hq
    omega
  · simp only [List.mem_cons, List.not_mem_nil, or_false]
    omega

theorem State.setBays_length (s : State) (x y m : Bool) : (s.setBays x y m).ring.ports.length = s.ring.ports.length := by
  have port (new : Bool) (u : State) (p : Nat) :
      (if new then (u.modPort p fun q => { Port.reset with wire := q.wire }).trainPort p else u.modPort p fun q => { Port.reset with wire := q.wire }).ring.ports.length =
        u.ring.ports.length :=
    keeps_ite (f := fun v => v.ring.ports.length) ((State.trainPort_length _ p).trans (u.length_modPort _ _)) (u.length_modPort _ _)
  have change (old new : Bool) (ps : List Nat) (u : State) :=
    keeps_ite (c := (old == new) = true) (f := fun v => v.ring.ports.length) (s := u) rfl (foldl_keeps (f := fun v => v.ring.ports.length) (port new) ps u)
  unfold State.setBays
  exact (RegFree.bump (f := fun v => v.ring.ports.length) (fun _ _ => rfl) _ _ _).trans ((change _ _ _ _).trans ((change _ _ _ _).trans (change _ _ _ _)))

/-- The mirror port trains once the M Bay engages. -/
theorem State.setBays_engagesM {s : State} (hm : s.ring.bayM = false) (hl : 5 ≤ s.ring.ports.length) :
    ((s.setBays s.ring.bayX s.ring.bayY true).port 4).st = .training := by
  have long : 4 < (s.modPort 4 fun q => { Port.reset with wire := q.wire }).ring.ports.length := by
    rw [State.length_modPort]
    exact hl
  refine Eq.trans ?_ (State.trainPort_st _ long)
  have engaged : (s.ring.bayM == true) = false := by rw [hm]; rfl
  unfold State.setBays
  simp only [beq_self_eq_true, engaged, Bool.false_eq_true, if_true, if_false, List.foldl_cons, List.foldl_nil]
  exact RegFree.bump (f := fun u => (u.port 4).st) (fun _ _ => rfl) _ _ _

/-! ### A PENDING reply (R385) -/

/-- A PENDING reply changes host memory, the signals and the pending command. -/
theorem State.replyPending_keeps (hf : EventFree f) (hp : ∀ (s : State) x, f { s with host := { s.host with pendingCmd := x } } = f s)
    (s : State) (c : CmdHdr) (op arg : Nat) : f (s.replyPending c op arg) = f s := (hp _ _).trans (hf.putReply s _ _ _ _ _ _ _)

/-- A PENDING reply is the answer where what came before it has left host memory, the signals and the period. -/
theorem State.answered_pending {s u : State} {c : CmdHdr} {op arg : Nat} (hl : u.hostLink = true) (hm : u.hostMem = s.hostMem)
    (hx : u.flt.msix = s.flt.msix) (hp : u.period = s.period) : s.answered (u.replyPending c op arg) c op 1 0 0 [] := by
  have written : (u.replyPending c op arg).hostMem = memPut u.hostMem c.replyAddr (replyBytes c op 1 0 u.period 0 []) :=
    State.putReply_hostMem c c.replyAddr op 1 0 0 [] hl
  have signalled : (u.replyPending c op arg).flt.msix = (u.putReply c c.replyAddr op 1 0 0 []).flt.msix := rfl
  rw [State.putReply_eq _ _ _ _ _ _ _ hl] at signalled
  rw [hm, hp] at written
  exact ⟨written, signalled.trans (congrArg (· ++ _) hx)⟩

/-! ### PAIR (R342) -/

section
variable {s : State} {c : CmdHdr} {w : BitVec 16} (h : s.takes c) (hst : s.host.st = .ready)
include h hst

theorem exec_pair_ready : exec (.pair c w) s = .next (s.pairWith c w.toNat) := by
  have legal : s.host.st ∈ [ModState.ready, .held] := by simp [hst]
  have free : (s.host.st == ModState.held && !s.mir.survivor) = false := by simp [hst]
  show Host.Outcome.next (s.cmdPair c w.toNat) = _
  rw [State.cmdPair, State.command_takes h 0x41 legal, free]
  rfl

theorem exec_pair_refused (hm : s.mayPair = false) :
    ∃ t, exec (.pair c w) s = .next t ∧ s.onlyReply t ∧ s.answeredTwice t c 0x41 2 0x05 0 [] := by
  obtain ⟨-, hl, -⟩ := id h
  have refused : s.pairWith c w.toNat = s.replyBoth c 0x41 Status.refused 0x05 0 [] := by
    rw [State.pairWith, hm]
    rfl
  rw [exec_pair_ready h hst, refused]
  exact ⟨_, rfl, s.onlyReply_replyBoth _ _ _ _ _ _, State.answeredTwice_replyBoth _ _ _ _ _ _ hl⟩

end

/-- A module that waits for its mirror port to train. -/
def State.pairing (s : State) (c : CmdHdr) (w : Nat) : State :=
  ((s.setBays s.ring.bayX s.ring.bayY true).replyPending c 0x41 w).modPort 4 fun q => { q with st := .training }

theorem State.pairWith_trains {s : State} {c : CmdHdr} {w : Nat} (hm : s.mayPair = true) (hb : s.ring.bayM = false) (hl : 5 ≤ s.ring.ports.length) :
    s.pairWith c w = s.pairing c w := by
  have training : (((s.setBays s.ring.bayX s.ring.bayY true).replyPending c 0x41 w).port 4).st = .training :=
    (State.replyPending_keeps (f := fun u => (u.port 4).st) (.of_unread fun _ _ _ _ => rfl) (fun _ _ => rfl) _ c 0x41 w).trans (State.setBays_engagesM hb hl)
  have down : ((((s.setBays s.ring.bayX s.ring.bayY true).replyPending c 0x41 w).port 4).st == PortState.up) = false := by
    rw [training]
    rfl
  simp only [State.pairWith, hm, down, Bool.not_true, Bool.false_and, Bool.false_eq_true, if_false]
  rfl

theorem State.pairing_keeps (hf : BayFree f) (he : EventFree f) (hp : ∀ (s : State) x, f { s with host := { s.host with pendingCmd := x } } = f s)
    (s : State) (c : CmdHdr) (w : Nat) : f (s.pairing c w) = f s :=
  (hf.modPort _ _ _).trans ((State.replyPending_keeps he hp _ c _ _).trans (hf.setBays s _ _ _))

/-- PAIR of a module whose binary asks for one engages the M Bay and waits for its port. -/
theorem exec_pair_trains {s : State} {c : CmdHdr} {w : BitVec 16} (h : s.takes c) (hst : s.host.st = .ready) (hm : s.mayPair = true)
    (hb : s.ring.bayM = false) (hl : 5 ≤ s.ring.ports.length) :
    ∃ t, exec (.pair c w) s = .next t ∧ s.answered t c 0x41 1 0 0 [] ∧ t.ring.bayM = true ∧ (t.port 4).st = .training ∧
      t.host.pendingCmd = some ⟨c, 0x41, w.toNat⟩ ∧ t.ring.bayX = s.ring.bayX ∧ t.mir = s.mir ∧ t.arrays = s.arrays ∧ t.mem = s.mem := by
  obtain ⟨-, hlink, -⟩ := id h
  rw [exec_pair_ready h hst, State.pairWith_trains hm hb hl]
  have bays := fun {β : Type} (g : State → β) (hg : BayFree g) => hg.setBays s s.ring.bayX s.ring.bayY true
  have answer : s.answered ((s.setBays s.ring.bayX s.ring.bayY true).replyPending c 0x41 w.toNat) c 0x41 1 0 0 [] :=
    State.answered_pending ((bays State.hostLink (.of_unread (fun _ _ _ _ _ => rfl) (fun _ _ => rfl) fun _ _ => rfl)).trans hlink)
      (bays State.hostMem (.of_unread (fun _ _ _ _ _ => rfl) (fun _ _ => rfl) fun _ _ => rfl))
      (bays (fun u => u.flt.msix) (.of_unread (fun _ _ _ _ _ => rfl) (fun _ _ => rfl) fun _ _ => rfl))
      (bays State.period (.of_unread (fun _ _ _ _ _ => rfl) (fun _ _ => rfl) fun _ _ => rfl))
  obtain ⟨bayX, -, bayM⟩ := s.setBays_bays s.ring.bayX s.ring.bayY true
  have pending := fun {β : Type} (g : State → β) (hg : EventFree g) (hp : ∀ (s : State) x, g { s with host := { s.host with pendingCmd := x } } = g s) =>
    State.replyPending_keeps hg hp (s.setBays s.ring.bayX s.ring.bayY true) c 0x41 w.toNat
  have long : 4 < ((s.setBays s.ring.bayX s.ring.bayY true).replyPending c 0x41 w.toNat).ring.ports.length := by
    rw [pending (fun u => u.ring.ports.length) (.of_unread fun _ _ _ _ => rfl) fun _ _ => rfl, State.setBays_length]
    exact hl
  exact ⟨_, rfl, answer, (pending (fun u => u.ring.bayM) (.of_unread fun _ _ _ _ => rfl) fun _ _ => rfl).trans bayM,
    congrArg Port.st (State.port_modPort_same _ long _), rfl,
    (pending (fun u => u.ring.bayX) (.of_unread fun _ _ _ _ => rfl) fun _ _ => rfl).trans bayX,
    State.pairing_keeps (f := State.mir) (.of_unread (fun _ _ _ _ _ => rfl) (fun _ _ => rfl) fun _ _ => rfl) (.of_unread fun _ _ _ _ => rfl) (fun _ _ => rfl) s c _,
    State.pairing_keeps (f := State.arrays) (.of_unread (fun _ _ _ _ _ => rfl) (fun _ _ => rfl) fun _ _ => rfl) (.of_unread fun _ _ _ _ => rfl) (fun _ _ => rfl) s c _,
    State.pairing_keeps (f := State.mem) (.of_unread (fun _ _ _ _ _ => rfl) (fun _ _ => rfl) fun _ _ => rfl) (.of_unread fun _ _ _ _ => rfl) (fun _ _ => rfl) s c _⟩

/-! ### JOIN_RING (R235, R334, R396) -/

/-- The module under its new address, in a ring of the given size. -/
def State.placed (s : State) (a xn yn : Nat) : State :=
  State.rename { s with ring := { s.ring with addr := a, xn := xn, yn := yn } } s.ring.addr a

/-- The module in its place with its ring ports in training. -/
def State.trains (s : State) (a xn yn : Nat) : State := ((s.placed a xn yn).setBays true true (s.placed a xn yn).ring.bayM).trainRing

/-- It waits for the ports, and then for the ring's phase. -/
def State.joining (s : State) (c : CmdHdr) (a xn yn : Nat) : State :=
  (s.trains a xn yn).replyPending c 0x40 (s.ring.addr * 65536 + s.ring.xn * 256 + s.ring.yn)

theorem State.placed_keeps (hthy : ∀ (s : State) g, f (s.modThy g) = f s) (s : State) (a xn yn : Nat) :
    f (s.placed a xn yn) = f { s with ring := { s.ring with addr := a, xn := xn, yn := yn } } := keeps_onlyIf (hthy _ _)

theorem State.placed_ring (s : State) (a xn yn : Nat) : (s.placed a xn yn).ring = { s.ring with addr := a, xn := xn, yn := yn } :=
  State.placed_keeps (f := State.ring) (fun _ _ => rfl) s a xn yn

theorem State.placed_period (s : State) (a xn yn : Nat) : (s.placed a xn yn).period = s.period := keeps_onlyIf (f := State.period) rfl

theorem State.trains_keeps (hf : BayFree f) (s : State) (a xn yn : Nat) : f (s.trains a xn yn) = f (s.placed a xn yn) :=
  (hf.trainRing _).trans (hf.setBays _ _ _ _)

theorem State.trains_st {s : State} (hl : 4 ≤ s.ring.ports.length) (a xn yn : Nat) {p : Nat} (hp : p < 4) : ((s.trains a xn yn).port p).st = .training := by
  refine State.trainRing_st ?_ hp
  rw [State.setBays_length, State.placed_ring]
  exact hl

theorem State.trains_bays (s : State) (a xn yn : Nat) : (s.trains a xn yn).ring.bayX = true ∧ (s.trains a xn yn).ring.bayY = true ∧
    (s.trains a xn yn).ring.bayM = s.ring.bayM := by
  obtain ⟨bayX, bayY, bayM⟩ := (s.placed a xn yn).setBays_bays true true (s.placed a xn yn).ring.bayM
  have trained := fun (g : Ring → Bool) (hg : ∀ (r : Ring) p, g { r with ports := p } = g r) =>
    State.trainRing_keeps (f := fun u => g u.ring) (fun u _ => hg u.ring _) (fun _ _ => rfl) ((s.placed a xn yn).setBays true true (s.placed a xn yn).ring.bayM)
  have placedM := congrArg Ring.bayM (s.placed_ring a xn yn)
  have x := (trained Ring.bayX fun _ _ => rfl).trans bayX
  have y := (trained Ring.bayY fun _ _ => rfl).trans bayY
  have m := ((trained Ring.bayM fun _ _ => rfl).trans bayM).trans placedM
  unfold State.trains
  exact ⟨x, y, m⟩

theorem State.joining_keeps (he : EventFree f) (hp : ∀ (s : State) x, f { s with host := { s.host with pendingCmd := x } } = f s)
    (s : State) (c : CmdHdr) (a xn yn : Nat) : f (s.joining c a xn yn) = f (s.trains a xn yn) := State.replyPending_keeps he hp _ _ _ _

/-- The ports train, so that the ring is not joined yet. -/
theorem State.joining_waits {s : State} (hl : 4 ≤ s.ring.ports.length) (c : CmdHdr) (a xn yn : Nat) :
    (s.joining c a xn yn).reparent.finishJoin = (s.joining c a xn yn).reparent := by
  have training : ((s.joining c a xn yn).reparent.port 0).st = .training :=
    (State.reparent_keeps (f := fun u => (u.port 0).st) (fun _ _ => rfl) _).trans
      ((State.joining_keeps (f := fun u => (u.port 0).st) (.of_unread fun _ _ _ _ => rfl) (fun _ _ => rfl) s c a xn yn).trans (State.trains_st hl a xn yn (by decide)))
  have down : [0, 1, 2, 3].all (fun p => ((s.joining c a xn yn).reparent.port p).st == .up) = false := by
    rw [List.all_cons, training]
    rfl
  rw [State.finishJoin, down, Bool.and_false, if_neg Bool.false_ne_true]

section
variable {s : State} {c : CmdHdr} {a : BitVec 16} {xn yn : BitVec 8}

theorem exec_joinRing (h : s.takes c) (hst : s.host.st ∈ [ModState.opened, .loaded, .ready]) (h1 : 1 ≤ xn.toNat) (h2 : xn.toNat ≤ 64)
    (h3 : 1 ≤ yn.toNat) (h4 : yn.toNat ≤ 64) (h5 : a.toNat / 256 < xn.toNat) (h6 : a.toNat % 256 < yn.toNat) :
    exec (.joinRing c a xn yn) s = .next (s.baysFor c 0x40 true true s.ring.bayM fun u =>
      (u.joining c a.toNat xn.toNat yn.toNat).reparent.finishJoin) := by
  have ok : (decide (1 ≤ xn.toNat) && decide (xn.toNat ≤ 64) && decide (1 ≤ yn.toNat) && decide (yn.toNat ≤ 64) && decide (a.toNat / 256 < xn.toNat) &&
      decide (a.toNat % 256 < yn.toNat)) = true := by simp [h1, h2, h3, h4, h5, h6]
  show Host.Outcome.next (s.cmdJoinRing c a.toNat xn.toNat yn.toNat) = _
  rw [State.cmdJoinRing, ok, State.command_takes h 0x40 hst]
  rfl

end

/-- What JOIN_RING leaves where the Bays may move. -/
theorem State.joining_effect {s : State} {c : CmdHdr} (hlink : s.hostLink = true) (hl : 4 ≤ s.ring.ports.length) (a xn yn : Nat) :
    let t := (s.joining c a xn yn).reparent
    t.host.st = s.host.st ∧ t.arrays = s.arrays ∧ t.mem = s.mem ∧ s.answered t c 0x40 1 0 0 [] ∧ t.ring.addr = a ∧ t.ring.xn = xn ∧ t.ring.yn = yn ∧
      t.ring.bayX = true ∧ t.ring.bayY = true ∧ t.ring.bayM = s.ring.bayM ∧ t.host.pendingCmd.isSome = true ∧ ∀ p, p < 4 → (t.port p).st = .training := by
  have parent := fun {β : Type} (g : State → β) (hg : ∀ (s : State) x, g (s.modThy x) = g s) => State.reparent_keeps hg (s.joining c a xn yn)
  have waits := fun {β : Type} (g : State → β) (hg : ∀ (s : State) m x r, g { s with hostMem := m, flt := x, regs := r } = g s)
      (hp : ∀ (s : State) x, g { s with host := { s.host with pendingCmd := x } } = g s) =>
    State.joining_keeps (.of_unread hg) hp s c a xn yn
  have trains := fun {β : Type} (g : State → β) (hg : BayFree g) => State.trains_keeps hg s a xn yn
  have place := s.placed_ring a xn yn
  have answer : s.answered (s.joining c a xn yn) c 0x40 1 0 0 [] :=
    State.answered_pending (((trains State.hostLink (.of_unread (fun _ _ _ _ _ => rfl) (fun _ _ => rfl) fun _ _ => rfl)).trans
        (State.placed_keeps (f := State.hostLink) (fun _ _ => rfl) s a xn yn)).trans hlink)
      ((trains State.hostMem (.of_unread (fun _ _ _ _ _ => rfl) (fun _ _ => rfl) fun _ _ => rfl)).trans
        (State.placed_keeps (f := State.hostMem) (fun _ _ => rfl) s a xn yn))
      ((trains (fun u => u.flt.msix) (.of_unread (fun _ _ _ _ _ => rfl) (fun _ _ => rfl) fun _ _ => rfl)).trans
        (State.placed_keeps (f := fun u => u.flt.msix) (fun _ _ => rfl) s a xn yn))
      ((trains State.period (.of_unread (fun _ _ _ _ _ => rfl) (fun _ _ => rfl) fun _ _ => rfl)).trans (s.placed_period a xn yn))
  obtain ⟨bayX, bayY, bayM⟩ := s.trains_bays a xn yn
  have memory := parent State.hostMem fun _ _ => rfl
  have signals := parent (fun u => u.flt.msix) fun _ _ => rfl
  refine ⟨?_, ?_, ?_, ⟨memory.trans answer.1, signals.trans answer.2⟩, ?_, ?_, ?_, ?_, ?_, ?_, ?_, fun p hp => ?_⟩
  · exact (parent (fun u => u.host.st) fun _ _ => rfl).trans ((waits (fun u => u.host.st) (fun _ _ _ _ => rfl) fun _ _ => rfl).trans
      ((trains (fun u => u.host.st) (.of_unread (fun _ _ _ _ _ => rfl) (fun _ _ => rfl) fun _ _ => rfl)).trans
        (State.placed_keeps (f := fun u => u.host.st) (fun _ _ => rfl) s a xn yn)))
  · exact (parent State.arrays fun _ _ => rfl).trans ((waits State.arrays (fun _ _ _ _ => rfl) fun _ _ => rfl).trans
      ((trains State.arrays (.of_unread (fun _ _ _ _ _ => rfl) (fun _ _ => rfl) fun _ _ => rfl)).trans
        (State.placed_keeps (f := State.arrays) (fun _ _ => rfl) s a xn yn)))
  · exact (parent State.mem fun _ _ => rfl).trans ((waits State.mem (fun _ _ _ _ => rfl) fun _ _ => rfl).trans
      ((trains State.mem (.of_unread (fun _ _ _ _ _ => rfl) (fun _ _ => rfl) fun _ _ => rfl)).trans
        (State.placed_keeps (f := State.mem) (fun _ _ => rfl) s a xn yn)))
  · exact (parent (fun u => u.ring.addr) fun _ _ => rfl).trans ((waits (fun u => u.ring.addr) (fun _ _ _ _ => rfl) fun _ _ => rfl).trans
      ((trains (fun u => u.ring.addr) (.of_unread (fun _ _ _ _ _ => rfl) (fun _ _ => rfl) fun _ _ => rfl)).trans (congrArg Ring.addr place)))
  · exact (parent (fun u => u.ring.xn) fun _ _ => rfl).trans ((waits (fun u => u.ring.xn) (fun _ _ _ _ => rfl) fun _ _ => rfl).trans
      ((trains (fun u => u.ring.xn) (.of_unread (fun _ _ _ _ _ => rfl) (fun _ _ => rfl) fun _ _ => rfl)).trans (congrArg Ring.xn place)))
  · exact (parent (fun u => u.ring.yn) fun _ _ => rfl).trans ((waits (fun u => u.ring.yn) (fun _ _ _ _ => rfl) fun _ _ => rfl).trans
      ((trains (fun u => u.ring.yn) (.of_unread (fun _ _ _ _ _ => rfl) (fun _ _ => rfl) fun _ _ => rfl)).trans (congrArg Ring.yn place)))
  · exact (parent (fun u => u.ring.bayX) fun _ _ => rfl).trans ((waits (fun u => u.ring.bayX) (fun _ _ _ _ => rfl) fun _ _ => rfl).trans bayX)
  · exact (parent (fun u => u.ring.bayY) fun _ _ => rfl).trans ((waits (fun u => u.ring.bayY) (fun _ _ _ _ => rfl) fun _ _ => rfl).trans bayY)
  · exact (parent (fun u => u.ring.bayM) fun _ _ => rfl).trans ((waits (fun u => u.ring.bayM) (fun _ _ _ _ => rfl) fun _ _ => rfl).trans bayM)
  · exact congrArg Option.isSome (parent (fun u => u.host.pendingCmd) fun _ _ => rfl)
  · exact (parent (fun u => (u.port p).st) fun _ _ => rfl).trans
      ((waits (fun u => (u.port p).st) (fun _ _ _ _ => rfl) fun _ _ => rfl).trans (State.trains_st hl a xn yn hp))

/-- Settles O57: JOIN_RING trains all four ports, so that the ring is not joined in the command; PAIR engages the M Bay or is refused. -/
theorem joinAndPair : Obligations.JoinAndPair := by
  refine ⟨fun c a xn yn s h hst h1 h2 h3 h4 h5 h6 hports => ?_, fun c w s h hst => ⟨exec_pair_refused h hst, exec_pair_trains h hst⟩⟩
  obtain ⟨-, hl, -⟩ := id h
  refine ⟨_, exec_joinRing h hst h1 h2 h3 h4 h5 h6, ?_⟩
  cases hb : s.hopsBusy true true s.ring.bayM with
  | true =>
    rw [State.baysFor_busy hb]
    have only := (s.used 1).onlyReply_reply c 0x40 2 0x05 0 []
    have answer : (s.used 1).answered ((s.used 1).refuse c 0x40 0x05 0) c 0x40 2 0x05 0 [] := State.answered_reply c 0x40 2 0x05 0 [] hl
    exact ⟨only.keeps (f := fun u => u.host.st) fun _ _ _ _ => rfl, only.keeps (f := State.arrays) fun _ _ _ _ => rfl,
      only.keeps (f := State.mem) fun _ _ _ _ => rfl, fun _ => ⟨only, answer⟩, by simp⟩
  | false =>
    have long : 4 ≤ (s.used 1).ring.ports.length := hports
    rw [State.baysFor_free hb, State.joining_waits long]
    obtain ⟨st, arrays, mem, answer, addr, x, y, bayX, bayY, bayM, pending, training⟩ :=
      State.joining_effect (s := s.used 1) (c := c) hl long a.toNat xn.toNat yn.toNat
    exact ⟨st, arrays, mem, by simp, fun _ => ⟨answer, addr, x, y, bayX, bayY, bayM, pending, fun _ => training⟩⟩

end Sys2Proof.Machine
end

section
/-! FW_LOAD, FW_ACTIVATE, its activation and ATTEST (R458 to R464); O58. -/

namespace Sys2Proof.Machine

variable {α : Type} {f : State → α}

theorem State.openedState {s : State} (h : s.host.st ≠ .unopened) : s.host.st ∈ openedStates := by
  cases hst : s.host.st
  case unopened => exact absurd hst h
  all_goals decide

/-! ### FW_LOAD (R384, R458) -/

section
variable {s : State} {c : CmdHdr} (h : s.takes c) (hst : s.host.st ≠ .unopened)
include h hst

section
variable {a n : BitVec 64}

theorem exec_fwLoad_transfer (hr : 2 ^ 64 < a.toNat + n.toNat) :
    exec (.fwLoad c a n) s = .next (s.replyBoth c 0x50 Status.transfer 0 0 []) := by
  show Host.Outcome.next (s.cmdFwLoad c a.toNat n.toNat) = _
  rw [State.cmdFwLoad, State.command_takes h 0x50 (State.openedState hst), State.hostReachable_beyond hr]
  rfl

theorem exec_fwLoad_checked (hn : n.toNat ≤ 2 ^ 24) (hr : a.toNat + n.toNat ≤ 2 ^ 64) :
    exec (.fwLoad c a n) s = .next (match s.fwRefusal n.toNat (memGet s.hostMem a.toNat n.toNat) with
      | some e => s.replyBoth c 0x50 Status.refused e 0 []
      | none => ({ s with dev := s.dev.setSlot s.inactiveB (fwSlotOf (memGet s.hostMem a.toNat n.toNat)) } : State).replyBoth c 0x50 Status.done 0 0 []) := by
  show Host.Outcome.next (s.cmdFwLoad c a.toNat n.toNat) = _
  rw [State.cmdFwLoad, State.command_takes h 0x50 (State.openedState hst), State.hostReachable_within h.2.1 hr]
  simp only [hn, if_true, Bool.not_true, Bool.false_eq_true, if_false, State.hostGet] <;> rfl

end

/-! ### FW_ACTIVATE (R459) -/

theorem exec_fwActivate {b : Bool} {sa : BitVec 48} (hsa : s.host.st ≠ .running ∨ sa = 0 ∨ s.stp.step < sa.toNat)
    (hok : s.dev.slotOk (s.dev.slot (!s.host.runB)) = true) :
    exec (.fwActivate c b sa) s = .next { s.replyPending c 0x51 0 with
      host := { (s.replyPending c 0x51 0).host with fwPending := some (b, s.activationStep sa.toNat) } } := by
  obtain ⟨-, -, -, hrec, -⟩ := id h
  have boundary : (s.host.st == ModState.running && sa.toNat != 0 && decide (sa.toNat ≤ s.stp.step)) = false := by
    obtain hst | rfl | hlt := hsa
    · rw [beq_false_of_ne hst]
      rfl
    · simp
    · simp [Nat.not_le.mpr hlt]
  have inactive : s.inactiveB = !s.host.runB := by rw [State.inactiveB, hrec, if_neg Bool.false_ne_true]
  show Host.Outcome.next (s.cmdFwActivate c b sa.toNat) = _
  rw [State.cmdFwActivate, State.command_takes h 0x51 (State.openedState hst), boundary, inactive, hok]
  rfl

/-! ### ATTEST (R464) -/

theorem exec_attest {n : BitVec 256} : exec (.attest c n) s = .next (s.reply c 0x60 Status.done 0 0 (s.attestation (leBytes 32 n.toNat))) :=
  congrArg Host.Outcome.next (State.command_takes h 0x60 (State.openedState hst) _)

end

/-- The step boundary of an activation: at once outside RUNNING, the next one for 0. -/
theorem State.activationStep_eq (s : State) (sa : BitVec 48) :
    s.activationStep sa.toNat = if s.host.st ≠ .running then 0 else if sa = 0 then s.stp.step + 1 else sa.toNat := by
  have zero : (sa.toNat == 0) = decide (sa = 0) := by
    rw [Bool.eq_iff_iff, beq_iff_eq, decide_eq_true_iff, BitVec.toNat_eq]
    rfl
  simp only [State.activationStep, zero, decide_eq_true_iff, bne_iff_ne]

/-! ### Activation (R460, R461) -/

/-- `f` reads neither events, registers nor the pending command. -/
structure AnswerFree (f : State → α) : Prop where
  unread : ∀ (s : State) m x r, f { s with hostMem := m, flt := x, regs := r } = f s
  pending : ∀ (s : State) x, f { s with host := { s.host with pendingCmd := x } } = f s

namespace AnswerFree

theorem eventFree (hf : AnswerFree f) : EventFree f := .of_unread hf.unread

theorem regFree (hf : AnswerFree f) : RegFree f := fun s r => hf.unread s s.hostMem s.flt r

theorem finalReply (hf : AnswerFree f) (s : State) (st ft d : Nat) (l : List Byte) : f (s.finalReply st ft d l) = f s := by
  unfold State.finalReply
  split
  · rfl
  · exact (hf.regFree.bump _ _ _).trans ((hf.pending _ _).trans (hf.eventFree.putReply s _ _ _ _ _ _ _))

/-- Entries held during a handover are written (R460). -/
theorem endHandover (hf : AnswerFree f) (s : State) : f s.endHandover = f s :=
  (foldl_keeps (fun u e => hf.eventFree.writeEntry u e) _ _).trans (hf.unread s s.hostMem _ s.regs)

end AnswerFree

theorem State.finalReply_none (s : State) (st ft d : Nat) (l : List Byte) : (s.finalReply st ft d l).host.pendingCmd = none := s.finalReply_pendingCmd st ft d l

/-- The module whose boot record names the firmware that runs from now on. -/
def State.activated (s : State) (b : Bool) : State :=
  { s with dev := s.dev.activate (!s.host.runB) b, host := { s.host with runB := !s.host.runB, fwPending := none } }

/-- The module whose old firmware runs on. -/
def State.unactivated (s : State) : State := { s with host := { s.host with fwPending := none } }

section
variable {s : State} {b : Bool} {k : Nat} (hp : s.host.fwPending = some (b, k)) (hrec : s.host.recovery = false)
include hp

theorem State.activating_waits (h : s.host.st = .running ∧ s.stp.step < k) : s.activating = none := by
  obtain ⟨hst, hk⟩ := h
  have later : (s.host.st != ModState.running || decide (k ≤ s.stp.step)) = false := by simp [hst, hk]
  simp only [State.activating, hp, later, Bool.false_eq_true, if_false]

theorem State.activating_due (h : s.host.st ≠ .running ∨ k ≤ s.stp.step) : s.activating = some b := by
  have due : (s.host.st != ModState.running || decide (k ≤ s.stp.step)) = true := by simpa using h
  simp only [State.activating, hp, due, if_true]

theorem exec_activation_waits (h : s.host.st = .running ∧ s.stp.step < k) :
    exec .fwActivation s = .next s ∧ exec .fwHealthTimeout s = .next s := by
  have waits := State.activating_waits hp h
  constructor
  · show execFwActivation s = _
    simp only [execFwActivation, waits]
  · show execFwHealthTimeout s = _
    simp only [execFwHealthTimeout, waits, Option.isNone_none, Bool.true_or, if_true]

section
variable (h : s.host.st ≠ .running ∨ k ≤ s.stp.step) (hv : s.host.visible = [])
include hrec h hv

theorem exec_fwActivation_due : exec .fwActivation s = .next
    ((((s.activated b).endHandover.event 0xA4 (s.stp.step % 2 ^ 32)).finalReply Status.done 0 0 [])) := by
  have inactive : s.inactiveB = !s.host.runB := by rw [State.inactiveB, hrec, if_neg Bool.false_ne_true]
  have unread : AnswerFree fun t : State => t.host.visible := ⟨fun _ _ _ _ => rfl, fun _ _ => rfl⟩
  have none : (((s.activated b).endHandover.event 0xA4 (s.stp.step % 2 ^ 32)).finalReply Status.done 0 0 []).host.visible = [] :=
    (unread.finalReply _ _ _ _ _).trans ((unread.eventFree.event _ _ _).trans ((unread.endHandover _).trans hv))
  show execFwActivation s = _
  unfold execFwActivation
  rw [State.activating_due hp h, inactive]
  exact (if_neg (Bool.eq_false_iff.mp hrec)).trans (congrArg Host.Outcome.next (State.takeSealed_of_none none))

theorem exec_fwHealthTimeout_due : exec .fwHealthTimeout s = .next
    ((s.unactivated.endHandover.setBits Reg.SEC_STATUS 0x10).finalReply Status.refused 0x05 1 []) := by
  have unread : AnswerFree fun t : State => t.host.visible := ⟨fun _ _ _ _ => rfl, fun _ _ => rfl⟩
  have none : ((s.unactivated.endHandover.setBits Reg.SEC_STATUS 0x10).finalReply Status.refused 0x05 1 []).host.visible = [] :=
    (unread.finalReply _ _ _ _ _).trans ((unread.regFree.setBits _ _ _).trans ((unread.endHandover _).trans hv))
  have due : (s.activating.isNone || s.host.recovery) = false := by rw [State.activating_due hp h, hrec]; rfl
  exact (if_neg (Bool.eq_false_iff.mp due)).trans (congrArg Host.Outcome.next (State.takeSealed_of_none none))

end

end

theorem exec_activation_answers {s : State} {b : Bool} {k : Nat} (hp : s.host.fwPending = some (b, k)) (hrec : s.host.recovery = false)
    (h : s.host.st ≠ .running ∨ k ≤ s.stp.step) (hv : s.host.visible = []) :
    (∃ t, exec .fwActivation s = .next t ∧ t.host.runB = (!s.host.runB) ∧ t.host.fwPending = none ∧ t.host.pendingCmd = none ∧
        t.dev = { s.dev with
          activeB := !s.host.runB
          svnFuses := if b then max s.dev.svnFuses (min 64 (s.dev.slot (!s.host.runB)).svn) else s.dev.svnFuses } ∧
        t.arrays = s.arrays ∧ t.mem = s.mem) ∧
      ∃ t, exec .fwHealthTimeout s = .next t ∧ t.host.runB = s.host.runB ∧ t.host.fwPending = none ∧ t.host.pendingCmd = none ∧ t.dev = s.dev ∧
        t.arrays = s.arrays ∧ t.mem = s.mem := by
  have done := fun {β : Type} (g : State → β) (hg : AnswerFree g) => (hg.finalReply ((s.activated b).endHandover.event 0xA4 (s.stp.step % 2 ^ 32))
    Status.done 0 0 []).trans ((hg.eventFree.event _ _ _).trans (hg.endHandover (s.activated b)))
  have kept := fun {β : Type} (g : State → β) (hg : AnswerFree g) => (hg.finalReply (s.unactivated.endHandover.setBits Reg.SEC_STATUS 0x10)
    Status.refused 0x05 1 []).trans ((hg.regFree.setBits _ _ _).trans (hg.endHandover s.unactivated))
  refine ⟨⟨_, exec_fwActivation_due hp hrec h hv, ?_⟩, _, exec_fwHealthTimeout_due hp hrec h hv, ?_⟩
  · exact ⟨done (fun t => t.host.runB) ⟨fun _ _ _ _ => rfl, fun _ _ => rfl⟩, done (fun t => t.host.fwPending) ⟨fun _ _ _ _ => rfl, fun _ _ => rfl⟩,
      State.finalReply_pendingCmd _ _ _ _ _, done State.dev ⟨fun _ _ _ _ => rfl, fun _ _ => rfl⟩,
      done State.arrays ⟨fun _ _ _ _ => rfl, fun _ _ => rfl⟩, done State.mem ⟨fun _ _ _ _ => rfl, fun _ _ => rfl⟩⟩
  · exact ⟨kept (fun t => t.host.runB) ⟨fun _ _ _ _ => rfl, fun _ _ => rfl⟩, kept (fun t => t.host.fwPending) ⟨fun _ _ _ _ => rfl, fun _ _ => rfl⟩,
      State.finalReply_pendingCmd _ _ _ _ _, kept State.dev ⟨fun _ _ _ _ => rfl, fun _ _ => rfl⟩,
      kept State.arrays ⟨fun _ _ _ _ => rfl, fun _ _ => rfl⟩, kept State.mem ⟨fun _ _ _ _ => rfl, fun _ _ => rfl⟩⟩

/-- What FW_LOAD leaves of a signed image that is new enough: the slot that does not run holds it. -/
theorem State.setSlot_inactive {s : State} (hrec : s.host.recovery = false) (x : FwSlot) :
    s.dev.setSlot s.inactiveB x = if s.host.runB then { s.dev with slotA := x } else { s.dev with slotB := x } := by
  rw [State.inactiveB, hrec, if_neg Bool.false_ne_true]
  cases s.host.runB <;> rfl

/-- Settles O58: FW_LOAD answers by the check of its image, FW_ACTIVATE waits, and each outcome of its activation is one equation of `exec`. -/
theorem firmwareCommands : Obligations.FirmwareCommands := by
  refine ⟨fun c a n s h hst => ?_, fun c b sa s h hst hsa hok => ?_, fun b k s hp hrec hv => ⟨exec_activation_waits hp, fun hdue =>
    exec_activation_answers hp hrec hdue hv⟩, fun c n s h hst => ?_⟩
  · obtain ⟨-, hl, -, hrec, -⟩ := id h
    refine ⟨fun hr => ?_, fun e hn hr he => ?_, fun hn hr he => ?_⟩
    · exact ⟨_, exec_fwLoad_transfer h hst hr, s.onlyReply_replyBoth _ _ _ _ _ _, State.answeredTwice_replyBoth _ _ _ _ _ _ hl⟩
    · have checked := exec_fwLoad_checked h hst hn hr
      rw [he] at checked
      exact ⟨_, checked, s.onlyReply_replyBoth _ _ _ _ _ _, State.answeredTwice_replyBoth _ _ _ _ _ _ hl⟩
    · have checked := exec_fwLoad_checked h hst hn hr
      rw [he] at checked
      have only := State.onlyReply_replyBoth { s with dev := s.dev.setSlot s.inactiveB (fwSlotOf (memGet s.hostMem a.toNat n.toNat)) } c 0x50 0 0 0 []
      exact ⟨_, checked, State.answeredTwice_from hl rfl rfl, only.keeps (f := State.mem) fun _ _ _ _ => rfl, only.keeps (f := State.arrays) fun _ _ _ _ => rfl,
        only.keeps (f := State.host) fun _ _ _ _ => rfl, (only.keeps (f := State.dev) fun _ _ _ _ => rfl).trans (State.setSlot_inactive hrec _)⟩
  · obtain ⟨-, hl, -⟩ := id h
    have pending := fun {β : Type} (g : State → β) (hg : EventFree g) (hp : ∀ (s : State) x, g { s with host := { s.host with pendingCmd := x } } = g s) =>
      State.replyPending_keeps hg hp s c 0x51 0
    refine ⟨_, exec_fwActivate h hst hsa hok, State.answered_pending (arg := 0) hl rfl rfl rfl, pending State.dev (.of_unread fun _ _ _ _ => rfl) fun _ _ => rfl,
      pending State.arrays (.of_unread fun _ _ _ _ => rfl) fun _ _ => rfl, ?_⟩
    have host := (EventFree.of_unread (f := State.host) fun _ _ _ _ => rfl).putReply s c c.replyAddr 0x51 Status.pending 0 0 []
    rw [← State.activationStep_eq]
    exact congrArg (fun x : HostIf => { x with pendingCmd := some ⟨c, 0x51, 0⟩, fwPending := some (b, s.activationStep sa.toNat) }) host
  · obtain ⟨-, hl, -⟩ := id h
    exact ⟨_, exec_attest h hst, s.onlyReply_reply _ _ _ _ _ _, State.answered_reply _ _ _ _ _ _ hl⟩

end Sys2Proof.Machine
end

section
/-! EVENT_QUEUE, FAULT_CLEAR and sealed packets (R381, R382, R436, R441); O59. -/

namespace Sys2Proof.Machine

variable {α : Type} {f : State → α}

/-! ### EVENT_QUEUE (R436) -/

theorem queueOk_of {a n : Nat} (ha : a % 4096 = 0) (h1 : 64 ≤ n) (h2 : n ≤ 65536) (h3 : 2 ^ Nat.log2 n = n) : queueOk a n = true := by
  simp [queueOk, ha, h1, h2, h3]

/-- With no kept entry the new queue is empty. -/
theorem State.setQueue_of_none {s : State} (h : s.flt.stash = []) (a n : Nat) : s.setQueue a n =
    { s with flt := { s.flt with eqAddr := some a, eqSize := n, head := 0, tail := 0, seq := 0, stash := [] } } := by
  rw [State.setQueue, h]
  rfl

/-! ### FAULT_CLEAR (R441) -/

/-- The fault records of the module are acknowledged and gone. -/
def State.faultsGone (s : State) : State :=
  let u := s.acknowledge
  { u with flt := { u.flt with first := none, firstPeriod := 0, codesWritten := [] } }

/-- Beacons and reports of other modules are forgotten on request. -/
def State.beaconsGone (s : State) (y : Bool) : State := if y then { s with ring := { s.ring with merges := [], filter := [] } } else s

theorem State.clearFaults_eq (s : State) (x y : Bool) : s.clearFaults (bnat x + 2 * bnat y) =
    if x then (s.faultsGone.beaconsGone y).clearJobCounters else s.faultsGone.beaconsGone y := by
  cases x <;> cases y <;> rfl

/-- FAULT_CLEAR with what it waits for in place. -/
def State.faultCleared (s : State) (x y : Bool) : State :=
  State.clearFaults { s with thy := { s.thy with phaseLost := false } } (bnat x + 2 * bnat y)

/-- What registers and beacons do not touch. -/
theorem State.faultCleared_keeps (hr : RegFree f) (hb : ∀ (s : State) m k, f { s with ring := { s.ring with merges := m, filter := k } } = f s)
    (s : State) (x y : Bool) : f (s.faultCleared x y) = f (State.faultsGone { s with thy := { s.thy with phaseLost := false } }) := by
  rw [State.faultCleared, State.clearFaults_eq]
  have beacons (u : State) : f (u.beaconsGone y) = f u := keeps_onlyIf (hb u _ _)
  exact keeps_ite ((hr _ _).trans (beacons _)) (beacons _)

theorem State.faultCleared_ring (s : State) (x y : Bool) : (s.faultCleared x y).ring =
    (({ s with thy := { s.thy with phaseLost := false } } : State).faultsGone.beaconsGone y).ring := by
  rw [State.faultCleared, State.clearFaults_eq]
  exact keeps_ite (f := State.ring) rfl rfl

/-- No report about the module itself stays in the filter (log 112). -/
theorem State.faultCleared_filter (s : State) (x y : Bool) : ∀ e ∈ (s.faultCleared x y).ring.filter, e.1 ≠ s.ring.addr := by
  rw [State.faultCleared_ring]
  intro e he
  cases y with
  | true => exact absurd he List.not_mem_nil
  | false =>
    have kept : e ∈ s.ring.filter.filter fun k : Nat × Nat => k.1 != s.ring.addr := he
    exact bne_iff_ne.mp (List.mem_filter.mp kept).2

theorem State.faultCleared_merges (s : State) (x y : Bool) :
    (y = true → (s.faultCleared x y).ring.merges = [] ∧ (s.faultCleared x y).ring.filter = []) ∧
      (y = false → (s.faultCleared x y).ring.merges = s.ring.merges) := by
  rw [State.faultCleared_ring]
  exact ⟨by rintro rfl; exact ⟨rfl, rfl⟩, by rintro rfl; rfl⟩

/-- Without clear_counters the acknowledgement alone changes a register. -/
theorem State.faultCleared_reg (s : State) (y : Bool) {o : Nat} (ho : o ≠ Reg.FLT_STATUS) : (s.faultCleared false y).reg o = s.reg o := by
  have acknowledged (u : State) : u.faultsGone.reg o = u.reg o := u.reg_setReg_ne _ _ _ ho
  rw [State.faultCleared, State.clearFaults_eq, if_neg Bool.false_ne_true]
  have beacons (u : State) : (u.beaconsGone y).reg o = u.reg o := by cases y <;> rfl
  exact (beacons _).trans (acknowledged { s with thy := { s.thy with phaseLost := false } })

/-- A register that is cleared has no entry, and reads its reset value. -/
theorem State.clearRegs_reg (s : State) (p : Nat → Bool) {o : Nat} (ho : p o = true) : (s.clearRegs p).reg o = s.regDefault o :=
  kvGet_absent _ fun e he heq => by
    have kept := (List.mem_filter.mp he).2
    rw [heq, ho] at kept
    exact absurd kept (by decide)

theorem State.faultCleared_job (s : State) (y : Bool) {o : Nat} (ho : isJob o = true) : (s.faultCleared true y).reg o = s.regDefault o := by
  rw [State.faultCleared, State.clearFaults_eq, if_pos rfl]
  refine (State.clearRegs_reg _ isJob ho).trans ?_
  exact keeps_ite (f := fun u : State => u.regDefault o) rfl rfl

theorem exec_faultClear {s : State} {c : CmdHdr} (h : s.takes c) (hst : s.host.st = .stopped) (x y : Bool) :
    exec (.faultClear c x y) s = .next (if s.thy.phaseLost && !s.thy.master then s.replyPending c 0x71 (bnat x + 2 * bnat y + 4 * s.thy.sinceFrame)
      else (s.faultCleared x y).replyDone c 0x71) := by
  have legal : s.host.st ∈ [ModState.stopped] := by simp [hst]
  obtain ⟨-, -, -, -, hbusy⟩ := id h
  show Host.Outcome.next (s.cmdFaultClear c (bnat x + 2 * bnat y)) = _
  rw [State.cmdFaultClear, State.command_takes h 0x71 legal, hbusy]
  rfl

theorem State.reg_reply_ne (s : State) (c : CmdHdr) (op st ft d : Nat) (l : List Byte) {o : Nat} (ho : o ≠ Reg.HST_CMDS) :
    (s.reply c op st ft d l).reg o = s.reg o := by
  rw [State.reply, State.reg_bump_ne _ _ _ _ ho]
  unfold State.putReply State.signalReply
  exact keeps_ite (f := fun u : State => u.reg o) rfl (keeps_ite (f := fun u : State => u.reg o) rfl rfl)

theorem exec_faultClear_answers {s : State} {c : CmdHdr} (h : s.takes c) (hst : s.host.st = .stopped) (hw : s.thy.phaseLost = false ∨ s.thy.master = true)
    (x y : Bool) : ∃ t, exec (.faultClear c x y) s = .next t ∧ s.answered t c 0x71 0 0 0 [] ∧ t.flt.first = none ∧ t.flt.lastValid = false ∧
      t.flt.unacked = false ∧ t.flt.eqAddr = s.flt.eqAddr ∧ t.flt.head = s.flt.head ∧ t.thy.phaseLost = false ∧ t.mem = s.mem ∧ t.arrays = s.arrays ∧
      t.host = s.host ∧ (∀ f ∈ t.ring.filter, f.1 ≠ s.ring.addr) ∧ (y = true → t.ring.merges = [] ∧ t.ring.filter = []) ∧
      (y = false → t.ring.merges = s.ring.merges) ∧
      (x = false → ∀ o, o ≠ Reg.FLT_STATUS → o ≠ Reg.HST_CMDS → t.reg o = s.reg o) ∧
      (x = true → ∀ o, isJob o = true → o ≠ Reg.HST_CMDS → t.reg o = s.regDefault o) := by
  obtain ⟨-, hl, -⟩ := id h
  have ready : (s.thy.phaseLost && !s.thy.master) = false := by rcases hw with hw | hw <;> simp [hw]
  have cleared := exec_faultClear h hst x y
  rw [ready, if_neg Bool.false_ne_true] at cleared
  have gone := fun {β : Type} (g : State → β) (hr : RegFree g) (hb : ∀ (s : State) m k, g { s with ring := { s.ring with merges := m, filter := k } } = g s) =>
    State.faultCleared_keeps hr hb s x y
  have only := (s.faultCleared x y).onlyReply_reply c 0x71 0 0 0 []
  have kept := fun {β : Type} (g : State → β) (hg : ∀ (s : State) m z r, g { s with hostMem := m, flt := z, regs := r } = g s) => only.keeps hg
  have replied := congrArg State.flt only
  have ring := kept State.ring fun _ _ _ _ => rfl
  refine ⟨_, cleared, State.answered_from ((gone State.hostLink (fun _ _ => rfl) fun _ _ _ => rfl).trans hl) (gone State.hostMem (fun _ _ => rfl) fun _ _ _ => rfl)
    (gone (fun u => u.flt.msix) (fun _ _ => rfl) fun _ _ _ => rfl) (gone State.period (fun _ _ => rfl) fun _ _ _ => rfl), ?_⟩
  exact ⟨(congrArg Faults.first replied).trans (gone (fun u => u.flt.first) (fun _ _ => rfl) fun _ _ _ => rfl),
    (congrArg Faults.lastValid replied).trans (gone (fun u => u.flt.lastValid) (fun _ _ => rfl) fun _ _ _ => rfl),
    (congrArg Faults.unacked replied).trans (gone (fun u => u.flt.unacked) (fun _ _ => rfl) fun _ _ _ => rfl),
    (congrArg Faults.eqAddr replied).trans (gone (fun u => u.flt.eqAddr) (fun _ _ => rfl) fun _ _ _ => rfl),
    (congrArg Faults.head replied).trans (gone (fun u => u.flt.head) (fun _ _ => rfl) fun _ _ _ => rfl),
    (kept (fun u => u.thy.phaseLost) fun _ _ _ _ => rfl).trans (gone (fun u => u.thy.phaseLost) (fun _ _ => rfl) fun _ _ _ => rfl),
    (kept State.mem fun _ _ _ _ => rfl).trans (gone State.mem (fun _ _ => rfl) fun _ _ _ => rfl),
    (kept State.arrays fun _ _ _ _ => rfl).trans (gone State.arrays (fun _ _ => rfl) fun _ _ _ => rfl),
    (kept State.host fun _ _ _ _ => rfl).trans (gone State.host (fun _ _ => rfl) fun _ _ _ => rfl),
    fun e he => s.faultCleared_filter x y e (congrArg Ring.filter ring ▸ he),
    fun hy => ⟨(congrArg Ring.merges ring).trans ((s.faultCleared_merges x y).1 hy).1, (congrArg Ring.filter ring).trans ((s.faultCleared_merges x y).1 hy).2⟩,
    fun hy => (congrArg Ring.merges ring).trans ((s.faultCleared_merges x y).2 hy),
    fun hx o h1 h2 => (State.reg_reply_ne _ _ _ _ _ _ _ h2).trans (hx ▸ s.faultCleared_reg y h1),
    fun hx o h1 h2 => (State.reg_reply_ne _ _ _ _ _ _ _ h2).trans (hx ▸ s.faultCleared_job y h1)⟩

/-- Behind a PHASE_LOSS it waits for phase frames first. -/
theorem exec_faultClear_waits {s : State} {c : CmdHdr} (h : s.takes c) (hst : s.host.st = .stopped) (hlost : s.thy.phaseLost = true)
    (hm : s.thy.master = false) (x y : Bool) : ∃ t, exec (.faultClear c x y) s = .next t ∧ s.answered t c 0x71 1 0 0 [] ∧
      t.flt.unacked = s.flt.unacked ∧ t.host.pendingCmd.isSome = true ∧ t.thy = s.thy := by
  obtain ⟨-, hl, -⟩ := id h
  have waits := exec_faultClear h hst x y
  have lost : (s.thy.phaseLost && !s.thy.master) = true := by rw [hlost, hm]; rfl
  rw [lost, if_pos rfl] at waits
  have unacked : EventFree fun u : State => u.flt.unacked :=
    ⟨fun _ _ _ _ h => h, fun s _ _ _ => RegFree.bump (f := fun u : State => u.flt.unacked) (fun _ _ => rfl) s _ _, fun _ _ _ _ => rfl⟩
  exact ⟨_, waits, State.answered_pending hl rfl rfl rfl, State.replyPending_keeps unacked (fun _ _ => rfl) s c _ _, rfl,
    State.replyPending_keeps (f := State.thy) (.of_unread fun _ _ _ _ => rfl) (fun _ _ => rfl) s c _ _⟩

/-! ### EVENT_QUEUE as a command -/

theorem exec_eventQueue {s : State} {c : CmdHdr} (h : s.takes c) (hst : s.host.st ≠ .unopened) {a : BitVec 64} {n : BitVec 32}
    (ha : a.toNat % 4096 = 0) (h1 : 64 ≤ n.toNat) (h2 : n.toNat ≤ 65536) (h3 : 2 ^ Nat.log2 n.toNat = n.toNat) :
    exec (.eventQueue c a n) s = .next ((s.setQueue a.toNat n.toNat).replyDone c 0x70) := by
  show Host.Outcome.next (s.cmdEventQueue c a.toNat n.toNat) = _
  rw [State.cmdEventQueue, queueOk_of ha h1 h2 h3, State.command_takes h 0x70 (State.openedState hst)]

theorem exec_eventQueue_empties {s : State} {c : CmdHdr} (h : s.takes c) (hst : s.host.st ≠ .unopened) {a : BitVec 64} {n : BitVec 32}
    (ha : a.toNat % 4096 = 0) (h1 : 64 ≤ n.toNat) (h2 : n.toNat ≤ 65536) (h3 : 2 ^ Nat.log2 n.toNat = n.toNat) (hk : s.flt.stash = []) :
    ∃ t, exec (.eventQueue c a n) s = .next t ∧ s.answered t c 0x70 0 0 0 [] ∧ t.flt.eqAddr = some a.toNat ∧ t.flt.eqSize = n.toNat ∧
      t.flt.head = 0 ∧ t.flt.tail = 0 ∧ t.flt.seq = 0 ∧ t.mem = s.mem ∧ t.arrays = s.arrays ∧ t.host = s.host := by
  obtain ⟨-, hl, -⟩ := id h
  have emptied := exec_eventQueue h hst ha h1 h2 h3
  rw [State.setQueue_of_none hk] at emptied
  have only := State.onlyReply_reply
    { s with flt := { s.flt with eqAddr := some a.toNat, eqSize := n.toNat, head := 0, tail := 0, seq := 0, stash := [] } } c 0x70 0 0 0 []
  have queue := congrArg State.flt only
  exact ⟨_, emptied, State.answered_from hl rfl rfl rfl, congrArg Faults.eqAddr queue, congrArg Faults.eqSize queue, congrArg Faults.head queue,
    congrArg Faults.tail queue, congrArg Faults.seq queue, only.keeps (f := State.mem) fun _ _ _ _ => rfl, only.keeps (f := State.arrays) fun _ _ _ _ => rfl,
    only.keeps (f := State.host) fun _ _ _ _ => rfl⟩

/-! ### Sealed packets (R381, R382) -/

theorem State.event_regsSorted {s : State} (hs : s.regsSorted) (c d : Nat) : (s.event c d).regsSorted :=
  CorrectStable.event (P := State.regsSorted)
    { notes := fun _ _ _ _ hs => hs
      setReg := fun a v hs => State.setReg_regsSorted hs a v
      setBits := fun a m hs => State.setBits_regsSorted hs a m
      counts := fun _ _ _ _ _ _ hs => hs } c d hs

theorem State.slotBytes_putSlot (s : State) (i : Nat) (p : List Byte) : (s.putSlot i p).slotBytes i = p := by
  simp [State.slotBytes, State.putSlot]

theorem State.bump_onlyVals (s : State) (a n : Nat) : s.bump a n = { s with regs := { s.regs with vals := (s.bump a n).regs.vals } } := by
  unfold State.bump
  split <;> rfl

/-- A packet of a slot with the seal high word written. -/
def State.sealed (s : State) (slot : Nat) (p : List Byte) : State :=
  let u := s.putSlot slot p
  { u with host := { u.host with visible := [slot] } }

/-- Sage takes the packet: its seal high word reads zero, and no packet is visible (R381). -/
def State.unsealed (s : State) (slot : Nat) (p : List Byte) : State :=
  let u := (s.sealed slot p).putSlot slot (p.take 252 ++ zeros 4)
  { u with host := { u.host with visible := [] } }

theorem State.unsealed_host (s : State) (slot : Nat) (p : List Byte) :
    (s.unsealed slot p).host.visible = [] ∧ (s.unsealed slot p).host.st = s.host.st := ⟨rfl, rfl⟩

theorem State.sealed_keeps (hf : ∀ (s : State) a b, f { s with host := { s.host with slots := a, visible := b } } = f s) (s : State) (slot : Nat) (p : List Byte) :
    f (s.sealed slot p) = f s := (hf _ _ _).trans (hf s _ s.host.visible)

theorem State.unsealed_keeps (hf : ∀ (s : State) a b, f { s with host := { s.host with slots := a, visible := b } } = f s) (s : State) (slot : Nat) (p : List Byte) :
    f (s.unsealed slot p) = f s := ((hf _ _ _).trans (hf _ _ (s.sealed slot p).host.visible)).trans (State.sealed_keeps hf s slot p)

theorem State.unsealed_frame (s : State) (slot : Nat) (p : List Byte) :
    (s.unsealed slot p).mem = s.mem ∧ (s.unsealed slot p).arrays = s.arrays ∧ (s.unsealed slot p).ring = s.ring :=
  have kept := fun {β : Type} (g : State → β) (hf : ∀ (s : State) a b, g { s with host := { s.host with slots := a, visible := b } } = g s) => State.unsealed_keeps hf s slot p
  ⟨kept State.mem fun _ _ _ => rfl, kept State.arrays fun _ _ _ => rfl, kept State.ring fun _ _ _ => rfl⟩

section
variable {s : State} {slot : Nat} {body : List (BitVec 8)} {w : BitVec 32} (hp : s.powered = true) (hslot : slot < 256)
include hp hslot

theorem exec_sealWrite_visible (hv : slot ∈ s.host.visible) : exec (.sealWrite slot body w) s = .next (s.bump Reg.HST_BUSY_WRITE 1) := by
  have fits : ¬ 256 ≤ slot := by omega
  simp [exec, execSealWrite, hp, fits, hv]

theorem exec_sealWrite_unsealed (hv : slot ∉ s.host.visible) :
    exec (.sealWrite slot body 0) s = .next (s.putSlot slot (fullBody body ++ leBytes 4 0)) := by
  have fits : ¬ 256 ≤ slot := by omega
  simp [exec, execSealWrite, hp, fits, hv]

theorem exec_sealWrite_alone (hv : s.host.visible = []) (hw : w ≠ 0) :
    exec (.sealWrite slot body w) s = .next ((s.sealed slot (fullBody body ++ leBytes 4 w.toNat)).takeVisible 1) := by
  have fits : ¬ 256 ≤ slot := by omega
  have word : (w == 0#32) = false := by simpa using hw
  simp [exec, execSealWrite, hp, fits, hv, word, State.putSlot, State.sealed]

theorem exec_sealWrite_waits (hv : s.host.visible = []) (hw : w ≠ 0) (hup : s.sageUp = false) :
    exec (.sealWrite slot body w) s = .next (s.sealed slot (fullBody body ++ leBytes 4 w.toNat)) := by
  have down : (s.sealed slot (fullBody body ++ leBytes 4 w.toNat)).sageUp = false := hup
  rw [exec_sealWrite_alone hp hslot hv hw, State.takeVisible, down]
  rfl

theorem exec_sealWrite_taken (hv : s.host.visible = []) (hw : w ≠ 0) (hup : s.sageUp = true) :
    exec (.sealWrite slot body w) s = .next ((s.unsealed slot (fullBody body ++ leBytes 4 w.toNat)).takePacket slot
      (fullBody body ++ leBytes 4 w.toNat)) := by
  have up : (s.sealed slot (fullBody body ++ leBytes 4 w.toNat)).sageUp = true := hup
  have bytes : (s.sealed slot (fullBody body ++ leBytes 4 w.toNat)).slotBytes slot = _ := State.slotBytes_putSlot s slot _
  have seen : (s.sealed slot (fullBody body ++ leBytes 4 w.toNat)).host.visible = [slot] := rfl
  rw [exec_sealWrite_alone hp hslot hv hw]
  simp only [State.takeVisible, up, seen, bytes]
  rfl

end

/-- Row 1 of R382: a bad length or CRC. -/
theorem State.takePacket_badSeal {s : State} {p : List Byte} (h : sealOk p = false) (slot : Nat) :
    s.takePacket slot p = (s.event 0x02 slot).bump Reg.HST_SEAL_ERR 1 := by
  rw [State.takePacket, h]
  rfl

theorem State.badSeal_frame {s : State} (hs : s.regsSorted) (slot : Nat) :
    ((s.event 0x02 slot).bump Reg.HST_SEAL_ERR 1).reg Reg.HST_SEAL_ERR = s.reg Reg.HST_SEAL_ERR + 1 ∧
      ((s.event 0x02 slot).bump Reg.HST_SEAL_ERR 1).host = s.host ∧ ((s.event 0x02 slot).bump Reg.HST_SEAL_ERR 1).mem = s.mem ∧
      ((s.event 0x02 slot).bump Reg.HST_SEAL_ERR 1).arrays = s.arrays ∧ ((s.event 0x02 slot).bump Reg.HST_SEAL_ERR 1).ring = s.ring := by
  have counted := State.reg_bump_same _ Reg.HST_SEAL_ERR 1 (State.event_regsSorted hs 0x02 slot) one_ne_zero
  rw [State.event, State.postEvent_reg (by decide)] at counted
  have kept := fun {β : Type} (g : State → β) (hg : EventFree g) (hr : RegFree g) => (hr.bump _ Reg.HST_SEAL_ERR 1).trans (hg.event s 0x02 slot)
  exact ⟨counted, kept State.host (.of_unread fun _ _ _ _ => rfl) fun _ _ => rfl, kept State.mem (.of_unread fun _ _ _ _ => rfl) fun _ _ => rfl,
    kept State.arrays (.of_unread fun _ _ _ _ => rfl) fun _ _ => rfl, kept State.ring (.of_unread fun _ _ _ _ => rfl) fun _ _ => rfl⟩

theorem State.unsealed_badSeal {s : State} {p : List Byte} (hs : s.regsSorted) (h : sealOk p = false) (slot : Nat) :
    let t := (s.unsealed slot p).takePacket slot p
    t.reg Reg.HST_SEAL_ERR = s.reg Reg.HST_SEAL_ERR + 1 ∧ t.host.visible = [] ∧ t.host.st = s.host.st ∧ t.mem = s.mem ∧ t.arrays = s.arrays ∧
      t.ring = s.ring := by
  intro t
  obtain ⟨hreg, hhost, hmem, harr, hring⟩ := State.badSeal_frame (s := s.unsealed slot p) hs slot
  rw [← State.takePacket_badSeal h] at hreg hhost hmem harr hring
  obtain ⟨hvisible, hst⟩ := s.unsealed_host slot p
  obtain ⟨mem, arrays, ring⟩ := s.unsealed_frame slot p
  exact ⟨hreg, (congrArg HostIf.visible hhost).trans hvisible, (congrArg HostIf.st hhost).trans hst, hmem.trans mem, harr.trans arrays, hring.trans ring⟩

/-- An IDENTIFY packet of a right form is carried out as the command. -/
theorem State.takePacket_identify {s : State} {p : List Byte} (h : s.takes (packetHdr p)) (hseal : sealOk p = true) (hhead : headOk p = true)
    (hop : fld p 0 2 = 0x01) (hparams : paramsOk p (packetLen p) [] = true) (slot : Nat) :
    s.takePacket slot p = s.reply (packetHdr p) 0x01 Status.done 0 0 s.identity := by
  have carried : s.cmdIdentify (packetHdr p) = s.reply (packetHdr p) 0x01 Status.done 0 0 s.identity := Host.Outcome.next.inj (exec_identify h)
  obtain ⟨-, -, haligned, hrecovery, -⟩ := h
  have fields : paramFields 0x01 = some [] := rfl
  simp only [State.takePacket, hseal, haligned, hrecovery, hop, fields, hhead, hparams, Bool.not_true, Bool.false_and, Bool.false_eq_true, if_false,
    bne_self_eq_false, Bool.and_self, if_true]
  exact carried

theorem State.unsealed_takes {s : State} {c : CmdHdr} (h : s.takes c) (slot : Nat) (p : List Byte) : (s.unsealed slot p).takes c :=
  (State.unsealed_keeps (f := fun u => u.takes c) (fun _ _ _ => rfl) s slot p).mpr h

theorem State.unsealed_identity (s : State) (slot : Nat) (p : List Byte) : (s.unsealed slot p).identity = s.identity :=
  State.unsealed_keeps (f := State.identity) (fun _ _ _ => rfl) s slot p

theorem State.unsealed_answered {s : State} (hl : s.hostLink = true) (slot : Nat) (p : List Byte) (c : CmdHdr) (l : List Byte) :
    s.answered ((s.unsealed slot p).reply c 0x01 Status.done 0 0 l) c 0x01 0 0 0 l :=
  have kept := fun {β : Type} (g : State → β) (hf : ∀ (s : State) a b, g { s with host := { s.host with slots := a, visible := b } } = g s) => State.unsealed_keeps hf s slot p
  State.answered_from hl (kept State.hostMem fun _ _ _ => rfl) (kept (fun u => u.flt.msix) fun _ _ _ => rfl) (kept State.period fun _ _ _ => rfl)

theorem State.unsealed_reply (s : State) (slot : Nat) (p : List Byte) (c : CmdHdr) (l : List Byte) :
    let t := (s.unsealed slot p).reply c 0x01 Status.done 0 0 l
    t.host.visible = [] ∧ t.mem = s.mem ∧ t.arrays = s.arrays := by
  intro t
  have only : (s.unsealed slot p).onlyReply t := State.onlyReply_reply _ _ _ _ _ _ _
  obtain ⟨hvisible, -⟩ := s.unsealed_host slot p
  obtain ⟨mem, arrays, -⟩ := s.unsealed_frame slot p
  exact ⟨(only.keeps (f := fun t => t.host.visible) fun _ _ _ _ => rfl).trans hvisible, (only.keeps (f := State.mem) fun _ _ _ _ => rfl).trans mem,
    (only.keeps (f := State.arrays) fun _ _ _ _ => rfl).trans arrays⟩

/-- Settles O59: EVENT_QUEUE, FAULT_CLEAR and sealed packets, each by the state that it leads to. -/
theorem queueClearAndSeals : Obligations.QueueClearAndSeals := by
  refine ⟨⟨fun c a n s h hst ha h1 h2 h3 hk => exec_eventQueue_empties h hst ha h1 h2 h3 hk,
    fun c x y s h hst hw => exec_faultClear_answers h hst hw x y, fun c x y s h hst hlost hm => exec_faultClear_waits h hst hlost hm x y⟩,
    fun slot body w s hp hslot => ⟨fun hv hs => ?_, fun hv hw => ?_, fun hv hw hup => ?_, fun hv hw hup hs hseal => ?_,
      fun hv hw h hseal hhead hop hparams => ?_⟩⟩
  · exact ⟨_, exec_sealWrite_visible hp hslot hv, State.bump_onlyVals s _ _, State.reg_bump_same s _ 1 hs one_ne_zero⟩
  · subst hw
    exact ⟨_, exec_sealWrite_unsealed hp hslot hv, rfl, State.slotBytes_putSlot s slot _⟩
  · exact ⟨_, exec_sealWrite_waits hp hslot hv hw hup, rfl, State.slotBytes_putSlot s slot _⟩
  · have taken := exec_sealWrite_taken (body := body) hp hslot hv hw hup
    exact ⟨_, taken, State.unsealed_badSeal hs hseal slot⟩
  · have taken := exec_sealWrite_taken (body := body) hp hslot hv hw h.1
    rw [State.takePacket_identify (State.unsealed_takes h slot _) hseal hhead hop hparams, State.unsealed_identity] at taken
    exact ⟨_, taken, State.unsealed_answered h.2.1 slot _ _ _, State.unsealed_reply s slot _ _ _⟩

end Sys2Proof.Machine
end

section
/-! A rollback whose journal holds part of a block that does not correct (R217, R348, R351). Its restore of that part merges it with the block, and the write faults behind the acknowledgement that began the recovery; O60. -/

set_option Elab.async false

namespace Sys2Proof.Machine

/-- A time-out of the module itself, which stopped its job (R340, R440). -/
def stoppingIncident : Merge := ⟨0, 0x30, 1, 0, 0, none, 5, true⟩

/-- A complete generation of step 0 whose journal holds the first byte of the block at 0x480000. -/
def partialGeneration : JGen :=
  ⟨0, [⟨0x480000, 0, [0#8]⟩], (List.range 64).flatMap (fun n => allStreams.map (fun st => (n, st, StreamCtx.reset))), some [], some ([], 0), false⟩

/-- The module of `State.badBlock`, whose block at 0x480000 does not correct, stopped by that incident in step 0, with that generation and automatic recovery enabled. -/
def State.recovering : State :=
  { State.badBlock 1 with
    host := { HostIf.reset with st := .stopped, bootDone := true, committed := true, faultMode := 1 }
    ring := { Ring.reset with members := 1, merges := [stoppingIncident] }
    mir := { Mirror.reset with gens := [partialGeneration] } }

theorem State.recovering_stopped : State.recovering.busy = false ∧ State.recovering.incident = some stoppingIncident ∧
    State.recovering.noService = false ∧ State.recovering.nothingInFlight = true ∧
    kvGet 0 State.recovering.flt.autoCounts 0 < State.recovering.regN Reg.FLT_AUTO_CTRL % 256 := by decide +kernel

theorem State.recovering_generation : State.recovering.gen? 0 = some partialGeneration := List.find?_cons_of_pos (by decide +kernel)

/-- Where AUTO_RECOVERY leads: the job runs again with a fault that nothing has acknowledged. -/
def State.recovered : State := (State.recovering.used 2).runPlan false ⟨1, 0, false⟩ (State.recovering.tick + State.recovering.autoMargin)

theorem State.recovered_faults : State.recovered.flt.unacked = true ∧ State.recovered.host.st = .running := by decide +kernel

/-- The module, whose fault it is, does not coordinate, and its plan is the rollback to step 0. -/
theorem State.recovering_plan : State.recovering.coordinates 0 = false ∧ State.recovering.autoPlan stoppingIncident 0 = some ⟨1, 0, false⟩ := by
  decide +kernel

theorem State.recovering_step : State.recovering.stp.step = 0 := by decide +kernel

theorem State.recovering_ready : max State.recovering.mir.readyTick State.recovering.tick = State.recovering.tick := by decide +kernel

/-- Automatic recovery is enabled, and nothing stands in its way. -/
theorem State.recovering_enabled : State.recovering.host.faultMode = 1 ∧ State.recovering.host.st = .stopped ∧ State.recovering.mir.fenced = false ∧
    State.recovering.host.fwPending = none ∧ State.recovering.regs.crcBad = false ∧ State.recovering.host.noSpare = false ∧
    State.recovering.host.reload = false := by decide +kernel

theorem exec_autoRecovery_recovers : exec (.autoRecovery [] [] true) State.recovering = .next State.recovered := by
  obtain ⟨-, hincident, -⟩ := State.recovering_stopped
  obtain ⟨hlead, hplan⟩ := State.recovering_plan
  have enabled : (State.recovering.host.faultMode != 1 || State.recovering.host.st != .stopped || State.recovering.mir.fenced || State.recovering.busy ||
      State.recovering.host.fwPending.isSome) = false := by decide +kernel
  show execAutoRecovery [] [] true State.recovering = _
  rw [execAutoRecovery, enabled, hincident, List.foldl_nil, List.foldl_nil, State.recovering_ready, State.recovering_step]
  simp only [show stoppingIncident.subject = 0 from rfl, hlead, hplan, Bool.false_and, Bool.false_eq_true, if_false, if_true, State.recovered]

/-- Refutes O60: the rollback of a journal that holds a part of a block that does not correct writes that part back, and the write faults (R217), so that the job runs again with a fault that nothing has acknowledged; the statement, whose clause on a rollback that nothing holds up does not ask for a journal of whole blocks, lets no fault stand unacknowledged behind it. -/
theorem not_automaticRecovery : ¬ Obligations.AutomaticRecovery := by
  intro hall
  obtain ⟨hidle, hincident, hservice, hquiet, hlimit⟩ := State.recovering_stopped
  obtain ⟨hmode, hst, hfence, hpending, hcrc, hspare, hreload⟩ := State.recovering_enabled
  have hstep : 0 = [].foldl min State.recovering.stp.step := State.recovering_step.symm
  have htick : State.recovering.tick + State.recovering.autoMargin =
      [].foldl max (max State.recovering.mir.readyTick State.recovering.tick) + State.recovering.regN Reg.FLT_AUTO_CTRL / 65536 := by
    rw [List.foldl_nil, State.recovering_ready, State.autoMargin]
  obtain ⟨-, hrecovers⟩ := hall [] [] stoppingIncident partialGeneration 0 _ State.recovering hstep htick
  obtain ⟨hrolls, -⟩ := hrecovers hmode hst hfence hidle hpending hincident
  obtain ⟨-, hnow⟩ := hrolls (by decide) hcrc hspare hreload (.inr hservice) State.recovering_generation hlimit
  obtain ⟨t, ht, hacknowledged, -⟩ := hnow hquiet
  have hfinal : State.recovered = t := Host.Outcome.next.inj (exec_autoRecovery_recovers.symm.trans ht)
  obtain ⟨hfaults, -⟩ := State.recovered_faults
  rw [← hfinal, hfaults] at hacknowledged
  exact absurd hacknowledged (by decide)

end Sys2Proof.Machine
end

section
/-! NORM frames and beacons (R330, R339); O36. -/

namespace Sys2Proof.Machine

variable {α : Type} {f : State → α}

/-! ### The global norm (R330) -/

theorem State.offCounters_setReg (s : State) (a : Nat) (v : W32) : (s.setReg a v).offCounters = s.offCounters := rfl

theorem State.onlyRing_setG2 (s : State) (g : DW) (sat : Bool) : s.onlyRing (s.setG2 g sat) := State.onlyRing_iff.2 rfl

theorem State.settleNorm_waits {s : State} (h : s.modulePartial = none) : s.settleNorm = s := by
  rw [State.settleNorm, h]
  exact ite_self s

/-- The effect of a NORM frame on the module that has received it. -/
def State.normTaken (s : State) (x : Frame) : State :=
  (s.received x).normArrives (x.tag.toNat % 2 ^ 31) (normSum x) (x.aux.getLsbD 0) (x.tag.getLsbD 31)

section
variable {s : State} {x : Frame} (h : s.linkTakes x) (hme : s.forMe x)
include h hme

/-- What a NORM frame does, where its own effect is on the ring engine and counters alone. -/
theorem exec_normFrame {u : State} (hu : s.normTaken x = u) (hring : (s.received x).onlyRing u) : ∃ t, exec (.normFrame x) s = .next t ∧ s.onlyRing t ∧
    t.ring.g2 = u.ring.g2 ∧ t.ring.g2At = u.ring.g2At ∧ t.ring.g2Sat = u.ring.g2Sat ∧ t.ring.normIn = u.ring.normIn ∧ t.ring.normSat = u.ring.normSat := by
  subst hu
  have seen := fun {β : Type} (g : State → β) (hg : LinkFree g) => hg.arrives h hme 11
    fun s => s.normArrives (x.tag.toNat % 2 ^ 31) (normSum x) (x.aux.getLsbD 0) (x.tag.getLsbD 31)
  exact ⟨_, rfl, State.onlyRing_of_arrives h hme hring, seen (fun t => t.ring.g2) fun _ _ _ => rfl, seen (fun t => t.ring.g2At) fun _ _ _ => rfl,
    seen (fun t => t.ring.g2Sat) fun _ _ _ => rfl, seen (fun t => t.ring.normIn) fun _ _ _ => rfl, seen (fun t => t.ring.normSat) fun _ _ _ => rfl⟩

/-- The first norm of the step is the global one. -/
theorem exec_normFrame_first (hfinal : x.tag.getLsbD 31 = true) (hnone : s.ring.g2 = none) :
    ∃ t, exec (.normFrame x) s = .next t ∧ s.onlyRing t ∧ t.ring.g2 = some (normSum x) ∧ t.ring.g2At = s.cycle ∧ t.ring.g2Sat = x.aux.getLsbD 0 := by
  have none : (s.received x).ring.g2 = none := (LinkFree.received (f := fun t => t.ring.g2) (fun _ _ _ => rfl) s x).trans hnone
  have effect : s.normTaken x = (s.received x).setG2 (normSum x) (x.aux.getLsbD 0) := by
    rw [State.normTaken, State.normArrives, hfinal, none]
    rfl
  have now : (s.received x).cycle = s.cycle := LinkFree.received (f := State.cycle) (fun _ _ _ => rfl) s x
  obtain ⟨t, ht, hring, hg2, hat, hsat, -⟩ := exec_normFrame h hme effect (State.onlyRing_setG2 _ _ _)
  exact ⟨t, ht, hring, hg2, hat.trans now, hsat⟩

theorem exec_normFrame_later (hfinal : x.tag.getLsbD 31 = true) (hsome : s.ring.g2.isSome) :
    ∃ t, exec (.normFrame x) s = .next t ∧ s.onlyRing t ∧ t.ring.g2 = s.ring.g2 := by
  have kept : (s.received x).ring.g2 = s.ring.g2 := LinkFree.received (f := fun t => t.ring.g2) (fun _ _ _ => rfl) s x
  have effect : s.normTaken x = s.received x := by
    rw [State.normTaken, State.normArrives, hfinal, kept, hsome]
    rfl
  obtain ⟨t, ht, hring, hg2, -⟩ := exec_normFrame h hme effect (State.onlyRing_iff.2 rfl)
  exact ⟨t, ht, hring, hg2.trans kept⟩

/-- The fold of the domain before is kept until the module's own partial is there. -/
theorem exec_normFrame_fold (hfold : x.tag.getLsbD 31 = false) (hdomain : x.tag.toNat + 1 = s.domainIdx)
    (hpartial : s.modulePartial = none) : ∃ t, exec (.normFrame x) s = .next t ∧ s.onlyRing t ∧ t.ring.normIn = some (normSum x) ∧
      t.ring.normSat = x.aux.getLsbD 0 ∧ t.ring.g2 = s.ring.g2 := by
  have kept : (s.received x).ring.g2 = s.ring.g2 := LinkFree.received (f := fun t => t.ring.g2) (fun _ _ _ => rfl) s x
  have domain : (s.received x).domainIdx = s.domainIdx := LinkFree.received (f := State.domainIdx) (fun _ _ _ => rfl) s x
  have noPartial : (s.received x).modulePartial = none := (LinkFree.received (f := State.modulePartial) (fun _ _ _ => rfl) s x).trans hpartial
  have index : x.tag.toNat % 2 ^ 31 = x.tag.toNat := by
    have small : x.tag.msb = false := hfold
    have bound := BitVec.msb_eq_false_iff_two_mul_lt.mp small
    omega
  have effect : s.normTaken x =
      { s.received x with ring := { (s.received x).ring with normIn := some (normSum x), normSat := x.aux.getLsbD 0 } } := by
    rw [State.normTaken, State.normArrives, hfold, if_neg Bool.false_ne_true, index, domain, hdomain, beq_self_eq_true, if_pos rfl]
    exact State.settleNorm_waits noPartial
  obtain ⟨t, ht, hring, hg2, -, -, hin, hsat⟩ := exec_normFrame h hme effect (State.onlyRing_iff.2 rfl)
  exact ⟨t, ht, hring, hin, hsat, hg2.trans kept⟩

end

/-! ### Beacons (R339) -/

/-- What a report tells about its subject leaves what reads neither who is gone, nor the ports, nor the rates asked for (R249, R313). -/
theorem tellsLoss_keeps (hgone : ∀ (s : State) g, f { s with ring := { s.ring with gone := g } } = f s) (hlink : LinkFree f)
    (hthy : ∀ (s : State) q g n d u,
      f { s with thy := { s.thy with reqRates := q, target := g, rateNext := n, lastDown := d, lastUp := u } } = f s)
    (s : State) (a c : Nat) : f (s.tellsLoss a c) = f s := by
  have announced (u : State) : f u.announce = f u := foldl_keeps (fun v _ => hlink.sendFrame v _ _) _ u
  have slowed (u : State) (n : List (Nat × Nat)) (d : Option Nat) :
      f (u.modThy fun t => { t with rateNext := n, lastDown := d }).announce = f u := (announced _).trans (hthy u _ _ _ _ _)
  have sped (u : State) (n : List (Nat × Nat)) (d : Option Nat) :
      f (u.modThy fun t => { t with rateNext := n, lastUp := d }).announce = f u := (announced _).trans (hthy u _ _ _ _ _)
  have rate (u : State) : f u.masterRate = f u := keeps_ite (slowed u _ _) (keeps_onlyIf (sped u _ _))
  have retargeted (u : State) (l : List (Nat × Nat)) : f (u.retarget l) = f u := (rate _).trans (hthy u _ _ _ _ _)
  exact keeps_onlyIf ((keeps_onlyIf (retargeted _ _)).trans (hgone s _))

/-- The entry of a beacon's subject and class with the beacon merged into it. -/
structure Merge.takes (e e' : Merge) (bitmap first : Nat) : Prop where
  subject : e'.subject = e.subject
  cls : e'.cls = e.cls
  bitmap : e'.bitmap = e.bitmap ||| bitmap
  first : e'.first = min e.first first

/-- The module without its ring engine, its time system, the counters, and when an ECC report last came. -/
def State.offBeacon (s : State) : State :=
  { s with ring := Ring.reset, thy := Thyme.reset, mir := { s.mir with eccAt := none }, regs := { s.regs with vals := [] } }

theorem State.of_offBeacon {s t : State} (h : t.offBeacon = s.offBeacon) :
    t = { s with ring := t.ring, thy := t.thy, mir := { s.mir with eccAt := t.mir.eccAt }, regs := { s.regs with vals := t.regs.vals } } :=
  congrArg (fun u : State =>
    { u with ring := t.ring, thy := t.thy, mir := { u.mir with eccAt := t.mir.eccAt }, regs := { u.regs with vals := t.regs.vals } }) h

theorem State.offBeacon_bump (s : State) (a n : Nat) : (s.bump a n).offBeacon = s.offBeacon := by
  unfold State.bump
  split <;> rfl

/-- An entry that every entry of its subject and class becomes is the one found. -/
theorem find?_replaced {l : List Merge} {p : Merge → Bool} {e e' : Merge} (h : l.find? p = some e) (he' : p e' = true) :
    (l.map fun x => if p x then e' else x).find? p = some e' := by
  have same : (p ∘ fun x => if p x then e' else x) = p := by
    funext x
    cases hx : p x <;> simp [hx, he']
  rw [List.find?_map, same, h]
  simp [List.find?_some h]

/-- The entry with the beacon merged into it. -/
def State.mergedEntry (s : State) (e : Merge) (subject bitmap first port : Nat) : Merge :=
  { e with
    bitmap := e.bitmap ||| bitmap
    first := min e.first first
    pendingAt := if (e.bitmap ||| bitmap) != e.bitmap then some (s.period + s.regN Reg.RNG_BEACON_HOLD) else e.pendingAt
    fromPort := if (e.bitmap ||| bitmap) != e.bitmap then port else e.fromPort
    acted := e.acted || (port == 5 && s.isMember subject) }

/-- The merge table with the entry of a subject and class replaced. -/
def State.replaceMerge (s : State) (subject cls : Nat) (e : Merge) : State :=
  { s with ring := { s.ring with merges := s.ring.merges.map fun x => if x.subject == subject && x.cls == cls then e else x } }

theorem State.settleEntry_none (s : State) : State.settleEntry (s, none) = s := rfl

section
variable {s : State} {subject cls : Nat} {e : Merge} (h : s.ring.merges.find? (fun x => x.subject == subject && x.cls == cls) = some e)
include h

theorem State.enterBeacon_known (bitmap first port : Nat) : s.enterBeacon subject cls bitmap first port =
    ((if (e.bitmap ||| bitmap) != e.bitmap || port == 5 then (s.replaceMerge subject cls (s.mergedEntry e subject bitmap first port)).noteEcc subject cls
      else s.replaceMerge subject cls (s.mergedEntry e subject bitmap first port)).bump Reg.RNG_BEACON_MERGED 1, none) := by
  simp only [State.enterBeacon, h]
  rfl

/-- A beacon about a known subject and class brings about nothing beside its merge. -/
theorem State.settleEntry_known (hbump : ∀ (s : State) a n, f (s.bump a n) = f s) (hecc : ∀ (s : State) p, f { s with mir := { s.mir with eccAt := p } } = f s)
    (bitmap first port : Nat) : f (State.settleEntry (s.enterBeacon subject cls bitmap first port)) =
      f (s.replaceMerge subject cls (s.mergedEntry e subject bitmap first port)) := by
  rw [State.enterBeacon_known h, State.settleEntry_none]
  refine (hbump _ _ _).trans ?_
  split
  · exact keeps_onlyIf (hecc _ _)
  · rfl

end

/-- What a beacon about a known subject and class leaves behind the link layer. -/
theorem State.mergeBeacon_known {s : State} {subject cls : Nat} {e : Merge}
    (h : s.ring.merges.find? (fun x => x.subject == subject && x.cls == cls) = some e)
    (hbump : ∀ (s : State) a n, f (s.bump a n) = f s) (hecc : ∀ (s : State) p, f { s with mir := { s.mir with eccAt := p } } = f s) (bitmap first port : Nat) :
    f (s.mergeBeacon subject cls bitmap first port) = f ((s.tellsLoss subject cls).replaceMerge subject cls
      ((s.tellsLoss subject cls).mergedEntry e subject bitmap first port)) := by
  have merges : (s.tellsLoss subject cls).ring.merges = s.ring.merges :=
    tellsLoss_keeps (f := fun t : State => t.ring.merges) (fun _ _ => rfl) (fun _ _ _ => rfl) (fun _ _ _ _ _ _ => rfl) s subject cls
  exact State.settleEntry_known (merges ▸ h) hbump hecc bitmap first port

/-- The entry's subject and class stay, and so it is found in its place. -/
theorem State.replaceMerge_find? {s : State} {subject cls : Nat} {e : Merge}
    (h : s.ring.merges.find? (fun x => x.subject == subject && x.cls == cls) = some e) (u : State) (bitmap first port : Nat) :
    (s.replaceMerge subject cls (u.mergedEntry e subject bitmap first port)).ring.merges.find? (fun x => x.subject == subject && x.cls == cls) =
      some (u.mergedEntry e subject bitmap first port) :=
  have key : (e.subject == subject && e.cls == cls) = true := List.find?_some (p := fun x : Merge => x.subject == subject && x.cls == cls) h
  find?_replaced h key

/-- The effect of a BEACON frame. -/
def State.beaconIn (x : Frame) (s : State) : State :=
  s.mergeBeacon (x.tag.toNat / 65536) (x.tag.toNat / 256 % 256) (leNat x.payload) (s.fullPeriod x.aux.toNat) x.port

theorem exec_beaconFrame (x : Frame) (s : State) : exec (.beaconFrame x) s = .next (s.linkIn 8 x (State.beaconIn x)) := rfl

section
variable {s : State} {x : Frame} {e : Merge} (h : s.linkTakes x)
  (he : s.ring.merges.find? (fun y => y.subject == x.tag.toNat / 65536 && y.cls == x.tag.toNat / 256 % 256) = some e)
include h he

/-- The module behind a beacon's link layer, seen through what only the merge changes. -/
theorem beaconFrame_merge (hlink : LinkFree f) (hbump : ∀ (s : State) a n, f (s.bump a n) = f s)
    (hecc : ∀ (s : State) p, f { s with mir := { s.mir with eccAt := p } } = f s) :
    f (s.linkIn 8 x (State.beaconIn x)) =
      f (((s.received x).tellsLoss (x.tag.toNat / 65536) (x.tag.toNat / 256 % 256)).replaceMerge (x.tag.toNat / 65536) (x.tag.toNat / 256 % 256)
        (((s.received x).tellsLoss (x.tag.toNat / 65536) (x.tag.toNat / 256 % 256)).mergedEntry e (x.tag.toNat / 65536) (leNat x.payload)
          ((s.received x).fullPeriod x.aux.toNat) x.port)) := by
  have merges : (s.received x).ring.merges = s.ring.merges := LinkFree.received (f := fun t => t.ring.merges) (fun _ _ _ => rfl) s x
  exact (hlink.linkIn h 8 _).trans (State.mergeBeacon_known (merges ▸ he) hbump hecc _ _ _)

theorem beaconFrame_keeps (hlink : LinkFree f) (hbump : ∀ (s : State) a n, f (s.bump a n) = f s)
    (hecc : ∀ (s : State) p, f { s with mir := { s.mir with eccAt := p } } = f s)
    (hmerges : ∀ (s : State) m, f { s with ring := { s.ring with merges := m } } = f s) :
    f (s.linkIn 8 x (State.beaconIn x)) = f ((s.received x).tellsLoss (x.tag.toNat / 65536) (x.tag.toNat / 256 % 256)) :=
  (beaconFrame_merge h he hlink hbump hecc).trans (hmerges _ _)

/-- A beacon that is no PARTNER_LOST tells of no loss. -/
theorem beaconFrame_thy (hcls : x.tag.toNat / 256 % 256 ≠ 0x71) : (s.linkIn 8 x (State.beaconIn x)).thy = s.thy := by
  have kept := beaconFrame_keeps h he (f := State.thy) (fun _ _ _ => rfl) (RegFree.bump fun _ _ => rfl) (fun _ _ => rfl) fun _ _ => rfl
  rw [State.tellsLoss, if_neg (by simpa using hcls)] at kept
  exact kept.trans (LinkFree.received (f := State.thy) (fun _ _ _ => rfl) s x)

/-- The merge table is the one before with the beacon merged into the entry of its subject and class (R339). -/
theorem beaconFrame_table : ∃ e', (s.linkIn 8 x (State.beaconIn x)).ring.merges.find?
      (fun y => y.subject == x.tag.toNat / 65536 && y.cls == x.tag.toNat / 256 % 256) = some e' ∧ e'.bitmap = e.bitmap ||| leNat x.payload ∧
    e'.first = min e.first (s.fullPeriod x.aux.toNat) ∧ (s.linkIn 8 x (State.beaconIn x)).ring.merges.length = s.ring.merges.length := by
  have now : (s.received x).fullPeriod x.aux.toNat = s.fullPeriod x.aux.toNat :=
    LinkFree.received (f := fun t => t.fullPeriod x.aux.toNat) (fun _ _ _ => rfl) s x
  have received : (s.received x).ring.merges = s.ring.merges := LinkFree.received (f := fun t => t.ring.merges) (fun _ _ _ => rfl) s x
  have told : ((s.received x).tellsLoss (x.tag.toNat / 65536) (x.tag.toNat / 256 % 256)).ring.merges = s.ring.merges :=
    (tellsLoss_keeps (f := fun t => t.ring.merges) (fun _ _ => rfl) (fun _ _ _ => rfl) (fun _ _ _ _ _ _ => rfl) _ _ _).trans received
  have table := beaconFrame_merge h he (f := fun t => t.ring.merges) (fun _ _ _ => rfl) (RegFree.bump (f := fun t => t.ring.merges) fun _ _ => rfl) fun _ _ => rfl
  refine ⟨((s.received x).tellsLoss (x.tag.toNat / 65536) (x.tag.toNat / 256 % 256)).mergedEntry e (x.tag.toNat / 65536) (leNat x.payload)
    ((s.received x).fullPeriod x.aux.toNat) x.port, ?_, rfl, congrArg (min e.first) now, ?_⟩
  · rw [table]
    exact State.replaceMerge_find? (told.symm ▸ he) _ _ _ _
  · rw [table, State.replaceMerge, List.length_map, told]

theorem exec_beaconFrame_merges : ∃ t e', exec (.beaconFrame x) s = .next t ∧
    t = { s with
      ring := t.ring
      thy := t.thy
      mir := { s.mir with eccAt := t.mir.eccAt }
      regs := { s.regs with vals := t.regs.vals } } ∧
    t.thy.tick = s.thy.tick ∧ t.thy.period = s.thy.period ∧ t.thy.rate = s.thy.rate ∧
    (x.tag.toNat / 256 % 256 ≠ 0x71 → t.thy = s.thy) ∧
    t.ring.merges.find? (fun y => y.subject == x.tag.toNat / 65536 && y.cls == x.tag.toNat / 256 % 256) = some e' ∧
    e'.bitmap = e.bitmap ||| leNat x.payload ∧ e'.first = min e.first (s.fullPeriod x.aux.toNat) ∧ t.ring.merges.length = s.ring.merges.length := by
  have kept := fun {β : Type} (g : State → β) (hlink : LinkFree g) (hbump : ∀ (s : State) a n, g (s.bump a n) = g s)
    (hecc : ∀ (s : State) p, g { s with mir := { s.mir with eccAt := p } } = g s)
    (hring : ∀ (s : State) m k, g { s with ring := { s.ring with merges := m, gone := k } } = g s)
    (hthy : ∀ (s : State) q r n d u, g { s with thy := { s.thy with reqRates := q, target := r, rateNext := n, lastDown := d, lastUp := u } } = g s) =>
    ((beaconFrame_keeps h he hlink hbump hecc fun s m => hring s m s.ring.gone).trans
      (tellsLoss_keeps (fun s k => hring s s.ring.merges k) hlink hthy _ _ _)).trans (hlink.received s x)
  obtain ⟨e', hfound, hbitmap, hfirst, hlength⟩ := beaconFrame_table h he
  exact ⟨_, e', exec_beaconFrame x s,
    State.of_offBeacon (kept State.offBeacon (fun _ _ _ => rfl) State.offBeacon_bump (fun _ _ => rfl) (fun _ _ _ => rfl) fun _ _ _ _ _ _ => rfl),
    kept (fun t => t.thy.tick) (fun _ _ _ => rfl) (RegFree.bump (f := fun t => t.thy.tick) fun _ _ => rfl) (fun _ _ => rfl) (fun _ _ _ => rfl) fun _ _ _ _ _ _ => rfl,
    kept (fun t => t.thy.period) (fun _ _ _ => rfl) (RegFree.bump (f := fun t => t.thy.period) fun _ _ => rfl) (fun _ _ => rfl) (fun _ _ _ => rfl) fun _ _ _ _ _ _ => rfl,
    kept (fun t => t.thy.rate) (fun _ _ _ => rfl) (RegFree.bump (f := fun t => t.thy.rate) fun _ _ => rfl) (fun _ _ => rfl) (fun _ _ _ => rfl) fun _ _ _ _ _ _ => rfl,
    beaconFrame_thy h he, hfound, hbitmap, hfirst, hlength⟩

end

/-! ### The hold of a beacon (R339) -/

/-- The merged beacon of an entry goes out. -/
def State.beaconSentOut (s : State) (e : Merge) : State :=
  let u := { s with ring := { s.ring with merges := s.ring.merges.map fun x => if x == e then { x with pendingAt := none, lastSend := s.period } else x } }
  (u.flood e.fromPort (u.beaconOf e)).bump Reg.RNG_BEACON_TX 1

theorem exec_beaconHoldExpiry {s : State} {subject cls p : Nat} {e : Merge} (h : s.ring.merges.find? (fun x => x.subject == subject && x.cls == cls) = some e)
    (hp : e.pendingAt = some p) (hdue : p ≤ s.period) : exec (.beaconHoldExpiry subject cls) s = .next (s.beaconSentOut e) := by
  show execBeaconHoldExpiry subject cls s = _
  simp only [execBeaconHoldExpiry, h, hp, Nat.not_lt.2 hdue, if_false, State.beaconSentOut]

theorem State.beaconSentOut_keeps (hlink : LinkFree f) (hbump : ∀ (s : State) a n, f (s.bump a n) = f s) (s : State) (e : Merge) : f (s.beaconSentOut e) =
    f { s with ring := { s.ring with merges := s.ring.merges.map fun x => if x == e then { x with pendingAt := none, lastSend := s.period } else x } } :=
  (hbump _ _ _).trans (foldl_keeps (fun u _ => hlink.sendFrame u _ _) _ _)

/-- Settles O36: a NORM frame by whether it is final and first, a beacon about a known pair by its merge, and the expiry of its hold by the flood. -/
theorem normAndBeacons : Obligations.NormAndBeacons := by
  unfold Obligations.NormAndBeacons
  refine ⟨fun x s h hme => ⟨exec_normFrame_first h hme, exec_normFrame_later h hme, fun hfold hdomain _ => exec_normFrame_fold h hme hfold hdomain⟩,
    fun x e s h he => exec_beaconFrame_merges h he, fun subject cls p e s he hp hdue => ⟨_, exec_beaconHoldExpiry he hp hdue, ?_, ?_⟩⟩
  · exact State.onlyRing_iff.2 (State.beaconSentOut_keeps (f := State.offCounters) (fun _ _ _ => rfl) State.offCounters_bump s e)
  · exact State.beaconSentOut_keeps (f := fun t => t.ring.merges) (fun _ _ _ => rfl) (RegFree.bump (f := fun t => t.ring.merges) fun _ _ => rfl) s e

end Sys2Proof.Machine
end

section
/-! Acknowledgement, credit, replay and forwarding (R313, R317 to R320, R337); O45. -/

namespace Sys2Proof.Machine

variable {α : Type} {f : State → α}

/-! ### Ports -/

/-- A port that is not as after reset is one of the module's. -/
theorem State.port_lt {s : State} {p : Nat} (h : (s.port p).st ≠ .down) : p < s.ring.ports.length := by
  by_contra hp
  exact h (by rw [State.port, List.getD_eq_default _ _ (Nat.le_of_not_lt hp)]; rfl)

theorem State.lt_of_up {s : State} {p : Nat} (h : (s.port p).st = .up) : p < s.ring.ports.length := State.port_lt (by rw [h]; nofun)

theorem Port.pumped_of_empty {q : Port} (h : q.outQ = []) : q.pumped = q := by
  rw [Port.pumped, h]
  rfl

theorem State.hears_port (s : State) (x : Frame) (p : Nat) : (s.hears x).port p = s.port p := keeps_ite (f := fun u : State => u.port p) rfl rfl

theorem State.hears_length (s : State) (x : Frame) : (s.hears x).ring.ports.length = s.ring.ports.length :=
  keeps_ite (f := fun u : State => u.ring.ports.length) rfl rfl

theorem RingFree.hears (hf : RingFree f) (s : State) (x : Frame) : f (s.hears x) = f s := keeps_ite rfl (hf s _)

theorem RingFree.modPort (hf : RingFree f) (s : State) (p : Nat) (g : Port → Port) : f (s.modPort p g) = f s := hf s _

/-- A frame that is heard at a port that it changes. -/
theorem RingFree.heardAt (hf : RingFree f) (s : State) (x : Frame) (p : Nat) (g : Port → Port) : f ((s.hears x).modPort p g) = f s :=
  (hf.modPort _ _ _).trans (hf.hears s x)

theorem State.heardAt_port {s : State} {x : Frame} {p : Nat} (hp : p < s.ring.ports.length) (g : Port → Port) :
    ((s.hears x).modPort p g).port p = g (s.port p) := by
  rw [State.port_modPort_same _ (by rwa [State.hears_length]), State.hears_port]

/-! ### Acknowledgement and credit (R319, R320) -/

theorem exec_link_down {x : Frame} {s : State} (h : 5 ≤ x.port ∨ (s.port x.port).st ≠ .up) : exec (.linkFrame x) s = .next s ∧
    exec (.creditFrame x) s = .next s ∧ exec (.ackTimer x.port) s = .next s ∧ exec (.replayTimeout x.port) s = .next s := by
  have down : (decide (5 ≤ x.port) || (s.port x.port).st != .up) = true := by simpa using h
  refine ⟨if_pos down, if_pos down, ?_, ?_⟩
  · show execAckTimer x.port s = _
    simp only [execAckTimer, down, Bool.true_or, if_true]
  · show execReplayTimeout x.port s = _
    simp only [execReplayTimeout, down, Bool.true_or, if_true]

section
variable {x : Frame} {s : State} (hport : x.port < 5) (hup : (s.port x.port).st = .up) (hq : (s.port x.port).outQ = []) (hcrc : x.crcOk = true)
include hport hup hcrc

theorem exec_linkFrame : exec (.linkFrame x) s =
    .next (if x.aux.getLsbD 0 then ((s.hears x).modPort x.port fun q => (q.acked x.ackSeq).pumped).replayPort x.port
      else (s.hears x).modPort x.port fun q => (q.acked x.ackSeq).pumped) := by
  have up : (decide (5 ≤ x.port) || (s.port x.port).st != .up) = false := by simp [hup, hport]
  show execLinkFrame x s = _
  simp only [execLinkFrame, up, hcrc, Bool.not_true, Bool.false_eq_true, if_false]

theorem exec_creditFrame : exec (.creditFrame x) s = .next ((s.hears x).modPort x.port fun q =>
    ({ q with credits := q.credits.modify (x.aux.toNat % 8) (· + x.aux.toNat / 65536) } : Port).pumped) := by
  have up : (decide (5 ≤ x.port) || (s.port x.port).st != .up) = false := by simp [hup, hport]
  show execCreditFrame x s = _
  simp only [execCreditFrame, up, hcrc, Bool.not_true, Bool.false_eq_true, if_false]

end

theorem Port.acked_frees {q : Port} {ack : Nat} (h : 1 ≤ (ack + 65536 - q.ackedTo) % 65536) (hfit : (ack + 65536 - q.ackedTo) % 65536 ≤ q.replay.length) :
    q.acked ack = { q with replay := q.replay.drop ((ack + 65536 - q.ackedTo) % 65536), ackedTo := ack, replays := 0 } :=
  if_neg (by simp only [Bool.or_eq_true, decide_eq_true_eq]; omega)

theorem Port.acked_old (q : Port) : q.acked q.ackedTo = q := if_pos (by simp)

/-- What frees replay entries, where nothing waits to be sent. -/
theorem exec_linkFrame_frees {x : Frame} {s : State} (hport : x.port < 5) (hup : (s.port x.port).st = .up) (hq : (s.port x.port).outQ = [])
    (hcrc : x.crcOk = true) (hack : x.aux.getLsbD 0 = false) (hnew : 1 ≤ (x.ackSeq + 65536 - (s.port x.port).ackedTo) % 65536)
    (hfit : (x.ackSeq + 65536 - (s.port x.port).ackedTo) % 65536 ≤ (s.port x.port).replay.length) :
    ∃ t, exec (.linkFrame x) s = .next t ∧ s.onlyRing t ∧ t.regs = s.regs ∧ t.port x.port = { s.port x.port with
      replay := (s.port x.port).replay.drop ((x.ackSeq + 65536 - (s.port x.port).ackedTo) % 65536)
      ackedTo := x.ackSeq
      replays := 0 } := by
  have effect := exec_linkFrame hport hup hcrc
  rw [if_neg (by rw [hack]; exact Bool.false_ne_true)] at effect
  refine ⟨_, effect, State.onlyRing_iff.2 (ringFree_offCounters.heardAt s x _ _), RingFree.heardAt (f := State.regs) (fun _ _ => rfl) s x _ _, ?_⟩
  rw [State.heardAt_port (State.lt_of_up hup), Port.acked_frees hnew hfit]
  exact Port.pumped_of_empty hq

theorem exec_creditFrame_adds {x : Frame} {s : State} (hport : x.port < 5) (hup : (s.port x.port).st = .up) (hq : (s.port x.port).outQ = [])
    (hcrc : x.crcOk = true) : ∃ t, exec (.creditFrame x) s = .next t ∧ s.onlyRing t ∧ t.regs = s.regs ∧
      t.port x.port = { s.port x.port with credits := (s.port x.port).credits.modify (x.aux.toNat % 8) (· + x.aux.toNat / 65536) } := by
  refine ⟨_, exec_creditFrame hport hup hcrc, State.onlyRing_iff.2 (ringFree_offCounters.heardAt s x _ _),
    RingFree.heardAt (f := State.regs) (fun _ _ => rfl) s x _ _, ?_⟩
  rw [State.heardAt_port (State.lt_of_up hup)]
  exact Port.pumped_of_empty hq

/-! ### The acknowledgement timer (R320) -/

/-- The acknowledgement of a port whose queue is empty is on the fibre at once. -/
theorem Port.pumped_ack {q : Port} (hup : q.st = .up) {y : OutFrame} (hy : linkLocal y.typ = true) (hq : q.outQ = []) :
    ({ q with outQ := q.outQ ++ [y] } : Port).pumped = { q with wire := q.wire ++ [⟨q.sendSeq, q.rxSeq, y⟩], rxSinceAck := 0 } := by
  have up : (q.st != .up) = false := by rw [hup]; rfl
  simp [Port.pumped, hq, Port.pump, Port.nextFrame, Port.put, hy, up]

/-- A wrap hop changes the channel of a frame alone. -/
theorem State.onVc_typ (s : State) (p : Nat) (y : OutFrame) : (if s.wrapHop p then { y with vc := 1 } else y).typ = y.typ := by split <;> rfl

theorem exec_ackTimer_acks {p : Nat} {s : State} (hp : p < 5) (hup : (s.port p).st = .up) (hq : (s.port p).outQ = [])
    (hheld : (s.port p).heldDown = false) (hack : (s.port p).rxSinceAck ≠ 0) : ∃ t w, exec (.ackTimer p) s = .next t ∧ s.onlyRing t ∧
      t.regs = s.regs ∧ w.frame.typ = 3 ∧ w.ack = (s.port p).rxSeq ∧ t.port p = { s.port p with
        wire := (s.port p).wire ++ [w]
        rxSinceAck := 0 } := by
  have effect : exec (.ackTimer p) s = .next (s.sendAck p false) := by
    show execAckTimer p s = _
    simp [execAckTimer, hup, hack, Nat.not_le.2 hp]
  let y := ctlFrame 3 (s.port p).far s.ring.addr 0 0 0 0 (BitVec.ofNat 32 (bnat false))
  refine ⟨_, ⟨(s.port p).sendSeq, (s.port p).rxSeq, if s.wrapHop p then { y with vc := 1 } else y⟩, effect, State.onlyRing_iff.2 rfl, rfl, ?_, rfl, ?_⟩
  · exact State.onVc_typ s p y
  · have open_ : ((s.port p).heldDown || (s.port p).st == .down || (s.port p).st == .failed) = false := by rw [hheld, hup]; rfl
    rw [State.sendAck, State.sendFrame, State.port_modPort_same s (State.lt_of_up hup), open_, if_neg Bool.false_ne_true]
    exact Port.pumped_ack hup (congrArg linkLocal (State.onVc_typ s p y)) hq

/-! ### Replay (R320) -/

/-- The module beside its ring engine, the values of its registers and the host interface. -/
def State.offHost (s : State) : State := { s.offCounters with host := HostIf.reset }

theorem State.onlyRing_host {s t : State} (h : t.offHost = s.offHost) : s.onlyRing { t with host := s.host } :=
  State.onlyRing_iff.2 (congrArg (fun u : State => { u with host := s.host }) h)

theorem State.offHost_bump (s : State) (a n : Nat) : (s.bump a n).offHost = s.offHost :=
  congrArg (fun u : State => { u with host := HostIf.reset }) (s.offCounters_bump a n)

theorem bayFree_offHost : BayFree State.offHost := ⟨fun _ _ _ _ _ => rfl, fun _ _ => rfl, fun s n => s.offHost_bump _ n⟩

/-- A port that is put into training sends a TRAIN frame (R315, log 31). -/
theorem State.trainPort_port {s : State} {p : Nat} (hp : p < s.ring.ports.length) : ∃ w : WireFrame, (s.trainPort p).port p = { s.port p with
    st := .training
    wire := (s.port p).wire ++ [w] } ∧ w.frame.typ = 10 ∧ w.frame.src = s.ring.addr :=
  ⟨_, State.port_modPort_same _ hp _, rfl, rfl⟩

theorem Port.resend_wire_length (q : Port) : q.resend.wire.length = q.wire.length + q.replay.length := by simp [Port.resend]

/-- Every unacknowledged frame has gone out once more. -/
def State.resent (s : State) (p : Nat) : State :=
  (s.bump (portReg p Reg.RNG_P_REPLAY) 1).modPort p fun q => { q.resend with replays := q.replays + 1 }

/-- The eighth replay trains the port again. -/
def State.retrained (s : State) (p : Nat) : State := ((s.resent p).modPort p fun q => { q with replays := 0 }).trainPort p

section
variable {s : State} {p : Nat}

theorem State.resent_port (hp : p < s.ring.ports.length) : (s.resent p).port p = { (s.port p).resend with replays := (s.port p).replays + 1 } := by
  have counted : (s.bump (portReg p Reg.RNG_P_REPLAY) 1).ring = s.ring := RegFree.bump (f := State.ring) (fun _ _ => rfl) s _ 1
  rw [State.resent, State.port_modPort_same _ (by rwa [counted]), State.port, counted]
  rfl

theorem State.resent_length : (s.resent p).ring.ports.length = s.ring.ports.length :=
  (State.length_modPort _ _ _).trans (RegFree.bump (f := fun u => u.ring.ports.length) (fun _ _ => rfl) s _ 1)

theorem State.replayPort_eq (hp : p < s.ring.ports.length) : s.replayPort p = if 8 ≤ (s.port p).replays + 1 then s.retrained p else s.resent p := by
  show (if 8 ≤ ((s.resent p).port p).replays then s.retrained p else s.resent p) = _
  rw [State.resent_port hp]

theorem State.retrained_port (hp : p < s.ring.ports.length) : ((s.retrained p).port p).replay = (s.port p).replay ∧
    ((s.retrained p).port p).wire.length = (s.port p).wire.length + (s.port p).replay.length + 1 ∧ ((s.retrained p).port p).st = .training := by
  have resent : p < (s.resent p).ring.ports.length := by rwa [State.resent_length]
  have cleared : p < ((s.resent p).modPort p fun q => { q with replays := 0 }).ring.ports.length := by rwa [State.length_modPort]
  obtain ⟨w, hport, -⟩ := State.trainPort_port cleared
  rw [State.port_modPort_same _ resent, State.resent_port hp] at hport
  rw [State.retrained, hport]
  exact ⟨rfl, List.length_append.trans (congrArg (· + 1) (s.port p).resend_wire_length), rfl⟩

/-- Beside the ports a replay is counted, and lanes that train again take their calibration. -/
theorem BayFree.replayPort (hf : BayFree f) (s : State) (p : Nat) : f (s.replayPort p) = f (s.bump (portReg p Reg.RNG_P_REPLAY) 1) :=
  have resent : f (s.resent p) = f (s.bump (portReg p Reg.RNG_P_REPLAY) 1) := hf.modPort _ _ _
  have retrained : f (s.retrained p) = f (s.resent p) := (hf.trainPort _ _).trans (hf.modPort _ _ _)
  keeps_ite (retrained.trans resent) resent

theorem State.replayed_reg (hs : s.regsSorted) : (s.replayPort p).reg (portReg p Reg.RNG_P_REPLAY) = s.reg (portReg p Reg.RNG_P_REPLAY) + 1 := by
  have other : portReg p Reg.RNG_P_REPLAY ≠ Reg.RNG_BAY_CHANGES := by simp only [portReg, portBase, Reg.RNG_P_REPLAY, Reg.RNG_BAY_CHANGES]; omega
  have free : BayFree fun u : State => u.reg (portReg p Reg.RNG_P_REPLAY) :=
    ⟨fun _ _ _ _ _ => rfl, fun _ _ => rfl, fun u n => u.reg_bump_ne _ _ n other⟩
  exact (free.replayPort s p).trans (s.reg_bump_same (portReg p Reg.RNG_P_REPLAY) 1 hs one_ne_zero)

theorem State.replayed_offHost : (s.replayPort p).offHost = s.offHost := (bayFree_offHost.replayPort s p).trans (s.offHost_bump _ _)

/-- A replay sends what is unacknowledged again; the eighth one trains the port (R320). -/
theorem State.replayed (hp : p < s.ring.ports.length) (hup : (s.port p).st = .up) : ((s.replayPort p).port p).replay = (s.port p).replay ∧
    ((s.replayPort p).port p).wire.length = (s.port p).wire.length + (s.port p).replay.length + (if (s.port p).replays < 7 then 0 else 1) ∧
    ((s.replayPort p).port p).st = (if (s.port p).replays < 7 then .up else .training) := by
  rw [State.replayPort_eq hp]
  by_cases h : (s.port p).replays < 7
  · rw [if_neg (by omega), if_pos h, if_pos h, State.resent_port hp]
    exact ⟨rfl, (s.port p).resend_wire_length, hup⟩
  · rw [if_pos (by omega), if_neg h, if_neg h]
    exact State.retrained_port hp

end

theorem exec_replayTimeout_replays {p : Nat} {s : State} (hs : s.regsSorted) (hp : p < 5) (hup : (s.port p).st = .up) (hreplay : (s.port p).replay ≠ []) :
    ∃ t, exec (.replayTimeout p) s = .next t ∧ s.onlyRing { t with host := s.host } ∧ (t.port p).replay = (s.port p).replay ∧
      (t.port p).wire.length = (s.port p).wire.length + (s.port p).replay.length + (if (s.port p).replays < 7 then 0 else 1) ∧
      (t.port p).st = (if (s.port p).replays < 7 then .up else .training) ∧
      t.reg (portReg p Reg.RNG_P_REPLAY) = s.reg (portReg p Reg.RNG_P_REPLAY) + 1 := by
  have effect : exec (.replayTimeout p) s = .next (s.replayPort p) := by
    show execReplayTimeout p s = _
    simp [execReplayTimeout, hup, hreplay, Nat.not_le.2 hp]
  obtain ⟨replay, wire, st⟩ := State.replayed (State.lt_of_up hup) hup
  exact ⟨_, effect, State.onlyRing_host State.replayed_offHost, replay, wire, st, State.replayed_reg hs⟩

/-- A negative acknowledgement of the frames already acknowledged. -/
theorem exec_linkFrame_replays {x : Frame} {s : State} (hport : x.port < 5) (hup : (s.port x.port).st = .up) (hq : (s.port x.port).outQ = [])
    (hcrc : x.crcOk = true) (hs : s.regsSorted) (hnack : x.aux.getLsbD 0 = true) (hack : x.ackSeq = (s.port x.port).ackedTo) :
    ∃ t, exec (.linkFrame x) s = .next t ∧ s.onlyRing { t with host := s.host } ∧ (t.port x.port).replay = (s.port x.port).replay ∧
      (t.port x.port).wire.length = (s.port x.port).wire.length + (s.port x.port).replay.length + (if (s.port x.port).replays < 7 then 0 else 1) ∧
      (t.port x.port).st = (if (s.port x.port).replays < 7 then .up else .training) ∧
      t.reg (portReg x.port Reg.RNG_P_REPLAY) = s.reg (portReg x.port Reg.RNG_P_REPLAY) + 1 := by
  have effect := exec_linkFrame hport hup hcrc
  rw [if_pos hnack] at effect
  have port : ((s.hears x).modPort x.port fun q => (q.acked x.ackSeq).pumped).port x.port = s.port x.port := by
    rw [State.heardAt_port (State.lt_of_up hup), hack, Port.acked_old]
    exact Port.pumped_of_empty hq
  have length : x.port < ((s.hears x).modPort x.port fun q => (q.acked x.ackSeq).pumped).ring.ports.length := by
    rw [State.length_modPort, State.hears_length]
    exact State.lt_of_up hup
  have sorted : ((s.hears x).modPort x.port fun q => (q.acked x.ackSeq).pumped).regsSorted :=
    (RingFree.heardAt (f := State.regsSorted) (fun _ _ => rfl) s x _ _).mpr hs
  obtain ⟨replay, wire, st⟩ := State.replayed length (by rw [port]; exact hup)
  rw [port] at replay wire st
  refine ⟨_, effect, State.onlyRing_host ?_, replay, wire, st, (State.replayed_reg sorted).trans ?_⟩
  · exact State.replayed_offHost.trans (RingFree.heardAt (f := State.offHost) (fun _ _ => rfl) s x _ _)
  · exact congrArg (· + 1) (RingFree.heardAt (f := fun u => u.reg (portReg x.port Reg.RNG_P_REPLAY)) (fun _ _ => rfl) s x _ _)

/-! ### Where a frame goes on (R313) -/

/-- What of a port the routes read. -/
def Port.bare (q : Port) : Port := { Port.reset with st := q.st, far := q.far, spanned := q.spanned, heldDown := q.heldDown, seen := q.seen }

/-- The module with bare ports: what its routes read of it. -/
def State.bare (s : State) : State := { s with ring := { s.ring with ports := s.ring.ports.map Port.bare, heardAt := none } }

theorem State.bare_port (s : State) (p : Nat) : s.bare.port p = (s.port p).bare := List.getD_map (f := Port.bare) (d := Port.reset) ..

theorem State.bare_hopOk (s : State) (p : Nat) : s.bare.hopOk p = s.hopOk p := by
  rw [State.hopOk, State.bare_port]
  rfl

theorem State.bare_route (s : State) (d : Nat) : s.bare.route d = s.route d := by
  unfold State.route State.pick
  simp only [State.bare_hopOk]
  rfl

theorem State.bare_deadEnd (s : State) (p d : Nat) : s.bare.deadEnd p d = s.deadEnd p d := by
  unfold State.deadEnd State.passes State.farEnd
  simp only [State.bare_port]
  rfl

theorem State.bare_modPort {g : Port → Port} (hg : ∀ q, (g q).bare = q.bare) (s : State) (p : Nat) : (s.modPort p g).bare = s.bare := by
  have ports : (s.ring.ports.modify p g).map Port.bare = s.ring.ports.map Port.bare := by
    refine List.ext_getElem? fun i => ?_
    rw [List.getElem?_map, List.getElem?_map, List.getElem?_modify]
    cases s.ring.ports[i]? with
    | none => rfl
    | some q => by_cases h : p = i <;> simp [h, hg]
  simp only [State.bare, State.modPort, ports]

theorem Port.put_bare (q : Port) (y : OutFrame) : (q.put y).bare = q.bare := by
  unfold Port.put
  split <;> rfl

theorem Port.pump_bare (n : Nat) (q : Port) : (q.pump n).bare = q.bare := by
  induction n generalizing q with
  | zero => rfl
  | succ n ih =>
    unfold Port.pump
    split
    · rfl
    · split
      · exact (ih _).trans (q.put_bare _)
      · rfl

theorem State.bare_sendFrame (s : State) (p : Nat) (y : OutFrame) : (s.sendFrame p y).bare = s.bare := by
  refine State.bare_modPort (fun q => ?_) s p
  split
  · rfl
  · exact Port.pump_bare _ _

theorem Port.acked_bare (q : Port) (ack : Nat) : (q.acked ack).bare = q.bare := by
  unfold Port.acked
  extract_lets n
  exact (apply_ite Port.bare _ _ _).trans (ite_self _)

theorem Port.receives_bare (q : Port) (ack : Nat) : (q.receives ack).bare = q.bare := (Port.pump_bare _ _).trans (q.acked_bare ack)

/-- Taking a frame changes no route. -/
theorem State.bare_received (s : State) (x : Frame) : (s.received x).bare = s.bare := by
  have heard : (s.hears x).bare = s.bare := keeps_ite (f := State.bare) rfl rfl
  have taken : (s.taken x).bare = s.bare := (State.bare_modPort (fun q => q.receives_bare x.ackSeq) _ _).trans heard
  exact (keeps_onlyIf (State.bare_sendFrame _ _ _)).trans taken

theorem State.received_route (s : State) (x : Frame) (d : Nat) : (s.received x).route d = s.route d := by
  rw [← State.bare_route, State.bare_received, State.bare_route]

theorem State.received_deadEnd (s : State) (x : Frame) (p d : Nat) : (s.received x).deadEnd p d = s.deadEnd p d := by
  rw [← State.bare_deadEnd, State.bare_received, State.bare_deadEnd]

theorem State.received_bare (s : State) (x : Frame) (p : Nat) : ((s.received x).port p).bare = (s.port p).bare := by
  rw [← State.bare_port, State.bare_received, State.bare_port]

/-! ### A frame that a port has taken to send -/

/-- The frame waits in the port, or is on the fibre. -/
def Port.carries (q : Port) (y : OutFrame) : Prop := y ∈ q.outQ ∨ ∃ w ∈ q.wire, w.frame = y

theorem Port.carries.put {q : Port} {y : OutFrame} (h : q.carries y) (z : OutFrame) : (q.put z).carries y := by
  have sent : (∃ w ∈ q.wire ++ [(⟨q.sendSeq, q.rxSeq, z⟩ : WireFrame)], w.frame = y) ∨ y ∈ q.outQ.erase z := by
    obtain hy | ⟨w, hw, hy⟩ := h
    · by_cases hz : y = z
      · exact .inl ⟨⟨q.sendSeq, q.rxSeq, z⟩, by simp, hz.symm⟩
      · exact .inr ((List.mem_erase_of_ne hz).2 hy)
    · exact .inl ⟨w, List.mem_append_left _ hw, hy⟩
  unfold Port.put
  split <;> exact sent.symm

theorem Port.carries.pump {y : OutFrame} (n : Nat) {q : Port} (h : q.carries y) : (q.pump n).carries y := by
  induction n generalizing q with
  | zero => exact h
  | succ n ih =>
    unfold Port.pump
    split
    · exact h
    · split
      · exact ih (h.put _)
      · exact h

theorem Port.carries.queued {q : Port} {y : OutFrame} (h : q.carries y) (z : OutFrame) : ({ q with outQ := q.outQ ++ [z] } : Port).carries y :=
  h.imp (List.mem_append_left _) id

theorem State.carries_sendFrame {s : State} {p : Nat} {y : OutFrame} (h : (s.port p).carries y) (k : Nat) (z : OutFrame) :
    ((s.sendFrame k z).port p).carries y := by
  by_cases hk : p = k
  · subst hk
    by_cases hp : p < s.ring.ports.length
    · rw [State.sendFrame, State.port_modPort_same s hp]
      split
      · exact h
      · exact (h.queued _).pump _
    · have none : (s.sendFrame p z).port p = s.port p := by
        have same (g : Port → Port) : (s.modPort p g).port p = s.port p := by
          simp [State.port, State.modPort, List.getD_eq_getElem?_getD, Nat.le_of_not_lt hp]
        exact same _
      rwa [none]
  · rwa [State.sendFrame, State.port_modPort_ne s hk]

/-- An open port takes a frame, on the channel of a wrap hop where its hop is one. -/
theorem State.sendFrame_carries {s : State} {p : Nat} (hheld : (s.port p).heldDown = false) (hst : (s.port p).st = .up ∨ (s.port p).st = .training) (y : OutFrame) :
    ((s.sendFrame p y).port p).carries (if s.wrapHop p then { y with vc := 1 } else y) := by
  have hp : p < s.ring.ports.length := State.port_lt (by rcases hst with h | h <;> rw [h] <;> nofun)
  have open_ : ((s.port p).heldDown || (s.port p).st == .down || (s.port p).st == .failed) = false := by
    rcases hst with h | h <;> rw [hheld, h] <;> rfl
  rw [State.sendFrame, State.port_modPort_same s hp, open_, if_neg Bool.false_ne_true]
  exact Port.carries.pump _ (.inl (by simp))

/-! ### Forwarding (R313, R318) -/

/-- A frame that the link takes has its effect, and gives back its credit: what a frame sent leaves holds behind it. -/
theorem State.linkIn_of {P : State → Prop} (hsend : ∀ (s : State) p y, P s → P (s.sendFrame p y)) {s : State} {x : Frame} (h : s.linkTakes x) {typ : Nat}
    {k : State → State} (hk : P (k (s.received x))) : P (s.linkIn typ x k) := by
  obtain ⟨hport, hup, hcrc, hseq⟩ := h
  have takes : s.linkIn typ x k =
      if (k (s.received x)).holdsCredit x (s.received x) then k (s.received x) else (k (s.received x)).giveCredit x.port (typeClass typ) x.vc 1 := by
    simp only [State.linkIn, hup, hcrc, hseq, Nat.not_le.2 hport, decide_false, bne_self_eq_false, Bool.or_self, Bool.not_true, Bool.false_eq_true, if_false]
    rfl
  rw [takes]
  split
  · exact hk
  · exact hsend _ _ _ hk

section
variable {s : State} {x : Frame} {typ : Nat} (h : s.linkTakes x)

theorem exec_frameForward (hport : x.port < 5) (hother : 13 ≤ typ ∨ (x.port < 4 ∧ x.dst ≠ s.ring.addr)) :
    exec (.frameForward typ x) s = .next (s.linkIn typ x fun s => s.forwardOn typ x) := by
  show execFrameForward typ x s = _
  unfold execFrameForward
  rw [if_neg]
  obtain h13 | ⟨h4, hdst⟩ := hother
  · simp [Nat.not_le.2 hport, Nat.not_lt.2 h13]
  · simp [Nat.not_le.2 hport, Nat.ne_of_lt h4, hdst]

include h

/-- A frame that goes on, or is discarded, changes the ring engine and counters alone. -/
theorem State.forwarded_onlyRing : s.onlyRing (s.linkIn typ x fun s => s.forwardOn typ x) := by
  have on (u : State) : (u.forwardOn typ x).offCounters = u.offCounters := keeps_ite (u.offCounters_bump _ _) rfl
  exact State.onlyRing_iff.2 ((ringFree_offCounters.linkIn h typ _).trans ((on _).trans (ringFree_offCounters.received s x)))

theorem LinkFree.forwarded (hf : LinkFree f) (hr : RegFree f) : f (s.linkIn typ x fun s => s.forwardOn typ x) = f s := by
  have on (u : State) : f (u.forwardOn typ x) = f u := keeps_ite (hr.bump _ _ _) (hf.sendFrame _ _ _)
  exact (hf.linkIn h typ _).trans ((on _).trans (hf.received s x))

/-- At a dead end, and of a reserved type, it is counted. -/
theorem State.forwarded_discards (hs : s.regsSorted) (hend : 13 ≤ typ ∨ s.deadEnd (s.route x.dst) x.dst = true) :
    (s.linkIn typ x fun s => s.forwardOn typ x).reg Reg.RNG_DISCARD = s.reg Reg.RNG_DISCARD + 1 := by
  have ends : (decide (13 ≤ typ) || (s.received x).deadEnd ((s.received x).route x.dst) x.dst) = true := by
    rw [State.received_route, State.received_deadEnd]
    simpa using hend
  have sorted : (s.received x).regsSorted := (RingFree.received (f := State.regsSorted) (fun _ _ => rfl) s x).mpr hs
  have effect : (s.received x).forwardOn typ x = (s.received x).bump Reg.RNG_DISCARD 1 := if_pos ends
  have seen := RingFree.linkIn (f := fun u => u.reg Reg.RNG_DISCARD) (fun _ _ => rfl) h typ fun s => s.forwardOn typ x
  refine seen.trans ?_
  rw [effect, State.reg_bump_same _ Reg.RNG_DISCARD 1 sorted one_ne_zero]
  exact congrArg (· + 1) (RingFree.received (f := fun u => u.reg Reg.RNG_DISCARD) (fun _ _ => rfl) s x)

/-- Elsewhere the port of its route carries it, as it came but for the channel. -/
theorem State.forwarded_carries (htyp : typ < 13) (hend : s.deadEnd (s.route x.dst) x.dst = false) (hheld : (s.port (s.route x.dst)).heldDown = false)
    (hst : (s.port (s.route x.dst)).st = .up ∨ (s.port (s.route x.dst)).st = .training) :
    ∃ vc, ((s.linkIn typ x fun s => s.forwardOn typ x).port (s.route x.dst)).carries (frameOut x typ vc) := by
  have goes : (decide (13 ≤ typ) || (s.received x).deadEnd ((s.received x).route x.dst) x.dst) = false := by
    rw [State.received_route, State.received_deadEnd, hend]
    simpa using htyp
  have bare := s.received_bare x (s.route x.dst)
  have held : ((s.received x).port (s.route x.dst)).heldDown = false := (congrArg Port.heldDown bare).trans hheld
  have same : ((s.received x).port (s.route x.dst)).st = (s.port (s.route x.dst)).st := (congrArg Port.st bare).trans rfl
  have effect : (s.received x).forwardOn typ x = (s.received x).sendFrame (s.route x.dst)
      (frameOut x typ (if x.port < 2 && 2 ≤ s.route x.dst then 0 else x.vc)) := by
    unfold State.forwardOn
    extract_lets p turned
    rw [if_neg (by rw [goes]; exact Bool.false_ne_true)]
    simp only [turned, p, State.received_route]
  have sent := State.sendFrame_carries held (same ▸ hst) (frameOut x typ (if x.port < 2 && 2 ≤ s.route x.dst then 0 else x.vc))
  have channel (c : Bool) (vc : Nat) : ∃ v, (if c then { frameOut x typ vc with vc := 1 } else frameOut x typ vc) = frameOut x typ v := by
    cases c
    · exact ⟨vc, rfl⟩
    · exact ⟨1, rfl⟩
  obtain ⟨v, hv⟩ := channel ((s.received x).wrapHop (s.route x.dst)) (if x.port < 2 && 2 ≤ s.route x.dst then 0 else x.vc)
  rw [hv, ← effect] at sent
  exact ⟨v, State.linkIn_of (P := fun u => (u.port (s.route x.dst)).carries (frameOut x typ v)) (fun u p y hu => State.carries_sendFrame hu p y) h sent⟩

end

/-- Settles O45: at a port that is up with nothing waiting, acknowledgement, credit and replay change that port alone, and a frame that goes on is carried by the port of its route. -/
theorem linksAndForwarding : Obligations.LinksAndForwarding := by
  unfold Obligations.LinksAndForwarding
  refine ⟨⟨fun x s h => exec_link_down h, fun x s hport hup hq hcrc => ⟨exec_linkFrame_frees hport hup hq hcrc, exec_linkFrame_replays hport hup hq hcrc⟩,
    fun x s hport hup hq hcrc => exec_creditFrame_adds hport hup hq hcrc, fun p s hp hup hq hheld hack => exec_ackTimer_acks hp hup hq hheld hack,
    fun p s hs hp hup hreplay => exec_replayTimeout_replays hs hp hup hreplay⟩,
    fun typ x s h hport hdst htyp => ⟨fun hend hheld hst => ?_, fun hs hend => ?_⟩, fun typ x s h htyp hs => ?_⟩
  · obtain ⟨vc, hcarries⟩ := State.forwarded_carries h htyp hend hheld hst
    exact ⟨_, frameOut x typ vc, exec_frameForward h.1 (.inr ⟨hport, hdst⟩), State.forwarded_onlyRing h,
      LinkFree.forwarded (f := fun u => u.ring.ctxs) h (fun _ _ _ => rfl) fun _ _ => rfl,
      LinkFree.forwarded (f := fun u => u.ring.merges) h (fun _ _ _ => rfl) fun _ _ => rfl, hcarries, rfl, rfl, rfl, rfl, rfl, rfl, rfl, rfl, rfl⟩
  · exact ⟨_, exec_frameForward h.1 (.inr ⟨hport, hdst⟩), State.forwarded_onlyRing h,
      LinkFree.forwarded (f := fun u => u.ring.ctxs) h (fun _ _ _ => rfl) fun _ _ => rfl, State.forwarded_discards h hs (.inr hend)⟩
  · exact ⟨_, exec_frameForward h.1 (.inl htyp), State.forwarded_onlyRing h,
      LinkFree.forwarded (f := fun u => u.ring.ctxs) h (fun _ _ _ => rfl) fun _ _ => rfl, State.forwarded_discards h hs (.inl htyp)⟩

end Sys2Proof.Machine
end

section
/-! What a report to the ring keeps, as a predicate of the module (R337 to R341, R355): beside events, frames and the master's duties, receives that end early, the merge table, the filter and who is gone. -/

set_option Elab.async false

namespace Sys2Proof.Machine

/-- `P` is kept by the single updates of a report. -/
structure ReportStable (P : State → Prop) : Prop where
  notes : ∀ {s : State} m x, x.first = s.flt.first → x.unacked = s.flt.unacked → P s → P { s with hostMem := m, flt := x }
  bump : ∀ {s : State} a n, a ∈ reportRegs → a ≠ Reg.MIR_STATUS → P s → P (s.bump a n)
  setBits : ∀ {s : State} a m, a ∈ reportRegs → P s → P (s.setBits a m)
  thy : ∀ {s : State} x, x.adopt = s.thy.adopt → P s → P { s with thy := x }
  mem : ∀ {s : State} m c, P s → P { s with mem := m, freeCtr := c }
  survives : ∀ {s : State}, P s → P (({ s with mir := { s.mir with survivor := true } } : State).setBits Reg.MIR_STATUS 0x20)
  eccAt : ∀ {s : State} p, P s → P { s with mir := { s.mir with eccAt := p } }
  sendFrame : ∀ {s : State} p y, P s → P (s.sendFrame p y)
  release : ∀ {s : State} (g : CtxEntry → CtxEntry) (k : OutFrame → Bool), (∀ c, (g c).st = c.st) → P s → P { s with ring := { s.ring with
    ctxs := s.ring.ctxs.map fun c => (c.1, g c.2)
    ports := s.ring.ports.map fun q => { q with outQ := q.outQ.filter k } } }
  merges : ∀ {s : State} m, P s → P { s with ring := { s.ring with merges := m } }
  filter : ∀ {s : State} x, P s → P { s with ring := { s.ring with filter := s.ring.filter ++ [x] } }
  gone : ∀ {s : State} g, P s → P { s with ring := { s.ring with gone := g } }

namespace ReportStable

variable {P : State → Prop} {s : State}

theorem onlyIf {c : Prop} [Decidable c] {u : State} (hs : P s) (hu : P u) : P (if c then u else s) := by split <;> assumption

theorem foldl {β : Type} {g : State → β → State} (hg : ∀ {s} x, P s → P (g s x)) (l : List β) (hs : P s) : P (l.foldl g s) := by
  induction l generalizing s with
  | nil => exact hs
  | cons x l ih => exact ih (hg x hs)

variable (hP : ReportStable P)
include hP

theorem flt (x : Faults) (hs : P s) (h1 : x.first = s.flt.first := by rfl) (h2 : x.unacked = s.flt.unacked := by rfl) : P { s with flt := x } :=
  hP.notes s.hostMem x h1 h2 hs

/-! Events -/

theorem countEvent (hs : P s) : P s.countEvent := hP.setBits _ _ (by decide) (hP.bump _ _ (by decide) (by decide) hs)

theorem signalEvents (v : Nat) (hs : P s) : P (s.signalEvents v) := by
  unfold State.signalEvents
  cases v == 1
  · exact onlyIf hs (hP.flt _ hs)
  · exact onlyIf hs (hP.flt _ hs)

theorem writeEntry (e : EventEntry) (hs : P s) : P (s.writeEntry e) := by
  unfold State.writeEntry
  split
  · exact hP.flt _ hs
  split
  · exact hP.setBits _ _ (by decide) (hP.bump _ _ (by decide) (by decide) hs)
  split
  · exact hP.flt _ hs
  · exact hP.signalEvents _ (hP.notes _ _ rfl rfl hs)

theorem postEvent (c o a d : Nat) (hs : P s) : P (s.postEvent c o a d) :=
  have counted : P s.countEvent := hP.countEvent hs
  onlyIf (hP.writeEntry _ (onlyIf counted (hP.flt _ counted))) (hP.flt _ (hP.bump _ _ (by decide) (by decide) counted))

/-! Frames and the Thyme master -/

theorem giveCredit (p c v n : Nat) (hs : P s) : P (s.giveCredit p c v n) := hP.sendFrame _ _ hs

theorem releaseHeld (r : Recv) (hs : P s) : P (s.releaseHeld r) :=
  foldl (g := fun s (h : HeldFrame) => s.giveCredit h.port 3 h.vc 1) (fun _ hs => hP.giveCredit _ _ _ _ hs) r.held hs

theorem flood (p : Nat) (y : OutFrame) (hs : P s) : P (s.flood p y) := foldl (fun _ hs => hP.sendFrame _ _ hs) _ hs

theorem sendTo (m : Bool) (d : Nat) (y : OutFrame) (hs : P s) : P (s.sendTo m d y) :=
  onlyIf (onlyIf (hP.sendFrame _ _ hs) (hP.bump _ _ (by decide) (by decide) hs)) (hP.sendFrame _ _ hs)

theorem modThy (g : Thyme → Thyme) (hs : P s) (hg : (g s.thy).adopt = s.thy.adopt := by rfl) : P (s.modThy g) := hP.thy _ hg hs

theorem announce (hs : P s) : P s.announce := foldl (fun _ hs => hP.sendFrame _ _ hs) _ hs

theorem masterHoldOn (a : Nat) (hs : P s) : P (s.masterHoldOn a) := by
  have levels : P (s.modThy fun t => { t with levels := if t.levels.contains a then t.levels else t.levels ++ [a] }) := hP.modThy _ hs
  unfold State.masterHoldOn
  dsimp only
  split
  · exact hP.announce (hP.modThy _ levels)
  · split
    · exact levels
    · exact onlyIf (hP.announce (hP.modThy _ levels)) (hP.announce (hP.modThy _ levels))

theorem masterHoldOff (a : Nat) (hs : P s) : P (s.masterHoldOff a) := by
  have levels : P (s.modThy fun t => { t with levels := t.levels.filter (· != a) }) := hP.modThy _ hs
  unfold State.masterHoldOff
  dsimp only
  split
  · exact onlyIf (hP.announce (hP.modThy _ levels)) levels
  · exact levels

theorem retarget (l : List (Nat × Nat)) (hs : P s) : P (s.retarget l) := by
  have asked : P (s.modThy fun t => { t with reqRates := l, target := l.foldl (fun m e => min m e.2) 64 }) := hP.modThy _ hs
  exact onlyIf (onlyIf asked (hP.announce (hP.modThy _ asked))) (hP.announce (hP.modThy _ asked))

theorem thymeMsg (k v : Nat) (hs : P s) : P (s.thymeMsg k v) :=
  onlyIf (hP.sendTo _ _ _ hs) (onlyIf (onlyIf (hP.retarget _ hs) (hP.masterHoldOn _ hs)) (hP.masterHoldOff _ hs))

theorem holdOff (hs : P s) : P s.holdOff := by
  unfold State.holdOff
  extract_lets t
  exact hP.modThy _ (onlyIf hs (hP.thymeMsg 0 0 hs))

/-! Reports -/

theorem releasePartner (a : Nat) (hs : P s) : P (s.releasePartner a) := by
  unfold State.releasePartner
  extract_lets rs t k
  have freed : P t := foldl (fun r hs => hP.releaseHeld r (hP.mem _ _ hs)) rs hs
  exact hP.release (fun c => if c.partner == a then { c with recvs := [], sends := [], overdue := t.isSilent c } else c) k (fun c => by split <;> rfl) freed

theorem sendRebinds (a : Nat) (hs : P s) : P (s.sendRebinds a) := by
  unfold State.sendRebinds
  split
  · exact hs
  · refine foldl (fun e hs => ?_) _ hs
    split
    · exact hs
    · exact hP.sendTo _ _ _ hs

theorem twinLost (hs : P s) : P s.twinLost :=
  onlyIf hs (hP.sendRebinds _ (hP.postEvent _ _ _ _ (hP.survives hs)))

theorem actOn (e : Merge) (hs : P s) : P (s.actOn e) := by
  have stops : P (({ s with flt := { s.flt with stopAsked := true } } : State).releasePartner e.subject).holdOff :=
    hP.holdOff (hP.releasePartner _ (hP.flt _ hs))
  unfold State.actOn
  extract_lets x s₁ s₂ s₃
  have dropped : P s₃ := onlyIf stops (hP.masterHoldOff _ stops)
  exact onlyIf (hP.writeEntry _ (hP.countEvent dropped)) dropped

theorem noteEcc (a c : Nat) (hs : P s) : P (s.noteEcc a c) := onlyIf hs (hP.eccAt _ hs)

theorem enterBeacon (a c m k p : Nat) (hs : P s) : P (s.enterBeacon a c m k p).1 := by
  unfold State.enterBeacon
  split
  · extract_lets bm gained y x s₁ s₂
    have noted : P s₂ := onlyIf (hP.merges _ hs) (hP.noteEcc _ _ (hP.merges _ hs))
    exact hP.bump Reg.RNG_BEACON_MERGED 1 (by decide) (by decide) noted
  · split
    · exact hP.flood _ _ (hP.setBits _ _ (by decide) (hP.bump _ _ (by decide) (by decide) hs))
    · exact hP.noteEcc _ _ (hP.merges _ hs)

theorem entryActs (x : State × Option Merge) (hx : P x.1) : P (State.entryActs x) := by
  unfold State.entryActs
  split
  · exact hx
  · exact onlyIf hx (hP.actOn _ hx)

theorem enterReport (a c : Nat) (hs : P s) : P (s.enterReport a c).1 := by
  unfold State.enterReport
  extract_lets t
  have flagged : P t := onlyIf (onlyIf hs (hP.setBits _ _ (by decide) hs)) (hP.setBits _ _ (by decide) hs)
  split
  · exact hP.bump Reg.RNG_FILTERED 1 (by decide) (by decide) flagged
  · exact hP.enterBeacon _ _ _ _ _ (hP.filter _ flagged)

theorem tellsLoss (a c : Nat) (hs : P s) : P (s.tellsLoss a c) := onlyIf hs (onlyIf (hP.gone _ hs) (hP.retarget _ (hP.gone _ hs)))

theorem settleEntry (x : State × Option Merge) (hx : P x.1) : P (State.settleEntry x) := by
  have acted := hP.entryActs x hx
  unfold State.settleEntry
  extract_lets t
  split
  · exact acted
  · exact onlyIf (hP.twinLost (onlyIf (hP.entryActs _ (hP.enterReport _ _ (hP.tellsLoss _ _ acted))) acted)) acted

theorem report (a c : Nat) (hs : P s) : P (s.report a c) := hP.settleEntry _ (hP.enterReport _ _ (hP.tellsLoss _ _ hs))

end ReportStable

/-! ### The filter (R338) -/

theorem reportStable_filter (x : Nat × Nat) : ReportStable fun s => x ∈ s.ring.filter where
  notes _ _ _ _ h := h
  bump {s} a n _ _ h := (RegFree.bump (f := State.ring) (fun _ _ => rfl) s a n).symm ▸ h
  setBits _ _ _ h := h
  thy _ _ h := h
  mem _ _ h := h
  survives h := h
  eccAt _ h := h
  sendFrame _ _ h := h
  release _ _ _ h := h
  merges _ h := h
  filter _ h := List.mem_append_left _ h
  gone _ h := h

theorem State.enterReport_filter (s : State) (a c : Nat) : (a, c) ∈ (s.enterReport a c).1.ring.filter := by
  unfold State.enterReport
  extract_lets t
  split
  next h => exact (reportStable_filter (a, c)).bump (s := t) Reg.RNG_FILTERED 1 (by decide) (by decide) (by simpa using h)
  next h => exact (reportStable_filter (a, c)).enterBeacon _ _ _ _ _ (List.mem_append_right _ (List.mem_singleton_self _))

/-- A report stands in the filter behind it. -/
theorem State.report_filter (s : State) (a c : Nat) : (a, c) ∈ (s.report a c).ring.filter :=
  (reportStable_filter (a, c)).settleEntry _ (State.enterReport_filter _ _ _)

end Sys2Proof.Machine
end

section
/-! OPEN, CLOSE and REBIND frames and the time-outs of contexts (R327, R328, R337, R355, R392, R428); O35. -/

namespace Sys2Proof.Machine

variable {α : Type} {f : State → α}

/-! ### Context entries -/

theorem State.ctxE?_addCtxE {s : State} {i : Nat} (h : s.ctxE? i = none) (e : CtxEntry) : (s.addCtxE i e).ctxE? i = some e := by
  have none : s.ring.ctxs.find? (fun c => c.1 == i) = none := Option.map_eq_none_iff.mp h
  simp [State.ctxE?, State.addCtxE, List.find?_append, none]

theorem State.ctxE?_freeCtxE_same (s : State) (i : Nat) : (s.freeCtxE i).ctxE? i = none := by
  simp [State.ctxE?, State.freeCtxE]

theorem State.ctxE?_freeCtxE_ne (s : State) {i k : Nat} (h : k ≠ i) : (s.freeCtxE i).ctxE? k = s.ctxE? k := by
  have same : (fun c : Nat × CtxEntry => decide ((c.1 != i) = true ∧ (c.1 == k) = true)) = fun c => c.1 == k := by
    funext c
    by_cases hc : c.1 = k <;> simp [hc, h]
  simp only [State.ctxE?, State.freeCtxE, List.find?_filter, same]

theorem State.ctxE?_modCtxE_ne (s : State) {i k : Nat} (h : k ≠ i) (g : CtxEntry → CtxEntry) : (s.modCtxE i g).ctxE? k = s.ctxE? k := by
  have same : (fun c : Nat × CtxEntry => c.1 == k) ∘ (fun c => if c.1 == i then (c.1, g c.2) else c) = fun c => c.1 == k := by
    funext c
    by_cases hc : c.1 = i <;> simp [hc]
  simp only [State.ctxE?, State.modCtxE, List.find?_map, same]
  cases hc : s.ring.ctxs.find? (fun c => c.1 == k) with
  | none => rfl
  | some c =>
    have key : c.1 = k := eq_of_beq (List.find?_some hc :)
    simp [key, h]

/-- An update of every entry. -/
theorem find?_mapped (l : List (Nat × CtxEntry)) (g : CtxEntry → CtxEntry) (i : Nat) :
    ((l.map fun c => (c.1, g c.2)).find? (fun c => c.1 == i)).map Prod.snd = ((l.find? (fun c => c.1 == i)).map Prod.snd).map g := by
  rw [List.find?_map]
  have same : (fun c : Nat × CtxEntry => c.1 == i) ∘ (fun c : Nat × CtxEntry => (c.1, g c.2)) = fun c => c.1 == i := rfl
  rw [same]
  cases l.find? (fun c => c.1 == i) <;> rfl

/-! ### OPEN and CLOSE (R327, R328) -/

theorem exec_openFrame (x : Frame) (s : State) : exec (.openFrame x) s = .next (s.arrives 4 x fun s => s.openIn x) := rfl

/-- The entry of a CLOSE frame, where it is a service of its sender, is free again. -/
def State.closeIn (x : Frame) (s : State) : State :=
  match s.ctxE? x.dstCtx with
  | some c => if c.st == .service && c.partner == x.src then s.freeCtxE x.dstCtx else s
  | none => s

theorem exec_closeFrame (x : Frame) (s : State) : exec (.closeFrame x) s = .next (s.arrives 5 x (State.closeIn x)) := rfl

theorem State.settleStart_of_not {s : State} (h : s.pendingIs 0x20 = false) : s.settleStart = s := by
  rw [State.settleStart, h]
  rfl

/-- The entry opens, and the handshake is answered. -/
def State.entryOpened (s : State) (i : Nat) (c : CtxEntry) : State :=
  (s.modCtxE i fun e => { e with st := .open_, lastFrame := s.period }).toPartner i c c.port 4 0 0 0 []

theorem State.entryOpened_onlyRing (s : State) (i : Nat) (c : CtxEntry) : s.onlyRing (s.entryOpened i c) := State.onlyRing_iff.2 (State.offCounters_sendTo _ _ _ _)

theorem State.entryOpened_ctxE? (s : State) (i k : Nat) (c : CtxEntry) :
    (s.entryOpened i c).ctxE? k = (s.modCtxE i fun e => { e with st := .open_, lastFrame := s.period }).ctxE? k :=
  (linkFree_ctxE? k).sendTo (regFree_ctxE? k) _ _ _ _

theorem State.onlyRing_isBack (s : State) (a : Nat) : s.onlyRing (s.isBack a) := State.onlyRing_iff.2 rfl

theorem State.onlyRing_addCtxE (s : State) (i : Nat) (e : CtxEntry) : s.onlyRing (s.addCtxE i e) := State.onlyRing_iff.2 rfl

theorem State.onlyRing_freeCtxE (s : State) (i : Nat) : s.onlyRing (s.freeCtxE i) := State.onlyRing_iff.2 rfl

/-- The entry that an OPEN frame makes of a free index. -/
def State.serviceEntry (s : State) (x : Frame) : CtxEntry := ⟨.service, x.src, x.srcCtx, x.port, false, [], [], [], s.period, s.period, false⟩

section
variable {x : Frame} {s : State} (h : s.linkTakes x) (hme : s.forMe x)
include h hme

/-- What an OPEN frame does where its effect on the module that has received it is on the ring engine and counters alone. -/
theorem exec_openFrame_of {u : State} (hu : (s.received x).openIn x = u) (hring : (s.received x).onlyRing u) :
    ∃ t, exec (.openFrame x) s = .next t ∧ s.onlyRing t ∧ t.ctxE? x.dstCtx = u.ctxE? x.dstCtx := by
  subst hu
  exact ⟨_, exec_openFrame x s, State.onlyRing_of_arrives h hme hring, (linkFree_ctxE? x.dstCtx).arrives h hme 4 _⟩

theorem exec_openFrame_declared {c : CtxEntry} (hc : s.ctxE? x.dstCtx = some c) (hst : c.st = .declared) (hstarted : s.stp.started = true)
    (hpartner : c.partner = x.src) (hctx : c.partnerCtx = x.srcCtx) (hstart : s.pendingIs 0x20 = false) :
    ∃ t, exec (.openFrame x) s = .next t ∧ s.onlyRing t ∧ t.ctxE? x.dstCtx = some { c with st := .open_, lastFrame := s.period } := by
  have entry : ((s.received x).isBack x.src).ctxE? x.dstCtx = some c := State.received_ctxE? hc
  have started : ((s.received x).isBack x.src).stp.started = true := (RingFree.received (f := fun u => u.stp.started) (fun _ _ => rfl) s x).trans hstarted
  have pending : (((s.received x).isBack x.src).entryOpened x.dstCtx c).pendingIs 0x20 = false :=
    (LinkFree.sendTo (f := fun u => u.pendingIs 0x20) (fun _ _ _ => rfl) (fun _ _ => rfl) _ _ _ _).trans
      ((RingFree.received (f := fun u => u.pendingIs 0x20) (fun _ _ => rfl) s x).trans hstart)
  have now : ((s.received x).isBack x.src).period = s.period := RingFree.received (f := State.period) (fun _ _ => rfl) s x
  have effect : (s.received x).openIn x = ((s.received x).isBack x.src).entryOpened x.dstCtx c := by
    have opened : (((s.received x).isBack x.src).openEntry x.dstCtx c) = ((s.received x).isBack x.src).entryOpened x.dstCtx c := State.settleStart_of_not pending
    rw [← opened]
    simp [State.openIn, entry, hst, started, hpartner, hctx]
  obtain ⟨t, ht, hring, hentry⟩ := exec_openFrame_of h hme effect ((State.onlyRing_isBack _ _).trans (State.entryOpened_onlyRing _ _ _))
  refine ⟨t, ht, hring, hentry.trans ?_⟩
  rw [State.entryOpened_ctxE?, State.ctxE?_modCtxE, entry, now]
  rfl

theorem exec_openFrame_free (hc : s.ctxE? x.dstCtx = none) (hindex : x.dstCtx < 8192) : ∃ t c, exec (.openFrame x) s = .next t ∧ s.onlyRing t ∧
    t.ctxE? x.dstCtx = some c ∧ c.st = .service ∧ c.partner = x.src ∧ c.partnerCtx = x.srcCtx ∧ c.recvs = [] ∧ c.sends = [] := by
  have entry : ((s.received x).isBack x.src).ctxE? x.dstCtx = none := ((linkFree_ctxE? x.dstCtx).received s x).trans hc
  have effect : (s.received x).openIn x = ((s.received x).isBack x.src).addCtxE x.dstCtx (((s.received x).isBack x.src).serviceEntry x) := by
    simp only [State.openIn, entry, hindex, if_true, State.serviceEntry]
  obtain ⟨t, ht, hring, hentry⟩ := exec_openFrame_of h hme effect ((State.onlyRing_isBack _ _).trans (State.onlyRing_addCtxE _ _ _))
  exact ⟨t, _, ht, hring, hentry.trans (State.ctxE?_addCtxE entry _), rfl, rfl, rfl, rfl, rfl⟩

theorem exec_closeFrame_frees {c : CtxEntry} (hc : s.ctxE? x.dstCtx = some c) (hst : c.st = .service) (hpartner : c.partner = x.src) :
    ∃ t, exec (.closeFrame x) s = .next t ∧ s.onlyRing t ∧ t.ctxE? x.dstCtx = none ∧ ∀ i, i ≠ x.dstCtx → t.ctxE? i = s.ctxE? i := by
  have effect : State.closeIn x (s.received x) = (s.received x).freeCtxE x.dstCtx := by
    simp [State.closeIn, State.received_ctxE? hc, hst, hpartner]
  have seen (i : Nat) : (s.arrives 5 x (State.closeIn x)).ctxE? i = ((s.received x).freeCtxE x.dstCtx).ctxE? i := by
    rw [(linkFree_ctxE? i).arrives h hme, effect]
  refine ⟨_, exec_closeFrame x s, State.onlyRing_of_arrives h hme (effect ▸ State.onlyRing_freeCtxE _ _), (seen _).trans (State.ctxE?_freeCtxE_same _ _), fun i hi => ?_⟩
  exact (seen i).trans ((State.ctxE?_freeCtxE_ne _ hi).trans ((linkFree_ctxE? i).received s x))

end

/-! ### REBIND (R327, R355) -/

/-- The pair that a LOST entry of the lost subject goes on with. -/
def rebindHit (lost : Nat) (pairs : List (Nat × Nat)) (e : CtxEntry) : Option (Nat × Nat) :=
  if e.st == .lost && e.partner == lost then pairs.find? (fun x => x.1 == e.partnerCtx) else none

/-- The entries that a REBIND names, with their survivor. -/
def State.rebound (s : State) (lost survivor : Nat) (pairs : List (Nat × Nat)) : List (Nat × CtxEntry) :=
  s.ring.ctxs.filterMap fun c => (rebindHit lost pairs c.2).map fun x => (c.1, { c.2 with partner := survivor, partnerCtx := x.2 })

/-- One entry names its survivor and opens again. -/
def State.rebindOne (survivor : Nat) (s : State) (x : Nat × CtxEntry) : State :=
  (s.modCtxE x.1 fun e => { e with st := .open_, partner := survivor, partnerCtx := x.2.partnerCtx, lastFrame := s.period }).toPartner x.1 x.2 x.2.port 4 0 0 0 []

theorem State.rebind_eq (s : State) (lost survivor : Nat) (pairs : List (Nat × Nat)) :
    s.rebind lost survivor pairs = (s.rebound lost survivor pairs).foldl (State.rebindOne survivor) s := rfl

section
variable (survivor : Nat)

theorem State.rebindOne_offCounters (s : State) (x : Nat × CtxEntry) : (s.rebindOne survivor x).offCounters = s.offCounters :=
  (State.offCounters_sendTo _ _ _ _).trans (State.onlyRing_iff.1 (State.onlyRing_modCtxE s x.1 _))

theorem State.rebindOne_period (s : State) (x : Nat × CtxEntry) : (s.rebindOne survivor x).period = s.period :=
  LinkFree.sendTo (f := State.period) (fun _ _ _ => rfl) (fun _ _ => rfl) _ _ _ _

theorem State.rebindOne_same (s : State) (i : Nat) (d : CtxEntry) : (s.rebindOne survivor (i, d)).ctxE? i =
    (s.ctxE? i).map fun e => { e with st := .open_, partner := survivor, partnerCtx := d.partnerCtx, lastFrame := s.period } :=
  ((linkFree_ctxE? i).sendTo (regFree_ctxE? i) _ _ _ _).trans (State.ctxE?_modCtxE _ _ _)

theorem State.rebindOne_ne (s : State) {i : Nat} {x : Nat × CtxEntry} (h : i ≠ x.1) : (s.rebindOne survivor x).ctxE? i = s.ctxE? i :=
  ((linkFree_ctxE? i).sendTo (regFree_ctxE? i) _ _ _ _).trans (State.ctxE?_modCtxE_ne _ h _)

/-- An entry that the list does not name stays. -/
theorem State.rebindAll_ne {i : Nat} : ∀ (l : List (Nat × CtxEntry)) (s : State), i ∉ l.map Prod.fst → (l.foldl (State.rebindOne survivor) s).ctxE? i = s.ctxE? i
  | [], _, _ => rfl
  | x :: l, s, h => by
    obtain ⟨hx, hl⟩ := not_or.mp (fun hor => h (List.mem_cons.mpr hor))
    exact (State.rebindAll_ne l _ hl).trans (State.rebindOne_ne survivor s hx)

/-- One that it names once opens with its own pair. -/
theorem State.rebindAll_mem {i : Nat} {d : CtxEntry} : ∀ (l : List (Nat × CtxEntry)) (s : State), (l.map Prod.fst).Nodup → (i, d) ∈ l →
    (l.foldl (State.rebindOne survivor) s).ctxE? i =
      (s.ctxE? i).map fun e => { e with st := .open_, partner := survivor, partnerCtx := d.partnerCtx, lastFrame := s.period }
  | [], _, _, h => absurd h List.not_mem_nil
  | x :: l, s, hnodup, h => by
    obtain ⟨hx, hl⟩ := List.nodup_cons.mp hnodup
    obtain rfl | h := List.mem_cons.mp h
    · exact (State.rebindAll_ne survivor l _ hx).trans (State.rebindOne_same survivor s i d)
    · have other : i ≠ x.1 := fun heq => hx (heq ▸ List.mem_map_of_mem h)
      rw [List.foldl_cons, State.rebindAll_mem l _ hl h, State.rebindOne_ne survivor s other, State.rebindOne_period]

end

theorem State.rebound_nodup {s : State} (h : (s.ring.ctxs.map (·.1)).Nodup) (lost survivor : Nat) (pairs : List (Nat × Nat)) :
    ((s.rebound lost survivor pairs).map Prod.fst).Nodup := by
  have keys : List.Sublist ((s.rebound lost survivor pairs).map Prod.fst) (s.ring.ctxs.map (·.1)) := by
    unfold State.rebound
    generalize s.ring.ctxs = l
    induction l with
    | nil => exact .slnil
    | cons c l ih =>
      cases hc : rebindHit lost pairs c.2 with
      | none => simpa [hc] using ih.cons c.1
      | some x => simpa [hc] using ih.cons_cons c.1
  exact keys.nodup h

theorem exec_rebindFrame (x : Frame) (s : State) : exec (.rebindFrame x) s =
    .next (s.arrives 9 x fun s => s.rebind (x.tag.toNat / 65536) (x.tag.toNat % 65536) (rebindPairs x)) := rfl

theorem exec_rebindFrame_opens {x : Frame} {i : Nat} {c : CtxEntry} {y : Nat × Nat} {s : State} (h : s.linkTakes x) (hme : s.forMe x)
    (hnodup : (s.ring.ctxs.map (·.1)).Nodup) (hc : s.ctxE? i = some c) (hst : c.st = .lost) (hpartner : c.partner = x.tag.toNat / 65536)
    (hpair : (rebindPairs x).find? (fun y => y.1 == c.partnerCtx) = some y) :
    ∃ t, exec (.rebindFrame x) s = .next t ∧ s.onlyRing t ∧
      t.ctxE? i = some { c with st := .open_, partner := x.tag.toNat % 65536, partnerCtx := y.2, lastFrame := s.period } := by
  have same : (s.received x).ring.ctxs = s.ring.ctxs := LinkFree.received (f := fun u => u.ring.ctxs) (fun _ _ _ => rfl) s x
  have now : (s.received x).period = s.period := RingFree.received (f := State.period) (fun _ _ => rfl) s x
  have hit : rebindHit (x.tag.toNat / 65536) (rebindPairs x) c = some y := by simp [rebindHit, hst, hpartner, hpair]
  have listed : (i, c) ∈ (s.received x).ring.ctxs := by
    rw [same]
    obtain ⟨e, hfound, rfl⟩ := Option.map_eq_some_iff.mp hc
    have key : e.1 = i := eq_of_beq (List.find?_some hfound :)
    exact key ▸ List.mem_of_find?_eq_some hfound
  have named : (i, { c with partner := x.tag.toNat % 65536, partnerCtx := y.2 }) ∈
      (s.received x).rebound (x.tag.toNat / 65536) (x.tag.toNat % 65536) (rebindPairs x) :=
    List.mem_filterMap.mpr ⟨(i, c), listed, by rw [hit]; rfl⟩
  refine ⟨_, exec_rebindFrame x s, State.onlyRing_of_arrives h hme ?_, ?_⟩
  · exact State.onlyRing_iff.2 (foldl_keeps (f := State.offCounters) (fun u e => u.rebindOne_offCounters _ e) _ _)
  · rw [(linkFree_ctxE? i).arrives h hme, State.rebind_eq, State.rebindAll_mem _ _ _ (State.rebound_nodup (same ▸ hnodup) _ _ _) named,
      (linkFree_ctxE? i).received s x, hc, now]
    rfl

/-! ### Time-outs (R327, R337, R428) -/

/-- What a report leaves of an entry: its state. -/
theorem reportStable_ctx (i : Nat) (st : CtxState) : ReportStable fun s => ∃ e, s.ctxE? i = some e ∧ e.st = st where
  notes _ _ _ _ h := h
  bump {s} a n _ _ h := ((regFree_ctxE? i).bump s a n).symm ▸ h
  setBits _ _ _ h := h
  thy _ _ h := h
  mem _ _ h := h
  survives h := h
  eccAt _ h := h
  sendFrame _ _ h := h
  release {s} g k hg h := by
    obtain ⟨e, he, hst⟩ := h
    exact ⟨g e, (find?_mapped s.ring.ctxs g i).trans (congrArg (Option.map g) he), (hg e).trans hst⟩
  merges _ h := h
  filter _ h := h
  gone _ h := h

theorem State.report_arrays (s : State) (a c : Nat) : (s.report a c).arrays = s.arrays :=
  ReportFree.report (f := State.arrays) { EventFree.of_unread fun _ _ _ _ => rfl with
    regs := fun _ _ => rfl, ring := fun _ _ => rfl, thy := fun _ _ _ _ _ _ => rfl, mem := fun _ _ _ => rfl, mir := fun _ _ _ => rfl } s a c

/-- A silent context of a module that has not stopped, or one whose silence was due before, becomes LOST and is reported. -/
theorem exec_ctxTimeout_lost {i : Nat} {c : CtxEntry} {s : State} (hc : s.ctxE? i = some c) (hsilent : s.isSilent c = true)
    (hgoes : s.flt.stopped = false ∨ c.overdue = true) : ∃ t e, exec (.ctxTimeout i) s = .next t ∧ t.ctxE? i = some e ∧ e.st = .lost ∧
      (c.partner, 0x71) ∈ t.ring.filter ∧ t.arrays = s.arrays := by
  have goes : (s.flt.stopped && !c.overdue) = false := by rcases hgoes with h | h <;> simp [h]
  have effect : exec (.ctxTimeout i) s = .next ((s.modCtxE i fun e => { e with st := .lost, overdue := false }).report c.partner 0x71) := by
    show execCtxTimeout i s = _
    simp only [execCtxTimeout, hc, hsilent, goes, Bool.not_true, Bool.false_eq_true, if_false]
  have lost : (s.modCtxE i fun e => { e with st := .lost, overdue := false }).ctxE? i = some { c with st := .lost, overdue := false } := by
    rw [State.ctxE?_modCtxE, hc]
    rfl
  obtain ⟨e, he, hst⟩ := (reportStable_ctx i .lost).report c.partner 0x71 ⟨_, lost, rfl⟩
  exact ⟨_, e, effect, he, hst, State.report_filter _ _ _, (State.report_arrays _ _ _).trans rfl⟩

/-- A stopped module drops the messages of a silent context (R428). -/
theorem exec_ctxTimeout_drops {i : Nat} {c : CtxEntry} {s : State} (hc : s.ctxE? i = some c) (hsilent : s.isSilent c = true)
    (hstopped : s.flt.stopped = true) (hdue : c.overdue = false) : ∃ t, exec (.ctxTimeout i) s = .next t ∧
      t.ctxE? i = some { c with recvs := [], sends := [] } ∧ t.arrays = s.arrays ∧ t.flt = s.flt := by
  have effect : exec (.ctxTimeout i) s = .next (s.dropMessages i c) := by
    show execCtxTimeout i s = _
    simp only [execCtxTimeout, hc, hsilent, hstopped, hdue, Bool.not_true, Bool.not_false, Bool.and_self, Bool.false_eq_true, if_false, if_true]
  have dropped := fun {β : Type} (g : State → β) (hlink : LinkFree g) (hmem : ∀ (s : State) m n, g { s with mem := m, freeCtr := n } = g s) =>
    foldl_keeps (f := g) (g := fun (s : State) (r : Recv) => ({ s with mem := memPut s.mem r.buf (s.freeBytes r.len), freeCtr := s.freeCtr + r.len } : State).releaseHeld r)
      (fun s r => (foldl_keeps (g := fun s (h : HeldFrame) => s.giveCredit h.port 3 h.vc 1) (fun s _ => hlink.sendFrame s _ _) r.held _).trans (hmem s _ _)) c.recvs s
  refine ⟨_, effect, ?_, (dropped State.arrays (fun _ _ _ => rfl) fun _ _ _ => rfl), dropped State.flt (fun _ _ _ => rfl) fun _ _ _ => rfl⟩
  rw [State.dropMessages, State.ctxE?_modCtxE, dropped (fun s => s.ctxE? i) (linkFree_ctxE? i) fun _ _ _ => rfl, hc]
  rfl

theorem exec_openTimeout_lost {i : Nat} {c : CtxEntry} {s : State} (hc : s.ctxE? i = some c) (hst : c.st = .declared) (hstarted : s.stp.started = true)
    (hdue : c.openSince + s.regN Reg.RNG_OPEN_LIMIT ≤ s.period) (hstart : s.pendingIs 0x20 = false) : ∃ t, exec (.openTimeout i) s = .next t ∧
      s.onlyRing t ∧ t.ctxE? i = some { c with st := .lost } := by
  have effect : exec (.openTimeout i) s = .next (s.modCtxE i fun e => { e with st := .lost }) := by
    show execOpenTimeout i s = _
    have settled : (s.modCtxE i fun e => { e with st := .lost }).settleStart = s.modCtxE i fun e => { e with st := .lost } := State.settleStart_of_not hstart
    simp [execOpenTimeout, hc, hst, hstarted, Nat.not_lt.2 hdue, settled]
  refine ⟨_, effect, State.onlyRing_modCtxE _ _ _, ?_⟩
  rw [State.ctxE?_modCtxE, hc]
  rfl

theorem State.isSilent_of_due {s : State} {c : CtxEntry} (hst : c.st = .open_) (hbusy : c.busy = true)
    (hdue : c.lastFrame + s.regN Reg.RNG_CTX_TIMEOUT ≤ s.period) : s.isSilent c = true := by
  simp [State.isSilent, hst, hbusy, hdue]

theorem State.isSilent_of_overdue (s : State) {c : CtxEntry} (hst : c.st = .open_) (hdue : c.overdue = true) : s.isSilent c = true := by
  simp [State.isSilent, hst, hdue]

/-- Settles O35: OPEN, CLOSE and REBIND by the entries they change behind the link layer, the time-outs by what a report leaves of an entry. -/
theorem contextStates : Obligations.ContextStates := by
  unfold Obligations.ContextStates
  refine ⟨⟨fun x s h hme => ⟨fun c hc hst hstarted hp hctx hstart => exec_openFrame_declared h hme hc hst hstarted hp hctx hstart,
      exec_openFrame_free h hme, fun c hc hst hp => exec_closeFrame_frees h hme hc hst hp⟩,
    fun x i c y s h hme hnodup hc hst hp hpair => exec_rebindFrame_opens h hme hnodup hc hst hp hpair⟩,
    fun i c s hc => ⟨fun hst hbusy hdue hgoes => ?_, fun hst hdue => ?_, fun hst hbusy hdue hstopped hnot => ?_, fun hst hstarted hdue hstart => ?_⟩⟩
  · exact exec_ctxTimeout_lost hc (State.isSilent_of_due hst hbusy hdue) (.inl hgoes)
  · exact exec_ctxTimeout_lost hc (s.isSilent_of_overdue hst hdue) (.inr hdue)
  · exact exec_ctxTimeout_drops hc (State.isSilent_of_due hst hbusy hdue) hstopped hnot
  · exact exec_openTimeout_lost hc hst hstarted hdue hstart

end Sys2Proof.Machine
end

section
/-! Lanes, light and breaks (R315, R316, R336, R337); the first half of O46. -/

namespace Sys2Proof.Machine

variable {α : Type} {f : State → α}

/-! ### What frames and reports leave of a port -/

/-- What of a port neither frames nor reports change: the state of its hop. -/
def Port.face (q : Port) : Port × Bool := (q.bare, q.dark)

theorem Port.put_face (q : Port) (y : OutFrame) : (q.put y).face = q.face := by
  unfold Port.put
  split <;> rfl

theorem Port.pump_face (n : Nat) (q : Port) : (q.pump n).face = q.face := by
  induction n generalizing q with
  | zero => rfl
  | succ n ih =>
    unfold Port.pump
    split
    · rfl
    · split
      · exact (ih _).trans (q.put_face _)
      · rfl

theorem State.modPort_face {g : Port → Port} (hg : ∀ q, (g q).face = q.face) (s : State) (p k : Nat) : ((s.modPort p g).port k).face = (s.port k).face := by
  simp only [State.port, State.modPort, List.getD_eq_getElem?_getD, List.getElem?_modify]
  split
  · cases s.ring.ports[k]? <;> simp [hg]
  · simp

theorem State.sendFrame_face (s : State) (p k : Nat) (y : OutFrame) : ((s.sendFrame p y).port k).face = (s.port k).face := by
  refine State.modPort_face (fun q => ?_) s p k
  split
  · rfl
  · exact Port.pump_face _ _

/-- A port some of whose waiting frames are dropped. -/
def Port.thinned (k : OutFrame → Bool) (q : Port) : Port := { q with outQ := q.outQ.filter k }

theorem State.port_thinned (s : State) (k : OutFrame → Bool) (l : List (Nat × CtxEntry)) :
    State.port { s with ring := { s.ring with ctxs := l, ports := s.ring.ports.map (Port.thinned k) } } = fun p => (s.port p).thinned k :=
  funext fun _ => List.getD_map (f := Port.thinned k) (d := Port.reset) ..

/-- What frames, and releases of receives, leave of the ports. -/
theorem reportStable_ports {Q : (Nat → Port) → Prop} (hsend : ∀ (s : State) p y, Q s.port → Q (s.sendFrame p y).port)
    (hfilter : ∀ (s : State) (k : OutFrame → Bool), Q s.port → Q fun p => (s.port p).thinned k) :
    ReportStable fun s => Q s.port where
  notes _ _ _ _ h := h
  bump {s} a n _ _ h := by rwa [show (s.bump a n).port = s.port from RegFree.bump (f := State.port) (fun _ _ => rfl) s a n]
  setBits _ _ _ h := h
  thy _ _ h := h
  mem _ _ h := h
  survives h := h
  eccAt _ h := h
  sendFrame {s} p y h := hsend s p y h
  release {s} g k _ h := (congrArg Q (s.port_thinned k (s.ring.ctxs.map fun c => (c.1, g c.2)))).mpr (hfilter s k h)
  merges _ h := h
  filter _ h := h
  gone _ h := h

theorem reportStable_face (p : Nat) (v : Port × Bool) : ReportStable fun s => (s.port p).face = v :=
  reportStable_ports (Q := fun q => (q p).face = v) (fun s k y h => (s.sendFrame_face k p y).trans h) fun _ _ h => h

/-- A port that is held down takes no frame. -/
theorem reportStable_shut (p : Nat) : ReportStable fun s => (s.port p).heldDown = true ∧ (s.port p).outQ = [] := by
  refine reportStable_ports (Q := fun q => (q p).heldDown = true ∧ (q p).outQ = []) (fun s k y h => ?_) fun s k h => ⟨h.1, by simp [Port.thinned, h.2]⟩
  obtain ⟨hheld, hq⟩ := h
  by_cases hk : p = k
  · subst hk
    have kept : (s.sendFrame p y).port p = s.port p := by
      by_cases hp : p < s.ring.ports.length
      · rw [State.sendFrame, State.port_modPort_same s hp, hheld]
        rfl
      · have same (g : Port → Port) : (s.modPort p g).port p = s.port p := by
          simp [State.port, State.modPort, List.getD_eq_getElem?_getD, Nat.le_of_not_lt hp]
        exact same _
    rw [kept]
    exact ⟨hheld, hq⟩
  · rw [State.sendFrame, State.port_modPort_ne s hk]
    exact ⟨hheld, hq⟩

/-! ### Light and breaks (R336, R337) -/

theorem State.lt_of_alive {s : State} {p : Nat} (h : (s.port p).st = .up ∨ (s.port p).st = .training) : p < s.ring.ports.length :=
  State.port_lt (by rcases h with h | h <;> rw [h] <;> nofun)

theorem exec_lightLoss_trains {p : Nat} {s : State} (hp : p < 5) (hst : (s.port p).st = .up ∨ (s.port p).st = .training) :
    ∃ t w, exec (.lightLoss p) s = .next t ∧ s.onlyRing { t with host := s.host } ∧ t.regs = s.regs ∧ (∀ q, q ≠ p → t.port q = s.port q) ∧
      w.frame.typ = 10 ∧ w.frame.src = s.ring.addr ∧ t.port p = { s.port p with
        dark := true
        st := .training
        wire := (s.port p).wire ++ [w] } := by
  have alive : (decide (5 ≤ p) || (s.port p).st != .up && (s.port p).st != .training) = false := by
    rcases hst with h | h <;> simp [h, hp]
  have effect : exec (.lightLoss p) s = .next ((s.modPort p fun q => { q with dark := true }).trainPort p) := by
    show execLightLoss p s = _
    simp only [execLightLoss, alive, Bool.false_eq_true, if_false]
  have dark := State.port_modPort_same s (State.lt_of_alive hst) fun q => { q with dark := true }
  obtain ⟨w, hport, htyp, hsrc⟩ := State.trainPort_port (s := s.modPort p fun q => { q with dark := true }) (p := p)
    (by rw [State.length_modPort]; exact State.lt_of_alive hst)
  rw [dark] at hport
  exact ⟨_, w, effect, State.onlyRing_host ((bayFree_offHost.trainPort _ _).trans (bayFree_offHost.modPort s p _)), rfl,
    fun q hq => (State.trainPort_ne _ hq).trans (State.port_modPort_ne s hq _), htyp, hsrc, hport⟩

/-- The record of a broken hop (R336). -/
def breakFault (lower p : Nat) : FaultRec := { FaultRec.of 0x70 0x0B with subject := lower, aux := p }

theorem State.eccEffects_break (s : State) (lower p : Nat) : s.eccEffects (breakFault lower p) = s := rfl

/-- The report of a fault is under way in a running module. -/
def State.tells (s : State) : State := if s.host.st == .running then { s with flt := { s.flt with beaconSent := true } } else s

theorem State.tells_unacked (s : State) : s.tells.flt.unacked = s.flt.unacked := keeps_onlyIf (f := fun u : State => u.flt.unacked) rfl

/-- The hop is held down, and its fault recorded. -/
def State.broken (s : State) (p : Nat) : State :=
  ((s.modPort p fun q => { q with heldDown := true, outQ := [] }).recordFault (breakFault (min s.ring.addr (s.farEnd p)) p)).tells

theorem State.ringBreak_eq (s : State) (p : Nat) : s.ringBreak p = (s.broken p).report (min s.ring.addr (s.farEnd p)) 0x70 := rfl

theorem State.broken_keeps (hf : EventFree f) (hflt : FaultFree f) (s : State) (p : Nat) :
    f (s.broken p) = f (s.modPort p fun q => { q with heldDown := true, outQ := [] }) := by
  have recorded (u : State) (a : Nat) : f (u.recordFault (breakFault a p)) = f u := (hf.recordFault hflt u _).trans (congrArg f (u.eccEffects_break a p))
  have told (u : State) : f u.tells = f u := keeps_onlyIf (hflt _ _)
  exact (told _).trans (recorded _ _)

theorem State.broken_unacked (s : State) (p : Nat) : (s.broken p).flt.unacked = true := (State.tells_unacked _).trans (State.recordFault_unacked _ _)

theorem State.broken_port {s : State} {p : Nat} (hp : p < s.ring.ports.length) : (s.broken p).port p = { s.port p with heldDown := true, outQ := [] } :=
  (State.broken_keeps (f := fun u => u.port p) (.of_unread fun _ _ _ _ => rfl) (fun _ _ => rfl) s p).trans (State.port_modPort_same s hp _)

/-- A report leaves a fault unacknowledged. -/
theorem State.report_unacked (s : State) (a c : Nat) : (s.report a c).flt.unacked = s.flt.unacked := reportFree_unacked.report s a c

theorem State.report_face (s : State) (a c p : Nat) : ((s.report a c).port p).face = (s.port p).face := (reportStable_face p _).report a c rfl

theorem State.report_port_st (s : State) (a c p : Nat) : ((s.report a c).port p).st = (s.port p).st :=
  congrArg (fun v : Port × Bool => v.1.st) (s.report_face a c p)

theorem State.report_shut {s : State} {p : Nat} (hheld : (s.port p).heldDown = true) (hq : (s.port p).outQ = []) (a c : Nat) :
    ((s.report a c).port p).heldDown = true ∧ ((s.report a c).port p).outQ = [] := (reportStable_shut p).report a c ⟨hheld, hq⟩

/-- What a broken hop leads to. -/
theorem State.ringBreak_outcome {s : State} {p : Nat} (hp : p < s.ring.ports.length) : ((s.ringBreak p).port p).heldDown = true ∧
    ((s.ringBreak p).port p).outQ = [] ∧ ((s.ringBreak p).port p).st = (s.port p).st ∧ (s.ringBreak p).flt.unacked = true ∧
    (min s.ring.addr (s.farEnd p), 0x70) ∈ (s.ringBreak p).ring.filter ∧ (s.ringBreak p).arrays = s.arrays := by
  have port := State.broken_port hp
  have held : ((s.broken p).port p).heldDown = true := congrArg Port.heldDown port
  have empty : ((s.broken p).port p).outQ = [] := congrArg Port.outQ port
  have st : ((s.broken p).port p).st = (s.port p).st := (congrArg Port.st port).trans rfl
  have arrays : (s.broken p).arrays = s.arrays := State.broken_keeps (f := State.arrays) (.of_unread fun _ _ _ _ => rfl) (fun _ _ => rfl) s p
  obtain ⟨hheld, hq⟩ := State.report_shut held empty (min s.ring.addr (s.farEnd p)) 0x70
  rw [State.ringBreak_eq]
  exact ⟨hheld, hq, (State.report_port_st _ _ _ _).trans st, (State.report_unacked _ _ _).trans (s.broken_unacked p), State.report_filter _ _ _,
    (State.report_arrays _ _ _).trans arrays⟩

/-- A hop that stays dark is broken. -/
theorem exec_breakTimeout_breaks {p : Nat} {s : State} (hp : p < 4) (hdark : (s.port p).dark = true) (hst : (s.port p).st ≠ .up)
    (hheld : (s.port p).heldDown = false) : ∃ t, exec (.breakTimeout p) s = .next t ∧ (t.port p).heldDown = true ∧ (t.port p).outQ = [] ∧
      (t.port p).st = (s.port p).st ∧ t.flt.unacked = true ∧ (min s.ring.addr (s.farEnd p), 0x70) ∈ t.ring.filter ∧ t.arrays = s.arrays := by
  have effect : exec (.breakTimeout p) s = .next (s.ringBreak p) := by
    show execBreakTimeout p s = _
    simp [execBreakTimeout, hdark, hst, hheld, Nat.not_le.2 hp]
  have inRange : p < s.ring.ports.length := by
    by_contra hout
    have reset : s.port p = Port.reset := List.getD_eq_default _ _ (Nat.le_of_not_lt hout)
    rw [reset] at hdark
    exact absurd hdark (by decide)
  exact ⟨_, effect, State.ringBreak_outcome inRange⟩

/-! ### Lanes (R315, R316) -/

section
variable {p lane ce ue : Nat} {lost : Bool} {s : State}

/-- What a lane shows is counted. -/
def State.laneCounted (s : State) (p ce ue : Nat) : State :=
  (s.bump64 (portReg p Reg.RNG_P_FEC_CE) ce).bump (portReg p Reg.RNG_P_FEC_UE) ue

theorem State.laneCounted_keeps (hf : RegFree f) (s : State) (p ce ue : Nat) : f (s.laneCounted p ce ue) = f s :=
  (hf.bump _ _ _).trans (hf.bump64 _ _ _)

theorem State.laneCounted_offCounters (s : State) (p ce ue : Nat) : (s.laneCounted p ce ue).offCounters = s.offCounters := by
  have first : (s.bump64 (portReg p Reg.RNG_P_FEC_CE) ce).offCounters = s.offCounters := keeps_ite (f := State.offCounters) rfl rfl
  exact (State.offCounters_bump _ _ _).trans first

theorem State.laneCounted_port (s : State) (p ce ue k : Nat) : (s.laneCounted p ce ue).port k = s.port k :=
  State.laneCounted_keeps (f := fun u => u.port k) (fun _ _ => rfl) s p ce ue

theorem exec_laneFailure (hp : p < 4) (hlane : lane < 18) (hst : (s.port p).st = .up ∨ (s.port p).st = .training) (hgood : (s.port p).bad.testBit lane = false) :
    exec (.laneFailure p lane lost ce ue) s =
      .next (if lost || 16 < ue then (s.laneCounted p ce ue).loseLane p lane else s.laneCounted p ce ue) := by
  have lanes : laneCount p = (18, 16) := if_neg (by simpa using Nat.ne_of_lt hp)
  have in_use : (decide (5 ≤ p) || decide (18 ≤ lane) || ((s.port p).st != .up && (s.port p).st != .training) || (s.port p).bad.testBit lane) = false := by
    have h5 : ¬ 5 ≤ p := by omega
    rcases hst with h | h <;> simp [h, h5, hgood, hlane]
  show execLaneFailure p lane lost ce ue s = _
  simp only [execLaneFailure, lanes, in_use, Bool.false_eq_true, if_false]
  rfl

/-- The lane has left use. -/
def State.laneOut (s : State) (p lane : Nat) : State := s.modPort p fun q => { q with bad := (s.port p).bad ||| 2 ^ lane }

/-- A spare lane takes its place, and the hop trains again. -/
def State.laneSwapped (s : State) (p lane i : Nat) : State :=
  (((s.laneOut p lane).bump (portReg p Reg.RNG_P_SWAPS) 1).modPort p fun q => { q with lanes := (q.lanes ^^^ 2 ^ lane) ||| 2 ^ i }).trainPort p

theorem State.loseLane_eq (hp : p < 4) : s.loseLane p lane =
    if ((List.range 18).filter (fun i => !((s.port p).bad ||| 2 ^ lane).testBit i)).length < 16 then (s.laneOut p lane).failPort p
    else if !(s.port p).lanes.testBit lane then s.laneOut p lane
    else ((List.range 18).find? fun i => !((s.port p).bad ||| 2 ^ lane).testBit i && !(s.port p).lanes.testBit i).elim
      ((s.laneOut p lane).failPort p) (s.laneSwapped p lane) := by
  have lanes : laneCount p = (18, 16) := if_neg (by simpa using Nat.ne_of_lt hp)
  simp only [State.loseLane, lanes]
  cases (List.range 18).find? fun i => !((s.port p).bad ||| 2 ^ lane).testBit i && !(s.port p).lanes.testBit i <;> rfl

theorem State.laneOut_port (hp : p < s.ring.ports.length) : (s.laneOut p lane).port p = { s.port p with bad := (s.port p).bad ||| 2 ^ lane } :=
  State.port_modPort_same s hp _

/-- The lane's spare stands in the port, which trains. -/
theorem State.laneSwapped_port (hp : p < s.ring.ports.length) (i : Nat) : ∃ w : WireFrame, w.frame.typ = 10 ∧ (s.laneSwapped p lane i).port p = { s.port p with
    bad := (s.port p).bad ||| 2 ^ lane
    lanes := ((s.port p).lanes ^^^ 2 ^ lane) ||| 2 ^ i
    st := .training
    wire := (s.port p).wire ++ [w] } := by
  have counted : ((s.laneOut p lane).bump (portReg p Reg.RNG_P_SWAPS) 1).ring = (s.laneOut p lane).ring := RegFree.bump (f := State.ring) (fun _ _ => rfl) _ _ 1
  have inRange : p < ((s.laneOut p lane).bump (portReg p Reg.RNG_P_SWAPS) 1).ring.ports.length := by
    rw [counted, State.laneOut, State.length_modPort]
    exact hp
  have before : ((s.laneOut p lane).bump (portReg p Reg.RNG_P_SWAPS) 1).port p = { s.port p with bad := (s.port p).bad ||| 2 ^ lane } := by
    rw [State.port, counted]
    exact State.laneOut_port hp
  obtain ⟨w, hport, htyp, -⟩ := State.trainPort_port (s := ((s.laneOut p lane).bump (portReg p Reg.RNG_P_SWAPS) 1).modPort p
    fun q => { q with lanes := (q.lanes ^^^ 2 ^ lane) ||| 2 ^ i }) (p := p) (by rw [State.length_modPort]; exact inRange)
  rw [State.port_modPort_same _ inRange, before] at hport
  exact ⟨w, htyp, hport⟩

theorem State.laneSwapped_keeps (hf : BayFree f) (s : State) (p lane i : Nat) : f (s.laneSwapped p lane i) =
    f ((s.laneOut p lane).bump (portReg p Reg.RNG_P_SWAPS) 1) := (hf.trainPort _ _).trans (hf.modPort _ _ _)

theorem State.laneSwapped_reg (hs : s.regsSorted) (i : Nat) :
    (s.laneSwapped p lane i).reg (portReg p Reg.RNG_P_SWAPS) = s.reg (portReg p Reg.RNG_P_SWAPS) + 1 := by
  have other : portReg p Reg.RNG_P_SWAPS ≠ Reg.RNG_BAY_CHANGES := by simp only [portReg, portBase, Reg.RNG_P_SWAPS, Reg.RNG_BAY_CHANGES]; omega
  have free : BayFree fun u : State => u.reg (portReg p Reg.RNG_P_SWAPS) :=
    ⟨fun _ _ _ _ _ => rfl, fun _ _ => rfl, fun u n => u.reg_bump_ne _ _ n other⟩
  exact (State.laneSwapped_keeps free s p lane i).trans ((s.laneOut p lane).reg_bump_same (portReg p Reg.RNG_P_SWAPS) 1 hs one_ne_zero)

theorem State.laneCounted_swaps (s : State) (p ce ue : Nat) :
    (s.laneCounted p ce ue).reg (portReg p Reg.RNG_P_SWAPS) = s.reg (portReg p Reg.RNG_P_SWAPS) := by
  have h0 : portReg p Reg.RNG_P_SWAPS ≠ portReg p Reg.RNG_P_FEC_CE := by simp only [portReg, Reg.RNG_P_SWAPS, Reg.RNG_P_FEC_CE]; omega
  have h4 : portReg p Reg.RNG_P_SWAPS ≠ portReg p Reg.RNG_P_FEC_CE + 4 := by simp only [portReg, Reg.RNG_P_SWAPS, Reg.RNG_P_FEC_CE]; omega
  have hue : portReg p Reg.RNG_P_SWAPS ≠ portReg p Reg.RNG_P_FEC_UE := by simp only [portReg, Reg.RNG_P_SWAPS, Reg.RNG_P_FEC_UE]; omega
  exact (State.reg_bump_ne _ _ _ _ hue).trans (State.reg_bump64_ne _ _ _ _ h0 h4)

theorem State.bump64_regsSorted {s : State} (hs : s.regsSorted) (a n : Nat) : (s.bump64 a n).regsSorted := by
  unfold State.bump64
  split
  · exact hs
  · exact State.setReg_regsSorted (State.setReg_regsSorted hs _ _) _ _

theorem State.laneCounted_regsSorted (hs : s.regsSorted) (p ce ue : Nat) : (s.laneCounted p ce ue).regsSorted :=
  State.bump_regsSorted (State.bump64_regsSorted hs _ _) _ _

/-- A ring port with too few good lanes fails, and its hop is broken. -/
theorem State.failPort_outcome (hp : p < 4) (hlen : p < s.ring.ports.length) : ((s.failPort p).port p).st = .failed ∧ ((s.failPort p).port p).heldDown = true ∧
    (s.failPort p).flt.unacked = true ∧ (min s.ring.addr (s.farEnd p), 0x70) ∈ (s.failPort p).ring.filter ∧ (s.failPort p).arrays = s.arrays := by
  have effect : s.failPort p = (s.modPort p fun q => { q with st := .failed }).ringBreak p := if_neg (by simpa using Nat.ne_of_lt hp)
  have port := State.port_modPort_same s hlen fun q => { q with st := .failed }
  have far : (s.modPort p fun q => { q with st := .failed }).farEnd p = s.farEnd p := by
    rw [State.farEnd, port]
    rfl
  obtain ⟨hheld, -, hst, hunacked, hfilter, harrays⟩ := State.ringBreak_outcome (s := s.modPort p fun q => { q with st := .failed }) (p := p)
    (by rw [State.length_modPort]; exact hlen)
  rw [far] at hfilter
  rw [port] at hst
  rw [effect]
  exact ⟨hst, hheld, hunacked, hfilter, harrays⟩

end

section
variable {p lane ce ue : Nat} {lost : Bool} {s : State} (hp : p < 4) (hlane : lane < 18) (hst : (s.port p).st = .up ∨ (s.port p).st = .training)
  (hgood : (s.port p).bad.testBit lane = false)
include hp hlane hst hgood

theorem exec_laneFailure_counts (hlock : lost = false) (hue : ue ≤ 16) :
    ∃ t, exec (.laneFailure p lane lost ce ue) s = .next t ∧ s.onlyRing t ∧ t.ring = s.ring := by
  have effect := exec_laneFailure (ce := ce) (ue := ue) (lost := lost) hp hlane hst hgood
  rw [if_neg (by simp [hlock, Nat.not_lt.2 hue])] at effect
  exact ⟨_, effect, State.onlyRing_iff.2 (s.laneCounted_offCounters p ce ue), State.laneCounted_keeps (f := State.ring) (fun _ _ => rfl) s p ce ue⟩

variable (hout : lost = true ∨ 16 < ue)
include hout

/-- A lane that leaves use. -/
theorem exec_laneFailure_loses : exec (.laneFailure p lane lost ce ue) s = .next ((s.laneCounted p ce ue).loseLane p lane) := by
  have effect := exec_laneFailure (ce := ce) (ue := ue) (lost := lost) hp hlane hst hgood
  rwa [if_pos (by simpa using hout)] at effect

theorem exec_laneFailure_unused (hgoods : 16 ≤ ((List.range 18).filter (fun i => !((s.port p).bad ||| 2 ^ lane).testBit i)).length)
    (hunused : (s.port p).lanes.testBit lane = false) : ∃ t, exec (.laneFailure p lane lost ce ue) s = .next t ∧ s.onlyRing t ∧
      t.port p = { s.port p with bad := (s.port p).bad ||| 2 ^ lane } := by
  have effect := exec_laneFailure_loses (ce := ce) hp hlane hst hgood hout
  rw [State.loseLane_eq hp, State.laneCounted_port, if_neg (Nat.not_lt.2 hgoods), hunused, Bool.not_false, if_pos rfl] at effect
  have length : p < (s.laneCounted p ce ue).ring.ports.length := by
    rw [State.laneCounted_keeps (f := fun u => u.ring.ports.length) (fun _ _ => rfl)]
    exact State.lt_of_alive hst
  refine ⟨_, effect, State.onlyRing_iff.2 ((ringFree_offCounters.modPort _ _ _).trans (s.laneCounted_offCounters p ce ue)), ?_⟩
  rw [State.laneOut_port length, State.laneCounted_port]

theorem exec_laneFailure_swaps {i : Nat} (hs : s.regsSorted)
    (hgoods : 16 ≤ ((List.range 18).filter (fun i => !((s.port p).bad ||| 2 ^ lane).testBit i)).length) (hused : (s.port p).lanes.testBit lane = true)
    (hspare : (List.range 18).find? (fun i => !((s.port p).bad ||| 2 ^ lane).testBit i && !(s.port p).lanes.testBit i) = some i) :
    ∃ t w, exec (.laneFailure p lane lost ce ue) s = .next t ∧ s.onlyRing { t with host := s.host } ∧
      t.reg (portReg p Reg.RNG_P_SWAPS) = s.reg (portReg p Reg.RNG_P_SWAPS) + 1 ∧ w.frame.typ = 10 ∧ t.port p = { s.port p with
        bad := (s.port p).bad ||| 2 ^ lane
        lanes := ((s.port p).lanes ^^^ 2 ^ lane) ||| 2 ^ i
        st := .training
        wire := (s.port p).wire ++ [w] } := by
  have effect := exec_laneFailure_loses (ce := ce) hp hlane hst hgood hout
  rw [State.loseLane_eq hp, State.laneCounted_port, if_neg (Nat.not_lt.2 hgoods), hused, Bool.not_true, if_neg Bool.false_ne_true, hspare] at effect
  have length : p < (s.laneCounted p ce ue).ring.ports.length := by
    rw [State.laneCounted_keeps (f := fun u => u.ring.ports.length) (fun _ _ => rfl)]
    exact State.lt_of_alive hst
  obtain ⟨w, htyp, hport⟩ := State.laneSwapped_port (lane := lane) length i
  rw [State.laneCounted_port] at hport
  have counted : (s.laneCounted p ce ue).offHost = s.offHost := congrArg (fun u : State => { u with host := HostIf.reset }) (s.laneCounted_offCounters p ce ue)
  refine ⟨_, w, effect, State.onlyRing_host ?_, ?_, htyp, hport⟩
  · exact (State.laneSwapped_keeps bayFree_offHost _ _ _ _).trans ((State.offHost_bump _ _ _).trans ((bayFree_offHost.modPort _ _ _).trans counted))
  · exact (State.laneSwapped_reg (s.laneCounted_regsSorted hs p ce ue) i).trans (congrArg (· + 1) (s.laneCounted_swaps p ce ue))

theorem exec_laneFailure_fails (hfew : ((List.range 18).filter (fun i => !((s.port p).bad ||| 2 ^ lane).testBit i)).length < 16) :
    ∃ t, exec (.laneFailure p lane lost ce ue) s = .next t ∧ (t.port p).st = .failed ∧ (t.port p).heldDown = true ∧ t.flt.unacked = true ∧
      (min s.ring.addr (s.farEnd p), 0x70) ∈ t.ring.filter ∧ t.arrays = s.arrays := by
  have effect := exec_laneFailure_loses (ce := ce) hp hlane hst hgood hout
  rw [State.loseLane_eq hp, State.laneCounted_port, if_pos hfew] at effect
  have counted := fun {β : Type} (g : State → β) (hg : RegFree g) => State.laneCounted_keeps hg s p ce ue
  have length : p < (s.laneCounted p ce ue).ring.ports.length := by
    rw [counted (fun u => u.ring.ports.length) fun _ _ => rfl]
    exact State.lt_of_alive hst
  have out : p < ((s.laneCounted p ce ue).laneOut p lane).ring.ports.length := by
    rw [State.laneOut, State.length_modPort]
    exact length
  have far : ((s.laneCounted p ce ue).laneOut p lane).farEnd p = s.farEnd p := by
    rw [State.farEnd, State.laneOut_port length, State.laneCounted_port]
    exact counted (fun u => if (s.port p).seen then (s.port p).far else u.neighbour p) fun _ _ => rfl
  have addr : ((s.laneCounted p ce ue).laneOut p lane).ring.addr = s.ring.addr := counted (fun u => u.ring.addr) fun _ _ => rfl
  obtain ⟨hfailed, hheld, hunacked, hfilter, harrays⟩ := State.failPort_outcome hp out
  rw [far, addr] at hfilter
  exact ⟨_, effect, hfailed, hheld, hunacked, hfilter, harrays.trans (counted State.arrays fun _ _ => rfl)⟩

end

end Sys2Proof.Machine
end

section
/-! Training of a ring hop, with which JOIN_RING goes on (R315, R336, R396); the second part of O46. -/

namespace Sys2Proof.Machine

variable {α : Type} {f : State → α}

/-! ### A port comes up (R315, R320) -/

/-- The port comes up at its far end, and goes on with it or begins afresh. -/
def Port.comesUp (q : Port) (far spanned lanes delay : Nat) (same : Bool) : Port :=
  let q := { q with st := .up, far := far, spanned := spanned, lanes := lanes, delay := delay, dark := false, heldDown := false, seen := true }
  if same then q.resend
  else { q with replay := [], sendSeq := 0, ackedTo := 0, rxSeq := 0, rxSinceAck := 0, replays := 0, credits := List.replicate 8 0 }

theorem Port.comesUp_face (q : Port) (far spanned lanes delay : Nat) (same : Bool) : (q.comesUp far spanned lanes delay same).face =
    ({ Port.reset with st := .up, far := far, spanned := spanned, seen := true }, false) := by cases same <;> rfl

/-- Whether the port meets the far end it had. -/
def State.meets (s : State) (p far : Nat) : Bool := (s.port p).seen && (s.port p).far == far

/-- Credit for every class and channel. -/
def State.grants (s : State) (p : Nat) : State :=
  [0, 1, 2, 3].foldl (fun (s : State) c => [0, 1].foldl (fun (s : State) v => s.giveCredit p c v 64) s) s

/-- The port is up, before what waits is sent. -/
def State.hopUp (s : State) (p far spanned lanes : Nat) : State :=
  ((s.isBack far).used 1).modPort p fun q => q.comesUp far spanned lanes (s.isBack far).freeWord.toNat ((s.isBack far).meets p far)

theorem State.portUp_eq (s : State) (p far spanned lanes : Nat) : s.portUp p far spanned lanes =
    ((if (s.isBack far).meets p far then
        (s.hopUp p far spanned lanes).bump (portReg p Reg.RNG_P_REPLAY) (bnat !((s.isBack far).port p).replay.isEmpty)
      else (s.hopUp p far spanned lanes).grants p).modPort p Port.pumped).reparent := rfl

theorem State.grants_keeps (hsend : ∀ (s : State) p y, f (s.sendFrame p y) = f s) (s : State) (p : Nat) : f (s.grants p) = f s :=
  foldl_keeps (fun u c => foldl_keeps (g := fun (s : State) v => s.giveCredit p c v 64) (fun v _ => hsend v _ _) _ u) _ s

/-- What a port that comes up changes beside itself: who is gone, the free values, counters, and the parent port. -/
theorem State.portUp_keeps (hreg : RegFree f) (hsend : ∀ (s : State) p y, f (s.sendFrame p y) = f s)
    (hpump : ∀ (s : State) p, f (s.modPort p Port.pumped) = f s) (hthy : ∀ (s : State) x, f { s with thy := { s.thy with parent := x } } = f s)
    (s : State) (p far spanned lanes : Nat) : f (s.portUp p far spanned lanes) = f (s.hopUp p far spanned lanes) := by
  rw [State.portUp_eq]
  have parent (u : State) : f u.reparent = f u := keeps_ite rfl (hthy u _)
  exact (parent _).trans ((hpump _ _).trans (keeps_ite (hreg.bump _ _ _) (State.grants_keeps hsend _ _)))

theorem State.pumped_face (s : State) (p k : Nat) : ((s.modPort p Port.pumped).port k).face = (s.port k).face :=
  State.modPort_face (fun _ => Port.pump_face _ _) s p k

theorem State.portUp_face (s : State) (p far spanned lanes k : Nat) :
    ((s.portUp p far spanned lanes).port k).face = ((s.hopUp p far spanned lanes).port k).face :=
  State.portUp_keeps (f := fun u => (u.port k).face) (fun _ _ => rfl) (fun u p y => u.sendFrame_face p k y) (fun u p => u.pumped_face p k) (fun _ _ => rfl) s p far spanned lanes

/-- The face of a port that has come up. -/
theorem State.portUp_face_same {s : State} {p : Nat} (hp : p < s.ring.ports.length) (far spanned lanes : Nat) :
    ((s.portUp p far spanned lanes).port p).face = ({ Port.reset with st := .up, far := far, spanned := spanned, seen := true }, false) := by
  rw [State.portUp_face, State.hopUp, State.port_modPort_same ((s.isBack far).used 1) hp]
  exact Port.comesUp_face _ _ _ _ _ _

theorem State.portUp_face_ne (s : State) {p k : Nat} (hk : k ≠ p) (far spanned lanes : Nat) :
    ((s.portUp p far spanned lanes).port k).face = (s.port k).face := by
  rw [State.portUp_face, State.hopUp, State.port_modPort_ne _ hk]
  rfl

/-- Beside ports, who is gone, free values, counters and the parent port nothing changes. -/
theorem State.portUp_aside (hreg : RegFree f) (hring : ∀ (s : State) p g, f { s with ring := { s.ring with ports := p, gone := g } } = f s)
    (hfree : ∀ (s : State) c, f { s with freeCtr := c } = f s) (hthy : ∀ (s : State) x, f { s with thy := { s.thy with parent := x } } = f s)
    (s : State) (p far spanned lanes : Nat) : f (s.portUp p far spanned lanes) = f s := by
  have port (u : State) (p : Nat) (g : Port → Port) : f (u.modPort p g) = f u := hring u _ u.ring.gone
  have back (u : State) (a : Nat) : f (u.isBack a) = f u := hring u u.ring.ports _
  have used (u : State) (n : Nat) : f (u.used n) = f u := hfree u _
  exact (State.portUp_keeps hreg (fun u p y => port u p _) (fun u p => port u p _) hthy s p far spanned lanes).trans ((port _ _ _).trans ((used _ _).trans (back s far)))

/-! ### A ring hop has trained (R336, R337) -/

/-- A position that was the far end `q` had and is now skipped is reported lost. -/
def State.skipped (s : State) (p : Nat) (q : Port) (d : Nat) : State := if q.seen && s.along p q.far < d then s.report q.far 0x71 else s

theorem ReportStable.skipped {P : State → Prop} (hP : ReportStable P) {s : State} (hs : P s) (p : Nat) (q : Port) (d : Nat) : P (s.skipped p q d) :=
  ReportStable.onlyIf hs (hP.report _ _ hs)

theorem State.skipped_face (s : State) (p : Nat) (q : Port) (d k : Nat) : ((s.skipped p q d).port k).face = (s.port k).face :=
  (reportStable_face k _).skipped rfl p q d

theorem State.skipped_arrays (s : State) (p : Nat) (q : Port) (d : Nat) : (s.skipped p q d).arrays = s.arrays :=
  keeps_onlyIf (f := State.arrays) (s.report_arrays _ _)

/-- What a report leaves of the host interface, the pair and the wait for a ring's phase. -/
theorem reportStable_duty (v : HostIf × Bool × Bool) : ReportStable fun s => (s.host, s.thy.adopt, s.mir.paired) = v where
  notes _ _ _ _ h := h
  bump {s} a n _ _ h := (RegFree.bump (f := fun u : State => (u.host, u.thy.adopt, u.mir.paired)) (fun _ _ => rfl) s a n).trans h
  setBits _ _ _ h := h
  thy {s} _ hx h := (congrArg (fun b => (s.host, b, s.mir.paired)) hx).trans h
  mem _ _ h := h
  survives h := h
  eccAt _ h := h
  sendFrame _ _ h := h
  release _ _ _ h := h
  merges _ h := h
  filter _ h := h
  gone _ h := h

theorem State.skipped_pendingIs (s : State) (p : Nat) (q : Port) (d n : Nat) : (s.skipped p q d).pendingIs n = s.pendingIs n :=
  congrArg (fun v : HostIf × Bool × Bool => v.1.pendingCmd.any fun c : PendingCmd => c.opcode == n) ((reportStable_duty (s.host, s.thy.adopt, s.mir.paired)).skipped rfl p q d)

theorem State.skipped_adopt (s : State) (p : Nat) (q : Port) (d : Nat) : (s.skipped p q d).thy.adopt = s.thy.adopt :=
  congrArg (fun v : HostIf × Bool × Bool => v.2.1) ((reportStable_duty (s.host, s.thy.adopt, s.mir.paired)).skipped rfl p q d)

theorem State.skipped_heldDown (s : State) (p : Nat) (q : Port) (d k : Nat) : ((s.skipped p q d).port k).heldDown = (s.port k).heldDown :=
  congrArg (fun v : Port × Bool => v.1.heldDown) (s.skipped_face p q d k)

theorem State.skipped_unacked (s : State) (p : Nat) (q : Port) (d : Nat) : (s.skipped p q d).flt.unacked = s.flt.unacked :=
  keeps_onlyIf (f := fun u : State => u.flt.unacked) (s.report_unacked _ _)

theorem State.ringTrained_near {s : State} {p far : Nat} (h : s.along p far ≤ 3) (lanes : Nat) : s.ringTrained p far lanes =
    ((s.portUp p far (s.along p far - 1) lanes).skipped p (s.port p) (s.along p far)).finishJoin := if_neg (by omega)

/-- A hop that spans too many positions is held down, unless it is so already. -/
theorem State.ringTrained_far {s : State} {p far : Nat} (h : 4 ≤ s.along p far) (hheld : (s.port p).heldDown = false) (lanes : Nat) : s.ringTrained p far lanes =
    ((s.modPort p fun q => { q with far := far, spanned := s.along p far - 1, seen := true }).ringBreak p).skipped p (s.port p) (s.along p far) :=
  (if_pos (by omega)).trans (if_neg (by rw [hheld]; exact Bool.false_ne_true))

/-! ### JOIN_RING goes on (R246, R396) -/

theorem State.finishJoin_keeps (hf : ∀ (s : State) c x r, f { s with freeCtr := c, thy := { s.thy with lead := x, adopt := true }, ring := { s.ring with joined := true, gone := r } } = f s)
    (s : State) : f s.finishJoin = f s := keeps_onlyIf (hf s _ _ _)

/-- The largest delay of the module's own hops, in periods. -/
def State.ownDelay (s : State) : Nat := ([0, 1, 2, 3].map fun p => nsPeriods (s.port p).delay).foldl max 0

theorem State.delay_le_ownDelay (s : State) {q : Nat} (hq : q < 4) : nsPeriods (s.port q).delay ≤ s.ownDelay := by
  simp only [State.ownDelay, List.map_cons, List.map_nil, List.foldl_cons, List.foldl_nil]
  obtain rfl | rfl | rfl | rfl : q = 0 ∨ q = 1 ∨ q = 2 ∨ q = 3 := by omega
  all_goals omega

/-- The module has its place in the ring, with a lead time that covers its own hops, and waits for the ring's phase. -/
theorem State.finishJoin_joins {s : State} (hpending : s.pendingIs 0x40 = true) (hadopt : s.thy.adopt = false) (hup : ∀ q, q < 4 → (s.port q).st = .up) :
    s.finishJoin.ring.joined = true ∧ s.finishJoin.pendingIs 0x40 = true ∧ s.finishJoin.thy.adopt = true ∧ 4 ≤ s.finishJoin.thy.lead ∧
      s.finishJoin.thy.lead ≤ 255 ∧ ∀ q, q < 4 → min 255 (nsPeriods (s.finishJoin.port q).delay + 2) ≤ s.finishJoin.thy.lead := by
  have all : (s.pendingIs 0x40 && !s.thy.adopt && [0, 1, 2, 3].all (fun p => (s.port p).st == .up)) = true := by
    simp [hpending, hadopt, hup]
  have lead : s.finishJoin.thy.lead = min 255 (max 4 (max s.ownDelay (s.freeWord.toNat % 256) + 2)) := congrArg (fun u : State => u.thy.lead) (if_pos all)
  have ports (q : Nat) : s.finishJoin.port q = s.port q := State.finishJoin_keeps (f := fun u => u.port q) (fun _ _ _ _ => rfl) s
  refine ⟨congrArg (fun u : State => u.ring.joined) (if_pos all), ?_, congrArg (fun u : State => u.thy.adopt) (if_pos all), ?_, ?_, fun q hq => ?_⟩
  · exact (State.finishJoin_keeps (f := fun u => u.pendingIs 0x40) (fun _ _ _ _ => rfl) s).trans hpending
  · rw [lead]
    omega
  · rw [lead]
    omega
  · have own := s.delay_le_ownDelay hq
    rw [lead, ports]
    omega

/-! ### TRAIN frames on a ring hop (R315, R336) -/

theorem exec_trainFrame_not {p far : Nat} {lanes : BitVec 18} {s : State} (h : 5 ≤ p ∨ (s.port p).st ≠ .training) : exec (.trainFrame p far lanes) s = .next s := by
  have down : (decide (5 ≤ p) || (s.port p).st != .training) = true := by simpa using h
  show execTrainFrame p far lanes s = _
  unfold execTrainFrame
  exact if_pos down

/-- The lanes that are good at both ends. -/
def goodLanes (lanes : BitVec 18) (q : Port) (total : Nat) : List Nat := (List.range total).filter fun i => lanes.getLsbD i && !q.bad.testBit i

/-- The lanes in use of those. -/
def usedLanes (lanes : BitVec 18) (q : Port) (total need : Nat) : Nat := ((goodLanes lanes q total).take need).foldl (fun (m i : Nat) => m ||| 2 ^ i) 0

theorem exec_trainFrame_ring {p far : Nat} {lanes : BitVec 18} {s : State} (hp : p < 4) (hst : (s.port p).st = .training)
    (hgood : 16 ≤ (goodLanes lanes (s.port p) 18).length) :
    exec (.trainFrame p far lanes) s = .next ((s.trainPort p).ringTrained p far (usedLanes lanes (s.port p) 18 16)) := by
  have count : laneCount p = (18, 16) := if_neg (by simpa using Nat.ne_of_lt hp)
  have training : (decide (5 ≤ p) || (s.port p).st != .training) = false := by
    have h5 : ¬ 5 ≤ p := by omega
    simp [hst, h5]
  have few : ¬ ((List.range 18).filter fun i => lanes.getLsbD i && !(s.port p).bad.testBit i).length < 16 := Nat.not_lt.2 hgood
  have other : ¬ (p == 4) = true := by simpa using Nat.ne_of_lt hp
  show execTrainFrame p far lanes s = _
  simp only [execTrainFrame, count, training, few, other, Bool.false_eq_true, if_false]
  rfl

theorem exec_trainFrame_mirror {far : Nat} {lanes : BitVec 18} {s : State} (hst : (s.port 4).st = .training)
    (hgood : 8 ≤ (goodLanes lanes (s.port 4) 9).length) :
    exec (.trainFrame 4 far lanes) s = .next ((s.trainPort 4).mirrorTrained far (usedLanes lanes (s.port 4) 9 8)) := by
  have training : (decide (5 ≤ 4) || (s.port 4).st != .training) = false := by simp [hst]
  have few : ¬ ((List.range 9).filter fun i => lanes.getLsbD i && !(s.port 4).bad.testBit i).length < 8 := Nat.not_lt.2 hgood
  show execTrainFrame 4 far lanes s = _
  have count : laneCount 4 = (9, 8) := rfl
  simp only [execTrainFrame, count, training, few, Bool.false_eq_true, if_false]
  rfl

section
variable {p far : Nat} {lanes : BitVec 18} {s : State} (hp : p < 4) (hst : (s.port p).st = .training)
  (hgood : 16 ≤ (goodLanes lanes (s.port p) 18).length)
include hp hst hgood

/-- The port is up, the far end in its place. -/
def State.hopTrained (s : State) (p far lanes : Nat) : State :=
  ((s.trainPort p).portUp p far (s.along p far - 1) lanes).skipped p ((s.trainPort p).port p) (s.along p far)

omit hp hgood in
theorem State.hopTrained_face (far lanes : Nat) :
    ((s.hopTrained p far lanes).port p).face = ({ Port.reset with st := .up, far := far, spanned := s.along p far - 1, seen := true }, false) :=
  (State.skipped_face _ _ _ _ _).trans (State.portUp_face_same (by rw [State.trainPort_length]; exact State.lt_of_alive (.inr hst)) _ _ _)

omit hp hst hgood in
theorem State.hopTrained_face_ne {q : Nat} (hq : q ≠ p) (far lanes : Nat) : ((s.hopTrained p far lanes).port q).face = (s.port q).face :=
  (State.skipped_face _ _ _ _ _).trans ((State.portUp_face_ne _ hq _ _ _).trans (congrArg Port.face (s.trainPort_ne hq)))

omit hp hst hgood in
theorem State.hopTrained_arrays (far lanes : Nat) : (s.hopTrained p far lanes).arrays = s.arrays :=
  (State.skipped_arrays _ _ _ _).trans (State.portUp_aside (f := State.arrays) (fun _ _ => rfl) (fun _ _ _ => rfl) (fun _ _ => rfl) (fun _ _ => rfl) _ _ _ _ _)

theorem exec_trainFrame_near (hnear : s.along p far ≤ 3) :
    exec (.trainFrame p far lanes) s = .next (s.hopTrained p far (usedLanes lanes (s.port p) 18 16)).finishJoin :=
  (exec_trainFrame_ring hp hst hgood).trans (congrArg Host.Outcome.next (State.ringTrained_near (s := s.trainPort p) hnear _))

end

section
variable {p far : Nat} {lanes : BitVec 18} {s : State} (hp : p < 4) (hst : (s.port p).st = .training)
  (hgood : 16 ≤ (goodLanes lanes (s.port p) 18).length)
include hp hst hgood

omit hp hst hgood in
theorem State.hopTrained_duty (p far lanes : Nat) : (s.hopTrained p far lanes).pendingIs 0x40 = s.pendingIs 0x40 ∧
    (s.hopTrained p far lanes).thy.adopt = s.thy.adopt := by
  have up := fun {β : Type} (g : State → β) => State.portUp_aside (f := g) (s := s.trainPort p) (p := p) (far := far) (spanned := s.along p far - 1) (lanes := lanes)
  exact ⟨(State.skipped_pendingIs _ _ _ _ _).trans (up (fun u => u.pendingIs 0x40) (fun _ _ => rfl) (fun _ _ _ => rfl) (fun _ _ => rfl) fun _ _ => rfl),
    (State.skipped_adopt _ _ _ _).trans (up (fun u => u.thy.adopt) (fun _ _ => rfl) (fun _ _ _ => rfl) (fun _ _ => rfl) fun _ _ => rfl)⟩

theorem exec_trainFrame_comesUp (hnear : s.along p far ≤ 3) : ∃ t, exec (.trainFrame p far lanes) s = .next t ∧ (t.port p).st = .up ∧ (t.port p).far = far ∧
    (t.port p).spanned = s.along p far - 1 ∧ (t.port p).heldDown = false ∧ (t.port p).dark = false ∧ t.arrays = s.arrays ∧
    (s.pendingIs 0x40 = true → s.thy.adopt = false → (∀ q, q < 4 → q ≠ p → (s.port q).st = .up) →
      t.ring.joined = true ∧ t.pendingIs 0x40 = true ∧ t.thy.adopt = true ∧ 4 ≤ t.thy.lead ∧ t.thy.lead ≤ 255 ∧
      (∀ q, q < 4 → min 255 (nsPeriods (t.port q).delay + 2) ≤ t.thy.lead)) := by
  have ports (u : State) (q : Nat) : u.finishJoin.port q = u.port q := State.finishJoin_keeps (f := fun v => v.port q) (fun _ _ _ _ => rfl) u
  have arrays (u : State) : u.finishJoin.arrays = u.arrays := State.finishJoin_keeps (f := State.arrays) (fun _ _ _ _ => rfl) u
  have face := State.hopTrained_face hst far (usedLanes lanes (s.port p) 18 16)
  have st := congrArg (fun v : Port × Bool => v.1.st) face
  refine ⟨_, exec_trainFrame_near hp hst hgood hnear, ?_, ?_, ?_, ?_, ?_, (arrays _).trans (State.hopTrained_arrays _ _), fun hpending hadopt hup => ?_⟩
  · rw [ports]
    exact st
  · rw [ports]
    exact congrArg (fun v : Port × Bool => v.1.far) face
  · rw [ports]
    exact congrArg (fun v : Port × Bool => v.1.spanned) face
  · rw [ports]
    exact congrArg (fun v : Port × Bool => v.1.heldDown) face
  · rw [ports]
    exact congrArg Prod.snd face
  · obtain ⟨pending, adopt⟩ := s.hopTrained_duty p far (usedLanes lanes (s.port p) 18 16)
    refine State.finishJoin_joins (pending.trans hpending) (adopt.trans hadopt) fun q hq => ?_
    by_cases hqp : q = p
    · rw [hqp]
      exact st
    · exact (congrArg (fun v : Port × Bool => v.1.st) (State.hopTrained_face_ne hqp far _)).trans (hup q hq hqp)

omit hp hst hgood in
/-- A hop that spans too many positions is held down. -/
theorem State.ringTrained_held {p far : Nat} {s : State} (hp : p < s.ring.ports.length) (hfar : 4 ≤ s.along p far) (hheld : (s.port p).heldDown = false)
    (lanes : Nat) : ((s.ringTrained p far lanes).port p).heldDown = true ∧ (s.ringTrained p far lanes).flt.unacked = true := by
  obtain ⟨hdown, -, -, hunacked, -⟩ := State.ringBreak_outcome (p := p)
    (s := s.modPort p fun q => { q with far := far, spanned := s.along p far - 1, seen := true }) (by rwa [State.length_modPort])
  rw [State.ringTrained_far hfar hheld, State.skipped_heldDown, State.skipped_unacked]
  exact ⟨hdown, hunacked⟩

theorem exec_trainFrame_far (hfar : 4 ≤ s.along p far) (hheld : (s.port p).heldDown = false) : ∃ t, exec (.trainFrame p far lanes) s = .next t ∧
    (t.port p).heldDown = true ∧ t.flt.unacked = true := by
  have length : p < (s.trainPort p).ring.ports.length := by
    rw [State.trainPort_length]
    exact State.lt_of_alive (.inr hst)
  obtain ⟨w, hport, -⟩ := State.trainPort_port (State.lt_of_alive (.inr hst))
  have held : ((s.trainPort p).port p).heldDown = false := by
    rw [hport]
    exact hheld
  exact ⟨_, exec_trainFrame_ring hp hst hgood, State.ringTrained_held length (s := s.trainPort p) hfar held _⟩

end

end Sys2Proof.Machine
end

section
/-! Training of the M Bay, and ports that do not train (R315, R342, R353, R396); the third part of O46. -/

namespace Sys2Proof.Machine

variable {α : Type} {f : State → α}

/-! ### A loopback makes the survivor (R353) -/

/-- A survivor is marked as one (R345, R353). -/
def State.survivorMarked (s : State) : Prop := s.regsSorted ∧ (s.mir.survivor = true → (s.reg Reg.MIR_STATUS).getLsbD 5 = true)

theorem State.setBits_keeps_bit {s : State} (hs : s.regsSorted) (a m : Nat) {i : Nat} (h : (s.reg Reg.MIR_STATUS).getLsbD i = true) :
    ((s.setBits a m).reg Reg.MIR_STATUS).getLsbD i = true := by
  by_cases ha : Reg.MIR_STATUS = a
  · rw [← ha, State.reg_setBits_same _ _ _ hs]
    simp [h]
  · rw [State.reg_setBits_ne _ _ _ _ ha]
    exact h

theorem State.survivorMarked_survives {s : State} (hs : s.regsSorted) :
    (({ s with mir := { s.mir with survivor := true } } : State).setBits Reg.MIR_STATUS 0x20).survivorMarked := by
  refine ⟨State.setBits_regsSorted (s := { s with mir := { s.mir with survivor := true } }) hs _ _, fun _ => ?_⟩
  rw [State.reg_setBits_same _ _ _ (show State.regsSorted { s with mir := { s.mir with survivor := true } } from hs)]
  simp

theorem reportStable_survivorMarked : ReportStable State.survivorMarked where
  notes _ _ _ _ h := h
  bump {s} a n _ ha h := by
    obtain ⟨hs, marked⟩ := h
    refine ⟨State.bump_regsSorted hs a n, fun hsurv => ?_⟩
    rw [State.reg_bump_ne _ _ _ _ (Ne.symm ha)]
    exact marked ((congrArg Mirror.survivor (RegFree.bump (f := State.mir) (fun _ _ => rfl) s a n)).symm.trans hsurv)
  setBits {s} a m _ h := by
    obtain ⟨hs, marked⟩ := h
    exact ⟨State.setBits_regsSorted hs a m, fun hsurv => s.setBits_keeps_bit hs a m (marked hsurv)⟩
  thy _ _ h := h
  mem _ _ h := h
  survives h := State.survivorMarked_survives h.1
  eccAt _ h := h
  sendFrame _ _ h := h
  release _ _ _ h := h
  merges _ h := h
  filter _ h := h
  gone _ h := h

theorem reportStable_survivor : ReportStable fun s => s.mir.survivor = true where
  notes _ _ _ _ h := h
  bump {s} a n _ _ h := (congrArg Mirror.survivor (RegFree.bump (f := State.mir) (fun _ _ => rfl) s a n)).trans h
  setBits _ _ _ h := h
  thy _ _ h := h
  mem _ _ h := h
  survives _ := rfl
  eccAt _ h := h
  sendFrame _ _ h := h
  release _ _ _ h := h
  merges _ h := h
  filter _ h := h
  gone _ h := h

/-- The twin of a pair is lost: the module is the survivor. -/
theorem State.twinLost_survivor {s : State} (hpair : s.mir.paired = true) : s.twinLost.mir.survivor = true := by
  cases hsurv : s.mir.survivor
  case true => exact reportStable_survivor.twinLost hsurv
  case false =>
    have lost : (s.mir.paired && !s.mir.survivor) = true := by rw [hpair, hsurv, Bool.not_false, Bool.and_true]
    rw [State.twinLost, if_pos lost]
    exact reportStable_survivor.sendRebinds _ (reportStable_survivor.postEvent _ _ _ _ rfl)

theorem State.report_paired (s : State) (a c : Nat) : (s.report a c).mir.paired = s.mir.paired :=
  congrArg (fun v : HostIf × Bool × Bool => v.2.2) ((reportStable_duty (s.host, s.thy.adopt, s.mir.paired)).report a c rfl)

/-- A module that hears itself in a pair has lost its twin. -/
theorem State.mirrorTrained_self {s : State} (hpair : s.mir.paired = true) (hsurv : s.mir.survivor = false) (lanes : Nat) :
    s.mirrorTrained s.ring.addr lanes = (s.report s.mir.twin 0x71).twinLost := by
  have own : (s.ring.addr == s.ring.addr) = true := beq_self_eq_true _
  have lost : (s.mir.paired && !s.mir.survivor) = true := by rw [hpair, hsurv, Bool.not_false, Bool.and_true]
  rw [State.mirrorTrained, if_pos own, if_pos lost]

theorem State.mirrorTrained_survivor {s : State} (hs : s.regsSorted) (hpair : s.mir.paired = true) (hsurv : s.mir.survivor = false) (lanes : Nat) :
    (s.mirrorTrained s.ring.addr lanes).mir.survivor = true ∧ ((s.mirrorTrained s.ring.addr lanes).reg Reg.MIR_STATUS).getLsbD 5 = true := by
  rw [State.mirrorTrained_self hpair hsurv]
  have survivor := State.twinLost_survivor ((s.report_paired s.mir.twin 0x71).trans hpair)
  obtain ⟨-, marked⟩ := reportStable_survivorMarked.twinLost (reportStable_survivorMarked.report s.mir.twin 0x71 ⟨hs, fun h => absurd (hsurv.symm.trans h) nofun⟩)
  exact ⟨survivor, marked survivor⟩

/-! ### The M Bay trains with the twin -/

theorem State.mirrorTrained_twin {s : State} (hown : s.mir.twin ≠ s.ring.addr) (hpending : s.pendingIs 0x41 = false) (lanes : Nat) :
    s.mirrorTrained s.mir.twin lanes = s.portUp 4 s.mir.twin 0 lanes := by
  have none : (s.portUp 4 s.mir.twin 0 lanes).pendingIs 0x41 = false :=
    (State.portUp_aside (f := fun u => u.pendingIs 0x41) (fun _ _ => rfl) (fun _ _ _ => rfl) (fun _ _ => rfl) (fun _ _ => rfl) _ _ _ _ _).trans hpending
  have pair : (s.portUp 4 s.mir.twin 0 lanes).finishPair s.mir.twin = s.portUp 4 s.mir.twin 0 lanes := if_pos (by rw [none]; rfl)
  simp only [State.mirrorTrained, beq_eq_false_iff_ne.2 hown, hpending, Bool.false_eq_true, if_false, bne_self_eq_false, pair]

theorem exec_trainFrame_loopback {lanes : BitVec 18} {s : State} (hst : (s.port 4).st = .training) (hgood : 8 ≤ (goodLanes lanes (s.port 4) 9).length)
    (hs : s.regsSorted) (hpair : s.mir.paired = true) (hsurv : s.mir.survivor = false) : ∃ t, exec (.trainFrame 4 s.ring.addr lanes) s = .next t ∧
      t.mir.survivor = true ∧ (t.reg Reg.MIR_STATUS).getLsbD 5 = true := by
  obtain ⟨survivor, marked⟩ := State.mirrorTrained_survivor (s := s.trainPort 4) hs hpair hsurv (usedLanes lanes (s.port 4) 9 8)
  exact ⟨_, exec_trainFrame_mirror hst hgood, survivor, marked⟩

theorem exec_trainFrame_twin {lanes : BitVec 18} {s : State} (hst : (s.port 4).st = .training) (hgood : 8 ≤ (goodLanes lanes (s.port 4) 9).length)
    (hown : s.mir.twin ≠ s.ring.addr) (hpending : s.pendingIs 0x41 = false) : ∃ t, exec (.trainFrame 4 s.mir.twin lanes) s = .next t ∧
      t.mem = s.mem ∧ t.arrays = s.arrays ∧ t.mir = s.mir ∧ t.flt = s.flt ∧ (t.port 4).st = .up ∧ (t.port 4).far = s.mir.twin := by
  have effect := (exec_trainFrame_mirror hst hgood).trans (congrArg Host.Outcome.next (State.mirrorTrained_twin (s := s.trainPort 4) hown hpending _))
  have face := State.portUp_face_same (s := s.trainPort 4) (by rw [State.trainPort_length]; exact State.lt_of_alive (.inr hst)) s.mir.twin 0 (usedLanes lanes (s.port 4) 9 8)
  have aside := fun {β : Type} (g : State → β) => State.portUp_aside (f := g) (s := s.trainPort 4) (p := 4) (far := s.mir.twin) (spanned := 0) (lanes := usedLanes lanes (s.port 4) 9 8)
  exact ⟨_, effect, aside State.mem (fun _ _ => rfl) (fun _ _ _ => rfl) (fun _ _ => rfl) fun _ _ => rfl,
    aside State.arrays (fun _ _ => rfl) (fun _ _ _ => rfl) (fun _ _ => rfl) fun _ _ => rfl,
    aside State.mir (fun _ _ => rfl) (fun _ _ _ => rfl) (fun _ _ => rfl) fun _ _ => rfl,
    aside State.flt (fun _ _ => rfl) (fun _ _ _ => rfl) (fun _ _ => rfl) fun _ _ => rfl,
    congrArg (fun v : Port × Bool => v.1.st) face, congrArg (fun v : Port × Bool => v.1.far) face⟩

/-! ### A port does not train (R342, R396) -/

theorem State.pendingIs_iff {s : State} {c : PendingCmd} (h : s.host.pendingCmd = some c) (op : Nat) : s.pendingIs op = (c.opcode == op) := by
  rw [State.pendingIs, h]
  rfl

theorem State.finalReply_hostMem {s : State} {c : PendingCmd} (h : s.host.pendingCmd = some c) (hl : s.hostLink = true) (st ft d : Nat) (l : List Byte) :
    (s.finalReply st ft d l).hostMem = memPut s.hostMem (c.hdr.replyAddr + 256) (replyBytes c.hdr c.opcode st ft s.period d l) := by
  simp only [State.finalReply, h, State.bump_hostMem]
  exact State.putReply_hostMem _ _ _ _ _ _ _ hl

/-- A command that waited on its Bays is refused, with the Bays set anew. -/
theorem State.refusedBays {s : State} {c : PendingCmd} (h : s.host.pendingCmd = some c) (x y m : Bool) (code : Nat) :
    let t := (s.setBays x y m).finalReply Status.refused code 0 []
    t.host.pendingCmd = none ∧ t.ring.bayX = x ∧ t.ring.bayY = y ∧ t.ring.bayM = m ∧ t.arrays = s.arrays ∧
      (s.hostLink = true → t.hostMem = memPut s.hostMem (c.hdr.replyAddr + 256) (replyBytes c.hdr c.opcode 2 code s.period 0 [])) := by
  intro t
  have set := fun {β : Type} (g : State → β) (hg : BayFree g) => hg.setBays s x y m
  have pending : (s.setBays x y m).host.pendingCmd = some c := (set (fun u => u.host.pendingCmd) (.of_unread (fun _ _ _ _ _ => rfl) (fun _ _ => rfl) fun _ _ => rfl)).trans h
  have link := set State.hostLink (.of_unread (fun _ _ _ _ _ => rfl) (fun _ _ => rfl) fun _ _ => rfl)
  have mem := set State.hostMem (.of_unread (fun _ _ _ _ _ => rfl) (fun _ _ => rfl) fun _ _ => rfl)
  have period := set State.period (.of_unread (fun _ _ _ _ _ => rfl) (fun _ _ => rfl) fun _ _ => rfl)
  have ring : t.ring = (s.setBays x y m).ring := AnswerFree.finalReply (f := State.ring) ⟨fun _ _ _ _ => rfl, fun _ _ => rfl⟩ _ _ _ _ _
  have arrays : t.arrays = (s.setBays x y m).arrays := AnswerFree.finalReply (f := State.arrays) ⟨fun _ _ _ _ => rfl, fun _ _ => rfl⟩ _ _ _ _ _
  obtain ⟨hx, hy, hm⟩ := s.setBays_bays x y m
  refine ⟨State.finalReply_none _ _ _ _ _, (congrArg Ring.bayX ring).trans hx, (congrArg Ring.bayY ring).trans hy, (congrArg Ring.bayM ring).trans hm,
    arrays.trans (set State.arrays (.of_unread (fun _ _ _ _ _ => rfl) (fun _ _ => rfl) fun _ _ => rfl)), fun hl => ?_⟩
  rw [State.finalReply_hostMem pending (link.trans hl), mem, period]

section
variable {p : Nat} {s : State} {c : PendingCmd} (hst : (s.port p).st ≠ .up) (h : s.host.pendingCmd = some c)
include hst h

omit h in
theorem portUp_or_far (hp : p < 5) : (decide (5 ≤ p) || (s.port p).st == .up) = false := by
  have h5 : ¬ 5 ≤ p := by omega
  simpa [h5] using hst

theorem exec_portTrainTimeout_join (hp : p < 4) (hop : c.opcode = 0x40) : ∃ t, exec (.portTrainTimeout p) s = .next t ∧ t.host.pendingCmd = none ∧
    t.ring.addr = c.arg / 65536 ∧ t.ring.bayX = false ∧ t.ring.bayY = false ∧ t.arrays = s.arrays ∧
    (s.hostLink = true → t.hostMem = memPut s.hostMem (c.hdr.replyAddr + 256) (replyBytes c.hdr 0x40 2 0x70 s.period 0 [])) := by
  obtain ⟨pending, hx, hy, -, arrays, mem⟩ := State.refusedBays h false false s.ring.bayM 0x70
  rw [hop] at mem
  have waits : (decide (p < 4) && s.pendingIs 0x40) = true := by
    rw [State.pendingIs_iff h, hop, decide_eq_true hp]
    rfl
  have arg : (s.host.pendingCmd.map (·.arg)).getD 0 = c.arg := by rw [h]; rfl
  refine ⟨_, (if_neg ?_).trans (if_pos waits), pending, congrArg (· / 65536) arg, hx, hy, arrays, mem⟩
  rw [portUp_or_far hst (by omega)]
  exact Bool.false_ne_true

theorem exec_portTrainTimeout_pair (hp : p = 4) (hop : c.opcode = 0x41) : ∃ t, exec (.portTrainTimeout p) s = .next t ∧ t.host.pendingCmd = none ∧
    t.ring.bayM = false ∧ t.ring.bayX = s.ring.bayX ∧ t.arrays = s.arrays ∧
    (s.hostLink = true → t.hostMem = memPut s.hostMem (c.hdr.replyAddr + 256) (replyBytes c.hdr 0x41 2 0x81 s.period 0 [])) := by
  obtain ⟨pending, hx, -, hm, arrays, mem⟩ := State.refusedBays h s.ring.bayX s.ring.bayY false 0x81
  rw [hop] at mem
  have waits : (p == 4 && s.pendingIs 0x41) = true := by
    rw [State.pendingIs_iff h, hop, hp]
    rfl
  have ring : (decide (p < 4) && s.pendingIs 0x40) = false := by rw [hp]; rfl
  refine ⟨_, (if_neg ?_).trans ((if_neg ?_).trans (if_pos waits)), pending, hm, hx, arrays, mem⟩
  · rw [portUp_or_far hst (by omega)]
    exact Bool.false_ne_true
  · rw [ring]
    exact Bool.false_ne_true

end

/-- Settles O46: a hop's state is a face of its port that neither frames nor reports change, so that breaks, lanes and training show in it whatever they report; a port's coming up leaves what waits for JOIN_RING and PAIR. -/
theorem hopsAndPorts : Obligations.HopsAndPorts := by
  unfold Obligations.HopsAndPorts
  refine ⟨⟨fun p s hp hst => exec_lightLoss_trains hp hst, ?lanes, fun p s hp hdark hst hheld => exec_breakTimeout_breaks hp hdark hst hheld⟩,
    fun p far lanes s h => exec_trainFrame_not h, ?ring, ?mirror, ?timeout⟩
  case lanes =>
    intro p lane ce ue lost s hp hlane hst hbad
    refine ⟨fun hlost hue => exec_laneFailure_counts hp hlane hst hbad hlost hue, fun hfail => ⟨fun henough hunused => ?_, fun i hs henough hused hspare => ?_, fun hfew => ?_⟩⟩
    · exact exec_laneFailure_unused hp hlane hst hbad hfail henough hunused
    · exact exec_laneFailure_swaps hp hlane hst hbad hfail hs henough hused hspare
    · exact exec_laneFailure_fails hp hlane hst hbad hfail hfew
  case ring =>
    intro p far lanes s hp hst hgood
    exact ⟨exec_trainFrame_comesUp hp hst hgood, exec_trainFrame_far hp hst hgood⟩
  case mirror =>
    intro far lanes s hst hgood
    refine ⟨fun hs hfar hpair hsurv => ?_, fun hown hpending hfar => ?_⟩
    · subst hfar
      exact exec_trainFrame_loopback hst hgood hs hpair hsurv
    · subst hfar
      exact exec_trainFrame_twin hst hgood hown hpending
  case timeout =>
    intro p s c hst h
    exact ⟨exec_portTrainTimeout_join hst h, exec_portTrainTimeout_pair hst h⟩

end Sys2Proof.Machine
end

section
/-! A journal copy whose entry lies in blocks that do not correct (R217, R348); O28. -/

namespace Sys2Proof.Machine

/-- A write that lies in parts of two blocks, neither of which corrects, lands nowhere and faults (R217). -/
theorem State.putMem_unmergeable_both {s : State} {a : Nat} {bs : List Byte} (hfar : s.tiers.soft = []) (hnear : s.tiers.nearSoft = [])
    (hbad : s.unmergeable a bs.length = [a / 2048, a / 2048 + 1]) (hin : (a + bs.length - 1) / 2048 = a / 2048 + 1) :
    s.putMem a bs = s.raise (s.mergeFault a bs.length (a / 2048)) := by
  have nothing : min (a + bs.length) ((a / 2048 + 1) * 2048) - max a ((a / 2048 + 1) * 2048) = 0 := by omega
  simp [State.putMem, State.corrected_of_no_errors hfar hnear, hbad, hin, nothing, State.putPlain, State.mergeFault]

/-- The module of `State.badBlock`, with a journal region at 0x480010 whose first two blocks do not correct, and a write of step 0 to block 0 that waits for its journal copy. -/
def State.journalling (v : Byte) : State :=
  { State.badBlock v with
    tiers := { State.reset.tiers with
      regions := [⟨0x400000, 0x100000, 5, 31, 7, 0⟩, ⟨0x480010, 0x2000, 4, 0, 0, 0⟩]
      bad := [0x480000 / 2048, 0x480000 / 2048 + 1] }
    mir := { Mirror.reset with desc := some ⟨false, true, 1, [], [], [], 0⟩, jrnWait := [(0, 0)] } }

/-- The module meets the invariant. -/
theorem State.journalling_inv (v : Byte) : (State.journalling v).InvTo 0 := { State.badBlock_inv v with }

/-- The module with the entry in its list, before the write to the journal region. -/
def State.journalled (v : Byte) : State :=
  (State.journalling v).modGen 0 fun g => { g with entries := g.entries ++ [⟨0, 0, (State.journalling v).get 0 2048⟩] }

theorem State.journalled_inv (v : Byte) : (State.journalled v).InvTo 0 := (State.journalling_inv v).modGen

/-- The journal region lies behind the receive's buffer. -/
theorem State.journalling_place (v : Byte) :
    0x400000 < (State.journalling v).journalPlace.1 + journalEntry * (State.journalling v).journalFree :=
  show 0x400000 < 0x480010 + journalEntry * (State.journalling v).journalFree by omega

/-- The entry and its tag. -/
def State.journalBytes (v : Byte) : List Byte := memGet (State.journalling v).mem 0 2048 ++ journalTag 0 0

theorem State.journalling_copies (v : Byte) : (State.journalling v).enterJournal 0 0 = (State.journalled v).putMem 0x480010 (State.journalBytes v) := rfl

theorem State.length_journalBytes (v : Byte) : (State.journalBytes v).length = 2080 := by
  simp [State.journalBytes, memGet, readFrom_length, journalTag, leBytes, zeros]

/-- The fault of the write. -/
def journalFault (v : Byte) : FaultRec := (State.journalled v).mergeFault 0x480010 2080 (0x480010 / 2048)

theorem State.journalled_fails : ∀ v ∈ [1#8, 2#8], (State.journalled v).unmergeable 0x480010 2080 = [0x480010 / 2048, 0x480010 / 2048 + 1] ∧
    (State.journalled v).losesRecv (journalFault v) loopMerge loopRecv ∧ memByte (State.journalling v).mem 0x400000 = v := by decide +kernel

/-- The copy can go: its block corrects, and there is room in the journal. -/
theorem State.journalling_goes : ∀ v ∈ [1#8, 2#8], (State.journalling v).hasBlock 0 0 = false ∧
    (State.journalling v).journalUsed + journalEntry ≤ (State.journalling v).journalSize ∧ (State.journalling v).eccBad 0 2048 = none := by decide +kernel

/-- The entry lands nowhere and faults, and the first byte of the receive's buffer is a free value. -/
theorem State.journalling_freeByte {v : Byte} (hv : v ∈ [1#8, 2#8]) :
    memByte ((State.journalling v).enterJournal 0 0).mem 0x400000 = Config.freeByte 0 := by
  obtain ⟨hbad, hloses, -⟩ := State.journalled_fails v hv
  have faults : (State.journalled v).putMem 0x480010 (State.journalBytes v) = (State.journalled v).raise (journalFault v) := by
    rw [State.putMem_unmergeable_both (by rfl) (by rfl) (by rw [State.length_journalBytes]; exact hbad) (by rw [State.length_journalBytes]), State.length_journalBytes,
      journalFault]
  have freed : memByte ((State.journalled v).raise (journalFault v)).mem loopRecv.buf = Config.freeByte 0 := State.raise_freesByte (State.journalled_inv v) hloses
  rw [State.journalling_copies, faults]
  exact freed

/-- The copy enters the journal, and no longer waits. -/
def State.journalCopied (s : State) (addr step : Nat) : State :=
  let t := (s.corrected [(addr, 2048)]).enterJournal addr step
  { t with mir := { t.mir with jrnWait := t.mir.jrnWait.erase (addr, step) } }

theorem exec_journalBlockCopy_enters {addr step : Nat} {s : State} (hwaits : (addr, step) ∈ s.mir.jrnWait) (hno : s.hasBlock step addr = false)
    (hroom : s.journalUsed + journalEntry ≤ s.journalSize) (hecc : s.eccBad addr 2048 = none) :
    exec (.journalBlockCopy addr step) s = .next (s.journalCopied addr step) := by
  have waits : (!s.mir.jrnWait.contains (addr, step) || s.hasBlock step addr) = false := by simp [hwaits, hno]
  show execJournalBlockCopy addr step s = _
  rw [execJournalBlockCopy, waits, if_neg Bool.false_ne_true, if_neg (Nat.not_lt.2 hroom), hecc]
  rfl

theorem State.journalCopied_mem {s : State} (hfar : s.tiers.soft = []) (hnear : s.tiers.nearSoft = []) (addr step : Nat) :
    (s.journalCopied addr step).mem = (s.enterJournal addr step).mem :=
  congrArg (fun u : State => (u.enterJournal addr step).mem) (State.corrected_of_no_errors hfar hnear _ _)

/-- O28 would keep that byte. -/
theorem State.journalling_kept (hall : Obligations.BackgroundCopies) {v : Byte} (hv : v ∈ [1#8, 2#8]) : Config.freeByte 0 = v := by
  obtain ⟨hcopies, -⟩ := hall
  obtain ⟨hno, hroom, hecc⟩ := State.journalling_goes v hv
  obtain ⟨-, -, hbyte⟩ := State.journalled_fails v hv
  have hwaits : (0, 0) ∈ (State.journalling v).mir.jrnWait := List.mem_singleton.2 rfl
  obtain ⟨t, ht, -, -, -, -, honly⟩ := hcopies 0 0 _ hwaits hno hroom hecc
  have memory : t.mem = ((State.journalling v).enterJournal 0 0).mem :=
    (congrArg State.mem (Host.Outcome.next.inj (ht.symm.trans (exec_journalBlockCopy_enters hwaits hno hroom hecc)))).trans
      (State.journalCopied_mem (by rfl) (by rfl) 0 0)
  have kept : memByte t.mem 0x400000 = memByte (State.journalling v).mem 0x400000 := honly nofun 0x400000 fun w hw => by
    rw [List.mem_singleton.1 hw]
    exact .inl (State.journalling_place v)
  rw [memory, State.journalling_freeByte hv, hbyte] at kept
  exact kept

/-- Refutes O28: where a journal entry lies in parts of blocks that do not correct, its write faults (R217), and in a running module the STOP report of the fault retires the receive of a context whose partner is the module itself, whose buffer becomes free values (R340); the statement lets no byte but the entry's change. The free value is the same for two modules that differ in the first byte of that buffer alone, so one of them refutes the frame. -/
theorem not_backgroundCopies : ¬ Obligations.BackgroundCopies := fun hall => freeByte_not_both fun _ hv => State.journalling_kept hall hv

end Sys2Proof.Machine
end

section
/-! Register accesses: what a write of each kind of register, a low-word read, GLB_STROBE and FLT_EQ_TAIL do (R402 to R412, R436); the first half of O49. -/

namespace Sys2Proof.Machine

/-! ### Register writes (R402, R406, R408, R411) -/

/-- A row outside the array block is written as its access kind says. -/
theorem State.writeReg_row {q : Requester} {off : Nat} {r : RegRow} {v : W32} {s : State} (hr : regRow off = some r) (ho : off < 0x100000 ∨ 0x540000 ≤ off) :
    ((r.acc = .ro ∨ r.acc = .sl ∨ r.acc = .slHi) → s.writeReg q off v = s) ∧
    (r.acc = .w1c → s.writeReg q off v = s.setReg off (s.reg off &&& ~~~(v &&& BitVec.ofNat 32 r.wmask &&& ~~~s.raisedNow off))) ∧
    ((r.acc = .rw ∨ r.acc = .slw ∨ r.acc = .slwHi) → s.writeReg q off v = s.writeShadow q off r v) := by
  have array : (decide (0x100000 ≤ off) && decide (off < 0x540000)) = false := by
    rw [Bool.and_eq_false_iff, decide_eq_false_iff_not, decide_eq_false_iff_not]
    omega
  simp only [State.writeReg, hr, array, Bool.false_and, Bool.false_eq_true, if_false]
  refine ⟨?_, fun h => by rw [h], ?_⟩
  · rintro (h | h | h) <;> rw [h]
  · rintro (h | h | h) <;> rw [h]

theorem exec_registerWrite_up {q : Requester} {off : Nat} {v : W32} {s : State} (hb : s.barUp = true) (hm : msixOffset off = false) :
    exec (.registerWrite q off (.word 0xF v)) s = .next (s.writeReg q off v) :=
  (exec_registerWrite_word hm).trans (congrArg Host.Outcome.next (if_pos hb))

/-- A write-1-to-clear write sets one register. -/
theorem State.setReg_outcome {s : State} (hs : s.regsSorted) (off : Nat) (v : W32) :
    s.setReg off v = { s with regs := { s.regs with vals := (s.setReg off v).regs.vals } } ∧ (s.setReg off v).reg off = v ∧
      ∀ o, o ≠ off → (s.setReg off v).reg o = s.reg o :=
  ⟨rfl, s.reg_setReg_same off v hs, fun o ho => s.reg_setReg_ne off o v ho⟩

/-- The shadow that a write leaves. -/
theorem State.putShadow_outcome {s : State} (hs : s.regs.shadows.Pairwise (fun x y => x.1 < y.1)) {off : Nat} (ho : off ≠ Reg.CAL_USER) (q : Requester) (v : W32) :
    s.putShadow q off v = { s with regs := { s.regs with shadows := (s.putShadow q off v).regs.shadows } } ∧ (s.putShadow q off v).shadow off = v ∧
      ∀ o, o ≠ off → (s.putShadow q off v).shadow o = s.shadow o := by
  have put : s.putShadow q off v = { s with regs := { s.regs with shadows := kvSet (s.regDefault off) s.regs.shadows off v } } :=
    if_neg fun h => ho (eq_of_beq h)
  rw [put]
  exact ⟨rfl, kvGet_kvSet_same _ _ _ _ hs, fun o h => kvGet_kvSet_ne _ _ _ _ _ h _⟩

theorem State.writeShadow_put {s : State} {off : Nat} {r : RegRow} {v : W32} (hst : s.strobing r.group = false) (href : s.strictRefuses off v = false)
    (q : Requester) : s.writeShadow q off r v = s.putShadow q off (v &&& BitVec.ofNat 32 r.wmask) :=
  (if_neg (by rw [hst]; exact Bool.false_ne_true)).trans (if_neg (by rw [href]; exact Bool.false_ne_true))

theorem exec_registerWrite_partial (q : Requester) (off : Nat) {e : BitVec 4} (he : e ≠ 0xF) (v : W32) (s : State) :
    exec (.registerWrite q off (.word e v)) s = .next s := by
  have differs : (e != 0xF#4) = true := bne_iff_ne.2 he
  have disabled : (!s.barUp || e != 0xF#4) = true := by rw [differs, Bool.or_true]
  exact congrArg Host.Outcome.next (if_pos disabled)

/-! ### A read of a low word (R404) -/

/-- The low word is read, and the high word latched. -/
def State.latched (s : State) (q : Requester) (off : Nat) : State := s.modRequester q fun r => { r with
  lastRead := s.readReg q off
  latches := kvSet 0 r.latches (off + 4) (BitVec.ofNat 32 (s.liveReg q (off + 4))) }

theorem exec_slLowRead_latches {q : Requester} {off : Nat} {r : RegRow} {s : State} (hb : s.barUp = true) (hr : regRow off = some r) (ha : r.acc = .sl ∨ r.acc = .slw) :
    exec (.slLowRead q off) s = .next (s.latched q off) := by
  have low : (r.acc == .sl || r.acc == .slw) = true := by
    rcases ha with h | h <;> rw [h] <;> rfl
  show execSlLowRead q off s = _
  simp only [execSlLowRead, hb, hr, low, Bool.not_true, Bool.false_eq_true, if_false, if_true]
  rfl

theorem State.latched_outcome {s : State} {q : Requester} (hs : (s.requester q).latches.Pairwise (fun x y => x.1 < y.1)) (off : Nat) :
    s.latched q off = { s with regs := { s.regs with host := (s.latched q off).regs.host, sage := (s.latched q off).regs.sage } } ∧
      ((s.latched q off).requester q).lastRead = s.readReg q off ∧
      kvGet 0#32 ((s.latched q off).requester q).latches (off + 4) = BitVec.ofNat 32 (s.liveReg q (off + 4)) := by
  cases q with
  | host => exact ⟨rfl, rfl, kvGet_kvSet_same _ _ _ _ hs⟩
  | sage => exact ⟨rfl, rfl, kvGet_kvSet_same _ _ _ _ hs⟩

/-! ### GLB_STROBE (R409, R410) -/

theorem arrays_lt_256 (g : Grade) : g.arrays < 256 := by cases g <;> decide

theorem State.groupBlocks_lt {s : State} {g b : Nat} (h : b ∈ s.groupBlocks g) : b < 256 := by
  unfold State.groupBlocks at h
  split at h
  · exact (List.mem_range.1 h).trans (arrays_lt_256 _)
  · split at h
    · simp only [List.mem_cons, List.not_mem_nil, or_false] at h
      omega
    · simp only [List.mem_cons, List.not_mem_nil, or_false] at h
      omega

/-- Each block of each named group that was not committing commits. -/
theorem State.mem_strobe (s : State) (v : W32) (c : Nat) : c ∈ (s.strobe v).regs.strobes ↔ c ∈ s.regs.strobes ∨
    (c / 256 < 8 ∧ v.getLsbD (c / 256) = true ∧ s.strobing (c / 256) = false ∧ c % 256 ∈ s.groupBlocks (c / 256)) := by
  simp only [State.strobe, List.mem_append, List.mem_flatMap, List.mem_filter, List.mem_range, List.mem_map, Bool.and_eq_true, Bool.not_eq_true']
  refine or_congr_right ⟨?_, fun ⟨hg, hv, hst, hb⟩ => ⟨c / 256, ⟨hg, hv, hst⟩, c % 256, hb, Nat.div_add_mod c 256⟩⟩
  rintro ⟨g, ⟨hg, hv, hst⟩, b, hb, rfl⟩
  have hlt := State.groupBlocks_lt hb
  have hdiv : (256 * g + b) / 256 = g := by omega
  have hmod : (256 * g + b) % 256 = b := by omega
  rw [hdiv, hmod]
  exact ⟨hg, hv, hst, hb⟩

theorem exec_glbStrobe_up {v : W32} {s : State} (hb : s.barUp = true) : exec (.glbStrobe v) s = .next (s.strobe v) :=
  congrArg Host.Outcome.next (if_pos hb)

/-! ### FLT_EQ_TAIL (R436) -/

theorem exec_fltEqTail_up {v : W32} {s : State} (hb : s.barUp = true) : exec (.fltEqTail v) s = .next (s.setTail v) :=
  congrArg Host.Outcome.next (if_pos hb)

theorem State.setTail_moves {s : State} {v : W32} (hq : s.flt.eqAddr.isSome = true) (hv : v.toNat < s.flt.eqSize)
    (h : (v.toNat + s.flt.eqSize - s.flt.tail) % s.flt.eqSize ≤ (s.flt.head + s.flt.eqSize - s.flt.tail) % s.flt.eqSize) :
    s.setTail v = { s with flt := { s.flt with tail := v.toNat, tail1 := true, tail2 := true } } := by
  have moves : (s.flt.eqAddr.isNone || decide (s.flt.eqSize ≤ v.toNat) ||
      decide ((s.flt.head + s.flt.eqSize - s.flt.tail) % s.flt.eqSize < (v.toNat + s.flt.eqSize - s.flt.tail) % s.flt.eqSize)) = false := by
    simp [Option.isNone_eq_false_iff.2 hq, hv, h]
  exact if_neg (by rw [moves]; exact Bool.false_ne_true)

theorem State.setTail_passes {s : State} {v : W32}
    (h : (s.flt.head + s.flt.eqSize - s.flt.tail) % s.flt.eqSize < (v.toNat + s.flt.eqSize - s.flt.tail) % s.flt.eqSize) : s.setTail v = s :=
  if_pos (by rw [decide_eq_true h, Bool.or_true])

/-! ### THY_SNAP_CTRL (R252) -/

theorem exec_thySnapCtrl_puts {v : W32} {s : State} (hb : s.barUp = true) (hst : s.strobing 4 = false) :
    exec (.thySnapCtrl v) s = .next (s.putShadow .host Reg.THY_SNAP_CTRL (v &&& 1)) := by
  show execThySnapCtrl v s = _
  simp only [execThySnapCtrl, hb, hst, Bool.not_true, Bool.false_eq_true, if_false]
  rfl

end Sys2Proof.Machine
end

section
/-! Commits of shadows at a commit point, and of idle-only fields once their block is idle (R252, R371, R409, R410, R415); O49. -/

namespace Sys2Proof.Machine

/-! ### The registers of a group -/

/-- Registers that a commit changes beside its group's own, or that decide it. -/
def commitSides : List Nat :=
  [Reg.GLB_CRC_STATUS, Reg.CAL_CLAMPED, Reg.SEC_STATUS, Reg.MSK_REPORT_HEAD, Reg.THY_SNAP_TICK, Reg.THY_SNAP_TICK + 4, Reg.THY_SNAP_PERIOD,
    Reg.THY_SNAP_PERIOD + 4, Reg.THY_SNAP_TOD_S, Reg.THY_SNAP_TOD_S + 4, Reg.THY_SNAP_TOD_NS, Reg.DET_STRICT_REFUSED, Reg.DET_CTRL]

/-- The groups with registers of their own, and the empty rest. -/
def groupTables : List (List (Nat × Bool)) :=
  [groupRows 0 0, groupRows 3 0, groupRows 4 0, groupRows 5 0, groupRows 6 0, groupRows 7 0, groupRows 7 1, groupRows 7 2, []]

theorem groupRows_mem_tables (g b : Nat) : groupRows g b ∈ groupTables := by
  unfold groupTables
  match g with
  | 0 | 3 | 4 | 5 | 6 => simp only [groupRows, List.mem_cons, true_or, or_true]
  | 7 => match b with
    | 0 | 1 => simp only [List.mem_cons, true_or, or_true]
    | n + 2 => exact List.mem_cons_of_mem _ (by simp [groupRows])
  | 1 | 2 | n + 8 => simp [groupRows]

theorem groupTables_facts : ∀ l ∈ groupTables, (l.map Prod.fst).Nodup ∧ (∀ e ∈ l, e.1 ∉ commitSides) ∧ ∀ e ∈ l, e.1 = Reg.THY_SNAP_CTRL → e.2 = false := by
  decide +kernel

theorem groupRows_nodup (g b : Nat) : ((groupRows g b).map Prod.fst).Nodup := (groupTables_facts _ (groupRows_mem_tables g b)).1

theorem groupRows_side {g b : Nat} {e : Nat × Bool} (he : e ∈ groupRows g b) {o : Nat} (ho : o ∈ commitSides) : o ≠ e.1 :=
  fun h => (groupTables_facts _ (groupRows_mem_tables g b)).2.1 e he (h ▸ ho)

theorem groupRows_snap {g b : Nat} {e : Nat × Bool} (he : e ∈ groupRows g b) (h : e.1 = Reg.THY_SNAP_CTRL) : e.2 = false :=
  (groupTables_facts _ (groupRows_mem_tables g b)).2.2 e he h

/-- A register of a group is not both plain and idle-only. -/
theorem groupRows_kind {g b o : Nat} (hf : (o, false) ∈ groupRows g b) (ht : (o, true) ∈ groupRows g b) : False := by
  have same := List.inj_on_of_nodup_map (groupRows_nodup g b) hf ht rfl
  exact Bool.false_ne_true (congrArg Prod.snd same)

/-! ### One shadow (R371, R409) -/

/-- Where a commit leaves a register whose shadow it copies. -/
def State.settled (s : State) (o : Nat) : W32 := if s.strictRefuses o (s.shadow o) then s.reg o else s.shadow o

section
variable {s : State} {o : Nat}

theorem State.copyShadow_refused (h : s.strictRefuses o (s.shadow o) = true) : s.copyShadow o =
    State.bump { s with regs := { s.regs with shadows := kvSet (s.regDefault o) s.regs.shadows o (s.reg o) } } Reg.DET_STRICT_REFUSED 1 := if_pos h

theorem State.copyShadow_copied (h : s.strictRefuses o (s.shadow o) = false) : s.copyShadow o = s.setReg o (s.shadow o) :=
  if_neg (by rw [h]; exact Bool.false_ne_true)

theorem State.copyShadow_keeps {α : Type} {f : State → α} (hf : RegFree f) (s : State) (o : Nat) : f (s.copyShadow o) = f s := by
  cases h : s.strictRefuses o (s.shadow o)
  · rw [State.copyShadow_copied h]
    exact hf _ _
  · rw [State.copyShadow_refused h]
    exact (hf.bump _ _ _).trans (hf s _)

theorem State.copyShadow_regsSorted (hs : s.regsSorted) (o : Nat) : (s.copyShadow o).regsSorted := by
  cases h : s.strictRefuses o (s.shadow o)
  · rw [State.copyShadow_copied h]
    exact State.setReg_regsSorted hs _ _
  · rw [State.copyShadow_refused h]
    exact State.bump_regsSorted (s := { s with regs := { s.regs with shadows := kvSet (s.regDefault o) s.regs.shadows o (s.reg o) } }) hs _ _

theorem State.copyShadow_reg_ne {a : Nat} (hao : a ≠ o) (ha : a ≠ Reg.DET_STRICT_REFUSED) : (s.copyShadow o).reg a = s.reg a := by
  cases h : s.strictRefuses o (s.shadow o)
  · rw [State.copyShadow_copied h, State.reg_setReg_ne _ _ _ _ hao]
  · rw [State.copyShadow_refused h, State.reg_bump_ne _ _ _ _ ha]
    rfl

theorem State.copyShadow_reg_same (hs : s.regsSorted) (ho : o ≠ Reg.DET_STRICT_REFUSED) : (s.copyShadow o).reg o = s.settled o := by
  cases h : s.strictRefuses o (s.shadow o)
  · rw [State.copyShadow_copied h, State.reg_setReg_same _ _ _ hs, State.settled, h, if_neg Bool.false_ne_true]
  · rw [State.copyShadow_refused h, State.reg_bump_ne _ _ _ _ ho, State.settled, h, if_pos rfl]
    rfl

theorem State.bump_shadow (s : State) (a n o : Nat) : (s.bump a n).shadow o = s.shadow o := by
  unfold State.bump
  split <;> rfl

theorem State.copyShadow_shadow_ne {a : Nat} (hao : a ≠ o) : (s.copyShadow o).shadow a = s.shadow a := by
  cases h : s.strictRefuses o (s.shadow o)
  · rw [State.copyShadow_copied h]
    rfl
  · rw [State.copyShadow_refused h, State.bump_shadow]
    exact kvGet_kvSet_ne _ _ _ _ _ hao _

theorem State.strictRefuses_congr {t : State} (h : t.reg Reg.DET_CTRL = s.reg Reg.DET_CTRL) (o : Nat) (v : W32) : t.strictRefuses o v = s.strictRefuses o v := by
  unfold State.strictRefuses
  rw [h]

/-- A copy leaves what another one will do. -/
theorem State.copyShadow_settled_ne {a : Nat} (hao : a ≠ o) (ha : a ≠ Reg.DET_STRICT_REFUSED) (ho : o ≠ Reg.DET_CTRL) :
    (s.copyShadow o).settled a = s.settled a := by
  have strict : (s.copyShadow o).reg Reg.DET_CTRL = s.reg Reg.DET_CTRL := State.copyShadow_reg_ne ho.symm (by decide)
  rw [State.settled, State.strictRefuses_congr strict, State.copyShadow_shadow_ne hao, State.copyShadow_reg_ne hao ha, State.settled]

end

/-! ### Several shadows -/

theorem State.copyShadows_keeps {α : Type} {f : State → α} (hf : RegFree f) (s : State) (l : List Nat) : f (s.copyShadows l) = f s :=
  foldl_keeps (fun u o => State.copyShadow_keeps hf u o) l s

theorem State.copyShadows_regsSorted {s : State} (hs : s.regsSorted) (l : List Nat) : (s.copyShadows l).regsSorted := by
  induction l generalizing s with
  | nil => exact hs
  | cons o l ih => exact ih (State.copyShadow_regsSorted hs o)

theorem State.copyShadows_reg_ne {s : State} {a : Nat} (ha : a ≠ Reg.DET_STRICT_REFUSED) {l : List Nat} (hl : a ∉ l) : (s.copyShadows l).reg a = s.reg a := by
  induction l generalizing s with
  | nil => rfl
  | cons o l ih =>
    obtain ⟨hao, hl⟩ := not_or.1 (mt List.mem_cons.2 hl)
    exact (ih hl).trans (State.copyShadow_reg_ne hao ha)

/-- Each register of the list settles as its shadow stood before. -/
theorem State.copyShadows_reg_mem {s : State} (hs : s.regsSorted) {l : List Nat} (hl : l.Nodup) (hsides : ∀ o ∈ l, o ∉ commitSides) {a : Nat} (ha : a ∈ l) :
    (s.copyShadows l).reg a = s.settled a := by
  induction l generalizing s with
  | nil => exact absurd ha List.not_mem_nil
  | cons o l ih =>
    obtain ⟨hol, hl⟩ := List.nodup_cons.1 hl
    have plain (x : Nat) (hx : x ∈ o :: l) : x ≠ Reg.DET_STRICT_REFUSED ∧ x ≠ Reg.DET_CTRL :=
      ⟨fun h => hsides x hx (by rw [h]; decide), fun h => hsides x hx (by rw [h]; decide)⟩
    obtain ⟨refused, strict⟩ := plain o List.mem_cons_self
    rcases List.mem_cons.1 ha with rfl | hal
    · exact (State.copyShadows_reg_ne refused hol).trans (State.copyShadow_reg_same hs refused)
    · have hao : a ≠ o := fun h => hol (h ▸ hal)
      exact (ih (State.copyShadow_regsSorted hs o) hl (fun x hx => hsides x (List.mem_cons_of_mem _ hx)) hal).trans
        (State.copyShadow_settled_ne hao (plain a ha).1 strict)

/-! ### What a commit sets off (R252, R253, R468) -/

theorem State.reg_setReg64_ne (s : State) {a o : Nat} (v : Nat) (h : a ≠ o) (h' : a ≠ o + 4) : (s.setReg64 o v).reg a = s.reg a :=
  (State.reg_setReg_ne _ _ _ _ h').trans (State.reg_setReg_ne _ _ _ _ h)

theorem State.setReg64_regsSorted {s : State} (hs : s.regsSorted) (o v : Nat) : (s.setReg64 o v).regsSorted :=
  State.setReg_regsSorted (State.setReg_regsSorted hs _ _) _ _

theorem State.reg64_setReg64 {s : State} (hs : s.regsSorted) (o : Nat) {v : Nat} (hv : v < 2 ^ 64) : (s.setReg64 o v).reg64 o = v := by
  have high : (s.setReg64 o v).reg (o + 4) = BitVec.ofNat 32 (v / 2 ^ 32) := State.reg_setReg_same _ _ _ (State.setReg_regsSorted hs o _)
  have low : (s.setReg64 o v).reg o = BitVec.ofNat 32 v := (State.reg_setReg_ne _ (o + 4) o _ (by omega)).trans (State.reg_setReg_same _ _ _ hs)
  rw [State.reg64, State.regN, State.regN, high, low, BitVec.toNat_ofNat, BitVec.toNat_ofNat]
  omega

theorem State.setRw_regsSorted {s : State} (hs : s.regsSorted) (a : Nat) (v : W32) : (s.setRw a v).regsSorted := State.setReg_regsSorted hs a v

/-- The period and the time of day are latched behind the tick. -/
def State.snappedRest (s : State) : State :=
  ((s.setReg64 Reg.THY_SNAP_PERIOD s.thy.period).setReg64 Reg.THY_SNAP_TOD_S s.thy.todS).setReg Reg.THY_SNAP_TOD_NS (BitVec.ofNat 32 s.thy.todNs)

theorem State.latchSnap_eq (s : State) : s.latchSnap =
    if (s.reg Reg.THY_SNAP_CTRL).getLsbD 0 then (s.setReg64 Reg.THY_SNAP_TICK s.thy.tick).snappedRest.setRw Reg.THY_SNAP_CTRL 0 else s := rfl

theorem State.snappedRest_reg (s : State) {a : Nat} (h1 : a ≠ Reg.THY_SNAP_PERIOD) (h2 : a ≠ Reg.THY_SNAP_PERIOD + 4) (h3 : a ≠ Reg.THY_SNAP_TOD_S)
    (h4 : a ≠ Reg.THY_SNAP_TOD_S + 4) (h5 : a ≠ Reg.THY_SNAP_TOD_NS) : s.snappedRest.reg a = s.reg a :=
  (State.reg_setReg_ne _ _ _ _ h5).trans ((State.reg_setReg64_ne _ _ h3 h4).trans (State.reg_setReg64_ne _ _ h1 h2))

theorem State.snappedRest_regsSorted {s : State} (hs : s.regsSorted) : s.snappedRest.regsSorted :=
  State.setReg_regsSorted (State.setReg64_regsSorted (State.setReg64_regsSorted hs _ _) _ _) _ _

theorem State.latchSnap_regsSorted {s : State} (hs : s.regsSorted) : s.latchSnap.regsSorted := by
  rw [State.latchSnap_eq]
  split
  · exact State.setRw_regsSorted (State.snappedRest_regsSorted (State.setReg64_regsSorted hs _ _)) _ _
  · exact hs

/-- A snapshot changes its own registers only. -/
theorem State.latchSnap_reg {s : State} {a : Nat} (ha : a ∉ commitSides) (hsnap : a ≠ Reg.THY_SNAP_CTRL) : s.latchSnap.reg a = s.reg a := by
  have other {o : Nat} (ho : o ∈ commitSides) : a ≠ o := fun h => ha (h ▸ ho)
  rw [State.latchSnap_eq]
  refine keeps_ite (f := fun u : State => u.reg a) ?_ rfl
  exact (State.reg_setRw_ne _ _ _ _ hsnap).trans ((State.snappedRest_reg _ (other (by decide)) (other (by decide)) (other (by decide)) (other (by decide))
    (other (by decide))).trans (State.reg_setReg64_ne _ _ (other (by decide)) (other (by decide))))

/-- A snapshot latches T and its request reads 0 again. -/
theorem State.latchSnap_tick {s : State} (hs : s.regsSorted) (hsnap : (s.reg Reg.THY_SNAP_CTRL).getLsbD 0 = true) (htick : s.thy.tick < 2 ^ 64) :
    s.latchSnap.reg64 Reg.THY_SNAP_TICK = s.thy.tick ∧ s.latchSnap.reg Reg.THY_SNAP_CTRL = 0 := by
  have sorted := State.setReg64_regsSorted hs Reg.THY_SNAP_TICK s.thy.tick
  have kept {a : Nat} (ha : a = Reg.THY_SNAP_TICK ∨ a = Reg.THY_SNAP_TICK + 4) :
      ((s.setReg64 Reg.THY_SNAP_TICK s.thy.tick).snappedRest.setRw Reg.THY_SNAP_CTRL 0).reg a = (s.setReg64 Reg.THY_SNAP_TICK s.thy.tick).reg a := by
    rcases ha with rfl | rfl <;>
      exact (State.reg_setRw_ne _ _ _ _ (by decide)).trans (State.snappedRest_reg _ (by decide) (by decide) (by decide) (by decide) (by decide))
  rw [State.latchSnap_eq, if_pos hsnap]
  refine ⟨?_, State.reg_setRw_same _ _ _ (State.snappedRest_regsSorted sorted)⟩
  rw [State.reg64, State.regN, State.regN, kept (.inl rfl), kept (.inr rfl)]
  exact State.reg64_setReg64 hs _ htick

/-- The time group latches; a changed PTP setting restarts the port. -/
def State.afterTime (s old : State) : State :=
  if s.reg Reg.THY_PTP_CFG != old.reg Reg.THY_PTP_CFG then s.latchSnap.modThy fun t => { t with ptp := bnat s.latchSnap.ptpOn } else s.latchSnap

theorem State.afterCommit_time (s old : State) (b : Nat) : s.afterCommit old 4 b = s.afterTime old := rfl

theorem State.afterTime_keeps {α : Type} {f : State → α} (hthy : ∀ (s : State) x, f { s with thy := x } = f s) (s old : State) :
    f (s.afterTime old) = f s.latchSnap := keeps_ite (hthy _ _) rfl

theorem State.afterTime_reg (s old : State) (a : Nat) : (s.afterTime old).reg a = s.latchSnap.reg a :=
  State.afterTime_keeps (f := fun u => u.reg a) (fun _ _ => rfl) s old

theorem State.afterTime_strobes (s old : State) : (s.afterTime old).regs.strobes = s.regs.strobes := by
  rw [State.afterTime_keeps (f := fun u => u.regs.strobes) (fun _ _ => rfl), State.latchSnap_eq]
  exact keeps_ite (f := fun u : State => u.regs.strobes) rfl rfl

theorem State.afterTime_regsSorted {s : State} (hs : s.regsSorted) (old : State) : (s.afterTime old).regsSorted := by
  have sorted := State.latchSnap_regsSorted hs
  unfold State.regsSorted at sorted ⊢
  rwa [State.afterTime_keeps (f := fun u => u.regs.vals) (fun _ _ => rfl)]

/-- What a commit beside that of the time group sets off. -/
theorem State.afterCommit_cases (s old : State) {g : Nat} (hg : g ≠ 4) (b : Nat) : s.afterCommit old g b = s ∨
    s.afterCommit old g b = s.setReg Reg.MSK_REPORT_HEAD 0 ∨ s.afterCommit old g b = s.setOverlays s.regs.overlayShadows := by
  have time : (g == 4) = false := beq_eq_false_iff_ne.2 hg
  simp only [State.afterCommit, time, Bool.false_eq_true, if_false]
  split
  · split
    · exact .inr (.inl rfl)
    · exact .inl rfl
  · split
    · exact .inr (.inr rfl)
    · exact .inl rfl

/-- The overlays, before those out of range are counted. -/
def State.overlaid (s : State) (us : List (Nat × Int)) : State := { s with regs := { s.regs with overlays := us, overlayShadows := us } }

theorem State.setOverlays_eq (s : State) (us : List (Nat × Int)) : s.setOverlays us =
    if s.dev.outOfRange (us.filter fun u => !s.regs.overlays.contains u) = 0 then s.overlaid us
    else ((s.overlaid us).bump Reg.CAL_CLAMPED (s.dev.outOfRange (us.filter fun u => !s.regs.overlays.contains u))).setBits Reg.SEC_STATUS 8 := rfl

theorem State.setOverlays_reg {s : State} {us : List (Nat × Int)} {a : Nat} (h1 : a ≠ Reg.CAL_CLAMPED) (h2 : a ≠ Reg.SEC_STATUS) :
    (s.setOverlays us).reg a = s.reg a := by
  rw [State.setOverlays_eq]
  exact keeps_ite (f := fun u : State => u.reg a) rfl ((State.reg_setBits_ne _ _ _ _ h2).trans (State.reg_bump_ne _ _ _ _ h1))

theorem State.setOverlays_regsSorted {s : State} (hs : s.regsSorted) (us : List (Nat × Int)) : (s.setOverlays us).regsSorted := by
  have overlaid : (s.overlaid us).regsSorted := hs
  rw [State.setOverlays_eq]
  split
  · exact overlaid
  · exact State.setBits_regsSorted (State.bump_regsSorted overlaid _ _) _ _

theorem State.setOverlays_strobes (s : State) (us : List (Nat × Int)) : (s.setOverlays us).regs.strobes = s.regs.strobes := by
  rw [State.setOverlays_eq]
  exact keeps_ite (f := fun u : State => u.regs.strobes) rfl (keeps_ite (f := fun u : State => u.regs.strobes) rfl rfl)

theorem State.setOverlays_keeps {α : Type} {f : State → α} (hf : RegFree f) (s : State) (us : List (Nat × Int)) : f (s.setOverlays us) = f s := by
  rw [State.setOverlays_eq]
  exact keeps_ite (hf s _) ((hf.setBits _ _ _).trans ((hf.bump _ _ _).trans (hf s _)))

theorem State.latchSnap_keeps {α : Type} {f : State → α} (hf : RegFree f) (s : State) : f s.latchSnap = f s := by
  rw [State.latchSnap_eq]
  exact keeps_ite ((hf.setRw _ _ _).trans ((hf.setReg _ _ _).trans ((hf.setReg64 _ _ _).trans ((hf.setReg64 _ _ _).trans (hf.setReg64 _ _ _))))) rfl

section
variable (s old : State) (g b : Nat)

theorem State.afterCommit_reg {a : Nat} (ha : a ∉ commitSides) (hsnap : a ≠ Reg.THY_SNAP_CTRL) : (s.afterCommit old g b).reg a = s.reg a := by
  have other {o : Nat} (ho : o ∈ commitSides) : a ≠ o := fun h => ha (h ▸ ho)
  by_cases hg : g = 4
  · subst hg
    rw [State.afterCommit_time, State.afterTime_reg, State.latchSnap_reg ha hsnap]
  · rcases s.afterCommit_cases old hg b with h | h | h <;> rw [h]
    · exact State.reg_setReg_ne _ _ _ _ (other (by decide))
    · exact State.setOverlays_reg (other (by decide)) (other (by decide))

theorem State.afterCommit_regsSorted (hs : s.regsSorted) : (s.afterCommit old g b).regsSorted := by
  by_cases hg : g = 4
  · subst hg
    rw [State.afterCommit_time]
    exact State.afterTime_regsSorted hs old
  · rcases s.afterCommit_cases old hg b with h | h | h <;> rw [h]
    · exact hs
    · exact State.setReg_regsSorted hs _ _
    · exact State.setOverlays_regsSorted hs _

theorem State.afterCommit_strobes : (s.afterCommit old g b).regs.strobes = s.regs.strobes := by
  by_cases hg : g = 4
  · subst hg
    rw [State.afterCommit_time, State.afterTime_strobes]
  · rcases s.afterCommit_cases old hg b with h | h | h <;> rw [h]
    · rfl
    · exact State.setOverlays_strobes _ _

theorem State.afterCommit_keeps {α : Type} {f : State → α} (hf : RegFree f) (hthy : ∀ (s : State) x, f { s with thy := x } = f s) :
    f (s.afterCommit old g b) = f s := by
  by_cases hg : g = 4
  · subst hg
    rw [State.afterCommit_time, State.afterTime_keeps hthy, State.latchSnap_keeps hf]
  · rcases s.afterCommit_cases old hg b with h | h | h <;> rw [h]
    · exact hf s _
    · exact State.setOverlays_keeps hf s _

end

/-! ### A block commits -/

/-- The block has committed the registers `l`; `waits` says whether an idle-only one still waits. -/
def State.commits (s : State) (g b : Nat) (l : List Nat) (waits : Bool) : State :=
  (((s.copyShadows l).afterCommit s g b).closeCommit (256 * g + b) waits).crcStale

theorem State.bump_strobes (s : State) (a n : Nat) : (s.bump a n).regs.strobes = s.regs.strobes := keeps_ite (f := fun u : State => u.regs.strobes) rfl rfl

theorem State.copyShadow_strobes (s : State) (o : Nat) : (s.copyShadow o).regs.strobes = s.regs.strobes :=
  keeps_ite (f := fun u : State => u.regs.strobes) (State.bump_strobes _ _ _) rfl

theorem State.copyShadows_strobes (s : State) (l : List Nat) : (s.copyShadows l).regs.strobes = s.regs.strobes :=
  foldl_keeps (f := fun u : State => u.regs.strobes) State.copyShadow_strobes l s

theorem State.closeCommit_keeps {α : Type} {f : State → α} (hf : ∀ (s : State) x y, f { s with regs := { s.regs with strobes := x, pendingIdle := y } } = f s)
    (s : State) (code : Nat) (waits : Bool) : f (s.closeCommit code waits) = f s :=
  keeps_ite (hf s s.regs.strobes _) (hf s _ _)

section
variable {s : State} {g b : Nat} {l : List Nat} {waits : Bool}

theorem State.commits_reg {a : Nat} (ha : a ∉ commitSides) (hsnap : a ≠ Reg.THY_SNAP_CTRL) : (s.commits g b l waits).reg a = (s.copyShadows l).reg a := by
  have stale : a ≠ Reg.GLB_CRC_STATUS := fun h => ha (by rw [h]; decide)
  exact (State.crcStale_reg_ne _ stale).trans ((State.closeCommit_keeps (f := fun u => u.reg a) (fun _ _ _ => rfl) _ _ _).trans (State.afterCommit_reg _ _ _ _ ha hsnap))

theorem State.commits_stale (hs : s.regsSorted) : ((s.commits g b l waits).reg Reg.GLB_CRC_STATUS).getLsbD 1 = true := by
  have sorted : (((s.copyShadows l).afterCommit s g b).closeCommit (256 * g + b) waits).regsSorted := by
    rw [State.regsSorted, State.closeCommit_keeps (f := fun u => u.regs.vals) (fun _ _ _ => rfl)]
    exact State.afterCommit_regsSorted _ _ _ _ (State.copyShadows_regsSorted hs _)
  rw [State.commits, State.crcStale, State.reg_setBits_same _ _ _ sorted]
  simp

theorem State.commits_keeps {α : Type} {f : State → α} (hf : RegFree f) (hthy : ∀ (s : State) x, f { s with thy := x } = f s) :
    f (s.commits g b l waits) = f s :=
  (hf.setBits _ _ _).trans ((State.closeCommit_keeps (fun u _ _ => hf u _) _ _ _).trans ((State.afterCommit_keeps _ _ _ _ hf hthy).trans (State.copyShadows_keeps hf s l)))

theorem State.commits_strobes : (s.commits g b l false).regs.strobes = s.regs.strobes.erase (256 * g + b) := by
  show ((s.copyShadows l).afterCommit s g b).regs.strobes.erase (256 * g + b) = _
  rw [State.afterCommit_strobes, State.copyShadows_strobes]

end

/-! ### What a block commits -/

/-- The plain registers of a block. -/
def plainFields (g b : Nat) : List Nat := ((groupRows g b).filter fun e => !e.2).map Prod.fst

theorem mem_plainFields {g b o : Nat} : o ∈ plainFields g b ↔ (o, false) ∈ groupRows g b := by
  simp [plainFields]

theorem State.mem_idleNow {s : State} {g b o : Nat} :
    o ∈ (s.idleFields g b).1 ↔ ((o, true) ∈ groupRows g b ∧ s.shadow o ≠ s.reg o) ∧ s.idleFor o = true := by
  simp [State.idleFields]

/-- Nothing waits where every block of an idle-only register is idle. -/
theorem State.idleLater_nil {s : State} {g b : Nat} (h : ∀ e ∈ groupRows g b, e.2 = true → s.idleFor e.1 = true) : (s.idleFields g b).2 = [] := by
  refine List.filter_eq_nil_iff.2 fun o ho => ?_
  obtain ⟨e, he, rfl⟩ := List.mem_map.1 ho
  obtain ⟨hrow, hopen⟩ := List.mem_filter.1 he
  rw [h e hrow (Bool.and_eq_true_iff.1 hopen).1]
  exact Bool.false_ne_true

theorem plainFields_nodup (g b : Nat) : (plainFields g b).Nodup := (groupRows_nodup g b).sublist (List.filter_sublist.map _)

theorem State.idleNow_nodup (s : State) (g b : Nat) : (s.idleFields g b).1.Nodup :=
  ((groupRows_nodup g b).sublist (List.filter_sublist.map _)).sublist List.filter_sublist

theorem State.fields_nodup (s : State) (g b : Nat) : (plainFields g b ++ (s.idleFields g b).1).Nodup := by
  refine List.Nodup.append (plainFields_nodup g b) (s.idleNow_nodup g b) fun o hplain hidle => ?_
  obtain ⟨⟨hrow, -⟩, -⟩ := State.mem_idleNow.1 hidle
  exact groupRows_kind (mem_plainFields.1 hplain) hrow

section
variable {s : State} {g b : Nat} {l : List Nat} {waits : Bool} (hs : s.regsSorted) (hl : l.Nodup)
  (hrows : ∀ o ∈ l, ∃ k, (o, k) ∈ groupRows g b) {e : Nat × Bool} (he : e ∈ groupRows g b)
include hs hl hrows he

omit hs hl hrows in
/-- A register of the block that the commit does not copy stays. -/
theorem State.commits_left (hsnap : e.1 ≠ Reg.THY_SNAP_CTRL) (hout : e.1 ∉ l) : (s.commits g b l waits).reg e.1 = s.reg e.1 := by
  have side : e.1 ∉ commitSides := fun h => groupRows_side he h rfl
  exact (State.commits_reg side hsnap).trans (State.copyShadows_reg_ne (fun h => side (by rw [h]; decide)) hout)

omit he in
theorem State.commits_copied (hsnap : e.1 ≠ Reg.THY_SNAP_CTRL) (hin : e.1 ∈ l) : (s.commits g b l waits).reg e.1 = s.settled e.1 := by
  have sides (o : Nat) (ho : o ∈ l) : o ∉ commitSides := fun h => by
    obtain ⟨k, hk⟩ := hrows o ho
    exact groupRows_side hk h rfl
  exact (State.commits_reg (sides _ hin) hsnap).trans (State.copyShadows_reg_mem hs hl sides hin)

/-- A register takes its shadow where the commit copies it or it has it already. -/
theorem State.commits_takes (hsnap : e.1 ≠ Reg.THY_SNAP_CTRL) (hin : e.1 ∈ l ∨ s.shadow e.1 = s.reg e.1) (hallow : s.strictRefuses e.1 (s.shadow e.1) = false) :
    (s.commits g b l waits).reg e.1 = s.shadow e.1 := by
  by_cases h : e.1 ∈ l
  · rw [State.commits_copied hs hl hrows hsnap h, State.settled, hallow, if_neg Bool.false_ne_true]
  · rw [State.commits_left he hsnap h, hin.resolve_left h]

/-- An elastic mode under strict is left. -/
theorem State.commits_refuses (href : s.strictRefuses e.1 (s.shadow e.1) = true) : (s.commits g b l waits).reg e.1 = s.reg e.1 := by
  have hsnap : e.1 ≠ Reg.THY_SNAP_CTRL := fun h => by
    rw [h] at href
    exact Bool.false_ne_true href
  by_cases h : e.1 ∈ l
  · rw [State.commits_copied hs hl hrows hsnap h, State.settled, href, if_pos rfl]
  · exact State.commits_left he hsnap h

end

/-! ### STROBE_COMMIT and IDLE_ONLY_COMMIT -/

section
variable {s : State} {g b : Nat}

/-- The registers that STROBE_COMMIT copies. -/
def State.strobed (s : State) (g b : Nat) : State :=
  s.commits g b (plainFields g b ++ (s.idleFields g b).1) (!(s.idleFields g b).2.isEmpty)

theorem exec_strobeCommit_commits (hpoint : s.commitPoint g b = true) (hin : 256 * g + b ∈ s.regs.strobes) (hout : 256 * g + b ∉ s.regs.pendingIdle) :
    exec (.strobeCommit g b) s = .next (s.strobed g b) := by
  have ready : (!s.regs.strobes.contains (256 * g + b) || s.regs.pendingIdle.contains (256 * g + b) || !s.commitPoint g b) = false := by
    simp [hin, hout, hpoint]
  exact if_neg (by rw [ready]; exact Bool.false_ne_true)

theorem State.strobed_rows (s : State) (g b : Nat) : ∀ o ∈ plainFields g b ++ (s.idleFields g b).1, ∃ k, (o, k) ∈ groupRows g b := by
  intro o ho
  rcases List.mem_append.1 ho with h | h
  · exact ⟨_, mem_plainFields.1 h⟩
  · exact ⟨_, (State.mem_idleNow.1 h).1.1⟩

theorem State.strobed_takes (hs : s.regsSorted) {e : Nat × Bool} (he : e ∈ groupRows g b) (hsnap : e.1 ≠ Reg.THY_SNAP_CTRL) (hidle : e.2 = false ∨ s.idleFor e.1 = true)
    (hallow : s.strictRefuses e.1 (s.shadow e.1) = false) : (s.strobed g b).reg e.1 = s.shadow e.1 := by
  refine State.commits_takes hs (s.fields_nodup g b) (s.strobed_rows g b) he hsnap ?_ hallow
  obtain ⟨o, k⟩ := e
  cases k with
  | false => exact .inl (List.mem_append_left _ (mem_plainFields.2 he))
  | true =>
    by_cases h : s.shadow o = s.reg o
    · exact .inr h
    · exact .inl (List.mem_append_right _ (State.mem_idleNow.2 ⟨⟨he, h⟩, hidle.resolve_left nofun⟩))

/-- An idle-only register whose block is not idle waits. -/
theorem State.strobed_waits {e : Nat × Bool} (he : e ∈ groupRows g b) (honly : (e.1, false) ∉ groupRows g b) (hbusy : s.idleFor e.1 = false) :
    (s.strobed g b).reg e.1 = s.reg e.1 := by
  have hsnap : e.1 ≠ Reg.THY_SNAP_CTRL := fun h => honly (by rw [← groupRows_snap he h]; exact he)
  refine State.commits_left he hsnap fun h => ?_
  rcases List.mem_append.1 h with h | h
  · exact honly (mem_plainFields.1 h)
  · exact Bool.false_ne_true (hbusy.symm.trans (State.mem_idleNow.1 h).2)

theorem State.strobed_done (hidle : ∀ e ∈ groupRows g b, e.2 = true → s.idleFor e.1 = true) :
    (s.strobed g b).regs.strobes = s.regs.strobes.erase (256 * g + b) := by
  rw [State.strobed, State.idleLater_nil hidle]
  exact State.commits_strobes

end

theorem snap_plain (b : Nat) : (Reg.THY_SNAP_CTRL, false) ∈ groupRows 4 b := by
  show (Reg.THY_SNAP_CTRL, false) ∈ groupRows 4 0
  decide +kernel

theorem State.afterTime_tick {s old : State} (hs : s.regsSorted) (hsnap : (s.reg Reg.THY_SNAP_CTRL).getLsbD 0 = true) (htick : s.thy.tick < 2 ^ 64) :
    (s.afterTime old).reg64 Reg.THY_SNAP_TICK = s.thy.tick ∧ (s.afterTime old).reg Reg.THY_SNAP_CTRL = 0 := by
  obtain ⟨tick, request⟩ := State.latchSnap_tick hs hsnap htick
  exact ⟨(State.afterTime_keeps (f := fun u => u.reg64 Reg.THY_SNAP_TICK) (fun _ _ => rfl) s old).trans tick, (s.afterTime_reg old _).trans request⟩

/-- The commit of the time group latches T (R252). -/
theorem State.strobed_tick {s : State} {b : Nat} (hs : s.regsSorted) (hsnap : (s.shadow Reg.THY_SNAP_CTRL).getLsbD 0 = true) (htick : s.thy.tick < 2 ^ 64) :
    (s.strobed 4 b).reg64 Reg.THY_SNAP_TICK = s.thy.tick ∧ (s.strobed 4 b).reg Reg.THY_SNAP_CTRL = 0 := by
  have copied : (s.copyShadows (plainFields 4 b ++ (s.idleFields 4 b).1)).reg Reg.THY_SNAP_CTRL = s.shadow Reg.THY_SNAP_CTRL := by
    refine (State.copyShadows_reg_mem hs (s.fields_nodup 4 b) (fun o ho h => ?_) (List.mem_append_left _ (mem_plainFields.2 (snap_plain b)))).trans rfl
    obtain ⟨k, hk⟩ := s.strobed_rows 4 b o ho
    exact groupRows_side hk h rfl
  have thy : (s.copyShadows (plainFields 4 b ++ (s.idleFields 4 b).1)).thy = s.thy := State.copyShadows_keeps (f := State.thy) (fun _ _ => rfl) s _
  obtain ⟨tick, request⟩ := State.afterTime_tick (old := s) (State.copyShadows_regsSorted hs (plainFields 4 b ++ (s.idleFields 4 b).1))
    (by rw [copied]; exact hsnap) (by rw [thy]; exact htick)
  rw [thy] at tick
  have kept (a : Nat) (ha : a ≠ Reg.GLB_CRC_STATUS) : (s.strobed 4 b).reg a = ((s.copyShadows (plainFields 4 b ++ (s.idleFields 4 b).1)).afterTime s).reg a :=
    (State.crcStale_reg_ne _ ha).trans (State.closeCommit_keeps (f := fun u => u.reg a) (fun _ _ _ => rfl) _ _ _)
  refine ⟨?_, (kept _ (by decide)).trans request⟩
  rw [State.reg64, State.regN, State.regN, kept _ (by decide), kept _ (by decide)]
  exact tick

section
variable {s : State} {g b : Nat}

/-- The registers that IDLE_ONLY_COMMIT copies. -/
def State.idled (s : State) (g b : Nat) : State := s.commits g b (s.idleFields g b).1 (!(s.idleFields g b).2.isEmpty)

theorem State.settleGuards_none (h : s.regs.guardWaiting = []) : s.settleGuards = s := by
  have none : ({ s with regs := { s.regs with guardWaiting := [] } } : State) = s := by rw [← h]
  unfold State.settleGuards
  rw [h, List.foldl_nil]
  exact (congrArg (fun u => if s.strictIdle then u else s) none).trans (ite_self s)

theorem exec_idleOnlyCommit_commits (hpoint : s.commitPoint g b = true) (hin : 256 * g + b ∈ s.regs.pendingIdle) (hnone : s.regs.guardWaiting = []) :
    exec (.idleOnlyCommit g b) s = .next (s.idled g b) := by
  have ready : (!s.regs.pendingIdle.contains (256 * g + b) || !s.commitPoint g b) = false := by simp [hin, hpoint]
  show execIdleOnlyCommit g b s = _
  simp only [execIdleOnlyCommit, State.settleGuards_none hnone, ite_self, ready, Bool.false_eq_true, if_false]
  rfl

theorem State.idled_takes (hs : s.regsSorted) {e : Nat × Bool} (he : e ∈ groupRows g b) (honly : e.2 = true) (hidle : s.idleFor e.1 = true)
    (hsnap : e.1 ≠ Reg.THY_SNAP_CTRL) (hallow : s.strictRefuses e.1 (s.shadow e.1) = false) : (s.idled g b).reg e.1 = s.shadow e.1 := by
  refine State.commits_takes hs (s.idleNow_nodup g b) (fun o ho => ⟨_, (State.mem_idleNow.1 ho).1.1⟩) he hsnap ?_ hallow
  obtain ⟨o, k⟩ := e
  subst honly
  by_cases h : s.shadow o = s.reg o
  · exact .inr h
  · exact .inl (State.mem_idleNow.2 ⟨⟨he, h⟩, hidle⟩)

theorem State.idled_done (hidle : ∀ e ∈ groupRows g b, e.2 = true → s.idleFor e.1 = true) :
    (s.idled g b).regs.strobes = s.regs.strobes.erase (256 * g + b) := by
  rw [State.idled, State.idleLater_nil hidle]
  exact State.commits_strobes

end

/-- Settles O49: each access is one change of a shadow, a register or a latch; a commit copies the shadows of distinct registers, and what it sets off touches none of them. -/
theorem registerWritesAndCommits : Obligations.RegisterWritesAndCommits := by
  unfold Obligations.RegisterWritesAndCommits
  refine ⟨⟨?rows, ?part, ?double, ?read, ?strobe, ?tail, ?snap⟩, ?commit⟩
  case rows =>
    intro q off r v s hb hm hr ho
    obtain ⟨ignored, cleared, shadowed⟩ := State.writeReg_row (q := q) (v := v) (s := s) hr ho
    have effect := exec_registerWrite_up (q := q) (v := v) hb hm
    refine ⟨fun ha => effect.trans (congrArg Host.Outcome.next (ignored ha)), fun ha hs => ?_, fun ha hs hst href huser => ?_, fun ha hs hst => ?_⟩
    · exact ⟨_, effect.trans (congrArg Host.Outcome.next (cleared ha)), State.setReg_outcome hs off _⟩
    · exact ⟨_, effect.trans (congrArg Host.Outcome.next ((shadowed ha).trans (State.writeShadow_put hst href q))), State.putShadow_outcome hs huser q _⟩
    · exact ⟨_, exec_registerWrite_conflict hb hm hr ho ha hst, s.strobeConflict_shadows off, (State.strobeConflict_records hs off).1⟩
  case part => exact fun q off e v s he => exec_registerWrite_partial q off he v s
  case double => exact fun q off e v s => ⟨_, rfl, rfl⟩
  case read => exact fun q off r s hb hr ha hs => ⟨_, exec_slLowRead_latches hb hr ha, State.latched_outcome hs off⟩
  case strobe => exact fun v s hb => ⟨_, exec_glbStrobe_up hb, rfl, s.mem_strobe v⟩
  case tail =>
    intro v s hb hq hv
    exact ⟨fun h => (exec_fltEqTail_up hb).trans (congrArg Host.Outcome.next (State.setTail_moves hq hv h)),
      fun h => (exec_fltEqTail_up hb).trans (congrArg Host.Outcome.next (State.setTail_passes h))⟩
  case snap => exact fun v s hb hst hs => ⟨_, exec_thySnapCtrl_puts hb hst, State.putShadow_outcome hs (by decide) _ _⟩
  case commit =>
    intro g b s hs hpoint
    refine ⟨fun hin hout => ⟨_, exec_strobeCommit_commits hpoint hin hout, fun e he hsnap hidle hallow => State.strobed_takes hs he hsnap hidle hallow,
      fun e he href => State.commits_refuses hs (s.fields_nodup g b) (s.strobed_rows g b) he href, fun e he honly hbusy => State.strobed_waits he honly hbusy,
      State.commits_stale hs, State.commits_keeps (f := State.arrays) (fun _ _ => rfl) fun _ _ => rfl,
      State.commits_keeps (f := State.mem) (fun _ _ => rfl) fun _ _ => rfl, State.strobed_done, fun hg hsnap htick => ?_⟩,
      fun hin hnone => ⟨_, exec_idleOnlyCommit_commits hpoint hin hnone, fun e he honly hidle hsnap hallow => State.idled_takes hs he honly hidle hsnap hallow,
        State.commits_stale hs, State.commits_keeps (f := State.arrays) (fun _ _ => rfl) fun _ _ => rfl,
        State.commits_keeps (f := State.mem) (fun _ _ => rfl) fun _ _ => rfl, State.idled_done⟩⟩
    subst hg
    exact State.strobed_tick hs hsnap htick

end Sys2Proof.Machine
end

section
/-! What no frame, event, report, fault or write to module memory changes: the place in the period, the commands that wait, the PCIe link, and host memory while that link is down (R234, R379). Each lemma `State.Still.f` says that the update `f` of the model leaves it, so that a proof about a chain of updates is the same chain of lemmas. -/

set_option Elab.async false

namespace Sys2Proof.Machine

/-- The clock, the commands that wait, the PCIe link, and host memory where the link is down. -/
def State.still (s : State) : (Nat × Nat × Nat × Nat) × List Instr × Bool × Cells :=
  ((s.thy.cyc, s.thy.cycle, s.thy.period, s.thy.tick), s.pending, s.hostLink, if s.hostLink then [] else s.hostMem)

/-- The module stands there at `v`. -/
def State.Still (s : State) (v : (Nat × Nat × Nat × Nat) × List Instr × Bool × Cells) : Prop := s.still = v

namespace State.Still

variable {s t : State} {v : (Nat × Nat × Nat × Nat) × List Instr × Bool × Cells}

/-! ### Choices and folds -/

theorem ite {c : Prop} [Decidable c] (hs : s.Still v) (ht : t.Still v) : (if c then s else t).Still v := by split <;> assumption

theorem onlyIf {c : Prop} [Decidable c] (hs : s.Still v) (ht : s.Still v → t.Still v) : (if c then t else s).Still v := (ht hs).ite hs

theorem foldl {α : Type} {f : State → α → State} {l : List α} (hs : s.Still v) (hf : ∀ {s x}, s.Still v → (f s x).Still v) : (l.foldl f s).Still v := by
  induction l generalizing s with
  | nil => exact hs
  | cons x l ih => exact ih (hf hs)

theorem ite_fst {α : Type} {c : Prop} [Decidable c] {x y : State × α} (hx : x.1.Still v) (hy : y.1.Still v) : (if c then x else y).1.Still v := by
  split <;> assumption

/-! ### Updates of parts -/

theorem withRing {x} (hs : s.Still v) : ({ s with ring := x } : State).Still v := hs

theorem withMir {x} (hs : s.Still v) : ({ s with mir := x } : State).Still v := hs

theorem withTiers {x} (hs : s.Still v) : ({ s with tiers := x } : State).Still v := hs

theorem withFlt {x} (hs : s.Still v) : ({ s with flt := x } : State).Still v := hs

theorem withMem {m} (hs : s.Still v) : ({ s with mem := m } : State).Still v := hs

theorem modArr {n g} (hs : s.Still v) : (s.modArr n g).Still v := hs

theorem setReg {a x} (hs : s.Still v) : (s.setReg a x).Still v := hs

theorem setBits {a m} (hs : s.Still v) : (s.setBits a m).Still v := hs

theorem setReg64 {a x} (hs : s.Still v) : (s.setReg64 a x).Still v := hs

theorem bump {a n} (hs : s.Still v) : (s.bump a n).Still v := hs.ite hs.setReg

theorem bump64 {a n} (hs : s.Still v) : (s.bump64 a n).Still v := hs.ite hs.setReg64

/-- The time system changes beside its clock. -/
theorem modThy {g} (hs : s.Still v) (hg : ∀ t, ((g t).cyc, (g t).cycle, (g t).period, (g t).tick) = (t.cyc, t.cycle, t.period, t.tick) := by exact fun _ => rfl) :
    (s.modThy g).Still v :=
  (congrArg (fun c => (c, s.pending, s.hostLink, if s.hostLink then [] else s.hostMem)) (hg s.thy)).trans hs

/-- Host memory is written only over a link that is up. -/
theorem putHostMem {m x} (hl : s.hostLink = true) (hs : s.Still v) : ({ s with hostMem := m, flt := x } : State).Still v := by
  have up (u : State) (h : u.hostLink = true) : u.still = ((u.thy.cyc, u.thy.cycle, u.thy.period, u.thy.tick), u.pending, true, []) := by
    rw [State.still, h, if_pos rfl]
  exact (up { s with hostMem := m, flt := x } hl).trans ((up s hl).symm.trans hs)

/-! ### Frames -/

theorem sendFrame {p f} (hs : s.Still v) : (s.sendFrame p f).Still v := hs

theorem giveCredit {p c w n} (hs : s.Still v) : (s.giveCredit p c w n).Still v := hs

theorem releaseHeld {r} (hs : s.Still v) : (s.releaseHeld r).Still v := hs.foldl (·.giveCredit)

theorem flood {p f} (hs : s.Still v) : (s.flood p f).Still v := hs.foldl (·.sendFrame)

theorem sendRouted {d f} (hs : s.Still v) : (s.sendRouted d f).Still v := hs.bump.ite hs.sendFrame

theorem sendTo {m d f} (hs : s.Still v) : (s.sendTo m d f).Still v := hs.sendFrame.ite hs.sendRouted

/-! ### The Thyme master (R245, R249, R250) -/

theorem announce (hs : s.Still v) : s.announce.Still v := hs.foldl (·.sendFrame)

theorem masterHoldOn {a} (hs : s.Still v) : (s.masterHoldOn a).Still v := by
  have levels := hs.modThy (g := fun t => { t with levels := if t.levels.contains a then t.levels else t.levels ++ [a] })
  unfold State.masterHoldOn
  dsimp only
  split
  · exact levels.modThy.announce
  · split
    · exact levels
    · exact levels.modThy.announce.ite levels.modThy.announce

theorem masterHoldOff {a} (hs : s.Still v) : (s.masterHoldOff a).Still v := by
  have levels := hs.modThy (g := fun t => { t with levels := t.levels.filter (· != a) })
  unfold State.masterHoldOff
  dsimp only
  split
  · exact levels.ite levels.modThy.announce
  · exact levels

theorem masterRate (hs : s.Still v) : s.masterRate.Still v := hs.modThy.announce.ite (hs.modThy.announce.ite hs)

theorem retarget {l} (hs : s.Still v) : (s.retarget l).Still v := hs.modThy.masterRate

theorem dropMember {a} (hs : s.Still v) : (s.dropMember a).Still v := hs.retarget.ite hs

theorem tellsLoss {a c} (hs : s.Still v) : (s.tellsLoss a c).Still v := hs.withRing.dropMember.ite hs

theorem thymeMsg {k x} (hs : s.Still v) : (s.thymeMsg k x).Still v := (hs.masterHoldOff.ite (hs.masterHoldOn.ite hs.retarget)).ite hs.sendTo

/-! ### Events (R379, R436, R437) -/

theorem signalEvents {k} (hs : s.Still v) : (s.signalEvents k).Still v := by
  unfold State.signalEvents
  split
  exact hs.withFlt.ite hs

theorem loseEntry (hs : s.Still v) : s.loseEntry.Still v := hs.bump.setBits

theorem hostLink_of_fits {k a} (hq : s.flt.eqAddr = some a) (hfit : s.entryFits k = true) : s.hostLink = true := by
  by_contra h
  rw [State.entryFits, hq, Bool.not_eq_true] at *
  rw [h] at hfit
  exact Bool.false_ne_true hfit

theorem writeEntry {e} (hs : s.Still v) : (s.writeEntry e).Still v := by
  unfold State.writeEntry
  split
  · exact hs
  · cases hfit : s.entryFits e.kind
    · exact hs.loseEntry
    · split
      next => exact hs.loseEntry
      next =>
        split
        next => exact hs
        next hq => exact signalEvents (putHostMem (hostLink_of_fits hq hfit) hs)

theorem countEvent (hs : s.Still v) : s.countEvent.Still v := hs.bump.setBits

theorem postEvent {c o a d} (hs : s.Still v) : (s.postEvent c o a d).Still v :=
  have counted := hs.countEvent
  counted.bump.withFlt.ite (counted.withFlt.ite counted).writeEntry

theorem event {c d} (hs : s.Still v) : (s.event c d).Still v := hs.postEvent

/-! ### Reports (R337 to R341, R355) -/

theorem spoilRecvs {l : List Recv} (hs : s.Still v) :
    (l.foldl (fun (s : State) r => ({ s with mem := memPut s.mem r.buf (s.freeBytes r.len), freeCtr := s.freeCtr + r.len } : State).releaseHeld r) s).Still v :=
  hs.foldl fun h => releaseHeld h

theorem releasePartner {a} (hs : s.Still v) : (s.releasePartner a).Still v := hs.spoilRecvs.withRing

theorem sendRebinds {a} (hs : s.Still v) : (s.sendRebinds a).Still v := by
  unfold State.sendRebinds
  split
  · exact hs
  · exact hs.foldl fun h => by split; exacts [h, h.sendTo]

theorem twinLost (hs : s.Still v) : s.twinLost.Still v := hs.withMir.setBits.postEvent.sendRebinds.ite hs

theorem holdOff (hs : s.Still v) : s.holdOff.Still v := by
  unfold State.holdOff
  exact (hs.thymeMsg.ite hs).modThy

theorem actOn {e} (hs : s.Still v) : (s.actOn e).Still v := by
  have held := hs.withFlt (x := { s.flt with stopAsked := true }) |>.releasePartner (a := e.subject) |>.holdOff
  unfold State.actOn
  exact ite (held.masterHoldOff.ite held) (held.masterHoldOff.ite held).countEvent.writeEntry

theorem noteEcc {a c} (hs : s.Still v) : (s.noteEcc a c).Still v := hs.withMir.ite hs

theorem enterBeacon {a c m f p} (hs : s.Still v) : (s.enterBeacon a c m f p).1.Still v := by
  unfold State.enterBeacon
  split
  · exact (hs.withRing.noteEcc.ite hs.withRing).bump
  · split
    · exact hs.bump.setBits.flood
    · exact hs.withRing.noteEcc

theorem entryActs {x : State × Option Merge} (hx : x.1.Still v) : (State.entryActs x).Still v := by
  unfold State.entryActs
  split
  · exact hx
  · exact hx.actOn.ite hx

theorem enterReport {a c} (hs : s.Still v) : (s.enterReport a c).1.Still v := by
  unfold State.enterReport
  exact ite_fst (bump (ite hs.setBits (hs.setBits.ite hs))) (enterBeacon (withRing (ite hs.setBits (hs.setBits.ite hs))))

theorem settleEntry {x : State × Option Merge} (hx : x.1.Still v) : (State.settleEntry x).Still v := by
  unfold State.settleEntry
  dsimp only
  split
  · exact hx.entryActs
  · exact hx.entryActs.ite (hx.entryActs.ite hx.entryActs.tellsLoss.enterReport.entryActs).twinLost

theorem report {a c} (hs : s.Still v) : (s.report a c).Still v := hs.tellsLoss.enterReport.settleEntry

/-! ### Faults and ECC (R16, R209, R216, R219, R427) -/

theorem faultEntry {r} (hs : s.Still v) : (s.faultEntry r).Still v := hs.withFlt.ite hs.withFlt

theorem startCopy {c} (hs : s.Still v) : (s.startCopy c).Still v := by
  refine hs.ite ?_
  split
  · exact hs.ite hs.withTiers
  · split
    · exact hs.setBits
    · exact hs.withTiers.setReg64.setBits.event.ite hs.withTiers.setReg64

theorem selfTest {n} (hs : s.Still v) : (s.selfTest n).Still v := hs.ite hs

theorem countCorrected {c n} (hs : s.Still v) : (s.countCorrected c n).Still v := hs.withTiers.setBits.startCopy.ite hs.withTiers

theorem correctBlock {x} (hs : s.Still v) : (s.correctBlock x).Still v := hs.withTiers.countCorrected

theorem correctWord {w} (hs : s.Still v) : (s.correctWord w).Still v := hs.withTiers.bump

theorem correctAt {a n} (hs : s.Still v) : (s.correctAt a n).Still v := hs.ite ((hs.foldl (·.correctBlock)).ite (hs.foldl (·.correctWord)))

theorem corrected {l n} (hs : s.Still v) : (s.corrected l n).Still v := hs.ite (hs.foldl (·.correctAt))

theorem eccEffects {r} (hs : s.Still v) : (s.eccEffects r).Still v := hs.bump.selfTest.ite (hs.withTiers.setBits.startCopy.ite hs)

theorem recordFault {r} (hs : s.Still v) : (s.recordFault r).Still v :=
  have entered := hs.eccEffects.bump.setBits.withFlt.faultEntry
  entered.withFlt.ite entered

theorem raise {r} (hs : s.Still v) : (s.raise r).Still v := hs.recordFault.withFlt.report.ite hs.recordFault

/-! ### Module memory (R216, R217, R358) -/

theorem intoWindows {a l} (hs : s.Still v) : (s.intoWindows a l).Still v := hs.foldl fun h => h.ite (by split; exacts [h, h.withMem.ite h])

theorem forwardBytes {c k a l} (hs : s.Still v) : (s.forwardBytes c k a l).Still v := hs.foldl (·.sendFrame)

theorem refillForward {a n} (hs : s.Still v) : (s.refillForward a n).Still v := by
  unfold State.refillForward
  split
  · exact hs.forwardBytes.ite hs
  · exact hs

theorem putPlain {a l} (hs : s.Still v) : (s.putPlain a l).Still v :=
  have put := hs.withMem (m := memPut s.mem a l)
  hs.ite (intoWindows (withTiers (put.bump64.ite put))).refillForward

theorem putMem {a l} (hs : s.Still v) : (s.putMem a l).Still v := by
  unfold State.putMem
  dsimp only
  split
  · exact hs.corrected.putPlain
  · exact hs.corrected.putPlain.raise

theorem putAll {l} (hs : s.Still v) : (s.putAll l).Still v := hs.foldl (·.putMem)

/-! ### Replies (R379, R383) -/

theorem signalReply {c} (hs : s.Still v) : (s.signalReply c).Still v := hs.withFlt.ite hs

theorem putReply {c a o u f d l} (hs : s.Still v) : (s.putReply c a o u f d l).Still v := by
  cases hl : s.hostLink
  · rw [State.putReply, hl]
    exact hs
  · rw [State.putReply, hl]
    exact signalReply (putHostMem (x := s.flt) hl hs)

theorem reply {c o u f d l} (hs : s.Still v) : (s.reply c o u f d l).Still v := hs.putReply.bump

theorem finalReply {u f d l} (hs : s.Still v) : (s.finalReply u f d l).Still v := by
  have pending (u : State) (x : Option PendingCmd) (hu : u.Still v) : State.Still { u with host := { u.host with pendingCmd := x } } v := hu
  unfold State.finalReply
  split
  · exact hs
  · exact bump (pending _ _ hs.putReply)

end State.Still

end Sys2Proof.Machine
end

section
/-! What a core cycle by itself leaves of the clock and of the commands that wait (R72, R207, R234, R368); O1. -/

set_option Elab.async false

namespace Sys2Proof.Machine

namespace State.Still

variable {s t : State} {v : (Nat × Nat × Nat × Nat) × List Instr × Bool × Cells}

/-! ### Contention for the memory ports (R72) -/

theorem setOp {n o} (hs : s.Still v) : (s.setOp n o).Still v := hs

theorem stallPreload {n o} (hs : s.Still v) : (s.stallPreload n o).Still v := by
  unfold State.stallPreload
  split
  · split
    · exact hs
    · refine hs.ite ?_
      split
      · exact hs
      · exact (hs.ite hs.bump).setOp
  · exact hs

theorem passWaits {n} (hs : s.Still v) : (s.passWaits n).Still v := hs.modArr.bump64

theorem contendArray {n} (hs : s.Still v) : (s.contendArray n).Still v := by
  unfold State.contendArray
  exact hs.ite (onlyIf (onlyIf (onlyIf (onlyIf (foldl hs (·.stallPreload)) passWaits) modArr) bump) modArr)

theorem contend (hs : s.Still v) : s.contend.Still v := hs.foldl (·.contendArray)

/-! ### Counters of waiting -/

theorem headWait {a n x} (hs : s.Still v) : (s.headWait a n x).Still v := by
  unfold State.headWait
  split
  · exact hs.bump64.ite hs
  · exact hs.bump
  · exact hs.bump
  · exact hs.bump
  · exact hs.bump64
  · exact hs.bump
  · exact hs

theorem arrayWaits {i n} (hs : s.Still v) : (s.arrayWaits i n).Still v := by
  unfold State.arrayWaits
  exact onlyIf (bump (onlyIf (foldl hs fun h => by split; exacts [h.headWait, h]) bump64)) modArr

theorem waits {n} (hs : s.Still v) : (s.waits n).Still v := by
  unfold State.waits
  exact (hs.foldl (·.arrayWaits)).bump64.bump

/-! ### Stores, versions and the global norm (R190, R310, R330) -/

theorem landStore {n o} (hs : s.Still v) : (s.landStore n o).Still v := by
  unfold State.landStore
  split
  · exact hs.modArr.putMem
  · exact hs

theorem retireOp {n o} (hs : s.Still v) : (s.retireOp n o).Still v := hs

theorem closeWaits {n} (hs : s.Still v) : (s.closeWaits n).Still v := hs.modArr.ite hs

theorem expireArray {n} (hs : s.Still v) : (s.expireArray n).Still v := hs.closeWaits.foldl (·.landStore.retireOp)

theorem endVerWait {x} (hs : s.Still v) : (s.endVerWait x).Still v := by
  unfold State.endVerWait
  dsimp only
  split <;> exact hs

theorem settleVersions (hs : s.Still v) : s.settleVersions.Still v := hs.foldl fun h => h.ite h.endVerWait

theorem setG2 {g c} (hs : s.Still v) : (s.setG2 g c).Still v := hs

theorem sendNorm {d i g c e} (hs : s.Still v) : (s.sendNorm d i g c e).Still v := hs.sendTo

theorem settleNorm (hs : s.Still v) : s.settleNorm.Still v := by
  refine hs.ite ?_
  split
  · exact hs
  · dsimp only
    split
    · exact hs
    · exact ite ((hs.setG2.foldl (·.sendNorm)).ite hs.setG2) ((hs.withRing.foldl (·.sendNorm)).ite hs.withRing)

/-! ### Ring messages (R321, R322) -/

theorem modCtxE {i g} (hs : s.Still v) : (s.modCtxE i g).Still v := hs

theorem toPartner {i c p y g o a l} (hs : s.Still v) : (s.toPartner i c p y g o a l).Still v := hs.sendTo

theorem armDue {i} (hs : s.Still v) : (s.armDue i).Still v := by
  unfold State.armDue
  split
  · exact hs
  · exact (hs.foldl (·.toPartner)).modCtxE

theorem sendOne {i c x a l} (hs : s.Still v) : (s.sendOne i c x a l).Still v := by
  unfold State.sendOne
  refine hs.modCtxE.modCtxE.raise.ite (hs.modCtxE.modCtxE.raise.ite ?_)
  dsimp only
  split
  · exact hs.modCtxE.modCtxE.raise
  · exact (hs.modCtxE.corrected.foldl (·.toPartner)).modCtxE

theorem sendDue {k i} (hs : s.Still v) : (State.sendDue k i s).Still v := by
  induction k generalizing s with
  | zero => exact hs
  | succ k ih =>
    unfold State.sendDue
    split
    · exact hs
    · split
      · exact hs.ite (ih hs.sendOne)
      · exact hs

theorem settleRing (hs : s.Still v) : s.settleRing.Still v := hs.foldl fun h => h.armDue.sendDue.ite h

/-! ### BAR4, refill and service (R348, R358, R377) -/

theorem landBar4 {k} (hs : s.Still v) : (State.landBar4 k s).Still v := by
  induction k generalizing s with
  | zero => exact hs
  | succ k ih =>
    unfold State.landBar4
    split
    · exact hs
    · split
      · exact ih (putMem (s := { s with host := { s.host with bar4Waiting := _ } }) hs)
      · exact hs

theorem refillMark {i k} (hs : s.Still v) : (s.refillMark i k).Still v := hs

theorem settleRefill (hs : s.Still v) : s.settleRefill.Still v := hs.withMir.setBits.refillMark.ite hs

theorem copyRange {k a n} (hs : s.Still v) : (s.copyRange k a n).Still v := by
  unfold State.copyRange
  split
  · exact hs.raise
  · exact hs.corrected.forwardBytes

theorem copyToTwin {k} (hs : s.Still v) : (s.copyToTwin k).Still v := by
  unfold State.copyToTwin
  exact ((hs.foldl (·.copyRange)).foldl (·.sendFrame)).refillMark

theorem settleService (hs : s.Still v) : s.settleService.Still v := by
  refine hs.ite (withMir ?_)
  split
  · split
    · exact hs.toPartner.withRing
    · exact hs
  · exact hs

theorem endService (hs : s.Still v) : s.endService.Still v := hs.withMir.settleService

/-! ### Stop, rollback and restart (R351, R359, R386, R427) -/

theorem settleStop (hs : s.Still v) : s.settleStop.Still v := hs.ite (ite (hs.finalReply.ite hs) hs)

theorem substitute {n p} (hs : s.Still v) : (s.substitute n p).Still v := by
  unfold State.substitute
  split
  · exact event hs
  · exact ite (event (event hs)) (event hs)

theorem settleSubst (hs : s.Still v) : s.settleSubst.Still v := foldl hs (·.substitute)

theorem loadStreams {l} (hs : s.Still v) : (s.loadStreams l).Still v := hs.foldl fun h => h

theorem setRw {a x} (hs : s.Still v) : (s.setRw a x).Still v := hs

theorem loadRecord {r} (hs : s.Still v) : (s.loadRecord r).Still v := hs.loadStreams

theorem captureStream {n st} (hs : s.Still v) : (s.captureStream n st).Still v := hs.ite hs.withMir

theorem captureCounters {k} (hs : s.Still v) : (s.captureCounters k).Still v := hs.ite hs.withMir

theorem captureWeights {k} (hs : s.Still v) : (s.captureWeights k).Still v := hs.ite hs.withMir

theorem captureAll {k} (hs : s.Still v) : (s.captureAll k).Still v :=
  (hs.foldl fun h => h.foldl (·.captureStream)).captureCounters.captureWeights

theorem restoreGen {g} (hs : s.Still v) : (s.restoreGen g).Still v := by
  unfold State.restoreGen
  dsimp only
  split <;> split <;> exact hs.loadStreams

theorem rollback {k g} (hs : s.Still v) : (s.rollback k g).Still v := by
  unfold State.rollback
  exact (foldl (s := { s.emptyQueues with arrays := _ }) hs (·.putAll)).withMir.restoreGen

theorem rebase {k d} (hs : s.Still v) : (s.rebase k d).Still v := hs

theorem reachStep {r} (hs : s.Still v) : (s.reachStep r).Still v := by
  refine hs.ite (hs.loadRecord.withMir.captureAll.ite ?_)
  split
  · exact hs.rollback
  · exact hs

theorem restartNow {r} (hs : s.Still v) : (s.restartNow r).Still v := by
  have based := hs.reachStep (r := r) |>.settleSubst.rebase (k := r.tick) (d := r.rollback && r.degraded)
  unfold State.restartNow
  dsimp only
  split
  · exact reply (ite (endService (copyToTwin based)) based)
  · exact ite (endService (copyToTwin based)) based

theorem settleRestart (hs : s.Still v) : s.settleRestart.Still v := by
  unfold State.settleRestart
  split
  · refine ite ?_ (hs.restartNow.ite hs)
    dsimp only
    split
    · exact reply hs
    · exact hs
  · exact hs

/-- What falls due in a cycle moves no clock. -/
theorem expire (hs : s.Still v) : s.expire.Still v :=
  (hs.foldl (·.expireArray)).settleVersions.settleNorm.settleRing.landBar4.settleRefill.settleService.settleStop.settleRestart

end State.Still

/-! ### A core cycle -/

theorem State.clock_of_still {s : State} {cyc cycle period tick : Nat} {p : List Instr} {l : Bool} {m : Cells}
    (h : s.still = ((cyc, cycle, period, tick), p, l, m)) :
    s.thy.cyc = cyc ∧ s.thy.cycle = cycle ∧ s.thy.period = period ∧ s.thy.tick = tick ∧ s.pending = p := by
  simp only [State.still, Prod.mk.injEq] at h
  obtain ⟨⟨hcyc, hcycle, hperiod, htick⟩, hp, -⟩ := h
  exact ⟨hcyc, hcycle, hperiod, htick, hp⟩

/-- A core cycle of arbitration and waiting, before the clock moves on. -/
def State.cycleWaits (s : State) : State := s.contend.waits 1

theorem State.cycleWaits_still (s : State) : s.cycleWaits.still = s.still := State.Still.waits (State.Still.contend rfl)

/-- The 10 MHz output is driven in the cycle (R254). -/
def State.drivesTen (s : State) : Bool := (s.contend.reg Reg.THY_OUT_CTRL).getLsbD 1 && !s.contend.thy.outLow

theorem State.oneCycle_eq (s : State) : s.oneCycle = (s.cycleWaits.modThy fun t => t.advance 1 s.drivesTen).expire := rfl

theorem State.oneCycle_still (s : State) : s.oneCycle.still =
    ((s.thy.cyc + 1, s.thy.cycle + 1, s.thy.period, s.thy.tick), s.pending, s.hostLink, if s.hostLink then [] else s.hostMem) := by
  have moved (u : State) (b : Bool) : (u.modThy fun t => t.advance 1 b).still =
      ((u.still.1.1 + 1, u.still.1.2.1 + 1, u.still.1.2.2.1, u.still.1.2.2.2), u.still.2) := rfl
  have expired : s.oneCycle.still = (s.cycleWaits.modThy fun t => t.advance 1 s.drivesTen).still := by
    rw [State.oneCycle_eq]
    exact State.Still.expire rfl
  rw [expired, moved, State.cycleWaits_still]
  rfl

theorem State.idleCycle_stays {s : State} (h : s.host.bootDone = false ∨ 255 ≤ s.thy.cyc) : s.idleCycle = s := by
  refine if_neg fun hgo => ?_
  obtain ⟨hboot, hcyc⟩ := Bool.and_eq_true_iff.1 hgo
  rcases h with h | h
  · exact Bool.false_ne_true (h.symm.trans hboot)
  · exact absurd (of_decide_eq_true hcyc) (Nat.not_lt.2 h)

theorem State.idleCycle_runs {s : State} (hboot : s.host.bootDone = true) (hcyc : s.thy.cyc < 255) : s.idleCycle = s.oneCycle :=
  if_pos (by rw [hboot, decide_eq_true hcyc]; rfl)

/-! ### An empty queue (log 5) -/

theorem exec_event_run (e : Event) (s : State) : exec e.instr s = .next (e.run s) := by
  obtain ⟨t, ht⟩ := (exec_answers e.instr s).exists_next
  rw [ht, Event.run_of_exec e s t ht]

theorem step_empty {s : State} (h : s.pending = []) : step s = .next (s.dueEvent.getD s.idleCycle) := by
  unfold step
  rw [h]
  rfl

/-- The event that is due is the first that changes the state. -/
theorem State.dueEvent_some {s t : State} (h : s.dueEvent = some t) : t ≠ s ∧ ∃ e ∈ s.events, exec e.instr s = .next t := by
  obtain ⟨e, he, hrun⟩ := List.exists_of_findSome?_eq_some h
  split at hrun
  next => exact absurd hrun nofun
  next hne =>
    rw [Option.some.inj hrun] at hne
    exact ⟨hne, e, he, (exec_event_run e s).trans (congrArg Host.Outcome.next (Option.some.inj hrun))⟩

/-- With none due, no event changes the state. -/
theorem State.dueEvent_none {s : State} (h : s.dueEvent = none) : ∀ e ∈ s.events, exec e.instr s = .next s := by
  intro e he
  have idle := List.findSome?_eq_none_iff.1 h e he
  split at idle
  next hrun => rw [exec_event_run, hrun]
  next => exact absurd idle nofun

/-- Settles O1: an event is its command, and nothing that a core cycle by itself brings touches the clock or the commands that wait. -/
theorem stepRunsFront : Obligations.StepRunsFront := by
  refine ⟨fun c rest s => rfl, fun s t hq hdue => ⟨?_, State.dueEvent_some hdue⟩, fun s hq hdue => ⟨State.dueEvent_none hdue, fun hstay => ?_, fun hboot hcyc => ?_⟩⟩
  · rw [step_empty hq, hdue]
    rfl
  · rw [step_empty hq, hdue, Option.getD_none, State.idleCycle_stays hstay]
  · obtain ⟨cyc, cycle, period, tick, pending⟩ := State.clock_of_still s.oneCycle_still
    refine ⟨s.oneCycle, ?_, cyc, cycle, period, tick, pending.trans hq⟩
    rw [step_empty hq, hdue, Option.getD_none, State.idleCycle_runs hboot hcyc]

end Sys2Proof.Machine
end

section
/-! What a command of Sage leaves of host memory over a link that is down (R379), and what it leaves where its state or its parameters refuse it (R382, R385, R389); O52. -/

set_option Elab.async false

namespace Sys2Proof.Machine

namespace State.Still

variable {s t : State} {v : (Nat × Nat × Nat × Nat) × List Instr × Bool × Cells}

/-! ### Commands -/

/-- A command leaves what its act leaves. -/
theorem command {o c k l} {act : State → State} (hs : s.Still v) (ha : ∀ {t}, t.Still v → (act t).Still v) : (s.command o c k l act).Still v :=
  hs.ite <| hs.postEvent.ite <| hs.reply.ite <| hs.reply.ite <| hs.reply.ite <| hs.reply.ite (ha hs)

theorem used {n} (hs : s.Still v) : (s.used n).Still v := hs

/-- The host interface changes beside its PCIe link. -/
theorem withHost {x} (hs : s.Still v) (hx : x.pcie = s.host.pcie := by exact rfl) : ({ s with host := x } : State).Still v := by
  have link : State.hostLink { s with host := x } = s.hostLink := congrArg (fun p : Pcie => p.link.width != 0) hx
  unfold State.Still State.still at hs ⊢
  rw [link]
  exact hs

theorem withFltHost {x y} (hs : s.Still v) (hy : y.pcie = s.host.pcie := by exact rfl) : ({ s with flt := x, host := y } : State).Still v :=
  withHost (s := { s with flt := x }) hs hy

theorem withStpMir {x y} (hs : s.Still v) : ({ s with stp := x, mir := y } : State).Still v := hs

theorem withRingMir {x y} (hs : s.Still v) : ({ s with ring := x, mir := y } : State).Still v := hs

theorem setSt {x} (hs : s.Still v) : (s.setSt x).Still v := hs.withHost

theorem withArrays {x} (hs : s.Still v) : ({ s with arrays := x } : State).Still v := hs

/-- What CLOSE empties: memory, the array contexts and the session. -/
theorem withoutSession {a m x r h} (hs : s.Still v) (hh : h.pcie = s.host.pcie := by exact rfl) :
    ({ s with mem := [], tiers := r, arrays := a, mask := m, stp := x, host := h } : State).Still v :=
  withHost (s := { s with mem := [], tiers := r, arrays := a, mask := m, stp := x }) hs hh

theorem replyPending {c o a} (hs : s.Still v) : (s.replyPending c o a).Still v := putReply hs

theorem replyBoth {c o u f d l} (hs : s.Still v) : (s.replyBoth c o u f d l).Still v := hs.putReply.putReply.bump

/-! ### The ring and the pair -/

theorem modPort {p g} (hs : s.Still v) : (s.modPort p g).Still v := hs

theorem trainPort {p} (hs : s.Still v) : (s.trainPort p).Still v := hs

theorem changeBay {old new : Bool} {l : List Nat} (hs : s.Still v) :
    (if old == new then s else l.foldl (fun (s : State) p =>
      let s := s.modPort p (fun q => { Port.reset with wire := q.wire })
      if new then s.trainPort p else s) s).Still v :=
  hs.ite (hs.foldl fun h => h.modPort.trainPort.ite h.modPort)

theorem setBays {x y m} (hs : s.Still v) : (s.setBays x y m).Still v := by
  unfold State.setBays
  exact hs.changeBay.changeBay.changeBay.withRing.bump

theorem becomeMaster (hs : s.Still v) : s.becomeMaster.Still v := by
  unfold State.becomeMaster
  exact onlyIf hs.modThy.retarget masterHoldOn

theorem leaveAll (hs : s.Still v) : s.leaveAll.Still v := by
  unfold State.leaveAll
  exact hs.setBays.withRingMir.modThy.becomeMaster

theorem baysFor {c o x y m} {act : State → State} (hs : s.Still v) (ha : ∀ {t}, t.Still v → (act t).Still v) : (s.baysFor c o x y m act).Still v :=
  ite (reply hs) (ha hs)

theorem rename {o a} (hs : s.Still v) : (s.rename o a).Still v := hs.modThy.ite hs

theorem trainRing (hs : s.Still v) : s.trainRing.Still v := hs.foldl fun h => h.ite h.trainPort

theorem reparent (hs : s.Still v) : s.reparent.Still v := hs.ite hs.modThy

theorem finishJoin (hs : s.Still v) : s.finishJoin.Still v := hs.used.modThy.withRing.ite hs

theorem refillTo {x} (hs : s.Still v) : (s.refillTo x).Still v := by
  unfold State.refillTo
  split
  · exact hs.withMir.setReg64
  · exact hs.withMir.settleRefill

theorem beginRefill {w i} (hs : s.Still v) : (s.beginRefill w i).Still v := by
  unfold State.beginRefill
  exact hs.withRing.toPartner.withMir.refillTo

theorem formPair {w} (hs : s.Still v) : (s.formPair w).Still v := hs.withMir.finalReply

theorem finishPair {w} (hs : s.Still v) : (s.finishPair w).Still v := by
  unfold State.finishPair
  dsimp only
  refine hs.ite (hs.used.setBays.finalReply.ite (hs.used.formPair.ite ?_))
  split
  · exact (hs.used.setBits (a := Reg.RNG_STATUS) (m := 0x20)).setBays.finalReply
  · exact hs.used.formPair.beginRefill

theorem pairWith {c w} (hs : s.Still v) : (s.pairWith c w).Still v := by
  unfold State.pairWith
  exact hs.replyBoth.ite (hs.setBays.replyPending.finishPair.ite hs.setBays.replyPending.modPort)

/-! ### Images -/

theorem unloadImage (hs : s.Still v) : s.unloadImage.Still v := settleSubst (s := s.emptyQueues) hs

theorem clearRegs {p} (hs : s.Still v) : (s.clearRegs p).Still v := hs

theorem closeActions (hs : s.Still v) : s.closeActions.Still v := by
  unfold State.closeActions
  exact clearRegs (setBits (setReg (foldl (withoutSession hs.unloadImage.withRing.leaveAll).setRw (·.setRw))))

theorem takeImage {i} (hs : s.Still v) : (s.takeImage i).Still v := hs.unloadImage

theorem refuseImage {c e} (hs : s.Still v) : (s.refuseImage c e).Still v := by
  unfold State.refuseImage
  dsimp only
  split
  · exact hs.setReg.setReg.replyBoth
  · exact hs.replyBoth

theorem loadImage {c a n} (hs : s.Still v) : (s.cmdLoadImage c a n).Still v := by
  refine hs.command fun h => h.replyBoth.ite (h.replyBoth.ite ?_)
  split
  · exact refuseImage h
  · exact replyBoth (takeImage h)

theorem patchImage {c k a i} (hs : s.Still v) : (s.patchImage c k a i).Still v := by
  unfold State.patchImage
  split
  · exact hs.reply
  · exact hs.reply.ite (hs.reply.ite (reply hs))

theorem patch {c k a} (hs : s.Still v) : (s.cmdPatch c k a).Still v := by
  refine hs.command fun h => ?_
  split
  · exact h.reply
  · exact h.patchImage

theorem zeroFill {a n} (hs : s.Still v) : (s.zeroFill a n).Still v := hs

theorem placeImages {l x} (hs : s.Still v) : (s.placeImages l x).Still v := by
  unfold State.placeImages
  refine foldl (hs.foldl (·.onlyIf zeroFill)) fun h => ?_
  split
  · exact h.putMem.ite h
  · exact h

theorem commitAs {i x l} (hs : s.Still v) : (s.commitAs i x l).Still v := by
  unfold State.commitAs
  exact clearRegs (withHost (hs.placeImages.withArrays.withRing.ite hs.placeImages.withArrays.withRing.putMem))

theorem commitImage {c i} (hs : s.Still v) : (s.commitImage c i).Still v := by
  refine hs.replyBoth.ite (hs.replyBoth.ite ?_)
  split
  · exact hs.replyBoth
  · split
    · exact hs.replyBoth
    · exact hs.commitAs.replyBoth

theorem commit {c} (hs : s.Still v) : (s.cmdCommitImage c).Still v := by
  refine hs.command fun h => ?_
  split
  · exact h.reply
  · exact h.commitImage

/-! ### Owners -/

theorem hostStop (hs : s.Still v) : s.hostStop.Still v := by
  have ended := hs.onlyIf (c := s.pendingIs 0x21 = true) (finalReply (u := Status.state) (f := 0) (d := 0) (l := []))
  unfold State.hostStop
  dsimp only
  split
  · split
    · exact ended.reply.withFltHost
    · exact ended.withFltHost
  · exact ended.withFltHost

theorem takeOwner {o x m} (hs : s.Still v) : (s.takeOwner o x m).Still v := hs.withHost

theorem openAs {c x y m k o} (hs : s.Still v) : (s.openAs c x y m k o).Still v := by
  unfold State.openAs
  dsimp only
  refine hs.reply.ite (hs.reply.ite ?_)
  split
  · exact hs.reply
  · refine hs.takeOwner.reply.ite (ite (hs.reply.ite hs.withHost.reply) ?_)
    exact (hs.onlyIf hostStop).closeActions.takeOwner.replyBoth

/-! ### Runs and records -/

theorem hostReads {a n} (hs : s.Still v) : (s.hostReads a n).1.Still v := by
  unfold State.hostReads
  split
  · exact hs.raise.used
  · exact hs.corrected

theorem setJob {a j} (hs : s.Still v) : (s.setJob a j).Still v := by
  unfold State.setJob
  exact hs.hostReads.withRing.withRing.used

theorem openDeclared (hs : s.Still v) : s.openDeclared.Still v := hs.foldl (·.modCtxE.toPartner)

theorem settleStart (hs : s.Still v) : s.settleStart.Still v := hs.finalReply.ite hs

theorem beginRun {x y} (hs : s.Still v) : (s.beginRun x y).Still v := by
  unfold State.beginRun
  exact captureAll hs

theorem start {c x y j a} (hs : s.Still v) : (s.cmdStart c x y j a).Still v := by
  refine hs.command fun h => h.reply.ite ?_
  split
  · exact h.reply
  · exact h.setJob.beginRun.replyPending.openDeclared.settleStart

theorem resume {c m w k x} (hs : s.Still v) : (s.cmdResume c m w k x).Still v := by
  refine hs.command fun h => ?_
  split
  · exact h.reply
  · exact h.reply
  · exact settleRestart h

theorem snapshotIn {c k r} (hs : s.Still v) : (s.snapshotIn c k r).Still v := by
  have back : s.writeBackAll.Still v := bump64 hs
  unfold State.snapshotIn
  exact back.replyBoth.ite back.putMem.replyBoth

theorem snapshot {c k} (hs : s.Still v) : (s.cmdSnapshot c k).Still v := by
  refine hs.command fun h => ?_
  split
  · exact h.reply
  · exact h.snapshotIn

theorem restoreFrom {c r} (hs : s.Still v) : (s.restoreFrom c r).Still v := by
  unfold State.restoreFrom
  exact hs.hostReads.replyBoth.ite (captureAll hs.hostReads.loadRecord.withStpMir).setSt.replyBoth

theorem restore {c k} (hs : s.Still v) : (s.cmdRestore c k).Still v := by
  refine hs.command fun h => ?_
  split
  · exact h.reply
  · exact h.restoreFrom

/-! ### Firmware and faults -/

theorem fwLoad {c a n} (hs : s.Still v) : (s.cmdFwLoad c a n).Still v := by
  refine hs.command fun h => h.replyBoth.ite ?_
  split
  · exact h.replyBoth
  · exact replyBoth h

theorem clearFaults {a} (hs : s.Still v) : (s.clearFaults a).Still v := by
  unfold State.clearFaults
  exact onlyIf (onlyIf hs fun h => h) clearRegs

theorem faultClear {c n} (hs : s.Still v) : (s.cmdFaultClear c n).Still v := by
  have found (u : State) (hu : u.Still v) : State.Still { u with thy := { u.thy with phaseLost := false } } v := hu
  exact hs.command fun h => (h.reply.ite h.replyPending).ite (found _ h).clearFaults.reply

theorem fwActivate {c k a} (hs : s.Still v) : (s.cmdFwActivate c k a).Still v :=
  hs.command fun h => h.reply.ite (h.reply.ite h.replyPending.withHost)

theorem hold {c k} (hs : s.Still v) : (s.cmdHold c k).Still v := hs.command fun h => h.reply.ite h.replyPending.withHost

theorem joinRing {c a x y} (hs : s.Still v) : (s.cmdJoinRing c a x y).Still v := by
  unfold State.cmdJoinRing
  dsimp only
  exact hs.command (·.baysFor fun h => (rename h.withRing).setBays.trainRing.replyPending.reparent.finishJoin)

end State.Still

/-- The outcome leaves the module standing as it stood. -/
def Stands (s : State) : Host.Outcome State Fault Refusal → Prop
  | .next t => t.Still s.still
  | _ => False

/-- The commands that R379 keeps from host memory while the link is down. -/
def linkCmds (c : CmdHdr) (a b d : BitVec 64) (sh : BitVec 48) (k : BitVec 16) (j : BitVec 32) (f : Bool) : List Instr :=
  [.identify c, .close c, .hold c sh, .resume c 0 0 sh a, .stop c, .snapshot c k, .restore c k, .joinRing c 0 1 1, .pair c k,
    .leaveRing c, .fwLoad c a b, .fwActivate c f sh, .attest c 0, .faultClear c f f, .loadImage c a b, .patch c k a, .commitImage c, .unload c,
    .start c a sh j d, .openCmd c k k 0 f a]

theorem exec_linkCmd (c : CmdHdr) (a b d : BitVec 64) (sh : BitVec 48) (k : BitVec 16) (j : BitVec 32) (f : Bool) (s : State) :
    ∀ i ∈ linkCmds c a b d sh k j f, Stands s (exec i s) := by
  have hs : s.Still s.still := rfl
  simp only [linkCmds, List.forall_mem_cons, List.not_mem_nil, false_imp_iff, implies_true, and_true]
  exact ⟨hs.command (·.reply), hs.command (·.closeActions.replyBoth), hs.hold, hs.resume, hs.command (·.hostStop.reply), hs.snapshot, hs.restore, hs.joinRing,
    hs.command fun h => h.reply.ite h.pairWith, hs.command (·.baysFor (·.leaveAll.reply)), hs.fwLoad, hs.fwActivate, hs.command (·.reply), hs.faultClear,
    hs.loadImage, hs.patch, hs.commit, hs.command (·.unloadImage.withHost.reply), hs.start, hs.command State.Still.openAs⟩

/-- Host memory is as it was where the link is down. -/
theorem State.hostMem_of_still {s t : State} (h : t.still = s.still) (hl : s.hostLink = false) : t.hostMem = s.hostMem := by
  simp only [State.still, Prod.mk.injEq] at h
  obtain ⟨-, -, link, mem⟩ := h
  rw [link, hl] at mem
  exact mem

theorem Stands.hostMem {s : State} {o : Host.Outcome State Fault Refusal} (h : Stands s o) (hl : s.hostLink = false) : ∃ t, o = .next t ∧ t.hostMem = s.hostMem := by
  cases o with
  | next t => exact ⟨t, rfl, State.hostMem_of_still h hl⟩
  | fault => exact h.elim
  | refused => exact h.elim

/-! ### Commands that are not carried out (R382, R389) -/

/-- The commands with their opcode and the states in which they are legal, with parameters in range. -/
def stateCmds (c : CmdHdr) (a b d : BitVec 64) (sh : BitVec 48) (k : BitVec 16) (j : BitVec 32) (f : Bool) : List (Instr × Nat × List ModState) :=
  [(.close c, 0x03, [.opened, .loaded, .ready, .held, .stopped]), (.loadImage c a b, 0x10, [.opened, .loaded, .ready]),
    (.patch c k a, 0x11, [.loaded]), (.commitImage c, 0x12, [.loaded]), (.unload c, 0x13, [.loaded, .ready, .stopped]),
    (.start c a sh j d, 0x20, [.ready]), (.hold c sh, 0x21, [.running]), (.resume c 0 0 sh a, 0x22, [.held, .stopped, .ready]),
    (.stop c, 0x23, [.running, .held]), (.snapshot c k, 0x30, [.held]), (.restore c k, 0x31, [.ready]),
    (.joinRing c 0 1 1, 0x40, [.opened, .loaded, .ready]), (.pair c k, 0x41, [.ready, .held]),
    (.leaveRing c, 0x42, [.opened, .loaded, .ready, .stopped]), (.fwLoad c a b, 0x50, [.opened, .loaded, .ready, .running, .held, .stopped]),
    (.fwActivate c f sh, 0x51, [.opened, .loaded, .ready, .running, .held, .stopped]),
    (.attest c 0, 0x60, [.opened, .loaded, .ready, .running, .held, .stopped]),
    (.eventQueue c 4096 64, 0x70, [.opened, .loaded, .ready, .running, .held, .stopped]), (.faultClear c f f, 0x71, [.stopped])]

/-- What a command does where its checks pass. -/
def runsAs (o : Host.Outcome State Fault Refusal) (s : State) (op : Nat) (c : CmdHdr) (ok : Bool) (legal : List ModState) : Prop :=
  ∃ act, o = .next (s.command op c ok legal act)

/-- A place in a ring of `xn` by `yn`, each up to 64. -/
def placeOk (addr xn yn : Nat) : Bool := 1 ≤ xn && xn ≤ 64 && 1 ≤ yn && yn ≤ 64 && addr / 256 < xn && addr % 256 < yn

theorem State.cmdJoinRing_checks (c : CmdHdr) (a xn yn : Nat) (s : State) :
    ∃ act, s.cmdJoinRing c a xn yn = s.command 0x40 c (placeOk a xn yn) [.opened, .loaded, .ready] act := by
  unfold State.cmdJoinRing placeOk
  exact ⟨_, rfl⟩

section
variable {c : CmdHdr} {s : State} {ok : Bool}

theorem exec_joinRing_checks {addr : BitVec 16} {xn yn : BitVec 8} (h : placeOk addr.toNat xn.toNat yn.toNat = ok) :
    runsAs (exec (.joinRing c addr xn yn) s) s 0x40 c ok [.opened, .loaded, .ready] := by
  obtain ⟨act, hact⟩ := State.cmdJoinRing_checks c addr.toNat xn.toNat yn.toNat s
  exact ⟨act, (congrArg Host.Outcome.next hact).trans (by rw [h])⟩

theorem exec_eventQueue_checks {addr : BitVec 64} {n : BitVec 32} (h : queueOk addr.toNat n.toNat = ok) :
    runsAs (exec (.eventQueue c addr n) s) s 0x70 c ok openedStates := h ▸ ⟨_, rfl⟩

theorem exec_resume_checks {mode variant : BitVec 8} {step : BitVec 48} {tr : BitVec 64} (h : (decide (mode.toNat ≤ 1) && decide (variant.toNat ≤ 1)) = ok) :
    runsAs (exec (.resume c mode variant step tr) s) s 0x22 c ok [.held, .stopped, .ready] := h ▸ ⟨_, rfl⟩

theorem exec_openCmd_checks {hi lo : BitVec 16} {mode : BitVec 8} {b : Bool} {owner : BitVec 64} (h : (decide (mode.toNat ≤ 1) && owner.toNat != 0) = ok) :
    runsAs (exec (.openCmd c hi lo mode b owner) s) s 0x02 c ok allStates := h ▸ ⟨_, rfl⟩

end

theorem exec_stateCmd (c : CmdHdr) (a b d : BitVec 64) (sh : BitVec 48) (k : BitVec 16) (j : BitVec 32) (f : Bool) (s : State) :
    ∀ p ∈ stateCmds c a b d sh k j f, runsAs (exec p.1 s) s p.2.1 c true p.2.2 := by
  simp only [stateCmds, List.forall_mem_cons, List.not_mem_nil, false_imp_iff, implies_true, and_true]
  exact ⟨⟨_, rfl⟩, ⟨_, rfl⟩, ⟨_, rfl⟩, ⟨_, rfl⟩, ⟨_, rfl⟩, ⟨_, rfl⟩, ⟨_, rfl⟩, exec_resume_checks rfl, ⟨_, rfl⟩, ⟨_, rfl⟩, ⟨_, rfl⟩, exec_joinRing_checks (by decide),
    ⟨_, rfl⟩, ⟨_, rfl⟩, ⟨_, rfl⟩, ⟨_, rfl⟩, ⟨_, rfl⟩, exec_eventQueue_checks (by decide), ⟨_, rfl⟩⟩

/-- Commands with a parameter out of range. -/
def rangeCmds (c : CmdHdr) (a : BitVec 64) (sh : BitVec 48) (k : BitVec 16) (f : Bool) : List (Instr × Nat) :=
  [(.openCmd c k k 2 f a, 0x02), (.openCmd c k k 0 f 0, 0x02), (.resume c 2 0 sh a, 0x22), (.resume c 0 2 sh a, 0x22),
    (.joinRing c 0 0 1, 0x40), (.joinRing c 0 1 65, 0x40), (.joinRing c 256 1 1, 0x40), (.eventQueue c 64 64, 0x70),
    (.eventQueue c 4096 96, 0x70)]

theorem exec_rangeCmd (c : CmdHdr) (a : BitVec 64) (sh : BitVec 48) (k : BitVec 16) (f : Bool) (s : State) :
    ∀ p ∈ rangeCmds c a sh k f, ∃ legal, runsAs (exec p.1 s) s p.2 c false legal := by
  simp only [rangeCmds, List.forall_mem_cons, List.not_mem_nil, false_imp_iff, implies_true, and_true]
  exact ⟨⟨_, exec_openCmd_checks rfl⟩, ⟨_, exec_openCmd_checks rfl⟩, ⟨_, exec_resume_checks rfl⟩, ⟨_, exec_resume_checks rfl⟩,
    ⟨_, exec_joinRing_checks (by decide)⟩, ⟨_, exec_joinRing_checks (by decide)⟩, ⟨_, exec_joinRing_checks (by decide)⟩,
    ⟨_, exec_eventQueue_checks (by decide)⟩, ⟨_, exec_eventQueue_checks (by decide)⟩⟩

theorem State.command_down {s : State} (h : s.sageUp = false) (op : Nat) (c : CmdHdr) (ok : Bool) (legal : List ModState) (act : State → State) :
    s.command op c ok legal act = s := if_pos (by rw [h]; rfl)

theorem State.command_illegal {s : State} {c : CmdHdr} (h : s.takes c) {legal : List ModState} (hst : s.host.st ∉ legal) (op : Nat) (act : State → State) :
    s.command op c true legal act = s.reply c op Status.state 0 0 [] := by
  obtain ⟨hup, -, haddr, hrec, -⟩ := h
  simp [State.command, hup, haddr, hrec, hst, State.replyState]

theorem State.command_malformed {s : State} {c : CmdHdr} (h : s.takes c) (op : Nat) (legal : List ModState) (act : State → State) :
    s.command op c false legal act = s.reply c op Status.refused 0x01 0 [] := by
  obtain ⟨hup, -, haddr, -⟩ := h
  simp [State.command, hup, haddr, State.refuse]

/-- Settles O52: a command that the state or its parameters refuse is a reply alone; and whatever a command does, host memory is written only over a link that is up. -/
theorem commandChecks : Obligations.CommandChecks := by
  intro c a b d sh k j f s
  refine ⟨fun p hp => ?_, fun p hp h => ?_, fun hl i hi => (exec_linkCmd c a b d sh k j f s i hi).hostMem hl⟩
  · obtain ⟨act, effect⟩ := exec_stateCmd c a b d sh k j f s p hp
    refine ⟨fun hdown => effect.trans (congrArg Host.Outcome.next (State.command_down hdown _ _ _ _ _)), fun h hst => ?_⟩
    obtain ⟨-, hl, -⟩ := id h
    exact ⟨_, effect.trans (congrArg Host.Outcome.next (State.command_illegal h hst _ _)), s.onlyReply_reply _ _ _ _ _ _, State.answered_reply _ _ _ _ _ _ hl⟩
  · obtain ⟨legal, act, effect⟩ := exec_rangeCmd c a sh k f s p hp
    obtain ⟨-, hl, -⟩ := id h
    exact ⟨_, effect.trans (congrArg Host.Outcome.next (State.command_malformed h _ _ _)), s.onlyReply_reply _ _ _ _ _ _, State.answered_reply _ _ _ _ _ _ hl⟩

end Sys2Proof.Machine
end
